-- ==== Sys2Proof/Word.lean ====
section
/-! DEFINITION. The words of the node (R7, R8): bits that software sees as bits are bit vectors; indexes of a fixed number of
like things are `Fin`; lengths and counts are `Nat`. -/
namespace Sys2Proof

/-- A 64-bit register, address or time value. -/
abbrev Word := BitVec 64
/-- One byte. -/
abbrev Byte := BitVec 8
/-- Pilot-core or application-core integer register number. -/
abbrev Reg := Fin 32
/-- Logical tile index, die × 1024 + flask × 16 + tile (R35). -/
abbrev TileId := Fin 4096
/-- Flask page instance, die × 64 + flask (R46). -/
abbrev FlaskId := Fin 256
/-- Logical PD application core (R173). -/
abbrev CoreId := Fin 64
/-- Context number (R215); linkage queue q belongs to context q (R384). -/
abbrev CtxId := Fin 16
/-- Polder number (R262). -/
abbrev PolderId := Fin 16
/-- HBM stack site S0–S11 (R16). -/
abbrev SiteId := Fin 12
/-- Fabric port P00–P17 (R282). -/
abbrev PortId := Fin 18
/-- Fabric die FD0, FD1. -/
abbrev FabricDie := Fin 2
/-- Ethernet port E0, E1 (R365). -/
abbrev EthId := Fin 2
/-- The seven dies of the POWER page: TD0–TD3, PD, FD0, FD1 (R477). -/
abbrev DieId := Fin 7
/-- Linkage engine in service (R192). -/
abbrev EngineId := Fin 32
/-- Command queue (R218). -/
abbrev QueueId := Fin 256
/-- Queue pair index; index i has QPN 2 + i (R371). -/
abbrev QpIx := Fin 4096
/-- Graph node index (R222). -/
abbrev NodeIx := Fin 4096
/-- The 17-bit node field, global address bits [56:40] (R304). -/
abbrev NodeField := BitVec 17
/-- Job ID (R307). -/
abbrev JobId := BitVec 20

/-- Bits `[hi:lo]` of a natural number. -/
def bits (n hi lo : Nat) : Nat := (n / 2 ^ lo) % 2 ^ (hi + 1 - lo)

/-- Bit `i` of a natural number. -/
def bitAt (n i : Nat) : Bool := (n / 2 ^ i) % 2 == 1

/-- Signed reading of the low `w` bits. -/
def signedOf (w n : Nat) : Int :=
  let m := n % 2 ^ w
  if m < 2 ^ (w - 1) then (m : Int) else (m : Int) - (2 ^ w : Nat)

/-- Two's-complement low `w` bits of an integer. -/
def wrapTo (w : Nat) (z : Int) : Nat := (z % ((2 ^ w : Nat) : Int)).toNat

/-- Little-endian value of a byte list (R7). -/
def leNat : List Byte → Nat
  | [] => 0
  | b :: bs => b.toNat + 256 * leNat bs

/-- The first `n` little-endian bytes of a number (R7). -/
def leBytes : Nat → Nat → List Byte
  | 0, _ => []
  | n + 1, v => BitVec.ofNat 8 v :: leBytes n (v / 256)

/-- `n` bytes of a list from offset `off`, little-endian. -/
def leField (bs : List Byte) (off n : Nat) : Nat := leNat ((bs.drop off).take n)

end Sys2Proof
end

