-- ==== Sys2Proof/Syntax.lean ====
section
/-! DEFINITION. The commands of the node: one constructor of `Instr` for each row of spec/opcode_table.json, with the operands
that the row's rule names. Xzmx, Xzsv and Xzsy commands carry the instruction word of R94, R123 or R170 and the values of the
registers its rs1 and rs2 fields name. -/
namespace Sys2Proof

/-- Who stores to or loads from a block page (R545, R552). -/
inductive Agent where
  | reeve
  | sched (k : Fin 4)
  /-- A tile pilot core in machine mode: the tile monitor. -/
  | monitor (t : TileId)
  /-- A tile pilot core in user mode. -/
  | kernel (t : TileId)
  /-- A PD application core (R183). -/
  | pd (k : CoreId)
  deriving DecidableEq, Repr

/-- A core that issues accesses or counter operations (R147, R173). -/
inductive Core where
  | tile (t : TileId)
  | pd (k : CoreId)
  | sched (k : Fin 4)
  deriving DecidableEq, Repr

/-- The gated units of a tile (R59). -/
inductive TileUnit where
  | mx
  | sv
  deriving DecidableEq, Repr

/-- The three engines of the Xzmx queue (R96). -/
inductive Engine where
  | array
  | recomb
  | fcu
  deriving DecidableEq, Repr

/-- AMO operations of the cores (R270). -/
inductive AmoOp where
  | add | min | max | minu | maxu | and | or | xor | swap
  deriving DecidableEq, Repr

/-- The source identity that every HBM access carries (R264). -/
inductive Source where
  | tile (t : TileId)
  | pd (k : CoreId)
  | sched (k : Fin 4)
  /-- An engine working for a context: FCU, linkage array, collective, checkpoint, sweep. -/
  | engine (c : CtxId)
  /-- Fabric ingress, identified by its job tag. -/
  | fabric (job : JobId)
  /-- The RoCEv2 engine, identified by its queue pair. -/
  | qp (i : QpIx)
  | firmware
  deriving DecidableEq, Repr

/-- What a scrubber finds in the word it reads (R42, R260). -/
inductive EccFinding where
  | clean
  | corrected
  | uncorrectable
  deriving DecidableEq, Repr

/-- A unit with a thermal state (R473, R276). -/
inductive ThermalUnit where
  | die (d : DieId)
  | stack (s : SiteId)
  deriving DecidableEq, Repr

/-- Direction of a port's circuits (R283). -/
inductive Direction where
  | tx
  | rx
  deriving DecidableEq, Repr

/-- What a RoCEv2 responder answers the node's request with (R374). -/
inductive AckKind where
  | ack
  | nakSequence
  | nakFatal
  | rnr
  deriving DecidableEq, Repr

/-- The header fields and payload of an Ecrok packet (R307). `malformed` stands for a reserved field that is not 0. -/
structure Packet where
  kind : BitVec 5
  vc : BitVec 3 := 0
  ovc : BitVec 3 := 0
  hop : BitVec 5 := 0
  dst : NodeField
  src : NodeField
  job : JobId := 0
  gen : BitVec 12 := 0
  seq : BitVec 32 := 0
  low : BitVec 32 := 0
  tagSlot : BitVec 16 := 0
  tagGen : BitVec 2 := 0
  offset : BitVec 40 := 0
  op : BitVec 4 := 0
  ty : BitVec 4 := 0
  mask : BitVec 16 := 0
  route : BitVec 96 := 0
  len : BitVec 9 := 0
  payload : List Byte := []
  malformed : Bool := false
  /-- Payload bytes of a collective packet that carry a poison tag, bit by byte (R349; R350 shows no place for the tags). -/
  poison : Nat := 0
  deriving DecidableEq, Repr

/-- A command capsule or the join of a chain's capsules, as firmware executes it (R380, R381). The opcode is the row's.
`reserved` is true when a reserved header field is not 0. -/
structure Capsule where
  tag : BitVec 32 := 0
  ctx : Byte := 0xFF
  bodyLen : Nat := 0
  body : List Byte := []
  reserved : Bool := false
  deriving DecidableEq, Repr

/-- What the detecting unit knows of an error (R443). -/
structure ErrorInfo where
  code : BitVec 16
  ctx : Option CtxId := none
  addr : Word := 0
  service : BitVec 16 := 0xFFFF
  detail : Word := 0
  deriving DecidableEq, Repr

/-- The commands: one constructor per row of the operations table. -/
inductive Instr where
  /-- REGISTER_WRITE (R553): A store to a register field that has no row of its own is judged for width, reserved value, dike, busy and refusal, then applied by class or dropped and recorded. -/
  | registerWrite (a : Agent) (page : BitVec 20) (off : BitVec 12) (size : Nat) (v : Word)
  /-- RC_READ (R13): A load that covers a whole read-to-clear field returns it and clears it. -/
  | rcRead (a : Agent) (page : BitVec 20) (off : BitVec 12) (size : Nat)
  /-- COMMIT_GO (R550): A write of COMMIT.GO while the block is idle applies every shadowed field. -/
  | commitGo (a : Agent) (page : BitVec 20)
  /-- CTRL_QUIESCE (R549): Setting or clearing QUIESCE stops or resumes the start of new commands in the block. -/
  | ctrlQuiesce (a : Agent) (page : BitVec 20) (on : Bool)
  /-- CTRL_ENABLE (R549): Clearing ENABLE takes a flask out of the allottable pool and puts it to sleep; setting it returns the flask. -/
  | ctrlEnable (a : Agent) (page : BitVec 20) (on : Bool)
  /-- BLOCK_RESET (R509): A write of CTRL.RESET starts a block or flask reset, unless the block is held by an open context or busy. -/
  | blockReset (a : Agent) (page : BitVec 20)
  /-- BLOCK_RESET_DONE (R509): A block or flask reset ends, with its fields at their reset values and CTRL.RESET reading 0. -/
  | blockResetDone (page : BitVec 20)
  /-- CSR_WRITE (R100): A tile CSR write to the Xzmx, Xzsv, Xzsy or LD64 CSRs takes effect, or is dropped whole if a field is reserved. -/
  | csrWrite (c : Core) (csr : BitVec 12) (v : Word)
  /-- INSTRUCTION_FETCH (R37): A pilot core fetches from its own IMEM; IMEM errors are corrected, or raise an instruction access fault. -/
  | instructionFetch (t : TileId) (addr : Word)
  /-- CORE_LOAD (R36): A tile or PD core load reaches a tile store, HBM, a global address or a replica window, subject to grant, window and polder checks. -/
  | coreLoad (c : Core) (addr : Word) (size : Nat) (signed : Bool) (rd : Reg)
  /-- CORE_STORE (R36): A tile or PD core store reaches its target, subject to grant, window, polder and PREV write checks. -/
  | coreStore (c : Core) (addr : Word) (size : Nat) (v : Word)
  /-- CORE_AMO (R36): A core AMO executes at the tile store, at the channel's atomic ALU, in the PD cache, or as a fabric atomic. -/
  | coreAmo (c : Core) (addr : Word) (op : AmoOp) (wide : Bool) (v : Word) (rd : Reg)
  /-- LR (R36): A load-reserved is served on an allowed address, or raises an access fault. -/
  | lr (c : Core) (addr : Word) (wide : Bool) (rd : Reg)
  /-- SC (R36): A store-conditional is served on an allowed address, or raises an access fault. -/
  | sc (c : Core) (addr : Word) (wide : Bool) (v : Word) (rd : Reg)
  /-- FENCE (R188): A PD FENCE orders earlier accesses, including non-cacheable and global ones, before later accesses. -/
  | fence (k : CoreId)
  /-- ECALL (R231): A kernel ends with ECALL; the tile counts as exited once every earlier access and queued unit operation has completed. -/
  | ecall (t : TileId) (a0 : Word)
  /-- HART_INTERRUPT (R179): An interrupt is taken between instructions; blocked waits are withdrawn and executed again after the handler. -/
  | hartInterrupt (c : Core) (cause : Word)
  /-- VECTOR_INSTRUCTION (R179): A PD vector instruction executes; on a synchronous exception at element i it traps with vstart = i. -/
  | vectorInstruction (k : CoreId) (w : BitVec 32) (vl : Nat) (faultAt : Option Nat) (cause : Word)
  /-- VECTOR_GATE (R181): A PD core's vector unit gates after VGATE.IDLE_CYCLES idle cycles. -/
  | vectorGate (k : CoreId)
  /-- VECTOR_WAKE_DONE (R181): A gated vector unit finishes its 150 ns wake, and the waiting instruction proceeds. -/
  | vectorWakeDone (k : CoreId)
  /-- CORE_REPAIR_START (R189): A logical PD core stops and its state starts moving onto a spare core. -/
  | coreRepairStart (k : CoreId)
  /-- CORE_REPAIR_END (R189): The core state has been copied and the map switched; the hart resumes and held interrupts are delivered. -/
  | coreRepairEnd (k : CoreId)
  /-- IMEM_LOAD_GO (R38): A write of IMEM_CTRL.GO starts an IMEM load into the named tiles, or is refused. -/
  | imemLoadGo (a : Agent) (f : FlaskId) (v : BitVec 32)
  /-- IMEM_LOAD_DONE (R38): An IMEM load completes, and GO reads 0. -/
  | imemLoadDone (f : FlaskId)
  /-- IMEM_LOAD_POISON (R38): A poisoned source word ends an IMEM load; the named tiles are marked as holding no image, and the context takes a UC. -/
  | imemLoadPoison (f : FlaskId)
  /-- TILE_STORE_SCRUB (R42): The patrol scrubber reads and corrects tile-store words on idle bank cycles. -/
  | tileStoreScrub (t : TileId) (word : BitVec 16)
  /-- TILE_REMAP_START (R51): A flask stops its pilot cores, abandons unit instructions on the failing tile, and copies that tile's state to the spare. -/
  | tileRemapStart (f : FlaskId) (t : Fin 16)
  /-- TILE_REMAP_END (R51): The copy is verified and the map switched; the pilot cores resume and abandoned instructions restart. -/
  | tileRemapEnd (f : FlaskId)
  /-- FLASK_SLEEP (R56): A SLEEP command starts sleep entry if the flask is quiescent, or is dropped. -/
  | flaskSleep (a : Agent) (f : FlaskId)
  /-- SLEEP_ENTRY_DONE (R56): Sleep entry completes and the flask is ASLEEP with its ADPLL stopped. -/
  | sleepEntryDone (f : FlaskId)
  /-- FLASK_WAKE (R57): A WAKE command starts a prewake, or aborts a sleep entry. -/
  | flaskWake (a : Agent) (f : FlaskId)
  /-- DEMAND_WAKE (R57): An access, counter post or watched write that reaches a sleeping flask starts a demand wake and is held. -/
  | demandWake (f : FlaskId)
  /-- FLASK_WAKE_DONE (R57): The 4 us flask wake completes; the flask becomes AWAKE and held accesses are served. -/
  | flaskWakeDone (f : FlaskId)
  /-- UNIT_GATE (R59): A tile matrix array or SVU gates after GATE.IDLE_CYCLES idle cycles. -/
  | unitGate (t : TileId) (u : TileUnit)
  /-- UNIT_WAKE_DONE (R59): A gated unit finishes its 120 ns wake, and the stalled instruction proceeds. -/
  | unitWakeDone (t : TileId) (u : TileUnit)
  /-- GATE_HOLD_WRITE (R59): Setting a GATE_HOLD bit keeps the unit powered and starts the wake of a gated unit. -/
  | gateHoldWrite (a : Agent) (f : FlaskId) (v : BitVec 32)
  /-- MX_MMA (R102): Xzmx matrix multiply-accumulate of A and B into a bank in the formats of mxfmt; checked at issue and queued. -/
  | mxMma (t : TileId) (w : BitVec 32) (x1 : Word) (x2 : Word)
  /-- MX_WMMA (R110): Wide product of sliced pieces into a bank in W2, W3, W3X or W4; refused past the bank's K limit. -/
  | mxWmma (t : TileId) (w : BitVec 32) (x1 : Word) (x2 : Word)
  /-- MX_LDACC (R105): Loads a bank from memory in format CFMT. -/
  | mxLdacc (t : TileId) (w : BitVec 32) (x1 : Word) (x2 : Word)
  /-- MX_STACC (R105): Stores a bank to memory in format CFMT, rounded once. -/
  | mxStacc (t : TileId) (w : BitVec 32) (x1 : Word) (x2 : Word)
  /-- MX_ZERO (R105): Clears a bank and sets its tag to EMPTY. -/
  | mxZero (t : TileId) (w : BitVec 32) (x1 : Word) (x2 : Word)
  /-- MX_RECOMB (R111): Recombines a wide bank to FP64, FP32 or XP128 with one rounding, optionally adding C and an XP128 partial. -/
  | mxRecomb (t : TileId) (w : BitVec 32) (x1 : Word) (x2 : Word)
  /-- MX_SLICE (R106): An FCU slices FP64 or FP32 lines into pieces and records, under DERIVE, SCAN_FIRST, SCAN_NEXT or GIVEN. -/
  | mxSlice (t : TileId) (w : BitVec 32) (x1 : Word) (x2 : Word)
  /-- MX_WAIT (R94): Waits until every earlier Xzmx instruction of the tile has completed. -/
  | mxWait (t : TileId) (w : BitVec 32) (x1 : Word) (x2 : Word)
  /-- MX_ENGINE_START (R96): A queued Xzmx instruction starts on its engine once earlier conflicting instructions have completed. -/
  | mxEngineStart (t : TileId) (e : Engine)
  /-- MX_ENGINE_DONE (R96): An Xzmx instruction completes on its engine, and its flags are ORed into mxflags. -/
  | mxEngineDone (t : TileId) (e : Engine)
  /-- MX_STATUS_READ (R98): A read of mxflags or mxstat waits for every earlier Xzmx instruction and then returns. -/
  | mxStatusRead (t : TileId) (stat : Bool) (rd : Reg)
  /-- SV_ADD (R127): Element-wise add of two streams, rounded once. -/
  | svAdd (t : TileId) (w : BitVec 32)
  /-- SV_SUB (R127): Element-wise subtract of two streams. -/
  | svSub (t : TileId) (w : BitVec 32)
  /-- SV_MUL (R127): Element-wise multiply of two streams. -/
  | svMul (t : TileId) (w : BitVec 32)
  /-- SV_FMA (R127): Element-wise fused multiply-add with one rounding. -/
  | svFma (t : TileId) (w : BitVec 32)
  /-- SV_DIV (R127): Correctly rounded element-wise division on float types. -/
  | svDiv (t : TileId) (w : BitVec 32)
  /-- SV_SQRT (R127): Correctly rounded element-wise square root on float types. -/
  | svSqrt (t : TileId) (w : BitVec 32)
  /-- SV_MIN (R127): Element-wise IEEE minimum. -/
  | svMin (t : TileId) (w : BitVec 32)
  /-- SV_MAX (R127): Element-wise IEEE maximum. -/
  | svMax (t : TileId) (w : BitVec 32)
  /-- SV_ABS (R127): Element-wise absolute value. -/
  | svAbs (t : TileId) (w : BitVec 32)
  /-- SV_NEG (R127): Element-wise negation. -/
  | svNeg (t : TileId) (w : BitVec 32)
  /-- SV_MOV (R127): Copies a stream's bits, with no flag. -/
  | svMov (t : TileId) (w : BitVec 32)
  /-- SV_AND (R124): Element-wise bitwise AND. -/
  | svAnd (t : TileId) (w : BitVec 32)
  /-- SV_OR (R124): Element-wise bitwise OR. -/
  | svOr (t : TileId) (w : BitVec 32)
  /-- SV_XOR (R124): Element-wise bitwise XOR. -/
  | svXor (t : TileId) (w : BitVec 32)
  /-- SV_ANDN (R124): Element-wise s1 AND NOT s2. -/
  | svAndn (t : TileId) (w : BitVec 32)
  /-- SV_NOT (R124): Element-wise bitwise NOT. -/
  | svNot (t : TileId) (w : BitVec 32)
  /-- SV_SLL (R124): Element-wise logical shift left. -/
  | svSll (t : TileId) (w : BitVec 32)
  /-- SV_SRL (R124): Element-wise logical shift right. -/
  | svSrl (t : TileId) (w : BitVec 32)
  /-- SV_SRA (R124): Element-wise arithmetic shift right. -/
  | svSra (t : TileId) (w : BitVec 32)
  /-- SV_EQ (R127): Quiet equality compare into a MASK8 stream. -/
  | svEq (t : TileId) (w : BitVec 32)
  /-- SV_NE (R127): Quiet inequality compare into a MASK8 stream. -/
  | svNe (t : TileId) (w : BitVec 32)
  /-- SV_LT (R127): Less-than compare into MASK8; raises NV on a NaN. -/
  | svLt (t : TileId) (w : BitVec 32)
  /-- SV_LE (R127): Less-or-equal compare into MASK8; raises NV on a NaN. -/
  | svLe (t : TileId) (w : BitVec 32)
  /-- SV_UNORD (R127): Quiet unordered compare into a MASK8 stream. -/
  | svUnord (t : TileId) (w : BitVec 32)
  /-- SV_SEL (R142): Selects s1 or s2 per element by a MASK8 stream. -/
  | svSel (t : TileId) (w : BitVec 32)
  /-- SV_EXP (R129): Element-wise e to the x within 1 ulp. -/
  | svExp (t : TileId) (w : BitVec 32)
  /-- SV_LOG (R129): Element-wise natural logarithm within 1 ulp. -/
  | svLog (t : TileId) (w : BitVec 32)
  /-- SV_RECIP (R129): Element-wise reciprocal within half an ulp. -/
  | svRecip (t : TileId) (w : BitVec 32)
  /-- SV_RSQRT (R129): Element-wise reciprocal square root within 1 ulp. -/
  | svRsqrt (t : TileId) (w : BitVec 32)
  /-- SV_RSUM (R137): Sum reduction of a stream with an init element, in TREE or SIDE mode. -/
  | svRsum (t : TileId) (w : BitVec 32)
  /-- SV_RMIN (R138): Minimum reduction of a stream. -/
  | svRmin (t : TileId) (w : BitVec 32)
  /-- SV_RMAX (R138): Maximum reduction of a stream. -/
  | svRmax (t : TileId) (w : BitVec 32)
  /-- SV_REXP (R138): Largest binade over the finite non-zero elements, chained from an init value. -/
  | svRexp (t : TileId) (w : BitVec 32)
  /-- SV_SMX (R130): One online-softmax step over a strip of scores, updating the state record. -/
  | svSmx (t : TileId) (w : BitVec 32)
  /-- SV_CAUSAL (R131): Writes a causal mask k <= q. -/
  | svCausal (t : TileId) (w : BitVec 32)
  /-- SV_WINDOW (R131): Writes a sliding-window mask. -/
  | svWindow (t : TileId) (w : BitVec 32)
  /-- SV_LIMIT (R131): Writes a key-limit mask. -/
  | svLimit (t : TileId) (w : BitVec 32)
  /-- SV_POSID (R131): Writes the key positions as INT32. -/
  | svPosid (t : TileId) (w : BitVec 32)
  /-- SV_PERM (R132): Gathers s1 elements by an INT32 index stream. -/
  | svPerm (t : TileId) (w : BitVec 32)
  /-- SV_SHUF (R132): Shuffles within groups of 16 elements by svshuf. -/
  | svShuf (t : TileId) (w : BitVec 32)
  /-- SV_PACK (R132): Interleaves two streams. -/
  | svPack (t : TileId) (w : BitVec 32)
  /-- SV_UNPKE (R132): Takes the even elements of a stream. -/
  | svUnpke (t : TileId) (w : BitVec 32)
  /-- SV_UNPKO (R132): Takes the odd elements of a stream. -/
  | svUnpko (t : TileId) (w : BitVec 32)
  /-- SV_CVT (R133): Native conversion at lane rate for the S pairs. -/
  | svCvt (t : TileId) (w : BitVec 32)
  /-- SV_FCVT (R134): Queues an FCU conversion for an F pair, with a given or derived XP128 exponent. -/
  | svFcvt (t : TileId) (w : BitVec 32)
  /-- SV_MXPACK (R72): Queues an FCU request that packs MX blocks and their scales. -/
  | svMxpack (t : TileId) (w : BitVec 32)
  /-- SV_MXUNPACK (R73): Queues an FCU request that unpacks MX blocks. -/
  | svMxunpack (t : TileId) (w : BitVec 32)
  /-- SV_XPREBASE (R80): Queues an FCU rebase of an XP128 buffer to a new exponent. -/
  | svXprebase (t : TileId) (w : BitVec 32)
  /-- SV_SETVL (R121): Sets vl from a register, capped by VLMAX of the cost class. -/
  | svSetvl (t : TileId) (w : BitVec 32) (x1 : Word)
  /-- SV_SETVLC (R121): Sets vl from a descriptor's COUNT, capped by VLMAX. -/
  | svSetvlc (t : TileId) (w : BitVec 32)
  /-- SV_ADV (R120): Advances the named descriptors by vl elements. -/
  | svAdv (t : TileId) (w : BitVec 32)
  /-- SV_ADV1 (R120): Advances the named descriptors by one element. -/
  | svAdv1 (t : TileId) (w : BitVec 32)
  /-- SV_FWAIT (R134): Waits until the tile has no pending FCU request. -/
  | svFwait (t : TileId) (w : BitVec 32)
  /-- FCU_REQUEST_DONE (R134): An FCU request completes after its chunks are converted on FCU0 or FCU1. -/
  | fcuRequestDone (t : TileId)
  /-- SV_STATUS_READ (R143): A read of svflags or svstat waits for earlier FCU requests, with FQ sampled at issue. -/
  | svStatusRead (t : TileId) (stat : Bool) (rd : Reg)
  /-- SY_POST (R148): Adds n to a counter with release meaning, and satisfies waiting entries in order. -/
  | syPost (c : Core) (w : BitVec 32) (x1 : Word) (x2 : Word)
  /-- SY_TAKE (R148): Subtracts n from a counter if the value suffices, otherwise faults; never blocks. -/
  | syTake (c : Core) (w : BitVec 32) (x1 : Word) (x2 : Word)
  /-- SY_WAIT (R152): Consumes n from a counter, or blocks in a wait entry until posts suffice. -/
  | syWait (c : Core) (w : BitVec 32) (x1 : Word) (x2 : Word)
  /-- SY_READ (R148): Reads a counter's value. -/
  | syRead (c : Core) (w : BitVec 32) (x1 : Word) (x2 : Word)
  /-- SY_INIT (R154): Sets a counter's value and capacity and judges its wait entries. -/
  | syInit (c : Core) (w : BitVec 32) (x1 : Word) (x2 : Word)
  /-- SY_WAIT_RETRY (R152): A wait held for lack of wait entries is presented again after 256 ns. -/
  | syWaitRetry (c : Core)
  /-- SY_WAIT_TIMEOUT (R153): The sytmo timeout expires; the wait returns -1 and releases its entry. -/
  | syWaitTimeout (c : Core)
  /-- SY_ARRIVE (R157): Counts a tile's arrival at a barrier slot and returns the generation. -/
  | syArrive (c : Core) (w : BitVec 32) (x1 : Word) (x2 : Word)
  /-- SY_BWAIT (R157): Blocks until a slot's generation differs from the operand. -/
  | syBwait (c : Core) (w : BitVec 32) (x1 : Word) (x2 : Word)
  /-- SY_PUSH (R161): Pushes a 64 B descriptor onto the tile's deque. -/
  | syPush (c : Core) (w : BitVec 32) (x1 : Word) (x2 : Word)
  /-- SY_POP (R161): Pops a descriptor from the bottom of the tile's deque. -/
  | syPop (c : Core) (w : BitVec 32) (x1 : Word) (x2 : Word)
  /-- SY_STEAL (R163): Steals the top descriptor of a named or automatically chosen victim's deque. -/
  | sySteal (c : Core) (w : BitVec 32) (x1 : Word) (x2 : Word)
  /-- SY_WARM (R168): Arms a watch range. -/
  | syWarm (c : Core) (w : BitVec 32) (x1 : Word) (x2 : Word)
  /-- SY_WDIS (R168): Disarms a watch range. -/
  | syWdis (c : Core) (w : BitVec 32) (x1 : Word) (x2 : Word)
  /-- HBM_READ (R264): A read reaches the home agent, passes the polder check and the sluice, and returns data or poison. -/
  | hbmRead (src : Source) (off : BitVec 40) (len : Nat)
  /-- HBM_WRITE (R186): A write is checked for polder and PREV protection, invalidates PD copies, and passes the line merger. -/
  | hbmWrite (src : Source) (off : BitVec 40) (data : List Byte) (poisoned : Bool)
  /-- HBM_ATOMIC (R270): An atomic line operation runs at the channel's atomic ALU. -/
  | hbmAtomic (src : Source) (off : BitVec 40) (op : BitVec 4) (ty : BitVec 4) (mask : BitVec 16) (operand : List Byte) (fetch : Bool)
  /-- MERGER_DRAIN (R274): A merger entry drains on timeout, age, a read of its line, or a full merger. -/
  | mergerDrain (site : SiteId) (line : BitVec 33)
  /-- SLUICE_GRANT (R267): A request that waits at its polder's bucket is served once tokens suffice or an idle cycle allows borrowing. -/
  | sluiceGrant (site : SiteId) (p : PolderId) (idle : Bool)
  /-- SLUICE_WINDOW (R268): A 10 us accounting window ends, and floor standing is judged anew. -/
  | sluiceWindow (site : SiteId)
  /-- HBM_SELF_REFRESH (R256): After SR_IDLE with no request, every stack enters self-refresh. -/
  | hbmSelfRefresh
  /-- HBM_PATROL_SCRUB (R260): The patrol scrubber reads, corrects and writes back HBM codewords on idle cycles. -/
  | hbmPatrolScrub (site : SiteId) (off : BitVec 40) (found : EccFinding)
  /-- HOURLY_COUNT_ROLL (R258): Hourly CE counts restart at each hour of fabric time. -/
  | hourlyCountRoll
  /-- HBM_TEMP_READING (R275): A stack reports its temperature every 1 ms, and the controller sets refresh and rate cap. -/
  | hbmTempReading (site : SiteId) (reading : Byte)
  /-- THERMAL_HARD_TIMEOUT (R473): A die or stack stays in HARD for 10 s and raises NF with code 0x0050. -/
  | thermalHardTimeout (u : ThermalUnit)
  /-- EVAC_REQUEST (R277): An evacuation of a failing channel is requested and waits while a running job owns the freed range. -/
  | evacRequest (site : SiteId) (ch : Fin 32)
  /-- EVAC_START (R277): Once the freed range holds no running job, TOP is lowered and the copy of the channel starts. -/
  | evacStart (site : SiteId) (ch : Fin 32)
  /-- EVAC_COPY_DONE (R277): The copy ends and the channel leaves service; MAPOUTS rises. -/
  | evacCopyDone (site : SiteId) (ch : Fin 32)
  /-- LSA_PIDX_WRITE (R204): A write of a queue's PIDX wakes the array, which takes the new batches or stops the queue on overrun. -/
  | lsaPidxWrite (src : Source) (q : CtxId) (v : Word)
  /-- LSA_PROBLEM_START (R206): A free engine takes the next problem of a running batch, or ends it NOT_RUN after SOFT. -/
  | lsaProblemStart (e : EngineId)
  /-- LSA_ITERATION_END (R210): A contact-solve iteration ends, and the problem stops DEADLINE_SOFT if SOFT has passed. -/
  | lsaIterationEnd (e : EngineId)
  /-- LSA_PROBLEM_END (R213): A problem ends with a status code, and its outputs and status record are written. -/
  | lsaProblemEnd (e : EngineId)
  /-- LSA_BATCH_COMPLETE (R206): When every problem has ended, warm records commit, the completion record is written, and the counter is posted. -/
  | lsaBatchComplete (q : CtxId)
  /-- LSA_HARD_DEADLINE (R211): Fabric time reaches HARD; the batch's engines stop and its shadow warm records are discarded. -/
  | lsaHardDeadline (q : CtxId)
  /-- LSA_GATE (R207): The array's clock stops after GATE.IDLE_US without pending work. -/
  | lsaGate
  /-- LSA_WAKE_DONE (R207): The array's 4 us wake completes. -/
  | lsaWakeDone
  /-- LSA_ENGINE_REMAP (R212): A failing engine's problem restarts from its beginning on a spare engine. -/
  | lsaEngineRemap (e : EngineId)
  /-- STEP_RELEASE (R235): A step is released: in-counters reset, ROLETAB and PREV protection written, ready nodes started. -/
  | stepRelease (c : CtxId)
  /-- PREWAKE (R234): Firmware issues WAKE to a node's flasks at release + PSTART - LEAD. -/
  | prewake (c : CtxId) (n : NodeIx)
  /-- TILE_NODE_START (R231): A ready TILE or EXCHANGE node starts once its tiles are free: image load, bind, entry to user mode. -/
  | tileNodeStart (c : CtxId) (n : NodeIx)
  /-- DONE_WORD_WRITE (R232): A write of a PD node's done word wakes firmware, which ends the node on the current attempt number. -/
  | doneWordWrite (c : CtxId) (n : NodeIx) (v : Word)
  /-- NODE_END (R228): A graph node ends; firmware writes NSTAT, posts successors and drops optional nodes after SOFT. -/
  | nodeEnd (c : CtxId) (n : NodeIx)
  /-- VOTE_RESULT (R238): The vote result arrives; a successful step commits its heat, writes its step record and may mark a checkpoint. -/
  | voteResult (c : CtxId) (vote : Word)
  /-- STEP_HARD_DEADLINE (R241): HARD passes; running nodes are abandoned and the step ends without commit. -/
  | stepHardDeadline (c : CtxId)
  /-- VOTE_LOST (R237): No vote result within 1 ms after HARD; the step ends VOTE_LOST and JOB_FATAL is reported. -/
  | voteLost (c : CtxId)
  /-- FLIT_RECEIVE (R293): A flit is corrected by FEC, checked by CRC, and accepted, dropped or answered with NAK. -/
  | flitReceive (p : PortId) (flit : List Byte)
  /-- FLIT_SEND (R298): The port sends the next flit by weighted round robin, held back when 256 flits are unacknowledged. -/
  | flitSend (p : PortId)
  /-- RETRY_ESCALATION (R299): After four failed replays or 1.5 us unacknowledged, the port swaps circuits or retrains. -/
  | retryEscalation (p : PortId) (dir : Direction) (circuits : BitVec 18)
  /-- RETRAIN_DONE (R299): A retrain ends; the port returns to UP or enters DOWN. -/
  | retrainDone (p : PortId) (ok : Bool)
  /-- SWAP (R300): A SWAP CONTROL flit names circuits; the sender maps their lanes onto spares. -/
  | swap (p : PortId) (dir : Direction) (circuits : BitVec 18)
  /-- SWAP_DONE (R300): Both ends have deskewed on the new circuits; the sender replays and resumes. -/
  | swapDone (p : PortId) (dir : Direction)
  /-- LANE_ERROR_WINDOW (R300): A 1 ms window ends, and circuits above SWAP.THRESH start a proactive swap. -/
  | laneErrorWindow (p : PortId) (corrected : List Nat)
  /-- SWAP_GO (R300): A write of SWAP.GO starts a commanded swap of SWAP.CIRCUIT. -/
  | swapGo (a : Agent) (p : PortId) (v : BitVec 32)
  /-- COMB_FAIL (R302): A comb source fails; the port goes DOWN with cause COMB, its flows move, and the spare source powers up. -/
  | combFail (p : PortId) (source : Fin 3)
  /-- COMB_SPARE_LOCK (R302): The spare comb source locks and the port trains again. -/
  | combSpareLock (p : PortId)
  /-- PORT_LASER_LOCK (R294): A port's comb sources lock and training begins. -/
  | portLaserLock (p : PortId)
  /-- PORT_TRAINED (R294): A port completes receive lock, equalisation, deskew and FEC lock. -/
  | portTrained (p : PortId)
  /-- IDENTITY_EXCHANGE (R295): The ends exchange node fields and roles; a mismatch sets MISCABLED. -/
  | identityExchange (p : PortId) (node : NodeField) (port : BitVec 5) (role : BitVec 4)
  /-- PORT_RETRY_TIMER (R294): Every 1 s a port without a lit peer, or a MISCABLED port, repeats its stages. -/
  | portRetryTimer (p : PortId)
  /-- DELAY_MEASURED (R297): A delay measurement completes and is published in PORT.DELAY; the port may enter UP. -/
  | delayMeasured (p : PortId) (ps : BitVec 24)
  /-- READ (R320): An Ecrok READ request is sequenced, served, and answered from memory or the reply store. -/
  | read (d : FabricDie) (pk : Packet)
  /-- WRITE (R320): An Ecrok WRITE request is sequenced and applied once, then acknowledged. -/
  | write (d : FabricDie) (pk : Packet)
  /-- ATOMIC (R309): An Ecrok non-fetching atomic is applied at the target's atomic ALU. -/
  | atomic (d : FabricDie) (pk : Packet)
  /-- ATOMIC_F (R309): An Ecrok fetching atomic is applied and the old line returned. -/
  | atomicF (d : FabricDie) (pk : Packet)
  /-- MSG (R333): A message is appended to the destination context's receive ring, or answered BUSY. -/
  | msg (d : FabricDie) (pk : Packet)
  /-- RUPDATE (R335): A replica update is applied at a holder if its epoch is not lower. -/
  | rupdate (d : FabricDie) (pk : Packet)
  /-- LOWMARK (R319): A LOWMARK advances the flow's LOW at the destination, freeing reply-store entries. -/
  | lowmark (d : FabricDie) (pk : Packet)
  /-- RESP_DATA (R324): A data response completes its request if its tag generation is current. -/
  | respData (d : FabricDie) (pk : Packet)
  /-- RESP_ACK (R324): An acknowledgement completes its request, or carries a refusal status. -/
  | respAck (d : FabricDie) (pk : Packet)
  /-- PACKET_FORWARD (R313): A packet for another node is forwarded along its route, on TRANSIT for foreign jobs. -/
  | packetForward (p : PortId) (pk : Packet)
  /-- LOWMARK_SEND (R319): A source with nothing more to send sends a LOWMARK within 2 us of LOW changing. -/
  | lowmarkSend (d : FabricDie) (dst : NodeField) (vc : BitVec 3)
  /-- BUSY_RESEND (R322): After the backoff following BUSY, the request is resent with the same SEQ. -/
  | busyResend (d : FabricDie) (slot : BitVec 16)
  /-- COMPLETION_TIMEOUT (R324): A tag slot's timer fires; the flow is resent from that request, or it completes TARGET_DEAD. -/
  | completionTimeout (d : FabricDie) (slot : BitVec 16)
  /-- GET_S (R332): A coherence request to the home for a shared copy. -/
  | getS (pk : Packet)
  /-- GET_M (R332): A coherence request for an exclusive copy, answered after every other holder is invalidated. -/
  | getM (pk : Packet)
  /-- UPGRADE (R332): A sharer asks the home for exclusivity. -/
  | upgrade (pk : Packet)
  /-- PUT_M (R332): An owner writes back a dirty line. -/
  | putM (pk : Packet)
  /-- PUT_C (R331): A holder drops a clean copy. -/
  | putC (pk : Packet)
  /-- INV (R331): The home tells a sharer to invalidate. -/
  | inv (pk : Packet)
  /-- RECALL (R331): The home recalls a line from its owner and invalidates it. -/
  | recall (pk : Packet)
  /-- DOWNGRADE (R331): The home asks the owner to return the line and keep a shared copy. -/
  | downgrade (pk : Packet)
  /-- DATA_S (R331): The home grants a shared copy with data. -/
  | dataS (pk : Packet)
  /-- DATA_E (R331): The home grants an exclusive copy with data. -/
  | dataE (pk : Packet)
  /-- ACK_E (R331): The home grants exclusivity without data. -/
  | ackE (pk : Packet)
  /-- ACK (R331): The home or an owner acknowledges a coherence message. -/
  | ack (pk : Packet)
  /-- INV_ACK (R331): A sharer or owner acknowledges an invalidation. -/
  | invAck (pk : Packet)
  /-- RECALL_DATA (R331): An owner returns dirty data to the home. -/
  | recallData (pk : Packet)
  /-- RETRY (R332): The home's queue was full; the requester is to resend later. -/
  | retry (pk : Packet)
  /-- COH_RETRY_RESEND (R332): After the RETRY backoff, the coherence request is sent again with the same tag. -/
  | cohRetryResend (slot : BitVec 16)
  /-- COH_TIMEOUT (R330): An unanswered coherence request times out and is treated as a dead target. -/
  | cohTimeout (slot : BitVec 16)
  /-- COLLECTIVE_START (R348): A collective descriptor is read and checked, STATUS set RUNNING, and contributions sent. -/
  | collectiveStart (c : CtxId) (n : NodeIx)
  /-- COLL_UP (R350): A bulk chunk from a child is combined at the member's tree vertex. -/
  | collUp (d : FabricDie) (pk : Packet)
  /-- COLL_DOWN (R350): A bulk result chunk from the parent is written and forwarded to children. -/
  | collDown (d : FabricDie) (pk : Packet)
  /-- QUICK_UP (R344): A quick-path partial from a child is combined in the quick ALU. -/
  | quickUp (d : FabricDie) (pk : Packet)
  /-- QUICK_DOWN (R344): A quick-path result from the parent is delivered, completing the quick collective or barrier. -/
  | quickDown (d : FabricDie) (pk : Packet)
  /-- COLL_TIMEOUT (R351): COLL.TMO expires; the collective ends TIMEOUT and JOB_FATAL is reported. -/
  | collTimeout (c : CtxId) (n : NodeIx)
  /-- TIME_SEND (R354): A time parent sends a TIME packet to each child every 10 us. -/
  | timeSend
  /-- TIME_PACKET (R354): A child computes the time error and steps, steers or locks according to its FTIME state. -/
  | timePacket (p : PortId) (ttx : Word) (sub : Byte) (depth : BitVec 6) (rxSub : Byte)
  /-- PPS_EDGE (R356): A PPS_IN rising edge latches fabric time in PPS.TIME. -/
  | ppsEdge (highNs : Nat)
  /-- REL_ARM (R362): Arming a release comparator sets its time, or fires at once if the time has passed. -/
  | relArm (a : Agent) (k : Fin 32) (v : Word)
  /-- COMPARATOR_FIRE (R358): Fabric time reaches a comparator's TIME; it advances a barrier slot or starts held pilot cores. -/
  | comparatorFire (k : Fin 32)
  /-- ETH_LINK_CHANGE (R366): An Ethernet logical port loses or gains its link. -/
  | ethLinkChange (e : EthId) (lp : Fin 2) (up : Bool)
  /-- NEIGHBOUR_QUERY (R368): An ARP or neighbour solicitation for the node's own addresses is answered by firmware. -/
  | neighbourQuery (e : EthId) (lp : Fin 2) (v6 : Bool) (addr : BitVec 128)
  /-- ICMP_ECHO (R367): An ICMP echo request to the node's own address is answered. -/
  | icmpEcho (e : EthId) (lp : Fin 2) (addr : BitVec 128) (data : List Byte)
  /-- PTP_EVENT (R370): A PTP event message is timestamped, and firmware updates PTP.OFFSET and the rate. -/
  | ptpEvent (e : EthId) (offset : Word) (rate : BitVec 32)
  /-- PFC_PAUSE (R369): A received PFC pause frame pauses the named priority within 1 us. -/
  | pfcPause (e : EthId) (lp : Fin 2) (prio : BitVec 3) (quanta : BitVec 16)
  /-- ROCE_SEND (R378): A SEND on a command queue pair writes a capsule into the receive ring and wakes scheduler core 0. -/
  | roceSend (qp : QpIx) (data : List Byte) (ce : Bool)
  /-- RDMA_WRITE (R373): An RDMA WRITE on a data queue pair is checked against its region and written to job memory. -/
  | rdmaWrite (qp : QpIx) (va : Word) (rkey : BitVec 32) (data : List Byte) (imm : Option (BitVec 32)) (ce : Bool)
  /-- RDMA_READ (R373): An RDMA READ is checked against its region and answered. -/
  | rdmaRead (qp : QpIx) (va : Word) (rkey : BitVec 32) (len : Nat) (ce : Bool)
  /-- ROCE_ACK (R374): An ACK or NAK from the responder completes or retransmits the node's requests. -/
  | roceAck (qp : QpIx) (kind : AckKind)
  /-- ROCE_ACK_TIMEOUT (R374): The local ACK timeout expires; the node retransmits or puts the queue pair in error. -/
  | roceAckTimeout (qp : QpIx)
  /-- CNP_RECEIVE (R376): A received CNP decreases the queue pair's rate at most once per period. -/
  | cnpReceive (qp : QpIx)
  /-- CC_PERIOD (R376): A congestion-control period passes without a CNP, and rate and target rise. -/
  | ccPeriod (qp : QpIx)
  /-- CM_REQ (R377): A connection management REQ connects a command queue pair, or is rejected. -/
  | cmReq (e : EthId) (lp : Fin 2) (gid : BitVec 128) (remote : BitVec 24) (priv : List Byte)
  /-- CM_DREQ (R371): A connection management DREQ disconnects a command queue pair and ends its session. -/
  | cmDreq (qp : QpIx)
  /-- SESSION_OPEN (R246): Opens a session and negotiates version and feature set. -/
  | sessionOpen (q : QueueId) (cap : Capsule)
  /-- SESSION_CLOSE (R387): Ends the queue's session. -/
  | sessionClose (q : QueueId) (cap : Capsule)
  /-- NOP (R383): Does nothing and returns status. -/
  | nop (q : QueueId) (cap : Capsule)
  /-- CTX_OPEN (R215): Opens a context with its polders, flasks, cores, ways, queues and priority. -/
  | ctxOpen (q : QueueId) (cap : Capsule)
  /-- CTX_CLOSE (R174): Closes a context and releases its cores. -/
  | ctxClose (q : QueueId) (cap : Capsule)
  /-- ALLOT (R216): Changes a context's flasks and cores, effective at the next release. -/
  | allot (q : QueueId) (cap : Capsule)
  /-- QUEUE_BIND (R218): Binds command queues to a context and host GID. -/
  | queueBind (q : QueueId) (cap : Capsule)
  /-- STATUS_QUERY (R384): Returns a context's heat, state, slot and attempt. -/
  | statusQuery (q : QueueId) (cap : Capsule)
  /-- GRAPH_LOAD (R227): Checks a step graph and copies it into a slot, or refuses it. -/
  | graphLoad (q : QueueId) (cap : Capsule)
  /-- STEP_START (R221): Activates a graph slot and starts replay of the context. -/
  | stepStart (q : QueueId) (cap : Capsule)
  /-- STEP_STOP (R243): Stops replay at the next step boundary. -/
  | stepStop (q : QueueId) (cap : Capsule)
  /-- CKPT_REQUEST (R413): Requests a checkpoint at the commit of heat H. -/
  | ckptRequest (q : QueueId) (cap : Capsule)
  /-- RESTORE (R428): Starts a restore from peer stores or storage: verify, then exchange candidates. -/
  | restore (q : QueueId) (cap : Capsule)
  /-- QP_CONNECT (R384): Connects a data queue pair. -/
  | qpConnect (q : QueueId) (cap : Capsule)
  /-- QP_CLOSE (R383): Closes a queue pair. -/
  | qpClose (q : QueueId) (cap : Capsule)
  /-- MR_REG (R373): Registers a memory region and returns its R_Key. -/
  | mrReg (q : QueueId) (cap : Capsule)
  /-- MR_DEREG (R383): Deregisters a memory region. -/
  | mrDereg (q : QueueId) (cap : Capsule)
  /-- TRACE_SET (R384): Sets the enable bits of trace points 12 to 119. -/
  | traceSet (q : QueueId) (cap : Capsule)
  /-- LOG_READ (R244): Returns firmware log records from a given sequence number. -/
  | logRead (q : QueueId) (cap : Capsule)
  /-- REG_READ (R390): Returns words of a register page, subject to tenant limits. -/
  | regRead (q : QueueId) (cap : Capsule)
  /-- REG_WRITE (R390): Writes one register word through firmware, or returns REG_REJECTED. -/
  | regWrite (q : QueueId) (cap : Capsule)
  /-- TOKEN (R388): Hands a dike token, or part of a staged object, to the reeve. -/
  | token (q : QueueId) (cap : Capsule)
  /-- NODE_RESET (R509): Starts a node reset by capsule. -/
  | nodeReset (q : QueueId) (cap : Capsule)
  /-- TOKEN_CHECK (R497): The reeve checks a queued token in order and installs it immediately or in shadow. -/
  | tokenCheck
  /-- JOB_SCRUB_DONE (R513): The job's polders and tile stores are scrubbed, and RETIRED is reported. -/
  | jobScrubDone (job : JobId)
  /-- SHADOW_APPLY (R499): At the commit time a shadowed token's groups apply. -/
  | shadowApply (slot : Fin 2)
  /-- SHADOW_TTL_EXPIRY (R499): A shadow left uncommitted for TTL after installation is discarded. -/
  | shadowTtlExpiry (slot : Fin 2)
  /-- NONCE_EXPIRY (R498): A nonce leaves the store once its NOT_AFTER has passed. -/
  | nonceExpiry (nonce : BitVec 128)
  /-- STAGED_BLOB_DISCARD (R496): A staged blob that no token uses within 1 s is discarded. -/
  | stagedBlobDiscard (root : Nat)
  /-- GET_VERSION (R487): SPDM request for supported versions. -/
  | getVersion (q : QueueId) (msg : List Byte)
  /-- GET_CAPABILITIES (R487): SPDM request for capabilities. -/
  | getCapabilities (q : QueueId) (msg : List Byte)
  /-- NEGOTIATE_ALGORITHMS (R487): SPDM negotiation of SM2, SM3 and SM4 algorithms. -/
  | negotiateAlgorithms (q : QueueId) (msg : List Byte)
  /-- GET_DIGESTS (R487): SPDM request for certificate chain digests. -/
  | getDigests (q : QueueId) (msg : List Byte)
  /-- GET_CERTIFICATE (R487): SPDM request for a certificate chain of slot 0 or 1. -/
  | getCertificate (q : QueueId) (msg : List Byte)
  /-- CHALLENGE (R487): SPDM challenge signed by the attestation key. -/
  | challenge (q : QueueId) (msg : List Byte)
  /-- GET_MEASUREMENTS (R488): SPDM request for the measurement blocks. -/
  | getMeasurements (q : QueueId) (msg : List Byte)
  /-- KEY_EXCHANGE (R487): SPDM key exchange that opens a secured session. -/
  | keyExchange (q : QueueId) (msg : List Byte)
  /-- FINISH (R487): SPDM FINISH that completes the key exchange. -/
  | finish (q : QueueId) (msg : List Byte)
  /-- HEARTBEAT (R487): SPDM heartbeat in a secured session. -/
  | heartbeat (q : QueueId) (msg : List Byte)
  /-- KEY_UPDATE (R487): SPDM key update in a secured session. -/
  | keyUpdate (q : QueueId) (msg : List Byte)
  /-- END_SESSION (R487): Ends an SPDM session. -/
  | endSession (q : QueueId) (msg : List Byte)
  /-- KEY_LOAD (R489): Loads an SM4 key into a slot for a job and returns a fresh salt. -/
  | keyLoad (q : QueueId) (msg : List Byte)
  /-- KEY_CLEAR (R489): Empties an SM4 key slot. -/
  | keyClear (q : QueueId) (msg : List Byte)
  /-- CKPT_SWEEP_READ (R416): The checkpoint engine reads the next unreached granule and sends its pieces. -/
  | ckptSweepRead (c : CtxId)
  /-- CKPT_PROMOTION_DONE (R417): A promotion completes; the granule is marked reached and the held write released. -/
  | ckptPromotionDone (c : CtxId) (granule : Nat)
  /-- CKPT_STAGE_ONE_END (R420): All holders have completed shard and manifest, or a write failed; a CLOG record is written. -/
  | ckptStageOneEnd (c : CtxId)
  /-- CKPT_DRAIN_START (R424): A holder starts stage two once a slot holds every shard and manifest. -/
  | ckptDrainStart (c : CtxId) (slot : Fin 2)
  /-- CKPT_DRAIN_END (R424): The drain's RDMA writes complete, or fail with DRAIN_FAILED. -/
  | ckptDrainEnd (c : CtxId) (ok : Bool)
  /-- RESTORE_CANDIDATES (R428): The candidate exchange completes and each member chooses the newest complete heat or fails. -/
  | restoreCandidates (c : CtxId) (records : List (List Byte))
  /-- RESTORE_DONE (R430): The pieces are fetched, rebuilt and written; HEAT is set to the chosen heat. -/
  | restoreDone (c : CtxId)
  /-- ERROR_DETECT (R433): A unit detects an error, applies its hardware effect, and the reeve writes a record. -/
  | errorDetect (page : BitVec 20) (source : Fin 16) (info : ErrorInfo)
  /-- HANDLER_START (R445): The reeve starts the handler of the highest-class, oldest queued error. -/
  | handlerStart
  /-- HANDLER_END (R447): A handler ends and rewrites the record's OUTCOME. -/
  | handlerEnd (inHandler : Bool)
  /-- ERR_INJECT_GO (R441): Injects one error of the chosen source along the whole path of its class. -/
  | errInjectGo (a : Agent) (page : BitVec 20) (v : BitVec 32)
  /-- FIRMWARE_WATCHDOG (R444): The firmware watchdog expires, an NF. -/
  | firmwareWatchdog
  /-- REPAIR_START (R454): A waiting tile remap or core repair starts in a gap between steps, or after 1 s. -/
  | repairStart (forced : Bool)
  /-- ROW_REPAIR (R453): An HBM row or lane is repaired online by post-package or lane repair. -/
  | rowRepair (site : SiteId) (ch : Fin 32) (lane : Bool) (left : Bool)
  /-- VIN_SAMPLE (R460): VIN is sampled every 10 us and the supply state set. -/
  | vinSample (centivolts : Nat)
  /-- VBANK_LOW (R460): The bank voltage falls below 30 V or 28 V; BROWNOUT or a stop follows at once. -/
  | vbankLow (centivolts : Nat)
  /-- INPUT_OVERVOLTAGE (R460): VIN above 84 V opens the isolation switch within 1 us. -/
  | inputOvervoltage (centivolts : Nat)
  /-- BROWNOUT_EXIT (R461): VIN and VBANK have held in range for 1 ms; the node leaves BROWNOUT. -/
  | brownoutExit
  /-- LAST_GASP_WRITTEN (R463): The reeve has written the last-gasp record, and the island switches off. -/
  | lastGaspWritten
  /-- POWER_SAMPLE (R466): The 1 ms average input power updates the ceiling, floor, clock caps and filler. -/
  | powerSample (watts : Nat)
  /-- PREBANK_RAISE (R469): Before an armed release, firmware raises the pre-banking target. -/
  | prebankRaise (c : CtxId)
  /-- DEEP (R471): IDLE.CMD DEEP enters deep idle when no context is open, or is dropped. -/
  | deep (a : Agent)
  /-- IDLE_WAKE (R471): IDLE.CMD WAKE starts the exit from DEEP. -/
  | idleWake (a : Agent)
  /-- DEEP_EXIT_DONE (R471): The 2 ms exit from DEEP completes and queued capsules are served. -/
  | deepExitDone
  /-- DIE_TEMP_READING (R473): A die reports its junction temperature and sets its clock cap. -/
  | dieTempReading (d : DieId) (reading : Byte)
  /-- REF_COMPARE (R476): The reference is compared with fabric time and flagged out of tolerance. -/
  | refCompare (ppb : BitVec 32)
  /-- REF_LOST (R476): The reference stops; the backup oscillator runs and the node stops in order. -/
  | refLost
  /-- POWER_UP (R504): 48 V in range and PWR_EN asserted start cold power-up. -/
  | powerUp (straps : BitVec 2) (vinOk : Bool)
  /-- COLD_RESET (R570): PWR_EN held low for 1 ms or more powers the node down without an orderly stop. -/
  | coldReset (lowUs : Nat)
  /-- RESET_REQ_N (R570): RESET_REQ_N held low for 1 us or more starts a node reset. -/
  | resetReqN (lowNs : Nat)
  /-- BOOT_VERIFY_DONE (R482): The ROM verifies a firmware bank and runs it, or enters RECOVERY. -/
  | bootVerifyDone
  /-- POSITION_QUERY_TIMER (R507): Without a position, the node repeats its I3C position request every 100 ms. -/
  | positionQueryTimer
  /-- HBM_TRAINING_DONE (R506): HBM training ends; failed channels are mapped out and the memory filled. -/
  | hbmTrainingDone (failed : List (SiteId × Fin 32))
  /-- SELF_TEST_DONE (R504): Tile, core and engine self-test ends with repairs or fencing. -/
  | selfTestDone (tiles : List TileId) (cores : List CoreId) (engines : Nat)
  /-- NODE_READY (R507): Once every condition holds, READY is set. -/
  | nodeReady
  /-- TRIAL_BOOT_TIMEOUT (R483): A trial boot not READY within 16 s restores the former bank and resets. -/
  | trialBootTimeout
  /-- STAGE (R515): A MGMT STAGE packet carries part of a member's staged object. -/
  | stage (src : NodeField) (payload : List Byte)
  /-- LAUNCH (R518): A launch token copy is forwarded to the children, then checked. -/
  | launch (src : NodeField) (payload : List Byte)
  /-- COUNT (R518): A child's count is summed, and passed up or, at the root, may trigger COMMIT or ABORT. -/
  | count (src : NodeField) (payload : List Byte)
  /-- COMMIT (R519): A COMMIT message schedules the shadowed launch to apply at T_c. -/
  | commit (src : NodeField) (payload : List Byte)
  /-- ABORT (R519): An ABORT message discards the shadowed launch. -/
  | abort (src : NodeField) (payload : List Byte)
  /-- RETIRED (R516): A RETIRED report reaches the launch root and is passed to the fabric manager. -/
  | retired (src : NodeField) (payload : List Byte)
  /-- JOB_FATAL (R516): A JOB_FATAL report reaches the launch root and is passed to the fabric manager. -/
  | jobFatal (src : NodeField) (payload : List Byte)
  /-- LAUNCH_ABORT_TIMER (R519): At I + TTL/2 with counts incomplete, the root broadcasts ABORT. -/
  | launchAbortTimer
  /-- FLOKAN_HELP (R530): Lists commands or one command's syntax. -/
  | flokanHelp (args : List Nat)
  /-- FLOKAN_VER (R530): Shows versions, bank, SVN and identity of the part. -/
  | flokanVer (args : List Nat)
  /-- FLOKAN_STATUS (R530): Shows stage, blocked bits, spare, supply and idle state. -/
  | flokanStatus (args : List Nat)
  /-- FLOKAN_BAUD (R523): Changes the serial rate after the final line. -/
  | flokanBaud (args : List Nat)
  /-- BAUD_REVERT (R523): No command line at the new rate for 10 s returns the line to 115,200 baud. -/
  | baudRevert
  /-- FLOKAN_TIME (R530): Shows fabric time, its state and the PTP offset. -/
  | flokanTime (args : List Nat)
  /-- FLOKAN_ERR (R530): Shows error ring records. -/
  | flokanErr (args : List Nat)
  /-- FLOKAN_LASTGASP (R530): Shows a last-gasp record. -/
  | flokanLastgasp (args : List Nat)
  /-- FLOKAN_REGR (R529): Reads register words under the inspect-tier limits. -/
  | flokanRegr (args : List Nat)
  /-- FLOKAN_COUNT (R530): Shows a page's always-on counters. -/
  | flokanCount (args : List Nat)
  /-- FLOKAN_RING (R530): Shows entries of a unit's event ring. -/
  | flokanRing (args : List Nat)
  /-- FLOKAN_SNAP (R535): Arms a freeze snapshot of the named dies. -/
  | flokanSnap (args : List Nat)
  /-- FLOKAN_SNAPSHOW (R530): Shows snapshot records of one die. -/
  | flokanSnapshow (args : List Nat)
  /-- FLOKAN_SNAPREL (R530): Releases the snapshot and thaws the rings. -/
  | flokanSnaprel (args : List Nat)
  /-- FLOKAN_REGW (R530): Writes one register word as the reeve. -/
  | flokanRegw (args : List Nat)
  /-- FLOKAN_INJECT (R530): Injects an error through ERR_INJECT. -/
  | flokanInject (args : List Nat)
  /-- FLOKAN_RESET (R530): Starts a node reset. -/
  | flokanReset (args : List Nat)
  /-- PORTMAP (R288): Changes a port pair's role, effective at the next node reset. -/
  | portmap (args : List Nat)
  /-- ETHMODE (R365): Changes an Ethernet port's mode, effective at the next node reset. -/
  | ethmode (args : List Nat)
  /-- FWLOAD (R483): Writes and verifies a firmware image into the bank not in use. -/
  | fwload (args : List Nat)
  /-- FLOKAN_TRACE (R530): Turns node trace export on or off. -/
  | flokanTrace (args : List Nat)
  /-- FLOKAN_TDUMP (R530): Dumps node trace records. -/
  | flokanTdump (args : List Nat)
  /-- FLOKAN_LOG (R529): Shows firmware log records under the tier limits. -/
  | flokanLog (args : List Nat)
  /-- FLOKAN_TOKEN (R530): Hands a token entered as data lines to the reeve. -/
  | flokanToken (args : List Nat)
  /-- FLOKAN_COMMIT (R499): Commits a shadowed token at a given time. -/
  | flokanCommit (args : List Nat)
  /-- FLOKAN_ABORT (R499): Discards a shadowed token. -/
  | flokanAbort (args : List Nat)
  /-- FLOKAN_DATA_LINE (R526): A hexadecimal data line is consumed and answered with a plus sign. -/
  | flokanDataLine (line : List Byte)
  /-- FLOKAN_ABORT_BYTE (R525): Byte 0x03 aborts the running command at its next line. -/
  | flokanAbortByte
  /-- EVR_FREEZE (R534): Setting or clearing EVR.FREEZE freezes or thaws the block's event rings. -/
  | evrFreeze (a : Agent) (page : BitVec 20) (on : Bool)
  /-- SNAP_ARM (R535): A write of SNAP.ARM arms a snapshot of the chosen dies at SNAP.TIME. -/
  | snapArm (a : Agent) (v : BitVec 32)
  /-- SNAP_LATCH (R535): At the snapshot time, every unit latches its queue state and freezes its rings. -/
  | snapLatch
  /-- SNAP_RELEASE (R535): A write of SNAP.RELEASE releases the snapshot and thaws the rings. -/
  | snapRelease (a : Agent)
  /-- TRACE_SYNC (R542): Every 100 ms and at each FTIME state change, a SYNC record goes to every active trace. -/
  | traceSync
  /-- HEALTH_SUMMARY (R583): The node writes a health summary every 100 ms and raises the SUMMARY interrupt. -/
  | healthSummary (urgent : Bool)
  /-- I3C_POSITION_WRITE (R582): The tray controller writes X, Y and Z; a valid first write sets the position. -/
  | i3cPositionWrite (x : Byte) (y : Byte) (z : Byte) (check : Byte)
  /-- I3C_STAGE_READ (R581): The tray controller reads the stage code and blocked bits. -/
  | i3cStageRead
  /-- I3C_SUMMARY_READ (R581): The tray controller reads the latest health summary. -/
  | i3cSummaryRead
  /-- SELF_REFRESH_EXIT_DONE (R256): Every stack finishes leaving self-refresh, within 2 us, and the requests held during the exit are served. -/
  | selfRefreshExitDone
  /-- DEEP_ENTRY_DONE (R471): Entry into deep idle completes and IDLE.STATE moves from ENTERING DEEP to DEEP with meshes, PHYs, cores and linkage array powered down. -/
  | deepEntryDone
  /-- RESET_REQ_N_RELEASE (R570): RESET_REQ_N rises after being held low, and the power-up sequence resumes from +2 ms. -/
  | resetReqNRelease
  /-- CM_RTU (R371): A connection management RTU from the host on QP1 completes the connection of a command queue pair after the node's REP. -/
  | cmRtu (qp : QpIx)
  /-- RNR_RETRY_TIMER (R374): After an RNR NAK the node, as requester, retransmits when the RNR timer expires, or puts the queue pair in error when the RNR retry count of 7 is spent. -/
  | rnrRetryTimer (qp : QpIx)
  /-- PFC_PAUSE_EXPIRY (R369): The pause time of a received PFC pause frame runs out and the paused priority resumes sending. -/
  | pfcPauseExpiry (e : EthId) (lp : Fin 2) (prio : BitVec 3)
  deriving DecidableEq, Repr

end Sys2Proof
end

