-- ==== Sys2Proof/Config.lean ====
section
/-! DEFINITION. What an implementation fixes and the spec leaves open: constants with no body, so that no proof can see a value. -/
namespace Sys2Proof.Config

/-- The channel slot that holds a granule (R252: a fixed permutation, not part of the architecture). -/
opaque granuleSlot : Nat → Nat

/-- A free value: the `n`-th value that the spec leaves open in a run. -/
opaque freeValue : Nat → Nat

/-- Parity of the fixed hash of source node, destination node and virtual channel that picks a port of a pair (R289). -/
opaque flowHashOdd : Nat → Nat → Nat → Bool

/-- The code in ARG1 of KERNEL_FAULT for a fault of kind 0 address, 1 access, 2 protection or 3 another exception (R591 names the
kinds and gives no codes). -/
opaque faultKind : Nat → Nat

/-- Which of the two values next to an inexact exact result a transcendental of R129 returns: function, width and source bits. -/
opaque roundsUp : (fn width bits : Nat) → Bool

/-- Output words of a linkage problem as FP64 encodings (R193, R202: a function of the operation, the model, input, contact and range
bytes, the starting impulses and the contact iteration; the spec names the algorithms and does not give their bits). -/
opaque linkage : (op : Nat) → (operands : List (List Byte)) → (start : List Nat) → (iter : Nat) → List Nat

/-- SATMASK of a linkage problem (R202). -/
opaque linkageSat : (op : Nat) → (operands : List (List Byte)) → (start : List Nat) → (iter : Nat) → Nat

/-- Some pivot of a problem's LDLᵀ rounds to 0 or below (R203). -/
opaque linkageSingular : (op : Nat) → (operands : List (List Byte)) → Bool

/-- Contact residual after an iteration, as an FP64 encoding (R210, R213). -/
opaque linkageResidual : (operands : List (List Byte)) → (start : List Nat) → (iter : Nat) → Nat

/-- SM3 of a byte list, as a 256-bit number (GB/T 32905; the spec names the standard and gives no algorithm). -/
opaque sm3 : List Byte → Nat

/-- Whether an SM2 signature over a byte list holds under a key (GB/T 32918). -/
opaque sm2Verify : (key : Nat) → (msg : List Byte) → (sig : List Byte) → Bool

/-- An SM2 signature by a key of the node. -/
opaque sm2Sign : (key : Nat) → (msg : List Byte) → List Byte

/-- SM4 encryption of a byte list under a key and a counter block (GB/T 32907). -/
opaque sm4 : (key : Nat) → (iv : Nat) → List Byte → List Byte

/-- The 16 B GCM tag of a byte list under a key and an IV. -/
opaque sm4Tag : (key : Nat) → (iv : Nat) → List Byte → List Byte

/-- The 128-bit subkey of a key and a salt (R425: the key derivation function of GB/T 32918.4). -/
opaque subkey : (key : Nat) → (salt : Nat) → Nat

/-- Node field of a rank of a group entry (R339, R340: a group's ranks run in logical order; no rule gives a rank's node field). -/
opaque memberNode : (entry : Nat) → (rank : Nat) → Nat

/-- First root exponent of the generator of RS(128,122) (R293 names the code and the field, not the first root). -/
opaque fecFirstRoot : Nat
/-- Flits of buffer, and so credits, of a link's virtual channel beyond the first (R311: the spec gives no figure). -/
opaque linkCredits : (vc : Nat) → Nat

/-- A GID is in the management peer list of the configuration store (R377). -/
opaque mgmtPeer : (gid : Nat) → Bool
/-- An address is one of a logical port's own (R368). -/
opaque ownAddress : (e lp : Nat) → (v6 : Bool) → (addr : Nat) → Bool
/-- MAC address of a logical port (R368). -/
opaque mac : (e lp : Nat) → Nat
/-- Priority code point for a logical port's command traffic (R368). -/
opaque commandPcp : (e lp : Nat) → Nat

/-- The node identity's SM2 public key, x then y (R484, R485). -/
opaque identityKey : Nat
/-- SM3 digest of the node identity certificate. -/
opaque identityCert : Nat

/-- The firmware image that a bank holds from manufacture. -/
opaque factoryImage : (bank : Nat) → List Byte
/-- An image passes the boot ROM's checks of R481 but for revocation and the minimum: magic, signer, signature and component digests
(R481 gives the header's items and not their places). -/
opaque imageGood : List Byte → Bool
/-- SVN of an image. -/
opaque imageSvn : List Byte → Nat
/-- Which of the four ROM root digests its signer's key has. -/
opaque imageRoot : List Byte → Nat

/-- Boot ROM version and root digests, as measurement index 1 covers them (R488). -/
opaque romContent : List Byte
/-- A certificate chain of a slot, at the node's n-th boot (R485, R487): slot 1 ends in the boot's attestation certificate. -/
opaque certChain : (slot boot : Nat) → List Byte
/-- The attestation key of the n-th boot (R484). -/
opaque attestationKey : (boot : Nat) → Nat
/-- CAPABILITIES fields that DMTF SPDM leaves to the responder: reserved, exponent and flags bytes; and the size fields. -/
opaque spdmTimes : List Byte
/-- Size fields of CAPABILITIES. -/
opaque spdmSizes : List Byte
/-- Body of ALGORITHMS for a request (DMTF SPDM 1.3 with the algorithms of R487). -/
opaque spdmAlgorithms : List Byte → List Byte
/-- Body of KEY_EXCHANGE_RSP for a request and a fresh value. -/
opaque spdmKeyExchange : List Byte → (fresh : Nat) → List Byte
/-- A FINISH message verifies over the transcript before it. -/
opaque spdmFinishOk : (transcript msg : List Byte) → Bool
/-- The certificate key under which a FINISH message's signature verifies. -/
opaque spdmRequester : (transcript msg : List Byte) → List Byte

/-- At the n-th boot the node's secret can be reconstructed and matches its certificate (R486). -/
opaque identityGood : (boot : Nat) → Bool
/-- At the n-th boot a copy of the configuration store carries a valid tag (R501). -/
opaque storeGood : (boot : Nat) → Bool

/-- Borranil's IANA Private Enterprise Number (R503: fixed; the spec gives no number). -/
opaque vendorPen : Nat
/-- Serial number of the part (R559: from the factory area). -/
opaque serial : Nat
/-- Offset of the firmware log ring, set at boot (R249). -/
opaque logBase : Nat
/-- `VERSION.MINOR` of a block type (R548: per block). -/
opaque versionMinor : (code : Nat) → Nat
/-- What a sensor that no command reports reads at a fabric time (R477): die power of die 0–6, coolant inlet 7 and outlet 8. -/
opaque sensor : (which time : Nat) → Nat

/-- Boot ROM version as `VER` shows it (R530). -/
opaque romVersion : Nat
/-- How many records or words a Flokan command shows where its count is left out (R530 gives no default), by its place in R530's table. -/
opaque flokanCount : (command : Nat) → Nat

end Sys2Proof.Config
end

