-- ==== Sys2Proof/Machine/Map.lean ====
section
/-! DEFINITION. Sparse data by key: one list of key and value pairs, keys strictly rising, and no entry equal to what an
unlisted key reads as. Memory (R43) is such a list of `Host.Cell`. -/
namespace Sys2Proof.Machine

/-- A sparse map in canonical form. -/
abbrev SMap (α : Type) := List (Nat × α)

/-- The value at a key; `d` where the key is not listed. -/
def mapGet {α : Type} (d : α) : SMap α → Nat → α
  | [], _ => d
  | (k, v) :: m, a => if k = a then v else mapGet d m a

/-- The map with every entry of a key removed. -/
def mapDel {α : Type} : SMap α → Nat → SMap α
  | [], _ => []
  | (k, v) :: m, a => if k = a then mapDel m a else (k, v) :: mapDel m a

/-- The map with a key set, in rising key order. -/
def mapIns {α : Type} : SMap α → Nat → α → SMap α
  | [], a, x => [(a, x)]
  | (k, v) :: m, a, x =>
    if k = a then (a, x) :: m else if a < k then (a, x) :: (k, v) :: m else (k, v) :: mapIns m a x

/-- The map with a key set to a value; the value that an unlisted key reads as is not listed. -/
def mapPut {α : Type} [DecidableEq α] (d : α) (m : SMap α) (a : Nat) (x : α) : SMap α :=
  if x = d then mapDel m a else mapIns m a x

/-- The canonical form: keys strictly rising from `lo`, no entry equal to `d`. -/
def mapWfFrom {α : Type} [DecidableEq α] (d : α) : Nat → SMap α → Bool
  | _, [] => true
  | lo, (k, v) :: m => lo ≤ k && v ≠ d && mapWfFrom d (k + 1) m

/-- The canonical form of a sparse map. -/
def mapWf {α : Type} [DecidableEq α] (d : α) (m : SMap α) : Bool := mapWfFrom d 0 m

/-- What an address of memory that nothing has written reads as: 0 (R504 fills HBM with zeros; DESIGN CHOICE, log entry 3, for the tile
stores and IMEM, whose power-up contents the spec does not give). -/
def memDefault : Byte := 0

/-- One byte of memory. -/
def memByte (m : List Host.Cell) (a : Nat) : Byte := mapGet memDefault m a

/-- One byte of memory written. -/
def memSet (m : List Host.Cell) (a : Nat) (b : Byte) : List Host.Cell := mapPut memDefault m a b

/-- `n` bytes of memory from address `a`. -/
def memRead (m : List Host.Cell) (a : Nat) : Nat → List Byte
  | 0 => []
  | n + 1 => memByte m a :: memRead m (a + 1) n

/-- Bytes written to memory from address `a`. -/
def memWrite (m : List Host.Cell) (a : Nat) : List Byte → List Host.Cell
  | [] => m
  | b :: bs => memWrite (memSet m a b) (a + 1) bs

/-- The canonical form of memory. -/
def memWf (m : List Host.Cell) : Bool := mapWf memDefault m

end Sys2Proof.Machine
end

