-- ==== Sys2Proof/Machine/Fields.lean ====
section
/-! DEFINITION. The register fields of the block pages: one descriptor for each row of the spec's register tables, and the fields
of each block. -/
namespace Sys2Proof.Machine

/-- Class of a writable field (R11); `none` for a field with no class. -/
inductive FieldClass where
  | none | live | shadowed | locked | dike
  deriving DecidableEq, Repr

/-- Access type of a field (R13). -/
inductive FieldAccess where
  | ro | rw | w1c | w1s | rc
  deriving DecidableEq, Repr

/-- The values a field's map lists (R10). -/
inductive FieldValid where
  | any
  | range (lo hi : Nat)
  /-- The low `n` bits are 0. -/
  | aligned (n : Nat)
  | oneOf (l : List Nat)
  deriving DecidableEq, Repr

/-- A register field: element i lies at `off + stride * i`, bits `[lsb + width - 1 : lsb]` from that offset. -/
structure FieldDesc where
  code : Nat
  off : Nat
  stride : Nat := 0
  count : Nat := 1
  lsb : Nat
  width : Nat
  cls : FieldClass := .none
  acc : FieldAccess
  reset : Nat := 0
  valid : FieldValid := .any
  deriving DecidableEq, Repr

/-- Whether a value is one that the field's map lists (R10). -/
def validHolds : FieldValid → Nat → Bool
  | .any, _ => true
  | .range lo hi, v => lo ≤ v && v ≤ hi
  | .aligned n, v => v % 2 ^ n == 0
  | .oneOf l, v => l.contains v

/-- R61: `PSTATE.STATE`, 0x100 [1:0], RO. -/
def fdFlaskPstateState : FieldDesc := { code := 0x1, off := 0x100, lsb := 0, width := 2, acc := .ro, reset := 2 }
/-- R61: `PSTATE.SLEEP_ABORT`, 0x100 [2:2], class L, W1C. -/
def fdFlaskPstateSleepAbort : FieldDesc := { code := 0x1, off := 0x100, lsb := 2, width := 1, cls := .live, acc := .w1c }
/-- R61: `PCMD.CMD`, 0x104 [1:0], class L, RW. -/
def fdFlaskPcmdCmd : FieldDesc := { code := 0x1, off := 0x104, lsb := 0, width := 2, cls := .live, acc := .rw, valid := .range 0 2 }
/-- R61: `GATE.IDLE_CYCLES`, 0x108 [15:0], class S, RW. -/
def fdFlaskGateIdleCycles : FieldDesc := { code := 0x1, off := 0x108, lsb := 0, width := 16, cls := .shadowed, acc := .rw, reset := 2048 }
/-- R61: `GATE_HOLD.MX`, 0x10C [15:0], class L, RW. -/
def fdFlaskGateHoldMx : FieldDesc := { code := 0x1, off := 0x10C, lsb := 0, width := 16, cls := .live, acc := .rw }
/-- R61: `GATE_HOLD.SV`, 0x10C [31:16], class L, RW. -/
def fdFlaskGateHoldSv : FieldDesc := { code := 0x1, off := 0x10C, lsb := 16, width := 16, cls := .live, acc := .rw }
/-- R61: `UNIT_STATE.MX`, 0x110 [15:0], RO. -/
def fdFlaskUnitStateMx : FieldDesc := { code := 0x1, off := 0x110, lsb := 0, width := 16, acc := .ro }
/-- R61: `UNIT_STATE.SV`, 0x110 [31:16], RO. -/
def fdFlaskUnitStateSv : FieldDesc := { code := 0x1, off := 0x110, lsb := 16, width := 16, acc := .ro }
/-- R61: `SPARE.IN_USE`, 0x114 [0:0], RO. -/
def fdFlaskSpareInUse : FieldDesc := { code := 0x1, off := 0x114, lsb := 0, width := 1, acc := .ro }
/-- R61: `SPARE.REMAPS`, 0x114 [4:1], RO. -/
def fdFlaskSpareRemaps : FieldDesc := { code := 0x1, off := 0x114, lsb := 1, width := 4, acc := .ro }
/-- R61: `SPARE.FENCED`, 0x114 [5:5], RO. -/
def fdFlaskSpareFenced : FieldDesc := { code := 0x1, off := 0x114, lsb := 5, width := 1, acc := .ro }
/-- R61: `SCRUB.PERIOD_S`, 0x118 [11:0], class L, RW. -/
def fdFlaskScrubPeriodS : FieldDesc := { code := 0x1, off := 0x118, lsb := 0, width := 12, cls := .live, acc := .rw, reset := 60, valid := .range 1 3600 }
/-- R61: `IMEM_SRC`, 0x120 [63:0], class X, RW. -/
def fdFlaskImemSrc : FieldDesc := { code := 0x1, off := 0x120, lsb := 0, width := 64, cls := .locked, acc := .rw, valid := .aligned 8 }
/-- R61: `IMEM_CTRL.TILES`, 0x128 [15:0], class X, RW. -/
def fdFlaskImemCtrlTiles : FieldDesc := { code := 0x1, off := 0x128, lsb := 0, width := 16, cls := .locked, acc := .rw }
/-- R61: `IMEM_CTRL.LEN`, 0x128 [24:16], class X, RW. -/
def fdFlaskImemCtrlLen : FieldDesc := { code := 0x1, off := 0x128, lsb := 16, width := 9, cls := .locked, acc := .rw, valid := .range 1 256 }
/-- R61: `IMEM_CTRL.GO`, 0x128 [31:31], class X, W1S. -/
def fdFlaskImemCtrlGo : FieldDesc := { code := 0x1, off := 0x128, lsb := 31, width := 1, cls := .locked, acc := .w1s }
/-- R172: `WATCH_ALLOT`, 0x130 [31:0], class L, RW. -/
def fdFlaskWatchAllot : FieldDesc := { code := 0x1, off := 0x130, lsb := 0, width := 32, cls := .live, acc := .rw }
/-- R172: `WATCH_OVER`, 0x134 [31:0], class L, W1C. -/
def fdFlaskWatchOver : FieldDesc := { code := 0x1, off := 0x134, lsb := 0, width := 32, cls := .live, acc := .w1c }
/-- R172: `IDLE_MAP`, 0x138 [15:0], RO. -/
def fdFlaskIdleMap : FieldDesc := { code := 0x1, off := 0x138, lsb := 0, width := 16, acc := .ro, reset := 0xFFFF }
/-- R172: `BAR[s].MEMBERS`, 0x140 + 4i [15:0], class L, RW. -/
def fdFlaskBarMembers : FieldDesc := { code := 0x1, off := 0x140, stride := 4, count := 8, lsb := 0, width := 16, cls := .live, acc := .rw }
/-- R172: `BAR[s].LEVEL`, 0x140 + 4i [17:16], class L, RW. -/
def fdFlaskBarLevel : FieldDesc := { code := 0x1, off := 0x140, stride := 4, count := 8, lsb := 16, width := 2, cls := .live, acc := .rw }
/-- R172: `BAR[s].GEN`, 0x160 + 4i [31:0], RO. -/
def fdFlaskBarGen : FieldDesc := { code := 0x1, off := 0x160, stride := 4, count := 8, lsb := 0, width := 32, acc := .ro }
/-- R172: `WATCH[w].BASE`, 0x200 + 16i [39:0], RO. -/
def fdFlaskWatchBase : FieldDesc := { code := 0x1, off := 0x200, stride := 16, count := 32, lsb := 0, width := 40, acc := .ro }
/-- R172: `WATCH[w].CFG`, 0x208 + 16i [30:0], RO. -/
def fdFlaskWatchCfg : FieldDesc := { code := 0x1, off := 0x208, stride := 16, count := 32, lsb := 0, width := 31, acc := .ro }
/-- R172: `WATCH[w].ARMED`, 0x208 + 16i [31:31], RO. -/
def fdFlaskWatchArmed : FieldDesc := { code := 0x1, off := 0x208, stride := 16, count := 32, lsb := 31, width := 1, acc := .ro }
/-- R191: `VGATE.IDLE_CYCLES`, 0x100 [15:0], class S, RW. -/
def fdPdVgateIdleCycles : FieldDesc := { code := 0x8, off := 0x100, lsb := 0, width := 16, cls := .shadowed, acc := .rw, reset := 4096 }
/-- R191: `VGATE_HOLD`, 0x108 [63:0], class L, RW. -/
def fdPdVgateHold : FieldDesc := { code := 0x8, off := 0x108, lsb := 0, width := 64, cls := .live, acc := .rw }
/-- R191: `VSTATE`, 0x110 [63:0], RO. -/
def fdPdVstate : FieldDesc := { code := 0x8, off := 0x110, lsb := 0, width := 64, acc := .ro }
/-- R191: `SPARE.IN_USE`, 0x118 [2:0], RO. -/
def fdPdSpareInUse : FieldDesc := { code := 0x8, off := 0x118, lsb := 0, width := 3, acc := .ro }
/-- R191: `CORES.FENCED`, 0x120 [63:0], RO. -/
def fdPdCoresFenced : FieldDesc := { code := 0x8, off := 0x120, lsb := 0, width := 64, acc := .ro }
/-- R191: `LLC_WAYS[c]`, 0x180 + 4i [15:0], class X, RW. -/
def fdPdLlcWays : FieldDesc := { code := 0x8, off := 0x180, stride := 4, count := 16, lsb := 0, width := 16, cls := .locked, acc := .rw, reset := 0xFFFF, valid := .range 1 0xFFFF }
/-- R191: `GMAP[e].NODE`, 0x800 + 8i [16:0], class X, RW. -/
def fdPdGmapNode : FieldDesc := { code := 0x8, off := 0x800, stride := 8, count := 256, lsb := 0, width := 17, cls := .locked, acc := .rw }
/-- R191: `GMAP[e].CLASS`, 0x800 + 8i [20:17], class X, RW. -/
def fdPdGmapClass : FieldDesc := { code := 0x8, off := 0x800, stride := 8, count := 256, lsb := 17, width := 4, cls := .locked, acc := .rw, reset := 8, valid := .range 8 9 }
/-- R191: `GMAP[e].CTX`, 0x800 + 8i [24:21], class X, RW. -/
def fdPdGmapCtx : FieldDesc := { code := 0x8, off := 0x800, stride := 8, count := 256, lsb := 21, width := 4, cls := .locked, acc := .rw }
/-- R191: `GMAP[e].VALID`, 0x800 + 8i [25:25], class X, RW. -/
def fdPdGmapValid : FieldDesc := { code := 0x8, off := 0x800, stride := 8, count := 256, lsb := 25, width := 1, cls := .locked, acc := .rw }
/-- R214: `ENG.IN_SERVICE`, 0x100 [5:0], RO. -/
def fdLsaEngInService : FieldDesc := { code := 0xD, off := 0x100, lsb := 0, width := 6, acc := .ro, reset := 32 }
/-- R214: `ENG.SPARES_USED`, 0x100 [9:8], RO. -/
def fdLsaEngSparesUsed : FieldDesc := { code := 0xD, off := 0x100, lsb := 8, width := 2, acc := .ro }
/-- R214: `SATFLAGS`, 0x104 [15:0], class L, W1C. -/
def fdLsaSatflags : FieldDesc := { code := 0xD, off := 0x104, lsb := 0, width := 16, cls := .live, acc := .w1c }
/-- R214: `GATE.IDLE_US`, 0x108 [15:0], class S, RW. -/
def fdLsaGateIdleUs : FieldDesc := { code := 0xD, off := 0x108, lsb := 0, width := 16, cls := .shadowed, acc := .rw, reset := 100 }
/-- R214: `Q[q].RING`, 0x200 + 32i [39:0], class X, RW. -/
def fdLsaQRing : FieldDesc := { code := 0xD, off := 0x200, stride := 32, count := 16, lsb := 0, width := 40, cls := .locked, acc := .rw, valid := .aligned 8 }
/-- R214: `Q[q].LOG2LEN`, 0x200 + 32i [51:48], class X, RW. -/
def fdLsaQLog2len : FieldDesc := { code := 0xD, off := 0x200, stride := 32, count := 16, lsb := 48, width := 4, cls := .locked, acc := .rw, reset := 4, valid := .range 4 12 }
/-- R214: `Q[q].PIDX`, 0x208 + 32i [39:0], class X, RW. -/
def fdLsaQPidx : FieldDesc := { code := 0xD, off := 0x208, stride := 32, count := 16, lsb := 0, width := 40, cls := .locked, acc := .rw, valid := .aligned 8 }
/-- R214: `Q[q].CQ`, 0x210 + 32i [39:0], class X, RW. -/
def fdLsaQCq : FieldDesc := { code := 0xD, off := 0x210, stride := 32, count := 16, lsb := 0, width := 40, cls := .locked, acc := .rw, valid := .aligned 8 }
/-- R214: `Q[q].CTX`, 0x218 + 32i [3:0], class X, RW. -/
def fdLsaQCtx : FieldDesc := { code := 0xD, off := 0x218, stride := 32, count := 16, lsb := 0, width := 4, cls := .locked, acc := .rw }
/-- R214: `Q[q].EN`, 0x218 + 32i [4:4], class L, RW. -/
def fdLsaQEn : FieldDesc := { code := 0xD, off := 0x218, stride := 32, count := 16, lsb := 4, width := 1, cls := .live, acc := .rw }
/-- R214: `Q[q].EVENT`, 0x218 + 32i [5:5], class L, RW. -/
def fdLsaQEvent : FieldDesc := { code := 0xD, off := 0x218, stride := 32, count := 16, lsb := 5, width := 1, cls := .live, acc := .rw }
/-- R214: `Q[q].OVERRUN`, 0x218 + 32i [6:6], class L, W1C. -/
def fdLsaQOverrun : FieldDesc := { code := 0xD, off := 0x218, stride := 32, count := 16, lsb := 6, width := 1, cls := .live, acc := .w1c }
/-- R214: `Q[q].CIDX`, 0x218 + 32i [63:32], RO. -/
def fdLsaQCidx : FieldDesc := { code := 0xD, off := 0x218, stride := 32, count := 16, lsb := 32, width := 32, acc := .ro }
/-- R249: `TRACE_EN.LO`, 0x100 [63:0], class L, RW. -/
def fdSchedTraceEnLo : FieldDesc := { code := 0xE, off := 0x100, lsb := 0, width := 64, cls := .live, acc := .rw, reset := 0xFFF }
/-- R249: `TRACE_EN.HI`, 0x108 [55:0], class L, RW. -/
def fdSchedTraceEnHi : FieldDesc := { code := 0xE, off := 0x108, lsb := 0, width := 56, cls := .live, acc := .rw }
/-- R249: `LOG_SEQ`, 0x110 [31:0], RO. -/
def fdSchedLogSeq : FieldDesc := { code := 0xE, off := 0x110, lsb := 0, width := 32, acc := .ro }
/-- R249: `LOG_BASE`, 0x118 [39:0], RO. -/
def fdSchedLogBase : FieldDesc := { code := 0xE, off := 0x118, lsb := 0, width := 40, acc := .ro }
/-- R249: `PROTO.MINOR`, 0x120 [15:0], RO. -/
def fdSchedProtoMinor : FieldDesc := { code := 0xE, off := 0x120, lsb := 0, width := 16, acc := .ro }
/-- R249: `PROTO.MAJOR`, 0x120 [31:16], RO. -/
def fdSchedProtoMajor : FieldDesc := { code := 0xE, off := 0x120, lsb := 16, width := 16, acc := .ro, reset := 1 }
/-- R249: `FEATURES`, 0x140 + 8i [63:0], RO. -/
def fdSchedFeatures : FieldDesc := { code := 0xE, off := 0x140, stride := 8, count := 4, lsb := 0, width := 64, acc := .ro }
/-- R249: `CTX[c].HEAT`, 0x200 + 16i [63:0], RO. -/
def fdSchedCtxHeat : FieldDesc := { code := 0xE, off := 0x200, stride := 16, count := 16, lsb := 0, width := 64, acc := .ro }
/-- R249: `CTX[c].STATE`, 0x208 + 16i [2:0], RO. -/
def fdSchedCtxState : FieldDesc := { code := 0xE, off := 0x208, stride := 16, count := 16, lsb := 0, width := 3, acc := .ro }
/-- R249: `CTX[c].SLOT`, 0x208 + 16i [5:4], RO. -/
def fdSchedCtxSlot : FieldDesc := { code := 0xE, off := 0x208, stride := 16, count := 16, lsb := 4, width := 2, acc := .ro }
/-- R249: `CTX[c].HARD_RUN`, 0x208 + 16i [15:8], RO. -/
def fdSchedCtxHardRun : FieldDesc := { code := 0xE, off := 0x208, stride := 16, count := 16, lsb := 8, width := 8, acc := .ro }
/-- R249: `CTX[c].ATTEMPT`, 0x208 + 16i [63:32], RO. -/
def fdSchedCtxAttempt : FieldDesc := { code := 0xE, off := 0x208, stride := 16, count := 16, lsb := 32, width := 32, acc := .ro }
/-- R280: `TOP`, 0x100 [39:0], RO. -/
def fdMemmapTop : FieldDesc := { code := 0x7, off := 0x100, lsb := 0, width := 40, acc := .ro, reset := 0xC000000000 }
/-- R280: `MAPOUTS`, 0x108 [3:0], RO. -/
def fdMemmapMapouts : FieldDesc := { code := 0x7, off := 0x108, lsb := 0, width := 4, acc := .ro }
/-- R280: `EVAC.RATE`, 0x10C [7:0], class L, RW. -/
def fdMemmapEvacRate : FieldDesc := { code := 0x7, off := 0x10C, lsb := 0, width := 8, cls := .live, acc := .rw, reset := 8, valid := .range 1 64 }
/-- R280: `EVAC.BUSY`, 0x10C [8:8], RO. -/
def fdMemmapEvacBusy : FieldDesc := { code := 0x7, off := 0x10C, lsb := 8, width := 1, acc := .ro }
/-- R280: `EVAC.CH`, 0x10C [17:9], RO. -/
def fdMemmapEvacCh : FieldDesc := { code := 0x7, off := 0x10C, lsb := 9, width := 9, acc := .ro }
/-- R280: `WP_INDEX`, 0x110 [11:0], class L, RW. -/
def fdMemmapWpIndex : FieldDesc := { code := 0x7, off := 0x110, lsb := 0, width := 12, cls := .live, acc := .rw }
/-- R280: `WP_BASE`, 0x118 [39:0], class L, RW. -/
def fdMemmapWpBase : FieldDesc := { code := 0x7, off := 0x118, lsb := 0, width := 40, cls := .live, acc := .rw, valid := .aligned 8 }
/-- R280: `WP_LEN`, 0x120 [31:0], class L, RW. -/
def fdMemmapWpLen : FieldDesc := { code := 0x7, off := 0x120, lsb := 0, width := 32, cls := .live, acc := .rw }
/-- R280: `WP_CTX`, 0x120 [35:32], class L, RW. -/
def fdMemmapWpCtx : FieldDesc := { code := 0x7, off := 0x120, lsb := 32, width := 4, cls := .live, acc := .rw }
/-- R280: `WP_VALID`, 0x120 [36:36], class L, RW. -/
def fdMemmapWpValid : FieldDesc := { code := 0x7, off := 0x120, lsb := 36, width := 1, cls := .live, acc := .rw }
/-- R280: `POLDER[p].BASE`, 0x200 + 32i [9:0], class D, RW. -/
def fdMemmapPolderBase : FieldDesc := { code := 0x7, off := 0x200, stride := 32, count := 16, lsb := 0, width := 10, cls := .dike, acc := .rw }
/-- R280: `POLDER[p].SIZE`, 0x200 + 32i [25:16], class D, RW. -/
def fdMemmapPolderSize : FieldDesc := { code := 0x7, off := 0x200, stride := 32, count := 16, lsb := 16, width := 10, cls := .dike, acc := .rw }
/-- R280: `POLDER[p].JOB`, 0x200 + 32i [51:32], class D, RW. -/
def fdMemmapPolderJob : FieldDesc := { code := 0x7, off := 0x200, stride := 32, count := 16, lsb := 32, width := 20, cls := .dike, acc := .rw }
/-- R280: `POLDER[p].FLOOR_R`, 0x208 + 32i [9:0], class D, RW. -/
def fdMemmapPolderFloorR : FieldDesc := { code := 0x7, off := 0x208, stride := 32, count := 16, lsb := 0, width := 10, cls := .dike, acc := .rw }
/-- R280: `POLDER[p].FLOOR_W`, 0x208 + 32i [25:16], class D, RW. -/
def fdMemmapPolderFloorW : FieldDesc := { code := 0x7, off := 0x208, stride := 32, count := 16, lsb := 16, width := 10, cls := .dike, acc := .rw }
/-- R280: `POLDER[p].RATE_R`, 0x210 + 32i [10:0], class L, RW. -/
def fdMemmapPolderRateR : FieldDesc := { code := 0x7, off := 0x210, stride := 32, count := 16, lsb := 0, width := 11, cls := .live, acc := .rw, reset := 1024, valid := .range 1 1024 }
/-- R280: `POLDER[p].RATE_W`, 0x210 + 32i [26:16], class L, RW. -/
def fdMemmapPolderRateW : FieldDesc := { code := 0x7, off := 0x210, stride := 32, count := 16, lsb := 16, width := 11, cls := .live, acc := .rw, reset := 1024, valid := .range 1 1024 }
/-- R280: `POLDER[p].BURST_R`, 0x218 + 32i [7:0], class L, RW. -/
def fdMemmapPolderBurstR : FieldDesc := { code := 0x7, off := 0x218, stride := 32, count := 16, lsb := 0, width := 8, cls := .live, acc := .rw, reset := 16, valid := .range 1 255 }
/-- R280: `POLDER[p].BURST_W`, 0x218 + 32i [15:8], class L, RW. -/
def fdMemmapPolderBurstW : FieldDesc := { code := 0x7, off := 0x218, stride := 32, count := 16, lsb := 8, width := 8, cls := .live, acc := .rw, reset := 16, valid := .range 1 255 }
/-- R280: `POLDER[p].BORROW`, 0x218 + 32i [16:16], class L, RW. -/
def fdMemmapPolderBorrow : FieldDesc := { code := 0x7, off := 0x218, stride := 32, count := 16, lsb := 16, width := 1, cls := .live, acc := .rw }
/-- R280: `POLDER[p].SCRUB_BUSY`, 0x218 + 32i [17:17], RO. -/
def fdMemmapPolderScrubBusy : FieldDesc := { code := 0x7, off := 0x218, stride := 32, count := 16, lsb := 17, width := 1, acc := .ro }
/-- R281: `TEMP.NOW`, 0x100 [7:0], RO. -/
def fdHbmcTempNow : FieldDesc := { code := 0x4, off := 0x100, lsb := 0, width := 8, acc := .ro }
/-- R281: `TEMP.MAX`, 0x100 [15:8], RC. -/
def fdHbmcTempMax : FieldDesc := { code := 0x4, off := 0x100, lsb := 8, width := 8, acc := .rc }
/-- R281: `THERM.STATE`, 0x100 [17:16], RO. -/
def fdHbmcThermState : FieldDesc := { code := 0x4, off := 0x100, lsb := 16, width := 2, acc := .ro }
/-- R281: `THERM.CAP`, 0x100 [30:24], RO. -/
def fdHbmcThermCap : FieldDesc := { code := 0x4, off := 0x100, lsb := 24, width := 7, acc := .ro, reset := 100 }
/-- R281: `CH.IN_SERVICE`, 0x104 [31:0], RO. -/
def fdHbmcChInService : FieldDesc := { code := 0x4, off := 0x104, lsb := 0, width := 32, acc := .ro, reset := 0xFFFFFFFF }
/-- R281: `CE_PREFAIL`, 0x108 [15:0], class L, RW. -/
def fdHbmcCePrefail : FieldDesc := { code := 0x4, off := 0x108, lsb := 0, width := 16, cls := .live, acc := .rw, reset := 256 }
/-- R281: `CE_EVAC`, 0x108 [31:16], class L, RW. -/
def fdHbmcCeEvac : FieldDesc := { code := 0x4, off := 0x108, lsb := 16, width := 16, cls := .live, acc := .rw, reset := 1024 }
/-- R281: `SCRUB_H`, 0x10C [7:0], class L, RW. -/
def fdHbmcScrubH : FieldDesc := { code := 0x4, off := 0x10C, lsb := 0, width := 8, cls := .live, acc := .rw, reset := 24, valid := .range 1 168 }
/-- R281: `SR_IDLE`, 0x10C [15:8], class L, RW. -/
def fdHbmcSrIdle : FieldDesc := { code := 0x4, off := 0x10C, lsb := 8, width := 8, cls := .live, acc := .rw, reset := 10 }
/-- R281: `MERGE.USED`, 0x110 [6:0], RO. -/
def fdHbmcMergeUsed : FieldDesc := { code := 0x4, off := 0x110, lsb := 0, width := 7, acc := .ro }
/-- R281: `MERGE.COMBINED`, 0x114 [31:0], RC. -/
def fdHbmcMergeCombined : FieldDesc := { code := 0x4, off := 0x114, lsb := 0, width := 32, acc := .rc }
/-- R281: `CH[c].CE_HOUR`, 0x180 + 8i [15:0], RO. -/
def fdHbmcChCeHour : FieldDesc := { code := 0x4, off := 0x180, stride := 8, count := 32, lsb := 0, width := 16, acc := .ro }
/-- R281: `CH[c].DE_TOTAL`, 0x180 + 8i [31:16], RO. -/
def fdHbmcChDeTotal : FieldDesc := { code := 0x4, off := 0x180, stride := 8, count := 32, lsb := 16, width := 16, acc := .ro }
/-- R281: `CH[c].EVAC_PENDING`, 0x180 + 8i [32:32], RO. -/
def fdHbmcChEvacPending : FieldDesc := { code := 0x4, off := 0x180, stride := 8, count := 32, lsb := 32, width := 1, acc := .ro }
/-- R303: `STATE`, 0x100 [3:0], RO. -/
def fdPortState : FieldDesc := { code := 0x1F, off := 0x100, lsb := 0, width := 4, acc := .ro }
/-- R303: `DOWN_CAUSE`, 0x100 [7:4], RO. -/
def fdPortDownCause : FieldDesc := { code := 0x1F, off := 0x100, lsb := 4, width := 4, acc := .ro }
/-- R303: `ROLE`, 0x100 [11:8], RO. -/
def fdPortRole : FieldDesc := { code := 0x1F, off := 0x100, lsb := 8, width := 4, acc := .ro }
/-- R303: `PEER.NODE`, 0x104 [16:0], RO. -/
def fdPortPeerNode : FieldDesc := { code := 0x1F, off := 0x104, lsb := 0, width := 17, acc := .ro }
/-- R303: `PEER.PORT`, 0x104 [21:17], RO. -/
def fdPortPeerPort : FieldDesc := { code := 0x1F, off := 0x104, lsb := 17, width := 5, acc := .ro }
/-- R303: `LANE.TX_ACTIVE`, 0x108 [17:0], RO. -/
def fdPortLaneTxActive : FieldDesc := { code := 0x1F, off := 0x108, lsb := 0, width := 18, acc := .ro, reset := 0x1FEFF }
/-- R303: `LANE.RX_ACTIVE`, 0x10C [17:0], RO. -/
def fdPortLaneRxActive : FieldDesc := { code := 0x1F, off := 0x10C, lsb := 0, width := 18, acc := .ro, reset := 0x1FEFF }
/-- R303: `LANE.TX_FAILED`, 0x110 [17:0], RO. -/
def fdPortLaneTxFailed : FieldDesc := { code := 0x1F, off := 0x110, lsb := 0, width := 18, acc := .ro }
/-- R303: `LANE.RX_FAILED`, 0x114 [17:0], RO. -/
def fdPortLaneRxFailed : FieldDesc := { code := 0x1F, off := 0x114, lsb := 0, width := 18, acc := .ro }
/-- R303: `SPARES.TX`, 0x118 [1:0], RO. -/
def fdPortSparesTx : FieldDesc := { code := 0x1F, off := 0x118, lsb := 0, width := 2, acc := .ro, reset := 2 }
/-- R303: `SPARES.RX`, 0x118 [3:2], RO. -/
def fdPortSparesRx : FieldDesc := { code := 0x1F, off := 0x118, lsb := 2, width := 2, acc := .ro, reset := 2 }
/-- R303: `COMB.SPARE`, 0x118 [5:4], RO. -/
def fdPortCombSpare : FieldDesc := { code := 0x1F, off := 0x118, lsb := 4, width := 2, acc := .ro }
/-- R303: `DELAY`, 0x11C [23:0], RO. -/
def fdPortDelay : FieldDesc := { code := 0x1F, off := 0x11C, lsb := 0, width := 24, acc := .ro }
/-- R303: `SWAP.THRESH`, 0x120 [15:0], class L, RW. -/
def fdPortSwapThresh : FieldDesc := { code := 0x1F, off := 0x120, lsb := 0, width := 16, cls := .live, acc := .rw, reset := 1000 }
/-- R303: `SWAP.CIRCUIT`, 0x124 [4:0], class X, RW. -/
def fdPortSwapCircuit : FieldDesc := { code := 0x1F, off := 0x124, lsb := 0, width := 5, cls := .locked, acc := .rw, valid := .range 0 17 }
/-- R303: `SWAP.GO`, 0x124 [31:31], class X, W1S. -/
def fdPortSwapGo : FieldDesc := { code := 0x1F, off := 0x124, lsb := 31, width := 1, cls := .locked, acc := .w1s }
/-- R303: `RETRY.REPLAYS`, 0x128 [31:0], RC. -/
def fdPortRetryReplays : FieldDesc := { code := 0x1F, off := 0x128, lsb := 0, width := 32, acc := .rc }
/-- R303: `RETRY.ESCALATIONS`, 0x12C [31:0], RC. -/
def fdPortRetryEscalations : FieldDesc := { code := 0x1F, off := 0x12C, lsb := 0, width := 32, acc := .rc }
/-- R303: `LOST`, 0x130 [31:0], RC. -/
def fdPortLost : FieldDesc := { code := 0x1F, off := 0x130, lsb := 0, width := 32, acc := .rc }
/-- R338: `NODE_ID`, 0x100 [16:0], RO. -/
def fdEcrokNodeId : FieldDesc := { code := 0x18, off := 0x100, lsb := 0, width := 17, acc := .ro }
/-- R338: `NODE_ID.VALID`, 0x100 [17:17], RO. -/
def fdEcrokNodeIdValid : FieldDesc := { code := 0x18, off := 0x100, lsb := 17, width := 1, acc := .ro }
/-- R338: `TRANSIT.ALLOW`, 0x108 [0:0], class L, RW. -/
def fdEcrokTransitAllow : FieldDesc := { code := 0x18, off := 0x108, lsb := 0, width := 1, cls := .live, acc := .rw, reset := 1 }
/-- R338: `MGMT.RATE`, 0x10C [7:0], class L, RW. -/
def fdEcrokMgmtRate : FieldDesc := { code := 0x18, off := 0x10C, lsb := 0, width := 8, cls := .live, acc := .rw, reset := 16, valid := .range 1 255 }
/-- R338: `CNT.STALE`, 0x110 [31:0], RC. -/
def fdEcrokCntStale : FieldDesc := { code := 0x18, off := 0x110, lsb := 0, width := 32, acc := .rc }
/-- R338: `CNT.FOREIGN`, 0x114 [31:0], RC. -/
def fdEcrokCntForeign : FieldDesc := { code := 0x18, off := 0x114, lsb := 0, width := 32, acc := .rc }
/-- R338: `CNT.GAP`, 0x118 [31:0], RC. -/
def fdEcrokCntGap : FieldDesc := { code := 0x18, off := 0x118, lsb := 0, width := 32, acc := .rc }
/-- R338: `CNT.DUP`, 0x11C [31:0], RC. -/
def fdEcrokCntDup : FieldDesc := { code := 0x18, off := 0x11C, lsb := 0, width := 32, acc := .rc }
/-- R338: `CNT.LATE`, 0x120 [31:0], RC. -/
def fdEcrokCntLate : FieldDesc := { code := 0x18, off := 0x120, lsb := 0, width := 32, acc := .rc }
/-- R338: `CNT.TIMEOUT`, 0x124 [31:0], RC. -/
def fdEcrokCntTimeout : FieldDesc := { code := 0x18, off := 0x124, lsb := 0, width := 32, acc := .rc }
/-- R338: `CNT.BUSY`, 0x128 [31:0], RC. -/
def fdEcrokCntBusy : FieldDesc := { code := 0x18, off := 0x128, lsb := 0, width := 32, acc := .rc }
/-- R338: `CNT.DEAD`, 0x12C [31:0], RC. -/
def fdEcrokCntDead : FieldDesc := { code := 0x18, off := 0x12C, lsb := 0, width := 32, acc := .rc }
/-- R338: `CNT.MALFORMED`, 0x130 [31:0], RC. -/
def fdEcrokCntMalformed : FieldDesc := { code := 0x18, off := 0x130, lsb := 0, width := 32, acc := .rc }
/-- R338: `REPLY.USED`, 0x138 [16:0], RO. -/
def fdEcrokReplyUsed : FieldDesc := { code := 0x18, off := 0x138, lsb := 0, width := 17, acc := .ro }
/-- R338: `WIN_INDEX`, 0x140 [7:0], class L, RW. -/
def fdEcrokWinIndex : FieldDesc := { code := 0x18, off := 0x140, lsb := 0, width := 8, cls := .live, acc := .rw }
/-- R338: `WIN_DATA`, 0x148 + 8i [63:0], class D, RW. -/
def fdEcrokWinData : FieldDesc := { code := 0x18, off := 0x148, stride := 8, count := 4, lsb := 0, width := 64, cls := .dike, acc := .rw }
/-- R338: `TMO[c].US`, 0x200 + 8i [13:0], class X, RW. -/
def fdEcrokTmoUs : FieldDesc := { code := 0x18, off := 0x200, stride := 8, count := 16, lsb := 0, width := 14, cls := .locked, acc := .rw, reset := 256, valid := .range 16 16000 }
/-- R338: `TMO[c].RETRIES`, 0x200 + 8i [17:16], class X, RW. -/
def fdEcrokTmoRetries : FieldDesc := { code := 0x18, off := 0x200, stride := 8, count := 16, lsb := 16, width := 2, cls := .locked, acc := .rw, reset := 2 }
/-- R338: `TMO[c].HMAX`, 0x200 + 8i [22:18], RO. -/
def fdEcrokTmoHmax : FieldDesc := { code := 0x18, off := 0x200, stride := 8, count := 16, lsb := 18, width := 5, acc := .ro }
/-- R338: `MRING[c].BASE`, 0x400 + 32i [39:0], class X, RW. -/
def fdEcrokMringBase : FieldDesc := { code := 0x18, off := 0x400, stride := 32, count := 16, lsb := 0, width := 40, cls := .locked, acc := .rw, valid := .aligned 8 }
/-- R338: `MRING[c].LOG2`, 0x400 + 32i [43:40], class X, RW. -/
def fdEcrokMringLog2 : FieldDesc := { code := 0x18, off := 0x400, stride := 32, count := 16, lsb := 40, width := 4, cls := .locked, acc := .rw, reset := 4, valid := .range 4 12 }
/-- R338: `MRING[c].EN`, 0x400 + 32i [44:44], class X, RW. -/
def fdEcrokMringEn : FieldDesc := { code := 0x18, off := 0x400, stride := 32, count := 16, lsb := 44, width := 1, cls := .locked, acc := .rw }
/-- R338: `MRING[c].CONS`, 0x408 + 32i [39:0], class X, RW. -/
def fdEcrokMringCons : FieldDesc := { code := 0x18, off := 0x408, stride := 32, count := 16, lsb := 0, width := 40, cls := .locked, acc := .rw, valid := .aligned 3 }
/-- R338: `MRING[c].TAIL`, 0x410 + 32i [31:0], RO. -/
def fdEcrokMringTail : FieldDesc := { code := 0x18, off := 0x410, stride := 32, count := 16, lsb := 0, width := 32, acc := .ro }
/-- R338: `VCW[p]`, 0x600 + 8i [63:0], class L, RW. -/
def fdEcrokVcw : FieldDesc := { code := 0x18, off := 0x600, stride := 8, count := 18, lsb := 0, width := 64, cls := .live, acc := .rw, reset := 0x1818081028104848 }
/-- R363: `NOW`, 0x100 [63:0], RO. -/
def fdFtimeNow : FieldDesc := { code := 0x1D, off := 0x100, lsb := 0, width := 64, acc := .ro }
/-- R363: `STATE`, 0x108 [2:0], RO. -/
def fdFtimeState : FieldDesc := { code := 0x1D, off := 0x108, lsb := 0, width := 3, acc := .ro }
/-- R363: `DEPTH`, 0x108 [13:8], RO. -/
def fdFtimeDepth : FieldDesc := { code := 0x1D, off := 0x108, lsb := 8, width := 6, acc := .ro }
/-- R363: `PARENT`, 0x10C [3:0], class L, RW. -/
def fdFtimeParent : FieldDesc := { code := 0x1D, off := 0x10C, lsb := 0, width := 4, cls := .live, acc := .rw, reset := 0xE, valid := .oneOf [0,1,2,3,4,5,6,7,8,0xE,0xF] }
/-- R363: `ERROR_PS`, 0x110 [31:0], RO. -/
def fdFtimeErrorPs : FieldDesc := { code := 0x1D, off := 0x110, lsb := 0, width := 32, acc := .ro }
/-- R363: `RATE_PPB`, 0x114 [31:0], RO. -/
def fdFtimeRatePpb : FieldDesc := { code := 0x1D, off := 0x114, lsb := 0, width := 32, acc := .ro }
/-- R363: `HOLDOVER_MS`, 0x118 [31:0], RC. -/
def fdFtimeHoldoverMs : FieldDesc := { code := 0x1D, off := 0x118, lsb := 0, width := 32, acc := .rc }
/-- R363: `LATE`, 0x11C [31:0], RC. -/
def fdFtimeLate : FieldDesc := { code := 0x1D, off := 0x11C, lsb := 0, width := 32, acc := .rc }
/-- R363: `START`, 0x120 [63:0], class X, RW. -/
def fdFtimeStart : FieldDesc := { code := 0x1D, off := 0x120, lsb := 0, width := 64, cls := .locked, acc := .rw }
/-- R363: `PPS.EN`, 0x128 [0:0], class L, RW. -/
def fdFtimePpsEn : FieldDesc := { code := 0x1D, off := 0x128, lsb := 0, width := 1, cls := .live, acc := .rw }
/-- R363: `PPS.TIME`, 0x130 [63:0], RO. -/
def fdFtimePpsTime : FieldDesc := { code := 0x1D, off := 0x130, lsb := 0, width := 64, acc := .ro }
/-- R363: `REL[k].TIME`, 0x400 + 64i [63:0], class X, RW. -/
def fdFtimeRelTime : FieldDesc := { code := 0x1D, off := 0x400, stride := 64, count := 32, lsb := 0, width := 64, cls := .locked, acc := .rw }
/-- R363: `REL[k].SLOT`, 0x408 + 64i [2:0], class X, RW. -/
def fdFtimeRelSlot : FieldDesc := { code := 0x1D, off := 0x408, stride := 64, count := 32, lsb := 0, width := 3, cls := .locked, acc := .rw }
/-- R363: `REL[k].ACTION`, 0x408 + 64i [4:3], class X, RW. -/
def fdFtimeRelAction : FieldDesc := { code := 0x1D, off := 0x408, stride := 64, count := 32, lsb := 3, width := 2, cls := .locked, acc := .rw, valid := .range 0 1 }
/-- R363: `REL[k].ARM`, 0x408 + 64i [8:8], class X, W1S. -/
def fdFtimeRelArm : FieldDesc := { code := 0x1D, off := 0x408, stride := 64, count := 32, lsb := 8, width := 1, cls := .locked, acc := .w1s }
/-- R363: `REL[k].LATE`, 0x408 + 64i [9:9], class L, W1C. -/
def fdFtimeRelLate : FieldDesc := { code := 0x1D, off := 0x408, stride := 64, count := 32, lsb := 9, width := 1, cls := .live, acc := .w1c }
/-- R363: `REL[k].FIRED`, 0x410 + 64i [63:0], RO. -/
def fdFtimeRelFired : FieldDesc := { code := 0x1D, off := 0x410, stride := 64, count := 32, lsb := 0, width := 64, acc := .ro }
/-- R363: `REL[k].FLASKS0`, 0x420 + 64i [63:0], class X, RW. -/
def fdFtimeRelFlasks0 : FieldDesc := { code := 0x1D, off := 0x420, stride := 64, count := 32, lsb := 0, width := 64, cls := .locked, acc := .rw }
/-- R363: `REL[k].FLASKS1`, 0x428 + 64i [63:0], class X, RW. -/
def fdFtimeRelFlasks1 : FieldDesc := { code := 0x1D, off := 0x428, stride := 64, count := 32, lsb := 0, width := 64, cls := .locked, acc := .rw }
/-- R363: `REL[k].FLASKS2`, 0x430 + 64i [63:0], class X, RW. -/
def fdFtimeRelFlasks2 : FieldDesc := { code := 0x1D, off := 0x430, stride := 64, count := 32, lsb := 0, width := 64, cls := .locked, acc := .rw }
/-- R363: `REL[k].FLASKS3`, 0x438 + 64i [63:0], class X, RW. -/
def fdFtimeRelFlasks3 : FieldDesc := { code := 0x1D, off := 0x438, stride := 64, count := 32, lsb := 0, width := 64, cls := .locked, acc := .rw }
/-- R364: `GRP_INDEX`, 0x100 [5:0], class L, RW. -/
def fdCollGrpIndex : FieldDesc := { code := 0x1B, off := 0x100, lsb := 0, width := 6, cls := .live, acc := .rw }
/-- R364: `GRP_DATA`, 0x180 + 8i [63:0], class D, RW. -/
def fdCollGrpData : FieldDesc := { code := 0x1B, off := 0x180, stride := 8, count := 16, lsb := 0, width := 64, cls := .dike, acc := .rw }
/-- R364: `CNT.STALE`, 0x120 [31:0], RC. -/
def fdCollCntStale : FieldDesc := { code := 0x1B, off := 0x120, lsb := 0, width := 32, acc := .rc }
/-- R364: `CNT.DUP`, 0x124 [31:0], RC. -/
def fdCollCntDup : FieldDesc := { code := 0x1B, off := 0x124, lsb := 0, width := 32, acc := .rc }
/-- R364: `CNT.TIMEOUT`, 0x128 [31:0], RC. -/
def fdCollCntTimeout : FieldDesc := { code := 0x1B, off := 0x128, lsb := 0, width := 32, acc := .rc }
/-- R364: `ACTIVE`, 0x12C [7:0], RO. -/
def fdCollActive : FieldDesc := { code := 0x1B, off := 0x12C, lsb := 0, width := 8, acc := .ro }
/-- R364: `TMO[c].MS`, 0x200 + 8i [15:0], class X, RW. -/
def fdCollTmoMs : FieldDesc := { code := 0x1B, off := 0x200, stride := 8, count := 16, lsb := 0, width := 16, cls := .locked, acc := .rw, reset := 100, valid := .range 1 65535 }
/-- R364: `BARGRP[c][s]`, 0x400 + 4i [15:0], class X, RW. -/
def fdCollBargrp : FieldDesc := { code := 0x1B, off := 0x400, stride := 4, count := 128, lsb := 0, width := 16, cls := .locked, acc := .rw, reset := 0xFFFF }
/-- R392: `LINK.L0`, 0x100 [1:0], RO. -/
def fdEthLinkL0 : FieldDesc := { code := 0x21, off := 0x100, lsb := 0, width := 2, acc := .ro }
/-- R392: `LINK.L1`, 0x100 [3:2], RO. -/
def fdEthLinkL1 : FieldDesc := { code := 0x21, off := 0x100, lsb := 2, width := 2, acc := .ro }
/-- R392: `MODE`, 0x100 [8:8], RO. -/
def fdEthMode : FieldDesc := { code := 0x21, off := 0x100, lsb := 8, width := 1, acc := .ro }
/-- R392: `MAC0`, 0x108 [47:0], RO. -/
def fdEthMac0 : FieldDesc := { code := 0x21, off := 0x108, lsb := 0, width := 48, acc := .ro }
/-- R392: `MAC1`, 0x110 [47:0], RO. -/
def fdEthMac1 : FieldDesc := { code := 0x21, off := 0x110, lsb := 0, width := 48, acc := .ro }
/-- R392: `PFC.ENABLE`, 0x118 [7:0], class L, RW. -/
def fdEthPfcEnable : FieldDesc := { code := 0x21, off := 0x118, lsb := 0, width := 8, cls := .live, acc := .rw }
/-- R392: `CC.PERIOD_US`, 0x11C [7:0], class L, RW. -/
def fdEthCcPeriodUs : FieldDesc := { code := 0x21, off := 0x11C, lsb := 0, width := 8, cls := .live, acc := .rw, reset := 20, valid := .range 1 255 }
/-- R392: `CC.DEC`, 0x11C [15:8], class L, RW. -/
def fdEthCcDec : FieldDesc := { code := 0x21, off := 0x11C, lsb := 8, width := 8, cls := .live, acc := .rw, reset := 32, valid := .range 1 128 }
/-- R392: `CC.QUIET`, 0x11C [23:16], class L, RW. -/
def fdEthCcQuiet : FieldDesc := { code := 0x21, off := 0x11C, lsb := 16, width := 8, cls := .live, acc := .rw, reset := 8 }
/-- R392: `CC.CNP_US`, 0x11C [31:24], class L, RW. -/
def fdEthCcCnpUs : FieldDesc := { code := 0x21, off := 0x11C, lsb := 24, width := 8, cls := .live, acc := .rw, reset := 20, valid := .range 1 255 }
/-- R392: `CC.AI_MBPS`, 0x120 [19:0], class L, RW. -/
def fdEthCcAiMbps : FieldDesc := { code := 0x21, off := 0x120, lsb := 0, width := 20, cls := .live, acc := .rw, reset := 3125, valid := .range 1 800000 }
/-- R392: `PTP.OFFSET`, 0x128 [63:0], RO. -/
def fdEthPtpOffset : FieldDesc := { code := 0x21, off := 0x128, lsb := 0, width := 64, acc := .ro }
/-- R392: `PTP.RATE_PPB`, 0x130 [31:0], RO. -/
def fdEthPtpRatePpb : FieldDesc := { code := 0x21, off := 0x130, lsb := 0, width := 32, acc := .ro }
/-- R392: `PTP.EN`, 0x134 [0:0], class L, RW. -/
def fdEthPtpEn : FieldDesc := { code := 0x21, off := 0x134, lsb := 0, width := 1, cls := .live, acc := .rw }
/-- R392: `PTP.STEER`, 0x134 [1:1], class L, RW. -/
def fdEthPtpSteer : FieldDesc := { code := 0x21, off := 0x134, lsb := 1, width := 1, cls := .live, acc := .rw }
/-- R392: `CNT.CNP_SENT`, 0x138 [31:0], RC. -/
def fdEthCntCnpSent : FieldDesc := { code := 0x21, off := 0x138, lsb := 0, width := 32, acc := .rc }
/-- R392: `CNT.CNP_RECV`, 0x13C [31:0], RC. -/
def fdEthCntCnpRecv : FieldDesc := { code := 0x21, off := 0x13C, lsb := 0, width := 32, acc := .rc }
/-- R392: `CNT.DROPPED`, 0x140 [31:0], RC. -/
def fdEthCntDropped : FieldDesc := { code := 0x21, off := 0x140, lsb := 0, width := 32, acc := .rc }
/-- R392: `CNT.RNR_SENT`, 0x144 [31:0], RC. -/
def fdEthCntRnrSent : FieldDesc := { code := 0x21, off := 0x144, lsb := 0, width := 32, acc := .rc }
/-- R392: `CNT.QP_ERR`, 0x148 [31:0], RC. -/
def fdEthCntQpErr : FieldDesc := { code := 0x21, off := 0x148, lsb := 0, width := 32, acc := .rc }
/-- R392: `QP.USED`, 0x150 [12:0], RO. -/
def fdEthQpUsed : FieldDesc := { code := 0x21, off := 0x150, lsb := 0, width := 13, acc := .ro }
/-- R432: `HOLD.USED`, 0x100 [14:0], RO. -/
def fdCkptHoldUsed : FieldDesc := { code := 0x2A, off := 0x100, lsb := 0, width := 15, acc := .ro }
/-- R432: `PROMO.INFLIGHT`, 0x104 [4:0], RO. -/
def fdCkptPromoInflight : FieldDesc := { code := 0x2A, off := 0x104, lsb := 0, width := 5, acc := .ro }
/-- R432: `PROMO.COUNT`, 0x108 [31:0], RC. -/
def fdCkptPromoCount : FieldDesc := { code := 0x2A, off := 0x108, lsb := 0, width := 32, acc := .rc }
/-- R432: `PROMO.QUEUED`, 0x10C [31:0], RC. -/
def fdCkptPromoQueued : FieldDesc := { code := 0x2A, off := 0x10C, lsb := 0, width := 32, acc := .rc }
/-- R432: `CTX[c].STATE`, 0x200 + 16i [2:0], RO. -/
def fdCkptCtxState : FieldDesc := { code := 0x2A, off := 0x200, stride := 16, count := 16, lsb := 0, width := 3, acc := .ro }
/-- R432: `CTX[c].LAST`, 0x200 + 16i [15:8], RO. -/
def fdCkptCtxLast : FieldDesc := { code := 0x2A, off := 0x200, stride := 16, count := 16, lsb := 8, width := 8, acc := .ro }
/-- R432: `CTX[c].HEAT`, 0x208 + 16i [63:0], RO. -/
def fdCkptCtxHeat : FieldDesc := { code := 0x2A, off := 0x208, stride := 16, count := 16, lsb := 0, width := 64, acc := .ro }
/-- R439: `ERR_STATUS.SRC`, 0x020 [15:0], class L, W1C. -/
def fdErrErrStatusSrc : FieldDesc := { code := 0x0, off := 0x20, lsb := 0, width := 16, cls := .live, acc := .w1c }
/-- R439: `ERR_STATUS.OVERFLOW`, 0x020 [16:16], class L, W1C. -/
def fdErrErrStatusOverflow : FieldDesc := { code := 0x0, off := 0x20, lsb := 16, width := 1, cls := .live, acc := .w1c }
/-- R439: `ERR_STATUS.MAXCLASS`, 0x020 [18:17], RO. -/
def fdErrErrStatusMaxclass : FieldDesc := { code := 0x0, off := 0x20, lsb := 17, width := 2, acc := .ro }
/-- R439: `ERR_STATUS.QUEUED`, 0x020 [23:19], RO. -/
def fdErrErrStatusQueued : FieldDesc := { code := 0x0, off := 0x20, lsb := 19, width := 5, acc := .ro }
/-- R439: `ERR_ENABLE`, 0x024 [15:0], class L, RW. -/
def fdErrErrEnable : FieldDesc := { code := 0x0, off := 0x24, lsb := 0, width := 16, cls := .live, acc := .rw, reset := 0xFFFF }
/-- R439: `ERR_SEVERITY`, 0x028 [31:0], class L, RW. -/
def fdErrErrSeverity : FieldDesc := { code := 0x0, off := 0x28, lsb := 0, width := 32, cls := .live, acc := .rw }
/-- R439: `ERR_INJECT.SOURCE`, 0x02C [3:0], class X, RW. -/
def fdErrErrInjectSource : FieldDesc := { code := 0x0, off := 0x2C, lsb := 0, width := 4, cls := .locked, acc := .rw }
/-- R439: `ERR_INJECT.GO`, 0x02C [8:8], class X, W1S. -/
def fdErrErrInjectGo : FieldDesc := { code := 0x0, off := 0x2C, lsb := 8, width := 1, cls := .locked, acc := .w1s }
/-- R439: `CE_COUNT`, 0x030 [31:0], RC. -/
def fdErrCeCount : FieldDesc := { code := 0x0, off := 0x30, lsb := 0, width := 32, acc := .rc }
/-- R439: `UC_COUNT`, 0x034 [31:0], RC. -/
def fdErrUcCount : FieldDesc := { code := 0x0, off := 0x34, lsb := 0, width := 32, acc := .rc }
/-- R439: `FIRST.SOURCE`, 0x038 [3:0], RO. -/
def fdErrFirstSource : FieldDesc := { code := 0x0, off := 0x38, lsb := 0, width := 4, acc := .ro }
/-- R439: `FIRST.CLASS`, 0x038 [5:4], RO. -/
def fdErrFirstClass : FieldDesc := { code := 0x0, off := 0x38, lsb := 4, width := 2, acc := .ro }
/-- R439: `FIRST.SEQ`, 0x038 [27:8], RO. -/
def fdErrFirstSeq : FieldDesc := { code := 0x0, off := 0x38, lsb := 8, width := 20, acc := .ro }
/-- R439: `FIRST.VALID`, 0x038 [31:31], class L, W1C. -/
def fdErrFirstValid : FieldDesc := { code := 0x0, off := 0x38, lsb := 31, width := 1, cls := .live, acc := .w1c }
/-- R439: `NEXT`, 0x03C [31:0], RC. -/
def fdErrNext : FieldDesc := { code := 0x0, off := 0x3C, lsb := 0, width := 32, acc := .rc }
/-- R477: `VIN`, 0x100 [13:0], RO. -/
def fdPowerVin : FieldDesc := { code := 0x26, off := 0x100, lsb := 0, width := 14, acc := .ro }
/-- R477: `IIN`, 0x100 [29:16], RO. -/
def fdPowerIin : FieldDesc := { code := 0x26, off := 0x100, lsb := 16, width := 14, acc := .ro }
/-- R477: `PIN`, 0x104 [15:0], RO. -/
def fdPowerPin : FieldDesc := { code := 0x26, off := 0x104, lsb := 0, width := 16, acc := .ro }
/-- R477: `SUPPLY.STATE`, 0x108 [2:0], RO. -/
def fdPowerSupplyState : FieldDesc := { code := 0x26, off := 0x108, lsb := 0, width := 3, acc := .ro }
/-- R477: `SUPPLY.DIPS`, 0x10C [31:0], RC. -/
def fdPowerSupplyDips : FieldDesc := { code := 0x26, off := 0x10C, lsb := 0, width := 32, acc := .rc }
/-- R477: `SUPPLY.BROWNOUTS`, 0x110 [31:0], RC. -/
def fdPowerSupplyBrownouts : FieldDesc := { code := 0x26, off := 0x110, lsb := 0, width := 32, acc := .rc }
/-- R477: `ENERGY`, 0x118 [63:0], RO. -/
def fdPowerEnergy : FieldDesc := { code := 0x26, off := 0x118, lsb := 0, width := 64, acc := .ro }
/-- R477: `RAMP.PCT`, 0x120 [6:0], class L, RW. -/
def fdPowerRampPct : FieldDesc := { code := 0x26, off := 0x120, lsb := 0, width := 7, cls := .live, acc := .rw, reset := 20, valid := .range 1 100 }
/-- R477: `RAMP.CAPPED`, 0x120 [8:8], RO. -/
def fdPowerRampCapped : FieldDesc := { code := 0x26, off := 0x120, lsb := 8, width := 1, acc := .ro }
/-- R477: `RAMP.CAP_MS`, 0x124 [31:0], RC. -/
def fdPowerRampCapMs : FieldDesc := { code := 0x26, off := 0x124, lsb := 0, width := 32, acc := .rc }
/-- R477: `BANK.FLOOR_W`, 0x128 [12:0], class L, RW. -/
def fdPowerBankFloorW : FieldDesc := { code := 0x26, off := 0x128, lsb := 0, width := 13, cls := .live, acc := .rw, valid := .range 0 3690 }
/-- R477: `BANK.EFFECTIVE_W`, 0x12C [12:0], RO. -/
def fdPowerBankEffectiveW : FieldDesc := { code := 0x26, off := 0x12C, lsb := 0, width := 13, acc := .ro }
/-- R477: `BANK.FILL_J`, 0x130 [31:0], RC. -/
def fdPowerBankFillJ : FieldDesc := { code := 0x26, off := 0x130, lsb := 0, width := 32, acc := .rc }
/-- R477: `BANK.FLASK_W`, 0x134 [4:0], class L, RW. -/
def fdPowerBankFlaskW : FieldDesc := { code := 0x26, off := 0x134, lsb := 0, width := 5, cls := .live, acc := .rw, reset := 10, valid := .range 1 31 }
/-- R477: `CAP_W`, 0x138 [12:0], class L, RW. -/
def fdPowerCapW : FieldDesc := { code := 0x26, off := 0x138, lsb := 0, width := 13, cls := .live, acc := .rw, reset := 4100, valid := .range 1000 4100 }
/-- R477: `IDLE.CMD`, 0x13C [1:0], class L, RW. -/
def fdPowerIdleCmd : FieldDesc := { code := 0x26, off := 0x13C, lsb := 0, width := 2, cls := .live, acc := .rw, valid := .range 0 2 }
/-- R477: `IDLE.STATE`, 0x13C [3:2], RO. -/
def fdPowerIdleState : FieldDesc := { code := 0x26, off := 0x13C, lsb := 2, width := 2, acc := .ro }
/-- R477: `DIE[d].TJ`, 0x140 + 4i [7:0], RO. -/
def fdPowerDieTj : FieldDesc := { code := 0x26, off := 0x140, stride := 4, count := 7, lsb := 0, width := 8, acc := .ro }
/-- R477: `DIE[d].TJMAX`, 0x140 + 4i [15:8], RC. -/
def fdPowerDieTjmax : FieldDesc := { code := 0x26, off := 0x140, stride := 4, count := 7, lsb := 8, width := 8, acc := .rc }
/-- R477: `DIE[d].STATE`, 0x140 + 4i [17:16], RO. -/
def fdPowerDieState : FieldDesc := { code := 0x26, off := 0x140, stride := 4, count := 7, lsb := 16, width := 2, acc := .ro }
/-- R477: `DIE[d].CAP`, 0x140 + 4i [30:24], RO. -/
def fdPowerDieCap : FieldDesc := { code := 0x26, off := 0x140, stride := 4, count := 7, lsb := 24, width := 7, acc := .ro, reset := 80 }
/-- R477: `DIE[d].W`, 0x160 + 4i [15:0], RO. -/
def fdPowerDieW : FieldDesc := { code := 0x26, off := 0x160, stride := 4, count := 7, lsb := 0, width := 16, acc := .ro }
/-- R477: `COOL.IN`, 0x180 [7:0], RO. -/
def fdPowerCoolIn : FieldDesc := { code := 0x26, off := 0x180, lsb := 0, width := 8, acc := .ro }
/-- R477: `COOL.OUT`, 0x180 [15:8], RO. -/
def fdPowerCoolOut : FieldDesc := { code := 0x26, off := 0x180, lsb := 8, width := 8, acc := .ro }
/-- R477: `LASTGASP.CAUSE`, 0x190 [2:0], RO. -/
def fdPowerLastgaspCause : FieldDesc := { code := 0x26, off := 0x190, lsb := 0, width := 3, acc := .ro }
/-- R477: `LASTGASP.TIME`, 0x198 [63:0], RO. -/
def fdPowerLastgaspTime : FieldDesc := { code := 0x26, off := 0x198, lsb := 0, width := 64, acc := .ro }
/-- R478: `REF.STATE`, 0x100 [1:0], RO. -/
def fdClkRefState : FieldDesc := { code := 0x27, off := 0x100, lsb := 0, width := 2, acc := .ro }
/-- R478: `REF.PPB`, 0x104 [31:0], RO. -/
def fdClkRefPpb : FieldDesc := { code := 0x27, off := 0x104, lsb := 0, width := 32, acc := .ro }
/-- R478: `DOMAINS_ON`, 0x108 [8:0], RO. -/
def fdClkDomainsOn : FieldDesc := { code := 0x27, off := 0x108, lsb := 0, width := 9, acc := .ro, reset := 1 }
/-- R478: `FLASK[f].FREQ`, 0x200 + 4i [6:0], class L, RW. -/
def fdClkFlaskFreq : FieldDesc := { code := 0x27, off := 0x200, stride := 4, count := 256, lsb := 0, width := 7, cls := .live, acc := .rw, reset := 80, valid := .range 8 80 }
/-- R478: `FLASK[f].ACTUAL`, 0x200 + 4i [14:8], RO. -/
def fdClkFlaskActual : FieldDesc := { code := 0x27, off := 0x200, stride := 4, count := 256, lsb := 8, width := 7, acc := .ro }
/-- R478: `FLASK[f].LOCKED`, 0x200 + 4i [16:16], RO. -/
def fdClkFlaskLocked : FieldDesc := { code := 0x27, off := 0x200, stride := 4, count := 256, lsb := 16, width := 1, acc := .ro }
/-- R478: `PD.FREQ`, 0x600 [6:0], class L, RW. -/
def fdClkPdFreq : FieldDesc := { code := 0x27, off := 0x600, lsb := 0, width := 7, cls := .live, acc := .rw, reset := 80, valid := .range 8 80 }
/-- R478: `PD.ACTUAL`, 0x600 [14:8], RO. -/
def fdClkPdActual : FieldDesc := { code := 0x27, off := 0x600, lsb := 8, width := 7, acc := .ro }
/-- R503: `GROUP[g].VER`, 0x100 + 4i [31:0], RO. -/
def fdDikeGroupVer : FieldDesc := { code := 0x11, off := 0x100, stride := 4, count := 8, lsb := 0, width := 32, acc := .ro }
/-- R503: `DIGEST`, 0x120 + 8i [63:0], RO. -/
def fdDikeDigest : FieldDesc := { code := 0x11, off := 0x120, stride := 8, count := 4, lsb := 0, width := 64, acc := .ro }
/-- R503: `STATE.CLAIMED`, 0x140 [0:0], RO. -/
def fdDikeStateClaimed : FieldDesc := { code := 0x11, off := 0x140, lsb := 0, width := 1, acc := .ro }
/-- R503: `STATE.RECOVERY`, 0x140 [1:1], RO. -/
def fdDikeStateRecovery : FieldDesc := { code := 0x11, off := 0x140, lsb := 1, width := 1, acc := .ro }
/-- R503: `STATE.IDENTITY`, 0x140 [2:2], RO. -/
def fdDikeStateIdentity : FieldDesc := { code := 0x11, off := 0x140, lsb := 2, width := 1, acc := .ro, reset := 1 }
/-- R503: `STATE.BANK`, 0x140 [3:3], RO. -/
def fdDikeStateBank : FieldDesc := { code := 0x11, off := 0x140, lsb := 3, width := 1, acc := .ro }
/-- R503: `STATE.TRIAL`, 0x140 [4:4], RO. -/
def fdDikeStateTrial : FieldDesc := { code := 0x11, off := 0x140, lsb := 4, width := 1, acc := .ro }
/-- R503: `FW_SVN`, 0x144 [31:0], RO. -/
def fdDikeFwSvn : FieldDesc := { code := 0x11, off := 0x144, lsb := 0, width := 32, acc := .ro }
/-- R503: `FW_SVN_MIN`, 0x148 [31:0], RO. -/
def fdDikeFwSvnMin : FieldDesc := { code := 0x11, off := 0x148, lsb := 0, width := 32, acc := .ro }
/-- R503: `ROOT_REVOKED`, 0x14C [3:0], RO. -/
def fdDikeRootRevoked : FieldDesc := { code := 0x11, off := 0x14C, lsb := 0, width := 4, acc := .ro }
/-- R503: `CFG_GEN`, 0x150 [63:0], RO. -/
def fdDikeCfgGen : FieldDesc := { code := 0x11, off := 0x150, lsb := 0, width := 64, acc := .ro }
/-- R503: `SHADOW.USED`, 0x158 [1:0], RO. -/
def fdDikeShadowUsed : FieldDesc := { code := 0x11, off := 0x158, lsb := 0, width := 2, acc := .ro }
/-- R503: `NONCE.USED`, 0x15C [12:0], RO. -/
def fdDikeNonceUsed : FieldDesc := { code := 0x11, off := 0x15C, lsb := 0, width := 13, acc := .ro }
/-- R503: `CNT.ACCEPTED`, 0x160 [31:0], RC. -/
def fdDikeCntAccepted : FieldDesc := { code := 0x11, off := 0x160, lsb := 0, width := 32, acc := .rc }
/-- R503: `CNT.REFUSED`, 0x164 [31:0], RC. -/
def fdDikeCntRefused : FieldDesc := { code := 0x11, off := 0x164, lsb := 0, width := 32, acc := .rc }
/-- R503: `LAST_REFUSAL`, 0x168 [15:0], RO. -/
def fdDikeLastRefusal : FieldDesc := { code := 0x11, off := 0x168, lsb := 0, width := 16, acc := .ro }
/-- R503: `CNT.ORPHAN`, 0x16C [31:0], RC. -/
def fdDikeCntOrphan : FieldDesc := { code := 0x11, off := 0x16C, lsb := 0, width := 32, acc := .rc }
/-- R503: `VENDOR_PEN`, 0x170 [31:0], RO. -/
def fdDikeVendorPen : FieldDesc := { code := 0x11, off := 0x170, lsb := 0, width := 32, acc := .ro }
/-- R533: `EVR.INDEX`, 0x080 [7:0], class L, RW. -/
def fdEvrEvrIndex : FieldDesc := { code := 0x0, off := 0x80, lsb := 0, width := 8, cls := .live, acc := .rw }
/-- R533: `EVR.MASK`, 0x080 [14:8], class L, RW. -/
def fdEvrEvrMask : FieldDesc := { code := 0x0, off := 0x80, lsb := 8, width := 7, cls := .live, acc := .rw, reset := 0x7F }
/-- R533: `EVR.FREEZE`, 0x080 [16:16], class L, RW. -/
def fdEvrEvrFreeze : FieldDesc := { code := 0x0, off := 0x80, lsb := 16, width := 1, cls := .live, acc := .rw }
/-- R533: `EVR.FREEZE_ON_UC`, 0x080 [17:17], class L, RW. -/
def fdEvrEvrFreezeOnUc : FieldDesc := { code := 0x0, off := 0x80, lsb := 17, width := 1, cls := .live, acc := .rw, reset := 1 }
/-- R533: `EVR.UNIT`, 0x080 [28:24], class L, RW. -/
def fdEvrEvrUnit : FieldDesc := { code := 0x0, off := 0x80, lsb := 24, width := 5, cls := .live, acc := .rw }
/-- R533: `EVR.HEAD`, 0x088 [31:0], RO. -/
def fdEvrEvrHead : FieldDesc := { code := 0x0, off := 0x88, lsb := 0, width := 32, acc := .ro }
/-- R533: `EVR.LOST`, 0x088 [63:32], RC. -/
def fdEvrEvrLost : FieldDesc := { code := 0x0, off := 0x88, lsb := 32, width := 32, acc := .rc }
/-- R533: `EVR.ENTRY`, 0x0C0 + 8i [63:0], RO. -/
def fdEvrEvrEntry : FieldDesc := { code := 0x0, off := 0xC0, stride := 8, count := 8, lsb := 0, width := 64, acc := .ro }
/-- R544: `NTRACE.EN`, 0x100 [0:0], class L, RW. -/
def fdObsNtraceEn : FieldDesc := { code := 0x29, off := 0x100, lsb := 0, width := 1, cls := .live, acc := .rw }
/-- R544: `TRACE.PCT`, 0x100 [9:8], class L, RW. -/
def fdObsTracePct : FieldDesc := { code := 0x29, off := 0x100, lsb := 8, width := 2, cls := .live, acc := .rw, reset := 3, valid := .range 1 3 }
/-- R544: `NTRACE.HEAD`, 0x108 [31:0], RO. -/
def fdObsNtraceHead : FieldDesc := { code := 0x29, off := 0x108, lsb := 0, width := 32, acc := .ro }
/-- R544: `NTRACE.LOST`, 0x10C [31:0], RC. -/
def fdObsNtraceLost : FieldDesc := { code := 0x29, off := 0x10C, lsb := 0, width := 32, acc := .rc }
/-- R544: `SNAP.TIME`, 0x110 [63:0], class X, RW. -/
def fdObsSnapTime : FieldDesc := { code := 0x29, off := 0x110, lsb := 0, width := 64, cls := .locked, acc := .rw }
/-- R544: `SNAP.DIES`, 0x118 [6:0], class X, RW. -/
def fdObsSnapDies : FieldDesc := { code := 0x29, off := 0x118, lsb := 0, width := 7, cls := .locked, acc := .rw, reset := 0x7F }
/-- R544: `SNAP.ARM`, 0x118 [8:8], class X, W1S. -/
def fdObsSnapArm : FieldDesc := { code := 0x29, off := 0x118, lsb := 8, width := 1, cls := .locked, acc := .w1s }
/-- R544: `SNAP.HELD`, 0x118 [9:9], RO. -/
def fdObsSnapHeld : FieldDesc := { code := 0x29, off := 0x118, lsb := 9, width := 1, acc := .ro }
/-- R544: `SNAP.RELEASE`, 0x118 [10:10], class L, W1S. -/
def fdObsSnapRelease : FieldDesc := { code := 0x29, off := 0x118, lsb := 10, width := 1, cls := .live, acc := .w1s }
/-- R544: `SNAP.TRUNC`, 0x118 [11:11], RO. -/
def fdObsSnapTrunc : FieldDesc := { code := 0x29, off := 0x118, lsb := 11, width := 1, acc := .ro }
/-- R544: `SNAP.TAKEN`, 0x120 [63:0], RO. -/
def fdObsSnapTaken : FieldDesc := { code := 0x29, off := 0x120, lsb := 0, width := 64, acc := .ro }
/-- R544: `BRK[c].BASE`, 0x200 + 32i [39:0], class X, RW. -/
def fdObsBrkBase : FieldDesc := { code := 0x29, off := 0x200, stride := 32, count := 16, lsb := 0, width := 40, cls := .locked, acc := .rw, valid := .aligned 8 }
/-- R544: `BRK[c].LOG2`, 0x200 + 32i [43:40], class X, RW. -/
def fdObsBrkLog2 : FieldDesc := { code := 0x29, off := 0x200, stride := 32, count := 16, lsb := 40, width := 4, cls := .locked, acc := .rw, reset := 6, valid := .range 6 16 }
/-- R544: `BRK[c].EN`, 0x200 + 32i [44:44], class X, RW. -/
def fdObsBrkEn : FieldDesc := { code := 0x29, off := 0x200, stride := 32, count := 16, lsb := 44, width := 1, cls := .locked, acc := .rw }
/-- R544: `CTR[c].BASE`, 0x208 + 32i [39:0], class X, RW. -/
def fdObsCtrBase : FieldDesc := { code := 0x29, off := 0x208, stride := 32, count := 16, lsb := 0, width := 40, cls := .locked, acc := .rw, valid := .aligned 8 }
/-- R544: `CTR[c].LOG2`, 0x208 + 32i [45:40], class X, RW. -/
def fdObsCtrLog2 : FieldDesc := { code := 0x29, off := 0x208, stride := 32, count := 16, lsb := 40, width := 6, cls := .locked, acc := .rw, reset := 20, valid := .range 20 34 }
/-- R544: `CTR[c].MODE`, 0x208 + 32i [49:48], class X, RW. -/
def fdObsCtrMode : FieldDesc := { code := 0x29, off := 0x208, stride := 32, count := 16, lsb := 48, width := 2, cls := .locked, acc := .rw, valid := .range 0 2 }
/-- R544: `CTR[c].DST`, 0x210 + 32i [63:0], class X, RW. -/
def fdObsCtrDst : FieldDesc := { code := 0x29, off := 0x210, stride := 32, count := 16, lsb := 0, width := 64, cls := .locked, acc := .rw }
/-- R544: `CTR[c].HEAD`, 0x218 + 32i [31:0], RO. -/
def fdObsCtrHead : FieldDesc := { code := 0x29, off := 0x218, stride := 32, count := 16, lsb := 0, width := 32, acc := .ro }
/-- R544: `CTR[c].LOST`, 0x218 + 32i [63:32], RC. -/
def fdObsCtrLost : FieldDesc := { code := 0x29, off := 0x218, stride := 32, count := 16, lsb := 32, width := 32, acc := .rc }
/-- R548: `ID.TYPE`, 0x000 [15:0], RO. -/
def fdComIdType : FieldDesc := { code := 0x0, off := 0x0, lsb := 0, width := 16, acc := .ro }
/-- R548: `ID.INSTANCE`, 0x000 [31:16], RO. -/
def fdComIdInstance : FieldDesc := { code := 0x0, off := 0x0, lsb := 16, width := 16, acc := .ro }
/-- R548: `VERSION.MINOR`, 0x004 [7:0], RO. -/
def fdComVersionMinor : FieldDesc := { code := 0x0, off := 0x4, lsb := 0, width := 8, acc := .ro }
/-- R548: `VERSION.MAJOR`, 0x004 [15:8], RO. -/
def fdComVersionMajor : FieldDesc := { code := 0x0, off := 0x4, lsb := 8, width := 8, acc := .ro, reset := 1 }
/-- R548: `VERSION.STEPPING`, 0x004 [23:16], RO. -/
def fdComVersionStepping : FieldDesc := { code := 0x0, off := 0x4, lsb := 16, width := 8, acc := .ro, reset := 0xB0 }
/-- R548: `CAPS.EN`, 0x008 [0:0], RO. -/
def fdComCapsEn : FieldDesc := { code := 0x0, off := 0x8, lsb := 0, width := 1, acc := .ro }
/-- R548: `CAPS.QUIESCE`, 0x008 [1:1], RO. -/
def fdComCapsQuiesce : FieldDesc := { code := 0x0, off := 0x8, lsb := 1, width := 1, acc := .ro }
/-- R548: `CAPS.RESET`, 0x008 [2:2], RO. -/
def fdComCapsReset : FieldDesc := { code := 0x0, off := 0x8, lsb := 2, width := 1, acc := .ro }
/-- R548: `CAPS.COMMIT`, 0x008 [3:3], RO. -/
def fdComCapsCommit : FieldDesc := { code := 0x0, off := 0x8, lsb := 3, width := 1, acc := .ro }
/-- R548: `CAPS.UNITS`, 0x008 [8:4], RO. -/
def fdComCapsUnits : FieldDesc := { code := 0x0, off := 0x8, lsb := 4, width := 5, acc := .ro }
/-- R548: `CTRL.ENABLE`, 0x010 [0:0], class X, RW. -/
def fdComCtrlEnable : FieldDesc := { code := 0x0, off := 0x10, lsb := 0, width := 1, cls := .locked, acc := .rw, reset := 1 }
/-- R548: `CTRL.QUIESCE`, 0x010 [1:1], class L, RW. -/
def fdComCtrlQuiesce : FieldDesc := { code := 0x0, off := 0x10, lsb := 1, width := 1, cls := .live, acc := .rw }
/-- R548: `CTRL.RESET`, 0x010 [2:2], class X, W1S. -/
def fdComCtrlReset : FieldDesc := { code := 0x0, off := 0x10, lsb := 2, width := 1, cls := .locked, acc := .w1s }
/-- R548: `STATUS.BUSY`, 0x014 [0:0], RO. -/
def fdComStatusBusy : FieldDesc := { code := 0x0, off := 0x14, lsb := 0, width := 1, acc := .ro }
/-- R548: `STATUS.IDLE`, 0x014 [1:1], RO. -/
def fdComStatusIdle : FieldDesc := { code := 0x0, off := 0x14, lsb := 1, width := 1, acc := .ro, reset := 1 }
/-- R548: `STATUS.SHADOW_PENDING`, 0x014 [2:2], RO. -/
def fdComStatusShadowPending : FieldDesc := { code := 0x0, off := 0x14, lsb := 2, width := 1, acc := .ro }
/-- R548: `STATUS.QUIESCED`, 0x014 [3:3], RO. -/
def fdComStatusQuiesced : FieldDesc := { code := 0x0, off := 0x14, lsb := 3, width := 1, acc := .ro }
/-- R548: `STATUS.ERROR`, 0x014 [4:4], RO. -/
def fdComStatusError : FieldDesc := { code := 0x0, off := 0x14, lsb := 4, width := 1, acc := .ro }
/-- R548: `STATUS.FROZEN`, 0x014 [5:5], RO. -/
def fdComStatusFrozen : FieldDesc := { code := 0x0, off := 0x14, lsb := 5, width := 1, acc := .ro }
/-- R548: `STATUS.ABSENT`, 0x014 [6:6], RO. -/
def fdComStatusAbsent : FieldDesc := { code := 0x0, off := 0x14, lsb := 6, width := 1, acc := .ro }
/-- R548: `STATUS.RESETTING`, 0x014 [7:7], RO. -/
def fdComStatusResetting : FieldDesc := { code := 0x0, off := 0x14, lsb := 7, width := 1, acc := .ro }
/-- R548: `COMMIT.GO`, 0x018 [0:0], class L, W1S. -/
def fdComCommitGo : FieldDesc := { code := 0x0, off := 0x18, lsb := 0, width := 1, cls := .live, acc := .w1s }
/-- R548: `FIELD_REJECT`, 0x01C [31:0], RC. -/
def fdComFieldReject : FieldDesc := { code := 0x0, off := 0x1C, lsb := 0, width := 32, acc := .rc }
/-- R559: `STATUS.READY`, 0x014 [16:16], RO. -/
def fdNodectlStatusReady : FieldDesc := { code := 0x24, off := 0x14, lsb := 16, width := 1, acc := .ro }
/-- R559: `STATUS.STAGE`, 0x014 [22:20], RO. -/
def fdNodectlStatusStage : FieldDesc := { code := 0x24, off := 0x14, lsb := 20, width := 3, acc := .ro }
/-- R559: `STATUS.BLOCKED`, 0x014 [28:24], RO. -/
def fdNodectlStatusBlocked : FieldDesc := { code := 0x24, off := 0x14, lsb := 24, width := 5, acc := .ro }
/-- R559: `IDENT.ORDER_CODE`, 0x100 [15:0], RO. -/
def fdNodectlIdentOrderCode : FieldDesc := { code := 0x24, off := 0x100, lsb := 0, width := 16, acc := .ro, reset := 0x1912 }
/-- R559: `IDENT.STEPPING`, 0x100 [23:16], RO. -/
def fdNodectlIdentStepping : FieldDesc := { code := 0x24, off := 0x100, lsb := 16, width := 8, acc := .ro, reset := 0xB0 }
/-- R559: `IDENT.SERIAL`, 0x108 [63:0], RO. -/
def fdNodectlIdentSerial : FieldDesc := { code := 0x24, off := 0x108, lsb := 0, width := 64, acc := .ro }
/-- R559: `POS.NODE`, 0x110 [16:0], RO. -/
def fdNodectlPosNode : FieldDesc := { code := 0x24, off := 0x110, lsb := 0, width := 17, acc := .ro }
/-- R559: `POS.STRAPS`, 0x110 [18:17], RO. -/
def fdNodectlPosStraps : FieldDesc := { code := 0x24, off := 0x110, lsb := 17, width := 2, acc := .ro }
/-- R559: `POS.I3C_OK`, 0x110 [19:19], RO. -/
def fdNodectlPosI3cOk : FieldDesc := { code := 0x24, off := 0x110, lsb := 19, width := 1, acc := .ro }
/-- R559: `RESET.CAUSE`, 0x118 [2:0], RO. -/
def fdNodectlResetCause : FieldDesc := { code := 0x24, off := 0x118, lsb := 0, width := 3, acc := .ro }
/-- R559: `RESET.COUNT`, 0x11C [31:0], RO. -/
def fdNodectlResetCount : FieldDesc := { code := 0x24, off := 0x11C, lsb := 0, width := 32, acc := .ro }
/-- R559: `READY_TIME`, 0x120 [63:0], RO. -/
def fdNodectlReadyTime : FieldDesc := { code := 0x24, off := 0x120, lsb := 0, width := 64, acc := .ro }
/-- R559: `HEALTH.SEQ`, 0x128 [31:0], RO. -/
def fdNodectlHealthSeq : FieldDesc := { code := 0x24, off := 0x128, lsb := 0, width := 32, acc := .ro }
/-- R559: `HEALTH.LAST`, 0x130 [63:0], RO. -/
def fdNodectlHealthLast : FieldDesc := { code := 0x24, off := 0x130, lsb := 0, width := 64, acc := .ro }
/-- R559: `ALERT.CAUSES`, 0x138 [3:0], RO. -/
def fdNodectlAlertCauses : FieldDesc := { code := 0x24, off := 0x138, lsb := 0, width := 4, acc := .ro }
/-- R559: `ALERT.MASK`, 0x138 [11:8], class L, RW. -/
def fdNodectlAlertMask : FieldDesc := { code := 0x24, off := 0x138, lsb := 8, width := 4, cls := .live, acc := .rw, reset := 1 }
/-- R560: `SPARE_STATE`, 0x100 [1:0], RO. -/
def fdErraggSpareState : FieldDesc := { code := 0x25, off := 0x100, lsb := 0, width := 2, acc := .ro }
/-- R560: `SPARE.FLASKS_USED`, 0x100 [16:8], RO. -/
def fdErraggSpareFlasksUsed : FieldDesc := { code := 0x25, off := 0x100, lsb := 8, width := 9, acc := .ro }
/-- R560: `SPARE.FLASKS_FENCED`, 0x100 [25:17], RO. -/
def fdErraggSpareFlasksFenced : FieldDesc := { code := 0x25, off := 0x100, lsb := 17, width := 9, acc := .ro }
/-- R560: `RING.SEL`, 0x108 [31:0], class L, RW. -/
def fdErraggRingSel : FieldDesc := { code := 0x25, off := 0x108, lsb := 0, width := 32, cls := .live, acc := .rw }
/-- R560: `RING.VALID`, 0x10C [0:0], RO. -/
def fdErraggRingValid : FieldDesc := { code := 0x25, off := 0x10C, lsb := 0, width := 1, acc := .ro }
/-- R560: `RING.NEWEST`, 0x110 [31:0], RO. -/
def fdErraggRingNewest : FieldDesc := { code := 0x25, off := 0x110, lsb := 0, width := 32, acc := .ro }
/-- R560: `HANDLER.PAGE`, 0x114 [19:0], RO. -/
def fdErraggHandlerPage : FieldDesc := { code := 0x25, off := 0x114, lsb := 0, width := 20, acc := .ro }
/-- R560: `HANDLER.ACTIVE`, 0x114 [20:20], RO. -/
def fdErraggHandlerActive : FieldDesc := { code := 0x25, off := 0x114, lsb := 20, width := 1, acc := .ro }
/-- R560: `HANDLER.CLASS`, 0x114 [22:21], RO. -/
def fdErraggHandlerClass : FieldDesc := { code := 0x25, off := 0x114, lsb := 21, width := 2, acc := .ro }
/-- R560: `QUEUED`, 0x118 [11:0], RO. -/
def fdErraggQueued : FieldDesc := { code := 0x25, off := 0x118, lsb := 0, width := 12, acc := .ro }
/-- R560: `THR.TILE_PREFAIL`, 0x120 [15:0], class L, RW. -/
def fdErraggThrTilePrefail : FieldDesc := { code := 0x25, off := 0x120, lsb := 0, width := 16, cls := .live, acc := .rw, reset := 64 }
/-- R560: `THR.TILE_REPAIR`, 0x120 [31:16], class L, RW. -/
def fdErraggThrTileRepair : FieldDesc := { code := 0x25, off := 0x120, lsb := 16, width := 16, cls := .live, acc := .rw, reset := 256 }
/-- R560: `THR.CORE_PREFAIL`, 0x124 [15:0], class L, RW. -/
def fdErraggThrCorePrefail : FieldDesc := { code := 0x25, off := 0x124, lsb := 0, width := 16, cls := .live, acc := .rw, reset := 64 }
/-- R560: `THR.CORE_REPAIR`, 0x124 [31:16], class L, RW. -/
def fdErraggThrCoreRepair : FieldDesc := { code := 0x25, off := 0x124, lsb := 16, width := 16, cls := .live, acc := .rw, reset := 256 }
/-- R560: `THR.LSA_PREFAIL`, 0x128 [15:0], class L, RW. -/
def fdErraggThrLsaPrefail : FieldDesc := { code := 0x25, off := 0x128, lsb := 0, width := 16, cls := .live, acc := .rw, reset := 64 }
/-- R560: `THR.LSA_REPAIR`, 0x128 [31:16], class L, RW. -/
def fdErraggThrLsaRepair : FieldDesc := { code := 0x25, off := 0x128, lsb := 16, width := 16, cls := .live, acc := .rw, reset := 256 }
/-- R560: `THR.ROW_REPAIR`, 0x12C [7:0], class L, RW. -/
def fdErraggThrRowRepair : FieldDesc := { code := 0x25, off := 0x12C, lsb := 0, width := 8, cls := .live, acc := .rw, reset := 4, valid := .range 1 255 }
/-- R560: `CNT.NF`, 0x130 [31:0], RO. -/
def fdErraggCntNf : FieldDesc := { code := 0x25, off := 0x130, lsb := 0, width := 32, acc := .ro }
/-- R560: `CNT.JOB_FATAL`, 0x134 [31:0], RC. -/
def fdErraggCntJobFatal : FieldDesc := { code := 0x25, off := 0x134, lsb := 0, width := 32, acc := .rc }
/-- R560: `LAST_NF`, 0x138 [63:0], RO. -/
def fdErraggLastNf : FieldDesc := { code := 0x25, off := 0x138, lsb := 0, width := 64, acc := .ro }
/-- R560: `RING.DATA`, 0x140 + 8i [63:0], RO. -/
def fdErraggRingData : FieldDesc := { code := 0x25, off := 0x140, stride := 8, count := 8, lsb := 0, width := 64, acc := .ro }
/-- R562: `SEL`, 0x100 [3:0], class L, RW. -/
def fdReproSel : FieldDesc := { code := 0x28, off := 0x100, lsb := 0, width := 4, cls := .live, acc := .rw }
/-- R562: `DESC`, 0x140 + 8i [63:0], RO. -/
def fdReproDesc : FieldDesc := { code := 0x28, off := 0x140, stride := 8, count := 8, lsb := 0, width := 64, acc := .ro }
/-- R562: `CTX[c].CLASS`, 0x200 + 32i [0:0], class X, RW. -/
def fdReproCtxClass : FieldDesc := { code := 0x28, off := 0x200, stride := 32, count := 16, lsb := 0, width := 1, cls := .locked, acc := .rw }
/-- R562: `CTX[c].CANON`, 0x200 + 32i [1:1], class X, RW. -/
def fdReproCtxCanon : FieldDesc := { code := 0x28, off := 0x200, stride := 32, count := 16, lsb := 1, width := 1, cls := .locked, acc := .rw }
/-- R562: `CTX[c].DTAB`, 0x208 + 32i [39:0], class X, RW. -/
def fdReproCtxDtab : FieldDesc := { code := 0x28, off := 0x208, stride := 32, count := 16, lsb := 0, width := 40, cls := .locked, acc := .rw, valid := .aligned 5 }
/-- R562: `CTX[c].DTAB_N`, 0x208 + 32i [48:40], class X, RW. -/
def fdReproCtxDtabN : FieldDesc := { code := 0x28, off := 0x208, stride := 32, count := 16, lsb := 40, width := 9, cls := .locked, acc := .rw, valid := .range 0 256 }
/-- R562: `CTX[c].DLOG`, 0x210 + 32i [39:0], class X, RW. -/
def fdReproCtxDlog : FieldDesc := { code := 0x28, off := 0x210, stride := 32, count := 16, lsb := 0, width := 40, cls := .locked, acc := .rw, valid := .aligned 5 }
/-- R562: `CTX[c].DLOG_LOG2`, 0x210 + 32i [44:40], class X, RW. -/
def fdReproCtxDlogLog2 : FieldDesc := { code := 0x28, off := 0x210, stride := 32, count := 16, lsb := 40, width := 5, cls := .locked, acc := .rw, reset := 6, valid := .range 6 16 }
/-- R562: `CTX[c].DLOG_HEAD`, 0x218 + 32i [63:0], RO. -/
def fdReproCtxDlogHead : FieldDesc := { code := 0x28, off := 0x218, stride := 32, count := 16, lsb := 0, width := 64, acc := .ro }

/-- The fields of the Flask tables. -/
def fieldsFlask : List FieldDesc :=
  [fdFlaskPstateState, fdFlaskPstateSleepAbort, fdFlaskPcmdCmd, fdFlaskGateIdleCycles, fdFlaskGateHoldMx,
   fdFlaskGateHoldSv, fdFlaskUnitStateMx, fdFlaskUnitStateSv, fdFlaskSpareInUse, fdFlaskSpareRemaps,
   fdFlaskSpareFenced, fdFlaskScrubPeriodS, fdFlaskImemSrc, fdFlaskImemCtrlTiles, fdFlaskImemCtrlLen,
   fdFlaskImemCtrlGo, fdFlaskWatchAllot, fdFlaskWatchOver, fdFlaskIdleMap, fdFlaskBarMembers,
   fdFlaskBarLevel, fdFlaskBarGen, fdFlaskWatchBase, fdFlaskWatchCfg, fdFlaskWatchArmed]

/-- The fields of the Pd tables. -/
def fieldsPd : List FieldDesc :=
  [fdPdVgateIdleCycles, fdPdVgateHold, fdPdVstate, fdPdSpareInUse, fdPdCoresFenced,
   fdPdLlcWays, fdPdGmapNode, fdPdGmapClass, fdPdGmapCtx, fdPdGmapValid]

/-- The fields of the Lsa tables. -/
def fieldsLsa : List FieldDesc :=
  [fdLsaEngInService, fdLsaEngSparesUsed, fdLsaSatflags, fdLsaGateIdleUs, fdLsaQRing,
   fdLsaQLog2len, fdLsaQPidx, fdLsaQCq, fdLsaQCtx, fdLsaQEn,
   fdLsaQEvent, fdLsaQOverrun, fdLsaQCidx]

/-- The fields of the Sched tables. -/
def fieldsSched : List FieldDesc :=
  [fdSchedTraceEnLo, fdSchedTraceEnHi, fdSchedLogSeq, fdSchedLogBase, fdSchedProtoMinor,
   fdSchedProtoMajor, fdSchedFeatures, fdSchedCtxHeat, fdSchedCtxState, fdSchedCtxSlot,
   fdSchedCtxHardRun, fdSchedCtxAttempt]

/-- The fields of the Memmap tables. -/
def fieldsMemmap : List FieldDesc :=
  [fdMemmapTop, fdMemmapMapouts, fdMemmapEvacRate, fdMemmapEvacBusy, fdMemmapEvacCh,
   fdMemmapWpIndex, fdMemmapWpBase, fdMemmapWpLen, fdMemmapWpCtx, fdMemmapWpValid,
   fdMemmapPolderBase, fdMemmapPolderSize, fdMemmapPolderJob, fdMemmapPolderFloorR, fdMemmapPolderFloorW,
   fdMemmapPolderRateR, fdMemmapPolderRateW, fdMemmapPolderBurstR, fdMemmapPolderBurstW, fdMemmapPolderBorrow,
   fdMemmapPolderScrubBusy]

/-- The fields of the Hbmc tables. -/
def fieldsHbmc : List FieldDesc :=
  [fdHbmcTempNow, fdHbmcTempMax, fdHbmcThermState, fdHbmcThermCap, fdHbmcChInService,
   fdHbmcCePrefail, fdHbmcCeEvac, fdHbmcScrubH, fdHbmcSrIdle, fdHbmcMergeUsed,
   fdHbmcMergeCombined, fdHbmcChCeHour, fdHbmcChDeTotal, fdHbmcChEvacPending]

/-- The fields of the Port tables. -/
def fieldsPort : List FieldDesc :=
  [fdPortState, fdPortDownCause, fdPortRole, fdPortPeerNode, fdPortPeerPort,
   fdPortLaneTxActive, fdPortLaneRxActive, fdPortLaneTxFailed, fdPortLaneRxFailed, fdPortSparesTx,
   fdPortSparesRx, fdPortCombSpare, fdPortDelay, fdPortSwapThresh, fdPortSwapCircuit,
   fdPortSwapGo, fdPortRetryReplays, fdPortRetryEscalations, fdPortLost]

/-- The fields of the Ecrok tables. -/
def fieldsEcrok : List FieldDesc :=
  [fdEcrokNodeId, fdEcrokNodeIdValid, fdEcrokTransitAllow, fdEcrokMgmtRate, fdEcrokCntStale,
   fdEcrokCntForeign, fdEcrokCntGap, fdEcrokCntDup, fdEcrokCntLate, fdEcrokCntTimeout,
   fdEcrokCntBusy, fdEcrokCntDead, fdEcrokCntMalformed, fdEcrokReplyUsed, fdEcrokWinIndex,
   fdEcrokWinData, fdEcrokTmoUs, fdEcrokTmoRetries, fdEcrokTmoHmax, fdEcrokMringBase,
   fdEcrokMringLog2, fdEcrokMringEn, fdEcrokMringCons, fdEcrokMringTail, fdEcrokVcw]

/-- The fields of the Ftime tables. -/
def fieldsFtime : List FieldDesc :=
  [fdFtimeNow, fdFtimeState, fdFtimeDepth, fdFtimeParent, fdFtimeErrorPs,
   fdFtimeRatePpb, fdFtimeHoldoverMs, fdFtimeLate, fdFtimeStart, fdFtimePpsEn,
   fdFtimePpsTime, fdFtimeRelTime, fdFtimeRelSlot, fdFtimeRelAction, fdFtimeRelArm,
   fdFtimeRelLate, fdFtimeRelFired, fdFtimeRelFlasks0, fdFtimeRelFlasks1, fdFtimeRelFlasks2,
   fdFtimeRelFlasks3]

/-- The fields of the Coll tables. -/
def fieldsColl : List FieldDesc :=
  [fdCollGrpIndex, fdCollGrpData, fdCollCntStale, fdCollCntDup, fdCollCntTimeout,
   fdCollActive, fdCollTmoMs, fdCollBargrp]

/-- The fields of the Eth tables. -/
def fieldsEth : List FieldDesc :=
  [fdEthLinkL0, fdEthLinkL1, fdEthMode, fdEthMac0, fdEthMac1,
   fdEthPfcEnable, fdEthCcPeriodUs, fdEthCcDec, fdEthCcQuiet, fdEthCcCnpUs,
   fdEthCcAiMbps, fdEthPtpOffset, fdEthPtpRatePpb, fdEthPtpEn, fdEthPtpSteer,
   fdEthCntCnpSent, fdEthCntCnpRecv, fdEthCntDropped, fdEthCntRnrSent, fdEthCntQpErr,
   fdEthQpUsed]

/-- The fields of the Ckpt tables. -/
def fieldsCkpt : List FieldDesc :=
  [fdCkptHoldUsed, fdCkptPromoInflight, fdCkptPromoCount, fdCkptPromoQueued, fdCkptCtxState,
   fdCkptCtxLast, fdCkptCtxHeat]

/-- The fields of the Err tables. -/
def fieldsErr : List FieldDesc :=
  [fdErrErrStatusSrc, fdErrErrStatusOverflow, fdErrErrStatusMaxclass, fdErrErrStatusQueued, fdErrErrEnable,
   fdErrErrSeverity, fdErrErrInjectSource, fdErrErrInjectGo, fdErrCeCount, fdErrUcCount,
   fdErrFirstSource, fdErrFirstClass, fdErrFirstSeq, fdErrFirstValid, fdErrNext]

/-- The fields of the Power tables. -/
def fieldsPower : List FieldDesc :=
  [fdPowerVin, fdPowerIin, fdPowerPin, fdPowerSupplyState, fdPowerSupplyDips,
   fdPowerSupplyBrownouts, fdPowerEnergy, fdPowerRampPct, fdPowerRampCapped, fdPowerRampCapMs,
   fdPowerBankFloorW, fdPowerBankEffectiveW, fdPowerBankFillJ, fdPowerBankFlaskW, fdPowerCapW,
   fdPowerIdleCmd, fdPowerIdleState, fdPowerDieTj, fdPowerDieTjmax, fdPowerDieState,
   fdPowerDieCap, fdPowerDieW, fdPowerCoolIn, fdPowerCoolOut, fdPowerLastgaspCause,
   fdPowerLastgaspTime]

/-- The fields of the Clk tables. -/
def fieldsClk : List FieldDesc :=
  [fdClkRefState, fdClkRefPpb, fdClkDomainsOn, fdClkFlaskFreq, fdClkFlaskActual,
   fdClkFlaskLocked, fdClkPdFreq, fdClkPdActual]

/-- The fields of the Dike tables. -/
def fieldsDike : List FieldDesc :=
  [fdDikeGroupVer, fdDikeDigest, fdDikeStateClaimed, fdDikeStateRecovery, fdDikeStateIdentity,
   fdDikeStateBank, fdDikeStateTrial, fdDikeFwSvn, fdDikeFwSvnMin, fdDikeRootRevoked,
   fdDikeCfgGen, fdDikeShadowUsed, fdDikeNonceUsed, fdDikeCntAccepted, fdDikeCntRefused,
   fdDikeLastRefusal, fdDikeCntOrphan, fdDikeVendorPen]

/-- The fields of the Evr tables. -/
def fieldsEvr : List FieldDesc :=
  [fdEvrEvrIndex, fdEvrEvrMask, fdEvrEvrFreeze, fdEvrEvrFreezeOnUc, fdEvrEvrUnit,
   fdEvrEvrHead, fdEvrEvrLost, fdEvrEvrEntry]

/-- The fields of the Obs tables. -/
def fieldsObs : List FieldDesc :=
  [fdObsNtraceEn, fdObsTracePct, fdObsNtraceHead, fdObsNtraceLost, fdObsSnapTime,
   fdObsSnapDies, fdObsSnapArm, fdObsSnapHeld, fdObsSnapRelease, fdObsSnapTrunc,
   fdObsSnapTaken, fdObsBrkBase, fdObsBrkLog2, fdObsBrkEn, fdObsCtrBase,
   fdObsCtrLog2, fdObsCtrMode, fdObsCtrDst, fdObsCtrHead, fdObsCtrLost]

/-- The fields of the Com tables. -/
def fieldsCom : List FieldDesc :=
  [fdComIdType, fdComIdInstance, fdComVersionMinor, fdComVersionMajor, fdComVersionStepping,
   fdComCapsEn, fdComCapsQuiesce, fdComCapsReset, fdComCapsCommit, fdComCapsUnits,
   fdComCtrlEnable, fdComCtrlQuiesce, fdComCtrlReset, fdComStatusBusy, fdComStatusIdle,
   fdComStatusShadowPending, fdComStatusQuiesced, fdComStatusError, fdComStatusFrozen, fdComStatusAbsent,
   fdComStatusResetting, fdComCommitGo, fdComFieldReject]

/-- The fields of the Nodectl tables. -/
def fieldsNodectl : List FieldDesc :=
  [fdNodectlStatusReady, fdNodectlStatusStage, fdNodectlStatusBlocked, fdNodectlIdentOrderCode, fdNodectlIdentStepping,
   fdNodectlIdentSerial, fdNodectlPosNode, fdNodectlPosStraps, fdNodectlPosI3cOk, fdNodectlResetCause,
   fdNodectlResetCount, fdNodectlReadyTime, fdNodectlHealthSeq, fdNodectlHealthLast, fdNodectlAlertCauses,
   fdNodectlAlertMask]

/-- The fields of the Erragg tables. -/
def fieldsErragg : List FieldDesc :=
  [fdErraggSpareState, fdErraggSpareFlasksUsed, fdErraggSpareFlasksFenced, fdErraggRingSel, fdErraggRingValid,
   fdErraggRingNewest, fdErraggHandlerPage, fdErraggHandlerActive, fdErraggHandlerClass, fdErraggQueued,
   fdErraggThrTilePrefail, fdErraggThrTileRepair, fdErraggThrCorePrefail, fdErraggThrCoreRepair, fdErraggThrLsaPrefail,
   fdErraggThrLsaRepair, fdErraggThrRowRepair, fdErraggCntNf, fdErraggCntJobFatal, fdErraggLastNf,
   fdErraggRingData]

/-- The fields of the Repro tables. -/
def fieldsRepro : List FieldDesc :=
  [fdReproSel, fdReproDesc, fdReproCtxClass, fdReproCtxCanon, fdReproCtxDtab,
   fdReproCtxDtabN, fdReproCtxDlog, fdReproCtxDlogLog2, fdReproCtxDlogHead]

end Sys2Proof.Machine
end

