-- ==== Sys2Proof/Machine/Pages.lean ====
section
/-! DEFINITION. The block directory (R554–R556): which block a page index names, its error sources, its event ring units, the
controls its CAPS offers, and the page indices by name. -/
namespace Sys2Proof.Machine

/-- One row of the block directory (R554). -/
structure BlockRow where
  first : Nat
  count : Nat
  code : Nat
  /-- The dagger of R554: no context owns the block's state. -/
  dagger : Bool
  sources : List Nat
  deriving DecidableEq, Repr

/-- R554, page indices below 0x140. -/
def directoryLow : List BlockRow :=
  [⟨0x0, 256, 0x1, false, [0, 1, 2, 7, 9, 13]⟩,  -- FLASK
   ⟨0x100, 4, 0x2, false, [0, 1]⟩,  -- MESH
   ⟨0x104, 4, 0x3, false, [0, 1]⟩,  -- TDBRIDGE
   ⟨0x108, 12, 0x4, true, [0, 1, 2, 3, 4, 5, 11, 13]⟩,  -- HBMC
   ⟨0x114, 12, 0x5, false, [0]⟩,  -- HBMPHY
   ⟨0x120, 12, 0x6, true, [0, 1, 2]⟩,  -- HOME
   ⟨0x12C, 1, 0x7, true, [0, 1, 2]⟩,  -- MEMMAP
   ⟨0x130, 1, 0x8, false, [7, 9, 13]⟩,  -- PD
   ⟨0x131, 4, 0x9, false, [0, 1, 2]⟩,  -- PDQUAD
   ⟨0x135, 2, 0xA, false, [0, 1]⟩,  -- LLC
   ⟨0x137, 1, 0xB, false, [0, 1]⟩,  -- PDMESH
   ⟨0x138, 1, 0xC, false, [0, 1]⟩,  -- PDBRIDGE
   ⟨0x139, 1, 0xD, false, [0, 1, 2, 8, 10, 13]⟩,  -- LSA
   ⟨0x13A, 1, 0xE, true, [0, 1, 2, 8, 12]⟩,  -- SCHED
   ⟨0x13B, 4, 0xF, true, [0, 1, 2, 12]⟩,  -- SCORE
   ⟨0x140, 1, 0x10, true, [0, 1, 2, 12]⟩,  -- REEVE
   ⟨0x141, 1, 0x11, true, [0, 1, 2]⟩,  -- DIKE
   ⟨0x142, 1, 0x12, true, [12]⟩,  -- NOR
   ⟨0x143, 1, 0x13, false, [0]⟩,  -- I3C
   ⟨0x144, 1, 0x14, false, [0]⟩,  -- UART
   ⟨0x145, 1, 0x15, true, [0, 1, 2]⟩,  -- AON
   ⟨0x150, 2, 0x16, false, [0, 1]⟩]  -- FDROUTE

/-- R554, page indices from 0x140 (and the scheduler pages just below them). -/
def directoryHigh : List BlockRow :=
  [⟨0x152, 2, 0x17, false, [0, 1]⟩,  -- FDBRIDGE
   ⟨0x154, 1, 0x18, true, [0, 1, 2]⟩,  -- ECROK
   ⟨0x155, 2, 0x19, true, [0, 1, 2]⟩,  -- REPLY
   ⟨0x157, 2, 0x1A, true, [0, 1, 2]⟩,  -- ROUTE
   ⟨0x159, 1, 0x1B, true, [0, 1, 2]⟩,  -- COLL
   ⟨0x15A, 2, 0x1C, false, [0, 1]⟩,  -- QALU
   ⟨0x15C, 1, 0x1D, true, [0, 1, 2]⟩,  -- FTIME
   ⟨0x15D, 1, 0x1E, false, [0]⟩,  -- TIMEBUS
   ⟨0x160, 18, 0x1F, false, [6]⟩,  -- PORT
   ⟨0x172, 18, 0x20, false, [6, 13]⟩,  -- OPTENG
   ⟨0x184, 2, 0x21, false, [0, 1, 6]⟩,  -- ETH
   ⟨0x186, 2, 0x22, false, [6]⟩,  -- ETHOPT
   ⟨0x188, 2, 0x23, false, [0, 1, 2]⟩,  -- ROCE
   ⟨0x190, 1, 0x24, false, []⟩,  -- NODECTL
   ⟨0x191, 1, 0x25, true, [0, 1, 2]⟩,  -- ERRAGG
   ⟨0x192, 1, 0x26, false, [11]⟩,  -- POWER
   ⟨0x193, 1, 0x27, false, []⟩,  -- CLK
   ⟨0x194, 1, 0x28, false, [0, 1]⟩,  -- REPRO
   ⟨0x195, 1, 0x29, false, [0, 1]⟩,  -- OBS
   ⟨0x196, 1, 0x2A, false, [0, 1, 2, 8]⟩,  -- CKPT
   ⟨0x198, 7, 0x2B, false, [0]⟩,  -- SNAP
   ⟨0x1A0, 7, 0x2C, false, []⟩,  -- VREG
   ⟨0x1A7, 1, 0x2D, false, []⟩]  -- GAN

/-- The block directory (R554). -/
def directory : List BlockRow := directoryLow ++ directoryHigh

/-- The directory row of a page index; none where the directory lists no block (R547). -/
def blockRow (page : Nat) : Option BlockRow := directory.find? fun r => r.first ≤ page && page < r.first + r.count

/-- The block type code of a page (`ID.TYPE`); 0 where the directory lists no block (R547). -/
def blockCode (page : Nat) : Nat := (blockRow page).elim 0 (·.code)

/-- Instance within the type (`ID.INSTANCE`). -/
def blockInstance (page : Nat) : Nat := (blockRow page).elim 0 (page - ·.first)

/-- The error sources that a page's directory row lists (R556). -/
def blockSources (page : Nat) : List Nat := (blockRow page).elim [] (·.sources)

/-- Minimum class of source `s` (R556); NF at least in sources 1 and 2 of dagger blocks (R554). -/
def minClass (page s : Nat) : Nat :=
  let base := match s with
    | 1 => 1 | 2 => 2 | 4 => 1 | 7 => 2 | 8 => 2 | 9 => 2 | 11 => 3 | 12 => 3 | _ => 0
  if ((blockRow page).elim false (·.dagger)) && (s = 1 || s = 2) then 3 else base

/-- The reset value of `ERR_SEVERITY`: each listed source at its minimum class (R556). -/
def severityReset (page : Nat) : Nat :=
  (blockSources page).foldl (fun a s => a + minClass page s * 2 ^ (2 * s)) 0

/-- The mask of listed sources. -/
def sourceMask (page : Nat) : Nat := (blockSources page).foldl (fun a s => a + 2 ^ s) 0

/-- Highest event ring unit of a block (R555; `CAPS.UNITS`). -/
def highestUnit (code : Nat) : Nat :=
  if code = 0x01 then 20 else if code = 0x09 then 16 else if code = 0x1F || code = 0x21 then 2 else 0

/-- `CAPS.EN`: ENABLE is offered on FLASK only (R554). -/
def offersEnable (code : Nat) : Bool := code = 0x01
/-- `CAPS.QUIESCE`: offered on FLASK and LSA only (R554). -/
def offersQuiesce (code : Nat) : Bool := code = 0x01 || code = 0x0D
/-- `CAPS.RESET`: offered on every block except REEVE, DIKE, FTIME and NODECTL (R554, R511). -/
def offersReset (code : Nat) : Bool := code ≠ 0 && code ≠ 0x10 && code ≠ 0x11 && code ≠ 0x1D && code ≠ 0x24
/-- `CAPS.COMMIT`: FLASK, PD and LSA only (R554). -/
def offersCommit (code : Nat) : Bool := code = 0x01 || code = 0x08 || code = 0x0D

/-- `CAPS` (R548). -/
def capsWord (code : Nat) : Nat :=
  (offersEnable code).toNat + 2 * (offersQuiesce code).toNat + 4 * (offersReset code).toNat +
    8 * (offersCommit code).toNat + 16 * highestUnit code

/-- The block-specific fields of a block type. -/
def blockFields (code : Nat) : List FieldDesc :=
  match code with
  | 0x01 => fieldsFlask
  | 0x04 => fieldsHbmc
  | 0x07 => fieldsMemmap
  | 0x08 => fieldsPd
  | 0x0D => fieldsLsa
  | 0x0E => fieldsSched
  | 0x11 => fieldsDike
  | 0x18 => fieldsEcrok
  | 0x1B => fieldsColl
  | 0x1D => fieldsFtime
  | 0x1F => fieldsPort
  | 0x21 => fieldsEth
  | 0x24 => fieldsNodectl
  | 0x25 => fieldsErragg
  | 0x26 => fieldsPower
  | 0x27 => fieldsClk
  | 0x28 => fieldsRepro
  | 0x29 => fieldsObs
  | 0x2A => fieldsCkpt
  | _ => []

/-- R537: the eight always-on counters at 0x040–0x07F. -/
def fdComCounter : FieldDesc :=
  { code := 0, off := 0x040, stride := 8, count := 8, lsb := 0, width := 64, acc := .ro }

/-- Every field of a page: the common part (R548, R439, R533) and the block's own map. -/
def pageFields (code : Nat) : List FieldDesc :=
  if code = 0 then [] else fieldsCom ++ [fdComCounter] ++ fieldsErr ++ fieldsEvr ++ blockFields code

/-- FLASK page of flask f (R46). -/
def pgFlask (f : Nat) : Nat := f
/-- HBMC page of site i. -/
def pgHbmc (i : Nat) : Nat := 0x108 + i
/-- MEMMAP page. -/
def pgMemmap : Nat := 0x12C
/-- PD page. -/
def pgPd : Nat := 0x130
/-- PDQUAD page of quadrant q. -/
def pgPdQuad (q : Nat) : Nat := 0x131 + q
/-- LSA page. -/
def pgLsa : Nat := 0x139
/-- SCHED page. -/
def pgSched : Nat := 0x13A
/-- SCORE page of scheduler core k. -/
def pgScore (k : Nat) : Nat := 0x13B + k
/-- REEVE page. -/
def pgReeve : Nat := 0x140
/-- DIKE page. -/
def pgDike : Nat := 0x141
/-- AON page, the always-on island. -/
def pgAon : Nat := 0x145
/-- ECROK page. -/
def pgEcrok : Nat := 0x154
/-- COLL page. -/
def pgColl : Nat := 0x159
/-- FTIME page. -/
def pgFtime : Nat := 0x15C
/-- PORT page of port p. -/
def pgPort (p : Nat) : Nat := 0x160 + p
/-- OPTENG page of the optical engine of port p. -/
def pgOpteng (p : Nat) : Nat := 0x172 + p
/-- ETH page of port e. -/
def pgEth (e : Nat) : Nat := 0x184 + e
/-- NODECTL page. -/
def pgNodectl : Nat := 0x190
/-- ERRAGG page. -/
def pgErragg : Nat := 0x191
/-- POWER page. -/
def pgPower : Nat := 0x192
/-- CLK page. -/
def pgClk : Nat := 0x193
/-- REPRO page. -/
def pgRepro : Nat := 0x194
/-- OBS page. -/
def pgObs : Nat := 0x195
/-- CKPT page. -/
def pgCkpt : Nat := 0x196
/-- SNAP page of die d, order TD0–TD3, PD, FD0, FD1. -/
def pgSnap (d : Nat) : Nat := 0x198 + d

end Sys2Proof.Machine
end

