-- ==== Sys2Proof/Machine/State.lean ====
section
/-! DEFINITION. The state of the node: every register, memory, queue, mode and pin the spec gives it, as plain data, and the
queue of waiting commands. -/
namespace Sys2Proof.Machine

/-- Why a step stops. Closed. -/
inductive Fault where
  /-- Raised by VIN_SAMPLE and INPUT_OVERVOLTAGE when a reading lies beyond the absolute limits of R575, beyond which the spec
  promises no outcome. Safe: the model stops where the hardware may do anything. -/
  | ratingsExceeded
  deriving DecidableEq, Repr

/-- Why a command has no meaning here. Closed. -/
inductive Refusal where
  /-- Raised by an arm of `exec` whose command has no meaning yet. Safe: no state follows. -/
  | notModelled (mnemonic : String)
  deriving DecidableEq, Repr

/-- An exception taken by a core (R591, R150, R436): cause code and `mtval`. -/
structure Trap where
  cause : Nat
  tval : Nat
  deriving DecidableEq, Repr

/-- What a core is blocked in. -/
inductive Blocked where
  | none
  /-- A `sy.wait` that holds a wait entry (R152). -/
  | wait (id n rd : Nat) (deadline : Option Nat)
  /-- A `sy.wait` held at its issuer because all 64 entries are in use (R152). -/
  | waitHeld (id n rd : Nat) (deadline : Option Nat)
  /-- A `sy.bwait` (R157). -/
  | bwait (slot gen since : Nat)
  /-- An access held at a mesh port, a controller or the fabric. -/
  | access
  deriving DecidableEq, Repr

/-- What resides in a tile's IMEM (R38): none when the tile is marked as holding no image. -/
structure ImemImage where
  src : Nat
  len : Nat
  deriving DecidableEq, Repr

/-- An operation that a core carries out, kept where it has to wait (R52, R57, R59, R96, R97, R135, R151). -/
inductive CoreOp where
  | load (addr size : Nat) (signed : Bool) (rd : Nat)
  | store (addr size v : Nat)
  | amo (addr : Nat) (op : AmoOp) (wide : Bool) (v rd : Nat)
  | lr (addr : Nat) (wide : Bool) (rd : Nat)
  | sc (addr : Nat) (wide : Bool) (v rd : Nat)
  /-- An Xzmx instruction: funct3 of its row, word, and the values of rs1 and rs2. -/
  | mx (f3 w x1 x2 : Nat)
  /-- An Xzsv instruction: row code, word, value of rs1. -/
  | sv (code w x1 : Nat)
  /-- An Xzsy instruction: row code, word, values of rs1 and rs2. -/
  | sync (code w x1 x2 : Nat)
  | mxStatus (stat : Bool) (rd : Nat)
  | svStatus (stat : Bool) (fq rd : Nat)
  | fence
  /-- A write of CSR `n` (R100, R144, R171, R407). -/
  | csr (n v : Nat)
  /-- A PD vector instruction: word, `vl`, and the element and cause of a synchronous exception (R179). -/
  | vector (w vl : Nat) (faultAt : Option Nat) (cause : Nat)
  /-- ECALL of a kernel, with a0 (R231). -/
  | exit (a0 : Nat)
  deriving DecidableEq, Repr

/-- A pilot core, PD application core or scheduler core, beside its CSRs and integer registers. -/
structure CoreState where
  /-- User mode (R33). -/
  user : Bool := false
  /-- The context the core is bound to. -/
  ctx : Option Nat := none
  /-- The graph node the bound kernel runs (R231). -/
  node : Nat := 0
  /-- A kernel runs (between bind and exit). -/
  running : Bool := false
  image : Option ImemImage := none
  /-- The exception taken last and not yet handled. -/
  trap : Option Trap := none
  /-- The interrupt taken last (R153, R179). -/
  interrupt : Option Nat := none
  blocked : Blocked := .none
  /-- The reservation of LR. -/
  reservation : Option Nat := none
  /-- Stopped at an instruction boundary by a remap or a core repair (R51, R189). -/
  paused : Bool := false
  /-- `vstart` after a vector trap (R179). -/
  vstart : Nat := 0
  /-- The gated vector unit of a PD core is waking (R181). -/
  vwaking : Bool := false
  /-- Interrupts held during a core repair (R189). -/
  heldInterrupts : List Nat := []
  /-- Held at its kernel's first instruction until a release (R358, R359). -/
  heldStart : Bool := false
  /-- Operations that wait to be carried out, oldest first. -/
  stalled : List CoreOp := []
  deriving DecidableEq, Repr

/-- A sync counter (R145). -/
structure Counter where
  value : Nat := 0
  cap : Nat := 0
  deriving DecidableEq, Repr

/-- One of a tile's 64 wait entries (R152). -/
structure WaitEntry where
  core : Nat
  id : Nat
  n : Nat
  rd : Nat
  deadline : Option Nat
  /-- Tick at which the entry was taken. -/
  since : Nat := 0
  deriving DecidableEq, Repr

/-- An access held at a flask's mesh port or at a moving tile (R52, R57), to be served later. -/
inductive Held where
  /-- An operation of core `c` (core index). -/
  | core (c : Nat) (op : CoreOp)
  /-- A watch post of range `w` of flask `f` to a counter (R167). -/
  | watchPost (f w id : Nat) (level : Bool)
  /-- A post of n by firmware or an engine. -/
  | post (id n : Nat)
  | fabric (d : FabricDie) (pk : Packet)
  deriving DecidableEq, Repr

/-- One accumulator bank of a matrix array (R91, R105): kind tag, cumulative K, FP32 accumulators by cell, int56 accumulators by
cell × 5 + weight, and poisoned cells. -/
structure Bank where
  /-- 0 EMPTY, 1 FLOAT, 2 INT, 3 W2, 4 W3, 5 W3X, 6 W4. -/
  tag : Nat := 0
  k : Nat := 0
  acc : SMap Nat := []
  ints : SMap Int := []
  poison : SMap Bool := []
  deriving DecidableEq, Repr

/-- A queued Xzmx instruction (R96) with the CSRs 0x840–0x84B that it captured at issue. -/
structure MxReq where
  w : Nat
  x1 : Nat
  x2 : Nat
  csrs : List Nat
  /-- Place in the tile's issue order, FCU requests included (R135). -/
  seq : Nat
  running : Bool := false
  /-- Tick at which it came. -/
  since : Nat := 0
  deriving DecidableEq, Repr

/-- A captured stream descriptor (R118). -/
structure Desc where
  base : Nat := 0
  stride : Int := 0
  count : Nat := 0
  ety : Nat := 1
  deriving DecidableEq, Repr

/-- A queued FCU request (R134): what it captured at issue. -/
structure FcuReq where
  /-- 0 sv.fcvt, 1 sv.mxpack, 2 sv.mxunpack, 3 sv.xprebase. -/
  op : Nat
  w : Nat
  vl : Nat
  sat : Bool
  d : Desc
  s1 : Desc
  s2 : Desc
  s3 : Desc
  mask : Desc
  seq : Nat
  /-- Tick at which it came. -/
  since : Nat := 0
  deriving DecidableEq, Repr

/-- The unit state of a tile beside its CSRs. -/
structure Tile where
  bank0 : Bank := {}
  bank1 : Bank := {}
  mxq : List MxReq := []
  fcuq : List FcuReq := []
  nextSeq : Nat := 0
  deriving DecidableEq, Repr

/-- Where the result of an HBM request goes. -/
inductive Reply where
  | none
  /-- A write of firmware or of an engine, whose completion nothing sees. -/
  | quiet
  /-- Register `rd` of core `c` (core index), from `size` bytes. -/
  | reg (c rd size : Nat) (signed : Bool) (addr : Nat)
  /-- A store of core `c`. -/
  | stored (c addr : Nat)
  /-- The answer to a fabric request held in the packet. -/
  | fabric (d : FabricDie) (pk : Packet)
  deriving DecidableEq, Repr

/-- A request to the memory system (R264). -/
structure HbmReq where
  /-- 0 read, 1 write, 2 atomic. -/
  kind : Nat
  src : Source
  off : Nat
  len : Nat := 0
  data : List Byte := []
  poisoned : Bool := false
  op : Nat := 0
  ty : Nat := 0
  mask : Nat := 0
  fetch : Bool := false
  reply : Reply := .none
  /-- Tick at which it came. -/
  since : Nat := 0
  deriving DecidableEq, Repr

/-- An open line merger entry (R272): a 128 B line with a byte mask, and stores or atomics of one operation and type. -/
structure MergeEntry where
  line : Nat
  /-- none: stores; some (op, type): non-fetching atomics. -/
  atomic : Option (Nat × Nat) := none
  /-- Byte mask of a store entry; lane mask of an atomic entry. -/
  mask : Nat := 0
  /-- The line's 128 bytes under the mask: store bytes or operands. -/
  data : List Byte := []
  poisoned : Bool := false
  /-- Flags of the combinations made (R273). -/
  flags : Nat := 0
  /-- The arrivals that complete when the entry drains: offset, length and reply. -/
  arrivals : List (Nat × Nat × Reply) := []
  /-- Tick at which it came. -/
  since : Nat := 0
  deriving DecidableEq, Repr

/-- A write-protect entry (R265). -/
structure WpEntry where
  base : Nat := 0
  len : Nat := 0
  ctx : Nat := 0
  valid : Bool := false
  deriving DecidableEq, Repr

/-- A sluice bucket at one controller (R266): quarter bytes short of full, and the tick of the last fill. -/
structure Bucket where
  spent : Nat := 0
  since : Nat := 0
  deriving DecidableEq, Repr

/-- The memory system beside its registers and contents. -/
structure HbmState where
  /-- Line merger entries of all controllers, oldest first (R272). -/
  merge : List MergeEntry := []
  /-- Tokens taken from each bucket, keyed site × 32 + polder × 2 + (1 for write). -/
  buckets : SMap Bucket := []
  /-- Bytes served in the current 10 µs window, keyed granule × 32 + polder × 2 + (1 for write) (R268). -/
  served : SMap Nat := []
  /-- Always-on counts of the stack controllers (R537), keyed granule × 8 + slot: bytes read, bytes written, atomic line
  operations. -/
  traffic : SMap Nat := []
  /-- Polder served last at a controller, for round-robin (R268). -/
  lastServed : SMap Nat := []
  /-- Requests that wait for their bucket, in order of arrival (R267). -/
  waiting : List HbmReq := []
  /-- 0 running, 1 self-refresh, 2 leaving self-refresh (R256). -/
  selfRefresh : Nat := 0
  /-- Requests held while the stacks leave self-refresh. -/
  srHeld : List HbmReq := []
  /-- Tick of the last request that reached a controller. -/
  lastRequest : Nat := 0
  /-- Write-protect table (R265). -/
  wp : SMap WpEntry := []
  /-- Requested evacuations in order: site × 32 + channel (R277). -/
  evacQueue : List Nat := []
  /-- Tick of the latest DE of a channel, plus 1, keyed site × 32 + channel (R261). -/
  lastDe : SMap Nat := []
  /-- Tick at which a stack entered HARD, plus 1 (R276). -/
  hardSince : SMap Nat := []
  /-- A channel that raised PREFAIL and has not since spent an hour below its threshold (R451). -/
  prefailed : SMap Bool := []
  /-- Channels that failed training and are mapped out, as the configuration store records them (R506). -/
  mappedOut : List Nat := []
  deriving DecidableEq, Repr

/-- An event ring entry (R531). -/
structure EvEntry where
  time : Nat := 0
  code : Nat := 0
  subject : Nat := 0
  value : Nat := 0
  deriving DecidableEq, Repr

/-- An event ring (R531): entries written, and the entry at each ring index. -/
structure EvRing where
  written : Nat := 0
  entries : SMap EvEntry := []
  deriving DecidableEq, Repr

/-- A trace record (R542). -/
structure TraceRec where
  time : Nat
  page : Nat
  unit : Nat
  code : Nat
  subject : Nat
  value : Nat
  node : Nat
  ptp : Nat
  deriving DecidableEq, Repr

/-- A firmware log record (R244). -/
structure LogRec where
  time : Nat := 0
  point : Nat := 0
  ctx : Nat := 0xFF
  seq : Nat := 0
  arg0 : Nat := 0
  arg1 : Nat := 0
  deriving DecidableEq, Repr

/-- A record of the node error ring (R443). -/
structure ErrRecord where
  time : Nat := 0
  seq : Nat := 0
  cls : Nat := 0
  injected : Bool := false
  preempted : Bool := false
  escalated : Bool := false
  page : Nat := 0
  source : Nat := 0
  code : Nat := 0
  ctx : Nat := 0xFF
  outcome : Nat := 0
  job : Nat := 0
  gen : Nat := 0
  addr : Nat := 0
  heat : Nat := 0
  count : Nat := 1
  lost : Nat := 0
  service : Nat := 0xFFFF
  detail : Nat := 0
  deriving DecidableEq, Repr

/-- Error handling state (R445–R448). -/
structure ErrState where
  /-- The node error ring, keyed by SEQ (R442). -/
  ring : SMap ErrRecord := []
  /-- Queued errors of all blocks, in order of arrival (R445). -/
  queued : List ErrRecord := []
  /-- The handler that the reeve runs. -/
  running : Option ErrRecord := none
  /-- Handlers stopped by a preemption, latest first (R447). -/
  stopped : List ErrRecord := []
  /-- Errors lost to overflow since the block's previous record, by page (R446). -/
  lost : SMap Nat := []
  /-- Last CE record of a source and its second of fabric time, keyed page × 16 + source: SEQ (R444). -/
  lastCe : SMap Nat := []
  /-- Corrected errors of the current hour per physical unit, keyed page × 128 + unit (R450). -/
  ceHour : SMap Nat := []
  /-- Units that raised PREFAIL and have not since spent a full hour below it (R451). -/
  prefailed : SMap Bool := []
  /-- Causes of PREFAIL for the next health summary, oldest first: code × 2^16 + unit in the SERVICE format. -/
  prefailCauses : List Nat := []
  /-- Repairs in order of request: (page, unit) (R454). -/
  repairs : List (Nat × Nat) := []
  /-- Mask of PD cores that are fenced once their context ends (R190). -/
  fenceDue : Nat := 0
  /-- A repair that pauses execution runs. -/
  repairing : Bool := false
  /-- Tick of the previous NF, plus 1 (R457). -/
  lastNf : Nat := 0
  /-- Another NF lay within the 24 h before the latest one. -/
  nfRepeated : Bool := false
  /-- The node left service (R456). -/
  out : Bool := false
  /-- A node reset follows the running NF handler (R457). -/
  resetDue : Bool := false
  deriving DecidableEq, Repr

/-- A graph node record (R223). -/
structure GNode where
  kind : Nat := 0
  flags : Nat := 0
  slot0 : Nat := 0
  nslot : Nat := 0
  tmask : Nat := 0
  p0 : Nat := 0
  p1 : Nat := 0
  arg : Nat := 0
  pstart : Nat := 0
  pdur : Nat := 0
  accFirst : Nat := 0
  accCount : Nat := 0
  deriving DecidableEq, Repr

/-- A role (R225). -/
structure GRole where
  kind : Nat := 0
  base0 : Nat := 0
  base1 : Nat := 0
  length : Nat := 0
  deriving DecidableEq, Repr

/-- An exchange entry (R226). -/
structure GExch where
  src : Nat := 0
  dst : Nat := 0
  srcType : Nat := 0
  dstType : Nat := 0
  flags : Nat := 0
  offset : Nat := 0
  count : Nat := 0
  node : Nat := 0
  deriving DecidableEq, Repr

/-- A loaded graph, as firmware copied it (R221, R222). -/
structure Graph where
  group : Nat := 0xFFFF
  flags : Nat := 0
  period : Nat := 0
  soft : Nat := 0
  hard : Nat := 0
  lead : Nat := 0
  sleepGap : Nat := 0
  maxHard : Nat := 0
  nodes : List GNode := []
  edges : List (Nat × Nat) := []
  roles : List GRole := []
  access : List (Nat × Nat) := []
  exch : List (Nat × List GExch) := []
  roletab : Nat := 0
  nstat : Nat := 0
  steprec : Nat := 0
  /-- SM3 digest of the graph's copied bytes (R397). -/
  digest : Nat := 0
  deriving DecidableEq, Repr

/-- The step in progress of a context. -/
structure StepRun where
  active : Bool := false
  release : Nat := 0
  soft : Nat := 0
  hard : Nat := 0
  heat : Nat := 0
  attempt : Nat := 0
  /-- NSTAT of each node (R239). -/
  nstat : List Nat := []
  /-- Actual start of each node, ticks after release. -/
  starts : List Nat := []
  dropped : Nat := 0
  firstBad : Nat := 0xFFFF
  softPassed : Bool := false
  voted : Bool := false
  voteWord : Nat := 0
  failed : Bool := false
  /-- Nodes whose kernel or unit faulted and whose end firmware has not yet recorded. -/
  faulted : List Nat := []
  /-- Tiles of the running TILE and EXCHANGE nodes that have not exited: (node, tile). -/
  tilesLeft : List (Nat × Nat) := []
  /-- Nodes that firmware has seen become ready. -/
  readied : List Nat := []
  /-- LINKAGE nodes and the index of the batch that each submitted. -/
  batches : List (Nat × Nat) := []
  /-- Flasks that were not AWAKE when a node wanted them: node, flask and fabric time (R27). -/
  late : List (Nat × Nat × Nat) := []
  deriving DecidableEq, Repr

/-- A context (R215). -/
structure Ctx where
  isOpen : Bool := false
  job : Nat := 0
  gen : Nat := 0
  polders : Nat := 0
  /-- Allotted flasks, ascending. -/
  flasks : List Nat := []
  /-- Application core mask. -/
  cores : Nat := 0
  priority : Nat := 0
  /-- Counter IDs that firmware lists for the context's PD cores (R147). -/
  counters : List Nat := []
  /-- Graph slots 0–3. -/
  graphs : List (Option Graph) := [none, none, none, none]
  run : StepRun := {}
  /-- An ALLOT that takes effect at the first release after the running step (R216): flasks, cores, ways. -/
  pendingAllot : Option (List Nat × Nat × Nat) := none
  /-- Queue and tag of the STEP_START whose status is asked for every N commits, and N (R238). -/
  report : Option (Nat × Nat × Nat) := none
  commits : Nat := 0
  /-- Absolute time of the next release; 0: none. -/
  nextRelease : Nat := 0
  /-- Nodes bound ahead of the next release, their cores held (R359). -/
  prebound : List Nat := []
  /-- Starts of each node over the last committed steps, newest first (R234). -/
  history : List (List Nat) := []
  /-- Feature set of the session whose STEP_START runs the context. -/
  features : Nat := 0
  /-- A UC holds the context: it releases no step and commits no heat (R435). -/
  uncorrected : Bool := false
  /-- STEPREC, NSTAT and ROLETAB stay readable after a stop. -/
  lastStatus : Nat := 0
  deriving DecidableEq, Repr

/-- A session on a command queue (R246). -/
structure Session where
  minor : Nat := 0
  features : Nat := 0
  deriving DecidableEq, Repr

/-- A capsule in a receive ring (R378, R381). -/
structure RingCap where
  bytes : List Byte := []
  /-- It stands for a broken chain: only its status CHAIN_BROKEN is to be sent. -/
  broken : Bool := false
  /-- Tick at which it came. -/
  since : Nat := 0
  deriving DecidableEq, Repr

/-- A command queue (R218). -/
structure Queue where
  session : Option Session := none
  /-- The context bound to the queue; none for queues 0–3 and unbound queues. -/
  ctx : Option Nat := none
  /-- GID of the host that the binding names (R377). -/
  gid : Nat := 0
  /-- Capsules in the receive ring that firmware has not executed (R378), oldest first. -/
  ring : List RingCap := []
  /-- SENDs received on the queue; the next one goes to slot `received` mod 64. -/
  received : Nat := 0
  /-- Tag of a capsule in execution whose status is still to come: TOKEN, RESTORE. -/
  busy : Option Nat := none
  deriving DecidableEq, Repr

/-- Where a job and generation stand on the node (R584): 0 empty, 1 shadow, 2 committed, 3 retiring, 4 RETIRED, 5 retained,
awaiting scrub. -/
structure Pair where
  job : Nat := 0
  gen : Nat := 0
  state : Nat := 0
  /-- Tick of retirement. -/
  retiredAt : Nat := 0
  /-- Mask of polders retained (R427). -/
  retained : Nat := 0
  /-- Flasks whose tile stores the job reset scrubs (R512). -/
  flasks : List Nat := []
  /-- The TENANT warden slot, FLOKAN_CONTROL and the member count of the PARTITION entry (R490, R495, R519). -/
  warden : Nat := 0
  flokan : Bool := false
  nmemb : Nat := 0
  deriving DecidableEq, Repr

/-- A status capsule (R382). -/
structure StatusCap where
  /-- Opcode of the command, or an unsolicited code from 0x8001. -/
  op : Nat
  tag : Nat := 0
  ctx : Nat := 0xFF
  code : Nat := 0
  detail : Nat := 0
  time : Nat := 0
  body : List Byte := []
  deriving DecidableEq, Repr

/-- What leaves the node, in order. -/
inductive Output where
  /-- A MGMT message to a node (R515). -/
  | mgmt (dst : Nat) (payload : List Byte)
  /-- A status capsule on a queue (R382). -/
  | status (q : Nat) (x : StatusCap)
  /-- A RoCEv2 request of the node on a queue pair: 0 RDMA WRITE to a remote address, 1 RDMA READ, 2 the retransmission of a SEND that
  carries status capsules (R372, R374, R379, R424, R430). -/
  | rdma (qp op va rkey : Nat) (data : List Byte)
  /-- A RoCEv2 answer of the node on a queue pair: 0 ACK, 1 NAK invalid request, 2 NAK remote access error, 3 RNR NAK, 4 CNP, 5 NAK
  sequence error, 6 NAK remote operational error; data of a READ response (R371–R378). -/
  | roce (qp kind : Nat) (data : List Byte)
  /-- An answer of connection management on QP1: 0 REP, 1 REJ, 2 DREP (R371, R377). -/
  | cm (kind remote qp : Nat)
  /-- A PFC frame: XOFF or XON of a priority of a logical port (R369). -/
  | pfc (e lp prio : Nat) (xoff : Bool)
  /-- An answer to a neighbour query, with the logical port's MAC address (R368). -/
  | neighbour (e lp addr mac : Nat)
  /-- An ICMP echo reply (R367). -/
  | echo (e lp addr : Nat) (data : List Byte)
  /-- The node's candidate record of a restore goes to the exchange (R428). -/
  | candidate (c : Nat) (record : List Byte)
  /-- A memory request of a source without a core completes: data and poison tag. -/
  | memData (src : Source) (data : List Byte) (poisoned : Bool)
  /-- A write or atomic of a source without a core completes, with flags. -/
  | memDone (src : Source) (flags : Nat)
  /-- A memory request of a source without a core completes with an error: a status of R310. -/
  | memError (src : Source) (status : Nat)
  /-- An Ecrok packet that a fabric die sends (R307). -/
  | packet (pk : Packet)
  /-- A flit leaves a port (R291). -/
  | flit (p : Nat) (bytes : List Byte)
  /-- A SWAP CONTROL flit that names circuits of a direction (R300). -/
  | swap (p : Nat) (dir : Direction) (circuits : Nat)
  /-- The node's side of the identity exchange: node field, port number and role (R295). -/
  | identity (p node port role : Nat)
  /-- A TIME packet: transmit time, sub-tick phase and DEPTH (R354). -/
  | time (p ttx sub depth : Nat)
  /-- A data line of Flokan, as the values it carries: R525 and R530 give no text of a line. -/
  | line (values : List Nat)
  /-- The final line of a Flokan command: 0 OK, 1 SYNTAX, 2 UNKNOWN, 3 RANGE, 4 TIER, 5 ACCESS, 6 STATE, 7 BUSY, 8 OVERRUN, 9 ABORTED,
  10 REJECTED, 0x60–0x68 a refusal of R497; and the detail (R525). -/
  | final (name detail : Nat)
  /-- `+` for a data line (R526). -/
  | plus
  /-- An I3C in-band interrupt (R581). -/
  | ibi (byte : Nat)
  /-- An I3C read returns bytes (R581). -/
  | i3cData (bytes : List Byte)
  /-- An access to a page returns a value to its agent (R13). -/
  | readValue (a : Agent) (v : Nat)
  /-- An access fault at the source of a page access (R545). -/
  | pageFault (a : Agent)
  deriving DecidableEq, Repr

/-- An IMEM load in progress (R38). -/
structure ImemLoad where
  tiles : Nat
  src : Nat
  len : Nat
  deriving DecidableEq, Repr

/-- A flask beside its page (R46). -/
structure FlaskState where
  /-- Accesses held until the flask is AWAKE or the moving tile's state is copied, in order of arrival (R52, R57). -/
  held : List Held := []
  /-- Tick at which the first of them came. -/
  heldSince : Nat := 0
  /-- The logical tile whose state is being copied to the spare (R51). -/
  moving : Option Nat := none
  imem : Option ImemLoad := none
  /-- Tiles whose gated units are waking: bit t the matrix array, bit 16 + t the SVU (R59). -/
  waking : Nat := 0
  /-- Tick at which the remap in progress started. -/
  since : Nat := 0
  deriving DecidableEq, Repr

/-- A PD scheduler watch range (R169). -/
structure PdWatch where
  base : Nat := 0
  len : Nat := 0
  deriving DecidableEq, Repr

/-- What a fabric request of the node is for. -/
inductive Origin where
  | none
  /-- A core load: core, register, size, sign, address. -/
  | load (c rd size : Nat) (signed : Bool) (addr : Nat)
  /-- A core store. -/
  | store (c addr : Nat)
  /-- A core AMO of `wide` size at byte `lane` of its line. -/
  | amo (c rd : Nat) (wide : Bool) (lane addr : Nat)
  /-- A checkpoint piece of context c (R420). -/
  | ckpt (c : Nat)
  /-- Bytes of a piece at an offset, fetched by a restore (R430). -/
  | restore (c piece off : Nat)
  /-- A trace drain write (R540). -/
  | trace (c : Nat)
  /-- A remote write of an EXCHANGE node (R226). -/
  | exchange (c n : Nat)
  /-- A replica update, one copy per holder (R335). -/
  | rupdate (c : Nat)
  deriving DecidableEq, Repr

/-- An outstanding request's tag slot (R324). -/
structure TagSlot where
  active : Bool := false
  gen : Nat := 0
  /-- The request as last sent. -/
  pk : Packet := { kind := 0, dst := 0, src := 0 }
  ctx : Nat := 0
  origin : Origin := .none
  /-- Reissues spent. -/
  tries : Nat := 0
  /-- Wait before a BUSY request is resent, in µs; 0: not waiting (R322). -/
  busy : Nat := 0
  /-- Tick at which it came. -/
  since : Nat := 0
  deriving DecidableEq, Repr

/-- A response kept for duplicates (R321). -/
structure ReplyEntry where
  die : Nat
  src : Nat
  vc : Nat
  job : Nat
  seq : Nat
  status : Nat
  data : List Byte
  /-- Tick at which it came. -/
  since : Nat := 0
  deriving DecidableEq, Repr

/-- A request that waits for its flow's LOW, a tag slot or a route (R319). -/
structure Stalled where
  ctx : Nat
  origin : Origin
  pk : Packet
  deriving DecidableEq, Repr

/-- Ecrok beside its page. -/
structure EcrokState where
  /-- Next SEQ of a sent flow, keyed destination × 8 + channel (R319). -/
  outNext : SMap Nat := []
  /-- LOW last announced on a sent flow. -/
  outLow : SMap Nat := []
  /-- Job and generation of the latest request of a sent flow, JOB + GEN × 2²⁰. -/
  outJob : SMap Nat := []
  /-- E of a received flow, keyed (source × 8 + channel) (R320). -/
  inNext : SMap Nat := []
  /-- LOW last seen on a received flow. -/
  inLow : SMap Nat := []
  /-- Job tag of a received flow, under which a teardown frees it (R512), plus 1. -/
  inJob : SMap Nat := []
  replies : List ReplyEntry := []
  /-- Tag slots, keyed die × 65,536 + slot (R324). -/
  tags : SMap TagSlot := []
  stalled : List Stalled := []
  /-- Window table: 32 B of entry i as a number (R315). -/
  windows : SMap Nat := []
  /-- Route table: the 24 steps to a node field, plus 1 (R317). -/
  routes : SMap Nat := []
  /-- Stores and atomics of a core that completed with TARGET_DEAD or a refusal and fault at its next release (R310, R328). -/
  lateFaults : SMap Nat := []
  /-- Packets in loopback inside the issuing fabric die (R306). -/
  loop : List Packet := []
  deriving DecidableEq, Repr

/-- A home agent's directory entry of a line (R329): which other nodes of the tray hold it. -/
structure DirLine where
  /-- The node (by W) that holds the line exclusively. -/
  owner : Option Nat := none
  /-- Nodes (by W) that hold a shared copy. -/
  sharers : Nat := 0
  /-- Job and generation of the latest requester (R331). -/
  job : Nat := 0
  gen : Nat := 0
  deriving DecidableEq, Repr

/-- A coherence transaction of a line at its home agent (R332). -/
structure CohTx where
  line : Nat
  /-- 0 GET_S, 1 GET_M, 2 UPGRADE; 3 a write or atomic of the memory system, 4 a read of it. -/
  kind : Nat
  /-- The requesting node's request, for kinds 0–2. -/
  pk : Option Packet := none
  /-- The request that waits, for kinds 3 and 4. -/
  req : Option HbmReq := none
  /-- Nodes (by W) whose answer is awaited. -/
  waiting : Nat := 0
  /-- Tag that the home agent chose for INV, RECALL or DOWNGRADE. -/
  tag : Nat := 0
  deriving DecidableEq, Repr

/-- A line of a tray neighbour in this node's PD caches (R185, R329): 1 shared, 2 exclusive clean, 3 dirty. -/
structure CacheLine where
  state : Nat := 0
  data : List Byte := []
  poisoned : Bool := false
  /-- The context whose cores fetched it. -/
  ctx : Nat := 0
  deriving DecidableEq, Repr

/-- A coherence request of this node in flight, keyed by tag slot (R332). -/
structure CohReq where
  active : Bool := false
  pk : Packet := { kind := 0, dst := 0, src := 0 }
  ctx : Nat := 0
  origin : Origin := .none
  /-- Wait before the next resend, in µs; 0: not waiting (R332). -/
  wait : Nat := 0
  deriving DecidableEq, Repr

/-- Coherence within the tray. -/
structure CohState where
  /-- Directory, keyed by line (offset / 128). -/
  dir : SMap DirLine := []
  active : List CohTx := []
  queue : List CohTx := []
  /-- Lines of tray neighbours, keyed W × 2^33 + line. -/
  cache : SMap CacheLine := []
  reqs : SMap CohReq := []
  /-- Messages handled, newest first, with the answer sent: source, tag slot, OP, answer (R332). -/
  handled : List (Nat × Nat × Nat × Option Packet) := []
  nextTag : Nat := 0
  /-- Nodes of the tray (by W) that let a message time out (R330). -/
  lost : Nat := 0
  deriving DecidableEq, Repr

/-- A checkpoint set descriptor (R410). -/
structure CkptDesc where
  version : Nat := 0
  k : Nat := 0
  m : Nat := 0
  drain : Bool := false
  sm4 : Bool := false
  d4 : Bool := false
  group : Nat := 0
  pstore : Nat := 0
  pslen : Nat := 0
  clog : Nat := 0
  qpn : Nat := 0
  rkey : Nat := 0
  rbase : Nat := 0
  rstride : Nat := 0
  keyslot : Nat := 0
  rate : Nat := 0
  /-- Base, length in 64 KiB units and tag of each range. -/
  ranges : List (Nat × Nat × Nat) := []
  /-- A reserved field is not 0. -/
  reserved : Bool := false
  deriving DecidableEq, Repr

/-- A RESTORE in progress (R428–R430). -/
structure Restore where
  /-- Queue and tag of its capsule. -/
  q : Nat := 0
  tag : Nat := 0
  /-- SOURCE STORAGE. -/
  storage : Bool := false
  /-- QPN, RKEY, RBASE and RSTRIDE of each region. -/
  regions : List (Nat × Nat × Nat × Nat) := []
  /-- The heat that the members chose, plus 1, and its slot or region. -/
  heat : Nat := 0
  slot : Nat := 0
  /-- Ranks whose pieces of this node's image are verified, and the pieces fetched: piece, offset and bytes. -/
  pieces : List Nat := []
  fetched : List (Nat × Nat × List Byte) := []
  manifest : List Byte := []
  deriving DecidableEq, Repr

/-- The checkpoints of a context (R410–R430). -/
structure CkptRun where
  /-- Stage one runs. -/
  active : Bool := false
  desc : CkptDesc := {}
  heat : Nat := 0
  /-- Fabric time of the mark. -/
  marked : Nat := 0
  /-- Unreached granules of the sweep map: granule index, start and length (R416). -/
  unreached : List (Nat × Nat × Nat) := []
  /-- Granules read and not yet sent. -/
  data : List (Nat × List Byte) := []
  /-- Data pieces sent. -/
  sentPieces : List Nat := []
  /-- Granules that lie in hold slots (R417). -/
  holds : List Nat := []
  promotions : Nat := 0
  sent : Nat := 0
  /-- Image offsets of poisoned lines (R423). -/
  poison : List Nat := []
  /-- Shards, parity and manifests have all been handed to the fabric. -/
  handed : Bool := false
  /-- Fabric writes of pieces and records not yet completed (R420). -/
  outstanding : Nat := 0
  /-- A piece write failed (R420). -/
  failed : Bool := false
  /-- A request that waits for its heat: descriptor offset and heat (R413). -/
  request : Option (Nat × Nat) := none
  /-- Peer store slots that a drain holds (R424). -/
  draining : List Nat := []
  /-- Bytes that the drain sends. -/
  drainBytes : Nat := 0
  restore : Option Restore := none
  deriving DecidableEq, Repr

/-- An SM4 key slot (R425, R489). -/
structure KeySlot where
  full : Bool := false
  job : Nat := 0
  key : Nat := 0
  salt : Nat := 0
  /-- Shards encrypted under this load. -/
  count : Nat := 0
  deriving DecidableEq, Repr

/-- A memory region of RDMA (R373). -/
structure Region where
  valid : Bool := false
  gen : Nat := 0
  ctx : Nat := 0
  base : Nat := 0
  len : Nat := 0
  /-- Bit 0 remote read, bit 1 remote write. -/
  perm : Nat := 0
  deriving DecidableEq, Repr

/-- A queue pair (R371–R377); index i has QPN 2 + i. -/
structure QueuePair where
  /-- 0 unused, 1 command, 2 data. -/
  kind : Nat := 0
  /-- 0 closed, 1 REP sent and RTU awaited, 2 connected, 3 error. -/
  state : Nat := 0
  /-- Command queue, or context of a data queue pair. -/
  owner : Nat := 0
  eth : Nat := 0
  lp : Nat := 0
  remote : Nat := 0
  gid : Nat := 0
  psnSend : Nat := 0
  psnRecv : Nat := 0
  mtu : Nat := 0
  pcp : Nat := 0
  /-- Immediate ring: offset, log2 of its entries, and entries written. -/
  immRing : Nat := 0
  immLog : Nat := 0
  immCount : Nat := 0
  /-- Requests of the node that the responder has not acknowledged, oldest first: op, address, key and data. -/
  sends : List (Nat × Nat × Nat × List Byte) := []
  /-- Retries and RNR retries spent (R374). -/
  tries : Nat := 0
  rnr : Nat := 0
  /-- An RNR NAK arrived and its timer runs. -/
  rnrWait : Bool := false
  /-- Rate and target in Mbit/s, periods since the last CNP (R376). -/
  rate : Nat := 0
  target : Nat := 0
  quiet : Nat := 0
  /-- Fabric time of the last decrease and of the last CNP sent, plus 1; 0: none. -/
  lastDec : Nat := 0
  lastCnp : Nat := 0
  deriving DecidableEq, Repr

/-- A logical Ethernet port's priority (R369). -/
structure PauseState where
  /-- The peer paused it until this fabric time, plus 1; 0: it sends. -/
  paused : Nat := 0
  /-- The node sent XOFF and not yet XON. -/
  xoff : Bool := false
  /-- What waits for the pause to end. -/
  held : List Output := []
  deriving DecidableEq, Repr

/-- A collective descriptor as the node reads it (R347). -/
structure CollDesc where
  op : Nat := 0
  red : Nat := 0
  ty : Nat := 0
  quick : Bool := false
  canon : Bool := false
  group : Nat := 0
  slot : Nat := 0
  seglog : Nat := 0
  root : Nat := 0
  margin : Nat := 0
  src : Nat := 0
  dst : Nat := 0
  count : Nat := 0
  aux : Nat := 0
  dstcap : Nat := 0
  xexp : Nat := 0
  /-- Where the descriptor lies. -/
  pos : Nat := 0
  /-- A reserved field is not 0. -/
  reserved : Bool := false
  deriving DecidableEq, Repr

/-- A chunk received from a child or the parent (R350). -/
structure CollChunk where
  /-- 0–5 a child, 6 the parent. -/
  from' : Nat
  tree : Nat
  chunk : Nat
  data : List Byte
  poison : Nat := 0
  flags : Nat := 0
  mark : Bool := false
  deriving DecidableEq, Repr

/-- A collective that runs on this member (R348–R352). -/
structure CollRun where
  ctx : Nat
  /-- 0 a graph node's, 1 a barrier slot's, 2 the step vote. -/
  kind : Nat
  /-- The graph node, or the barrier slot. -/
  node : Nat
  group : Nat
  inst : Nat
  desc : CollDesc := {}
  /-- The value contributed by a vote or a timed barrier. -/
  word : Nat := 0
  started : Nat := 0
  /-- 0 exponents or counts, 1 data. -/
  phase : Nat := 1
  /-- Chunks received from children and not yet combined. -/
  ups : List CollChunk := []
  /-- Chunks combined or received, as (direction, tree, chunk, from). -/
  seen : List (Nat × Nat × Nat × Nat) := []
  /-- Elements of the phase's result, by index: value and poison. -/
  res : SMap (Nat × Bool) := []
  /-- Chunks of the result sent down, as (tree, chunk). -/
  down : List (Nat × Nat) := []
  /-- Segment exponents (R346) or counts (R345) of the first phase. -/
  first : List Nat := []
  flags : Nat := 0
  poisoned : Bool := false
  /-- A timed barrier whose comparator is armed. -/
  armed : Bool := false
  deriving DecidableEq, Repr

/-- The collective engine beside its page. -/
structure CollState where
  /-- Group table: the 128 B of entry i as a number (R339). -/
  groups : SMap Nat := []
  runs : List CollRun := []
  /-- Packets held until this member starts their collective (R350). -/
  held : List Packet := []
  /-- Collectives of graph nodes that ended and whose node has not: context, node and code. -/
  ended : List (Nat × Nat × Nat) := []
  /-- Timed barriers that wait for their comparator: context and node (R360). -/
  waiting : List (Nat × Nat) := []
  deriving DecidableEq, Repr

/-- The REPRO descriptor of a context beside ARITH_VER (R396). -/
structure ReproDesc where
  cls : Nat := 0
  canon : Nat := 0
  static : Nat := 0
  nodes : Nat := 1
  graph : Nat := 0
  groups : Nat := 0
  gphys : Nat := 0
  deriving DecidableEq, Repr

/-- A linkage batch that the array took (R198). -/
structure LsaBatch where
  q : Nat
  k : Nat
  op : Nat := 0
  warm : Bool := false
  post : Bool := false
  count : Nat := 0
  counter : Nat := 0
  maxIter : Nat := 0
  tol : Nat := 0
  tag : Nat := 0
  soft : Nat := 0
  hard : Nat := 0
  model : Nat := 0
  prob : Nat := 0
  range : Nat := 0
  refused : Bool := false
  /-- Next problem to start. -/
  next : Nat := 0
  /-- Codes of the problems that ended. -/
  codes : SMap Nat := []
  satmask : Nat := 0
  /-- Shadow warm records: offset and bytes (R209). -/
  shadow : List (Nat × List Byte) := []
  deriving DecidableEq, Repr

/-- A problem on an engine (R197), with what the engine read. -/
structure LsaRun where
  q : Nat := 0
  k : Nat := 0
  i : Nat := 0
  op : Nat := 0
  /-- Model, input, contact and range bytes. -/
  operands : List (List Byte) := []
  /-- Starting impulses of the contact solve. -/
  start : List Nat := []
  dof : Nat := 0
  nc : Nat := 0
  outAt : Nat := 0
  outLen : Nat := 0
  statAt : Nat := 0
  warmAt : Nat := 0
  notes : Nat := 0
  poisoned : Bool := false
  iter : Nat := 0
  /-- Smallest residual seen, plus 1, and its iteration. -/
  best : Nat := 0
  bestIter : Nat := 0
  /-- The code with which the problem is to end, plus 1. -/
  code : Nat := 0
  deriving DecidableEq, Repr

/-- The linkage array beside its page. -/
structure LsaState where
  /-- Batches taken and not completed, in the order taken. -/
  batches : List LsaBatch := []
  /-- Problems on engines. -/
  engines : SMap (Option LsaRun) := []
  /-- Consumer index of a queue (R204). -/
  cidx : SMap Nat := []
  /-- Queues whose PIDX granule was written and not yet looked at. -/
  poked : List Nat := []
  /-- The array's clock is stopped (R207). -/
  gated : Bool := false
  waking : Bool := false
  /-- Batches completed whose graph node has not ended: queue, batch index and code. -/
  ended : List (Nat × Nat × Nat) := []
  /-- Queue whose problem was handed out last. -/
  lastQueue : Nat := 0
  deriving DecidableEq, Repr

/-- A DATA flit of a port: sequence number, channel, offset of the first packet start, payload, and the port whose flow it carries
(R291, R292, R298). -/
structure LinkFlit where
  seq : Nat := 0
  vc : Nat := 0
  start : Nat := 0xFF
  payload : List Byte := []
  home : Nat := 0
  deriving DecidableEq, Repr

/-- Bytes of a packet that wait for a port: channel, home port of the flow (R289), what is left, and whether its start has left. -/
structure LinkPacket where
  vc : Nat := 0
  home : Nat := 0
  left : List Byte := []
  begun : Bool := false
  /-- Tick at which it came. -/
  since : Nat := 0
  deriving DecidableEq, Repr

/-- A port beside its page (R282–R303). -/
structure PortLink where
  /-- Circuit of each logical lane (R283); the map within the manufactured set is in order (DEDUCED, log entry 13). -/
  laneTx : List Nat := [0, 1, 2, 3, 4, 5, 6, 7, 9, 10, 11, 12, 13, 14, 15, 16]
  laneRx : List Nat := [0, 1, 2, 3, 4, 5, 6, 7, 9, 10, 11, 12, 13, 14, 15, 16]
  /-- Receive lock to FEC lock are done; the identity exchange is done; a delay has been published; no newer one is being measured. -/
  trained : Bool := false
  identified : Bool := false
  published : Bool := false
  fresh : Bool := false
  /-- Swaps in progress and the circuits that they name. -/
  swapTx : Bool := false
  swapRx : Bool := false
  maskTx : Nat := 0
  maskRx : Nat := 0
  /-- The comb source that the spare replaces while it warms (R302). -/
  combFailed : Nat := 0
  /-- SEQ of the next new DATA flit. -/
  txNext : Nat := 0
  /-- The retry buffer, oldest first (R298), and how many of its flits have been sent since the last replay began. -/
  unacked : List LinkFlit := []
  cursor : Nat := 0
  /-- Highest SEQ received in order, and whether a NAK is due. -/
  rxLast : Nat := 1023
  nak : Bool := false
  /-- Flits taken over from the partner port, ahead of any new flit (R289). -/
  carry : List LinkFlit := []
  queue : List LinkPacket := []
  /-- Flits sent on a channel and not yet credited back, and flits received whose credit is to be returned. -/
  spent : SMap Nat := []
  owed : SMap Nat := []
  /-- Flits granted to each channel in the running round, and which of the last 255 flits were QUICK, bit 0 the latest (R311, R312). -/
  granted : SMap Nat := []
  quick : Nat := 0
  /-- Bytes received of the packet in progress on each channel. -/
  rx : SMap (List Byte) := []
  /-- Symbols corrected on each receive circuit in the running 1 ms (R293, R300). -/
  corrected : SMap Nat := []
  /-- The port's flows are on its partner (R289). -/
  moved : Bool := false
  deriving DecidableEq, Repr

/-- The fabric time unit beside its page (R354–R356). -/
structure FtimeState where
  /-- Consecutive TIME packets with an error below 1 ns in ACQUIRE. -/
  good : Nat := 0
  /-- TIME_AHEAD of the health summary. -/
  ahead : Bool := false
  /-- Fabric time at which HOLDOVER was entered. -/
  holdSince : Nat := 0
  /-- Fabric time of the last accepted PPS edge, plus 1. -/
  lastPps : Nat := 0
  deriving DecidableEq, Repr

/-- The configuration store as far as commands change it (R501): the role map of the pairs and the Ethernet modes, which take effect
at the next node reset (R288, R365). -/
structure Store where
  /-- Role of each port pair that differs from the default of R287, plus 1. -/
  roles : SMap Nat := []
  /-- Bit e: mode of Ethernet port e. -/
  ethMode : Nat := 0
  /-- Preferred firmware bank, and TRIAL (R482, R483). -/
  preferred : Nat := 0
  trial : Bool := false
  /-- Images that FWLOAD wrote, by bank; an unlisted bank holds its factory image (R483). -/
  banks : SMap (List Byte) := []
  deriving DecidableEq, Repr

/-- Power, beside its page (R460–R473). -/
structure PowerState where
  /-- The 2 ms exit from DEEP runs (R471). -/
  exiting : Bool := false
  /-- MGMT messages that came in DEEP, oldest first: source and payload. -/
  heldMgmt : List (Nat × List Byte) := []
  /-- The clock cap of R466, in 1/80. -/
  ceil : Nat := 80
  /-- The last-gasp record of the stop that runs. -/
  gasp : List Byte := []
  /-- VIN samples in 10 mV, newest first, at most 128 (R460, R464). -/
  samples : List Nat := []
  /-- 1 ms averages of the input power, newest first, at most 10 (R465). -/
  powers : List Nat := []
  /-- Cause of the orderly stop that runs (R464); 0: none. -/
  stopping : Nat := 0
  /-- The isolation switch is open (R460). -/
  isolated : Bool := false
  /-- The node runs in BROWNOUT (R461). -/
  brownout : Bool := false
  /-- VIN and VBANK as last sampled, in 10 mV. -/
  vbank : Nat := 4800
  /-- Highest P₁ within 2 ms after each of a context's last 8 releases, newest first, and when the newest of them began, plus 1 (R469). -/
  draws : SMap (List Nat) := []
  drawSince : SMap Nat := []
  /-- Pre-banking targets: watts, and from when to when they stand (R469). -/
  targets : List (Nat × Nat × Nat) := []
  /-- Tick at which a die entered HARD, plus 1 (R473). -/
  hardSince : SMap Nat := []
  /-- PWR_GOOD (R508). -/
  good : Bool := false
  /-- Off, and the last-gasp records in the NOR area, newest first (R463, R464). -/
  off : Bool := false
  lastGasp : List (List Byte) := []
  deriving DecidableEq, Repr

/-! ### The dike set (R484–R503, R514–R521) -/

/-- A warden slot (R490, R495): role 0 empty, 1 SITE, 2 SECURITY, 3 TENANT, 4 VENDOR; the key x then y; its enrolment number. -/
structure Warden where
  role : Nat := 0
  key : List Byte := []
  enrolment : Nat := 0
  deriving DecidableEq, Repr

/-- Who handed a token to the reeve: a capsule with its queue, tag and context, a LAUNCH message, or Flokan. -/
inductive TokenFrom where
  | capsule (q tag ctx : Nat)
  | launch
  | flokan
  deriving DecidableEq, Repr

/-- An entry of a token or of a staged blob (R495): the kind of its record, its index, and its content as a number. -/
structure DikeEntry where
  kind : Nat
  index : Nat
  content : Nat
  deriving DecidableEq, Repr

/-- A shadow slot (R499): `apply` is the commit time plus 1, 0 while uncommitted. -/
structure Shadow where
  used : Bool := false
  digest : Nat := 0
  groups : Nat := 0
  entries : List DikeEntry := []
  /-- Jobs of the token, and whether it enrols the first wardens (R492). -/
  jobs : List Nat := []
  claims : Bool := false
  installed : Nat := 0
  ttl : Nat := 0
  apply : Nat := 0
  deriving DecidableEq, Repr

/-- A staged object whose every byte has arrived (R496, R515), with the root that its path leads to from this node's leaf. -/
structure Staged where
  root : Nat
  blob : List Byte
  deriving DecidableEq, Repr

/-- A staged object or LAUNCH token that arrives in parts: source, kind of arrival, whole length, and parts by offset. -/
structure Assembly where
  src : Nat
  kind : Nat
  len : Nat
  parts : List (Nat × List Byte)
  deriving DecidableEq, Repr

/-- A launch or broadcast teardown on this member, by its token's digest (R517–R519). -/
structure Launch where
  digest : Nat := 0
  job : Nat := 0
  gen : Nat := 0
  /-- The token is a SHADOW one. -/
  shadow : Bool := false
  /-- The launch entry: whether the node holds it, the launch root, and for trees 0 and 1 whether this node is the root, its parent and
  its children. -/
  known : Bool := false
  root : Nat := 0
  isRoot : List Bool := [false, false]
  parents : List Nat := [0, 0]
  children : List (List Nat) := [[], []]
  /-- Trees on which the token was forwarded. -/
  forwarded : List Nat := []
  /-- 0 unchecked, 1 installed, 2 refused with `status`. -/
  outcome : Nat := 0
  status : Nat := 0
  installed : Nat := 0
  ttl : Nat := 0
  nmemb : Nat := 0
  /-- COUNT of each child: tree, child, refusal flag, first refusal status, count. -/
  counts : List (Nat × Nat × Bool × Nat × Nat) := []
  /-- Trees on which this member sent its COUNT, and on which it passed on COMMIT or ABORT. -/
  counted : List Nat := []
  passed : List Nat := []
  /-- The root has broadcast COMMIT or ABORT. -/
  decided : Bool := false
  deriving DecidableEq, Repr

/-- What the reeve keeps of the dike set beside the DIKE page, the pairs, the polders and the tables of Ecrok and the collectives. -/
structure DikeState where
  wardens : SMap Warden := []
  enrolled : Nat := 0
  /-- CONTROL_UNBOUND and TENANT_ENABLE of the MONITOR group (R490). -/
  controlUnbound : Bool := false
  tenantEnable : Bool := false
  /-- Job of each window and group entry, plus 1. -/
  winJob : SMap Nat := []
  grpJob : SMap Nat := []
  /-- Tokens that wait for the reeve, oldest first (R497). -/
  tokens : List (TokenFrom × List Byte) := []
  /-- The nonce store: nonce and its NOT_AFTER (R498). -/
  nonces : List (Nat × Nat) := []
  shadows : SMap Shadow := []
  staged : List Staged := []
  parts : List Assembly := []
  launches : List Launch := []
  /-- Fabric time of READY after the cold reset, plus 1 (R497). -/
  readyAt : Nat := 0
  deriving DecidableEq, Repr

/-! ### SPDM, start, the monitor and the sideband -/

/-- An SPDM responder's side on one command queue (R389, R487). -/
structure SpdmState where
  /-- 0 nothing negotiated, 1 GET_VERSION answered, 2 GET_CAPABILITIES answered, 3 algorithms negotiated. -/
  stage : Nat := 0
  /-- 0 no session, 1 KEY_EXCHANGE answered, 2 the secured session is open. -/
  session : Nat := 0
  /-- The requester's certificate key, where it authenticated itself (R489). -/
  requester : Option (List Byte) := none
  /-- Messages of the transcript, latest last. -/
  transcript : List Byte := []
  /-- Key updates made in each direction. -/
  updates : Nat := 0
  deriving DecidableEq, Repr

/-- Where the start of the node stands (R504–R507). -/
structure BootState where
  /-- The scheduler cores run verified firmware. -/
  firmware : Bool := false
  trained : Bool := false
  /-- A channel failed training while 8 map-outs stood (R506). -/
  trainingFailed : Bool := false
  selfTested : Bool := false
  /-- RESET_REQ_N is held low (R570). -/
  held : Bool := false
  /-- TRAY_POS of the contacts (R571). -/
  straps : Nat := 0
  deriving DecidableEq, Repr

/-- Flokan (R522–R530). -/
structure FlokanState where
  /-- Baud rate, and whether no complete line has come since it last changed (R523). -/
  baud : Nat := 115200
  fresh : Bool := false
  /-- Command that takes data lines: 0 none, 1 FWLOAD, 2 TOKEN; and its content so far (R526). -/
  content : Nat := 0
  data : List Byte := []
  /-- A token is with the reeve and its final line is due. -/
  awaiting : Bool := false
  /-- Byte 0x03 came while a command ran (R525). -/
  aborted : Bool := false
  /-- Lines that came while a TOKEN was with the reeve, in order of arrival: the command's number and its arguments (R524). -/
  lines : List (Nat × List Nat) := []
  deriving DecidableEq, Repr

/-- A snapshot record (R536). -/
structure SnapRec where
  page : Nat
  unit : Nat
  kind : Nat
  which : Nat
  occupancy : Nat
  capacity : Nat
  a : Nat
  b : Nat
  subject : Nat
  age : Nat
  deriving DecidableEq, Repr

/-- The sideband to the tray controller (R581–R584). -/
structure SideState where
  /-- A later position write differed from the accepted one (R582). -/
  misplaced : Bool := false
  /-- The latest summary. -/
  summary : List Byte := []
  deriving DecidableEq, Repr


/-- The node. -/
structure State where
  /-- Register fields of the block pages, keyed by `fieldKey`; an unlisted field holds its reset value. -/
  regs : SMap Nat := []
  /-- Class S fields written and not yet in effect (R11), under the same keys, as value plus 1. -/
  shadow : SMap Nat := []
  /-- Core CSRs, keyed core × 4096 + CSR; an unlisted CSR holds its reset value. -/
  csrs : SMap Nat := []
  /-- Integer registers, keyed core × 32 + register. -/
  xregs : SMap Nat := []
  /-- Float registers of PD cores (R175), keyed core × 32 + register. -/
  fregs : SMap Nat := []
  /-- Vector registers of PD cores (R176), keyed core × 32 + register. -/
  vregs : SMap Nat := []
  cores : SMap CoreState := []
  /-- Operations counted for the command brackets (R538), keyed tile × 16 + kind. -/
  tally : SMap Nat := []
  /-- HBM at its offsets, tile stores at their places in the local map (R43), IMEM of tile t at 0xC1_0000_0000 + t × 0x1_0000. -/
  mem : List Host.Cell := []
  /-- Poisoned HBM lines, by offset / 128 (R259). -/
  poisonLine : SMap Bool := []
  /-- Poisoned 64-bit words of tile stores and IMEM, by key / 8 (R42). -/
  poisonWord : SMap Bool := []
  counters : SMap Counter := []
  waits : List WaitEntry := []
  /-- Tiles arrived at barrier slots, keyed flask × 8 + slot (R156). -/
  arrived : SMap Nat := []
  flasks : SMap FlaskState := []
  tiles : SMap Tile := []
  /-- Armed PD scheduler watch ranges 0–63 (R166, R169). -/
  pdWatch : SMap PdWatch := []
  hbm : HbmState := {}
  ecrok : EcrokState := {}
  coh : CohState := {}
  coll : CollState := {}
  store : Store := {}
  power : PowerState := {}
  /-- Ports P00–P17. -/
  ports : SMap PortLink := []
  ftime : FtimeState := {}
  lsa : LsaState := {}
  /-- REPRO descriptors by context (R396). -/
  repro : SMap ReproDesc := []
  /-- Flasks of a mask that had to act at a comparator's time and have not yet: comparator and flask (R362). -/
  relPending : List (Nat × Nat) := []
  /-- Checkpoints in progress, keyed by context. -/
  ckpts : SMap CkptRun := []
  /-- Promotions in order of arrival: context and granule; the first 16 are in flight (R417). -/
  promos : List (Nat × Nat) := []
  /-- Writes and atomics held by promotions (R417). -/
  ckptHeld : List HbmReq := []
  /-- Event rings, keyed page × 32 + unit. -/
  rings : SMap EvRing := []
  /-- The firmware log ring, keyed by sequence number (R244). -/
  log : SMap LogRec := []
  /-- The node trace ring in polder 15, newest first (R540). -/
  nodeTrace : List TraceRec := []
  err : ErrState := {}
  /-- Context trace records waiting to be drained: context and record (R540). -/
  traceDrain : List (Nat × TraceRec) := []
  /-- An urgent health summary is due (R583). -/
  urgentDue : Bool := false
  queues : SMap Queue := []
  /-- SM4 key slots 0–15 (R489). -/
  keys : SMap KeySlot := []
  /-- Queue pairs by index (R371). -/
  qps : SMap QueuePair := []
  /-- Memory regions by index (R373). -/
  regions : SMap Region := []
  /-- Priorities of the logical ports, keyed (port × 2 + logical port) × 8 + priority (R369). -/
  pauses : SMap PauseState := []
  /-- Pair entries 0–15 (R584). -/
  pairs : SMap Pair := []
  dike : DikeState := {}
  /-- SPDM of each command queue (R389). -/
  spdm : SMap SpdmState := []
  boot : BootState := {}
  flokan : FlokanState := {}
  /-- Held snapshot records of dies 0–6: TD0–TD3, PD, FD0, FD1 (R535). -/
  snaps : SMap (List SnapRec) := []
  /-- Pages whose rings the snapshot froze. -/
  snapPages : List Nat := []
  side : SideState := {}
  ctxs : SMap Ctx := []
  /-- Scheduler events raised by PD scheduler watch ranges (R169), oldest first. -/
  schedEvents : List Nat := []
  out : List Output := []
  /-- The model's own: how many free values have been drawn. -/
  freeCount : Nat := 0
  /-- Commands that wait, first in, first out. -/
  pending : List Instr := []
  deriving DecidableEq, Repr

/-- The machine right after cold reset (R504, R509): nothing listed, so every register at its reset value, every flask ASLEEP
(R60), stage ROM (R508), and no command waiting. -/
def State.reset : State := {}

end Sys2Proof.Machine
end

