-- ==== Sys2Proof/Machine/Ops.lean ====
section
/-! DEFINITION. The named operations over registers, cores, contexts and memory contents. -/
namespace Sys2Proof.Machine

/-- What a step or a command answers. -/
abbrev Out := Host.Outcome State Fault Refusal

/-! ### Lists in order -/

/-- An element placed before the first one that it may precede. -/
def insertBy {α : Type} (before : α → α → Bool) (x : α) : List α → List α
  | [] => [x]
  | y :: ys => if before x y then x :: y :: ys else y :: insertBy before x ys

/-- A list in the order that `before` gives; elements that may stand either way keep their order. -/
def sortBy {α : Type} (before : α → α → Bool) (xs : List α) : List α := xs.foldr (insertBy before) []

/-! ### Register fields -/

/-- The key of bit `lsb` at offset `off` of a page. -/
def fieldKey (page off lsb : Nat) : Nat := (page * 4096 + off) * 64 + lsb

/-- The key of element `i` of a field. -/
def descKey (d : FieldDesc) (page i : Nat) : Nat := fieldKey page (d.off + d.stride * i) d.lsb

/-- The reset value of a field: the value of its table, and those that depend on the page (R439 `ERR_SEVERITY`, R280
`POLDER[15].SIZE`, R249 `FEATURES`, R287 `ROLE`). -/
def regReset (page : Nat) (d : FieldDesc) (i : Nat) : Nat :=
  if d.code = 0 && d.off = 0x028 then severityReset page
  else if d.code = 7 && d.off = 0x200 && d.lsb = 16 && i = 15 then 4
  else if d.code = 0x1F && d.off = 0x100 && d.lsb = 8 then blockInstance page / 2
  else if d.code = 0xE && d.off = 0x140 && i = 0 then 0xFFFF
  else d.reset

/-- The value of a register field. -/
def State.getF (s : State) (d : FieldDesc) (page : Nat) (i : Nat := 0) : Nat :=
  mapGet (regReset page d i) s.regs (descKey d page i)

/-- A register field set, cut to its width. -/
def State.setF (s : State) (d : FieldDesc) (page : Nat) (i : Nat) (v : Nat) : State :=
  { s with regs := mapPut (regReset page d i) s.regs (descKey d page i) (v % 2 ^ d.width) }

/-- A counting field raised by `n`, holding at its largest value. -/
def State.addF (s : State) (d : FieldDesc) (page i n : Nat) : State :=
  s.setF d page i (min (s.getF d page i + n) (2 ^ d.width - 1))

/-- A field set to its reset value. -/
def State.clearF (s : State) (d : FieldDesc) (page i : Nat) : State := s.setF d page i (regReset page d i)

/-- The last value written to a class S field: the shadow where it is pending, else the value in effect (R550). -/
def State.lastF (s : State) (d : FieldDesc) (page : Nat) (i : Nat := 0) : Nat :=
  match mapGet 0 s.shadow (descKey d page i) with
  | 0 => s.getF d page i
  | v + 1 => v

/-- The class S fields of the node (R61, R191, R214). -/
def shadowedFields : List FieldDesc := [fdFlaskGateIdleCycles, fdPdVgateIdleCycles, fdLsaGateIdleUs]

/-- A shadowed value takes effect; a field with none is unchanged (R11). -/
def State.applyField (s : State) (page : Nat) (d : FieldDesc) : State :=
  match if d.code = blockCode page then mapGet 0 s.shadow (descKey d page 0) else 0 with
  | 0 => s
  | v + 1 => ({ s with shadow := mapPut 0 s.shadow (descKey d page 0) 0 }).setF d page 0 v

/-- Every class S field of a page takes its shadowed value (R550). -/
def State.applyShadow (s : State) (page : Nat) : State := shadowedFields.foldl (fun s d => s.applyField page d) s

/-- Fabric time (R363). -/
def State.now (s : State) : Nat := s.getF fdFtimeNow pgFtime

/-- The part carries eight stacks (R1, R4). -/
def State.small (s : State) : Bool := s.getF fdNodectlIdentOrderCode pgNodectl = 0x1908

/-- Stack sites that the part populates (R16). -/
def siteAbsent (small : Bool) (i : Nat) : Bool := small && i % 3 = 2

/-- Populated stack controllers (R266). -/
def State.controllers (s : State) : Nat := if s.small then 8 else 12

/-- The page is an absent instance (R547, R554): HBMC, HBMPHY and HOME of an empty site. -/
def State.absentPage (s : State) (page : Nat) : Bool :=
  let code := blockCode page
  (code = 0x04 || code = 0x05 || code = 0x06) && siteAbsent s.small (blockInstance page)

/-! ### Cores -/

/-- The index of a core: tiles 0–4095, application cores from 4096, scheduler cores from 4160. -/
def coreIx : Core → Nat
  | .tile t => t.val
  | .pd k => 4096 + k.val
  | .sched k => 4160 + k.val

/-- Hart ID of a core index (R35, R173). -/
def hartId (c : Nat) : Nat := if c < 4096 then c else if c < 4160 then 0x1000 + (c - 4096) else 0x1100 + (c - 4160)

/-- A core's state. -/
def State.core (s : State) (c : Nat) : CoreState := mapGet {} s.cores c

/-- A core's state replaced. -/
def State.setCore (s : State) (c : Nat) (k : CoreState) : State := { s with cores := mapPut {} s.cores c k }

/-- An integer register; x0 reads 0. -/
def State.xreg (s : State) (c r : Nat) : Nat := if r = 0 then 0 else mapGet 0 s.xregs (c * 32 + r)

/-- An integer register written; a write to x0 is discarded. -/
def State.setX (s : State) (c r v : Nat) : State :=
  if r = 0 then s else { s with xregs := mapPut 0 s.xregs (c * 32 + r) (v % 2 ^ 64) }

/-- A core takes an exception (R591, R150): the trap is recorded, a tile or PD core enters machine mode. -/
def State.trap (s : State) (c cause tval : Nat) : State :=
  let k := s.core c
  s.setCore c { k with trap := some ⟨cause, tval⟩, user := false, blocked := .none }

/-- A core's blocked state replaced. -/
def State.block (s : State) (c : Nat) (b : Blocked) : State := s.setCore c { s.core c with blocked := b }

/-- The flask of a tile. -/
def flaskOf (t : Nat) : Nat := t / 16

/-- Reset value of a CSR (R100, R144, R171, R177, R407); 0 where no rule gives one (DESIGN CHOICE, log entry 5). -/
def csrReset (csr : Nat) : Nat :=
  match csr with
  | 0x840 => 0x333
  | 0x841 => 32
  | 0x842 => 0x20
  | 0x843 => 0x20
  | 0x844 => 0x80
  | 0x805 => 1
  | 0x806 => 0xFEDCBA9876543210
  | 0x861 => 2
  | 0x863 => 2
  | 0x882 => 1
  | 0x00A => 1
  | _ => if 0x810 ≤ csr && csr ≤ 0x81F && csr % 2 = 1 then 0x100000000 else 0

/-- A CSR of a core. -/
def State.csr (s : State) (c n : Nat) : Nat := mapGet (csrReset n) s.csrs (c * 4096 + n)

/-- A CSR of a core written. -/
def State.setCsr (s : State) (c n v : Nat) : State :=
  { s with csrs := mapPut (csrReset n) s.csrs (c * 4096 + n) (v % 2 ^ 64) }

/-- The bits `[hi:lo]` of a CSR. -/
def State.csrBits (s : State) (c n hi lo : Nat) : Nat := bits (s.csr c n) hi lo

/-- Sets bits `[hi:lo]` of a word. -/
def putBits (w hi lo v : Nat) : Nat :=
  w - bits w hi lo * 2 ^ lo + (v % 2 ^ (hi + 1 - lo)) * 2 ^ lo

/-! ### Contexts -/

/-- A context. -/
def State.ctx (s : State) (c : Nat) : Ctx := mapGet {} s.ctxs c

/-- A context replaced. -/
def State.setCtx (s : State) (c : Nat) (x : Ctx) : State := { s with ctxs := mapPut {} s.ctxs c x }

/-- `SCHED.CTX[c].STATE` (R249). -/
def State.ctxState (s : State) (c : Nat) : Nat := s.getF fdSchedCtxState pgSched c

/-- Codes of `SCHED.CTX[c].STATE` (R249). -/
def csClosed : Nat := 0
/-- IDLE. -/
def csIdle : Nat := 1
/-- RUNNING. -/
def csRunning : Nat := 2
/-- STOPPING. -/
def csStopping : Nat := 3
/-- STALLED. -/
def csStalled : Nat := 4
/-- FAULTED. -/
def csFaulted : Nat := 5

/-- The context is RUNNING or STOPPING: the busy sense of the per-context class X fields (R338, R544, R562). -/
def State.ctxBusy (s : State) (c : Nat) : Bool := s.ctxState c = csRunning || s.ctxState c = csStopping

/-- The sixteen contexts. -/
def allCtxs : List Nat := List.range 16

/-- The open context that holds a flask. -/
def State.flaskOwner (s : State) (f : Nat) : Option Nat :=
  allCtxs.find? fun c => (s.ctx c).isOpen && (s.ctx c).flasks.contains f

/-- The open context that holds an application core. -/
def State.coreOwner (s : State) (k : Nat) : Option Nat :=
  allCtxs.find? fun c => (s.ctx c).isOpen && bitAt (s.ctx c).cores k

/-- An open context holds some application core (R550). -/
def State.coresHeld (s : State) : Bool := allCtxs.any fun c => (s.ctx c).isOpen && (s.ctx c).cores ≠ 0

/-- Some context is open. -/
def State.anyOpen (s : State) : Bool := allCtxs.any fun c => (s.ctx c).isOpen

/-! ### The local map (R43) -/

/-- First address of the tile stores. -/
def storeBase : Nat := 0xC000000000
/-- First address of the SELF window. -/
def selfBase : Nat := 0xC080000000
/-- First address of the issuing tile's IMEM in its own view. -/
def imemView : Nat := 0xC090000000
/-- First model key of the IMEMs; tile t's begins at `imemBase + t * 0x10000`. -/
def imemBase : Nat := 0xC100000000
/-- First address of the block pages (R545). -/
def pageBase : Nat := 0xF000000000

/-- Size of a tile store (R31). -/
def storeSize : Nat := 0x80000

/-- Where tile `t`'s store begins (R43). -/
def storeAt (t : Nat) : Nat := storeBase + t * storeSize

/-- Where tile `t`'s IMEM begins in the model's memory. -/
def imemAt (t : Nat) : Nat := imemBase + t * 0x10000

/-- A place in the node. -/
inductive Place where
  | hbm (off : Nat)
  /-- Byte `off` of tile `t`'s store. -/
  | store (t off : Nat)
  | imem (t off : Nat)
  | page (page off : Nat)
  /-- No region of the map, or the absent range: an address fault (R3, R43, R253). -/
  | nowhere
  deriving DecidableEq, Repr

/-- The place that a class 0x0 address names (R43); `self` is the issuing tile, none for agents that have no SELF window. -/
def State.place (s : State) (self : Option Nat) (a : Nat) : Place :=
  if a < storeBase then
    if a < s.getF fdMemmapTop pgMemmap then .hbm a else .nowhere
  else if a < selfBase then .store ((a - storeBase) / storeSize) ((a - storeBase) % storeSize)
  else if a < selfBase + storeSize then
    match self with
    | some t => .store t (a - selfBase)
    | none => .nowhere
  else if imemView ≤ a && a < imemView + 0x10000 then
    match self with
    | some t => .imem t (a - imemView)
    | none => .nowhere
  else if pageBase ≤ a && a < pageBase + 0x100000000 then .page ((a - pageBase) / 4096) ((a - pageBase) % 4096)
  else .nowhere

/-! ### Memory contents -/

/-- Bytes of memory. -/
def State.bytes (s : State) (a n : Nat) : List Byte := memRead s.mem a n

/-- Bytes of memory as a little-endian number (R7). -/
def State.loadNat (s : State) (a n : Nat) : Nat := leNat (s.bytes a n)

/-- Bytes written, with no check of poison. -/
def State.putBytes (s : State) (a : Nat) (bs : List Byte) : State := { s with mem := memWrite s.mem a bs }

/-- The numbers `a, a + 1, …`, `n` of them. -/
def upFrom (a : Nat) : Nat → List Nat
  | 0 => []
  | n + 1 => a :: upFrom (a + 1) n

/-- The units of `size` bytes that a range touches. -/
def unitsOf (size a len : Nat) : List Nat :=
  if len = 0 then [] else upFrom (a / size) ((a + len - 1) / size + 1 - a / size)

/-- Some 64-bit word of a tile-store or IMEM range is poisoned (R42). -/
def State.wordsPoisoned (s : State) (a len : Nat) : Bool :=
  (unitsOf 8 a len).any fun w => mapGet false s.poisonWord w

/-- Some 128 B line of an HBM range is poisoned (R259). -/
def State.linesPoisoned (s : State) (off len : Nat) : Bool :=
  (unitsOf 128 off len).any fun l => mapGet false s.poisonLine l

/-- A list of units marked poisoned or clean. -/
def markUnits (m : SMap Bool) (us : List Nat) (b : Bool) : SMap Bool :=
  us.foldl (fun m u => mapPut false m u b) m

/-- The units of `size` bytes that a range covers whole. -/
def wholeUnits (size a len : Nat) : List Nat :=
  (unitsOf size a len).filter fun u => a ≤ u * size && u * size + size ≤ a + len

/-- Bytes written to a tile store or IMEM (R42): a whole word gets valid check bits, a part of a word keeps the word's poison,
and poisoned data poisons every word it touches (R436). -/
def State.storeBytes (s : State) (a : Nat) (bs : List Byte) (poisoned : Bool := false) : State :=
  let us := if poisoned then unitsOf 8 a bs.length else wholeUnits 8 a bs.length
  { s with mem := memWrite s.mem a bs, poisonWord := markUnits s.poisonWord us poisoned }

/-- Bytes written to HBM at the ordering point (R259, R436): a whole line gets valid check bits, a partial store leaves a
poisoned line poisoned, and poisoned data poisons every line it touches. -/
def State.hbmBytes (s : State) (off : Nat) (bs : List Byte) (poisoned : Bool := false) : State :=
  let us := if poisoned then unitsOf 128 off bs.length else wholeUnits 128 off bs.length
  { s with mem := memWrite s.mem off bs, poisonLine := markUnits s.poisonLine us poisoned }

/-- A range zeroed with valid check bits (R513). -/
def State.zeroRange (s : State) (lo hi : Nat) : State :=
  { s with
    mem := s.mem.filter fun c => c.1 < lo || hi ≤ c.1
    poisonLine := s.poisonLine.filter fun c => c.1 * 128 < lo || hi ≤ c.1 * 128
    poisonWord := s.poisonWord.filter fun c => c.1 * 8 < lo || hi ≤ c.1 * 8 }

/-! ### Outputs and free values -/

/-- Something leaves the node. -/
def State.emit (s : State) (o : Output) : State := { s with out := s.out ++ [o] }

/-- Several things leave the node. -/
def State.emitAll (s : State) (os : List Output) : State := { s with out := s.out ++ os }

/-- The next free value, and the state with it drawn. -/
def State.free (s : State) : Nat × State := (Config.freeValue s.freeCount, { s with freeCount := s.freeCount + 1 })

/-- Applies an operation for each element of a list, in order. -/
def State.forEach {α : Type} (s : State) (l : List α) (f : α → State → State) : State := l.foldl (fun s x => f x s) s

end Sys2Proof.Machine
end

