-- ==== Sys2Proof/Machine/EthBase.lean ====
section
/-! DEFINITION. What leaves and fills the Ethernet ports (R369, R372, R374, R379). -/
namespace Sys2Proof.Machine

/-- A queue pair. -/
def State.qp (s : State) (i : Nat) : QueuePair := mapGet {} s.qps i

/-- A queue pair replaced. -/
def State.setQp (s : State) (i : Nat) (x : QueuePair) : State := { s with qps := mapPut {} s.qps i x }

/-- Key of a priority of a logical port. -/
def prioKey (e lp prio : Nat) : Nat := (e * 2 + lp) * 8 + prio

/-- A priority's state. -/
def State.pause (s : State) (k : Nat) : PauseState := mapGet {} s.pauses k

/-- A priority's state replaced. -/
def State.setPause (s : State) (k : Nat) (x : PauseState) : State := { s with pauses := mapPut {} s.pauses k x }

/-- Something leaves on a queue pair, or waits while its priority is paused (R369). -/
def State.ethSend (s : State) (i : Nat) (o : Output) : State :=
  let x := s.qp i
  let k := prioKey x.eth x.lp x.pcp
  let z := s.pause k
  if z.paused = 0 then s.emit o else s.setPause k { z with held := z.held ++ [o] }

/-- A command queue. -/
def State.queue (s : State) (q : Nat) : Queue := mapGet {} s.queues q

/-- A command queue replaced. -/
def State.setQueue (s : State) (q : Nat) (x : Queue) : State := { s with queues := mapPut {} s.queues q x }

/-- The connected queue pair of a command queue. -/
def State.queueQp (s : State) (q : Nat) : Option Nat :=
  (s.qps.find? fun x => x.2.kind = 1 && x.2.owner = q && x.2.state = 2).map (·.1)

/-- The bytes of a status in the 256 B capsules of R382. -/
def statusBytes (x : StatusCap) : List Byte :=
  let n := (x.body.length + 223) / 224
  (List.range (max n 1)).flatMap fun i =>
    let b := (x.body.drop (224 * i)).take 224
    leBytes 2 x.op ++ leBytes 1 (if i + 1 < n then 1 else 0) ++ leBytes 1 i ++ leBytes 4 x.tag ++ leBytes 1 x.ctx ++ [0] ++
      leBytes 2 b.length ++ leBytes 2 x.code ++ leBytes 2 x.detail ++ leBytes 8 x.time ++ List.replicate 8 0 ++ b ++
      List.replicate (224 - b.length) 0

/-- A status capsule leaves on a queue; the SEND stays with its queue pair until it is acknowledged (R374, R379). -/
def State.postStatus (s : State) (q : Nat) (x : StatusCap) : State :=
  let x := { x with time := s.now }
  match s.queueQp q with
  | none => s.emit (.status q x)
  | some i =>
    let p := s.qp i
    (s.setQp i { p with sends := p.sends ++ [(2, 0, 0, statusBytes x)] }).ethSend i (.status q x)

/-- Bytes that a priority's receive buffer holds: RDMA WRITE data that the memory system has not yet taken (R369). -/
def State.ethBuffered (s : State) (k : Nat) : Nat :=
  ((s.hbm.waiting ++ s.hbm.srHeld ++ s.ckptHeld).map fun r => match r.src with
    | .qp i => let x := s.qp i.val; if r.kind = 1 && prioKey x.eth x.lp x.pcp = k then r.len else 0
    | _ => 0).foldl (· + ·) 0

/-- XOFF at 1.5 MiB and XON at 1 MiB of each priority with flow control enabled (R369). -/
def State.pfcPoll (s : State) : State :=
  s.forEach (List.range 32) fun k s =>
    let e := k / 16
    if !bitAt (s.getF fdEthPfcEnable (pgEth e)) (k % 8) then s
    else
      let z := s.pause k
      let n := s.ethBuffered k
      if !z.xoff && 1572864 ≤ n then
        ((s.setPause k { z with xoff := true }).emit (.pfc e (k / 8 % 2) (k % 8) true)).addF fdComCounter (pgEth e) 5 1
      else if z.xoff && n ≤ 1048576 then
        ((s.setPause k { z with xoff := false }).emit (.pfc e (k / 8 % 2) (k % 8) false)).addF fdComCounter (pgEth e) 5 1
      else s

end Sys2Proof.Machine
end

