-- ==== Sys2Proof/Machine/Record.lean ====
section
/-! DEFINITION. What the node records: always-on counters (R537), event rings (R531–R534), the firmware log (R244, R245),
trace export (R540, R541), the error ring and its queues (R439–R448), and the reports an error sends (R435, R456, R516). -/
namespace Sys2Proof.Machine

/-- An always-on counter slot raised (R537). -/
def State.count (s : State) (page slot n : Nat) : State := s.addF fdComCounter page slot n

/-! ### Trace export -/

/-- The context that holds the unit of a page: a flask's owner; for a PD quadrant, the owner of the unit's core (R540). -/
def State.unitOwner (s : State) (page unit : Nat) : Option Nat :=
  let code := blockCode page
  if code = 0x01 then s.flaskOwner page
  else if code = 0x09 && 1 ≤ unit then s.coreOwner (16 * blockInstance page + (unit - 1))
  else none

/-- The bytes of a trace record (R542). -/
def traceBytes (r : TraceRec) : List Byte :=
  leBytes 8 r.time ++ leBytes 4 (r.page + r.unit * 2 ^ 20) ++ leBytes 2 r.code ++ leBytes 2 r.subject ++
    leBytes 4 r.value ++ leBytes 4 r.node ++ leBytes 8 r.ptp

/-- A record goes to context c's trace as `CTR[c].MODE` selects, or is dropped where it is off (R540). -/
def State.traceToCtx (s : State) (c : Nat) (r : TraceRec) : State :=
  match s.getF fdObsCtrMode pgObs c with
  | 1 =>
    let slots := 2 ^ s.getF fdObsCtrLog2 pgObs c / 32
    let head := s.getF fdObsCtrHead pgObs c
    (s.hbmBytes (s.getF fdObsCtrBase pgObs c + head % slots * 32) (traceBytes r)).setF fdObsCtrHead pgObs c (head + 1)
  | 2 => { s with traceDrain := s.traceDrain ++ [(c, r)] }
  | _ => s

/-- A record goes to the node trace while `NTRACE.EN` is set (R540): 256 MiB of 32 B records. -/
def State.traceToNode (s : State) (r : TraceRec) : State :=
  if s.getF fdObsNtraceEn pgObs = 1 then
    { (s.addF fdObsNtraceHead pgObs 0 1) with nodeTrace := (r :: s.nodeTrace).take 0x800000 }
  else s

/-- Trace export of one event (R540). -/
def State.traceOut (s : State) (owner : Option Nat) (r : TraceRec) : State :=
  match owner with
  | some c => s.traceToCtx c r
  | none => s.traceToNode r

/-! ### Event rings -/

/-- An event ring. -/
def State.ring (s : State) (page unit : Nat) : EvRing := mapGet {} s.rings (page * 32 + unit)

/-- An entry written to a ring, over the oldest of 256 (R531). -/
def State.pushRing (s : State) (page unit : Nat) (e : EvEntry) : State :=
  let r := s.ring page unit
  let r' : EvRing := { written := r.written + 1, entries := mapPut {} r.entries (r.written % 256) e }
  { s with rings := mapPut {} s.rings (page * 32 + unit) r' }

/-- The block's rings are frozen (R534, R535). -/
def State.frozen (s : State) (page : Nat) : Bool := s.getF fdEvrEvrFreeze page = 1

/-- An event of class `cls` (none: recorded always) in a unit's ring (R531–R534): while the block is frozen it is only counted,
else it is written and exported. -/
def State.event (s : State) (page unit : Nat) (cls : Option Nat) (code subject value : Nat) : State :=
  let enabled := match cls with
    | some k => bitAt (s.getF fdEvrEvrMask page) k
    | none => true
  if !enabled then s
  else if s.frozen page then s.addF fdEvrEvrLost page 0 1
  else
    let e : EvEntry := { time := s.now, code := code, subject := subject % 2 ^ 16, value := value % 2 ^ 32 }
    (s.pushRing page unit e).traceOut (s.unitOwner page unit)
      { time := e.time, page := page, unit := unit, code := code, subject := e.subject, value := e.value,
        node := s.getF fdEcrokNodeId pgEcrok, ptp := 0 }

/-- The block's rings freeze at once, with a FREEZE entry (R534): cause 0 a write, 1 a snapshot, 2 a UC or NF record. -/
def State.freezeRings (s : State) (page cause : Nat) : State :=
  if s.frozen page then s else (s.event page 0 none 0x000A cause 0).setF fdEvrEvrFreeze page 0 1

/-- The block's rings thaw, with a THAW entry that carries the events lost while frozen (R534). -/
def State.thawRings (s : State) (page : Nat) : State :=
  if s.frozen page then
    (s.setF fdEvrEvrFreeze page 0 0).event page 0 none 0x000B 0 (s.getF fdEvrEvrLost page)
  else s

/-! ### The firmware log -/

/-- The trace points that R245 names. -/
def namedPoint (p : Nat) : Bool :=
  p ≤ 20 && p ≠ 21 || 32 ≤ p && p ≤ 40 || 56 ≤ p && p ≤ 61 || 72 ≤ p && p ≤ 75 || 88 ≤ p && p ≤ 93 || 104 ≤ p && p ≤ 110

/-- The mask of named points among 0–63 (low word) or 64–119 (R245). -/
def namedMask (lo n : Nat) : Nat := (upFrom lo n).foldl (fun a p => if namedPoint p then a + 2 ^ (p - lo) else a) 0

/-- A trace point records (R245): points 0–11 always. -/
def State.pointOn (s : State) (p : Nat) : Bool :=
  namedPoint p && (p ≤ 11 ||
    if p < 64 then bitAt (s.getF fdSchedTraceEnLo pgSched) p else bitAt (s.getF fdSchedTraceEnHi pgSched) (p - 64))

/-- A log record (R244): context 0xFF for node-wide records; the oldest of 32,768 is overwritten. -/
def State.trace (s : State) (p ctx arg0 arg1 : Nat) : State :=
  if s.pointOn p then
    let seq := s.getF fdSchedLogSeq pgSched
    let r : LogRec := { time := s.now, point := p, ctx := ctx, seq := seq, arg0 := arg0 % 2 ^ 64, arg1 := arg1 % 2 ^ 64 }
    let s' := { s with log := mapPut {} (mapDel s.log ((seq + 2 ^ 32 - 32768) % 2 ^ 32)) seq r }
    (s'.setF fdSchedLogSeq pgSched 0 (seq + 1)).traceOut (if ctx < 16 then some ctx else none)
      { time := r.time, page := pgSched, unit := 0, code := p, subject := arg0 % 2 ^ 16, value := arg1 % 2 ^ 32,
        node := s.getF fdEcrokNodeId pgEcrok, ptp := 0 }
  else s

/-! ### Reports -/

/-- The pair entry of a job and generation that is not empty or RETIRED. -/
def State.pairOf (s : State) (job gen : Nat) : Option Nat :=
  (List.range 16).find? fun i =>
    let p := mapGet {} s.pairs i
    p.job = job && p.gen = gen && p.state ≠ 0 && p.state ≠ 4

/-- The status of a capsule leaves on its queue (R379). -/
def State.answer (s : State) (q : Nat) (x : StatusCap) : State := (s.postStatus q x).trace 74 0xFF q x.tag

/-- An unsolicited status, or the status of a capsule whose session may have ended, leaves on a queue with an open session
(R379, R387). -/
def State.sendStatus (s : State) (q : Nat) (x : StatusCap) : State :=
  if (s.queue q).session.isSome then s.answer q x else s

/-- A capsule that was in execution ends with its status, which is discarded where its session has ended (R387). -/
def State.answerBusy (s : State) (q : Nat) (x : StatusCap) : State :=
  let k := s.queue q
  if k.busy = some x.tag then (s.setQueue q { k with busy := none }).answer q x else s

/-- A report goes to the launch root of the job's launch entry, and as status 0x8004 on each management queue with an open
session (R516). -/
def State.report (s : State) (job gen : Nat) (payload : List Byte) : State :=
  let s := match s.dike.launches.find? fun l => l.known && l.job = job && l.gen = gen with
    | some l => s.emit (.mgmt l.root payload)
    | none => s
  s.forEach (List.range 4) fun q s => s.sendStatus q { op := 0x8004, body := payload }

/-- The first eight bytes of a launch message of kind 0x1E (R515). -/
def mgmtHead (sub part count job gen : Nat) : List Byte :=
  leBytes 1 sub ++ leBytes 1 part ++ leBytes 1 count ++ [0] ++ leBytes 4 (job + gen * 2 ^ 20)

/-- The payload of JOB_FATAL (R515). -/
def jobFatalPayload (job gen node cause seq dead time heat : Nat) : List Byte :=
  mgmtHead 0x07 0 1 job gen ++ leBytes 4 node ++ leBytes 2 cause ++ [0, 0] ++ leBytes 4 seq ++ leBytes 4 dead ++
    leBytes 8 time ++ leBytes 8 heat

/-- JOB_FATAL for context c's job (R435, R515, R516), counted in `ERRAGG.CNT.JOB_FATAL`. -/
def State.jobFatal (s : State) (c cause seq dead : Nat) : State :=
  let x := s.ctx c
  (s.report x.job x.gen (jobFatalPayload x.job x.gen (s.getF fdEcrokNodeId pgEcrok) cause seq dead s.now
    (s.getF fdSchedCtxHeat pgSched c))).addF fdErraggCntJobFatal pgErragg 0 1

/-- JOB_FATAL for every job with a context on the node (R456, R510). -/
def State.jobFatalAll (s : State) (cause seq : Nat) : State :=
  s.forEach (allCtxs.filter fun c => (s.ctx c).isOpen) fun c s => s.jobFatal c cause seq 0

/-! ### Dropped writes -/

/-- A dropped write is recorded in its block's `FIELD_REJECT` (R552): cause 1 RESERVED, 2 BUSY, 3 DIKE, 4 REFUSED, 5 WIDTH; agent 0
reeve, 1 scheduler core, 2 tile monitor, 3 tile kernel; `tile` for a tile CSR write. -/
def State.reject (s : State) (page off cause agent : Nat) (tile : Option Nat := none) : State :=
  let n := min (bits (s.getF fdComFieldReject page) 30 23 + 1) 255
  s.setF fdComFieldReject page 0 (off % 4096 + tile.isSome.toNat * 2 ^ 12 + tile.getD 0 % 16 * 2 ^ 13 + cause * 2 ^ 17 +
    agent * 2 ^ 20 + n * 2 ^ 23 + 2 ^ 31)

/-! ### The spare state -/

/-- The spare state rises to `v` and never falls (R455); a change makes an urgent summary due (R583). -/
def State.raiseSpare (s : State) (v : Nat) : State :=
  if s.getF fdErraggSpareState pgErragg < v then { s.setF fdErraggSpareState pgErragg 0 v with urgentDue := true } else s

/-! ### Errors -/

/-- Minimum class of an error code (R444). -/
def codeClass (code : Nat) : Nat :=
  match code with
  | 0x0002 => 1 | 0x0003 => 2 | 0x0011 => 1 | 0x0030 => 2 | 0x0031 => 2 | 0x0040 => 2 | 0x0041 => 2
  | 0x0050 => 3 | 0x0060 => 3 | 0x0061 => 3 | _ => 0

/-- The 64 bytes of a record (R443). -/
def ErrRecord.bytes (r : ErrRecord) : List Byte :=
  leBytes 8 r.time ++ leBytes 4 r.seq ++
    leBytes 1 (r.cls + r.injected.toNat * 4 + r.preempted.toNat * 8 + r.escalated.toNat * 16) ++ leBytes 3 (r.page + r.source * 2 ^ 20) ++
    leBytes 2 r.code ++ leBytes 1 r.ctx ++ leBytes 1 r.outcome ++ leBytes 4 (r.job + r.gen * 2 ^ 20) ++ leBytes 8 r.addr ++
    leBytes 8 r.heat ++ leBytes 4 r.count ++ leBytes 4 r.lost ++ leBytes 2 r.service ++ [0, 0, 0, 0, 0, 0] ++ leBytes 8 r.detail

/-- A record of the node error ring; none once the ring has wrapped over it (R442). -/
def State.errRecord (s : State) (seq : Nat) : Option ErrRecord :=
  let r := mapGet {} s.err.ring seq
  if r.seq = seq && seq ≠ 0 then some r else none

/-- A record rewritten, unless the ring has wrapped over it (R442). -/
def State.amendRecord (s : State) (seq : Nat) (f : ErrRecord → ErrRecord) : State :=
  match s.errRecord seq with
  | some r => { s with err := { s.err with ring := mapPut {} s.err.ring seq (f r) } }
  | none => s

/-- A new record: the next SEQ, in the ring of 4,096 (R442, R443). -/
def State.addRecord (s : State) (r : ErrRecord) : State :=
  let seq := s.getF fdErraggRingNewest pgErragg + 1
  ({ s with err := { s.err with
      ring := mapPut {} (mapDel s.err.ring (seq - 4096)) seq { r with seq := seq }
      lost := mapPut 0 s.err.lost r.page 0 } }).setF fdErraggRingNewest pgErragg 0 seq

/-- `FIRST` captures the first error since it was re-armed, and later ones go to `NEXT` (R440). -/
def State.captureError (s : State) (page src cls seq : Nat) : State :=
  if s.getF fdErrFirstValid page = 0 then
    (((s.setF fdErrFirstSource page 0 src).setF fdErrFirstClass page 0 cls).setF fdErrFirstSeq page 0 seq).setF
      fdErrFirstValid page 0 1
  else
    let n := s.getF fdErrNext page
    s.setF fdErrNext page 0 (putBits (putBits (putBits n 3 0 src) 5 4 cls) 15 8 (min (bits n 15 8 + 1) 255))

/-- Errors that the blocks' queues hold for a page (R445). -/
def State.queuedOn (s : State) (page : Nat) : Nat := (s.err.queued.filter fun r => r.page = page).length

/-- The step of a context whose UC was detected ends: it releases no further step and commits no heat, and its running step
fails (R435, R242). -/
def State.holdCtx (s : State) (c : Nat) : State :=
  let x := s.ctx c
  s.setCtx c { x with uncorrected := true, run := { x.run with failed := x.run.failed || x.run.active } }

/-- On NF the node leaves service (R456): JOB_FATAL for every job, spare state OUT, TARGET_DEAD to every request from then on. -/
def State.leaveService (s : State) (seq : Nat) : State :=
  let again := s.err.lastNf ≠ 0 && s.now + 1 - s.err.lastNf < 24 * 3600 * 2000000000
  let s := (s.jobFatalAll 0x0103 seq).raiseSpare 3
  let s := (s.addF fdErraggCntNf pgErragg 0 1).setF fdErraggLastNf pgErragg 0 s.now
  let s := s.setF fdNodectlAlertCauses pgNodectl 0 (putBits (s.getF fdNodectlAlertCauses pgNodectl) 3 3 1)
  { s with err := { s.err with out := true, lastNf := s.now + 1, nfRepeated := again } }

/-- The record of a detected error, before SEQ (R443). -/
def State.errorRecord (s : State) (page src cls : Nat) (info : ErrorInfo) (injected escalated : Bool) : ErrRecord :=
  let c := info.ctx.map (·.val)
  let x := (c.map s.ctx).getD {}
  { time := s.now, cls := cls, injected := injected, escalated := escalated, page := page, source := src,
    code := info.code.toNat, ctx := c.getD 0xFF, job := x.job, gen := x.gen, addr := info.addr.toNat,
    heat := (c.map fun c => s.getF fdSchedCtxHeat pgSched c).getD 0, lost := mapGet 0 s.err.lost page,
    service := info.service.toNat, detail := info.detail.toNat }

/-- The class of an error (R433, R434, R439, R444): its code's minimum raised by `ERR_SEVERITY`; a UC with no owning context
is NF, but for an injected one, which keeps its source's class (R441). -/
def State.errorClass (s : State) (page src : Nat) (info : ErrorInfo) (injected : Bool) : Nat :=
  let sev := bits (s.getF fdErrErrSeverity page) (2 * src + 1) (2 * src)
  let cls := max sev (codeClass info.code.toNat)
  if cls = 2 && info.ctx.isNone && !injected then 3 else cls

/-- What follows a record of class UC or NF, unless injected (R435, R441, R456). -/
def State.contain (s : State) (r : ErrRecord) : State :=
  if r.injected then s
  else if r.cls = 2 && r.ctx < 16 then (s.holdCtx r.ctx).jobFatal r.ctx r.code r.seq 0
  else if r.cls = 3 then s.leaveService r.seq
  else s

/-- An error that a unit detects (R433–R448): counted, captured, recorded unless its source is disabled, coalesced when
corrected, queued for its handler, or lost to a full queue. -/
def State.detect (s : State) (page src : Nat) (info : ErrorInfo) (injected : Bool := false) (escalate : Bool := false) :
    State :=
  if !(blockSources page).contains src then s
  else
    let cls := if escalate then 3 else s.errorClass page src info injected
    let s := s.setF fdErrErrStatusSrc page 0 (putBits (s.getF fdErrErrStatusSrc page) src src 1)
    let s := if cls = 0 then s.addF fdErrCeCount page 0 1 else s.addF fdErrUcCount page 0 1
    let full := 16 ≤ s.queuedOn page
    let s := if full then
        let s := s.setF fdErrErrStatusOverflow page 0 1
        let n := s.getF fdErrNext page
        let s := s.setF fdErrNext page 0 (putBits n 31 16 (min (bits n 31 16 + 1) 0xFFFF))
        { s with err := { s.err with lost := mapPut 0 s.err.lost page (mapGet 0 s.err.lost page + 1) } }
      else s
    let cls := if full && 2 ≤ cls then 3 else cls
    let second := s.now / 2000000000
    let key := page * 16 + src
    let last := s.errRecord (mapGet 0 s.err.lastCe key)
    let same := cls = 0 && (last.elim false fun r => r.cls = 0 && r.time / 2000000000 = second && r.injected = injected)
    if same then
      let s := s.amendRecord (mapGet 0 s.err.lastCe key) fun r => { r with count := r.count + 1 }
      s.captureError page src cls (mapGet 0 s.err.lastCe key)
    else if full && cls < 2 then s.captureError page src cls 0
    else if cls < 2 && !bitAt (s.getF fdErrErrEnable page) src then s.captureError page src cls 0
    else
      let s := s.addRecord (s.errorRecord page src cls info injected (escalate || (full && cls = 3)))
      let seq := s.getF fdErraggRingNewest pgErragg
      let s := s.captureError page src cls seq
      let s := if cls = 0 then { s with err := { s.err with lastCe := mapPut 0 s.err.lastCe key seq } } else s
      let s := s.event page 0 none 0x0003 src seq
      let s := if 2 ≤ cls && s.getF fdEvrEvrFreezeOnUc page = 1 then s.freezeRings page 2 else s
      match s.errRecord seq with
      | some r => ({ s with err := { s.err with queued := s.err.queued ++ [r] } }).contain r
      | none => s

/-- PREFAIL of a unit (R451): a record with code 0x0070 and the cause for the next, urgent, summary; raised again only after a
full hour below the threshold. -/
def State.prefail (s : State) (page unit cause : Nat) : State :=
  if mapGet false s.err.prefailed (page * 128 + unit) then s
  else
    let service := if blockCode page = 0x04 then blockInstance page * 32 + unit else unit
    let s := s.detect page 13 { code := 0x0070, service := BitVec.ofNat 16 service, detail := BitVec.ofNat 64 cause }
    { s with
      err := { s.err with
        prefailed := mapPut false s.err.prefailed (page * 128 + unit) true
        prefailCauses := s.err.prefailCauses ++ [cause * 2 ^ 16 + service % 2 ^ 16] }
      urgentDue := true }

end Sys2Proof.Machine
end

