-- ==== Sys2Proof/Machine/FlaskPower.lean ====
section
/-! DEFINITION. Flask states and unit power (R55–R59): what an arrival, a wake and a sleep do, shared by every access. -/
namespace Sys2Proof.Machine

/-- AWAKE (R55). -/
def psAwake : Nat := 0
/-- ENTERING. -/
def psEntering : Nat := 1
/-- ASLEEP. -/
def psAsleep : Nat := 2
/-- WAKING. -/
def psWaking : Nat := 3

/-- `FLASK.PSTATE.STATE`. -/
def State.pstate (s : State) (f : Nat) : Nat := s.getF fdFlaskPstateState (pgFlask f)

/-- A flask changes state, with its event (R557). -/
def State.setPstate (s : State) (f v : Nat) : State :=
  (s.setF fdFlaskPstateState (pgFlask f) 0 v).event (pgFlask f) 0 (some 3) 0x0103 v 0

/-- A flask's state beside its page. -/
def State.flask (s : State) (f : Nat) : FlaskState := mapGet {} s.flasks f

/-- A flask's state beside its page replaced. -/
def State.setFlask (s : State) (f : Nat) (x : FlaskState) : State := { s with flasks := mapPut {} s.flasks f x }

/-- The matrix array (bit t) or SVU (bit t of the upper half) of a tile is powered (R59). -/
def State.unitOn (s : State) (t : Nat) (u : TileUnit) : Bool :=
  match u with
  | .mx => bitAt (s.getF fdFlaskUnitStateMx (pgFlask (flaskOf t))) (t % 16)
  | .sv => bitAt (s.getF fdFlaskUnitStateSv (pgFlask (flaskOf t))) (t % 16)

/-- A unit's hold bit (R59). -/
def State.unitHeld (s : State) (t : Nat) (u : TileUnit) : Bool :=
  match u with
  | .mx => bitAt (s.getF fdFlaskGateHoldMx (pgFlask (flaskOf t))) (t % 16)
  | .sv => bitAt (s.getF fdFlaskGateHoldSv (pgFlask (flaskOf t))) (t % 16)

/-- A unit powered or gated. -/
def State.setUnit (s : State) (t : Nat) (u : TileUnit) (on : Bool) : State :=
  let p := pgFlask (flaskOf t)
  match u with
  | .mx => s.setF fdFlaskUnitStateMx p 0 (putBits (s.getF fdFlaskUnitStateMx p) (t % 16) (t % 16) on.toNat)
  | .sv => s.setF fdFlaskUnitStateSv p 0 (putBits (s.getF fdFlaskUnitStateSv p) (t % 16) (t % 16) on.toNat)

/-- Bit of a unit in `FlaskState.waking`. -/
def unitBit (t : Nat) (u : TileUnit) : Nat :=
  match u with
  | .mx => t % 16
  | .sv => 16 + t % 16

/-- A unit of an AWAKE flask starts its 120 ns wake, unless it is powered or already waking (R59). -/
def State.startUnitWake (s : State) (t : Nat) (u : TileUnit) : State :=
  let f := flaskOf t
  if s.pstate f = psAwake && !s.unitOn t u && !bitAt (s.flask f).waking (unitBit t u) then
    s.setFlask f { s.flask f with waking := putBits (s.flask f).waking (unitBit t u) (unitBit t u) 1 }
  else s

/-- Every unit of a flask unpowered, and no unit waking (R59). -/
def State.unitsOff (s : State) (f : Nat) : State :=
  ((s.setF fdFlaskUnitStateMx (pgFlask f) 0 0).setF fdFlaskUnitStateSv (pgFlask f) 0 0).setFlask f
    { s.flask f with waking := 0 }

/-- Units whose hold bit is set are powered as the flask becomes AWAKE after a wake (R59). -/
def State.holdUnitsOn (s : State) (f : Nat) : State :=
  (s.setF fdFlaskUnitStateMx (pgFlask f) 0 (s.getF fdFlaskGateHoldMx (pgFlask f))).setF fdFlaskUnitStateSv (pgFlask f) 0
    (s.getF fdFlaskGateHoldSv (pgFlask f))

/-- A sleep entry is aborted (R56, R57): the flask is AWAKE, SLEEP_ABORT is set, and units with a hold bit start to wake. -/
def State.abortSleep (s : State) (f : Nat) : State :=
  let s := (s.setPstate f psAwake).setF fdFlaskPstateSleepAbort (pgFlask f) 0 1
  let w := s.getF fdFlaskGateHoldMx (pgFlask f) + s.getF fdFlaskGateHoldSv (pgFlask f) * 2 ^ 16
  let s := s.setFlask f { s.flask f with waking := w }
  s.trace 58 0xFF f s.now

/-- A wake starts in an ASLEEP flask (R57): always-on slot 5 counts demand wakes and slot 6 prewakes (R537). -/
def State.startWake (s : State) (f : Nat) (demand : Bool) : State :=
  if s.pstate f = psAsleep then
    let s := (s.setPstate f psWaking).count (pgFlask f) (if demand then 5 else 6) 1
    if demand then s.trace 59 0xFF f s.now else s
  else s

/-- An access, counter post or watched write reaches a flask (R56, R57): a sleep entry is aborted, a sleeping flask starts a
demand wake. -/
def State.arrive (s : State) (f : Nat) : State :=
  if s.pstate f = psEntering then s.abortSleep f
  else if s.pstate f = psAsleep then s.startWake f true
  else s

/-- The flask serves accesses: it is AWAKE. -/
def State.serves (s : State) (f : Nat) : Bool := s.pstate f = psAwake

/-- The tile's state is being copied to the spare, so accesses to its store and counters are held (R52). -/
def State.moving (s : State) (t : Nat) : Bool := (s.flask (flaskOf t)).moving = some (t % 16)

/-- An access held at a flask's mesh port. -/
def State.hold (s : State) (f : Nat) (h : Held) : State :=
  let x := s.flask f
  s.setFlask f { x with held := x.held ++ [h], heldSince := if x.held.isEmpty then s.now else x.heldSince }

/-- A flask is fenced or disabled, so that it is not allottable (R53, R549). -/
def State.flaskOut (s : State) (f : Nat) : Bool :=
  s.getF fdFlaskSpareFenced (pgFlask f) = 1 || s.getF fdComCtrlEnable (pgFlask f) = 0

/-! ### Faults of cores -/

/-- A graph node of the running step of context c is to end with FAULT, and the step fails (R33, R242). -/
def State.failNode (s : State) (c n : Nat) : State :=
  let x := s.ctx c
  if x.run.active && !x.run.faulted.contains n then
    s.setCtx c { x with run := { x.run with faulted := x.run.faulted ++ [n], failed := true } }
  else s

/-- The page and event ring unit of a core: a tile's flask page, a PD core's quadrant, a scheduler core's own page (R555). -/
def coreUnit (c : Nat) : Nat × Nat :=
  if c < 4096 then (pgFlask (flaskOf c), 1 + c % 16)
  else if c < 4160 then (pgPdQuad ((c - 4096) / 16), 1 + (c - 4096) % 16)
  else (pgScore (c - 4160), 0)

/-- A core takes a fault exception: the trap, its event on a tile (R557), and, for a bound kernel, the report as a kernel fault with
the kind of refusal (0 address, 1 access, 2 protection, 3 other) that ends the kernel's graph node (R33, R591). -/
def State.coreFault (s : State) (c cause tval kind : Nat) : State :=
  let k := s.core c
  let s := s.trap c cause tval
  let s := if c < 4096 then s.event (coreUnit c).1 (coreUnit c).2 (some 0) 0x0102 cause tval else s
  if k.running && k.user then
    let x := k.ctx.getD 0
    let s := (s.trace 2 x k.node (Config.faultKind kind)).failNode x k.node
    s.setCore c { s.core c with running := false }
  else s

/-- Poisoned data reaches a register of a core (R436): a hardware-error exception, code 19, and a UC with code 0x0030 of the core's
context. -/
def State.poisonFault (s : State) (c addr : Nat) : State :=
  let x := (s.core c).ctx
  let page := if c < 4096 then pgFlask (flaskOf c) else pgPd
  let own := if c < 4096 then x else s.coreOwner (c - 4096)
  (s.coreFault c 19 addr 3).detect page 7
    { code := 0x0030, ctx := own.bind fun n => if h : n < 16 then some ⟨n, h⟩ else none,
      addr := BitVec.ofNat 64 addr }

end Sys2Proof.Machine
end

