-- ==== Sys2Proof/Machine/Counter.lean ====
section
/-! DEFINITION. Sync counters, their wait entries, and watch ranges (R145–R155, R166–R169): the operations that instructions,
firmware and memory writes share. -/
namespace Sys2Proof.Machine

/-- The tile of a counter ID (R146). -/
def counterTile (id : Nat) : Nat := id / 64

/-- A counter. -/
def State.counter (s : State) (id : Nat) : Counter := mapGet {} s.counters id

/-- A counter replaced. -/
def State.setCounter (s : State) (id : Nat) (c : Counter) : State := { s with counters := mapPut {} s.counters id c }

/-- SYNC_MISUSE (R150). -/
def trapSyncMisuse : Nat := 27
/-- COUNTER_OVERFLOW. -/
def trapOverflow : Nat := 25
/-- COUNTER_UNDERFLOW. -/
def trapUnderflow : Nat := 26

/-- `mtval` of a counter fault (R150). -/
def counterTval (id op reason n : Nat) : Nat := id + op * 2 ^ 20 + reason * 2 ^ 24 + n % 2 ^ 32 * 2 ^ 32

/-- A core starts to wait on counter or slot `subject` (R532). -/
def State.waitBegin (s : State) (c subject n : Nat) : State := s.event (coreUnit c).1 (coreUnit c).2 (some 1) 0x0004 subject n

/-- A core's wait on counter or slot `subject` ends (R532): ticks waited, saturating. -/
def State.waitEnd (s : State) (c subject since : Nat) : State :=
  s.event (coreUnit c).1 (coreUnit c).2 (some 1) 0x0005 subject (min (s.now - since) (2 ^ 32 - 1))

/-- A waiting core resumes: its result register is written and it is no longer blocked. -/
def State.resume (s : State) (c rd v : Nat) : State := (s.setX c rd v).block c .none

/-- The entries of one counter satisfied strictly in order (R152): at most `fuel` of them, stopping at the first that cannot be. -/
def State.satisfy (s : State) (id : Nat) : Nat → State
  | 0 => s
  | fuel + 1 =>
    match s.waits.find? fun e => e.id = id with
    | none => s
    | some e =>
      let c := s.counter id
      if e.n ≤ c.value then
        let s := { s with waits := s.waits.erase e }
        let s := (s.setCounter id { c with value := c.value - e.n }).resume e.core e.rd c.value
        let s := s.waitEnd e.core (id % 64) e.since
        s.satisfy id fuel
      else s

/-- A counter's entries judged after its value rose. -/
def State.settle (s : State) (id : Nat) : State := s.satisfy id s.waits.length

/-- Wait entries in use on a tile (R152). -/
def State.waitsOn (s : State) (t : Nat) : Nat := (s.waits.filter fun e => counterTile e.id = t).length

/-- A post of n within the capacity (R148), and the waits it satisfies. -/
def State.counterAdd (s : State) (id n : Nat) : State :=
  let c := s.counter id
  (s.setCounter id { c with value := c.value + n }).settle id

/-- A post by firmware (R228): n within the capacity; one past it changes nothing. -/
def State.firmwarePost (s : State) (id n : Nat) : State :=
  if (s.counter id).cap ≠ 0 && (s.counter id).value + n ≤ (s.counter id).cap then s.counterAdd id n else s

/-- A counter initialised (R148, R154): value and capacity first, then the entries judged in order: withdrawn with SYNC_MISUSE
where the new capacity rules them out, and satisfied from the new value otherwise. -/
def State.counterInit (s : State) (id value cap : Nat) : State :=
  let s := s.setCounter id { value := value, cap := cap }
  let bad := fun (e : WaitEntry) => e.id = id && (cap = 0 || cap < e.n)
  let gone := s.waits.filter bad
  let s := { s with waits := s.waits.filter fun e => !bad e }
  let s := s.forEach gone fun e s =>
    (s.waitEnd e.core (id % 64) e.since).trap e.core trapSyncMisuse (counterTval id 2 (if cap = 0 then 1 else 3) e.n)
  s.settle id

/-- A core's wait entry is withdrawn (R153): it releases its entry, and the entries behind it are judged. -/
def State.withdraw (s : State) (c : Nat) : State :=
  let mine := s.waits.filter fun e => e.core = c
  let s := { s with waits := s.waits.filter fun e => e.core ≠ c }
  s.forEach mine fun e s => (s.waitEnd c (e.id % 64) e.since).settle e.id

/-! ### Watch ranges -/

/-- Armed flask ranges, as (flask, range). -/
def State.armedRanges (s : State) : List (Nat × Nat) :=
  s.regs.filterMap fun (k, v) =>
    let off := k / 64 % 4096
    let page := k / 64 / 4096
    if k % 64 = 31 && page < 256 && 0x208 ≤ off && off < 0x408 && off % 16 = 8 && v = 1 then
      some (page, (off - 0x208) / 16)
    else none

/-- A watch post of 1 to a counter (R167): it never faults; at capacity, a disabled counter included, it sets the range's bit in
WATCH_OVER. -/
def State.watchPostAt (s : State) (f w id : Nat) (level : Bool) : State :=
  let c := s.counter id
  if level && c.value ≠ 0 then s
  else if c.value < c.cap then s.counterAdd id 1
  else
    let p := pgFlask f
    s.setF fdFlaskWatchOver p 0 (putBits (s.getF fdFlaskWatchOver p) w w 1)

/-- A watch post reaches its flask (R57, R167): held while the flask wakes or the tile moves. -/
def State.watchPost (s : State) (f w id : Nat) (level : Bool) : State :=
  let s := s.arrive f
  if s.serves f && !s.moving (counterTile id) then s.watchPostAt f w id level
  else s.hold f (.watchPost f w id level)

/-- Granules of 256 B that both a write and a range cover. -/
def granulesShared (a len base n : Nat) : Nat :=
  ((unitsOf 256 a len).filter fun g => base / 256 ≤ g && g < base / 256 + n).length

/-- The posts of one armed range for a write (R167). -/
def State.rangePosts (s : State) (f w a len : Nat) : State :=
  let p := pgFlask f
  let cfg := s.getF fdFlaskWatchCfg p w
  let n := granulesShared a len (s.getF fdFlaskWatchBase p w) (bits cfg 7 0 + 1)
  let targets := (List.range 16).filter fun t => bitAt (bits cfg 23 8) t
  s.forEach (List.range n) fun _ s =>
    s.forEach targets fun t s => s.watchPost f w ((f * 16 + t) * 64 + bits cfg 29 24) (bitAt cfg 30)

/-- The scheduler events of a write: the PD scheduler ranges it touches (R169). -/
def State.schedPosts (s : State) (a len : Nat) : State :=
  let hit := s.pdWatch.filter fun (_, r) => a < r.base + r.len && r.base < a + len
  { s with schedEvents := s.schedEvents ++ hit.map (·.1) }

/-- A write breaks the reservations of the 8 B units it touches (R36, R187). -/
def State.breakReservations (s : State) (a len : Nat) : State :=
  let hit := s.cores.filter fun (_, k) => k.reservation.any fun r => a < r / 8 * 8 + 8 && r / 8 * 8 < a + len
  s.forEach hit fun (c, k) s => s.setCore c { k with reservation := none }

/-- A write into the PIDX granule of an enabled linkage queue (R204). -/
def State.lsaPoke (s : State) (a len : Nat) : State :=
  let hit := (List.range 16).filter fun q =>
    let g := s.getF fdLsaQPidx pgLsa q
    s.getF fdLsaQEn pgLsa q = 1 && a < g + 256 && g < a + len && !s.lsa.poked.contains q
  { s with lsa := { s.lsa with poked := s.lsa.poked ++ hit } }

/-- A post by firmware or an engine reaches its counter's flask (R57, R228): held while the flask wakes or the tile moves. -/
def State.postTo (s : State) (id n : Nat) : State :=
  let f := flaskOf (counterTile id)
  let s := s.arrive f
  if s.serves f && !s.moving (counterTile id) then s.firmwarePost id n else s.hold f (.post id n)

/-- What an accepted write to local memory does beside the write: every post it makes (R166, R167, R169), and reservations broken;
`a` is its address in the local map. -/
def State.watchWrite (s : State) (a len : Nat) : State :=
  (((s.forEach s.armedRanges fun (f, w) s => s.rangePosts f w a len).schedPosts a len).breakReservations a len).lsaPoke a len

end Sys2Proof.Machine
end

