-- ==== Sys2Proof/Machine/Barrier.lean ====
section
/-! DEFINITION. Barrier slots (R156–R158) and release comparators (R358, R362): what arrivals, releases and firings do. -/
namespace Sys2Proof.Machine

/-! ### Slots -/

/-- Members of a slot. -/
def State.slotMembers (s : State) (f slot : Nat) : Nat := s.getF fdFlaskBarMembers (pgFlask f) slot

/-- Level of a slot: 0 flask, 1 die, 2 package, 3 fabric. -/
def State.slotLevel (s : State) (f slot : Nat) : Nat := s.getF fdFlaskBarLevel (pgFlask f) slot

/-- Generation of a slot. -/
def State.slotGen (s : State) (f slot : Nat) : Nat := s.getF fdFlaskBarGen (pgFlask f) slot

/-- Tiles arrived at a slot in its generation. -/
def State.slotArrived (s : State) (f slot : Nat) : Nat := mapGet 0 s.arrived (f * 8 + slot)

/-- The flasks that a slot's level aggregates (R156): those of the die, or of the package, whose slot has members, the same level and
the same context. -/
def State.slotFlasks (s : State) (f slot : Nat) : List Nat :=
  let lv := s.slotLevel f slot
  if lv = 0 then [f]
  else (List.range 256).filter fun g =>
    g = f || (s.slotMembers g slot ≠ 0 && s.slotLevel g slot = lv && s.flaskOwner g = s.flaskOwner f &&
      (lv ≠ 1 || g / 64 = f / 64))

/-- Every member of every flask of a slot has arrived. -/
def State.slotFull (s : State) (fs : List Nat) (slot : Nat) : Bool :=
  fs.all fun g => s.slotArrived g slot = s.slotMembers g slot

/-- A slot's generation advances in one flask: arrivals start again, and cores blocked in `sy.bwait` resume; a sleeping flask starts a
demand wake. -/
def State.advanceSlot (s : State) (f slot : Nat) : State :=
  let s := s.arrive f
  let g := (s.slotGen f slot + 1) % 2 ^ 32
  let s := s.setF fdFlaskBarGen (pgFlask f) slot g
  let s := { s with arrived := mapPut 0 s.arrived (f * 8 + slot) 0 }
  s.forEach (List.range 16) fun t s =>
    match (s.core (f * 16 + t)).blocked with
    | .bwait b old since => if b = slot && old ≠ g then (s.block (f * 16 + t) .none).waitEnd (f * 16 + t) slot since else s
    | _ => s

/-- A slot releases in every flask it aggregates. -/
def State.releaseSlot (s : State) (fs : List Nat) (slot : Nat) : State := s.forEach fs fun f s => s.advanceSlot f slot

/-! ### Comparators -/

/-- The flask mask of a comparator. -/
def State.relMask (s : State) (k : Nat) : Nat :=
  s.getF fdFtimeRelFlasks0 pgFtime k + s.getF fdFtimeRelFlasks1 pgFtime k * 2 ^ 64 +
    s.getF fdFtimeRelFlasks2 pgFtime k * 2 ^ 128 + s.getF fdFtimeRelFlasks3 pgFtime k * 2 ^ 192

/-- The mask of comparator k names flask f. -/
def State.relNames (s : State) (k f : Nat) : Bool :=
  bitAt (s.getF (match f / 64 with
    | 0 => fdFtimeRelFlasks0
    | 1 => fdFtimeRelFlasks1
    | 2 => fdFtimeRelFlasks2
    | _ => fdFtimeRelFlasks3) pgFtime k) (f % 64)

/-- A comparator's flask mask written. -/
def State.setRelMask (s : State) (k m : Nat) : State :=
  (((s.setF fdFtimeRelFlasks0 pgFtime k m).setF fdFtimeRelFlasks1 pgFtime k (m / 2 ^ 64)).setF fdFtimeRelFlasks2 pgFtime k
    (m / 2 ^ 128)).setF fdFtimeRelFlasks3 pgFtime k (m / 2 ^ 192)

/-- Pilot cores of a flask that are held at their first kernel instruction start (R358). -/
def State.startHeld (s : State) (f : Nat) : State :=
  s.forEach (List.range 16) fun t s =>
    let k := s.core (f * 16 + t)
    if k.heldStart then s.setCore (f * 16 + t) { k with heldStart := false, running := true, user := true } else s

/-- What a comparator does in one flask. -/
def State.relAct (s : State) (k f : Nat) : State :=
  if s.getF fdFtimeRelAction pgFtime k = 1 then s.startHeld f
  else s.advanceSlot f (s.getF fdFtimeRelSlot pgFtime k)

/-- The flask acts at once: it is AWAKE and in no remap pause (R362). -/
def State.relReady (s : State) (f : Nat) : Bool := s.serves f && (s.flask f).moving.isNone

/-- A comparator fires (R358, R362): every masked flask acts; one that cannot acts later. -/
def State.fireRel (s : State) (k : Nat) (late : Bool) : State :=
  let fs := (List.range 256).filter (s.relNames k)
  let now := s.now
  let s := (s.setF fdFtimeRelArm pgFtime k 0).setF fdFtimeRelFired pgFtime k now
  let s := s.event pgFtime 0 (some 0) 0x0161 k late.toNat
  let s := if late then (s.setF fdFtimeRelLate pgFtime k 1).addF fdFtimeLate pgFtime 0 1 else s
  s.forEach fs fun f s =>
    if s.relReady f then s.relAct k f
    else { s with relPending := s.relPending ++ [(k, f)] }

/-- The flask acts for the comparators that fired while it could not, and firmware records LATE_WAKE with the delay (R245, R362). -/
def State.relCatchUp (s : State) (f : Nat) : State :=
  let mine := s.relPending.filter fun x => x.2 = f
  let s := { s with relPending := s.relPending.filter fun x => x.2 ≠ f }
  s.forEach mine fun x s =>
    (s.relAct x.1 f).trace 35 (x.1 / 2) f (s.now - s.getF fdFtimeRelFired pgFtime x.1)

/-- A comparator armed: it fires at once where its time has passed (R362). -/
def State.armRel (s : State) (k : Nat) : State :=
  if s.getF fdFtimeRelTime pgFtime k < s.now then s.fireRel k true else s.setF fdFtimeRelArm pgFtime k 1

end Sys2Proof.Machine
end

