-- ==== Sys2Proof/Machine/PortBase.lean ====
section
/-! DEFINITION. What the fabric die hands to a port (R289–R292, R307): the bytes of a packet, the port of a flow, and the packets
that a direction out of service loses. -/
namespace Sys2Proof.Machine

/-- A port's state beside its page. -/
def State.port (s : State) (p : Nat) : PortLink := mapGet {} s.ports p

/-- A port's state replaced. -/
def State.setPort (s : State) (p : Nat) (l : PortLink) : State := { s with ports := mapPut {} s.ports p l }

/-- `PORT.STATE` (R303). -/
def State.portState (s : State) (p : Nat) : Nat := s.getF fdPortState (pgPort p)

/-- OFF (R303). -/
def psOff : Nat := 0
/-- LASER. -/
def psLaser : Nat := 1
/-- TRAINING. -/
def psTraining : Nat := 2
/-- MISCABLED. -/
def psMiscabled : Nat := 3
/-- UP. -/
def psUp : Nat := 4
/-- SWAPPING. -/
def psSwapping : Nat := 5
/-- RETRAIN. -/
def psRetrain : Nat := 6
/-- DOWN. -/
def psDown : Nat := 7

/-- The port carries traffic: a swap does not take it out of service (R300). -/
def State.portUp (s : State) (p : Nat) : Bool := s.portState p = psUp || s.portState p = psSwapping

/-- Credits of a link's virtual channel: at least one flit (R292, R311). -/
def linkBuffer (vc : Nat) : Nat := Config.linkCredits vc + 1

/-- The other port of a pair (R287). -/
def partner (p : Nat) : Nat := if p % 2 = 0 then p + 1 else p - 1

/-- The port that carries a flow whose hash picks `home` (R289); none: both ports of the pair are out of UP. -/
def State.carrier (s : State) (home : Nat) : Option Nat :=
  if s.portUp home && !(s.port home).moved then some home
  else if s.portUp (partner home) then some (partner home)
  else if s.portUp home then some home
  else none

/-- The 48 B header of R307. -/
def headerBytes (pk : Packet) : List Byte :=
  leBytes 1 (pk.kind.toNat + pk.vc.toNat * 32) ++ leBytes 1 (pk.ovc.toNat + pk.hop.toNat * 8) ++
    leBytes 3 pk.dst.toNat ++ leBytes 3 pk.src.toNat ++ leBytes 4 (pk.job.toNat + pk.gen.toNat * 2 ^ 20) ++
    leBytes 4 pk.seq.toNat ++ leBytes 4 pk.low.toNat ++ leBytes 3 (pk.tagSlot.toNat + pk.tagGen.toNat * 2 ^ 16) ++ [0] ++
    leBytes 5 pk.offset.toNat ++ leBytes 1 (pk.op.toNat + pk.ty.toNat * 16) ++ leBytes 2 pk.mask.toNat ++
    leBytes 12 pk.route.toNat ++ leBytes 2 pk.len.toNat ++ [0, 0]

/-- The packet that 48 header bytes and a payload spell, with its reserved fields checked (R307). -/
def headerPacket (h payload : List Byte) : Packet :=
  let f := fun off n => leField h off n
  { kind := BitVec.ofNat 5 (f 0 1), vc := BitVec.ofNat 3 (f 0 1 / 32), ovc := BitVec.ofNat 3 (f 1 1),
    hop := BitVec.ofNat 5 (f 1 1 / 8), dst := BitVec.ofNat 17 (f 2 3), src := BitVec.ofNat 17 (f 5 3),
    job := BitVec.ofNat 20 (f 8 4), gen := BitVec.ofNat 12 (f 8 4 / 2 ^ 20), seq := BitVec.ofNat 32 (f 12 4),
    low := BitVec.ofNat 32 (f 16 4), tagSlot := BitVec.ofNat 16 (f 20 3), tagGen := BitVec.ofNat 2 (f 20 3 / 2 ^ 16),
    offset := BitVec.ofNat 40 (f 24 5), op := BitVec.ofNat 4 (f 29 1), ty := BitVec.ofNat 4 (f 29 1 / 16),
    mask := BitVec.ofNat 16 (f 30 2), route := BitVec.ofNat 96 (f 32 12), len := BitVec.ofNat 9 (f 44 2),
    payload := payload,
    malformed := f 2 3 / 2 ^ 17 ≠ 0 || f 5 3 / 2 ^ 17 ≠ 0 || f 20 3 / 2 ^ 18 ≠ 0 || f 23 1 ≠ 0 || f 44 2 / 2 ^ 9 ≠ 0 ||
      f 46 2 ≠ 0 }

/-- The pair of a direction code (R314). -/
def codePair (code : Nat) : Nat := if code ≤ 8 then code else code - 6

/-- A packet leaves over route step `hop` (R289, R290): it waits at its flow's port, or is discarded and counted while both ports of
the pair are out of UP. -/
def State.depart (s : State) (pk : Packet) (hop : Nat) : State :=
  let pair := codePair (bits pk.route.toNat (4 * hop + 3) (4 * hop)) % 9
  let home := 2 * pair + (Config.flowHashOdd pk.src.toNat pk.dst.toNat pk.vc.toNat).toNat
  match s.carrier home with
  | none => s.addF fdPortLost (pgPort (2 * pair)) 0 1
  | some p =>
    let pk := { pk with hop := BitVec.ofNat 5 (hop + 1) }
    let l := s.port p
    let w : LinkPacket := { vc := pk.vc.toNat, home := home, left := headerBytes pk ++ pk.payload, since := s.now }
    (s.setPort p { l with queue := l.queue ++ [w] }).emit (.packet pk)

end Sys2Proof.Machine
end

