-- ==== Sys2Proof/Machine/EcrokBase.lean ====
section
/-! DEFINITION. Sending on the fabric (R304–R319, R324): windows, routes, flows, tag slots and responses. -/
namespace Sys2Proof.Machine

/-- READ (R308). -/
def kREAD : Nat := 0x01
/-- WRITE. -/
def kWRITE : Nat := 0x02
/-- ATOMIC. -/
def kATOMIC : Nat := 0x03
/-- ATOMIC_F. -/
def kATOMICF : Nat := 0x04
/-- MSG. -/
def kMSG : Nat := 0x05
/-- RUPDATE. -/
def kRUPDATE : Nat := 0x06
/-- LOWMARK. -/
def kLOWMARK : Nat := 0x07
/-- RESP_DATA. -/
def kRESPDATA : Nat := 0x10
/-- RESP_ACK. -/
def kRESPACK : Nat := 0x11
/-- Coherence (R331). -/
def kCOH : Nat := 0x18
/-- MGMT (R515). -/
def kMGMT : Nat := 0x1E

/-- REQ (R311). -/
def vcREQ : Nat := 0
/-- RSP. -/
def vcRSP : Nat := 1
/-- COH. -/
def vcCOH : Nat := 2
/-- COLL. -/
def vcCOLL : Nat := 3
/-- QUICK. -/
def vcQUICK : Nat := 4
/-- MGMT channel. -/
def vcMGMT : Nat := 5
/-- TRANSIT. -/
def vcTRANSIT : Nat := 6
/-- DRAIN. -/
def vcDRAIN : Nat := 7

/-- Status codes of R310. -/
def stOK : Nat := 0
/-- POISON_DATA. -/
def stPOISON : Nat := 1
/-- ACCESS. -/
def stACCESS : Nat := 2
/-- PROTECT. -/
def stPROTECT : Nat := 3
/-- ADDRESS. -/
def stADDRESS : Nat := 4
/-- BUSY. -/
def stBUSY : Nat := 5
/-- TARGET_DEAD. -/
def stDEAD : Nat := 6
/-- DUP. -/
def stDUP : Nat := 7

/-- Own node field (R305). -/
def State.nodeId (s : State) : Nat := s.getF fdEcrokNodeId pgEcrok

/-- The identity is set (R305). -/
def State.nodeIdValid (s : State) : Bool := s.getF fdEcrokNodeIdValid pgEcrok = 1

/-- X, Y, Z and W of a node field (R304). -/
def nodeX (n : Nat) : Nat := bits n 6 2
/-- Y. -/
def nodeY (n : Nat) : Nat := bits n 11 7
/-- Z. -/
def nodeZ (n : Nat) : Nat := bits n 16 12
/-- W. -/
def nodeW (n : Nat) : Nat := bits n 1 0

/-- Two nodes share a tray. -/
def sameTray (a b : Nat) : Bool := a / 4 = b / 4

/-! ### Windows (R315, R316) -/

/-- A window entry is in use for a context and class and covers every byte of an access to a node. -/
def windowCovers (e ctx cls node off len : Nat) : Bool :=
  bitAt e 143 && bits e 139 136 = ctx && bits e 119 116 = cls &&
    bits e 39 0 ≤ off && off + len ≤ bits e 79 40 &&
    bits e 84 80 ≤ nodeZ node && nodeZ node ≤ bits e 89 85 &&
    bits e 94 90 ≤ nodeY node && nodeY node ≤ bits e 99 95 &&
    bits e 104 100 ≤ nodeX node && nodeX node ≤ bits e 109 105 &&
    bitAt (bits e 115 112) (nodeW node)

/-- The window table in ascending entry order. -/
def State.windowList (s : State) : List Nat := s.ecrok.windows.map (·.2)

/-- The channel of the first entry that decides a request with permission bit `perm`; none: refused (R316). -/
def State.windowDecide (s : State) (ctx cls node off len perm : Nat) : Option Nat :=
  match s.windowList.find? fun e => windowCovers e ctx cls node off len with
  | some e => if bitAt (bits e 124 120) perm then some (bits e 130 128) else none
  | none => none

/-- The permission bit that a request kind needs (R315, R316). -/
def permOf (kind : Nat) : Nat :=
  if kind = kREAD then 0 else if kind = kWRITE then 1
  else if kind = kATOMIC || kind = kATOMICF then 2
  else if kind = kMSG then 3 else 4

/-! ### Routes (R314, R317) -/

/-- The route to a node field; the own node has a route of zero hops (R306). -/
def State.routeTo (s : State) (node : Nat) : Option Nat :=
  if node = s.nodeId then some (2 ^ 96 - 1)
  else match mapGet 0 s.ecrok.routes node with
    | 0 => none
    | r + 1 => some r

/-- Steps of a route before 0xF; 24 where it never ends (R314). -/
def routeLen (r : Nat) : Nat → Nat
  | 0 => 0
  | n + 1 => if r % 16 = 0xF then 0 else 1 + routeLen (r / 16) n

/-- Hops of a route. -/
def hops (r : Nat) : Nat := routeLen r 24

/-- The fabric die of a flow: that of the port its hash picks (R17, R289). -/
def flowDie (src dst vc : Nat) : Nat := (Config.flowHashOdd src dst vc).toNat

/-! ### Flows and tags (R319, R324) -/

/-- The key of a flow. -/
def flowKey (node vc : Nat) : Nat := node * 8 + vc

/-- The tag slots in use, as (key, slot). -/
def State.liveTags (s : State) : List (Nat × TagSlot) := s.ecrok.tags.filter fun t => t.2.active

/-- The outstanding requests of a sent flow. -/
def State.flowTags (s : State) (dst vc : Nat) : List (Nat × TagSlot) :=
  s.liveTags.filter fun t => t.2.pk.dst.toNat = dst && t.2.pk.ovc.toNat = vc

/-- How far SEQ `a` lies behind the flow's next SEQ `n`, modulo 2³². -/
def seqBehind (n a : Nat) : Nat := (n + 2 ^ 32 - a) % 2 ^ 32

/-- LOW of a sent flow: its lowest outstanding SEQ, or the next SEQ where none is outstanding (R307). -/
def State.flowLow (s : State) (dst vc : Nat) : Nat :=
  let n := mapGet 0 s.ecrok.outNext (flowKey dst vc)
  let far := (s.flowTags dst vc).foldl (fun a t => max a (seqBehind n t.2.pk.seq.toNat)) 0
  (n + 2 ^ 32 - far) % 2 ^ 32

/-- The first free tag slot of a die. -/
def State.freeTag (s : State) (die : Nat) : Nat :=
  let used := s.liveTags.map (·.1)
  ((List.range (used.length + 1)).find? fun i => !used.contains (die * 65536 + i)).getD 0

/-- A tag slot. -/
def State.tag (s : State) (k : Nat) : TagSlot := mapGet {} s.ecrok.tags k

/-- A tag slot replaced. -/
def State.setTag (s : State) (k : Nat) (t : TagSlot) : State :=
  { s with ecrok := { s.ecrok with tags := mapPut {} s.ecrok.tags k t } }

/-- A packet leaves for its destination over the first step of its route, or is looped back inside the fabric die where the
destination is the node itself (R306). -/
def State.send (s : State) (pk : Packet) : State :=
  if pk.dst.toNat = s.nodeId then { s with ecrok := { s.ecrok with loop := s.ecrok.loop ++ [pk] } }
  else s.depart pk 0

/-- A checked request is sent: the next SEQ of its flow, a tag slot, the current LOW, and always-on slot 0 of ECROK; or it stalls
while 4,096 requests of the flow are outstanding (R319, R324). -/
def State.sendRequest (s : State) (ctx : Nat) (origin : Origin) (pk : Packet) : State :=
  let dst := pk.dst.toNat
  let vc := pk.ovc.toNat
  if 4096 ≤ (s.flowTags dst vc).length then
    { s with ecrok := { s.ecrok with stalled := s.ecrok.stalled ++ [⟨ctx, origin, pk⟩] } }
  else
    let k := flowKey dst vc
    let seq := mapGet 0 s.ecrok.outNext k
    let die := flowDie s.nodeId dst vc
    let slot := s.freeTag die
    let gen := (s.tag (die * 65536 + slot)).gen
    let pk := { pk with
      seq := BitVec.ofNat 32 seq, tagSlot := BitVec.ofNat 16 slot, tagGen := BitVec.ofNat 2 gen }
    let s := s.setTag (die * 65536 + slot) { active := true, gen := gen, pk := pk, ctx := ctx, origin := origin, since := s.now }
    let s := { s with ecrok := { s.ecrok with outNext := mapPut 0 s.ecrok.outNext k ((seq + 1) % 2 ^ 32) } }
    let low := s.flowLow dst vc
    let pk := { pk with low := BitVec.ofNat 32 low }
    let s := { s with ecrok := { s.ecrok with
      outLow := mapPut 0 s.ecrok.outLow k low
      outJob := mapPut 0 s.ecrok.outJob k (pk.job.toNat + pk.gen.toNat * 2 ^ 20) } }
    let s := s.setTag (die * 65536 + slot) { active := true, gen := gen, pk := pk, ctx := ctx, origin := origin, since := s.now }
    (s.send pk).count pgEcrok 0 1

/-- Why a request never leaves the node. -/
inductive Refused where
  /-- An address fault (R304, R305). -/
  | address
  /-- An access fault or ACCESS (R316). -/
  | access
  /-- A protection fault or PROTECT (R265). -/
  | protect
  /-- No route: completes as if the target were dead (R317). -/
  | dead
  deriving DecidableEq, Repr

/-- The header of a request of context c (R307). -/
def State.requestPacket (s : State) (c kind node off len vc route : Nat) : Packet :=
  { kind := BitVec.ofNat 5 kind, vc := BitVec.ofNat 3 vc, ovc := BitVec.ofNat 3 vc, dst := BitVec.ofNat 17 node,
    src := BitVec.ofNat 17 s.nodeId, job := BitVec.ofNat 20 (s.ctx c).job, gen := BitVec.ofNat 12 (s.ctx c).gen,
    offset := BitVec.ofNat 40 off, len := BitVec.ofNat 9 len, route := BitVec.ofNat 96 route }

/-- A request of context c to a node: identity, window and route checks, then sending (R304–R306, R316, R317, R319). `f` completes
the header with the kind's own fields. -/
def State.issue (s : State) (c cls kind node off len : Nat) (origin : Origin) (f : Packet → Packet) :
    Except Refused State :=
  if !s.nodeIdValid then .error .address
  else match s.windowDecide c cls node off len (permOf kind) with
    | none => .error .access
    | some vc =>
      match s.routeTo node with
      | none => .error .dead
      | some r => .ok (s.sendRequest c origin (f (s.requestPacket c kind node off len vc r)))

/-! ### Responses -/

/-- A response to a request (R308, R310): on RSP, echoing job, generation and tag; always-on slot 2 of ECROK. -/
def State.respond (s : State) (rq : Packet) (kind status : Nat) (data : List Byte) : State :=
  let pk : Packet :=
    { kind := BitVec.ofNat 5 kind, vc := BitVec.ofNat 3 vcRSP, ovc := BitVec.ofNat 3 vcRSP, dst := rq.src, src := rq.dst,
      job := rq.job, gen := rq.gen, tagSlot := rq.tagSlot, tagGen := rq.tagGen, offset := rq.offset,
      op := rq.op, ty := rq.ty, mask := BitVec.ofNat 16 status,
      route := BitVec.ofNat 96 ((s.routeTo rq.src.toNat).getD (2 ^ 96 - 1)),
      len := BitVec.ofNat 9 data.length, payload := data }
  let s := (s.send pk).count pgEcrok 2 1
  if status % 256 = stBUSY then (s.addF fdEcrokCntBusy pgEcrok 0 1).count pgEcrok 5 1 else s

/-- A READ or ATOMIC_F is answered and its answer kept for duplicates (R321). -/
def State.respondKept (s : State) (die : Nat) (rq : Packet) (status : Nat) (data : List Byte) : State :=
  let e : ReplyEntry := { die := die, src := rq.src.toNat, vc := rq.ovc.toNat, job := rq.job.toNat,
                          seq := rq.seq.toNat, status := status, data := data, since := s.now }
  let s := { s with ecrok := { s.ecrok with replies := s.ecrok.replies ++ [e] } }
  s.respond rq kRESPDATA status data

end Sys2Proof.Machine
end

