-- ==== Sys2Proof/Machine/Flags.lean ====
section
/-! DEFINITION. Number formats, the one rounding and the flags (R62–R69, R74–R81, R84): exact values, rounding to nearest with
ties to even, and the flag word of every result. -/
namespace Sys2Proof.Machine

/-! ### Flags (R84) -/

/-- NX, inexact. -/
def flNX : Nat := 1
/-- UF, underflow. -/
def flUF : Nat := 2
/-- OF, overflow. -/
def flOF : Nat := 4
/-- DZ, divide by zero. -/
def flDZ : Nat := 8
/-- NV, invalid. -/
def flNV : Nat := 16
/-- SAT, clamped to a finite bound. -/
def flSAT : Nat := 32

/-- A result and its flags. -/
abbrev Res := Nat × Nat

/-! ### Floating-point formats (R66) -/

/-- What the top encodings of a format hold. -/
inductive TopCodes where
  /-- Infinities and NaNs in the top exponent. -/
  | ieee
  /-- One NaN per sign, no infinity (E4M3). -/
  | nanOnly
  /-- Finite values only. -/
  | finite
  deriving DecidableEq, Repr

/-- A floating-point format: exponent bits, significand bits, bias. -/
structure Fmt where
  ebits : Nat
  mbits : Nat
  bias : Nat
  top : TopCodes
  deriving DecidableEq, Repr

/-- FP64. -/
def fmtFP64 : Fmt := ⟨11, 52, 1023, .ieee⟩
/-- FP32. -/
def fmtFP32 : Fmt := ⟨8, 23, 127, .ieee⟩
/-- FP16. -/
def fmtFP16 : Fmt := ⟨5, 10, 15, .ieee⟩
/-- BF16. -/
def fmtBF16 : Fmt := ⟨8, 7, 127, .ieee⟩
/-- E4M3. -/
def fmtE4M3 : Fmt := ⟨4, 3, 7, .nanOnly⟩
/-- E5M2. -/
def fmtE5M2 : Fmt := ⟨5, 2, 15, .ieee⟩
/-- E3M2. -/
def fmtE3M2 : Fmt := ⟨3, 2, 3, .finite⟩
/-- E2M3. -/
def fmtE2M3 : Fmt := ⟨2, 3, 1, .finite⟩
/-- E2M1. -/
def fmtE2M1 : Fmt := ⟨2, 1, 1, .finite⟩

/-- Total bits of a format. -/
def Fmt.width (f : Fmt) : Nat := 1 + f.ebits + f.mbits

/-- Exponent of the least significant bit of a subnormal. -/
def Fmt.qmin (f : Fmt) : Int := 1 - (f.bias : Int) - f.mbits

/-- Largest exponent field that holds finite values. -/
def Fmt.topField (f : Fmt) : Nat :=
  match f.top with
  | .ieee => 2 ^ f.ebits - 2
  | _ => 2 ^ f.ebits - 1

/-- Largest significand (with its leading one) under the largest exponent field. -/
def Fmt.topSig (f : Fmt) : Nat :=
  match f.top with
  | .nanOnly => 2 ^ (f.mbits + 1) - 2
  | _ => 2 ^ (f.mbits + 1) - 1

/-- Encoding of the largest finite magnitude (R66). -/
def Fmt.maxBits (f : Fmt) : Nat := f.topField * 2 ^ f.mbits + (f.topSig - 2 ^ f.mbits)

/-- The sign bit. -/
def Fmt.signBit (f : Fmt) (neg : Bool) : Nat := neg.toNat * 2 ^ (f.ebits + f.mbits)

/-- Encoding of an infinity. -/
def Fmt.infBits (f : Fmt) (neg : Bool) : Nat := f.signBit neg + (2 ^ f.ebits - 1) * 2 ^ f.mbits

/-- The canonical NaN (R68). -/
def Fmt.nanBits (f : Fmt) : Nat :=
  match f.top with
  | .nanOnly => (2 ^ f.ebits - 1) * 2 ^ f.mbits + (2 ^ f.mbits - 1)
  | _ => (2 ^ f.ebits - 1) * 2 ^ f.mbits + 2 ^ (f.mbits - 1)

/-- A decoded value: a finite one is `(-1)^neg * m * 2^e`. -/
inductive FVal where
  | nan (signalling : Bool)
  | inf (neg : Bool)
  | fin (neg : Bool) (m : Nat) (e : Int)
  deriving DecidableEq, Repr

/-- The value an encoding holds (R64, R66, R67). -/
def Fmt.decode (f : Fmt) (b : Nat) : FVal :=
  let neg := bitAt b (f.ebits + f.mbits)
  let ef := bits b (f.ebits + f.mbits - 1) f.mbits
  let m := b % 2 ^ f.mbits
  if f.top = .ieee && ef = 2 ^ f.ebits - 1 then
    if m = 0 then .inf neg else .nan (!bitAt m (f.mbits - 1))
  else if f.top = .nanOnly && ef = 2 ^ f.ebits - 1 && m = 2 ^ f.mbits - 1 then .nan false
  else if ef = 0 then .fin neg m f.qmin
  else .fin neg (m + 2 ^ f.mbits) ((ef : Int) - 1 + f.qmin)

/-- `2^k` of an integer exponent cut at 0. -/
def pow2 (k : Int) : Nat := 2 ^ k.toNat

/-- A magnitude `m * 2^e` (plus less than one unit of `m` when `sticky`) rounded to a multiple of `2^t` to nearest, ties to even
(R62): the multiple and whether the rounding changed the value. -/
def rne (m : Nat) (e t : Int) (sticky : Bool) : Nat × Bool :=
  if t ≤ e then (m * pow2 (e - t), sticky)
  else
    let d := pow2 (t - e)
    let q := m / d
    let r := m % d
    let up := d < 2 * r || (2 * r = d && (sticky || q % 2 = 1))
    (q + up.toNat, r ≠ 0 || sticky)

/-- The encoding of a significand and exponent that fit the format. -/
def Fmt.encode (f : Fmt) (neg : Bool) (q : Nat) (te : Int) : Nat :=
  if q < 2 ^ f.mbits then f.signBit neg + q
  else if q = 2 ^ (f.mbits + 1) then f.signBit neg + (te + 2 - f.qmin).toNat * 2 ^ f.mbits
  else f.signBit neg + (te + 1 - f.qmin).toNat * 2 ^ f.mbits + (q - 2 ^ f.mbits)

/-- Largest finite magnitude as `m * 2^e`. -/
def Fmt.topExp (f : Fmt) : Int := (f.topField : Int) - 1 + f.qmin

/-- The result of an overflow (R69); `mx` for an element of an MX block. -/
def Fmt.overflow (f : Fmt) (neg sat mx : Bool) : Res :=
  if mx || f.top = .finite then (f.signBit neg + f.maxBits, flSAT + flNX)
  else if f.top = .nanOnly then
    if sat then (f.signBit neg + f.maxBits, flSAT + flNX) else (f.nanBits, flOF + flNX)
  else (f.infBits neg, flOF + flNX)

/-- An exact magnitude rounded into a format (R62, R64, R65, R69): result and flags. -/
def Fmt.round (f : Fmt) (neg : Bool) (m : Nat) (e : Int) (sticky : Bool := false) (sat : Bool := false)
    (mx : Bool := false) : Res :=
  if m = 0 && !sticky then (f.signBit neg, 0)
  else
    let l : Int := (Nat.log2 m : Int) + e
    let t := l - f.mbits
    let te := max t f.qmin
    let (q, inexact) := rne m e te sticky
    let tooBig := f.topExp < te || (te = f.topExp && f.topSig < q)
    let emin := f.qmin + f.mbits
    let (qu, _) := rne m e t sticky
    let tiny := l < emin && !(l = emin - 1 && qu = 2 ^ (f.mbits + 1))
    if tooBig then f.overflow neg sat mx
    else (f.encode neg q te, inexact.toNat * flNX + (inexact && tiny).toNat * flUF)

/-- A NaN result: canonical, NV for a signalling input (R68). -/
def Fmt.nanRes (f : Fmt) (signalling : Bool) : Res := (f.nanBits, signalling.toNat * flNV)

/-- An invalid operation (R68). -/
def Fmt.invalid (f : Fmt) : Res := (f.nanBits, flNV)

/-- A value is a signalling NaN. -/
def FVal.isSnan : FVal → Bool
  | .nan s => s
  | _ => false

/-- A value is a NaN. -/
def FVal.isNan : FVal → Bool
  | .nan _ => true
  | _ => false

/-- The sign of a value; a NaN counts as positive. -/
def FVal.neg : FVal → Bool
  | .nan _ => false
  | .inf n => n
  | .fin n _ _ => n

/-- A value is a zero. -/
def FVal.isZero : FVal → Bool
  | .fin _ m _ => m = 0
  | _ => false

/-- A signed significand. -/
def signed (neg : Bool) (m : Nat) : Int := if neg then -(m : Int) else m

/-- An exact sum `a * 2^ea + b * 2^eb`: significand and exponent. -/
def exactAdd (a : Int) (ea : Int) (b : Int) (eb : Int) : Int × Int :=
  let e := min ea eb
  (a * pow2 (ea - e) + b * pow2 (eb - e), e)

/-- A signed exact value rounded; an exact zero takes the sign given. -/
def Fmt.roundInt (f : Fmt) (z : Int) (e : Int) (zeroNeg : Bool) : Res :=
  if z = 0 then (f.signBit zeroNeg, 0) else f.round (z < 0) z.natAbs e

/-- Sum of two values (R127). -/
def Fmt.addV (f : Fmt) (x y : FVal) : Res :=
  match x, y with
  | .nan a, y => f.nanRes (a || y.isSnan)
  | x, .nan b => f.nanRes (b || x.isSnan)
  | .inf a, .inf b => if a = b then (f.infBits a, 0) else f.invalid
  | .inf a, _ => (f.infBits a, 0)
  | _, .inf b => (f.infBits b, 0)
  | .fin a m e, .fin b n d =>
    let (z, t) := exactAdd (signed a m) e (signed b n) d
    f.roundInt z t (a && b && m = 0 && n = 0)

/-- Product of two values. -/
def Fmt.mulV (f : Fmt) (x y : FVal) : Res :=
  match x, y with
  | .nan a, y => f.nanRes (a || y.isSnan)
  | x, .nan b => f.nanRes (b || x.isSnan)
  | .inf a, y => if y.isZero then f.invalid else (f.infBits (a != y.neg), 0)
  | x, .inf b => if x.isZero then f.invalid else (f.infBits (x.neg != b), 0)
  | .fin a m e, .fin b n d => f.round (a != b) (m * n) (e + d)

/-- Fused multiply-add `x * y + z`, rounded once; 0 × ∞ raises NV whatever the addend (R68). -/
def Fmt.fmaV (f : Fmt) (x y z : FVal) : Res :=
  let bad := (x.isZero && y matches .inf _) || (x matches .inf _ && y.isZero)
  if x.isNan || y.isNan || z.isNan then f.nanRes (x.isSnan || y.isSnan || z.isSnan || bad)
  else if bad then f.invalid
  else
    match x, y, z with
    | .fin a m e, .fin b n d, .fin c k g =>
      let (v, t) := exactAdd (signed (a != b) (m * n)) (e + d) (signed c k) g
      f.roundInt v t ((a != b) && c && m * n = 0 && k = 0)
    | .fin _ _ _, .fin _ _ _, .inf c => (f.infBits c, 0)
    | x, y, .inf c => if (x.neg != y.neg) = c then (f.infBits c, 0) else f.invalid
    | x, y, _ => (f.infBits (x.neg != y.neg), 0)

/-- Quotient of two values, correctly rounded (R127). -/
def Fmt.divV (f : Fmt) (x y : FVal) : Res :=
  match x, y with
  | .nan a, y => f.nanRes (a || y.isSnan)
  | x, .nan b => f.nanRes (b || x.isSnan)
  | .inf _, .inf _ => f.invalid
  | .inf a, y => (f.infBits (a != y.neg), 0)
  | x, .inf b => (f.signBit (x.neg != b), 0)
  | .fin a m e, .fin b n d =>
    if n = 0 then if m = 0 then f.invalid else (f.infBits (a != b), flDZ)
    else if m = 0 then (f.signBit (a != b), 0)
    else
      let k := f.mbits + 3 + Nat.log2 n
      f.round (a != b) (m * 2 ^ k / n) (e - d - k) (m * 2 ^ k % n ≠ 0)

/-- The largest `r` with `r² ≤ n`, found bit by bit from bit `k - 1` down. -/
def isqrt (n : Nat) : Nat → Nat → Nat
  | 0, r => r
  | k + 1, r => if (r + 2 ^ k) * (r + 2 ^ k) ≤ n then isqrt n k (r + 2 ^ k) else isqrt n k r

/-- Square root, correctly rounded (R127). -/
def Fmt.sqrtV (f : Fmt) (x : FVal) : Res :=
  match x with
  | .nan a => f.nanRes a
  | .inf a => if a then f.invalid else (f.infBits false, 0)
  | .fin a m e =>
    if m = 0 then (f.signBit a, 0)
    else if a then f.invalid
    else
      let k : Int := 2 * f.mbits + 8
      let k := if (e - k) % 2 = 0 then k else k + 1
      let n := m * pow2 k
      let r := isqrt n (Nat.log2 n / 2 + 1) 0
      f.round false r ((e - k) / 2) (r * r ≠ n)

/-- Order of two finite or infinite values. -/
def FVal.lt (x y : FVal) : Bool :=
  match x, y with
  | .inf a, .inf b => a && !b
  | .inf a, .fin _ _ _ => a
  | .fin _ _ _, .inf b => !b
  | .fin a m e, .fin b n d =>
    let t := min e d
    signed a m * pow2 (e - t) < signed b n * pow2 (d - t)
  | _, _ => false

/-- Equality of two finite or infinite values. -/
def FVal.eq (x y : FVal) : Bool := !x.isNan && !y.isNan && !x.lt y && !y.lt x

/-- A value encoded back, exact (its format is the one it was decoded from, NaNs canonical). -/
def Fmt.ofVal (f : Fmt) (x : FVal) (sat : Bool := false) : Res :=
  match x with
  | .nan s => f.nanRes s
  | .inf a => (f.infBits a, 0)
  | .fin a m e => f.round a m e false sat

/-! ### Conversions (R69, R76) -/

/-- A value converted into a format (R69). -/
def Fmt.convert (f : Fmt) (x : FVal) (sat : Bool) : Res :=
  match x with
  | .fin a m e => f.round a m e false sat
  | .inf a =>
    match f.top with
    | .ieee => (f.infBits a, 0)
    | .nanOnly => if sat then (f.signBit a + f.maxBits, flSAT) else (f.nanBits, flNV)
    | .finite => (f.signBit a + f.maxBits, flNV)
  | .nan s =>
    match f.top with
    | .ieee => f.nanRes s
    | .nanOnly => f.nanRes s
    | .finite => (0, flNV)

/-- The least and greatest value of an integer type. -/
def intRange (w : Nat) (sgn : Bool) : Int × Int :=
  if sgn then (-(2 ^ (w - 1) : Nat), (2 ^ (w - 1) : Nat) - 1) else (0, (2 ^ w : Nat) - 1)

/-- An integer clamped to a type, with the flag of the clamp. -/
def clampInt (w : Nat) (sgn : Bool) (z : Int) (flag : Nat) : Res :=
  let (lo, hi) := intRange w sgn
  if z < lo then (wrapTo w lo, flag) else if hi < z then (wrapTo w hi, flag) else (wrapTo w z, 0)

/-- Float to integer (R69, R76): rounded to nearest even, clamped with NV. -/
def toInt (w : Nat) (sgn : Bool) (x : FVal) : Res :=
  match x with
  | .nan _ => (0, flNV)
  | .inf a =>
    let (lo, hi) := intRange w sgn
    (wrapTo w (if a then lo else hi), flNV)
  | .fin a m e =>
    let (q, inexact) := rne m e 0 false
    let (r, fl) := clampInt w sgn (signed a q) flNV
    (r, if fl = 0 then inexact.toNat * flNX else fl)

/-- Integer to float (R62). -/
def Fmt.ofInt (f : Fmt) (z : Int) (sat : Bool := false) : Res := f.round (z < 0) z.natAbs 0 false sat

/-- `RNE(x * 2^-s)` of an integer (R76). -/
def rneShift (z : Int) (s : Nat) : Int × Bool :=
  let (q, inexact) := rne z.natAbs 0 s false
  (signed (z < 0) q, inexact)

/-- Integer narrowing with scale (R76): rounded, then clamped with SAT. -/
def narrowInt (w : Nat) (sgn : Bool) (z : Int) (s : Nat) : Res :=
  let (q, inexact) := rneShift z s
  let (r, fl) := clampInt w sgn q flSAT
  (r, fl + inexact.toNat * flNX)

/-! ### XP128 (R77–R81) -/

/-- NaR (R78). -/
def xpNaR : Nat := 2 ^ 127

/-- An XP128 integer from a sum or placement: NaR with OF outside ±(2¹²⁷ − 1) (R79, R80). -/
def xpOfInt (z : Int) : Res :=
  if (2 ^ 127 : Nat) ≤ z.natAbs then (xpNaR, flOF) else (wrapTo 128 z, 0)

/-- Exact sum of two XP128 elements (R78, R79). -/
def xpAdd (a b : Nat) : Res :=
  if a = xpNaR || b = xpNaR then (xpNaR, 0) else xpOfInt (signedOf 128 a + signedOf 128 b)

/-- A float placed at block exponent E (R69, R80). -/
def xpOfFloat (x : FVal) (ex : Int) : Res :=
  match x with
  | .fin a m e =>
    let (q, inexact) := rne m e ex false
    let (r, fl) := xpOfInt (signed a q)
    (r, fl + inexact.toNat * flNX)
  | _ => (xpNaR, flNV)

/-- A rebase from exponent E to E′ (R80). -/
def xpRebase (a : Nat) (ex ex' : Int) : Res :=
  if a = xpNaR then (xpNaR, 0)
  else
    let z := signedOf 128 a
    let (q, inexact) := rne z.natAbs ex ex' false
    let (r, fl) := xpOfInt (signed (z < 0) q)
    (r, fl + inexact.toNat * flNX)

/-- XP128 to a float (R78, R81). -/
def Fmt.ofXp (f : Fmt) (a : Nat) (ex : Int) : Res :=
  if a = xpNaR then f.invalid
  else
    let z := signedOf 128 a
    f.round (z < 0) z.natAbs ex

/-- A NaN or number of FP32 or FP64, and so on, by its bits: IEEE minimum (R127: `minimumNumber` or `minimum` as the chapter says). -/
def Fmt.isZeroBits (f : Fmt) (b : Nat) : Bool := b % 2 ^ (f.ebits + f.mbits) = 0

end Sys2Proof.Machine
end

