-- ==== Sys2Proof/Machine/Memory.lean ====
section
/-! DEFINITION. The memory system (R252–R274): source checks, sluices, checkpoint holds, the home agents' coherence, line merging
and the atomic ALU, shared by every access to HBM. -/
namespace Sys2Proof.Machine

/-! ### Source identity (R264) -/

/-- The contexts on whose behalf a source acts; none for firmware agents. -/
def State.srcCtxs (s : State) : Source → Option (List Nat)
  | .tile t => if (s.core t.val).user then some (s.core t.val).ctx.toList else none
  | .pd k => (s.coreOwner k.val).map fun c => [c]
  | .sched _ => none
  | .engine c => some [c.val]
  | .fabric job =>
    if job = 0 then none else some (allCtxs.filter fun c => (s.ctx c).isOpen && (s.ctx c).job = job.toNat)
  | .qp i =>
    let x := mapGet {} s.qps i.val
    if x.kind = 2 then some [x.owner] else none
  | .firmware => none

/-- Polder p holds an offset (R262); its base and size count GiB. -/
def State.inPolder (s : State) (p off : Nat) : Bool :=
  let b := s.getF fdMemmapPolderBase pgMemmap p
  b ≤ off / 2 ^ 30 && off / 2 ^ 30 < b + s.getF fdMemmapPolderSize pgMemmap p

/-- The polder that holds an offset. -/
def State.polderOf (s : State) (off : Nat) : Option Nat := (List.range 16).find? fun p => s.inPolder p off

/-- A source may reach an offset (R264). -/
def State.mayReach (s : State) (src : Source) (off : Nat) : Bool :=
  match s.polderOf off, s.srcCtxs src with
  | none, _ => false
  | some _, none => true
  | some p, some cs => p ≠ 15 && cs.any fun c => bitAt (s.ctx c).polders p

/-- L: bytes of a piece (R411). -/
def CkptDesc.pieceLen (d : CkptDesc) : Nat :=
  let units := (d.ranges.map fun r => r.2.1).foldl (· + ·) 0
  (units + d.k - 1) / max d.k 1 * 65536

/-- Bytes of a peer store slot (R412, R421). -/
def CkptDesc.slotLen (d : CkptDesc) : Nat := (d.k + d.m) * (d.pieceLen + 8192)

/-- A range lies in a peer store slot that a drain holds, and its writer is a fabric source: the holder discards a shard that arrives
for it (R421). -/
def State.drainLock (s : State) (src : Source) (off len : Nat) : Bool :=
  match src with
  | .fabric _ => s.ckpts.any fun (_, r) => r.draining.any fun sl =>
      let n := r.desc.slotLen
      off < r.desc.pstore + sl * n + n && r.desc.pstore + sl * n < off + len
  | _ => false

/-- A valid write-protect entry of a context of the source covers part of a range (R265). -/
def State.protectedFrom (s : State) (src : Source) (off len : Nat) : Bool :=
  match s.srcCtxs src with
  | none => false
  | some cs =>
    (s.hbm.wp.any fun e =>
      e.2.valid && cs.contains e.2.ctx && off < e.2.base + e.2.len * 256 && e.2.base < off + len) ||
      (s.drainLock src off len)

/-- Why the memory system refuses a request (R253, R264, R265). -/
def State.hbmRefusal (s : State) (rq : HbmReq) : Option Refused :=
  if s.getF fdMemmapTop pgMemmap < rq.off + rq.len then some .address
  else if !(s.mayReach rq.src rq.off && s.mayReach rq.src (rq.off + rq.len - 1)) then some .access
  else if rq.kind ≠ 0 && s.protectedFrom rq.src rq.off rq.len then some .protect
  else none

/-- The status of a refusal (R310). -/
def refusedStatus : Refused → Nat
  | .address => stADDRESS
  | .access => stACCESS
  | .protect => stPROTECT
  | .dead => stDEAD

/-- The kind of a refusal in ARG1 of KERNEL_FAULT (R591). -/
def refusedKind : Refused → Nat
  | .address => 0
  | .access => 1
  | .protect => 2
  | .dead => 1

/-- The core index of a source that is a core. -/
def sourceCore : Source → Option Nat
  | .tile t => some t.val
  | .pd k => some (4096 + k.val)
  | .sched k => some (4160 + k.val)
  | _ => none

/-- A refused request completes (R264, R265, R310, R591). -/
def State.replyRefused (s : State) (rq : HbmReq) (r : Refused) : State :=
  match rq.reply with
  | .reg c _ _ _ a => s.coreFault c (if rq.kind = 0 then 5 else 7) a (refusedKind r)
  | .stored c a => s.coreFault c 7 a (refusedKind r)
  | .fabric _ pk => s.respond pk (if pk.kind.toNat = kREAD || pk.kind.toNat = kATOMICF then kRESPDATA else kRESPACK)
      (refusedStatus r) []
  | .quiet => s
  | .none =>
    match sourceCore rq.src with
    | some c => s.coreFault c (if rq.kind = 0 then 5 else 7) rq.off (refusedKind r)
    | none => s.emit (.memError rq.src (refusedStatus r))

/-- A value read into a core register: sign- or zero-extended; poisoned data traps instead (R436). -/
def State.loadReg (s : State) (c rd size : Nat) (sgn : Bool) (addr : Nat) (data : List Byte) (poisoned : Bool) : State :=
  let s := s.block c .none
  if poisoned then s.poisonFault c addr
  else
    let v := leNat data
    s.setX c rd (if sgn then wrapTo 64 (signedOf (8 * size) v) else v)

/-- A read's data reaches its requester. -/
def State.replyData (s : State) (rq : HbmReq) (data : List Byte) (poisoned : Bool) : State :=
  match rq.reply with
  | .reg c rd size sgn a => s.loadReg c rd size sgn a data poisoned
  | .fabric d pk => s.respondKept d.val pk (if poisoned then stPOISON else stOK) data
  | _ => s.emit (.memData rq.src data poisoned)

/-- A write or non-fetching atomic completes at its ordering point. -/
def State.replyDone (s : State) (src : Source) (r : Reply) (flags : Nat) (poisoned : Bool) : State :=
  match r with
  | .fabric _ pk => s.respond pk kRESPACK ((if poisoned then stPOISON else stOK) + flags * 256) []
  | .reg c _ _ _ _ => s.block c .none
  | .stored _ _ => s
  | .quiet => s
  | .none => s.emit (.memDone src flags)

/-! ### The atomic ALU (R270, R309) -/

/-- Bytes of an element type (R309). -/
def atomSize (ty : Nat) : Nat :=
  match ty with
  | 0 => 4 | 1 => 8 | 2 => 4 | 3 => 8 | 4 => 4 | 5 => 8 | 6 => 2 | _ => 16

/-- Some combination of R270: operation and type. -/
def atomListed (op ty : Nat) : Bool :=
  if op = 0 then ty ≤ 1 else if op ≤ 7 then ty ≤ 3
  else if op = 8 then 4 ≤ ty && ty ≤ 6 else op = 9 && ty = 7

/-- Lanes of a 64 B line for a type. -/
def atomLanes (ty : Nat) : Nat := 64 / atomSize ty

/-- The float format of a type. -/
def atomFmt (ty : Nat) : Fmt := if ty = 4 then fmtFP32 else if ty = 5 then fmtFP64 else fmtBF16

/-- One lane's result in memory and its flags (R270). -/
def atomLane (op ty old arg cmp : Nat) : Res :=
  let w := 8 * atomSize ty
  let sgn := ty ≤ 1
  let rd := fun n => if sgn then signedOf w n else (n : Int)
  match op with
  | 0 => ((old + arg) % 2 ^ w, 0)
  | 1 => (if rd arg < rd old then arg else old, 0)
  | 2 => (if rd old < rd arg then arg else old, 0)
  | 3 => (old &&& arg, 0)
  | 4 => (old ||| arg, 0)
  | 5 => (old ^^^ arg, 0)
  | 6 => (arg, 0)
  | 7 => (if old = cmp then arg else old, 0)
  | 8 => (atomFmt ty).addV ((atomFmt ty).decode old) ((atomFmt ty).decode arg)
  | _ => xpAdd old arg

/-- A line of bytes after an operation on the lanes of a mask, and the flags. -/
def atomLine (op ty : Nat) (old arg cmp : List Byte) (mask : Nat) : List Byte × Nat :=
  let w := atomSize ty
  (List.range (old.length / w)).foldl (fun (acc : List Byte × Nat) i =>
    if bitAt mask i then
      let r := atomLane op ty (leField old (i * w) w) (leField arg (i * w) w) (leField cmp (i * w) w)
      (acc.1 ++ leBytes w r.1, acc.2 ||| r.2)
    else (acc.1 ++ (old.drop (i * w)).take w, acc.2)) ([], 0)

/-! ### The line merger (R272–R274) -/

/-- The stack controller of an offset's granule (R252). -/
def State.siteOf (s : State) (off : Nat) : Nat :=
  let slot := Config.granuleSlot (off / 256) % (if s.small then 256 else 384)
  let i := slot / 32
  if s.small then i / 2 * 3 + i % 2 else i

/-- Traffic counted at an offset's controller (R537). -/
def State.traffic (s : State) (off slot n : Nat) : State :=
  let k := off / 256 * 8 + slot
  { s with hbm := { s.hbm with traffic := mapPut 0 s.hbm.traffic k (mapGet 0 s.hbm.traffic k + n) } }

/-- A non-fetching atomic entry, or a fetching one, is applied to its line at the ALU: a poisoned line is left unchanged
(R259). Answers whether it was applied, the old line, and the flags. -/
def State.applyAtomic (s : State) (line op ty mask : Nat) (arg cmp : List Byte) : State × Bool × List Byte × Nat :=
  let old := s.bytes (line * 128) 128
  if mapGet false s.poisonLine line then (s, false, old, 0)
  else
    let (new, fl) := atomLine op ty old arg cmp mask
    ((s.putBytes (line * 128) new).traffic (line * 128) 2 1, true, old, fl)

/-- The bytes of a masked store over old bytes. -/
def maskedBytes (old new : List Byte) (mask : Nat) : List Byte :=
  (old.zip new).zipIdx.map fun x => if bitAt mask x.2 then x.1.2 else x.1.1

/-- An entry drains: the line is written or operated on, watch ranges see every arrival, and every arrival completes
(R259, R274). -/
def State.drainEntry (s : State) (e : MergeEntry) : State :=
  let (s, ok, fl) := match e.atomic with
    | none =>
      let full := e.mask = 2 ^ 128 - 1
      let bytes := maskedBytes (s.bytes (e.line * 128) 128) e.data e.mask
      let s := s.putBytes (e.line * 128) bytes
      let p := if e.poisoned then true else if full then false else mapGet false s.poisonLine e.line
      ({ s with poisonLine := mapPut false s.poisonLine e.line p }, true, 0)
    | some (op, ty) =>
      let (s, ok, _, fl) := s.applyAtomic e.line op ty e.mask e.data []
      (s, ok, fl)
  s.forEach e.arrivals fun (off, len, r) s =>
    (if ok then s.watchWrite off len else s).replyDone .firmware r (fl ||| e.flags) (!ok)

/-- The open entry of a line. -/
def State.mergeFor (s : State) (line : Nat) : Option MergeEntry := s.hbm.merge.find? fun e => e.line = line

/-- A line's open entry drains (R274). -/
def State.drainLine (s : State) (line : Nat) : State :=
  match s.mergeFor line with
  | some e => ({ s with hbm := { s.hbm with merge := s.hbm.merge.erase e } }).drainEntry e
  | none => s

/-- Every open entry of the lines of a range drains, so that a read follows it (R274). -/
def State.drainRange (s : State) (off len : Nat) : State :=
  s.forEach (unitsOf 128 off len) fun l s => s.drainLine l

/-- With all 64 entries of a controller in use, its oldest drains before a new line opens one (R272, R274). -/
def State.makeRoom (s : State) (line : Nat) : State :=
  if s.hbm.merge.length < 64 then s
  else
    let mine := s.hbm.merge.filter fun e => s.siteOf (e.line * 128) = s.siteOf (line * 128)
    if mine.length < 64 then s
    else match mine with
      | e :: _ => s.drainLine e.line
      | [] => s

/-- An entry put in place of the line's open one, or opened behind the others. -/
def State.putEntry (s : State) (e : MergeEntry) : State :=
  match s.mergeFor e.line with
  | some _ =>
    let m := s.hbm.merge.map fun x => if x.line = e.line then e else x
    { s with hbm := { s.hbm with merge := m } }
  | none =>
    let s := s.makeRoom e.line
    { s with hbm := { s.hbm with merge := s.hbm.merge ++ [{ e with since := s.now }] } }

/-- An arrival merged into an open entry is counted in `MERGE.COMBINED` (R281). -/
def State.combined (s : State) (line : Nat) : State :=
  s.addF fdHbmcMergeCombined (pgHbmc (s.siteOf (line * 128))) 0 1

/-- A list of `n` zero bytes. -/
def zeros (n : Nat) : List Byte := List.replicate n 0

/-- Bytes of a 128 B line where `bs` lies at byte `at`, zeros elsewhere. -/
def lineBytes (pos : Nat) (bs : List Byte) : List Byte := (zeros pos ++ bs ++ zeros (128 - pos - bs.length)).take 128

/-- A store arrives for one line (R272, R273): bytes `bs` at byte `pos`. -/
def State.mergeStore (s : State) (line pos : Nat) (bs : List Byte) (poisoned : Bool) (arr : List (Nat × Nat × Reply)) :
    State :=
  let mask := (2 ^ bs.length - 1) * 2 ^ pos
  let fresh : MergeEntry :=
    { line := line, mask := mask, data := lineBytes pos bs, poisoned := poisoned, arrivals := arr }
  match s.mergeFor line with
  | some e =>
    if e.atomic = none then
      let full := mask = 2 ^ 128 - 1
      (s.combined line).putEntry { e with
        mask := e.mask ||| mask
        data := maskedBytes e.data fresh.data mask
        poisoned := if full then poisoned else e.poisoned || poisoned
        arrivals := e.arrivals ++ arr }
    else (s.drainLine line).putEntry fresh
  | none => s.putEntry fresh

/-- Operands of two merged atomics combined lane by lane (R273). -/
def combineOperands (op ty : Nat) (a : List Byte) (ma : Nat) (b : List Byte) (mb : Nat) : List Byte × Nat :=
  let w := atomSize ty
  (List.range (128 / w)).foldl (fun (acc : List Byte × Nat) i =>
    let x := (a.drop (i * w)).take w
    let y := (b.drop (i * w)).take w
    if bitAt ma i && bitAt mb i then
      let r := atomLane op ty (leNat x) (leNat y) 0
      (acc.1 ++ leBytes w r.1, acc.2 ||| r.2)
    else (acc.1 ++ (if bitAt mb i then y else x), acc.2)) ([], 0)

/-- A non-fetching atomic arrives (R272, R273). -/
def State.mergeAtomic (s : State) (line op ty mask : Nat) (arg : List Byte) (arr : List (Nat × Nat × Reply)) : State :=
  let fresh : MergeEntry := { line := line, atomic := some (op, ty), mask := mask, data := arg, arrivals := arr }
  match s.mergeFor line with
  | some e =>
    if e.atomic = some (op, ty) then
      let (d, fl) := combineOperands op ty e.data e.mask arg mask
      (s.combined line).putEntry { e with
        mask := e.mask ||| mask
        data := d
        flags := e.flags ||| fl
        arrivals := e.arrivals ++ arr }
    else (s.drainLine line).putEntry fresh
  | none => s.putEntry fresh

/-! ### Serving a request -/

/-- The pieces of a write by line: line, byte in the line, bytes. -/
def linePieces (off : Nat) (bs : List Byte) : List (Nat × Nat × List Byte) :=
  (unitsOf 128 off bs.length).map fun l =>
    let lo := max off (l * 128)
    let hi := min (off + bs.length) (l * 128 + 128)
    (l, lo - l * 128, (bs.drop (lo - off)).take (hi - lo))

/-- A write passes the merger line by line; its reply goes with its last line. -/
def State.serveWrite (s : State) (rq : HbmReq) : State :=
  let ps := linePieces rq.off rq.data
  let last := (rq.off + rq.data.length - 1) / 128
  let s := s.traffic rq.off 1 rq.data.length
  s.forEach ps fun (l, pos, bs) s =>
    s.mergeStore l pos bs rq.poisoned
      (if l = last then [(rq.off, rq.data.length, rq.reply)] else [])

/-- A read follows the drain of its lines (R259, R274). -/
def State.serveRead (s : State) (rq : HbmReq) : State :=
  let s := (s.drainRange rq.off rq.len).traffic rq.off 0 rq.len
  s.replyData rq (s.bytes rq.off rq.len) (s.linesPoisoned rq.off rq.len)

/-- An atomic: fetching ones, SWAP and CAS wait for the open entry to drain and are applied alone; others merge (R270, R273). -/
def State.serveAtomic (s : State) (rq : HbmReq) : State :=
  let line := rq.off / 128
  let half := rq.off % 128 / 64 * 64
  let lanes := half / atomSize rq.ty
  let mask := rq.mask * 2 ^ lanes
  let arg := lineBytes half (rq.data.take 64)
  let cmp := lineBytes half (rq.data.drop 64)
  if rq.fetch || rq.op = 6 || rq.op = 7 then
    let s := s.drainLine line
    let (s, ok, old, fl) := s.applyAtomic line rq.op rq.ty mask arg cmp
    let s := if ok then s.watchWrite (line * 128 + half) 64 else s
    if rq.fetch then
      let old := (old.drop half).take 64
      match rq.reply with
      | .reg c rd size sgn a => s.loadReg c rd size sgn a ((old.drop (a % 64)).take size) (!ok)
      | _ => s.replyData rq old (!ok)
    else s.replyDone rq.src rq.reply fl (!ok)
  else s.mergeAtomic line rq.op rq.ty mask arg [(line * 128 + half, 64, rq.reply)]

/-- A request served. -/
def State.serve (s : State) (rq : HbmReq) : State :=
  match rq.kind with
  | 0 => s.serveRead rq
  | 1 => s.serveWrite rq
  | _ => s.serveAtomic rq

/-! ### The home agent's coherence (R186, R329, R332) -/

/-- A line's directory entry. -/
def State.dirLine (s : State) (l : Nat) : DirLine := mapGet {} s.coh.dir l

/-- A line's directory entry replaced. -/
def State.setDir (s : State) (l : Nat) (d : DirLine) : State :=
  { s with coh := { s.coh with dir := mapPut {} s.coh.dir l d } }

/-- A coherence message of OP `op` about line `l` to the node of the tray with W = `w` (R331). -/
def State.cohPacket (s : State) (op l w tag job gen : Nat) (data : List Byte) (poisoned : Bool) : Packet :=
  { kind := BitVec.ofNat 5 kCOH, vc := BitVec.ofNat 3 vcCOH, ovc := BitVec.ofNat 3 vcCOH,
    dst := BitVec.ofNat 17 (s.nodeId / 4 * 4 + w), src := BitVec.ofNat 17 s.nodeId, job := BitVec.ofNat 20 job,
    gen := BitVec.ofNat 12 gen, tagSlot := BitVec.ofNat 16 tag, tagGen := BitVec.ofNat 2 (tag / 65536),
    offset := BitVec.ofNat 40 (l * 128), op := BitVec.ofNat 4 op, mask := BitVec.ofNat 16 poisoned.toNat,
    route := BitVec.ofNat 96 (0xF0 + ((w + 4 - nodeW s.nodeId) % 4 - 1)), len := BitVec.ofNat 9 data.length,
    payload := data }

/-- The home agent's message to each holder whose answer a transaction needs: INV to sharers, RECALL to the owner for an exclusive
request or a write, DOWNGRADE for a shared request or a read (R331, R332). -/
def State.cohAsk (s : State) (tx : CohTx) : State × CohTx :=
  let d := s.dirLine tx.line
  let me := match tx.pk with
    | some p => nodeW p.src.toNat
    | none => 4
  let excl := tx.kind = 1 || tx.kind = 2 || tx.kind = 3
  let own := d.owner.toList.filter fun w => w ≠ me
  let shr := if excl then (List.range 4).filter fun w => bitAt d.sharers w && w ≠ me else []
  let tag := s.coh.nextTag
  let s := { s with coh := { s.coh with nextTag := (tag + 1) % 2 ^ 18 } }
  let s := s.forEach own fun w s => s.send (s.cohPacket (if excl then 6 else 7) tx.line w tag d.job d.gen [] false)
  let s := s.forEach shr fun w s => s.send (s.cohPacket 5 tx.line w tag d.job d.gen [] false)
  (s, { tx with waiting := (own ++ shr).foldl (fun a w => a ||| 2 ^ w) 0, tag := tag })

/-- A line that other nodes of the tray hold in a way that the request conflicts with, or that has a transaction running. -/
def State.cohBusy (s : State) (l : Nat) (write : Bool) : Bool :=
  (s.coh.active.any fun t => t.line = l) || (s.dirLine l).owner.isSome || (write && (s.dirLine l).sharers ≠ 0)

/-- A request reaches the home agents of its lines: served, or held behind a coherence transaction that invalidates or recalls
every other copy (R186, R329). -/
def State.order (s : State) (rq : HbmReq) : State :=
  match (unitsOf 128 rq.off rq.len).find? fun l => s.cohBusy l (rq.kind ≠ 0) with
  | none => s.serve rq
  | some l =>
    let tx : CohTx := { line := l, kind := if rq.kind = 0 then 4 else 3, req := some rq }
    if s.coh.active.any fun t => t.line = l then
      { s with coh := { s.coh with queue := s.coh.queue ++ [tx] } }
    else
      let (s, tx) := s.cohAsk tx
      { s with coh := { s.coh with active := s.coh.active ++ [tx] } }

/-! ### Checkpoint holds (R417) -/

/-- The unreached granules that a range touches: context and granule. -/
def State.unreachedBy (s : State) (off len : Nat) : List (Nat × Nat) :=
  s.ckpts.flatMap fun (c, r) =>
    (r.unreached.filter fun (_, a, n) => off < a + n && a < off + len).map fun (g, _, _) => (c, g)

/-- A checked request is accepted: a write or atomic that touches an unreached granule is held and its granules queued for
promotion; anything else goes to the home agent (R417). -/
def State.accept (s : State) (rq : HbmReq) : State :=
  if rq.kind = 0 then s.order rq
  else match s.unreachedBy rq.off rq.len with
    | [] => s.order rq
    | gs =>
      let new := gs.filter fun g => !s.promos.contains g
      let waiting := if 16 ≤ s.promos.length then new.length else s.promos.length + new.length - 16
      let s := s.addF fdCkptPromoQueued pgCkpt 0 waiting
      let s := s.setF fdCkptPromoInflight pgCkpt 0 (min 16 (s.promos.length + new.length))
      { s with promos := s.promos ++ new, ckptHeld := s.ckptHeld ++ [rq] }

/-! ### Sluices (R266, R267) -/

/-- The charge of a request and whether it goes to the write bucket (R266). -/
def HbmReq.charge (rq : HbmReq) : Nat × Bool :=
  match rq.kind with
  | 0 => (rq.len, false)
  | 1 => (rq.len, true)
  | _ => (64, true)

/-- Depth of a polder's bucket at one controller, in bytes (R266). -/
def State.bucketDepth (s : State) (p : Nat) (write : Bool) : Nat :=
  let b := if write then s.getF fdMemmapPolderBurstW pgMemmap p else s.getF fdMemmapPolderBurstR pgMemmap p
  b * 65536 / s.controllers / 256 * 256

/-- Rate of a polder's bucket in U (R266). -/
def State.bucketRate (s : State) (p : Nat) (write : Bool) : Nat :=
  if write then s.getF fdMemmapPolderRateW pgMemmap p else s.getF fdMemmapPolderRateR pgMemmap p

/-- Key of a bucket. -/
def bucketKey (site p : Nat) (write : Bool) : Nat := site * 32 + p * 2 + write.toNat

/-- Quarter bytes that a bucket lacks of its depth now: it fills at RATE × U / N, 5 quarter bytes per tick and U. -/
def State.bucketShort (s : State) (site p : Nat) (write : Bool) : Nat :=
  let b := mapGet {} s.hbm.buckets (bucketKey site p write)
  b.spent - s.bucketRate p write * 5 * (s.now - b.since)

/-- The bucket can pay a charge; a charge above the depth needs a full bucket. -/
def State.bucketPays (s : State) (site p n : Nat) (write : Bool) : Bool :=
  s.bucketShort site p write + min n (s.bucketDepth p write) * 4 ≤ s.bucketDepth p write * 4

/-- A bucket charged. -/
def State.chargeBucket (s : State) (site p n : Nat) (write : Bool) : State :=
  let b : Bucket := { spent := s.bucketShort site p write + n * 4, since := s.now }
  { s with hbm := { s.hbm with buckets := mapPut {} s.hbm.buckets (bucketKey site p write) b } }

/-- Served bytes of the current window (R268): an access smaller than 256 B counts as 256 B. -/
def State.chargeWindow (s : State) (off p n : Nat) (write : Bool) : State :=
  let k := off / 256 * 32 + p * 2 + write.toNat
  { s with hbm := { s.hbm with served := mapPut 0 s.hbm.served k (mapGet 0 s.hbm.served k + max n 256) } }

/-- A request waits at controller `site` for polder p's bucket. -/
def State.waitsAt (s : State) (site p : Nat) (write : Bool) (r : HbmReq) : Bool :=
  s.polderOf r.off = some p && r.charge.2 = write && s.siteOf r.off = site

/-- A request of the same polder and bucket waits already at the controller. -/
def State.sluiceQueue (s : State) (site p : Nat) (write : Bool) : Bool := s.hbm.waiting.any (s.waitsAt site p write)

/-- A request meets its polder's sluice (R266, R267): served at once with a rate of 1,024 or enough tokens and none waiting
before it, else it waits in order of arrival. -/
def State.sluice (s : State) (rq : HbmReq) : State :=
  match s.polderOf rq.off with
  | none => s.accept rq
  | some p =>
    let (n, write) := rq.charge
    if s.sluiceQueue (s.siteOf rq.off) p write then { s with hbm := { s.hbm with waiting := s.hbm.waiting ++ [{ rq with since := s.now }] } }
    else if s.bucketRate p write = 1024 then (s.chargeWindow rq.off p n write).accept rq
    else
      let site := s.siteOf rq.off
      if s.bucketPays site p n write then ((s.chargeWindow rq.off p n write).chargeBucket site p n write).accept rq
      else
        let s := s.count (pgHbmc site) 5 1
        { s with hbm := { s.hbm with waiting := s.hbm.waiting ++ [{ rq with since := s.now }] } }

/-- A request to HBM (R253–R274): checked, held while the stacks leave self-refresh, then through its sluice. -/
def State.submit (s : State) (rq : HbmReq) : State :=
  match s.hbmRefusal rq with
  | some r => s.replyRefused rq r
  | none =>
    let s := { s with hbm := { s.hbm with lastRequest := s.now } }
    if s.hbm.selfRefresh ≠ 0 then
      { s with hbm := { s.hbm with selfRefresh := 2, srHeld := s.hbm.srHeld ++ [rq] } }
    else s.sluice rq

/-! ### Engines and firmware -/

/-- Bytes of local memory as an engine or firmware reads them, behind every earlier accepted write, and whether they are poisoned. -/
def State.engineRead (s : State) (off n : Nat) : State × List Byte × Bool :=
  let s := s.drainRange off n
  (s, s.bytes off n, s.linesPoisoned off n)

/-- A write of an engine or of firmware. -/
def State.engineWrite (s : State) (src : Source) (off : Nat) (bs : List Byte) (poisoned : Bool := false) : State :=
  if bs.isEmpty then s
  else s.submit { kind := 1, src := src, off := off, len := bs.length, data := bs, poisoned := poisoned, reply := .quiet }

/-- The source identity of an engine that works for context c. -/
def engineOf (c : Nat) : Source := if h : c < 16 then .engine ⟨c, h⟩ else .firmware

end Sys2Proof.Machine
end

