-- ==== Sys2Proof/Machine/Ecrok.lean ====
section
/-! DEFINITION. Ecrok packets that reach the node (R307–R328, R333–R336): requests served exactly once, responses, timeouts,
forwarding, and loopback. -/
namespace Sys2Proof.Machine

/-! ### Admission (R305, R307, R318–R321) -/

/-- The pair (job, generation) is committed here (R318). -/
def State.committed (s : State) (job gen : Nat) : Bool :=
  s.pairs.any fun p => p.2.state = 2 && p.2.job = job && p.2.gen = gen

/-- Some generation of the job is committed here. -/
def State.jobCommitted (s : State) (job : Nat) : Bool := s.pairs.any fun p => p.2.state = 2 && p.2.job = job

/-- The payload length that a kind's LEN calls for (R308): none where LEN lies beyond the kind's limit. -/
def payloadWanted (pk : Packet) : Option Nat :=
  let n := pk.len.toNat
  let k := pk.kind.toNat
  if k = kREAD then if 1 ≤ n && n ≤ 256 then some 0 else none
  else if k = kWRITE || k = kMSG then if 1 ≤ n && n ≤ 256 then some n else none
  else if k = kATOMIC || k = kATOMICF then if n = (if pk.op.toNat = 7 then 128 else 64) then some n else none
  else if k = kRUPDATE then if 9 ≤ n && n ≤ 256 then some n else none
  else if k = kLOWMARK then if n = 0 then some 0 else none
  else if k = kRESPDATA || k = kRESPACK then if n ≤ 256 then some n else none
  else if k = 0x19 || k = 0x1A then if 1 ≤ n && n ≤ 256 then some n else none
  else if k = 0x1B || k = 0x1C then if n ≤ 72 then some n else none
  else if n ≤ 256 then some n else none

/-- A packet is malformed (R307): a reserved field, or LEN beyond its kind's limit. -/
def packetBad (pk : Packet) : Bool :=
  pk.malformed || (match payloadWanted pk with
    | some n => pk.payload.length ≠ n
    | none => true)

/-- A packet discarded as malformed (R307). -/
def State.dropMalformed (s : State) : State := s.addF fdEcrokCntMalformed pgEcrok 0 1

/-- A packet discarded for a stale generation (R318). -/
def State.dropStale (s : State) : State := (s.addF fdEcrokCntStale pgEcrok 0 1).count pgEcrok 6 1

/-- A packet discarded for a job not committed here (R318). -/
def State.dropForeign (s : State) : State := (s.addF fdEcrokCntForeign pgEcrok 0 1).count pgEcrok 6 1

/-- What the receiver's table of R318 says of a request's tag. -/
inductive TagCheck where
  | served | stale | foreign
  deriving DecidableEq, Repr

/-- R318. -/
def State.tagCheck (s : State) (pk : Packet) : TagCheck :=
  if pk.job = 0 then if pk.ovc.toNat = vcMGMT then .served else .foreign
  else if s.committed pk.job.toNat pk.gen.toNat then .served
  else if s.jobCommitted pk.job.toNat then .stale
  else .foreign

/-- The flow's LOW is noted and replies it has passed are freed (R321). -/
def State.noteLow (s : State) (pk : Packet) : State :=
  let src := pk.src.toNat
  let vc := pk.ovc.toNat
  let keep := fun (e : ReplyEntry) =>
    !(e.src = src && e.vc = vc && 1 ≤ seqBehind pk.low.toNat e.seq && seqBehind pk.low.toNat e.seq ≤ 2 ^ 31)
  { s with ecrok := { s.ecrok with
    inLow := mapPut 0 s.ecrok.inLow (flowKey src vc) pk.low.toNat
    replies := s.ecrok.replies.filter keep } }

/-- E of a received flow (R320). -/
def State.expected (s : State) (pk : Packet) : Nat := mapGet 0 s.ecrok.inNext (flowKey pk.src.toNat pk.ovc.toNat)

/-- E advances by one (R320). -/
def State.advance (s : State) (pk : Packet) : State :=
  let k := flowKey pk.src.toNat pk.ovc.toNat
  { s with ecrok := { s.ecrok with
    inNext := mapPut 0 s.ecrok.inNext k ((s.expected pk + 1) % 2 ^ 32)
    inJob := mapPut 0 s.ecrok.inJob k (pk.job.toNat + 1) } }

/-- The reply store of a die is full (R321). -/
def State.repliesFull (s : State) (die : Nat) : Bool :=
  32768 ≤ (s.ecrok.replies.filter fun e => e.die = die).length

/-- A duplicate (R320): stores, atomics, messages and updates are acknowledged with DUP; reads and fetching atomics are answered
from the reply store. -/
def State.answerDup (s : State) (pk : Packet) : State :=
  let s := (s.addF fdEcrokCntDup pgEcrok 0 1).count pgEcrok 4 1
  let k := pk.kind.toNat
  if k = kREAD || k = kATOMICF then
    match s.ecrok.replies.find? fun e =>
        e.src = pk.src.toNat && e.vc = pk.ovc.toNat && e.seq = pk.seq.toNat with
    | some e => s.respond pk kRESPDATA e.status e.data
    | none => s
  else s.respond pk kRESPACK stDUP []

/-- A request admitted under R305–R320 and applied by `f`, which answers none where it is BUSY and not applied. -/
def State.letIn (s : State) (pk : Packet) (f : State → Option State) : State :=
  if !s.nodeIdValid then s
  else if packetBad pk then s.dropMalformed
  else
    let s := s.count pgEcrok 1 1
    if s.err.out then
      s.respond pk (if pk.kind.toNat = kREAD || pk.kind.toNat = kATOMICF then kRESPDATA else kRESPACK) stDEAD []
    else match s.tagCheck pk with
      | .stale => s.dropStale
      | .foreign => s.dropForeign
      | .served =>
        let s := s.noteLow pk
        let e := s.expected pk
        let q := pk.seq.toNat
        if q = e then
          match f (s.advance pk) with
          | some s' => s'
          | none =>
            s.respond pk (if pk.kind.toNat = kREAD || pk.kind.toNat = kATOMICF then kRESPDATA else kRESPACK) stBUSY []
        else if seqBehind e q ≤ 4096 then s.answerDup pk
        else if seqBehind q e < 4096 then s.addF fdEcrokCntGap pgEcrok 0 1
        else s.dropMalformed

/-! ### Requests applied (R308, R326) -/

/-- The source of a fabric request (R264). -/
def fabricSource (pk : Packet) : Source := .fabric pk.job

/-- Part of a tile store's deque area while the deque unit owns it (R160). -/
def State.dequeOwns (s : State) (t off len : Nat) : Bool :=
  bitAt (s.csr t 0x861) 0 && 0x7C000 < off + len

/-- An access reaches a tile store from the fabric: `f` serves it once the flask is AWAKE and the tile is not moving; it is held
otherwise (R52, R57); an access to an owned deque area is refused with ACCESS (R160). -/
def State.fabricStore (s : State) (d : FabricDie) (pk : Packet) (t off len : Nat) (f : State → State) : State :=
  let s := s.arrive (flaskOf t)
  if !(s.serves (flaskOf t) && !s.moving t) then s.hold (flaskOf t) (.fabric d pk)
  else if s.dequeOwns t off len then
    s.respond pk (if pk.kind.toNat = kREAD || pk.kind.toNat = kATOMICF then kRESPDATA else kRESPACK) stACCESS []
  else f s

/-- A request's response where its offset lies in no region of the target's map (R306, R310). -/
def State.fabricNowhere (s : State) (pk : Packet) : State :=
  s.respond pk (if pk.kind.toNat = kREAD || pk.kind.toNat = kATOMICF then kRESPDATA else kRESPACK) stADDRESS []

/-- The place of a request's offset: HBM or a tile store; nothing else is reachable from the fabric (R306). -/
def State.fabricPlace (s : State) (pk : Packet) : Place :=
  match s.place none pk.offset.toNat with
  | .hbm o => .hbm o
  | .store t o => .store t o
  | _ => .nowhere

/-- A READ applied (R308). -/
def State.applyRead (s : State) (d : FabricDie) (pk : Packet) : State :=
  let n := pk.len.toNat
  match s.fabricPlace pk with
  | .hbm o => s.submit { kind := 0, src := fabricSource pk, off := o, len := n, reply := .fabric d pk }
  | .store t o => s.fabricStore d pk t o n fun s =>
      s.respondKept d.val pk (if s.wordsPoisoned (storeAt t + o) n then stPOISON else stOK) (s.bytes (storeAt t + o) n)
  | _ => s.fabricNowhere pk

/-- A WRITE applied (R308, R436). -/
def State.applyWrite (s : State) (d : FabricDie) (pk : Packet) : State :=
  let p := bitAt pk.mask.toNat 0
  match s.fabricPlace pk with
  | .hbm o => s.submit { kind := 1, src := fabricSource pk, off := o, len := pk.payload.length, data := pk.payload,
                         poisoned := p, reply := .fabric d pk }
  | .store t o => s.fabricStore d pk t o pk.payload.length fun s =>
      ((s.storeBytes (storeAt t + o) pk.payload p).watchWrite (storeAt t + o) pk.payload.length).respond
        pk kRESPACK stOK []
  | _ => s.fabricNowhere pk

/-- An atomic on a line of a tile store (R36): old line, flags, and whether the line was poisoned. -/
def State.storeAtomic (s : State) (a op ty mask : Nat) (arg cmp : List Byte) : State × List Byte × Nat × Bool :=
  let old := s.bytes a 64
  if s.wordsPoisoned a 64 then (s, old, 0, true)
  else
    let (new, fl) := atomLine op ty old arg cmp mask
    ((s.putBytes a new).watchWrite a 64, old, fl, false)

/-- An ATOMIC or ATOMIC_F applied (R270, R309). -/
def State.applyAtomicPk (s : State) (d : FabricDie) (pk : Packet) (fetch : Bool) : State :=
  let op := pk.op.toNat
  let ty := pk.ty.toNat
  match s.fabricPlace pk with
  | .hbm o => s.submit { kind := 2, src := fabricSource pk, off := o / 64 * 64, len := 64, data := pk.payload, op := op,
                         ty := ty, mask := pk.mask.toNat, fetch := fetch, reply := .fabric d pk }
  | .store t o => s.fabricStore d pk t o 64 fun s =>
      let (s, old, fl, p) := s.storeAtomic (storeAt t + o / 64 * 64) op ty pk.mask.toNat (pk.payload.take 64)
        (pk.payload.drop 64)
      if fetch then s.respondKept d.val pk (if p then stPOISON else stOK) old
      else s.respond pk kRESPACK ((if p then stPOISON else stOK) + fl * 256) []
  | _ => s.fabricNowhere pk

/-- An operation, type and mask that R270 and R309 allow. -/
def atomicOk (op ty mask : Nat) : Bool :=
  atomListed op ty && (op ≠ 7 || ((List.range 16).filter fun i => bitAt mask i).length = 1)

/-- A READ received. -/
def State.recvRead (s : State) (d : FabricDie) (pk : Packet) : State :=
  s.letIn pk fun s => if s.repliesFull d.val then none else some (s.applyRead d pk)

/-- A WRITE received. -/
def State.recvWrite (s : State) (d : FabricDie) (pk : Packet) : State :=
  s.letIn pk fun s => some (s.applyWrite d pk)

/-- An ATOMIC or ATOMIC_F received; one that R270 does not list is discarded as malformed. -/
def State.recvAtomic (s : State) (d : FabricDie) (pk : Packet) (fetch : Bool) : State :=
  if !atomicOk pk.op.toNat pk.ty.toNat pk.mask.toNat && s.nodeIdValid then s.dropMalformed
  else s.letIn pk fun s => if fetch && s.repliesFull d.val then none else some (s.applyAtomicPk d pk fetch)

/-- A MSG received (R333): into the next slot of the destination context's ring, BUSY where the ring is full, ACCESS where no ring
is enabled or the context is not of the packet's job. -/
def State.recvMsg (s : State) (_d : FabricDie) (pk : Packet) : State :=
  s.letIn pk fun s =>
    let c := pk.offset.toNat % 16
    let x := s.ctx c
    if !(x.isOpen && x.job = pk.job.toNat && s.getF fdEcrokMringEn pgEcrok c = 1) then
      some (s.respond pk kRESPACK stACCESS [])
    else
      let n := 2 ^ s.getF fdEcrokMringLog2 pgEcrok c
      let tail := s.getF fdEcrokMringTail pgEcrok c
      let cons := s.getF fdEcrokMringCons pgEcrok c
      let s1 := s.drainRange cons 8
      if n ≤ (tail + 2 ^ 32 - s1.loadNat cons 8 % 2 ^ 32) % 2 ^ 32 then none
      else
        let a := s.getF fdEcrokMringBase pgEcrok c + tail % n * 256
        let len := pk.payload.length
        let slot := (pk.payload ++ zeros (254 - len)).take 254 ++ leBytes 2 len
        let slot := if 254 < len then pk.payload.take 254 ++ leBytes 2 len else slot
        let s := (s1.drainRange a 256).hbmBytes a slot (bitAt pk.mask.toNat 0)
        some (((s.setF fdEcrokMringTail pgEcrok c (tail + 1)).watchWrite a 256).respond pk kRESPACK stOK [])

/-- The first byte of the replica window that holds an offset: the base of the holder's own class 0x9 entry of a context of the
job, or the offset's granule where it has none (R335). -/
def State.replicaBase (s : State) (job off : Nat) : Nat :=
  match s.windowList.find? fun e => bitAt e 143 && bits e 119 116 = 9 && bits e 39 0 ≤ off && off < bits e 79 40 &&
      (s.ctx (bits e 139 136)).job = job with
  | some e => bits e 39 0
  | none => off / 256 * 256

/-- A RUPDATE received (R335): applied where its epoch is equal or higher, else acknowledged with DUP. -/
def State.recvRupdate (s : State) (d : FabricDie) (pk : Packet) : State :=
  s.letIn pk fun s =>
    let off := pk.offset.toNat
    let base := s.replicaBase pk.job.toNat off
    let epoch := leField pk.payload 0 8
    let s := s.drainRange base 8
    if epoch < s.loadNat base 8 then some (s.respond pk kRESPACK stDUP [])
    else
      let data := pk.payload.drop 8
      let rq : HbmReq := { kind := 1, src := fabricSource pk, off := off, len := data.length, data := data,
                           poisoned := bitAt pk.mask.toNat 0, reply := .fabric d pk }
      match s.hbmRefusal rq with
      | some r => some (s.replyRefused rq r)
      | none => some ((s.hbmBytes base (leBytes 8 epoch)).submit rq)

/-- A LOWMARK received (R319, R321). -/
def State.recvLowmark (s : State) (pk : Packet) : State :=
  if !s.nodeIdValid then s
  else if packetBad pk then s.dropMalformed
  else match s.tagCheck pk with
    | .stale => s.dropStale
    | .foreign => s.dropForeign
    | .served => s.noteLow pk

/-! ### Responses (R310, R322, R324, R328) -/

/-- Stalled requests of a flow are sent while it has room (R319). -/
def State.unstall (s : State) (dst vc : Nat) : State :=
  let mine := fun (x : Stalled) => x.pk.dst.toNat = dst && x.pk.ovc.toNat = vc
  match s.ecrok.stalled.find? mine with
  | some x =>
    if (s.flowTags dst vc).length < 4096 then
      let s := { s with ecrok := { s.ecrok with stalled := s.ecrok.stalled.erase x } }
      s.sendRequest x.ctx x.origin x.pk
    else s
  | none => s

/-- A request of context c ended with TARGET_DEAD: JOB_FATAL for its job (R328). -/
def State.targetDead (s : State) (c dst : Nat) : State :=
  (s.addF fdEcrokCntDead pgEcrok 0 1).jobFatal c 0x0100 0 dst

/-- A request's origin sees its completion (R310, R326, R328, R436). -/
def State.complete (s : State) (c dst : Nat) (o : Origin) (status : Nat) (data : List Byte) : State :=
  let st := status % 256
  let ok := st = stOK || st = stDUP || st = stPOISON
  let s := if st = stDEAD then s.targetDead c dst else s
  let kind := if st = stPROTECT then 2 else if st = stADDRESS then 0 else 1
  match o with
  | .load core rd size sgn addr =>
    if ok then s.loadReg core rd size sgn addr data (st = stPOISON) else (s.block core .none).coreFault core 5 addr kind
  | .amo core rd wide lane addr =>
    if ok then s.loadReg core rd (if wide then 8 else 4) true addr ((data.drop lane).take (if wide then 8 else 4))
      (st = stPOISON)
    else (s.block core .none).coreFault core 7 addr kind
  | .store core addr =>
    if ok then s
    else { s with ecrok := { s.ecrok with
        lateFaults := mapPut 0 s.ecrok.lateFaults core (addr * 4 + kind + 1) } }
  | .ckpt n =>
    let r := mapGet {} s.ckpts n
    { s with ckpts := mapPut {} s.ckpts n { r with outstanding := r.outstanding - 1, failed := r.failed || !ok } }
  | .restore n piece off =>
    let r := mapGet {} s.ckpts n
    let got := r.restore.map fun x => { x with fetched := x.fetched ++ [(piece, off, data)] }
    let r := { r with
      outstanding := r.outstanding - 1
      failed := r.failed || !ok || st = stPOISON
      restore := if ok then got else r.restore }
    { s with ckpts := mapPut {} s.ckpts n r }
  | .trace n =>
    if ok then s else (s.setF fdObsCtrMode pgObs n 0).addF fdObsCtrLost pgObs n 1
  | .exchange n node => if ok then s else s.failNode n node
  | .rupdate _ => s
  | .none => s

/-- A response received (R322, R324): completes the request, waits on BUSY, or is late. -/
def State.recvResponse (s : State) (die : Nat) (pk : Packet) : State :=
  if !s.nodeIdValid then s
  else if packetBad pk then s.dropMalformed
  else
    let k := die * 65536 + pk.tagSlot.toNat
    let t := s.tag k
    if !(t.active && t.gen = pk.tagGen.toNat && t.pk.dst = pk.src) then s.addF fdEcrokCntLate pgEcrok 0 1
    else if pk.mask.toNat % 256 = stBUSY then
      s.setTag k { t with busy := if t.busy = 0 then 1 else min 64 (2 * t.busy) }
    else
      let s := s.setTag k { gen := t.gen }
      (s.complete t.ctx t.pk.dst.toNat t.origin pk.mask.toNat pk.payload).unstall t.pk.dst.toNat t.pk.ovc.toNat

/-- The wait after BUSY ends: the same request goes again with the same SEQ and TAG (R322). -/
def State.resendBusy (s : State) (k : Nat) : State :=
  let t := s.tag k
  if t.active && t.busy ≠ 0 then s.send t.pk else s

/-- Outstanding requests of a flow from one SEQ on, in SEQ order (R324). -/
def State.laterTags (s : State) (t : TagSlot) : List (Nat × TagSlot) :=
  let fl := s.flowTags t.pk.dst.toNat t.pk.ovc.toNat
  let later := fl.filter fun x => seqBehind x.2.pk.seq.toNat t.pk.seq.toNat < 2 ^ 31
  let n := mapGet 0 s.ecrok.outNext (flowKey t.pk.dst.toNat t.pk.ovc.toNat)
  sortBy (fun a b => seqBehind n b.2.pk.seq.toNat ≤ seqBehind n a.2.pk.seq.toNat) later

/-- A request's timer fires (R324): with reissues left, it and every later request of its flow go again in order, each under its
next TAG.GEN; else it completes with TARGET_DEAD. -/
def State.timeoutTag (s : State) (k : Nat) : State :=
  let t := s.tag k
  if !t.active then s
  else
    let s := ((s.addF fdEcrokCntTimeout pgEcrok 0 1).count pgEcrok 3 1).event pgEcrok 0 (some 2) 0x0130 t.ctx t.pk.dst.toNat
    if t.tries < s.getF fdEcrokTmoRetries pgEcrok t.ctx then
      s.forEach (s.laterTags t) fun (j, x) s =>
        let g := (x.gen + 1) % 4
        let pk := { x.pk with tagGen := BitVec.ofNat 2 g }
        let x := { x with gen := g, pk := pk, busy := 0, tries := if j = k then x.tries + 1 else x.tries }
        (s.setTag j x).send pk
    else
      let s := s.setTag k { gen := (t.gen + 1) % 4 }
      (s.complete t.ctx t.pk.dst.toNat t.origin stDEAD []).unstall t.pk.dst.toNat t.pk.ovc.toNat

/-! ### Forwarding (R290, R313, R314, R318) -/

/-- A packet that this node forwards (R313, R314): the next route step, the channel it takes, or why it is discarded. -/
def State.forward (s : State) (pk : Packet) : State :=
  if !s.nodeIdValid then s
  else if pk.malformed then s.dropMalformed
  else
    let own := pk.job = 0 || s.jobCommitted pk.job.toNat
    let hop := pk.hop.toNat
    let code := bits pk.route.toNat (4 * hop + 3) (4 * hop)
    let pair := codePair code
    if pk.job = 0 && pk.ovc.toNat ≠ vcMGMT then s.dropForeign
    else if !own && s.getF fdEcrokTransitAllow pgEcrok = 0 then s.dropForeign
    else if 24 ≤ hop || code = 0xF || routeLen pk.route.toNat 24 = 24 ||
        s.getF fdPortRole (pgPort (2 * pair)) = 0xF || s.portState (2 * pair) = 3 then s.dropMalformed
    else
      let vc := if pk.ovc.toNat ≤ 1 && !own then vcTRANSIT else pk.ovc.toNat
      let lost := !s.portUp (2 * pair) && !s.portUp (2 * pair + 1)
      let s := s.depart { pk with vc := BitVec.ofNat 3 vc } hop
      if vc = vcTRANSIT && !lost then s.count pgEcrok 7 1 else s

/-! ### Loopback (R306) -/

/-- The channel of the request that a looped-back response answers. -/
def State.reqVc (s : State) (pk : Packet) : Nat :=
  ((s.liveTags.find? fun t => t.1 % 65536 = pk.tagSlot.toNat && t.2.pk.dst = pk.src).map (·.2.pk.ovc.toNat)).getD 0

/-- One looped-back packet is received. -/
def State.recvAny (s : State) (pk : Packet) : State :=
  let die := flowDie s.nodeId s.nodeId pk.ovc.toNat
  let d : FabricDie := if die = 0 then 0 else 1
  let k := pk.kind.toNat
  if k = kREAD then s.recvRead d pk
  else if k = kWRITE then s.recvWrite d pk
  else if k = kATOMIC then s.recvAtomic d pk false
  else if k = kATOMICF then s.recvAtomic d pk true
  else if k = kMSG then s.recvMsg d pk
  else if k = kRUPDATE then s.recvRupdate d pk
  else if k = kLOWMARK then s.recvLowmark pk
  else if k = kRESPDATA || k = kRESPACK then s.recvResponse (flowDie s.nodeId s.nodeId (s.reqVc pk)) pk
  else s

/-- Looped-back packets are received in order, at most `fuel` of them. -/
def State.runLoop (s : State) : Nat → State
  | 0 => s
  | fuel + 1 =>
    match s.ecrok.loop with
    | [] => s
    | pk :: rest => ({ s with ecrok := { s.ecrok with loop := rest } }).recvAny pk |>.runLoop fuel

/-- Loopback settles: requests and their responses. -/
def State.settleLoop (s : State) : State := s.runLoop 64

end Sys2Proof.Machine
end

