-- ==== Sys2Proof/Machine/GraphBase.lean ====
section
/-! DEFINITION. Nodes of the step in progress (R222–R232, R239): the active graph, in-counters, readiness, start, and what firmware
writes to NSTAT. -/
namespace Sys2Proof.Machine

/-- Codes of NSTAT (R239): DONE. -/
def nsDone : Nat := 0x00
/-- SKIPPED. -/
def nsSkipped : Nat := 0x01
/-- ABANDONED. -/
def nsAbandoned : Nat := 0x02
/-- NOT_RUN. -/
def nsNotRun : Nat := 0x03
/-- FAULT. -/
def nsFault : Nat := 0x04
/-- RUNNING. -/
def nsRunning : Nat := 0xFE
/-- PENDING. -/
def nsPending : Nat := 0xFF

/-- The active graph of a context (R221). -/
def State.graph (s : State) (c : Nat) : Option Graph := ((s.ctx c).graphs.getD (s.getF fdSchedCtxSlot pgSched c) none)

/-- A node record of the active graph. -/
def State.gnode (s : State) (c n : Nat) : GNode := ((s.graph c).bind fun g => g.nodes[n]?).getD {}

/-- Incoming edges of a node. -/
def Graph.preds (g : Graph) (n : Nat) : Nat := (g.edges.filter fun e => e.2 = n).length

/-- Successors of a node, one for each edge. -/
def Graph.succs (g : Graph) (n : Nat) : List Nat := (g.edges.filter fun e => e.1 = n).map (·.2)

/-- The `k`-th in-counter ID of an allotment: counters 56–63 of its tiles in ascending ID (R229). -/
def allotCounter (flasks : List Nat) (k : Nat) : Nat :=
  (flasks.getD (k / 128) 0 * 16 + k % 128 / 8) * 64 + 56 + k % 8

/-- The in-counter of a node that has predecessors (R228, R229). -/
def State.inCounter (s : State) (c n : Nat) : Option Nat :=
  match s.graph c with
  | none => none
  | some g =>
    if g.preds n = 0 then none
    else some (allotCounter (s.ctx c).flasks ((List.range n).filter fun m => g.preds m ≠ 0).length)

/-- The NSTAT code of a node in the running step. -/
def State.nodeCode (s : State) (c n : Nat) : Nat := (s.ctx c).run.nstat.getD n nsNotRun

/-- The step in progress of a context changed. -/
def State.withRun (s : State) (c : Nat) (f : StepRun → StepRun) : State :=
  s.setCtx c { s.ctx c with run := f (s.ctx c).run }

/-- Firmware writes a node's NSTAT entry (R239). -/
def State.setNode (s : State) (c n code : Nat) : State :=
  let s := s.withRun c fun r => { r with nstat := r.nstat.set n code }
  match s.graph c with
  | some g => s.engineWrite .firmware (g.nstat + n) [BitVec.ofNat 8 code]
  | none => s

/-- A PENDING node of a running step whose in-counter has reached its capacity (R228). -/
def State.nodeReady (s : State) (c n : Nat) : Bool :=
  (s.ctx c).run.active && s.nodeCode c n = nsPending &&
    match s.inCounter c n with
    | none => true
    | some id => (s.counter id).cap ≠ 0 && (s.counter id).value = (s.counter id).cap

/-- The flasks of a node, by slot. -/
def State.nodeFlasks (s : State) (c n : Nat) : List Nat :=
  let x := s.gnode c n
  (upFrom x.slot0 x.nslot).filterMap fun i => (s.ctx c).flasks[i]?

/-- A TILE or EXCHANGE node. -/
def GNode.onTiles (x : GNode) : Bool := x.kind = 1 || x.kind = 5

/-- A node starts: RUNNING, with its actual start (R234, R239, R245). -/
def State.startNode (s : State) (c n : Nat) : State :=
  let now := s.now
  let s := s.setNode c n nsRunning
  let s := s.withRun c fun r => { r with starts := r.starts.set n (now - r.release) }
  s.trace 33 c n nsRunning

/-- The context on which a range lies whole in the polders it holds (R215, R227). -/
def State.inPolders (s : State) (c off len : Nat) : Bool :=
  off + len ≤ s.getF fdMemmapTop pgMemmap && (unitsOf (2 ^ 30) off (max len 1)).all fun g =>
    match s.polderOf (g * 2 ^ 30) with
    | some p => p ≠ 15 && bitAt (s.ctx c).polders p
    | none => false

/-- A range of the context's memory as firmware or an engine reads it. -/
def State.readNat (s : State) (off n : Nat) : State × Nat :=
  let (s, bs, _) := s.engineRead off n
  (s, leNat bs)

end Sys2Proof.Machine
end

