-- ==== Sys2Proof/Machine/Operands.lean ====
section
/-! DEFINITION. The operand forms of a tile's units: element types and stream descriptors (R118, R119), elements of a tile store
read and written with their poison (R42, R142), byte ranges, and digests (R406–R408). -/
namespace Sys2Proof.Machine

/-! ### Exceptions -/

/-- Illegal instruction (R139). -/
def exIllegal : Nat := 2
/-- Load address-misaligned. -/
def exLoadMis : Nat := 4
/-- Load access fault. -/
def exLoad : Nat := 5
/-- Store/AMO address-misaligned. -/
def exStoreMis : Nat := 6
/-- Store/AMO access fault. -/
def exStore : Nat := 7
/-- OVERLAP. -/
def exOverlap : Nat := 24

/-! ### Element types (R118) -/

/-- FP64. -/
def tFP64 : Nat := 0x00
/-- FP32. -/
def tFP32 : Nat := 0x01
/-- FP16. -/
def tFP16 : Nat := 0x02
/-- BF16. -/
def tBF16 : Nat := 0x03
/-- E4M3. -/
def tE4M3 : Nat := 0x04
/-- E5M2. -/
def tE5M2 : Nat := 0x05
/-- E3M2. -/
def tE3M2 : Nat := 0x06
/-- E2M3. -/
def tE2M3 : Nat := 0x07
/-- E2M1. -/
def tE2M1 : Nat := 0x08
/-- INT64. -/
def tINT64 : Nat := 0x09
/-- INT32. -/
def tINT32 : Nat := 0x0A
/-- INT16. -/
def tINT16 : Nat := 0x0B
/-- INT8. -/
def tINT8 : Nat := 0x0C
/-- UINT8. -/
def tUINT8 : Nat := 0x0D
/-- INT4. -/
def tINT4 : Nat := 0x0E
/-- UINT4. -/
def tUINT4 : Nat := 0x0F
/-- MASK8. -/
def tMASK8 : Nat := 0x10
/-- XP128. -/
def tXP128 : Nat := 0x11
/-- E8M0. -/
def tE8M0 : Nat := 0x12

/-- Width of an element in bits. -/
def tyBits (t : Nat) : Nat :=
  match t with
  | 0x00 => 64 | 0x01 => 32 | 0x02 => 16 | 0x03 => 16 | 0x06 => 6 | 0x07 => 6 | 0x08 => 4 | 0x09 => 64 | 0x0A => 32
  | 0x0B => 16 | 0x0E => 4 | 0x0F => 4 | 0x11 => 128 | _ => 8

/-- Packed types ignore the stride (R119). -/
def tyPacked (t : Nat) : Bool := t = tE3M2 || t = tE2M3 || t = tE2M1 || t = tINT4 || t = tUINT4

/-- A floating-point type. -/
def tyFloat (t : Nat) : Bool := t ≤ 0x08

/-- An integer type. -/
def tyInt (t : Nat) : Bool := 0x09 ≤ t && t ≤ 0x0F

/-- A signed integer type. -/
def tySigned (t : Nat) : Bool := t ≠ tUINT8 && t ≠ tUINT4

/-- The format of a floating-point type. -/
def tyFmt (t : Nat) : Fmt :=
  match t with
  | 0x00 => fmtFP64 | 0x01 => fmtFP32 | 0x02 => fmtFP16 | 0x03 => fmtBF16 | 0x04 => fmtE4M3 | 0x05 => fmtE5M2
  | 0x06 => fmtE3M2 | 0x07 => fmtE2M3 | _ => fmtE2M1

/-- The integer an element of an integer type holds. -/
def tyRead (t n : Nat) : Int := if tySigned t then signedOf (tyBits t) n else (n : Int)

/-! ### Units of a tile -/

/-- A tile's unit state. -/
def State.tile (s : State) (t : Nat) : Tile := mapGet {} s.tiles t

/-- A tile's unit state replaced. -/
def State.setTile (s : State) (t : Nat) (x : Tile) : State := { s with tiles := mapPut {} s.tiles t x }

/-- Sticky bits of a tile CSR raised (R85). -/
def State.orCsr (s : State) (t n v : Nat) : State := s.setCsr t n (s.csr t n ||| v)

/-! ### Descriptors -/

/-- A stream descriptor of a tile (R118, R144). -/
def State.desc (s : State) (t n : Nat) : Desc :=
  { base := s.csrBits t (0x810 + 2 * n) 18 0
    stride := signedOf 20 (s.csrBits t (0x810 + 2 * n) 43 24)
    count := s.csrBits t (0x811 + 2 * n) 16 0
    ety := s.csrBits t (0x811 + 2 * n) 36 32 }

/-- The bit position of element i in the tile store. -/
def Desc.bitAt (d : Desc) (i : Nat) : Int :=
  if tyPacked d.ety then (d.base * 8 + i * tyBits d.ety : Nat) else ((d.base : Int) + i * d.stride) * 8

/-- A byte range [lo, hi) as integers; empty where hi ≤ lo. -/
abbrev Range := Int × Int

/-- The range of `n` elements (R139). -/
def Desc.range (d : Desc) (n : Nat) : Range :=
  if n = 0 then (0, 0)
  else if tyPacked d.ety then ((d.base : Int), (d.base + (n * tyBits d.ety + 7) / 8 : Nat))
  else
    let last := (d.base : Int) + (n - 1 : Nat) * d.stride
    (min (d.base : Int) last, max (d.base : Int) last + (tyBits d.ety / 8 : Nat))

/-- A range lies in the tile store. -/
def rangeIn (r : Range) : Bool := r.2 ≤ r.1 || (0 ≤ r.1 && r.2 ≤ 0x80000)

/-- Two ranges share a byte. -/
def rangesMeet (a b : Range) : Bool := a.1 < a.2 && b.1 < b.2 && a.1 < b.2 && b.1 < a.2

/-- Some range of one list meets some range of another. -/
def anyMeet (a b : List Range) : Bool := a.any fun x => b.any fun y => rangesMeet x y

/-- A range touches the deque area. -/
def rangeDeque (r : Range) : Bool := rangesMeet r (0x7C000, 0x80000)

/-- Base and stride keep the alignment of R119 and R77. -/
def Desc.aligned (d : Desc) : Bool :=
  if tyPacked d.ety then d.base % 8 = 0
  else d.base % (tyBits d.ety / 8) = 0 && d.stride % (tyBits d.ety / 8 : Nat) = 0

/-! ### Elements of a tile store -/

/-- An element read: its bits and whether a word it lies in is poisoned. -/
abbrev Elem := Nat × Bool

/-- `w` bits at bit position `pos` of tile t's store. -/
def State.readBits (s : State) (t pos w : Nat) : Elem :=
  let a := pos / 8
  let n := (pos % 8 + w + 7) / 8
  (s.loadNat (storeAt t + a) n / 2 ^ (pos % 8) % 2 ^ w, s.wordsPoisoned (storeAt t + a) n)

/-- Element i of a stream. -/
def State.elem (s : State) (t : Nat) (d : Desc) (i : Nat) : Elem := s.readBits t (d.bitAt i).toNat (tyBits d.ety)

/-- The first n elements of a stream. -/
def State.elems (s : State) (t : Nat) (d : Desc) (n : Nat) : List Elem := (List.range n).map fun i => s.elem t d i

/-- An element to be written: bit position, width, bits, poison. -/
structure Put where
  pos : Nat
  w : Nat
  v : Nat
  poison : Bool := false
  deriving DecidableEq, Repr

/-- The bits of one write placed in the store. -/
def putBitsAt (m : List Host.Cell) (base : Nat) (p : Put) : List Host.Cell :=
  let a := base + p.pos / 8
  let n := (p.pos % 8 + p.w + 7) / 8
  let old := leNat (memRead m a n)
  memWrite m a (leBytes n (putBits old (p.pos % 8 + p.w - 1) (p.pos % 8) p.v))

/-- The 64-bit words that a write touches. -/
def Put.words (p : Put) : List Nat := unitsOf 64 p.pos p.w

/-- Bits of word u that a write covers. -/
def Put.covers (p : Put) (u : Nat) : Nat := min (p.pos + p.w) (u * 64 + 64) - max p.pos (u * 64)

/-- The first and the past-the-last byte of an element. -/
def Put.span (p : Put) : Nat × Nat := (p.pos / 8, (p.pos + p.w + 7) / 8)

/-- The 256 B granules that some elements touch, each with the least range of its bytes that holds them: what watch ranges see of
one instruction's writes (R166), once per granule. -/
def touched (ps : List Put) : List (Nat × Nat) :=
  let gs := (ps.flatMap fun p => unitsOf 256 p.span.1 (p.span.2 - p.span.1)).eraseDups
  gs.map fun g =>
    let inG := ps.filter fun p => p.span.1 < g * 256 + 256 && g * 256 < p.span.2
    let lo := inG.foldl (fun a p => min a p.span.1) (g * 256 + 256)
    let hi := inG.foldl (fun a p => max a p.span.2) (g * 256)
    (max lo (g * 256), min hi (g * 256 + 256) - max lo (g * 256))

/-- Elements written by one instruction or request (R42): a word that the write covers whole gets valid check bits, a word that it
covers in part keeps its poison, and a poisoned element poisons the words it lies in. -/
def State.putElems (s : State) (t : Nat) (ps : List Put) : State :=
  let base := storeAt t
  let words := (ps.flatMap Put.words).eraseDups
  let mark := fun (m : SMap Bool) u =>
    let here := ps.filter fun p => p.words.contains u
    if here.any Put.poison then mapPut false m (base / 8 + u) true
    else if 64 ≤ (here.map fun p => p.covers u).sum then mapPut false m (base / 8 + u) false
    else m
  let s := { s with
    mem := ps.foldl (fun m p => putBitsAt m base p) s.mem
    poisonWord := words.foldl mark s.poisonWord }
  s.forEach (touched ps) fun (a, n) s => s.watchWrite (base + a) n

/-- The write of element i of a destination. -/
def Desc.put (d : Desc) (i : Nat) (e : Elem) : Put := ⟨(d.bitAt i).toNat, tyBits d.ety, e.1, e.2⟩

/-! ### Digests (R406–R408) -/

/-- The LD64 mix of an index and a value. -/
def ldMix (i v : Nat) : Nat :=
  let m := 2 ^ 64
  let x := (v % m) ^^^ (i * 0xB5A39C27E1D46F8B % m)
  let x := (x ^^^ (x / 2 ^ 32)) * 0xC7D258E31A9BF46D % m
  let x := (x ^^^ (x / 2 ^ 29)) * 0xE38F1B564C92D7A5 % m
  x ^^^ (x / 2 ^ 32)

/-- The contribution of an element of width w at an index: XP128 elements count as two. -/
def ldPart (w i : Nat) (e : Elem) : Nat :=
  if e.2 then ldMix i 0
  else if w = 128 then ldMix (2 * i) (e.1 % 2 ^ 64) + ldMix (2 * i + 1) (e.1 / 2 ^ 64)
  else ldMix i e.1

/-- Elements at given indices enter the tile's running digest. -/
def State.digest (s : State) (t w : Nat) (es : List (Nat × Elem)) : State :=
  let sum := es.foldl (fun a x => a + ldPart w x.1 x.2) (s.csr t 0x884)
  let s := (s.setCsr t 0x884 (sum % 2 ^ 64)).setCsr t 0x885 ((s.csr t 0x885 + es.length) % 2 ^ 64)
  if es.any fun x => x.2.2 then s.orCsr t 0x880 0x100 else s

/-- A stream instruction or FCU request digests the positions it wrote when its d is descriptor `SD`, and advances `ldidx`. -/
def State.digestStream (s : State) (t dn w positions : Nat) (es : List (Nat × Elem)) : State :=
  let ctl := s.csr t 0x880
  if bitAt ctl 0 && bits ctl 3 1 = dn then
    let idx := s.csr t 0x881
    let step := s.csr t 0x882
    let s := s.digest t w (es.map fun x => ((idx + x.1 * step) % 2 ^ 64, x.2))
    s.setCsr t 0x881 ((idx + positions * step) % 2 ^ 64)
  else s

end Sys2Proof.Machine
end

