-- ==== Sys2Proof/Machine/Transcend.lean ====
section
/-! DEFINITION. The transcendentals of the stream unit (R129): exact results where they are representable, else one of the two
values next to the exact result, picked by a fixed function of the input. -/
namespace Sys2Proof.Machine

/-! ### Directed rounding -/

/-- The value next to an exact magnitude that lies just above `m * 2^e`: the one above it when `up`
is set, else the one below; NX, OF on overflow, and UF where the result is tiny after rounding (R65, R69, R129). -/
def Fmt.faithful (f : Fmt) (neg : Bool) (m : Nat) (e : Int) (up : Bool) : Res :=
  let l : Int := (Nat.log2 m : Int) + e
  let t := l - f.mbits
  let te := max t f.qmin
  let cut := fun (t : Int) => (if t ≤ e then m * pow2 (e - t) else m / pow2 (t - e)) + up.toNat
  let q := cut te
  let tiny := l < f.qmin + f.mbits && !(l = f.qmin + f.mbits - 1 && cut t = 2 ^ (f.mbits + 1))
  if f.topExp < te || (te = f.topExp && f.topSig < q) then (f.infBits neg, flOF + flNX)
  else (f.encode neg q te, flNX + tiny.toNat * flUF)

/-! ### Fixed-point series with 320 fraction bits -/

/-- Fraction bits. -/
def fxBits : Nat := 320
/-- One. -/
def fxOne : Nat := 2 ^ 320

/-- Σ z^(2k+1) / (2k+1) from a term `p` on, over `n` terms. -/
def atanhFrom (z2 : Nat) : Nat → Nat → Nat → Nat
  | 0, _, _ => 0
  | n + 1, k, p => p / (2 * k + 1) + atanhFrom z2 n (k + 1) (p * z2 / fxOne)

/-- 2 atanh z for 0 ≤ z ≤ 1/3. -/
def twoAtanh (z : Nat) : Nat := 2 * atanhFrom (z * z / fxOne) 110 0 z

/-- ln 2. -/
def fxLn2 : Nat := twoAtanh (fxOne / 3)

/-- Σ r^k / k! from a term on, over `n` terms. -/
def expFrom (r : Nat) : Nat → Nat → Nat → Nat
  | 0, _, _ => 0
  | n + 1, k, p => p + expFrom r n (k + 1) (p * r / fxOne / (k + 1))

/-- More than every rounding of the series, in units of 2⁻³²⁰. -/
def fxSlack : Nat := 2 ^ 24

/-- `z * 2^e` in fixed point, towards −∞. -/
def fxOf (z : Int) (e : Int) : Int :=
  let k := e + fxBits
  if 0 ≤ k then z * pow2 k else z / (pow2 (-k) : Nat)

/-- A value just below eˣ, for x = `z * 2^e` not 0, as a magnitude and an exponent. -/
def expBelow (z : Int) (e : Int) : Nat × Int :=
  let l : Int := (Nat.log2 z.natAbs : Int) + e
  if 11 ≤ l then (1, if z < 0 then -5000 else 5000)
  else if l < -60 then if z < 0 then (2 ^ 200 - 1, -200) else (1, 0)
  else
    let x := fxOf z e
    let n := x / (fxLn2 : Int)
    let r := (x - n * fxLn2).toNat
    (expFrom r 90 0 fxOne - fxSlack, n - fxBits)

/-- ln (m * 2^e) for m * 2^e not 0: its sign, and a value just below its magnitude. -/
def lnBelow (m : Nat) (e : Int) : Bool × Nat × Int :=
  let k := Nat.log2 m
  let one := 2 ^ k
  let z := (m - one) * fxOne / (m + one)
  let v : Int := ((k : Int) + e) * fxLn2 + twoAtanh z
  (v < 0, v.natAbs - fxSlack, -(fxBits : Int))

/-! ### The functions -/

/-- `sv.exp` of R129. -/
def Fmt.expV (f : Fmt) (x : FVal) (up : Bool) : Res :=
  match x with
  | .nan s => f.nanRes s
  | .inf n => (if n then 0 else f.infBits false, 0)
  | .fin n m e =>
    if m = 0 then f.round false 1 0
    else
      let (q, d) := expBelow (signed n m) e
      f.faithful false q d up

/-- `sv.log`. -/
def Fmt.logV (f : Fmt) (x : FVal) (up : Bool) : Res :=
  match x with
  | .nan s => f.nanRes s
  | .inf n => if n then f.invalid else (f.infBits false, 0)
  | .fin n m e =>
    if m = 0 then (f.infBits true, flDZ)
    else if n then f.invalid
    else if m = 2 ^ Nat.log2 m && (Nat.log2 m : Int) + e = 0 then (0, 0)
    else
      let (neg, q, d) := lnBelow m e
      f.faithful neg q d up

/-- `sv.recip`, correctly rounded. -/
def Fmt.recipV (f : Fmt) (x : FVal) : Res := f.divV (.fin false 1 0) x

/-- `sv.rsqrt`. -/
def Fmt.rsqrtV (f : Fmt) (x : FVal) (up : Bool) : Res :=
  match x with
  | .nan s => f.nanRes s
  | .inf n => if n then f.invalid else (0, 0)
  | .fin n m e =>
    if m = 0 then (f.infBits n, flDZ)
    else if n then f.invalid
    else
      let m' := if e % 2 = 0 then m else 2 * m
      let e' := if e % 2 = 0 then e else e - 1
      let k := 2 * (Nat.log2 m' + 100)
      let r := isqrt (2 ^ k / m') (k / 2 + 1) 0
      let d : Int := -(e' / 2) - (k / 2 : Nat)
      if r * r * m' = 2 ^ k then f.round false r d else f.faithful false r d up

/-- Function 0 exp, 1 log, 2 recip, 3 rsqrt of an encoding. -/
def Fmt.transcend (f : Fmt) (fn a : Nat) : Res :=
  let x := f.decode a
  let up := Config.roundsUp fn f.width a
  match fn with
  | 0 => f.expV x up
  | 1 => f.logV x up
  | 2 => f.recipV x
  | _ => f.rsqrtV x up

end Sys2Proof.Machine
end

