-- ==== Sys2Proof/Machine/Stream.lean ====
section
/-! DEFINITION. Stream instructions (R117–R144): decoding, the checks of R139, and the elements each instruction computes. -/
namespace Sys2Proof.Machine

/-! ### The word (R123–R125) -/

/-- The row of a stream instruction: funct5 × 16 + funct4. -/
def svCode (w : Nat) : Nat := bits w 31 23

/-- A group and operation that R124 lists. -/
def svListed (code : Nat) : Bool :=
  code ≤ 0x0A || (0x10 ≤ code && code ≤ 0x17) || (0x20 ≤ code && code ≤ 0x24) || code = 0x28 ||
    (0x30 ≤ code && code ≤ 0x33) || (0x40 ≤ code && code ≤ 0x43) || code = 0x50 || (0x60 ≤ code && code ≤ 0x63) ||
    (0x70 ≤ code && code ≤ 0x74) || code = 0x80 || (0x90 ≤ code && code ≤ 0x93)

/-- An FCU request. -/
def svFcu (code : Nat) : Bool := 0x90 ≤ code
/-- A position instruction. -/
def svPosition (code : Nat) : Bool := 0x60 ≤ code && code ≤ 0x63
/-- A reduction. -/
def svReduction (code : Nat) : Bool := 0x40 ≤ code && code ≤ 0x43

/-- A stream instruction with the state it reads at issue. -/
structure SvOp where
  code : Nat
  w : Nat
  vl : Nat
  /-- The reduction runs in SIDE mode. -/
  side : Bool
  /-- The SAT bit. -/
  sat : Bool
  /-- The XP128 exponent is derived. -/
  derive : Bool
  masked : Bool
  d : Desc
  s1 : Desc
  s2 : Desc
  s3 : Desc
  mask : Desc
  qpos : Nat
  kpos : Nat
  win : Nat
  klim : Nat
  shuf : Nat
  deriving DecidableEq, Repr

/-- The mode bits Q. -/
def svQ (w : Nat) : Nat := bits w 22 21

/-- A choice that Q makes or leaves to `svctl`. -/
def svChoice (q : Nat) (dflt : Bool) : Bool := if q = 1 then false else if q = 2 then true else dflt

/-- An instruction word with what it reads at issue (R144). -/
def State.svOp (s : State) (t w : Nat) : SvOp :=
  { code := svCode w, w := w, vl := s.csrBits t 0x800 16 0
    side := svChoice (svQ w) (bitAt (s.csr t 0x801) 0)
    sat := svChoice (svQ w) (bitAt (s.csr t 0x801) 1)
    derive := svQ w = 1
    masked := bitAt w 19
    d := s.desc t (bits w 9 7), s1 := s.desc t (bits w 12 10), s2 := s.desc t (bits w 15 13), s3 := s.desc t (bits w 18 16)
    mask := s.desc t 7
    qpos := s.csrBits t 0x804 23 0, kpos := s.csrBits t 0x804 47 24
    win := s.csrBits t 0x805 23 0, klim := s.csrBits t 0x805 47 24
    shuf := s.csr t 0x806 }

/-- The shift of a conversion between integer types (R133). -/
def SvOp.shift (o : SvOp) : Nat := bits o.w 17 13

/-! ### Operand roles -/

/-- A conversion between two integer types, whose word carries a shift (R133, R134). -/
def SvOp.shifts (o : SvOp) : Bool := (o.code = 0x80 || o.code = 0x90) && tyInt o.d.ety && tyInt o.s1.ety

/-- The instruction names s1. -/
def SvOp.uses1 (o : SvOp) : Bool := !svPosition o.code

/-- The instruction names s2. -/
def SvOp.uses2 (o : SvOp) : Bool :=
  [0x00, 0x01, 0x02, 0x03, 0x04, 0x06, 0x07, 0x10, 0x11, 0x12, 0x13, 0x15, 0x16, 0x17, 0x20, 0x21, 0x22, 0x23, 0x24, 0x28,
    0x40, 0x41, 0x42, 0x43, 0x50, 0x70, 0x72, 0x91, 0x92, 0x93].contains o.code ||
  (o.code = 0x90 && (o.d.ety = tXP128 || o.s1.ety = tXP128))

/-- A sum in XP128 at the exponent in s3 (R136). -/
def SvOp.xpSum (o : SvOp) : Bool := o.code = 0x40 && o.side && o.s1.ety = tFP64

/-- The instruction names s3. -/
def SvOp.uses3 (o : SvOp) : Bool := o.code = 0x03 || o.code = 0x28 || o.code = 0x50 || o.code = 0x93 || o.xpSum

/-- Fields of unused operands are 0 (R124, R133). -/
def SvOp.fieldsClear (o : SvOp) : Bool :=
  (o.uses1 || bits o.w 12 10 = 0) &&
    (if o.shifts then !bitAt o.w 18 else (o.uses2 || bits o.w 15 13 = 0) && (o.uses3 || bits o.w 18 16 = 0))

/-- Q is allowed (R125). -/
def SvOp.modeOk (o : SvOp) : Bool :=
  let q := svQ o.w
  if svReduction o.code || o.code = 0x50 || o.code = 0x80 then q ≤ 2
  else if svFcu o.code then if o.d.ety = tXP128 then q ≤ 1 else q ≤ 2
  else q = 0

/-! ### Types (R126, R129–R134, R136) -/

/-- FP64, FP32, FP16, BF16. -/
def tyFlt (t : Nat) : Bool := t ≤ 0x03

/-- Arithmetic types (R126). -/
def tyArith (t : Nat) : Bool := tyFlt t || (0x09 ≤ t && t ≤ 0x0D)

/-- Bitwise types. -/
def tyBitwise (t : Nat) : Bool := (0x09 ≤ t && t ≤ 0x0D) || t = tMASK8

/-- The column of R86 that a type stands in: FP64, FP32, FP16 and BF16, FP8, FP4 and six-bit types, INT64 to INT16, 8-bit
integers, 4-bit integers, XP128; 9 for types in no column. -/
def tyColumn (t : Nat) : Nat :=
  match t with
  | 0x00 => 0 | 0x01 => 1 | 0x02 => 2 | 0x03 => 2 | 0x04 => 3 | 0x05 => 3 | 0x06 => 4 | 0x07 => 4 | 0x08 => 4
  | 0x09 => 5 | 0x0A => 5 | 0x0B => 5 | 0x0C => 6 | 0x0D => 6 | 0x0E => 7 | 0x0F => 7 | 0x11 => 8 | _ => 9

/-- The pairs marked S (R86). -/
def pairS (src dst : Nat) : Bool :=
  let a := tyColumn src
  let b := tyColumn dst
  match a with
  | 0 => b = 0
  | 1 => b = 1 || b = 2 || b = 3 || b = 5 || b = 6
  | 2 => b = 1 || b = 2 || b = 3 || b = 5 || b = 6
  | 3 => b = 1 || b = 2 || b = 3 || b = 5 || b = 6
  | 5 => b = 1 || b = 2 || b = 3 || b = 5 || b = 6
  | 6 => b = 1 || b = 2 || b = 5 || b = 6
  | _ => false

/-- The pairs marked F, MX columns and XP128 to XP128 left out (R86, R134). -/
def pairF (src dst : Nat) : Bool :=
  let a := tyColumn src
  let b := tyColumn dst
  match a with
  | 0 => 1 ≤ b && b ≤ 8
  | 1 => b = 0 || b = 4 || b = 7 || b = 8
  | 2 => b = 0 || b = 4 || b = 7 || b = 8
  | 3 => b = 0 || b = 4 || b = 7 || b = 8
  | 4 => b = 0 || b = 1 || b = 2 || b = 3
  | 5 => b = 0 || b = 7 || b = 8
  | 6 => b = 0 || b = 7 || b = 8
  | 7 => b = 0 || b = 1 || b = 2 || b = 5 || b = 6
  | 8 => b = 0 || b = 1
  | _ => false

/-- Element types of an MX block (R70, R134). -/
def tyMxElem (t : Nat) : Bool := (0x04 ≤ t && t ≤ 0x08) || t = tINT8

/-- The combination of types that a reduction takes (R136). -/
def reductionTypes (code : Nat) (side : Bool) (d a : Nat) : Bool :=
  match code with
  | 0x40 =>
    if a = tINT32 || a = tINT64 then d = tINT64
    else if a = tFP64 then if side then d = tFP64 || d = tXP128 else d = tFP64
    else if a = tFP32 || a = tFP16 || a = tBF16 then d = (if side then tFP64 else tFP32)
    else false
  | 0x43 => (a = tFP64 || a = tFP32) && d = tINT16
  | _ => d = a && tyArith a

/-- The type combination is allowed. -/
def SvOp.typesOk (o : SvOp) : Bool :=
  let d := o.d.ety
  let a := o.s1.ety
  let b := o.s2.ety
  let c := o.s3.ety
  (!o.masked || o.mask.ety = tMASK8) &&
  (if o.code ≤ 0x0A then
    if o.code = 0x0A then d = a && d ≤ 0x12
    else d = a && tyArith d && (!o.uses2 || b = d) && (!o.uses3 || c = d) && ((o.code ≠ 0x04 && o.code ≠ 0x05) || tyFlt d)
  else if o.code ≤ 0x17 then d = a && tyBitwise d && (!o.uses2 || b = d)
  else if o.code ≤ 0x24 then d = tMASK8 && a = b && tyArith a
  else if o.code = 0x28 then d = a && d = b && d ≤ 0x12 && c = tMASK8
  else if o.code ≤ 0x33 then d = a && (d = tFP32 || d = tFP64)
  else if o.code ≤ 0x43 then b = d && reductionTypes o.code o.side d a && (!o.xpSum || c = tINT16)
  else if o.code = 0x50 then a = tFP32 && b = tFP32 && c = tFP32 && (d = tFP32 || d = tBF16)
  else if o.code ≤ 0x63 then d = (if o.code = 0x63 then tINT32 else tMASK8)
  else if o.code ≤ 0x74 then
    d = a && d ≤ 0x12 && !tyPacked d && (o.code ≠ 0x70 || b = tINT32) && (o.code ≠ 0x72 || b = d)
  else if o.code = 0x80 then pairS a d
  else if o.code = 0x90 then pairF a d && (!o.uses2 || b = tINT16)
  else if o.code = 0x91 then tyColumn a ≤ 4 && tyMxElem d && b = tE8M0
  else if o.code = 0x92 then tyMxElem a && b = tE8M0 && tyFlt d
  else a = tXP128 && d = tXP128 && b = tINT16 && c = tINT16)

/-! ### Cost (R122) -/

/-- The cost class of an instruction. -/
def SvOp.cost (o : SvOp) : Nat :=
  let w := tyBits o.s1.ety
  if svFcu o.code || svPosition o.code then 1
  else if o.code = 0x80 then if w = 64 || tyBits o.d.ety = 64 then 2 else 1
  else if o.code = 0x70 then if w = 128 then 8 else 4
  else if o.code = 0x71 then if w = 128 then 8 else if w = 64 then 2 else 1
  else if 0x72 ≤ o.code then if w = 128 then 8 else if w = 64 then 4 else if w = 32 then 2 else 1
  else if o.code = 0x50 then if o.side then 4 else 2
  else if svReduction o.code then if o.side then 4 else if w = 64 then 2 else 1
  else if 0x30 ≤ o.code && o.code ≤ 0x33 then if w = 64 then 8 else 2
  else if o.code = 0x04 || o.code = 0x05 then if w = 64 then 8 else 4
  else if w = 128 then 4
  else if w = 64 then 2 else 1

/-! ### Streams of an instruction -/

/-- A stream as an instruction uses it: elements in its range, elements that `COUNT` has to hold, and whether it is written. -/
structure Strm where
  desc : Desc
  n : Nat
  need : Nat
  dest : Bool
  deriving DecidableEq, Repr

/-- A named stream of n elements (R139): a stride of 0 asks nothing of `COUNT`. -/
def strm (d : Desc) (n : Nat) (dest : Bool) : Strm :=
  { desc := d, n := n, need := if d.stride = 0 && !tyPacked d.ety then 0 else n, dest := dest }

/-- A state record of `sv.smx`: four consecutive words (R130). -/
def recordStrm (d : Desc) (dest : Bool) : Strm :=
  { desc := { d with stride := 4 }, n := 4, need := if d.stride = 0 then 0 else 1, dest := dest }

/-- Elements of d. -/
def SvOp.destCount (o : SvOp) : Nat :=
  if svReduction o.code then min 1 o.vl else if o.code = 0x72 then 2 * o.vl else o.vl

/-- The blocks of 32 elements of vl (R134). -/
def SvOp.blocks (o : SvOp) : Nat := (o.vl + 31) / 32

/-- The streams of s1, s2 and s3 (R132, R134, R136). -/
def SvOp.sources (o : SvOp) : List Strm :=
  let a := if !o.uses1 then []
    else if o.code = 0x70 then [{ desc := o.s1, n := o.s1.count, need := 0, dest := false }]
    else if o.code = 0x73 || o.code = 0x74 then [strm o.s1 (2 * o.vl) false]
    else [strm o.s1 o.vl false]
  let b := if !o.uses2 then []
    else if o.code = 0x50 then [recordStrm o.s2 false]
    else if svReduction o.code || o.code = 0x93 then [strm o.s2 1 false]
    else if o.code = 0x90 then [strm o.s2 1 (o.derive && o.d.ety = tXP128)]
    else if o.code = 0x91 then [strm o.s2 o.blocks true]
    else if o.code = 0x92 then [strm o.s2 o.blocks false]
    else [strm o.s2 o.vl false]
  let c := if !o.uses3 then []
    else if o.code = 0x50 then [recordStrm o.s3 true]
    else if o.code = 0x93 || o.xpSum then [strm o.s3 1 false]
    else [strm o.s3 o.vl false]
  a ++ b ++ c

/-- Every stream of the instruction: d, the sources, the mask. -/
def SvOp.streams (o : SvOp) : List Strm :=
  [strm o.d o.destCount true] ++ o.sources ++ (if o.masked then [strm o.mask o.vl false] else [])

/-- The byte ranges read. -/
def SvOp.reads (o : SvOp) : List Range := (o.streams.filter fun x => !x.dest).map fun x => x.desc.range x.n

/-- The byte ranges written. -/
def SvOp.writes (o : SvOp) : List Range := (o.streams.filter (·.dest)).map fun x => x.desc.range x.n

/-! ### The checks of R139 -/

/-- The first row of R139. -/
def SvOp.illegal (o : SvOp) : Bool :=
  !(svListed o.code && bits o.w 6 0 = 0x2B && !bitAt o.w 20 && svQ o.w ≠ 3) || !o.modeOk || !o.fieldsClear ||
    (o.masked && svPosition o.code) || !o.typesOk || 65536 < o.vl * o.cost ||
    (svPosition o.code && 0x1000000 < o.kpos + o.vl) ||
    o.streams.any fun x => x.dest && 1 < x.n && x.desc.stride = 0 && !tyPacked x.desc.ety

/-- The range, count or ownership rule that a stream breaks; the deque area is out of reach while its unit owns it (R160). -/
def strmOut (deque : Bool) (x : Strm) : Bool :=
  let r := x.desc.range x.n
  !rangeIn r || x.desc.count < x.need || (deque && rangeDeque r)

/-- Some destination overlaps another stream of the instruction. -/
def overlapping : List Strm → Bool
  | [] => false
  | x :: xs => (xs.any fun y => (x.dest || y.dest) && rangesMeet (x.desc.range x.n) (y.desc.range y.n)) || overlapping xs

/-- The checks in their order: the exception raised, or none. -/
def SvOp.check (o : SvOp) (deque : Bool) : Option Trap :=
  if o.illegal then some ⟨exIllegal, o.w⟩
  else if o.vl = 0 then none
  else match o.streams.find? (strmOut deque) with
    | some x => some ⟨if x.dest then exStore else exLoad, x.desc.base⟩
    | none =>
      match o.streams.find? fun x => !x.desc.aligned with
      | some x => some ⟨if x.dest then exStoreMis else exLoadMis, x.desc.base⟩
      | none => if overlapping o.streams then some ⟨exOverlap, o.w⟩ else none

/-! ### Elements -/

/-- What a stream instruction or FCU request writes. -/
structure SvRes where
  puts : List Put := []
  flags : Nat := 0
  idx : Bool := false
  /-- Written positions of d, for the digest. -/
  digest : List (Nat × Elem) := []
  deriving DecidableEq, Repr

/-- Element i of d: value, flags, poison, and an index outside its source. -/
structure EOut where
  v : Nat
  fl : Nat := 0
  poison : Bool := false
  idx : Bool := false
  deriving DecidableEq, Repr

/-- A mask element of SD7. -/
def State.svMask (s : State) (t : Nat) (o : SvOp) (i : Nat) : Elem :=
  if o.masked then s.elem t o.mask i else (1, false)

/-- The elements of d one by one (R128, R142): a masked-off element is not written, a poisoned one is written poisoned and raises no
flag; mask element `mi i` governs element i. -/
def State.svEach (s : State) (t : Nat) (o : SvOp) (n : Nat) (mi : Nat → Nat) (f : Nat → EOut) : SvRes :=
  let items := (List.range n).filterMap fun i =>
    let m := s.svMask t o (mi i)
    if m.2 then some (i, { v := 0, poison := true : EOut })
    else if m.1 % 2 = 0 then none
    else
      let e := f i
      some (i, if e.poison then { v := 0, poison := true } else e)
  { puts := items.map fun x => o.d.put x.1 (x.2.v, x.2.poison)
    flags := items.foldl (fun a x => a ||| x.2.fl) 0
    idx := items.any fun x => x.2.idx
    digest := items.map fun x => (x.1, x.2.v, x.2.poison) }

/-- IEEE 754-2019 minimum or maximum of two encodings (R127): a NaN gives the canonical NaN, −0 counts below +0. -/
def Fmt.minMax (f : Fmt) (mx : Bool) (a b : Nat) : Res :=
  let x := f.decode a
  let y := f.decode b
  if x.isNan || y.isNan then f.nanRes (x.isSnan || y.isSnan)
  else
    let less := x.lt y || (x.eq y && x.neg && !y.neg)
    (if less != mx then a else b, 0)

/-- An arithmetic operation of R127 on floats; code 0x00–0x09. -/
def Fmt.arith (f : Fmt) (code a b c : Nat) : Res :=
  let x := f.decode a
  let y := f.decode b
  match code with
  | 0 => f.addV x y
  | 1 => f.addV x (f.decode (b ^^^ f.signBit true))
  | 2 => f.mulV x y
  | 3 => f.fmaV x y (f.decode c)
  | 4 => f.divV x y
  | 5 => f.sqrtV x
  | 6 => f.minMax false a b
  | 7 => f.minMax true a b
  | 8 => if x.isNan then f.nanRes x.isSnan else (a % f.signBit true, 0)
  | _ => if x.isNan then f.nanRes x.isSnan else (a ^^^ f.signBit true, 0)

/-- An arithmetic operation of R127 on integers: sums and products wrap; an absolute value or negation that the type does not hold
is the free value `u`. -/
def intArith (t code a b c u : Nat) : Nat :=
  let w := tyBits t
  let x := tyRead t a
  let y := tyRead t b
  let (lo, hi) := intRange w (tySigned t)
  let fits := fun (z : Int) => if lo ≤ z && z ≤ hi then wrapTo w z else u % 2 ^ w
  match code with
  | 0 => wrapTo w (x + y)
  | 1 => wrapTo w (x - y)
  | 2 => wrapTo w (x * y)
  | 3 => wrapTo w (x * y + tyRead t c)
  | 6 => if x ≤ y then a else b
  | 7 => if x ≤ y then b else a
  | 8 => fits x.natAbs
  | _ => fits (-x)

/-- A bitwise operation of R124 on a word of width w; code 0x10–0x17. -/
def bitwise (w code a b : Nat) : Nat :=
  let m := 2 ^ w - 1
  let sh := b % w
  match code with
  | 0x10 => a &&& b
  | 0x11 => a ||| b
  | 0x12 => a ^^^ b
  | 0x13 => a &&& (b ^^^ m)
  | 0x14 => a ^^^ m
  | 0x15 => a * 2 ^ sh % 2 ^ w
  | 0x16 => a / 2 ^ sh
  | _ => wrapTo w (signedOf w a / (2 ^ sh : Nat))

/-- A bitwise operation on an element; MASK8 elements are their bit 0 (R119). -/
def bitwiseOn (t code a b : Nat) : Nat :=
  if t = tMASK8 then bitwise 1 code (a % 2) (b % 2) else bitwise (tyBits t) code a b

/-- A comparison of R127: code 0x20 eq, 0x21 ne, 0x22 lt, 0x23 le, 0x24 unord. -/
def compareOn (t code a b : Nat) : Res :=
  if tyFlt t then
    let f := tyFmt t
    let x := f.decode a
    let y := f.decode b
    let un := x.isNan || y.isNan
    let nv := if x.isSnan || y.isSnan || (un && (code = 0x22 || code = 0x23)) then flNV else 0
    match code with
    | 0x20 => ((x.eq y).toNat, nv)
    | 0x21 => ((!x.eq y).toNat, nv)
    | 0x22 => ((!un && x.lt y).toNat, nv)
    | 0x23 => ((!un && !y.lt x).toNat, nv)
    | _ => (un.toNat, nv)
  else
    let x := tyRead t a
    let y := tyRead t b
    match code with
    | 0x20 => ((x == y).toNat, 0)
    | 0x21 => ((x != y).toNat, 0)
    | 0x22 => ((decide (x < y)).toNat, 0)
    | 0x23 => ((decide (x ≤ y)).toNat, 0)
    | _ => (0, 0)

/-- A conversion of R86 between two plain types (R69, R76); FP64 to FP64 copies. -/
def convertOn (src dst a : Nat) (sat : Bool) (shift : Nat) : Res :=
  if tyInt src then
    if tyInt dst then narrowInt (tyBits dst) (tySigned dst) (tyRead src a) shift
    else (tyFmt dst).ofInt (tyRead src a) sat
  else if tyInt dst then toInt (tyBits dst) (tySigned dst) ((tyFmt src).decode a)
  else if src = tFP64 && dst = tFP64 then (a, 0)
  else (tyFmt dst).convert ((tyFmt src).decode a) sat

/-! ### Reductions (R136–R138) -/

/-- The elements that take part in a reduction: none where masked off, and the elements of the sum otherwise. -/
def State.svLive (s : State) (t : Nat) (o : SvOp) : List (Option Nat) :=
  (List.range o.vl).map fun i =>
    let m := s.svMask t o i
    let e := s.elem t o.s1 i
    if m.2 || m.1 % 2 = 0 || e.2 then none else some e.1

/-- A poisoned element or mask element that is not masked off (R142). -/
def State.svPoisoned (s : State) (t : Nat) (o : SvOp) : Bool :=
  (List.range o.vl).any fun i =>
    let m := s.svMask t o i
    m.2 || (m.1 % 2 = 1 && (s.elem t o.s1 i).2)

/-- One level of the pairwise tree. -/
def pairUp {α : Type} (f : α → α → α) : List α → List α
  | x :: y :: l => f x y :: pairUp f l
  | l => l

/-- The pairwise tree of a chunk of 2^k values. -/
def pairTree {α : Type} (f : α → α → α) : Nat → List α → List α
  | 0, l => l
  | k + 1, l => pairTree f k (pairUp f l)

/-- A list cut into chunks of `n`; at most `fuel` of them. -/
def chunksOf {α : Type} (n : Nat) : Nat → List α → List (List α)
  | 0, _ => []
  | fuel + 1, l => if l.isEmpty then [] else l.take n :: chunksOf n fuel (l.drop n)

/-- A TREE reduction (R137): chunks of 2^k values, `pad` for the absent ones, each summed by the pairwise tree and added to the
accumulator in order. -/
def treeSum {α : Type} (f : α → α → α) (pad : α) (k : Nat) (init : α) (l : List α) : α :=
  (chunksOf (2 ^ k) (l.length + 1) l).foldl (fun acc c =>
    f acc ((pairTree f k (c ++ List.replicate (2 ^ k - c.length) pad)).headD pad)) init

/-- An add of results, flags collected. -/
def Fmt.addRes (f : Fmt) (a b : Res) : Res :=
  let r := f.addV (f.decode a.1) (f.decode b.1)
  (r.1, r.2 ||| a.2 ||| b.2)

/-- An INT64 add clamped with SAT (R136). -/
def satAdd (a b : Res) : Res :=
  let r := clampInt 64 true (signedOf 64 a.1 + signedOf 64 b.1) flSAT
  (r.1, r.2 ||| a.2 ||| b.2)

/-- An XP128 add of results. -/
def xpAddRes (a b : Res) : Res :=
  let r := xpAdd a.1 b.1
  (r.1, r.2 ||| a.2 ||| b.2)

/-- The least power of two that splits a tree's chunks: 8 for FP64 and INT64 sources, 16 otherwise (R137). -/
def treeLevels (t : Nat) : Nat := if t = tFP64 || t = tINT64 then 3 else 4

/-- `sv.rsum` over the values that take part. -/
def sumOn (o : SvOp) (init : Nat) (ex : Int) (l : List (Option Nat)) : Res :=
  let a := o.s1.ety
  if tyInt a then
    let xs := l.map fun x => (x.elim 0 fun n => wrapTo 64 (tyRead a n), 0)
    if o.side then xs.foldl satAdd (init, 0) else treeSum satAdd (0, 0) (treeLevels a) (init, 0) xs
  else if o.xpSum then
    let first := if o.d.ety = tXP128 then (init, 0) else xpOfFloat (fmtFP64.decode init) ex
    let sum := (l.filterMap id).foldl (fun acc n => xpAddRes acc (xpOfFloat (fmtFP64.decode n) ex)) first
    if o.d.ety = tXP128 then sum
    else
      let r := fmtFP64.ofXp sum.1 ex
      (r.1, r.2 ||| sum.2)
  else
    let f := tyFmt o.d.ety
    let widen := fun n => f.convert ((tyFmt a).decode n) false
    if o.side then (l.filterMap id).foldl (fun acc n => f.addRes acc (widen n)) (init, 0)
    else
      let pad := (f.signBit true, 0)
      treeSum f.addRes pad (treeLevels a) (init, 0) (l.map fun x => x.elim pad widen)

/-- `sv.rexp` (R138): floor(log₂ |x|) of the finite non-zero elements. -/
def expOn (t init : Nat) (xs : List Nat) : Res :=
  let r := xs.foldl (fun (acc : Int × Nat) n =>
    match (tyFmt t).decode n with
    | .fin _ m e => if m = 0 then acc else (max acc.1 ((Nat.log2 m : Int) + e), acc.2)
    | _ => (acc.1, acc.2 ||| flNV)) (signedOf 16 init, 0)
  (wrapTo 16 r.1, r.2)

/-- A reduction's result over the values that take part. -/
def reduceOn (o : SvOp) (init : Nat) (ex : Int) (l : List (Option Nat)) : Res :=
  let a := o.s1.ety
  match o.code with
  | 0x40 => sumOn o init ex l
  | 0x43 => expOn a init (l.filterMap id)
  | c =>
    (l.filterMap id).foldl (fun acc n =>
      if tyFlt a then
        let r := (tyFmt a).minMax (c = 0x42) acc.1 n
        (r.1, r.2 ||| acc.2)
      else (intArith a (if c = 0x42 then 7 else 6) acc.1 n 0 0, acc.2)) (init, 0)

/-- A reduction (R136, R142). -/
def State.svReduce (s : State) (t : Nat) (o : SvOp) : SvRes :=
  let init := s.elem t o.s2 0
  let ex := if o.xpSum then s.elem t o.s3 0 else (0, false)
  let poison := s.svPoisoned t o || init.2 || ex.2
  let r := reduceOn o init.1 (signedOf 16 ex.1) (s.svLive t o)
  let e : Elem := (if poison then 0 else r.1, poison)
  { puts := [o.d.put 0 e], flags := r.2, digest := [(0, e)] }

/-! ### The online-softmax step (R130) -/

/-- −∞ in FP32. -/
def negInf32 : Nat := 0xFF800000

/-- `exp32 (rne32 (a − b))` with its flags. -/
def expDiff (a b : Nat) : Res :=
  let d := fmtFP32.arith 1 a b 0
  let r := fmtFP32.transcend 0 d.1
  (r.1, r.2 ||| d.2)

/-- One step of `sv.smx`; a poisoned score, mask element or state poisons every unmasked probability and the record. -/
def State.svSmx (s : State) (t : Nat) (o : SvOp) : SvRes :=
  let rec0 := { o.s2 with stride := 4 }
  let rec1 := { o.s3 with stride := 4 }
  let st := s.elems t rec0 4
  let m0 := (s.elem t rec0 0).1
  let l0 := (s.elem t rec0 1).1
  let poison := s.svPoisoned t o || st.any (·.2)
  let live := s.svLive t o
  let top := (live.filterMap id).foldl (fun acc n =>
    let r := fmtFP32.minMax true acc.1 n
    (r.1, r.2 ||| acc.2)) (m0, 0)
  let m1 := top.1
  let none' := m1 = negInf32
  let ps : List Res := live.map fun x => if none' then (0, 0) else x.elim (0, 0) fun n => expDiff n m1
  let r : Res := if none' then (0x3F800000, 0) else expDiff m0 m1
  let l1 : Res :=
    if none' then (l0, 0)
    else
      let vals := (ps.zip live).map fun x => x.2.map fun _ => x.1.1
      let f := if o.side then fmtFP64 else fmtFP32
      let sum := sumOn { o with code := 0x40, d := { ety := if o.side then tFP64 else tFP32 } } 0 0 vals
      let v := fmtFP32.fmaV (fmtFP32.decode l0) (fmtFP32.decode r.1) (f.decode sum.1)
      (v.1, v.2 ||| sum.2)
  let outs : List Res := ps.map fun p =>
    if o.d.ety = tBF16 then
      let v := fmtBF16.convert (fmtFP32.decode p.1) false
      (v.1, v.2 ||| p.2)
    else p
  let flags := outs.foldl (fun a p => a ||| p.2) (top.2 ||| r.2 ||| l1.2)
  let items := (List.range o.vl).zip outs |>.map fun x =>
    let m := s.svMask t o x.1
    let p := poison && (m.2 || m.1 % 2 = 1)
    (x.1, ((if p then 0 else x.2.1, p) : Elem), m.2 || m.1 % 2 = 1)
  let rc := fun i v => rec1.put i (if poison then 0 else v, poison)
  { puts := items.map (fun x => o.d.put x.1 x.2.1) ++ [rc 0 m1, rc 1 l1.1, rc 2 r.1, rc 3 0]
    flags := flags
    digest := (items.filter (·.2.2)).map fun x => (x.1, x.2.1) }

/-! ### Every instruction but the FCU requests -/

/-- Element i of sv.shuf's source (R132). -/
def shufIndex (shuf i : Nat) : Nat := 16 * (i / 16) + bits shuf (4 * (i % 16) + 3) (4 * (i % 16))

/-- What a stream instruction writes; `u i` is the free value of element i. -/
def State.svCompute (s : State) (t : Nat) (o : SvOp) : SvRes :=
  let a := fun i => s.elem t o.s1 i
  let b := fun i => s.elem t o.s2 i
  let c := fun i => s.elem t o.s3 i
  let ty := o.s1.ety
  let each := s.svEach t o
  let u := fun i => Config.freeValue (s.freeCount + i)
  if o.code = 0x0A then each o.vl id fun i => { v := (a i).1, poison := (a i).2 }
  else if o.code ≤ 0x09 then
    each o.vl id fun i =>
      let x := a i
      let y := if o.uses2 then b i else (0, false)
      let z := if o.uses3 then c i else (0, false)
      let r : Res := if tyFlt ty then (tyFmt ty).arith o.code x.1 y.1 z.1 else (intArith ty o.code x.1 y.1 z.1 (u i), 0)
      { v := r.1, fl := r.2, poison := x.2 || y.2 || z.2 }
  else if o.code ≤ 0x17 then
    each o.vl id fun i =>
      let y := if o.uses2 then b i else (0, false)
      { v := bitwiseOn ty o.code (a i).1 y.1, poison := (a i).2 || y.2 }
  else if o.code ≤ 0x24 then
    each o.vl id fun i =>
      let r := compareOn ty o.code (a i).1 (b i).1
      { v := r.1, fl := r.2, poison := (a i).2 || (b i).2 }
  else if o.code = 0x28 then
    each o.vl id fun i =>
      let x := if (c i).1 % 2 = 1 then a i else b i
      { v := x.1, poison := x.2 || (c i).2 }
  else if o.code ≤ 0x33 then
    each o.vl id fun i =>
      let r := (tyFmt ty).transcend (o.code - 0x30) (a i).1
      { v := r.1, fl := r.2, poison := (a i).2 }
  else if o.code ≤ 0x43 then s.svReduce t o
  else if o.code = 0x50 then s.svSmx t o
  else if o.code ≤ 0x63 then
    each o.vl id fun i =>
      let k := o.kpos + i
      let v := match o.code with
        | 0x60 => (decide (k ≤ o.qpos)).toNat
        | 0x61 => (decide (o.qpos < k + o.win) && decide (k ≤ o.qpos)).toNat
        | 0x62 => (decide (k < o.klim)).toNat
        | _ => k
      { v := v }
  else if o.code = 0x70 then
    each o.vl id fun i =>
      let x := signedOf 32 (b i).1
      if 0 ≤ x && x < o.s1.count then { v := (a x.toNat).1, poison := (b i).2 || (a x.toNat).2 }
      else { v := 0, poison := (b i).2, idx := true }
  else if o.code = 0x71 then
    each o.vl id fun i =>
      let j := shufIndex o.shuf i
      if j < o.vl then { v := (a j).1, poison := (a j).2 } else { v := 0, idx := true }
  else if o.code = 0x72 then
    each (2 * o.vl) (· / 2) fun i =>
      let x := if i % 2 = 0 then a (i / 2) else b (i / 2)
      { v := x.1, poison := x.2 }
  else if o.code ≤ 0x74 then
    each o.vl id fun i =>
      let x := a (2 * i + (o.code - 0x73))
      { v := x.1, poison := x.2 }
  else
    each o.vl id fun i =>
      let r := convertOn ty o.d.ety (a i).1 o.sat (if o.shifts then o.shift else 0)
      { v := r.1, fl := r.2, poison := (a i).2 }

/-- The result of an instruction or FCU request is written: elements, sticky flags, `svstat` and the digest (R85, R142, R143,
R408). -/
def State.svWrite (s : State) (t : Nat) (o : SvOp) (r : SvRes) : State :=
  let s := s.putElems t r.puts
  let s := s.orCsr t 0x802 r.flags
  let s := s.orCsr t 0x803 (r.idx.toNat + (r.puts.any Put.poison).toNat * 2)
  s.digestStream t (bits o.w 9 7) (tyBits o.d.ety) o.destCount r.digest

/-- A checked stream instruction executes. -/
def State.svRun (s : State) (t : Nat) (o : SvOp) : State :=
  if o.vl = 0 then s
  else
    let s' := s.svWrite t o (s.svCompute t o)
    if o.code = 0x08 || o.code = 0x09 then { s' with freeCount := s'.freeCount + o.vl } else s'

end Sys2Proof.Machine
end

