-- ==== Sys2Proof/Machine/Collective.lean ====
section
/-! DEFINITION. Collectives (R339–R352, R360): groups and trees, descriptors, combining, packets, timed barriers and the fabric
level of barrier slots. -/
namespace Sys2Proof.Machine

/-! ### Groups (R339) -/

/-- The valid group entry of a context with a group ID. -/
def State.groupOf (s : State) (c id : Nat) : Option Nat :=
  (s.coll.groups.map (·.2)).find? fun e => bitAt e 23 && bits e 19 16 = c && bits e 15 0 = id

/-- NMEMB of an entry. -/
def grpMembers (e : Nat) : Nat := bits e 49 32

/-- RANK of an entry. -/
def grpRank (e : Nat) : Nat := bits e 80 64

/-- First bit of a tree's fields in an entry. -/
def treeAt (tree : Nat) : Nat := 8 * (24 + 24 * tree)

/-- Node field of the parent in a tree. -/
def grpParent (e tree : Nat) : Nat := bits e (treeAt tree + 16) (treeAt tree)

/-- This node is the root of a tree. -/
def grpRoot (e tree : Nat) : Bool := bitAt e (treeAt tree + 31)

/-- Node fields of the children in a tree, in ascending child rank. -/
def grpChildren (e tree : Nat) : List Nat :=
  (List.range (bits e (treeAt tree + 26) (treeAt tree + 24))).map fun i =>
    bits e (treeAt tree + 32 + 24 * i + 16) (treeAt tree + 32 + 24 * i)

/-! ### The descriptor (R347, R348) -/

/-- A descriptor read from its 64 bytes. -/
def readCollDesc (pos : Nat) (bs : List Byte) : CollDesc :=
  let f := leField bs
  { op := f 0 1, red := f 1 1, ty := f 2 1, quick := bitAt (f 3 1) 0, canon := bitAt (f 3 1) 1, group := f 4 2,
    slot := f 6 1 % 8, seglog := f 7 1, root := f 8 4, margin := f 12 4, src := f 16 8, dst := f 24 8, count := f 32 8,
    aux := f 40 8, dstcap := f 48 8, xexp := f 56 2, pos := pos,
    reserved := bits (f 3 1) 7 2 ≠ 0 || f 58 2 ≠ 0 || bits (f 6 1) 7 3 ≠ 0 }

/-- ALLREDUCE, REDUCE and REDUCE_SCATTER. -/
def CollDesc.reduces (d : CollDesc) : Bool := d.op = 1 || d.op = 2 || d.op = 4

/-- SUM on FP64 or FP32: what CANON may select (R346, R401). -/
def CollDesc.canonSum (d : CollDesc) : Bool := d.reduces && d.red = 0 && (d.ty = tFP64 || d.ty = tFP32)

/-- An OP, RED and TYPE that R341 lists. -/
def CollDesc.listed (d : CollDesc) : Bool :=
  if d.reduces then
    let num := d.ty = tFP64 || d.ty = tFP32 || d.ty = tBF16 || d.ty = tINT32 || d.ty = tINT64
    match d.red with
    | 0 => num || d.ty = tXP128
    | 1 | 2 => num
    | 3 | 4 | 5 => d.ty = tINT32 || d.ty = tINT64
    | _ => false
  else if d.op = 3 || d.op = 5 || d.op = 6 then d.ty ≤ tE8M0 && !tyPacked d.ty
  else d.op = 8 || d.op = 9

/-- Bytes of an element of the descriptor's TYPE. -/
def CollDesc.size (d : CollDesc) : Nat := tyBits d.ty / 8

/-- The first check of R348. -/
def State.collBad (s : State) (c : Nat) (d : CollDesc) : Bool :=
  d.reserved || !d.listed || (d.canon && !d.canonSum) ||
    (d.quick && (d.op ≤ 6 && 64 < d.count * d.size)) ||
    (d.op = 9 && (!d.quick || ((s.ctx c).flasks.any fun f => s.slotMembers f d.slot ≠ 0))) ||
    (match s.groupOf c d.group with
      | none => true
      | some e => grpMembers e ≤ d.root) ||
    !(d.seglog ≤ 16 || d.seglog = 0xFF)

/-- The ranges that a member reads and writes, and their element sizes. -/
def CollDesc.ranges (d : CollDesc) (nmemb rank : Nat) : List (Nat × Nat × Nat) :=
  let z := d.size
  let src := if d.op = 3 && rank ≠ d.root then [] else
    [(d.src, d.count * (if d.op = 4 then nmemb else 1) * z, z)]
  let dst :=
    if d.op = 2 && rank ≠ d.root then []
    else [(d.dst, (if d.op = 5 then nmemb * d.count else if d.op = 6 then d.dstcap else d.count) * z, z)]
  if 8 ≤ d.op then [] else src ++ dst ++ (if d.op = 6 then [(d.aux, 8 * nmemb, 8)] else [])

/-- The second check of R348. -/
def State.collAccess (s : State) (c : Nat) (d : CollDesc) (e : Nat) : Bool :=
  (d.ranges (grpMembers e) (grpRank e)).any fun (a, n, z) => !s.inPolders c a n || a % z ≠ 0

/-! ### Shape of a run -/

/-- The exponents' mark of a NaN or an infinity (R346). -/
def expMark : Nat := 0x7FFF

/-- The INT16 that stands for no finite non-zero element (R138). -/
def expNone : Nat := 0x8000

/-- Elements of the data phase. -/
def CollRun.dataCount (r : CollRun) (nmemb : Nat) : Nat :=
  match r.desc.op with
  | 4 | 5 => nmemb * r.desc.count
  | 6 => r.first.foldl (· + ·) 0
  | 8 => 0
  | 9 => 1
  | _ => r.desc.count

/-- Elements of a segment (R346). -/
def CollRun.segSize (r : CollRun) (nmemb : Nat) : Nat :=
  if r.desc.seglog = 0xFF then max 1 (r.dataCount nmemb) else 2 ^ r.desc.seglog

/-- Elements of a phase. -/
def CollRun.elements (r : CollRun) (nmemb phase : Nat) : Nat :=
  if phase = 1 then r.dataCount nmemb
  else if r.desc.op = 6 then nmemb
  else (r.dataCount nmemb + r.segSize nmemb - 1) / r.segSize nmemb

/-- A phase runs on the quick path (R344–R346); one without elements does. -/
def CollRun.quickIn (r : CollRun) (nmemb phase : Nat) : Bool :=
  if phase = 1 then r.desc.quick || 8 ≤ r.desc.op || r.dataCount nmemb = 0
  else if r.desc.op = 6 then nmemb ≤ 8 else r.elements nmemb 0 ≤ 31

/-- Element type on the way up (R342, R345, R346). -/
def CollRun.upTy (r : CollRun) (phase : Nat) : Nat :=
  if phase = 0 then if r.desc.op = 6 then tINT64 else tINT16
  else if r.desc.op = 9 then tINT64
  else if r.desc.canon then tXP128
  else if r.desc.reduces && r.desc.ty = tBF16 then tFP32
  else r.desc.ty

/-- Element type on the way down. -/
def CollRun.downTy (r : CollRun) (phase : Nat) : Nat :=
  if phase = 0 || r.desc.op = 9 then r.upTy phase else r.desc.ty

/-- Elements of one chunk: 256 B of the accumulation type, or 64 B on the quick path (R344, R350). -/
def CollRun.perChunk (r : CollRun) (nmemb phase : Nat) : Nat :=
  (if r.quickIn nmemb phase then 64 else 256) / (tyBits (r.upTy phase) / 8)

/-- The elements of a phase that travel on a tree (R343, R344). -/
def CollRun.treeRange (r : CollRun) (nmemb phase tree : Nat) : Nat × Nat :=
  let n := r.elements nmemb phase
  let h := if r.quickIn nmemb phase then n else (n + 1) / 2
  if tree = 0 then (0, h) else (h, n)

/-- Chunks of a phase on a tree; a phase without elements sends one empty chunk on tree 0. -/
def CollRun.chunks (r : CollRun) (nmemb phase tree : Nat) : Nat :=
  let (lo, hi) := r.treeRange nmemb phase tree
  let m := r.perChunk nmemb phase
  if r.elements nmemb phase = 0 then if tree = 0 then 1 else 0 else (hi - lo + m - 1) / m

/-- A run has a first phase of exponents or counts. -/
def CollRun.twoPhase (r : CollRun) : Bool := r.desc.canon || r.desc.op = 6

/-- The number, in the run, of the first chunk of a phase on a tree. -/
def CollRun.chunkBase (r : CollRun) (nmemb phase tree : Nat) : Nat :=
  if phase = 1 && r.twoPhase then r.chunks nmemb 0 tree else 0

/-- The chunk index that a packet carries: a second phase on the same channel counts on from the first. -/
def CollRun.wireBase (r : CollRun) (nmemb phase tree : Nat) : Nat :=
  if phase = 1 && r.twoPhase && r.quickIn nmemb 0 = r.quickIn nmemb 1 then r.chunks nmemb 0 tree else 0

/-- The run's chunk number of a packet's chunk index on a channel. -/
def CollRun.ofWire (r : CollRun) (nmemb tree ix : Nat) (quick : Bool) : Nat :=
  if !r.twoPhase || (quick = r.quickIn nmemb 0) then ix else r.chunks nmemb 0 tree + ix

/-! ### Combining (R342, R346) -/

/-- An element's value and poison tag, and the flags it raised. -/
abbrev CollElem := Nat × Bool × Nat

/-- A source element read from memory. -/
def State.collLoad (s : State) (a ty : Nat) : Nat × Bool :=
  let z := tyBits ty / 8
  (s.loadNat a z, s.linesPoisoned a z)

/-- The exponent of an element's segment (R346). -/
def CollRun.exponent (r : CollRun) (nmemb i : Nat) : Int :=
  let v := r.first.getD (i / r.segSize nmemb) expNone
  if v = expNone then 0 else signedOf 16 v - 92

/-- The element's segment is marked. -/
def CollRun.marked (r : CollRun) (nmemb i : Nat) : Bool := r.first.getD (i / r.segSize nmemb) expNone = expMark

/-- This member's contribution to element i of a phase. -/
def State.collOwn (s : State) (r : CollRun) (e phase i : Nat) : CollElem :=
  let d := r.desc
  let n := grpMembers e
  let rank := grpRank e
  if phase = 0 then
    if d.op = 6 then (if i = rank then d.count else 0, false, 0)
    else
      let m := r.segSize n
      let lo := i * m
      let hi := min (lo + m) (r.dataCount n)
      let xs := (List.range (hi - lo)).map fun k => s.collLoad (d.src + (lo + k) * d.size) d.ty
      let live := (xs.filter fun x => !x.2).map (·.1)
      let res := expOn d.ty expNone live
      (if res.2 = 0 then res.1 else expMark, false, 0)
  else if d.op = 9 then (r.word, false, 0)
  else if d.reduces then
    let (v, p) := s.collLoad (d.src + i * d.size) d.ty
    if p then (0, true, 0)
    else if d.canon then
      if r.marked n i then (0, false, 0)
      else
        let (x, fl) := xpOfFloat ((tyFmt d.ty).decode v) (r.exponent n i)
        (x, false, fl)
    else if d.ty = tBF16 then (v * 2 ^ 16, false, 0)
    else (v, false, 0)
  else
    let base := if d.op = 3 then 0 else if d.op = 5 then rank * d.count
      else (r.first.take rank).foldl (· + ·) 0
    let mine := if d.op = 3 then rank = d.root else base ≤ i && i < base + d.count
    if mine then
      let (v, p) := s.collLoad (d.src + (i - base) * d.size) d.ty
      (v, p, 0)
    else (0, false, 0)

/-- One combine of a phase (R342): `a` first. -/
def CollRun.combine (r : CollRun) (phase : Nat) (a b : Nat) : Res :=
  let t := r.upTy phase
  let w := tyBits t
  if phase = 0 && r.desc.op ≠ 6 then
    (if a = expMark || b = expMark then expMark else if signedOf 16 a < signedOf 16 b then b else a, 0)
  else if r.desc.op = 9 then (max a b, 0)
  else if phase = 1 && r.desc.reduces then
    match r.desc.red with
    | 0 => if t = tXP128 then xpAdd a b else if tyFloat t then (tyFmt t).addV ((tyFmt t).decode a) ((tyFmt t).decode b)
        else ((a + b) % 2 ^ w, 0)
    | 1 => if tyFloat t then (tyFmt t).minMax false a b else (if signedOf w b < signedOf w a then b else a, 0)
    | 2 => if tyFloat t then (tyFmt t).minMax true a b else (if signedOf w a < signedOf w b then b else a, 0)
    | 3 => (a &&& b, 0)
    | 4 => (a ||| b, 0)
    | _ => (a ^^^ b, 0)
  else (a ||| b, 0)

/-- Two elements combined; a poisoned one makes the result poisoned and raises no flag (R349). -/
def CollRun.combineElem (r : CollRun) (phase : Nat) (a b : CollElem) : CollElem :=
  if a.2.1 || b.2.1 then (0, true, 0)
  else
    let (v, fl) := r.combine phase a.1 b.1
    (v, false, a.2.2 ||| fl)

/-- The root's result of an element (R342, R346). -/
def CollRun.rootElem (r : CollRun) (nmemb phase i : Nat) (a : CollElem) : CollElem :=
  let d := r.desc
  if a.2.1 || phase = 0 || d.op = 9 then a
  else if d.canon then
    if r.marked nmemb i then ((tyFmt d.ty).nanBits, false, a.2.2 ||| flNV)
    else
      let (v, fl) := (tyFmt d.ty).ofXp a.1 (r.exponent nmemb i)
      (v, false, a.2.2 ||| fl)
  else if d.reduces && d.ty = tBF16 then
    let (v, fl) := fmtBF16.convert (fmtFP32.decode a.1) false
    (v, false, a.2.2 ||| fl)
  else a

/-- Elements of a payload of a type, with the byte poison mask of the packet. -/
def payloadElems (ty : Nat) (bs : List Byte) (poison : Nat) : List CollElem :=
  let z := tyBits ty / 8
  (List.range (bs.length / z)).map fun i =>
    (leField bs (i * z) z, bits poison (i * z + z - 1) (i * z) ≠ 0, 0)

/-- A payload of elements and its byte poison mask. -/
def elemsPayload (ty : Nat) (es : List CollElem) : List Byte × Nat :=
  let z := tyBits ty / 8
  (es.flatMap fun x => leBytes z x.1,
    (es.zipIdx.filter fun x => x.1.2.1).foldl (fun a x => a + (2 ^ z - 1) * 2 ^ (x.2 * z)) 0)

/-! ### Runs -/

/-- The runs of the node replaced, with `ACTIVE`. -/
def State.setRuns (s : State) (rs : List CollRun) : State :=
  ({ s with coll := { s.coll with runs := rs } }).setF fdCollActive pgColl 0 (min rs.length 255)

/-- The same collective. -/
def CollRun.same (a b : CollRun) : Bool := a.ctx = b.ctx && a.kind = b.kind && a.node = b.node

/-- A run put in place of its former state. -/
def State.putRun (s : State) (r : CollRun) : State :=
  s.setRuns (s.coll.runs.map fun x => if x.same r then r else x)

/-- A run ended. -/
def State.dropRun (s : State) (r : CollRun) : State := s.setRuns (s.coll.runs.filter fun x => !x.same r)

/-- STATUS written at the descriptor (R347). -/
def State.collStatus (s : State) (c : Nat) (d : CollDesc) (code flags : Nat) : State :=
  s.engineWrite (engineOf c) (d.pos + 60) (leBytes 4 (code + flags * 256))

/-- A graph node's collective ended with a code; NODE_END ends the node. -/
def State.collEnded (s : State) (c n code : Nat) : State :=
  ({ s with coll := { s.coll with ended := s.coll.ended ++ [(c, n, code)] } }).trace 91 c n code

/-- A completed run in the always-on counters (R558). -/
def State.collCount (s : State) (r : CollRun) (code : Nat) : State :=
  if code = 0 || code = 3 || code = 4 then
    let s := s.count pgColl 0 1
    if r.desc.quick || 8 ≤ r.desc.op then s.count pgColl 1 1 else s
  else s

/-- A run ends with a code (R349, R351): STATUS and, for a graph node, its end; for a barrier slot, the release (R352). -/
def State.endRun (s : State) (r : CollRun) (code : Nat) : State :=
  let s := (s.dropRun r).collCount r code
  match r.kind with
  | 0 => (s.collStatus r.ctx r.desc code r.flags).collEnded r.ctx r.node code
  | 1 =>
    match (s.ctx r.ctx).flasks.find? fun f => s.slotMembers f r.node ≠ 0 && s.slotLevel f r.node = 3 with
    | some f => s.releaseSlot (s.slotFlasks f r.node) r.node
    | none => s
  | _ => s

/-- A collective packet (R350). -/
def State.collPacket (s : State) (r : CollRun) (kind dst tree ix : Nat) (mark : Bool) (flags : Nat) (es : List CollElem)
    (ty : Nat) : State :=
  let quick := kind = 0x1B || kind = 0x1C
  let (bs, poison) := elemsPayload ty es
  match s.routeTo dst with
  | none => s
  | some rt =>
    let vc := if quick then vcQUICK else vcCOLL
    let s := if quick then s else s.count pgColl (if kind = 0x19 then 2 else 3) bs.length
    s.send
      { kind := BitVec.ofNat 5 kind, vc := BitVec.ofNat 3 vc, ovc := BitVec.ofNat 3 vc, dst := BitVec.ofNat 17 dst,
        src := BitVec.ofNat 17 s.nodeId, job := BitVec.ofNat 20 (s.ctx r.ctx).job,
        gen := BitVec.ofNat 12 (s.ctx r.ctx).gen, seq := BitVec.ofNat 32 r.inst, tagSlot := BitVec.ofNat 16 r.group,
        offset := BitVec.ofNat 40 ix, mask := BitVec.ofNat 16 (tree + mark.toNat * 2 + flags * 256),
        route := BitVec.ofNat 96 rt, len := BitVec.ofNat 9 bs.length, payload := bs, poison := poison }

/-- Elements written to memory from a local offset, clean ones and poisoned ones. -/
def State.collWrite (s : State) (c a ty : Nat) (es : List CollElem) : State :=
  let z := tyBits ty / 8
  if es.all fun x => !x.2.1 then s.engineWrite (engineOf c) a (es.flatMap fun x => leBytes z x.1)
  else s.forEach es.zipIdx fun x s => s.engineWrite (engineOf c) (a + x.2 * z) (leBytes z x.1.1) x.1.2.1

/-- Result elements from index `lo` on written where this member keeps them (R341, R345). -/
def State.collKeep (s : State) (r : CollRun) (e phase lo : Nat) (es : List CollElem) : State :=
  let d := r.desc
  if phase = 0 then
    if d.op = 6 then s.collWrite r.ctx (d.aux + 8 * lo) tINT64 es else s
  else if d.op = 2 && grpRank e ≠ d.root then s
  else if d.op = 4 then
    let base := grpRank e * d.count
    let keep := (es.zipIdx.filter fun x => base ≤ lo + x.2 && lo + x.2 < base + d.count).map (·.1)
    s.collWrite r.ctx (d.dst + (max lo base - base) * d.size) d.ty keep
  else if 8 ≤ d.op then s
  else s.collWrite r.ctx (d.dst + lo * d.size) d.ty es

/-- First element and number of elements of a chunk of a phase. -/
def CollRun.chunkSpan (r : CollRun) (nmemb phase tree j : Nat) : Nat × Nat :=
  let (lo, hi) := r.treeRange nmemb phase tree
  let m := r.perChunk nmemb phase
  (lo + j * m, min m (hi - (lo + j * m)))

/-- A chunk's result reaches this member (R342, R350): kept, and passed to the children. -/
def State.collDeliver (s : State) (r : CollRun) (e phase tree j : Nat) (es : List CollElem) (mark : Bool) (flags : Nat) :
    State × CollRun :=
  let n := grpMembers e
  let (lo, _) := r.chunkSpan n phase tree j
  let s := s.collKeep r e phase lo es
  let quick := r.quickIn n phase
  let s := s.forEach (grpChildren e tree) fun ch s =>
    s.collPacket r (if quick then 0x1C else 0x1A) ch tree (r.wireBase n phase tree + j) mark flags es (r.downTy phase)
  let res := es.zipIdx.foldl (fun m x => mapPut (0, false) m (lo + x.2) (x.1.1, x.1.2.1)) r.res
  let r := { r with
    down := r.down ++ [(tree, r.chunkBase n phase tree + j)]
    flags := if phase = 1 then r.flags ||| flags else r.flags
    poisoned := r.poisoned || (phase = 1 && es.any fun x => x.2.1)
    res := if phase = 0 || r.desc.op = 9 then res else r.res }
  (s.putRun r, r)

/-- The chunks from every child for a chunk, in ascending child rank; none where one is missing. -/
def CollRun.fromChildren (r : CollRun) (e tree k : Nat) : Option (List CollChunk) :=
  (List.range (grpChildren e tree).length).mapM fun i =>
    r.ups.find? fun u => u.from' = i && u.tree = tree && u.chunk = k

/-- A chunk combined at this member's vertex once every child's partial is present: sent to the parent, or the root's result. -/
def State.collVertex (s : State) (r : CollRun) (e phase tree j : Nat) : State × CollRun :=
  let n := grpMembers e
  let k := r.chunkBase n phase tree + j
  if r.seen.contains (2, tree, k, 0) then (s, r)
  else match r.fromChildren e tree k with
  | none => (s, r)
  | some us =>
    let (lo, cnt) := r.chunkSpan n phase tree j
    let s := s.drainRange (r.desc.src + lo * r.desc.size) (cnt * r.desc.size)
    let own := (List.range cnt).map fun i => s.collOwn r e phase (lo + i)
    let es := us.foldl (fun acc u =>
      (acc.zip (payloadElems (r.upTy phase) u.data u.poison)).map fun x => r.combineElem phase x.1 x.2) own
    let fl := es.foldl (fun a x => a ||| x.2.2) (us.foldl (fun a u => a ||| u.flags) 0)
    let mark := phase = 0 && r.desc.op ≠ 6 && es.any fun x => x.1 = expMark
    let r := { r with
      seen := r.seen ++ [(2, tree, k, 0)]
      ups := r.ups.filter fun u => !(u.tree = tree && u.chunk = k) }
    if grpRoot e tree then
      let out := es.zipIdx.map fun x => r.rootElem n phase (lo + x.2) x.1
      let fl := out.foldl (fun a x => a ||| x.2.2) fl
      s.collDeliver r e phase tree j out mark fl
    else
      let s := s.collPacket r (if r.quickIn n phase then 0x1B else 0x19) (grpParent e tree) tree
        (r.wireBase n phase tree + j) mark fl es (r.upTy phase)
      (s.putRun r, r)

/-- Every chunk of the run's phase has reached this member. -/
def CollRun.phaseDone (r : CollRun) (nmemb : Nat) : Bool :=
  [0, 1].all fun tree => (List.range (r.chunks nmemb r.phase tree)).all fun j =>
    r.down.contains (tree, r.chunkBase nmemb r.phase tree + j)

/-- A timed barrier's result (R360): comparator 2c + 1 is armed, unless it is armed already, in which case the run waits. -/
def State.armTimed (s : State) (r : CollRun) : State :=
  let k := 2 * r.ctx + 1
  if s.getF fdFtimeRelArm pgFtime k = 1 then s.putRun { r with phase := 2 }
  else
    let mask := (s.ctx r.ctx).flasks.foldl (fun a f => a ||| 2 ^ f) 0
    let s := s.putRun { r with phase := 2, armed := true }
    let s := (s.setF fdFtimeRelTime pgFtime k (mapGet (0, false) r.res 0).1).setRelMask k mask
    let s := (s.setF fdFtimeRelSlot pgFtime k r.desc.slot).setF fdFtimeRelAction pgFtime k 0
    s.armRel k

/-- A run whose phases are complete ends: OVERSIZE (R345), the comparator of a timed barrier, or OK or POISONED (R349). -/
def State.collFinish (s : State) (r : CollRun) : State :=
  if r.kind = 0 && r.desc.op = 9 then
    let s := s.armTimed r
    match s.coll.runs.find? fun x => x.same r with
    | some x => if x.armed && s.getF fdFtimeRelArm pgFtime (2 * r.ctx + 1) = 0 then (s.endRun x 0).count pgColl 4 1 else s
    | none => s
  else s.endRun r (if r.poisoned then 4 else 0)

/-- Combines what is complete, and moves a run on: at most `fuel` phases. -/
def State.collPump (s : State) (r : CollRun) : Nat → State
  | 0 => s
  | fuel + 1 =>
    if 1 < r.phase then s
    else match s.groupOf r.ctx r.group with
    | none => s
    | some e =>
      let n := grpMembers e
      let todo := [0, 1].flatMap fun tree => (List.range (r.chunks n r.phase tree)).map fun j => (tree, j)
      let (s, r) := todo.foldl (fun (acc : State × CollRun) x => acc.1.collVertex acc.2 e acc.2.phase x.1 x.2) (s, r)
      if !r.phaseDone n then s
      else if r.phase = 0 then
        let first := (List.range (r.elements n 0)).map fun i => (mapGet (0, false) r.res i).1
        let r := { r with phase := 1, first := first, res := [] }
        let s := s.putRun r
        if r.desc.op = 6 && r.desc.dstcap < r.dataCount n then s.endRun r 3 else s.collPump r fuel
      else s.collFinish r

/-! ### Receiving (R350) -/

/-- A packet dropped as stale. -/
def State.collStale (s : State) : State := (s.addF fdCollCntStale pgColl 0 1).count pgColl 6 1

/-- A further copy dropped. -/
def State.collDup (s : State) : State := (s.addF fdCollCntDup pgColl 0 1).count pgColl 7 1

/-- INST of a graph node's collective. -/
def collInst (attempt n : Nat) : Nat := attempt % 2 ^ 20 * 4096 + n

/-- The barrier slots of context c at the fabric level whose group is `id`. -/
def State.barSlots (s : State) (c id : Nat) : List Nat :=
  (List.range 8).filter fun sl => id ≠ 0xFFFF && s.getF fdCollBargrp pgColl (8 * c + sl) = id

/-- The generation of a context's barrier slot. -/
def State.barGen (s : State) (c sl : Nat) : Nat :=
  match (s.ctx c).flasks.find? fun f => s.slotMembers f sl ≠ 0 && s.slotLevel f sl = 3 with
  | some f => s.slotGen f sl
  | none => 0

/-- What becomes of a packet whose collective does not run here: 0 held, 1 stale, 2 a further copy. -/
def State.collFate (s : State) (c id inst : Nat) : Nat :=
  if (s.barSlots c id).any fun sl => s.barGen c sl = inst then 0
  else
    let run := (s.ctx c).run
    let ahead := (inst / 4096 + 2 ^ 20 - s.getF fdSchedCtxAttempt pgSched c % 2 ^ 20) % 2 ^ 20
    if ahead = 0 then
      let n := inst % 4096
      if n < run.nstat.length then
        let code := s.nodeCode c n
        if code = nsPending || code = nsRunning && !(s.coll.ended.any fun x => x.1 = c && x.2.1 = n) then 0 else 2
      else if run.voted then 2
      else if run.active then 0 else 1
    else if ahead < 2 ^ 19 then 0 else 1

/-- A packet with a job tag the node serves is taken (R350). -/
def State.collTake (s : State) (pk : Packet) : State :=
  let id := pk.tagSlot.toNat
  let inst := pk.seq.toNat
  let up := pk.kind.toNat = 0x19 || pk.kind.toNat = 0x1B
  let quick := pk.kind.toNat = 0x1B || pk.kind.toNat = 0x1C
  match allCtxs.find? fun c => (s.ctx c).isOpen && (s.ctx c).job = pk.job.toNat && (s.groupOf c id).isSome with
  | none => s.collStale
  | some c =>
    let e := (s.groupOf c id).getD 0
    match s.coll.runs.find? fun r => r.ctx = c && r.group = id && r.inst = inst with
    | none =>
      match s.collFate c id inst with
      | 0 => if s.coll.held.contains pk then s.collDup
             else { s with coll := { s.coll with held := s.coll.held ++ [pk] } }
      | 1 => s.collStale
      | _ => s.collDup
    | some r =>
      let n := grpMembers e
      let tree := pk.mask.toNat % 2
      let k := r.ofWire n tree pk.offset.toNat quick
      let flags := pk.mask.toNat / 256
      let mark := bitAt pk.mask.toNat 1
      if up then
        match (grpChildren e tree).findIdx? fun x => x = pk.src.toNat with
        | none => s.collStale
        | some i =>
          if r.seen.contains (0, tree, k, i) then s.collDup
          else
            let u : CollChunk := { from' := i, tree := tree, chunk := k, data := pk.payload, poison := pk.poison,
                                   flags := flags, mark := mark }
            let r := { r with ups := r.ups ++ [u], seen := r.seen ++ [(0, tree, k, i)] }
            (s.putRun r).collPump r 3
      else if grpRoot e tree || grpParent e tree ≠ pk.src.toNat then s.collStale
      else if r.seen.contains (1, tree, k, 0) then s.collDup
      else
        let r := { r with seen := r.seen ++ [(1, tree, k, 0)] }
        let es := payloadElems (r.downTy r.phase) pk.payload pk.poison
        let (s, r) := s.collDeliver r e r.phase tree (k - r.chunkBase n r.phase tree) es mark flags
        s.collPump r 3

/-- A collective packet received (R307, R318, R350). -/
def State.recvColl (s : State) (pk : Packet) : State :=
  if !s.nodeIdValid then s
  else if packetBad pk then s.dropMalformed
  else match s.tagCheck pk with
    | .stale => s.dropStale
    | .foreign => s.dropForeign
    | .served => s.collTake pk

/-! ### Starting -/

/-- Packets held for a collective that starts are taken (R350). -/
def State.releaseHeld (s : State) (c id inst : Nat) : State :=
  let mine := fun (p : Packet) => p.tagSlot.toNat = id && p.seq.toNat = inst && p.job.toNat = (s.ctx c).job
  let take := s.coll.held.filter mine
  let s := { s with coll := { s.coll with held := s.coll.held.filter fun p => !mine p } }
  s.forEach take fun p s => s.collTake p

/-- A run starts: it contributes, and takes what was held for it. -/
def State.startRun (s : State) (r : CollRun) : State :=
  let s := s.setRuns (s.coll.runs ++ [r])
  (s.collPump r 3).releaseHeld r.ctx r.group r.inst

/-- A graph node's collective (R348): STATUS RUNNING, the checks, and contributions. -/
def State.startCollective (s : State) (c n : Nat) : State :=
  let pos := (s.gnode c n).p0
  let (s, bs, _) := s.engineRead pos 64
  let d := readCollDesc pos bs
  let s := (s.collStatus c d 0xFF 0).trace 90 c n d.op
  if s.collBad c d then (s.collStatus c d 1 0).collEnded c n 1
  else
    let e := (s.groupOf c d.group).getD 0
    if s.collAccess c d e then (s.collStatus c d 2 0).collEnded c n 2
    else
      let d := { d with canon := d.canon || (s.getF fdReproCtxCanon pgRepro c = 1 && d.canonSum) }
      let r : CollRun :=
        { ctx := c, kind := 0, node := n, group := d.group, inst := collInst (s.getF fdSchedCtxAttempt pgSched c) n,
          desc := d, word := (s.now + d.margin) % 2 ^ 64, started := s.now,
          phase := if d.canon || d.op = 6 then 0 else 1 }
      s.startRun r

/-- A TIMED_BARRIER started while the context's comparator is armed waits until it fires (R360). -/
def State.timedBusy (s : State) (c n : Nat) : Bool :=
  s.loadNat (s.gnode c n).p0 1 = 9 && s.coll.runs.any fun r => r.ctx = c && r.kind = 0 && r.armed

/-- COLLECTIVE_START: a ready COLLECTIVE node of a running step starts. -/
def State.collStart (s : State) (c n : Nat) : State :=
  if (s.gnode c n).kind = 4 && s.nodeReady c n then
    let s := (s.startNode c n).drainRange (s.gnode c n).p0 64
    if s.timedBusy c n then { s with coll := { s.coll with waiting := s.coll.waiting ++ [(c, n)] } }
    else s.startCollective c n
  else s

/-- After comparator 2c + 1 fires (R360): the timed barrier that armed it completes, one whose result waited arms it, and those
that waited to start do so. -/
def State.timedFired (s : State) (c : Nat) : State :=
  let s := match s.coll.runs.find? fun r => r.ctx = c && r.kind = 0 && r.armed with
    | some r => (s.endRun r 0).count pgColl 4 1
    | none => s
  let s := match s.coll.runs.find? fun r => r.ctx = c && r.kind = 0 && r.phase = 2 && !r.armed with
    | some r => s.collFinish r
    | none => s
  let mine := s.coll.waiting.filter fun x => x.1 = c
  let s := { s with coll := { s.coll with waiting := s.coll.waiting.filter fun x => x.1 ≠ c } }
  s.forEach mine fun x s => s.startCollective x.1 x.2

/-- The package's aggregate of a fabric-level slot is full: it contributes once to the group's quick BARRIER (R352). -/
def State.startBarrier (s : State) (c sl gen : Nat) : State :=
  let id := s.getF fdCollBargrp pgColl (8 * c + sl)
  s.startRun { ctx := c, kind := 1, node := sl, group := id, inst := gen, desc := { op := 8, quick := true, group := id },
               started := s.now }

/-- The fabric level of a slot is configured (R352). -/
def State.barrierConfigured (s : State) (c sl : Nat) : Bool :=
  let id := s.getF fdCollBargrp pgColl (8 * c + sl)
  id ≠ 0xFFFF && (s.groupOf c id).isSome

/-- The step vote (R236): a quick MAX allreduce of one word over the graph's group. -/
def State.startVote (s : State) (c id word : Nat) : State :=
  s.startRun { ctx := c, kind := 2, node := 0, group := id, inst := collInst (s.getF fdSchedCtxAttempt pgSched c) 4095,
               desc := { op := 9, quick := true, group := id }, word := word, started := s.now }

/-! ### Ends without a result (R351) -/

/-- Every collective of a context stops at once as ABANDONED, and packets held for it are dropped as stale. -/
def State.collAbandon (s : State) (c : Nat) : State :=
  let mine := s.coll.runs.filter fun r => r.ctx = c
  let s := s.setRuns (s.coll.runs.filter fun r => r.ctx ≠ c)
  let s := s.forEach mine fun r s => if r.kind = 0 then s.collStatus c r.desc 5 r.flags else s
  let job := (s.ctx c).job
  let late := s.coll.held.filter fun p => p.job.toNat = job
  let s := { s with coll := { s.coll with
    held := s.coll.held.filter fun p => p.job.toNat ≠ job
    ended := s.coll.ended.filter fun x => x.1 ≠ c
    waiting := s.coll.waiting.filter fun x => x.1 ≠ c } }
  (s.addF fdCollCntStale pgColl 0 late.length).count pgColl 6 late.length

/-- COLL_TIMEOUT: STATUS TIMEOUT, the node FAULT, JOB_FATAL. -/
def State.collTimeout (s : State) (c n : Nat) : State :=
  match s.coll.runs.find? fun r => r.ctx = c && r.kind = 0 && r.node = n with
  | some r => (((s.addF fdCollCntTimeout pgColl 0 1).count pgColl 5 1).endRun r 6).jobFatal c 0x0102 0 0
  | none => s

end Sys2Proof.Machine
end

