-- ==== Sys2Proof/Machine/Repro.lean ====
section
/-! DEFINITION. The REPRO descriptors (R396–R400): what firmware takes into them and when. -/
namespace Sys2Proof.Machine

/-- The 64-bit FNV-1a hash of R208, with 0 replaced by 1. -/
def fnv1a (bs : List Byte) : Nat :=
  let h := bs.foldl (fun h b => (h ^^^ b.toNat) * 0x100000001B3 % 2 ^ 64) 0xCBF29CE484222325
  if h = 0 then 1 else h

/-- The valid group entries of a context in ascending ID (R397). -/
def State.ctxGroups (s : State) (c : Nat) : List Nat :=
  sortBy (fun a b => bits a 15 0 ≤ bits b 15 0) ((s.coll.groups.map (·.2)).filter fun e => bitAt e 23 && bits e 19 16 = c)

/-- GROUPS of a context (R397). -/
def State.groupsDigest (s : State) (c : Nat) : Nat :=
  fnv1a ((s.ctxGroups c).flatMap fun e => leBytes 2 (bits e 15 0) ++ leBytes 4 (grpMembers e) ++ leBytes 8 (bits e 191 128))

/-- NODES of a context: NMEMB of its WHOLE group, or 1 (R396). -/
def State.wholeNodes (s : State) (c : Nat) : Nat :=
  ((s.ctxGroups c).find? fun e => bits e 31 24 = 0).elim 1 grpMembers

/-- Healthy physical tiles of a flask, an unused spare counted (R400). -/
def State.healthyTiles (s : State) (f : Nat) : Nat :=
  17 - s.getF fdFlaskSpareInUse (pgFlask f) - s.getF fdFlaskSpareFenced (pgFlask f)

/-- A context's descriptor. -/
def State.reproOf (s : State) (c : Nat) : ReproDesc := mapGet {} s.repro c

/-- A context's descriptor replaced. -/
def State.setRepro (s : State) (c : Nat) (d : ReproDesc) : State := { s with repro := mapPut {} s.repro c d }

/-- Firmware takes GROUPS, NODES and GPHYS into the descriptor (R398). -/
def State.reproTake (s : State) (c : Nat) : State :=
  let d := s.reproOf c
  s.setRepro c { d with
    nodes := s.wholeNodes c
    groups := s.groupsDigest c
    gphys := if d.cls = 1 then ((s.ctx c).flasks.map s.healthyTiles).foldl (· + ·) 0 else 0 }

/-- A change outside a running step shows at once; one within a step waits for the next release (R398). -/
def State.reproChange (s : State) (c : Nat) : State := if (s.ctx c).run.active then s else s.reproTake c

/-- STEP_START takes CLASS, CANON and the active graph into the descriptor (R398, R563). -/
def State.reproStart (s : State) (c : Nat) (g : Graph) : State :=
  (s.setRepro c { s.reproOf c with
    cls := s.getF fdReproCtxClass pgRepro c
    canon := s.getF fdReproCtxCanon pgRepro c
    static := bits g.flags 1 1
    graph := g.digest }).reproTake c

/-- The 64 bytes of a descriptor (R396). -/
def ReproDesc.bytes (d : ReproDesc) : List Byte :=
  [3, BitVec.ofNat 8 d.cls, BitVec.ofNat 8 (d.canon + 2 * d.static), 0] ++ leBytes 4 d.nodes ++ (leBytes 32 d.graph).reverse ++
    leBytes 8 d.groups ++ leBytes 4 d.gphys ++ List.replicate 12 0

end Sys2Proof.Machine
end

