-- ==== Sys2Proof/Machine/GraphPoll.lean ====
section
/-! DEFINITION. What firmware does between events of a running step (R228, R232, R233, R236, R240): nodes become ready, PD, LINKAGE and
CHECKPOINT nodes start, optional nodes are dropped after SOFT, and the step votes when every node has ended. -/
namespace Sys2Proof.Machine

/-- The prewake lead (R222). -/
def Graph.leadTicks (g : Graph) : Nat := if g.lead = 0 then 12000 else g.lead

/-- The sleep gap (R222). -/
def Graph.gapTicks (g : Graph) : Nat := if g.sleepGap = 0 then 100000 else g.sleepGap

/-- A node ends (R228, R242): NSTAT, then 1 to the in-counter of each successor. -/
def State.endNode (s : State) (c n code : Nat) : State :=
  let s := (s.setNode c n code).trace 34 c n code
  let bad := code ≠ nsDone && code ≠ nsSkipped
  let s := s.withRun c fun r => { r with
    failed := r.failed || code = nsFault
    firstBad := if bad && r.firstBad = 0xFFFF then n else r.firstBad }
  match s.graph c with
  | none => s
  | some g => s.forEach (g.succs n) fun m s =>
    match s.inCounter c m with
    | some id => s.postTo id 1
    | none => s

/-- SOFT has passed: every ready or pending OPTIONAL node is dropped (R240). -/
def State.dropOptional (s : State) (c : Nat) : State :=
  match s.graph c with
  | none => s
  | some g =>
    let x := (s.ctx c).run
    let s := if x.softPassed then s else (s.withRun c fun r => { r with softPassed := true }).trace 14 c x.heat x.attempt
    let drop := (List.range g.nodes.length).filter fun n => s.nodeCode c n = nsPending && bitAt (s.gnode c n).flags 0
    s.forEach drop fun n s =>
      ((s.withRun c fun r => { r with dropped := r.dropped + 1 }).trace 15 c x.heat x.attempt).endNode c n nsSkipped

/-- A PD node starts: 0 to its done word, then 1 to its counter (R232). -/
def State.startPd (s : State) (c n : Nat) : State :=
  let x := s.gnode c n
  let s := (s.startNode c n).engineWrite .firmware x.p1 (leBytes 8 0)
  (s.postTo x.p0 1).trace 39 c n nsRunning

/-- The earlier of a batch's own deadline and the step's; 0 is none (R233). -/
def earlier (own step : Nat) : Nat := if own = 0 then step else if step = 0 then own else min own step

/-- A LINKAGE node starts: its batch entry with the step's deadlines goes to the context's queue (R233). -/
def State.startLinkage (s : State) (c n : Nat) : State :=
  let x := s.gnode c n
  let s := s.startNode c n
  let (s, bs, _) := s.engineRead x.p0 64
  let run := (s.ctx c).run
  let entry := bs.take 24 ++ leBytes 8 (earlier (leField bs 24 8) run.soft) ++ leBytes 8 (earlier (leField bs 32 8) run.hard) ++ bs.drop 40
  let at' := s.getF fdLsaQPidx pgLsa c
  let (s, k) := s.readNat at' 8
  let slot := s.getF fdLsaQRing pgLsa c + k % 2 ^ s.getF fdLsaQLog2len pgLsa c * 64
  let s := (s.engineWrite .firmware slot entry).engineWrite .firmware at' (leBytes 8 (k + 1))
  (s.withRun c fun r => { r with batches := r.batches ++ [(n, k)] }).trace 88 c n k

/-- A node that has just become ready: SOFT is checked (R240), and firmware starts it at once where it needs no tile (R224). -/
def State.readied (s : State) (c n : Nat) : State :=
  let s := (s.withRun c fun r => { r with readied := r.readied ++ [n] }).trace 32 c n nsPending
  let soft := (s.ctx c).run.soft
  let s := if soft ≠ 0 && soft ≤ s.now then s.dropOptional c else s
  if s.nodeCode c n = nsPending then
    match (s.gnode c n).kind with
    | 2 => s.startPd c n
    | 3 => s.startLinkage c n
    | 6 => (s.startNode c n).endNode c n nsDone
    | _ => s
  else s

/-- Nodes of a running step become ready, in ascending index, until none does. -/
def State.readyNodes (s : State) (c : Nat) : Nat → State
  | 0 => s
  | fuel + 1 =>
    let all := List.range ((s.graph c).elim 0 fun g => g.nodes.length)
    match all.find? fun n => s.nodeReady c n && !(s.ctx c).run.readied.contains n with
    | some n => (s.readied c n).readyNodes c fuel
    | none => s

/-- Every node of the step has ended. -/
def State.stepEnded (s : State) (c : Nat) : Bool :=
  (s.ctx c).run.nstat.all fun x => x ≠ nsRunning && x ≠ nsPending

/-- The step contributes its vote word (R236): bit 63 the failure, and its proposed next release. -/
def State.contribute (s : State) (c : Nat) (fail : Bool) : State :=
  match s.graph c with
  | none => s
  | some g =>
    let word := (s.now + g.leadTicks + 4000) % 2 ^ 63 + fail.toNat * 2 ^ 63
    let heat := (s.ctx c).run.heat
    let s := (s.withRun c fun r => { r with voted := true, voteWord := word }).trace 16 c heat word
    if g.group = 0xFFFF then s else s.startVote c g.group word

/-- A step whose nodes have all ended votes. -/
def State.voteIfEnded (s : State) (c : Nat) : State :=
  let r := (s.ctx c).run
  if r.active && !r.voted && s.stepEnded c then s.contribute c r.failed else s

/-- Firmware looks at every running step. -/
def State.graphPoll (s : State) : State :=
  s.forEach (allCtxs.filter fun c => (s.ctx c).run.active) fun c s =>
    (s.readyNodes c ((s.ctx c).run.nstat.length + 1)).voteIfEnded c

end Sys2Proof.Machine
end

