-- ==== Sys2Proof/Machine/LsaBase.lean ====
section
/-! DEFINITION. The linkage queues (R198–R207): how the array takes batches. -/
namespace Sys2Proof.Machine

/-- Context that owns a queue. -/
def State.lsaCtx (s : State) (q : Nat) : Nat := s.getF fdLsaQCtx pgLsa q

/-- A batch entry as its 64 bytes give it. -/
def lsaEntry (q k : Nat) (bs : List Byte) : LsaBatch :=
  { q := q, k := k, model := leField bs 0 8, prob := leField bs 8 8, range := leField bs 16 8, soft := leField bs 24 8,
    hard := leField bs 32 8, op := leField bs 40 1, warm := bitAt (leField bs 41 1) 0, post := bitAt (leField bs 41 1) 1,
    count := leField bs 42 2 % 8192, counter := leField bs 44 4 % 2 ^ 18, maxIter := leField bs 48 2, tol := leField bs 52 4,
    tag := leField bs 56 4 }

/-- A reserved bit of a batch entry is 1. -/
def lsaReserved (bs : List Byte) : Bool :=
  4 ≤ leField bs 41 1 || 8192 ≤ leField bs 42 2 || 2 ^ 18 ≤ leField bs 44 4 || leField bs 50 2 ≠ 0 || leField bs 60 4 ≠ 0

/-- Bytes of a model: its header, and a record per joint. -/
def lsaModelLen (nj : Nat) : Nat := 64 + 256 * nj

/-- A range table holds a reserved encoding (R201). -/
def lsaRangeBad (bs : List Byte) : Bool := (List.range 16).any fun c => 46 < leField bs (4 * c) 4

/-- The checks of a batch (R199, R201): the state behind its reads, and whether the batch is refused. -/
def State.lsaRefused (s : State) (c : Nat) (b : LsaBatch) (reserved : Bool) : State × Bool :=
  if reserved || b.op = 0 || 5 < b.op || b.count = 0 || 4096 < b.count || b.maxIter = 0 || b.model % 256 ≠ 0 || b.prob % 64 ≠ 0 ||
      b.range % 64 ≠ 0 || !s.inPolders c b.model 64 || !s.inPolders c b.prob (64 * b.count) || !s.inPolders c b.range 64 then (s, true)
  else
    let (s, nj) := s.readNat b.model 1
    let (s, range, _) := s.engineRead b.range 64
    (s, !s.inPolders c b.model (lsaModelLen nj) || lsaRangeBad range)

/-- Poison consumed as control data by the array (R436). -/
def State.lsaPoison (s : State) (c addr : Nat) : State :=
  s.detect pgLsa 8 { code := 0x0031, ctx := if h : c < 16 then some ⟨c, h⟩ else none, addr := BitVec.ofNat 64 addr }

/-- The array takes batch k of queue q (R204): the commit point of its class S fields (R550), the consumer index written, and the batch
checked. A poisoned entry ends the reading, and the queue takes nothing further. -/
def State.lsaTakeOne (s : State) (q k : Nat) : State :=
  let c := s.lsaCtx q
  let n := 2 ^ s.getF fdLsaQLog2len pgLsa q
  let at' := s.getF fdLsaQRing pgLsa q + k % n * 64
  let s := s.applyShadow pgLsa
  let (s, bs, bad) := s.engineRead at' 64
  if bad then (s.setF fdLsaQEn pgLsa q 0).lsaPoison c at'
  else
    let b := lsaEntry q k bs
    let (s, refused) := s.lsaRefused c b (lsaReserved bs)
    let s := { s with lsa := { s.lsa with
      cidx := mapPut 0 s.lsa.cidx q (k + 1)
      batches := s.lsa.batches ++ [{ b with refused := refused }] } }
    let s := s.engineWrite (engineOf c) (s.getF fdLsaQPidx pgLsa q + 256) (leBytes 8 (k + 1))
    let (kind, s) := s.free
    (s.count pgLsa 2 1).event pgLsa 0 (some 0) 0x0001 kind k

/-- Batches from the consumer index up to PIDX − 1, in order: at most `fuel` of them. -/
def State.lsaTake (s : State) (q pidx : Nat) : Nat → State
  | 0 => s
  | fuel + 1 =>
    let k := mapGet 0 s.lsa.cidx q
    if k < pidx && s.getF fdLsaQEn pgLsa q = 1 then (s.lsaTakeOne q k).lsaTake q pidx fuel else s

/-- An enabled queue is looked at (R204, R205). -/
def State.lsaLook (s : State) (q : Nat) : State :=
  if s.getF fdLsaQEn pgLsa q = 0 then s
  else
    let n := 2 ^ s.getF fdLsaQLog2len pgLsa q
    let at' := s.getF fdLsaQPidx pgLsa q
    if !s.inPolders (s.lsaCtx q) at' 264 then s
    else
      let (s, bs, bad) := s.engineRead at' 8
      let pidx := leNat bs
      let k := mapGet 0 s.lsa.cidx q
      if bad then (s.setF fdLsaQEn pgLsa q 0).lsaPoison (s.lsaCtx q) at'
      else if pidx < k || k + n < pidx then (s.setF fdLsaQEn pgLsa q 0).setF fdLsaQOverrun pgLsa q 1
      else s.lsaTake q pidx (pidx - k)

/-- Queues whose PIDX was written are looked at; a gated array starts its wake instead, and a quiesced one waits (R207, R549). -/
def State.lsaPoll (s : State) : State :=
  if s.lsa.poked.isEmpty then s
  else if s.lsa.gated then { s with lsa := { s.lsa with waking := true } }
  else if s.getF fdComCtrlQuiesce pgLsa = 1 then s
  else
    let qs := s.lsa.poked
    let s := { s with lsa := { s.lsa with poked := [] } }
    s.forEach qs fun q s => s.lsaLook q

end Sys2Proof.Machine
end

