-- ==== Sys2Proof/Machine/Matrix.lean ====
section
/-! DEFINITION. The matrix array, the recombination unit and the slice operation (R91–R116): words, issue checks, and what each
instruction does when its engine completes it. -/
namespace Sys2Proof.Machine

/-! ### The word and the captured CSRs (R94, R96) -/

/-- funct3: 0 mx.mma, 1 mx.wmma, 2 mx.ldacc, 3 mx.stacc, 4 mx.zero, 5 mx.recomb, 6 mx.slice, 7 mx.wait. -/
def mxOp (w : Nat) : Nat := bits w 14 12
/-- funct7. -/
def mxF7 (w : Nat) : Nat := bits w 31 25
/-- The register field rs1. -/
def mxRs1 (w : Nat) : Nat := bits w 19 15
/-- The register field rs2. -/
def mxRs2 (w : Nat) : Nat := bits w 24 20

/-- A reserved encoding (R94). -/
def mxReserved (w : Nat) : Bool :=
  let f7 := mxF7 w
  let op := mxOp w
  bits w 6 0 ≠ 0x0B || bits w 11 8 ≠ 0 ||
    (match op with
      | 1 => 4 ≤ f7
      | 5 => 8 ≤ f7 || f7 % 4 = 3 || (f7 % 4 = 2 && mxRs1 w ≠ 0)
      | 6 => 64 ≤ f7
      | _ => f7 ≠ 0) ||
    ((op = 2 || op = 3 || op = 4 || op = 7) && mxRs2 w ≠ 0) || ((op = 4 || op = 7) && mxRs1 w ≠ 0)

/-- A captured CSR. -/
def MxReq.csr (q : MxReq) (n : Nat) : Nat := q.csrs.getD (n - 0x840) 0
/-- The accumulator bank. -/
def MxReq.bank (q : MxReq) : Nat := bits q.w 7 7
/-- K. -/
def MxReq.kk (q : MxReq) : Nat := bits (q.csr 0x841) 16 0
/-- Row stride of C. -/
def MxReq.ldc (q : MxReq) : Nat := bits (q.csr 0x844) 19 0
/-- The wide mode: 0 W2, 1 W3, 2 W3X, 3 W4. -/
def MxReq.mode (q : MxReq) : Nat := mxF7 q.w % 4

/-- Pieces of a wide mode (R82). -/
def pieces (mode : Nat) : Nat := if mode = 0 then 2 else if mode = 3 then 4 else 3

/-- Element types of R101: bits, row of R88 (0 FP4, 1 INT4, 2 FP8 and FP6, 3 INT8, 4 FP16 and BF16, 5 INT16; 6 none). -/
def mxType (c : Nat) : Nat × Nat :=
  match c with
  | 0x0 => (4, 0) | 0x1 => (6, 2) | 0x2 => (6, 2) | 0x3 => (8, 2) | 0x4 => (8, 2) | 0x5 => (16, 4) | 0x6 => (16, 4)
  | 0x8 => (4, 1) | 0x9 => (8, 3) | 0xA => (16, 5) | _ => (8, 6)

/-- The MX bit and sign bit allowed for a type (R101). -/
def mxAllowed (c : Nat) (mx sgn : Bool) : Bool :=
  match c with
  | 0x0 => true | 0x1 => mx | 0x2 => mx | 0x3 => true | 0x4 => true | 0x5 => !mx | 0x6 => !mx | 0x8 => !mx
  | 0x9 => !mx || sgn | 0xA => !mx && sgn | _ => false

/-- Type code, MX bit and sign bit of A, or of B. -/
def MxReq.side (q : MxReq) (b : Bool) : Nat × Bool × Bool :=
  let f := q.csr 0x840
  if b then (bits f 7 4, bitAt f 11, bitAt f 9) else (bits f 3 0, bitAt f 10, bitAt f 8)

/-- The formats of `mxfmt` are refused (R88, R101). -/
def MxReq.fmtBad (q : MxReq) : Bool :=
  let (a, am, as') := q.side false
  let (b, bm, bs) := q.side true
  (mxType a).2 = 6 || (mxType a).2 ≠ (mxType b).2 || !mxAllowed a am as' || !mxAllowed b bm bs

/-- CFMT: 0 FP32, 1 BF16, 2 FP16, 3 INT32, 4 INT64. -/
def MxReq.cfmt (q : MxReq) : Nat := bits (q.csr 0x840) 15 13

/-- Bytes of an element of C. -/
def cBytes (cfmt : Nat) : Nat := match cfmt with | 0 => 4 | 1 => 2 | 2 => 2 | 3 => 4 | _ => 8

/-- The bank kind that an instruction sets or asks for: 1 FLOAT, 2 INT, 3–6 wide (R102, R104, R105). -/
def MxReq.kind (q : MxReq) : Nat :=
  match mxOp q.w with
  | 0 =>
    let (a, am, _) := q.side false
    let (_, bm, _) := q.side true
    let row := (mxType a).2
    if (row = 1 || row = 3 || row = 5) && !am && !bm then 2 else 1
  | 1 => 3 + q.mode
  | _ => if q.cfmt ≤ 2 then 1 else 2

/-- Bytes of an output element of mx.recomb: FP64, FP32, XP128. -/
def outBytes (oo : Nat) : Nat := if oo = 0 then 8 else if oo = 1 then 4 else 16

/-! ### What an instruction touches (R95) -/

/-- The hull of rows of bytes. -/
def rowsRange (base stride n len : Nat) : Range := ((base : Int), (base + (n - 1) * stride + len : Nat))

/-- Ranges, register offsets and alignments of an instruction. -/
structure MxUse where
  reads : List Range := []
  writes : List Range := []
  /-- Ranges read and written in place: the slice records. -/
  recs : List Range := []
  /-- Register offsets: value and whether it is a destination. -/
  offs : List (Nat × Bool) := []
  /-- Value, alignment, destination. -/
  aligns : List (Nat × Nat × Bool) := []
  bank : Bool := true

/-- Offset of the slice records of a side. -/
def MxReq.recAt (q : MxReq) (b : Bool) : Nat := if b then bits (q.csr 0x848) 50 32 else bits (q.csr 0x848) 18 0
/-- Plane stride of a side. -/
def MxReq.plane (q : MxReq) (b : Bool) : Nat := if b then bits (q.csr 0x847) 50 32 else bits (q.csr 0x847) 18 0
/-- Stride between k-vectors of a side. -/
def MxReq.ld (q : MxReq) (b : Bool) : Nat := if b then bits (q.csr 0x843) 19 0 else bits (q.csr 0x842) 19 0

/-- The slice works on side B. -/
def MxReq.sideB (q : MxReq) : Bool := bitAt (mxF7 q.w) 4
/-- Bytes of a slice source element. -/
def MxReq.srcBytes (q : MxReq) : Nat := if bitAt (mxF7 q.w) 5 then 4 else 8
/-- The slice scope: 0 DERIVE, 1 SCAN_FIRST, 2 SCAN_NEXT, 3 GIVEN. -/
def MxReq.scope (q : MxReq) : Nat := bits (mxF7 q.w) 3 2
/-- The slice writes pieces. -/
def MxReq.writesPieces (q : MxReq) : Bool := q.scope = 0 || q.scope = 3

/-- What an instruction touches, from its captured CSRs. -/
def MxReq.use (q : MxReq) : MxUse :=
  let k := q.kk
  let x1 := q.x1
  let x2 := q.x2
  match mxOp q.w with
  | 0 =>
    let (a, am, _) := q.side false
    let (b, bm, _) := q.side true
    let g := (k + 31) / 32
    { reads := [rowsRange x1 (q.ld false) k (4 * (mxType a).1), rowsRange x2 (q.ld true) k (4 * (mxType b).1)] ++
        (if am then [rowsRange (bits (q.csr 0x845) 18 0) 32 g 32] else []) ++
        (if bm then [rowsRange (bits (q.csr 0x846) 18 0) 32 g 32] else [])
      offs := [(x1, false), (x2, false)]
      aligns := [(x1, 16, false), (x2, 16, false), (q.ld false, 16, false), (q.ld true, 16, false)] }
  | 1 =>
    let n := pieces q.mode
    { reads := ((List.range n).map fun t => rowsRange (x1 + t * q.plane false) 128 k 128) ++
        (List.range n).map fun t => rowsRange (x2 + t * q.plane true) 128 k 128
      offs := [(x1, false), (x2, false)]
      aligns := [(x1, 128, false), (q.plane false, 128, false), (x2, 128, false), (q.plane true, 128, false)] }
  | 2 =>
    { reads := [rowsRange x1 q.ldc 32 (32 * cBytes q.cfmt)], offs := [(x1, false)]
      aligns := [(x1, 16, false), (q.ldc, 16, false)] }
  | 3 =>
    { writes := [rowsRange x1 q.ldc 32 (32 * cBytes q.cfmt)], offs := [(x1, true)]
      aligns := [(x1, 16, true), (q.ldc, 16, true)] }
  | 5 =>
    let n := 32 * outBytes q.mode
    let c := mxRs1 q.w ≠ 0
    let p := bitAt (mxF7 q.w) 2
    let xp := bits (q.csr 0x849) 18 0
    { reads := [rowsRange (q.recAt false) 0 1 256, rowsRange (q.recAt true) 0 1 256] ++
        (if c then [rowsRange x1 q.ldc 32 n] else []) ++ (if p then [rowsRange xp q.ldc 32 512] else [])
      writes := [rowsRange x2 q.ldc 32 n]
      offs := [(x2, true)] ++ (if c then [(x1, false)] else [])
      aligns := [(x2, 16, true), (q.ldc, 16, true), (q.recAt false, 256, false), (q.recAt true, 256, false)] ++
        (if c then [(x1, 16, false)] else []) ++ (if p then [(xp, 16, false)] else []) }
  | 6 =>
    let n := pieces q.mode
    { reads := [rowsRange x1 (q.ld q.sideB) k (32 * q.srcBytes)]
      writes := if q.writesPieces then
          (List.range n).map fun t => rowsRange (x2 + t * q.plane q.sideB) 128 k 128
        else []
      recs := [rowsRange (q.recAt q.sideB) 0 1 256]
      offs := [(x1, false)] ++ (if q.writesPieces then [(x2, true)] else [])
      aligns := [(q.ld q.sideB, 16, false), (q.recAt q.sideB, 256, true)] ++
        (if q.writesPieces then [(x2, 128, true), (q.plane q.sideB, 128, true)] else [])
      bank := false }
  | _ => {}

/-- Every range that an instruction reads. -/
def MxUse.allReads (u : MxUse) : List Range := u.reads ++ u.recs
/-- Every range that an instruction writes. -/
def MxUse.allWrites (u : MxUse) : List Range := u.writes ++ u.recs

/-- The destination ranges of mx.stacc, mx.recomb and mx.slice overlap a source range (R95): the record vector is tested against
the source and the piece planes and never against itself. -/
def MxUse.overlaps (u : MxUse) : Bool := anyMeet u.writes u.reads || anyMeet u.recs (u.reads ++ u.writes)

/-! ### Issue (R95, R96, R105, R110) -/

/-- A bank. -/
def Tile.bank (x : Tile) (b : Nat) : Bank := if b = 0 then x.bank0 else x.bank1

/-- A bank replaced. -/
def Tile.setBank (x : Tile) (b : Nat) (v : Bank) : Tile := if b = 0 then { x with bank0 := v } else { x with bank1 := v }

/-- A bank's tag and cumulative K after an instruction. -/
def MxReq.retag (q : MxReq) (tk : Nat × Nat) : Nat × Nat :=
  match mxOp q.w with
  | 0 => (q.kind, tk.2)
  | 1 => (q.kind, tk.2 + q.kk)
  | 2 => (q.kind, tk.2)
  | 4 => (0, 0)
  | 5 => (0, 0)
  | _ => tk

/-- The tag and cumulative K that a bank has once every queued instruction has completed (R105: the queue knows every tag). -/
def Tile.issueTag (x : Tile) (b : Nat) : Nat × Nat :=
  (x.mxq.filter fun q => q.bank = b && mxOp q.w ≠ 6).foldl (fun tk q => q.retag tk) ((x.bank b).tag, (x.bank b).k)

/-- The bank's kind refuses the instruction (R105). -/
def MxReq.tagBad (q : MxReq) (tag : Nat) : Bool :=
  match mxOp q.w with
  | 4 => false
  | 5 => !(3 ≤ tag)
  | 6 => false
  | _ => tag ≠ 0 && tag ≠ q.kind

/-- The instruction would take the bank past a cumulative K of 65,536 (R110). -/
def MxReq.kLimit (q : MxReq) (k : Nat) : Bool := mxOp q.w = 1 && 65536 < k + q.kk

/-- The first failing check of R95 on operand ranges; the deque area is out of reach while its unit owns it (R160). -/
def MxReq.operandTrap (q : MxReq) (deque : Bool) : Option Trap :=
  let u := q.use
  let out := fun (r : Range) => !rangeIn r || (deque && rangeDeque r)
  match u.offs.find? fun o => 2 ^ 19 ≤ o.1 with
  | some o => some ⟨if o.2 then exStore else exLoad, o.1⟩
  | none =>
    match u.reads.find? out, (u.writes ++ u.recs).find? out with
    | some r, _ => some ⟨exLoad, r.1.toNat⟩
    | none, some r => some ⟨exStore, r.1.toNat⟩
    | none, none =>
      match u.aligns.find? fun a => a.1 % a.2.1 ≠ 0 with
      | some a => some ⟨if a.2.2 then exStoreMis else exLoadMis, a.1⟩
      | none => if u.overlaps then some ⟨exOverlap, q.w⟩ else none

/-- The exception of an instruction at issue, or none; the tag and K are those of its bank at issue. -/
def MxReq.trap (q : MxReq) (tk : Nat × Nat) (deque : Bool) : Option Trap :=
  if mxReserved q.w || (mxOp q.w = 0 && q.fmtBad) || q.tagBad tk.1 || q.kLimit tk.2 then some ⟨exIllegal, q.w⟩
  else q.operandTrap deque

/-- An instruction with the CSRs it captures. -/
def State.mxReq (s : State) (t w x1 x2 : Nat) : MxReq :=
  { w := w, x1 := x1, x2 := x2, csrs := (upFrom 0x840 12).map fun n => s.csr t n, seq := (s.tile t).nextSeq, since := s.now }

/-! ### Elements -/

/-- Elements of a vector of 32 at bit position `pos`. -/
def State.vecElem (s : State) (t base w i : Nat) : Elem := s.readBits t (base * 8 + i * w) w

/-- The value of an operand element (R101, R102). -/
def mxVal (c : Nat) (mx sgn : Bool) (n : Nat) : FVal :=
  match c with
  | 0x0 => fmtE2M1.decode n | 0x1 => fmtE3M2.decode n | 0x2 => fmtE2M3.decode n | 0x3 => fmtE4M3.decode n
  | 0x4 => fmtE5M2.decode n | 0x5 => fmtFP16.decode n | 0x6 => fmtBF16.decode n
  | _ =>
    let z := if sgn then signedOf (mxType c).1 n else (n : Int)
    .fin (z < 0) z.natAbs (if mx then -6 else 0)

/-- The integer of an operand element. -/
def mxInt (c : Nat) (sgn : Bool) (n : Nat) : Int := if sgn then signedOf (mxType c).1 n else (n : Int)

/-- Products per cycle of a cell (R92). -/
def mxGroup (c : Nat) : Nat := match (mxType c).2 with | 0 => 4 | 2 => 2 | 3 => 2 | _ => 1

/-- An exact product; an invalid one is a signalling NaN. -/
def prodV (x y : FVal) : FVal :=
  if x.isNan || y.isNan then .nan (x.isSnan || y.isSnan)
  else match x, y with
    | .fin a m e, .fin b n d => .fin (a != b) (m * n) (e + d)
    | x, y => if x.isZero || y.isZero then .nan true else .inf (x.neg != y.neg)

/-- An exact sum of two values; opposite infinities are invalid. -/
def sumV (x y : FVal) : FVal :=
  match x, y with
  | .nan a, y => .nan (a || y.isSnan)
  | x, .nan b => .nan (b || x.isSnan)
  | .inf a, .inf b => if a = b then .inf a else .nan true
  | .inf a, _ => .inf a
  | _, .inf b => .inf b
  | .fin a m e, .fin b n d =>
    let (z, t) := exactAdd (signed a m) e (signed b n) d
    .fin (if z = 0 then a && b else z < 0) z.natAbs t

/-- A value scaled by a power of two. -/
def scaleV (x : FVal) (k : Int) : FVal :=
  match x with
  | .fin a m e => .fin a m (e + k)
  | x => x

/-- Flags and poison beside a cell's value. -/
structure CellRes where
  v : Nat
  fl : Nat := 0
  poison : Bool := false
  deriving DecidableEq, Repr

/-- A side's element at k: address base + k × stride, element i of the vector. -/
def State.mxElem (s : State) (t : Nat) (q : MxReq) (b : Bool) (k i : Nat) : Elem :=
  s.vecElem t ((if b then q.x2 else q.x1) + k * q.ld b) (mxType (q.side b).1).1 i

/-- The scale of a side for element i and k: 127 on a plain side (R93, R102). -/
def State.mxScale (s : State) (t : Nat) (q : MxReq) (b : Bool) (k i : Nat) : Elem :=
  if (q.side b).2.1 then
    s.vecElem t (bits (q.csr (if b then 0x846 else 0x845)) 18 0 + k / 32 * 32) 8 i
  else (127, false)

/-- One group of the sequence of R102. -/
def State.mmaStep (s : State) (t : Nat) (q : MxReq) (i j g : Nat) (acc : CellRes) : CellRes :=
  let (ca, ma, sa) := q.side false
  let (cb, mb, sb) := q.side true
  let c := mxGroup ca
  let ks := (upFrom (c * g) c).filter fun k => k < q.kk
  let pairs := ks.map fun k => (s.mxElem t q false k i, s.mxElem t q true k j)
  let xa := s.mxScale t q false (c * g) i
  let xb := s.mxScale t q true (c * g) j
  let sum := pairs.foldl (fun (z : Option FVal) p =>
    let v := prodV (mxVal ca ma sa p.1.1) (mxVal cb mb sb p.2.1)
    some (z.elim v fun y => sumV y v)) none
  let v := scaleV (sum.getD (.fin false 0 0)) ((xa.1 : Int) + xb.1 - 254)
  let v := if xa.1 = 0xFF || xb.1 = 0xFF then .nan v.isSnan else v
  let r := fmtFP32.addV (fmtFP32.decode acc.v) v
  { v := r.1, fl := acc.fl ||| r.2
    poison := acc.poison || xa.2 || xb.2 || pairs.any fun p => p.1.2 || p.2.2 }

/-- A float cell after mx.mma (R102, R103). -/
def State.mmaFloat (s : State) (t : Nat) (q : MxReq) (b : Bank) (i j : Nat) : CellRes :=
  let c := mxGroup (q.side false).1
  (List.range ((q.kk + c - 1) / c)).foldl (fun acc g => s.mmaStep t q i j g acc)
    { v := mapGet 0 b.acc (i * 32 + j), poison := mapGet false b.poison (i * 32 + j) }

/-- An int56 accumulator after a product (R104). -/
def int56 (z : Int) : Int × Nat :=
  if z < -(2 ^ 55) then (-(2 ^ 55), flSAT) else if 2 ^ 55 ≤ z then (2 ^ 55 - 1, flSAT) else (z, 0)

/-- An integer cell after mx.mma: accumulator, flags, poison (R104). -/
def State.mmaInt (s : State) (t : Nat) (q : MxReq) (b : Bank) (i j : Nat) : Int × Nat × Bool :=
  let (ca, _, sa) := q.side false
  let (cb, _, sb) := q.side true
  (List.range q.kk).foldl (fun (acc : Int × Nat × Bool) k =>
    let x := s.mxElem t q false k i
    let y := s.mxElem t q true k j
    let r := int56 (acc.1 + mxInt ca sa x.1 * mxInt cb sb y.1)
    (r.1, acc.2.1 ||| r.2, acc.2.2 || x.2 || y.2))
    (mapGet 0 b.ints ((i * 32 + j) * 5), 0, mapGet false b.poison (i * 32 + j))

/-- The 1,024 cells. -/
def cells : List (Nat × Nat) := (List.range 32).flatMap fun i => (List.range 32).map fun j => (i, j)

/-- Sticky flags of mx instructions (R85). -/
def State.mxFlags (s : State) (t fl : Nat) : State := s.orCsr t 0x84A fl

/-- A bank of a tile written. -/
def State.setBank (s : State) (t b : Nat) (v : Bank) : State := s.setTile t ((s.tile t).setBank b v)

/-- Flags of the cells that are not poisoned (R436: no flag is raised for those). -/
def orFlags (l : List (Nat × Bool)) : Nat := l.foldl (fun a x => if x.2 then a else a ||| x.1) 0

/-- mx.mma completes. -/
def State.doMma (s : State) (t : Nat) (q : MxReq) : State :=
  let b := (s.tile t).bank q.bank
  if q.kind = 1 then
    let rs := cells.map fun (i, j) => (i * 32 + j, s.mmaFloat t q b i j)
    let b' : Bank := { b with
      tag := 1
      acc := rs.foldl (fun m x => mapPut 0 m x.1 x.2.v) b.acc
      poison := rs.foldl (fun m x => mapPut false m x.1 x.2.poison) b.poison }
    (s.setBank t q.bank b').mxFlags t (orFlags (rs.map fun x => (x.2.fl, x.2.poison)))
  else
    let rs := cells.map fun (i, j) => (i * 32 + j, s.mmaInt t q b i j)
    let b' : Bank := { b with
      tag := 2
      ints := rs.foldl (fun m x => mapPut 0 m (x.1 * 5) x.2.1) b.ints
      poison := rs.foldl (fun m x => mapPut false m x.1 x.2.2.2) b.poison }
    (s.setBank t q.bank b').mxFlags t (orFlags (rs.map fun x => x.2.2))

/-! ### Wide products (R93, R110) -/

/-- Piece t of element i at k of an operand (R82): bits [17:0], signed. -/
def State.pieceElem (s : State) (t : Nat) (q : MxReq) (b : Bool) (pl k i : Nat) : Int × Bool :=
  let e := s.vecElem t ((if b then q.x2 else q.x1) + pl * q.plane b + k * 128) 32 i
  (signedOf 18 e.1, e.2)

/-- The kept pairs of a mode. -/
def keptPairs (mode : Nat) : List (Nat × Nat) :=
  let n := pieces mode
  let top := match mode with | 0 => 1 | 1 => 2 | 2 => 4 | _ => 3
  ((List.range n).flatMap fun a => (List.range n).map fun b => (a, b)).filter fun x => x.1 + x.2 ≤ top

/-- The weight accumulators and poison that one output gains. -/
def State.wmmaCell (s : State) (t : Nat) (q : MxReq) (i j : Nat) : List Int × Bool :=
  (List.range q.kk).foldl (fun acc k =>
    (keptPairs q.mode).foldl (fun (acc : List Int × Bool) p =>
      let x := s.pieceElem t q false p.1 k i
      let y := s.pieceElem t q true p.2 k j
      (acc.1.modify (p.1 + p.2) (· + x.1 * y.1), acc.2 || x.2 || y.2)) acc)
    (List.replicate 5 0, false)

/-- mx.wmma completes. -/
def State.doWmma (s : State) (t : Nat) (q : MxReq) : State :=
  let b := (s.tile t).bank q.bank
  let rs := cells.map fun (i, j) => (i * 32 + j, s.wmmaCell t q i j)
  let ints := rs.foldl (fun m x => (List.range 5).foldl (fun m w =>
    mapPut 0 m (x.1 * 5 + w) (mapGet 0 m (x.1 * 5 + w) + x.2.1.getD w 0)) m) b.ints
  s.setBank t q.bank { b with
    tag := q.kind
    k := b.k + q.kk
    ints := ints
    poison := rs.foldl (fun m x => if x.2.2 then mapPut false m x.1 true else m) b.poison }

/-! ### Loads and stores of a bank (R105) -/

/-- mx.ldacc completes: FLOAT from FP32, BF16 or FP16, widened exactly; INT from INT32 or INT64, clamped to int56. -/
def State.doLdacc (s : State) (t : Nat) (q : MxReq) : State :=
  let n := cBytes q.cfmt
  let es := cells.map fun (i, j) => (i * 32 + j, s.vecElem t (q.x1 + i * q.ldc) (8 * n) j)
  let k := ((s.tile t).bank q.bank).k
  let poison := es.foldl (fun m x => mapPut false m x.1 x.2.2) []
  if q.cfmt ≤ 2 then
    let rs := es.map fun x =>
      (x.1, x.2.2, if q.cfmt = 0 then (x.2.1, 0)
        else fmtFP32.convert ((if q.cfmt = 1 then fmtBF16 else fmtFP16).decode x.2.1) false)
    (s.setBank t q.bank { tag := 1, k := k, acc := rs.foldl (fun m x => mapPut 0 m x.1 x.2.2.1) [], poison := poison }).mxFlags t
      (orFlags (rs.map fun x => (x.2.2.2, x.2.1)))
  else
    let rs := es.map fun x => (x.1, x.2.2, int56 (signedOf (8 * n) x.2.1))
    (s.setBank t q.bank { tag := 2, k := k, ints := rs.foldl (fun m x => mapPut 0 m (x.1 * 5) x.2.2.1) [], poison := poison }).mxFlags
      t (orFlags (rs.map fun x => (x.2.2.2, x.2.1)))

/-- The digest of an mx output takes index ldidx + i × ldrow + j (R408). -/
def State.mxDigest (s : State) (t w : Nat) (es : List ((Nat × Nat) × Elem)) : State :=
  let ctl := s.csr t 0x880
  if bitAt ctl 0 && bitAt ctl 4 then
    s.digest t w (es.map fun x => ((s.csr t 0x881 + x.1.1 * s.csr t 0x883 + x.1.2) % 2 ^ 64, x.2))
  else s

/-- Outputs written row by row. -/
def State.putCells (s : State) (t base stride n : Nat) (es : List ((Nat × Nat) × Elem)) : State :=
  (s.putElems t (es.map fun x =>
    { pos := (base + x.1.1 * stride + x.1.2 * n) * 8, w := 8 * n, v := x.2.1, poison := x.2.2 })).mxDigest t (8 * n) es

/-- An element of C as mx.stacc writes it: one rounding, and clamping of integers with SAT. -/
def staccElem (cfmt : Nat) (b : Bank) (c : Nat) : Res :=
  match cfmt with
  | 0 => (mapGet 0 b.acc c, 0)
  | 1 => fmtBF16.convert (fmtFP32.decode (mapGet 0 b.acc c)) false
  | 2 => fmtFP16.convert (fmtFP32.decode (mapGet 0 b.acc c)) false
  | 3 => clampInt 32 true (mapGet 0 b.ints (c * 5)) flSAT
  | _ => clampInt 64 true (mapGet 0 b.ints (c * 5)) flSAT

/-- mx.stacc completes; an EMPTY bank stores zeros. -/
def State.doStacc (s : State) (t : Nat) (q : MxReq) : State :=
  let b := (s.tile t).bank q.bank
  let rs := cells.map fun (i, j) =>
    let p := mapGet false b.poison (i * 32 + j)
    let r := if b.tag = 0 then (0, 0) else staccElem q.cfmt b (i * 32 + j)
    ((i, j), r, p && b.tag ≠ 0)
  (s.putCells t q.x1 q.ldc (cBytes q.cfmt) (rs.map fun x => (x.1, if x.2.2 then 0 else x.2.1.1, x.2.2))).mxFlags t
    (orFlags (rs.map fun x => (x.2.1.2, x.2.2)))

/-! ### Recombination (R111–R113) -/

/-- The bank's wide sum S of an output. -/
def wideSum (mode : Nat) (b : Bank) (c : Nat) : Int :=
  let n := pieces mode
  (List.range (2 * n - 1)).foldl (fun a w => a + mapGet 0 b.ints (c * 5 + w) * (2 ^ (18 * (2 * n - 2 - w)) : Nat)) 0

/-- g of a mode (R112). -/
def partialShift (mode : Nat) : Nat := match mode with | 0 => 18 | 1 => 36 | 2 => 0 | _ => 54

/-- A slice record of line i. -/
def State.sliceRec (s : State) (t base i : Nat) : Elem := s.readBits t ((base + 8 * i) * 8) 64

/-- The block exponent of a record. -/
def recExp (r : Nat) : Int := signedOf 16 (bits r 15 0)
/-- NAN. -/
def recNan (r : Nat) : Bool := bitAt r 60
/-- ZERO. -/
def recZero (r : Nat) : Bool := bitAt r 62

/-- A float output: S at the block exponent, plus C and the partial, rounded once. -/
def recombFloat (f : Fmt) (z : Int) (e : Int) (c : Option Nat) (part : Option Nat) (g : Nat) : Res :=
  let zp := part.elim 0 fun m => signedOf 128 m
  let (y, t) := exactAdd z e zp (e + g)
  match c.map f.decode with
  | none => f.roundInt y t false
  | some v => f.addV (.fin (y < 0) y.natAbs t) v

/-- One output of mx.recomb. -/
def State.recombCell (s : State) (t : Nat) (q : MxReq) (b : Bank) (i j : Nat) : Res × Bool :=
  let ra := s.sliceRec t (q.recAt false) i
  let rb := s.sliceRec t (q.recAt true) j
  let n := outBytes q.mode
  let mode := b.tag - 3
  let g := partialShift mode
  let c : Option Elem := if mxRs1 q.w ≠ 0 then some (s.vecElem t (q.x1 + i * q.ldc) (8 * n) j) else none
  let p : Option Elem :=
    if bitAt (mxF7 q.w) 2 then some (s.vecElem t (bits (q.csr 0x849) 18 0 + i * q.ldc) 128 j) else none
  let poison := mapGet false b.poison (i * 32 + j) || ra.2 || rb.2 || c.elim false (·.2) || p.elim false (·.2)
  let z := wideSum mode b (i * 32 + j)
  let e := recExp ra.1 + recExp rb.1
  let bad := recNan ra.1 || recNan rb.1
  let nar := p.elim false fun x => x.1 = xpNaR
  if q.mode = 2 then
    if bad then ((xpNaR, flNV), poison)
    else
      let m := xpOfInt (z / (2 ^ g : Nat))
      match p with
      | some x =>
        let r := xpAdd m.1 x.1
        ((r.1, r.2 ||| m.2), poison)
      | none => (m, poison)
  else
    let f := if q.mode = 0 then fmtFP64 else fmtFP32
    if bad || nar then (f.invalid, poison)
    else (recombFloat f z e (c.map (·.1)) (p.map (·.1)) g, poison)

/-- mx.recomb completes: outputs, NANREC, and the bank cleared (R105). -/
def State.doRecomb (s : State) (t : Nat) (q : MxReq) : State :=
  let b := (s.tile t).bank q.bank
  let rs := cells.map fun (i, j) => ((i, j), s.recombCell t q b i j)
  let met := (List.range 32).any fun i =>
    recNan (s.sliceRec t (q.recAt false) i).1 || recNan (s.sliceRec t (q.recAt true) i).1
  let s := s.putCells t q.x2 q.ldc (outBytes q.mode) (rs.map fun x => (x.1, if x.2.2 then 0 else x.2.1.1, x.2.2))
  ((s.mxFlags t (orFlags (rs.map fun x => (x.2.1.2, x.2.2)))).orCsr t 0x84B (met.toNat * 4)).setBank t q.bank {}

/-! ### The slice (R106–R109) -/

/-- What a line's elements say: EMAX, EMIN (none without a finite non-zero element) and whether a NaN or infinity is there. -/
def lineScan (xs : List FVal) : Option (Int × Int) × Bool :=
  xs.foldl (fun (acc : Option (Int × Int) × Bool) x =>
    match x with
    | .fin _ m e =>
      if m = 0 then acc
      else
        let l := (Nat.log2 m : Int) + e
        (some (acc.1.elim (l, l) fun r => (max r.1 l, min r.2 l)), acc.2)
    | _ => (acc.1, true)) (none, false)

/-- Headroom H (R109). -/
def headroom (mode : Nat) : Int := match mode with | 0 => 10 | 3 => 17 | _ => 8

/-- A record made (R107). -/
def makeRec (mode : Nat) (scan : Option (Int × Int)) (nan : Bool) : Nat :=
  match scan with
  | none => 0x8000 * 2 ^ 16 + 0x7FFF * 2 ^ 32 + nan.toNat * 2 ^ 60 + 2 ^ 62
  | some (hi, lo) =>
    let spread := hi - lo
    wrapTo 16 (hi - (18 * pieces mode - 3)) + wrapTo 16 hi * 2 ^ 16 + wrapTo 16 lo * 2 ^ 32 + wrapTo 12 spread * 2 ^ 48 +
      nan.toNat * 2 ^ 60 + (decide (headroom mode < spread)).toNat * 2 ^ 61

/-- EMAX and EMIN of an existing record. -/
def recScan (r : Nat) : Option (Int × Int) :=
  if recZero r then none else some (signedOf 16 (bits r 31 16), signedOf 16 (bits r 47 32))

/-- Two scans merged by maximum and minimum (R108). -/
def mergeScan (a b : Option (Int × Int)) : Option (Int × Int) :=
  match a, b with
  | none, b => b
  | a, none => a
  | some (h, l), some (h', l') => some (max h h', min l l')

/-- N = RNE (x / 2^B), and whether rounding changed the value. -/
def sliceInt (x : FVal) (b : Int) : Int × Bool :=
  match x with
  | .fin n m e =>
    let (q, inexact) := rne m e b false
    (signed n q, inexact)
  | _ => (0, false)

/-- The balanced pieces of N, lowest first. -/
def balanced : Nat → Int → List Int
  | 0, _ => []
  | n + 1, z =>
    let p := (z + 2 ^ 17) % 2 ^ 18 - 2 ^ 17
    p :: balanced n ((z - p) / 2 ^ 18)

/-- A line sliced: its record (none where it is not written), its integers N in k order, and its flags. -/
structure LineRes where
  record : Option Nat := none
  ns : List Int := []
  fl : Nat := 0

/-- A line of a slice: `xs` its elements in k order, none for a poisoned one; `old` its existing record. -/
def sliceLine (scope mode : Nat) (xs : List (Option FVal)) (old : Nat) : LineRes :=
  let live := xs.filterMap id
  let (scan, nan) := lineScan live
  let nv := nan.toNat * flNV
  let zero := xs.map fun _ => (0 : Int)
  let cut := fun (b : Int) => xs.map fun x => x.elim (0, false) fun v => sliceInt v b
  match scope with
  | 0 =>
    let r := makeRec mode scan nan
    if nan || scan.isNone then { record := some r, ns := zero, fl := nv }
    else
      let c := cut (recExp r)
      { record := some r, ns := c.map (·.1), fl := (c.any (·.2)).toNat * flNX }
  | 1 => { record := some (makeRec mode scan nan), fl := nv }
  | 2 => { record := some (makeRec mode (mergeScan (recScan old) scan) (recNan old || nan)), fl := nv }
  | _ =>
    if recNan old then { ns := zero, fl := nv }
    else
      let c := if recZero old then zero.map fun z => (z, false) else cut (recExp old)
      let tooBig := (recZero old && scan.isSome) || c.any fun x => (2 ^ (18 * pieces mode - 2) : Nat) < x.1.natAbs
      if nan || tooBig then { record := some (old + 2 ^ 60), ns := zero, fl := nv + tooBig.toNat * flOF }
      else { ns := c.map (·.1), fl := (c.any (·.2)).toNat * flNX }

/-- mx.slice completes. -/
def State.doSlice (s : State) (t : Nat) (q : MxReq) : State :=
  let f := if q.srcBytes = 4 then fmtFP32 else fmtFP64
  let recs := q.recAt q.sideB
  let n := pieces q.mode
  let lines := (List.range 32).map fun i =>
    let es := (List.range q.kk).map fun k => s.vecElem t (q.x1 + k * q.ld q.sideB) (8 * q.srcBytes) i
    let old := s.sliceRec t recs i
    let reads := q.scope = 2 || q.scope = 3
    (i, sliceLine q.scope q.mode (es.map fun e => if e.2 then none else some (f.decode e.1)) (if reads then old.1 else 0),
      es.map (·.2), reads && old.2)
  let recPuts : List Put := lines.filterMap fun (i, r, _, bad) =>
    r.record.map fun v => { pos := (recs + 8 * i) * 8, w := 64, v := v, poison := bad }
  let piecePuts : List Put := if q.writesPieces then
      lines.flatMap fun (i, r, ps, bad) =>
        (r.ns.zip ps).zipIdx.flatMap fun ((z, p), k) =>
          (balanced n z).zipIdx.map fun (v, m) =>
            { pos := (q.x2 + (n - 1 - m) * q.plane q.sideB + k * 128 + 4 * i) * 8, w := 32, v := wrapTo 32 v,
              poison := p || bad }
    else []
  let written := lines.filterMap fun (_, r, _, _) => r.record
  let s := s.putElems t (recPuts ++ piecePuts)
  let s := s.mxFlags t (lines.foldl (fun a x => a ||| x.2.1.fl) 0)
  let loss := q.scope ≠ 3 && written.any fun r => bitAt r 61
  let nanrec := written.any recNan
  let spread := written.foldl (fun a r => max a (bits r 59 48)) (s.csrBits t 0x84B 27 16)
  let s := s.orCsr t 0x84B (loss.toNat + nanrec.toNat * 4)
  s.setCsr t 0x84B (putBits (s.csr t 0x84B) 27 16 spread)

/-! ### Completion -/

/-- The engine of an instruction (R96). -/
def mxEngine (w : Nat) : Engine := if mxOp w = 5 then .recomb else if mxOp w = 6 then .fcu else .array

/-- What an instruction does when its engine completes it. -/
def State.mxDo (s : State) (t : Nat) (q : MxReq) : State :=
  match mxOp q.w with
  | 0 => s.doMma t q
  | 1 => s.doWmma t q
  | 2 => s.doLdacc t q
  | 3 => s.doStacc t q
  | 4 => s.setBank t q.bank {}
  | 5 => s.doRecomb t q
  | 6 => s.doSlice t q
  | _ => s

end Sys2Proof.Machine
end

