-- ==== Sys2Proof/Machine/Fcu.lean ====
section
/-! DEFINITION. FCU requests (R72, R73, R80, R81, R134, R592), and the interlocks between a tile's queues (R96, R97, R135). -/
namespace Sys2Proof.Machine

/-! ### Requests -/

/-- A request as the stream instruction that issued it. -/
def FcuReq.sv (q : FcuReq) : SvOp :=
  { code := 0x90 + q.op, w := q.w, vl := q.vl, side := false, sat := q.sat, derive := svQ q.w = 1, masked := bitAt q.w 19,
    d := q.d, s1 := q.s1, s2 := q.s2, s3 := q.s3, mask := q.mask, qpos := 0, kpos := 0, win := 1, klim := 0, shuf := 0 }

/-- The request that a checked instruction queues. -/
def SvOp.request (o : SvOp) (seq : Nat) : FcuReq :=
  { op := o.code - 0x90, w := o.w, vl := o.vl, sat := o.sat, d := o.d, s1 := o.s1, s2 := o.s2, s3 := o.s3, mask := o.mask,
    seq := seq }

/-- The value of a source element. -/
def srcVal (t n : Nat) : FVal :=
  if tyInt t then
    let z := tyRead t n
    .fin (z < 0) z.natAbs 0
  else (tyFmt t).decode n

/-- The values that take part in a derivation (R592): not masked off, not poisoned, their mask element not poisoned. -/
def State.takesPart (s : State) (t : Nat) (o : SvOp) (i : Nat) : Bool :=
  let m := s.svMask t o i
  !m.2 && m.1 % 2 = 1 && !(s.elem t o.s1 i).2

/-- A value is neither masked off nor clean: its slot is written poisoned. -/
def State.spoiled (s : State) (t : Nat) (o : SvOp) (i : Nat) : Bool :=
  let m := s.svMask t o i
  m.2 || (m.1 % 2 = 1 && (s.elem t o.s1 i).2)

/-- The exponent derived for XP128 (R80): emax − 92, or 0 without a finite non-zero value. -/
def State.deriveExp (s : State) (t : Nat) (o : SvOp) : Int :=
  let xs := ((List.range o.vl).filter (s.takesPart t o)).map fun i => srcVal o.s1.ety (s.elem t o.s1 i).1
  ((lineScan xs).1.elim 0 fun r => r.1 - 92)

/-- `sv.fcvt` (R134). -/
def State.fcuConvert (s : State) (t : Nat) (o : SvOp) : SvRes :=
  let a := fun i => s.elem t o.s1 i
  if o.d.ety = tXP128 then
    let ex : Elem := if o.derive then (wrapTo 16 (s.deriveExp t o), false) else s.elem t o.s2 0
    let r := s.svEach t o o.vl id fun i =>
      let v := xpOfFloat (srcVal o.s1.ety (a i).1) (signedOf 16 ex.1)
      { v := v.1, fl := v.2, poison := (a i).2 || ex.2 }
    if o.derive then { r with puts := r.puts ++ [o.s2.put 0 ex] } else r
  else if o.s1.ety = tXP128 then
    let ex := s.elem t o.s2 0
    s.svEach t o o.vl id fun i =>
      let v := (tyFmt o.d.ety).ofXp (a i).1 (signedOf 16 ex.1)
      { v := v.1, fl := v.2, poison := (a i).2 || ex.2 }
  else
    s.svEach t o o.vl id fun i =>
      let v := convertOn o.s1.ety o.d.ety (a i).1 o.sat (if o.shifts then o.shift else 0)
      { v := v.1, fl := v.2, poison := (a i).2 }

/-! ### Microscaling (R70–R73) -/

/-- Unbiased exponent of an element type's largest finite value (R70). -/
def mxEmax (t : Nat) : Int :=
  if t = tE4M3 then 8 else if t = tE5M2 then 15 else if t = tE3M2 then 4 else if t = tINT8 then 0 else 2

/-- A value divided by 2^X and rounded once into an element type (R72 step 4). -/
def mxElemOf (t : Nat) (v : FVal) (x : Int) : Res :=
  match v with
  | .fin n m e =>
    if t = tINT8 then
      let (q, inexact) := rne m (e - x + 6) 0 false
      if 127 < q then (wrapTo 8 (signed n 127), flSAT + flNX) else (wrapTo 8 (signed n q), inexact.toNat * flNX)
    else (tyFmt t).round n m (e - x) false false true
  | _ => (0, 0)

/-- A block packed (R72): its scale, none where nothing of it is written, and each value's element. -/
def mxBlock (t : Nat) (take : List FVal) (padded spoiled : Bool) : Option Nat × Nat × (FVal → Res) :=
  let (scan, bad) := lineScan take
  if bad then (some 0xFF, flNV, fun _ => (0, 0))
  else match scan with
    | none =>
      if take.isEmpty && !padded && !spoiled then (none, 0, fun _ => (0, 0))
      else (some 0, 0, fun v => (if t = tINT8 then 0 else (tyFmt t).signBit v.neg, 0))
    | some (hi, _) =>
      let x := max (-127) (min 127 (hi - mxEmax t))
      (some (wrapTo 8 (x + 127)), 0, fun v => mxElemOf t v x)

/-- `sv.mxpack` (R72). -/
def State.fcuPack (s : State) (t : Nat) (o : SvOp) : SvRes :=
  let blocks := (List.range o.blocks).map fun k =>
    let is := (upFrom (32 * k) 32).filter fun i => i < o.vl
    let take := (is.filter (s.takesPart t o)).map fun i => srcVal o.s1.ety (s.elem t o.s1 i).1
    mxBlock o.d.ety take (is.length < 32) (is.any (s.spoiled t o))
  let r := s.svEach t o o.vl id fun i =>
    let e := s.elem t o.s1 i
    let v := ((blocks.getD (i / 32) (none, 0, fun _ => (0, 0))).2.2) (srcVal o.s1.ety e.1)
    { v := v.1, fl := v.2, poison := e.2 }
  let scales := blocks.zipIdx.filterMap fun (b, k) => b.1.map fun v => o.s2.put k (v, false)
  { r with puts := r.puts ++ scales, flags := blocks.foldl (fun a b => a ||| b.2.1) r.flags }

/-- An MX element unpacked (R73). -/
def mxUnpackOne (t d e scale : Nat) : Res :=
  if scale = 0xFF then ((tyFmt d).nanBits, 0)
  else if t = tINT8 then
    let z := signedOf 8 e
    (tyFmt d).round (z < 0) z.natAbs ((scale : Int) - 127 - 6)
  else
    match (tyFmt t).decode e with
    | .fin n m k => (tyFmt d).round n m (k + scale - 127)
    | v => (tyFmt d).convert v false

/-- `sv.mxunpack`. -/
def State.fcuUnpack (s : State) (t : Nat) (o : SvOp) : SvRes :=
  s.svEach t o o.vl id fun i =>
    let e := s.elem t o.s1 i
    let k := s.elem t o.s2 (i / 32)
    let v := mxUnpackOne o.s1.ety o.d.ety e.1 k.1
    { v := v.1, fl := v.2, poison := e.2 || k.2 }

/-- `sv.xprebase` (R80). -/
def State.fcuRebase (s : State) (t : Nat) (o : SvOp) : SvRes :=
  let a := s.elem t o.s2 0
  let b := s.elem t o.s3 0
  s.svEach t o o.vl id fun i =>
    let e := s.elem t o.s1 i
    let v := xpRebase e.1 (signedOf 16 a.1) (signedOf 16 b.1)
    { v := v.1, fl := v.2, poison := e.2 || a.2 || b.2 }

/-- What a request writes. -/
def State.fcuCompute (s : State) (t : Nat) (o : SvOp) : SvRes :=
  match o.code with
  | 0x90 => s.fcuConvert t o
  | 0x91 => s.fcuPack t o
  | 0x92 => s.fcuUnpack t o
  | _ => s.fcuRebase t o

/-- A request completes. -/
def State.fcuDo (s : State) (t : Nat) (q : FcuReq) : State := s.svWrite t q.sv (s.fcuCompute t q.sv)

/-! ### Interlocks (R96, R97, R135) -/

/-- Ranges that conflict: one writes what the other reads or writes. -/
def conflict (r w r' w' : List Range) : Bool := anyMeet w (r' ++ w') || anyMeet r w'

/-- A queued Xzmx instruction conflicts with an access. -/
def MxReq.blocks (q : MxReq) (r w : List Range) : Bool := conflict r w q.use.allReads q.use.allWrites

/-- A pending FCU request conflicts with an access. -/
def FcuReq.blocks (q : FcuReq) (r w : List Range) : Bool := conflict r w q.sv.reads q.sv.writes

/-- A pilot-core or SVU access of a tile stalls behind its queues (R97, R135). -/
def State.unitsBlock (s : State) (t : Nat) (r w : List Range) : Bool :=
  let x := s.tile t
  (x.mxq.any fun q => q.blocks r w) || x.fcuq.any fun q => q.blocks r w

/-- An earlier instruction of the tile holds an Xzmx instruction back (R96, R135): one of its bank, one whose ranges conflict, or an
FCU request whose ranges do. -/
def Tile.mxHeld (x : Tile) (q : MxReq) : Bool :=
  let u := q.use
  (x.mxq.any fun p => p.seq < q.seq && ((u.bank && p.use.bank && p.bank = q.bank) || p.blocks u.allReads u.allWrites)) ||
    x.fcuq.any fun p => p.seq < q.seq && p.blocks u.allReads u.allWrites

/-- The oldest instruction of an engine that has not started, unless the engine is busy. -/
def Tile.nextFor (x : Tile) (e : Engine) : Option MxReq :=
  let mine := x.mxq.filter fun q => mxEngine q.w = e
  if mine.any (·.running) then none else mine.head?

/-- The engine is powered: the array and the recombination unit gate with the tile's matrix array (R59). -/
def State.enginePower (s : State) (t : Nat) (e : Engine) : Bool := e = .fcu || s.unitOn t .mx

/-- The oldest FCU request of a tile may run: no earlier Xzmx instruction conflicts (R135). -/
def Tile.fcuReady (x : Tile) : Option FcuReq :=
  match x.fcuq with
  | [] => none
  | q :: _ => if x.mxq.any fun p => p.seq < q.seq && p.blocks q.sv.reads q.sv.writes then none else some q

/-- A tile's units and queues are idle. -/
def Tile.quiet (x : Tile) : Bool := x.mxq.isEmpty && x.fcuq.isEmpty

/-! ### Abandonment (R99, R141) -/

/-- Free values of `n` draws from a state on. -/
def State.frees (s : State) (n : Nat) : List Nat × State :=
  ((List.range n).map fun i => Config.freeValue (s.freeCount + i), { s with freeCount := s.freeCount + n })

/-- The destination elements of an abandoned instruction: those already written hold what it wrote, the others are poisoned; which
ones are which is left open (R99, R141). -/
def State.partWritten (s after : State) (t : Nat) (ps : List Put) : State :=
  let (vs, s) := s.frees ps.length
  s.putElems t ((ps.zip vs).map fun x =>
    if x.2 % 2 = 0 then
      let e := after.readBits t x.1.pos x.1.w
      { x.1 with v := e.1, poison := e.2 }
    else { x.1 with v := 0, poison := true })

/-- Row-by-row elements of an output. -/
def outPuts (base stride n : Nat) : List Put :=
  cells.map fun (i, j) => { pos := (base + i * stride + j * n) * 8, w := 8 * n, v := 0 }

/-- What an abandoned running instruction leaves (R99): stores poisoned where not yet written, a bank in the middle of a product
holding what its cells held at that point, which is left open. -/
def State.abandonMx (s : State) (t : Nat) (q : MxReq) : State :=
  let after := s.mxDo t q
  match mxOp q.w with
  | 3 => s.partWritten after t (outPuts q.x1 q.ldc (cBytes q.cfmt))
  | 5 => s.partWritten after t (outPuts q.x2 q.ldc (outBytes q.mode))
  | 6 =>
    let planes : List Put := if q.writesPieces then
        (List.range (pieces q.mode)).flatMap fun m => (List.range q.kk).flatMap fun k => (List.range 32).map fun i =>
          { pos := (q.x2 + m * q.plane q.sideB + k * 128 + 4 * i) * 8, w := 32, v := 0 }
      else []
    let recs : List Put := if q.scope = 3 then [] else
      (List.range 32).map fun i => { pos := (q.recAt q.sideB + 8 * i) * 8, w := 64, v := 0 }
    s.partWritten after t (planes ++ recs)
  | 0 =>
    let (vs, s) := s.frees 1024
    let b := (s.tile t).bank q.bank
    let vals := cells.zip vs
    let b' : Bank :=
      if q.kind = 1 then
        { b with tag := 1, acc := vals.foldl (fun m x => mapPut 0 m (x.1.1 * 32 + x.1.2) (x.2 % 2 ^ 32)) b.acc }
      else
        { b with tag := 2, ints := vals.foldl (fun m x =>
            mapPut 0 m ((x.1.1 * 32 + x.1.2) * 5) (signedOf 56 x.2)) b.ints }
    s.setBank t q.bank b'
  | 1 =>
    let (vs, s) := s.frees 5120
    let b := (s.tile t).bank q.bank
    s.setBank t q.bank { b with
      tag := q.kind
      k := b.k + q.kk
      ints := vs.zipIdx.foldl (fun m x => mapPut 0 m x.2 (signedOf 56 x.1)) b.ints }
  | 2 =>
    let (v, s) := s.free
    if v % 2 = 0 then s else s.setBank t q.bank ((after.tile t).bank q.bank)
  | 4 =>
    let (v, s) := s.free
    if v % 2 = 0 then s else s.setBank t q.bank {}
  | _ => s

/-- An abandoned FCU request that had started poisons what it has not yet written (R141). -/
def State.abandonFcu (s : State) (t : Nat) (q : FcuReq) : State :=
  let o := q.sv
  let after := s.svWrite t o (s.fcuCompute t o)
  (s.partWritten after t (s.fcuCompute t o).puts).orCsr t 0x803 2

/-- A tile's unit work is abandoned by a hard deadline, a job teardown or a kernel fault (R99, R141): running instructions leave what
they leave, an FCU request that may have started likewise, and the queues are discarded. -/
def State.abandonUnits (s : State) (t : Nat) : State :=
  let x := s.tile t
  let s := s.forEach (x.mxq.filter (·.running)) fun q s => s.abandonMx t q
  let s := match x.fcuReady with
    | some q =>
      let (v, s) := s.free
      if v % 2 = 0 then s else s.abandonFcu t q
    | none => s
  s.setTile t { s.tile t with mxq := [], fcuq := [] }

end Sys2Proof.Machine
end

