-- ==== Sys2Proof/Machine/Tally.lean ====
section
/-! DEFINITION. The operations that a flask counts for the command brackets (R538), per issuing tile; conventions that R538 leaves
open are log entry 6. -/
namespace Sys2Proof.Machine

/-- The tile runs a node of a context whose brackets are enabled. -/
def State.bracketed (s : State) (t : Nat) : Bool :=
  (s.core t).running && (s.core t).ctx.elim false fun c => s.getF fdObsBrkEn pgObs c = 1

/-- `n` operations of a kind counted for a tile. -/
def State.tallyAdd (s : State) (t kind n : Nat) : State :=
  if s.bracketed t then { s with tally := mapPut 0 s.tally (t * 16 + kind) (mapGet 0 s.tally (t * 16 + kind) + n) } else s

/-- The operations of a completed Xzmx instruction: MACs by operand type, exact products of a wide product, tile-store bytes. -/
def State.tallyMx (s : State) (t : Nat) (q : MxReq) : State :=
  let (a, _, _) := q.side false
  match mxOp q.w with
  | 0 =>
    let (w, row) := mxType a
    (s.tallyAdd t row (1024 * q.kk)).tallyAdd t 12 (q.kk * 8 * w)
  | 1 =>
    let n := (keptPairs q.mode).length
    (s.tallyAdd t 5 (1024 * q.kk * n)).tallyAdd t 12 (2 * pieces q.mode * q.kk * 128)
  | 2 => s.tallyAdd t 12 (1024 * cBytes q.cfmt)
  | 3 => s.tallyAdd t 12 (1024 * cBytes q.cfmt)
  | 5 => s.tallyAdd t 12 (1024 * outBytes q.mode)
  | 6 => s.tallyAdd t 11 (q.kk * 32 * q.srcBytes)
  | _ => s

/-- The kind of an SVU instruction's elements: by its first source, or its destination for a position instruction. -/
def SvOp.tallyKind (o : SvOp) : Nat :=
  let ty := if svPosition o.code then o.d.ety else o.s1.ety
  if 0x30 ≤ o.code && o.code ≤ 0x33 then 10
  else if ty = 0 then 6 else if ty = 1 then 7 else if ty ≤ 8 then 8 else 9

/-- The operations of a stream instruction. -/
def State.tallySv (s : State) (t : Nat) (o : SvOp) : State :=
  let bytes := o.streams.foldl (fun a x => a + (x.n * tyBits x.desc.ety + 7) / 8) 0
  (s.tallyAdd t o.tallyKind o.vl).tallyAdd t 12 bytes

/-- The source bytes of an FCU request. -/
def State.tallyFcu (s : State) (t : Nat) (q : FcuReq) : State :=
  s.tallyAdd t 11 ((q.vl * tyBits q.s1.ety + 7) / 8)

/-- Bytes of a pilot core's access through the mesh port: kind 13 an HBM read, 14 an HBM write, 15 a class 0x8 or 0x9 access. -/
def State.tallyMesh (s : State) (c kind n : Nat) : State := if c < 4096 then s.tallyAdd c kind n else s

end Sys2Proof.Machine
end

