-- ==== Sys2Proof/Machine/Sync.lean ====
section
/-! DEFINITION. The Xzsy instructions (R145–R171): counters, barriers, deques, stealing and watch ranges. -/
namespace Sys2Proof.Machine

/-! ### Cores -/

/-- Requests of the memory system that have not passed an ordering point. -/
def State.hbmOpen (s : State) : List HbmReq :=
  s.hbm.waiting ++ s.hbm.srHeld ++ s.ckptHeld ++ (s.coh.active ++ s.coh.queue).filterMap (·.req)

/-- A reply belongs to a store of core c. -/
def Reply.storeOf (r : Reply) (c : Nat) : Bool :=
  match r with
  | .stored k _ => k = c
  | _ => false

/-- An origin belongs to a store of core c. -/
def Origin.storeOf (o : Origin) (c : Nat) : Bool :=
  match o with
  | .store k _ => k = c
  | _ => false

/-- A held access is a store of core c. -/
def Held.storeOf (h : Held) (c : Nat) : Bool :=
  match h with
  | .core k (.store _ _ _) => k = c
  | _ => false

/-- Some earlier store of core c has not completed (R151, R274). -/
def State.storesOpen (s : State) (c : Nat) : Bool :=
  (s.hbmOpen.any fun r => r.reply.storeOf c) ||
    (s.hbm.merge.any fun e => e.arrivals.any fun a => a.2.2.storeOf c) ||
    (s.liveTags.any fun t => t.2.origin.storeOf c) ||
    (s.ecrok.stalled.any fun x => x.origin.storeOf c) ||
    (s.coh.reqs.any fun r => r.2.active && r.2.origin.storeOf c) ||
    s.flasks.any fun f => f.2.held.any fun h => h.storeOf c

/-- Every earlier load, store and unit operation of core c has completed (R151). -/
def State.coreQuiet (s : State) (c : Nat) : Bool :=
  !s.storesOpen c && (4096 ≤ c || (s.tile c).quiet)

/-- A store or atomic of the core that ended in a refusal faults at its release (R310, R328): answers the fault taken. -/
def State.lateFault (s : State) (c : Nat) : Option State :=
  match mapGet 0 s.ecrok.lateFaults c with
  | 0 => none
  | v + 1 =>
    let s := { s with ecrok := { s.ecrok with lateFaults := mapPut 0 s.ecrok.lateFaults c 0 } }
    some (s.coreFault c 7 (v / 4) (v % 4))

/-- The context that a core works for: a tile's bound context in user mode, a PD core's owner; none where no grant limits it. -/
def State.coreGrant (s : State) (c : Nat) : Option Nat :=
  if c < 4096 then if (s.core c).user then (s.core c).ctx else none
  else if c < 4160 then s.coreOwner (c - 4096) else none

/-- The core is held to a grant: a tile in user mode, or an application core of a context (R147). -/
def State.limited (s : State) (c : Nat) : Bool := (c < 4096 && (s.core c).user) || (s.coreGrant c).isSome

/-- A counter lies in a core's grant (R147). -/
def State.counterGrant (s : State) (c id : Nat) : Bool :=
  if !s.limited c then true
  else match s.coreGrant c with
    | none => false
    | some x => if c < 4096 then (s.ctx x).flasks.contains (counterTile id / 16) else (s.ctx x).counters.contains id

/-! ### Encodings (R170) -/

/-- Row codes: funct3 × 8 + funct7. -/
def syCode (w : Nat) : Nat := bits w 14 12 * 8 + bits w 31 25
/-- rd of an instruction word. -/
def wRd (w : Nat) : Nat := bits w 11 7
/-- rs2 field of an instruction word. -/
def wRs2 (w : Nat) : Nat := bits w 24 20

/-- Rows whose rd field is 0. -/
def syNoRd (code : Nat) : Bool := code = 0 || code = 4 || code = 9 || code = 24 || code = 25

/-- Rows whose rs2 field is 0. -/
def syNoRs2 (code : Nat) : Bool := code = 3 || code = 8 || code = 16 || code = 17 || code = 25

/-- The word is the row's, with its zero fields 0, on a core that implements its group. -/
def syOk (c code w : Nat) : Bool :=
  bits w 6 0 = 0x5B && bits w 31 25 < 8 && syCode w = code && (code < 8 || c < 4096) && (!syNoRd code || wRd w = 0) &&
    (!syNoRs2 code || wRs2 w = 0)

/-! ### Counters (R146–R154) -/

/-- The operation code of a counter row in `mtval` (R150). -/
def syFaultCode (code : Nat) : Nat := if code = 3 || code = 9 then 5 else 7

/-- An access fault of an Xzsy instruction (R590). -/
def State.syFault (s : State) (c code tval : Nat) : State := s.coreFault c (syFaultCode code) tval 1

/-- A counter fault (R150). -/
def State.counterFault (s : State) (c cause id op reason n : Nat) : State :=
  s.coreFault c cause (counterTval id op reason n) 3

/-- A wait takes an entry, or is held at its issuer where all 64 are in use (R152). -/
def State.takeEntry (s : State) (c id n rd : Nat) (deadline : Option Nat) : State :=
  if s.waitsOn (counterTile id) < 64 then
    let e : WaitEntry := { core := c, id := id, n := n, rd := rd, deadline := deadline, since := s.now }
    let s := { s with waits := s.waits ++ [e] }
    (s.block c (.wait id n rd deadline)).waitBegin c (id % 64) n
  else s.block c (.waitHeld id n rd deadline)

/-- A wait presented at its counter: satisfied at once, or behind the entries already taken (R148, R152). -/
def State.presentWait (s : State) (c id n rd : Nat) (deadline : Option Nat) : State :=
  let k := s.counter id
  if n ≤ k.value && !(s.waits.any fun e => e.id = id) then
    (s.setCounter id { k with value := k.value - n }).resume c rd k.value
  else s.takeEntry c id n rd deadline

/-- A counter operation reaches its counter (R148). -/
def State.counterOp (s : State) (c code rd id x2 : Nat) : State :=
  let k := s.counter id
  let n := x2 % 2 ^ 32
  let shown := if code = 3 then 0 else n
  if code = 4 then
    let cap := x2 / 2 ^ 32
    if cap < n then s.counterFault c trapSyncMisuse id 4 2 n else s.counterInit id n cap
  else if k.cap = 0 then s.counterFault c trapSyncMisuse id code 1 shown
  else match code with
    | 0 =>
      if k.cap < k.value + n then s.counterFault c trapOverflow id 0 0 n
      else
        let s := s.counterAdd id n
        if c < 4096 then s.event (coreUnit c).1 (coreUnit c).2 (some 4) 0x0100 n id else s
    | 1 =>
      if n ≤ k.value then (s.setCounter id { k with value := k.value - n }).setX c rd k.value
      else s.counterFault c trapUnderflow id 1 0 n
    | 2 =>
      if k.cap < n then s.counterFault c trapSyncMisuse id 2 3 n
      else
        let t := if c < 4096 then s.csr c 0x860 % 2 ^ 48 else 0
        s.presentWait c id n rd (if t = 0 then none else some (s.now + t))
    | _ => s.setX c rd k.value

/-- A counter row (R146, R147, R149, R151): checks, release, the wake of a sleeping flask, and the operation. None where it has to
wait for the core's earlier accesses. -/
def State.runCounter (s : State) (c code w x1 x2 : Nat) : Option State :=
  if 2 ^ 18 ≤ x1 || !s.counterGrant c x1 || (code = 4 && s.limited c && 56 ≤ x1 % 64) then some (s.syFault c code x1)
  else if code = 0 && !s.coreQuiet c then none
  else
    let late := if code = 0 then s.lateFault c else none
    match late with
    | some s => some s
    | none =>
      let f := counterTile x1 / 16
      let s := s.arrive f
      if s.serves f && !s.moving (counterTile x1) then some (s.counterOp c code (wRd w) x1 x2)
      else some ((s.hold f (.core c (.sync code w x1 x2))).block c .access)

/-! ### Barriers (R156–R158, R352) -/

/-- Why `sy.arrive` or `sy.bwait` on a slot raises SYNC_MISUSE; 0: it does not. -/
def State.slotMisuse (s : State) (t slot : Nat) (arrive : Bool) : Nat :=
  let f := flaskOf t
  let fabric := s.slotLevel f slot = 3 && !((s.flaskOwner f).elim false fun x => s.barrierConfigured x slot)
  if s.slotMembers f slot = 0 || fabric then 4
  else if !bitAt (s.slotMembers f slot) (t % 16) then 5
  else if arrive && bitAt (s.slotArrived f slot) (t % 16) then 6
  else 0

/-- A tile's arrival is counted; the last one releases the slot, or contributes to the fabric level. -/
def State.countArrival (s : State) (t slot : Nat) : State :=
  let f := flaskOf t
  let a := s.slotArrived f slot
  let s := { s with arrived := mapPut 0 s.arrived (f * 8 + slot) (putBits a (t % 16) (t % 16) 1) }
  let fs := s.slotFlasks f slot
  if !s.slotFull fs slot then s
  else if s.slotLevel f slot ≠ 3 then s.releaseSlot fs slot
  else match s.flaskOwner f with
    | some x => s.startBarrier x slot (s.slotGen f slot)
    | none => s

/-- `sy.arrive` and `sy.bwait`. -/
def State.runBarrier (s : State) (t code w x1 x2 : Nat) : Option State :=
  let f := flaskOf t
  if 8 ≤ x1 then some (s.syFault t code x1)
  else if code = 8 && !s.coreQuiet t then none
  else
    let late := if code = 8 then s.lateFault t else none
    match late with
    | some s => some s
    | none =>
      let bad := s.slotMisuse t x1 (code = 8)
      if bad ≠ 0 then some (s.coreFault t trapSyncMisuse (counterTval x1 code bad 0) 3)
      else
        let g := s.slotGen f x1
        if code = 8 then some ((s.setX t (wRd w) g).countArrival t x1)
        else if g ≠ x2 then some s
        else some ((s.block t (.bwait x1 x2 s.now)).waitBegin t x1 x2)

/-! ### Deques (R159–R164) -/

/-- `sydq.EN` of a tile. -/
def State.dqEn (s : State) (t : Nat) : Bool := bitAt (s.csr t 0x861) 0

/-- `TOP` of a tile's deque. -/
def State.dqTop (s : State) (t : Nat) : Nat := s.csrBits t 0x862 31 0

/-- `BOT` of a tile's deque. -/
def State.dqBot (s : State) (t : Nat) : Nat := s.csrBits t 0x862 63 32

/-- Descriptors in a tile's deque; none while it is disabled (R159, R160). -/
def State.dqCount (s : State) (t : Nat) : Nat := if s.dqEn t then (s.dqBot t + 2 ^ 32 - s.dqTop t) % 2 ^ 32 else 0

/-- The tile's `IDLE_MAP` bit follows its deque. -/
def State.setIdle (s : State) (t : Nat) : State :=
  let p := pgFlask (flaskOf t)
  s.setF fdFlaskIdleMap p 0 (putBits (s.getF fdFlaskIdleMap p) (t % 16) (t % 16) (decide (s.dqCount t = 0)).toNat)

/-- A deque's indices written. -/
def State.setDq (s : State) (t top bot : Nat) : State :=
  (s.setCsr t 0x862 (top % 2 ^ 32 + bot % 2 ^ 32 * 2 ^ 32)).setIdle t

/-- Where index `i` of a tile's deque lies. -/
def dqSlot (t i : Nat) : Nat := storeAt t + 0x7C000 + i % 256 * 64

/-- 64 B copied between tile stores, word by word with poison tags, seen by the watch ranges. -/
def State.copySlot (s : State) (src dst : Nat) : State :=
  let words := (List.range 8).map fun i => (i, s.bytes (src + 8 * i) 8, s.wordsPoisoned (src + 8 * i) 8)
  (s.forEach words fun (i, bs, p) s => s.storeBytes (dst + 8 * i) bs p).watchWrite dst 64

/-- A tile store offset named by rs1 of a deque row: misaligned, in the deque area or beyond, or usable. -/
def dqOffset (x1 : Nat) : Option Nat :=
  if x1 % 64 ≠ 0 then some 6 else if 0x7C000 ≤ x1 then some 7 else none

/-- `sy.push` and `sy.pop`. -/
def State.runDeque (s : State) (t code w x1 : Nat) : Option State :=
  match dqOffset x1 with
  | some cause => some (s.coreFault t cause x1 (if cause = 6 then 3 else 1))
  | none =>
    let r : Range := ((x1 : Int), (x1 + 64 : Nat))
    if s.unitsBlock t [r] (if code = 17 then [r] else []) then none
    else
      let rd := wRd w
      let top := s.dqTop t
      let bot := s.dqBot t
      if code = 16 then
        if s.dqEn t && s.dqCount t < 256 then
          some (((s.copySlot (storeAt t + x1) (dqSlot t bot)).setDq t top (bot + 1)).setX t rd 1)
        else some (s.setX t rd 0)
      else if s.dqCount t ≠ 0 then
        let bot := (bot + 2 ^ 32 - 1) % 2 ^ 32
        some (((s.copySlot (dqSlot t bot) (storeAt t + x1)).setDq t top bot).setX t rd 1)
      else some (s.setX t rd 0)

/-- A tile an automatic steal may take from: bound to the thief's context, its flask AWAKE, its deque not empty (R163). -/
def State.stealable (s : State) (thief v : Nat) : Bool :=
  (s.core v).ctx.isSome && (s.core v).ctx = (s.core thief).ctx && s.serves (flaskOf v) && s.dqCount v ≠ 0

/-- The tiles an automatic steal looks at, in order, within its scope (R163). -/
def stealOrder (t scope : Nat) : List Nat :=
  let f := t / 16
  let d := f / 64
  let own := (List.range 15).map fun i => f * 16 + (t + 1 + i) % 16
  let tiles := fun (g : Nat) => (List.range 16).map fun i => g * 16 + i
  let die := (List.range 63).flatMap fun i => tiles (d * 64 + (f + 1 + i) % 64)
  let rest := (List.range 3).flatMap fun j =>
    (List.range 64).flatMap fun i => tiles ((d + 1 + j) % 4 * 64 + (f + i) % 64)
  own ++ (if 1 ≤ scope then die else []) ++ (if 2 ≤ scope then rest else [])

/-- A steal that returns −1. -/
def State.stealMiss (s : State) (t rd : Nat) : State :=
  let n := s.csrBits t 0x864 63 32
  let s := s.setCsr t 0x864 (putBits (s.csr t 0x864) 63 32 (min (n + 1) (2 ^ 32 - 1)))
  (s.setX t rd (2 ^ 64 - 1)).event (coreUnit t).1 (coreUnit t).2 (some 4) 0x0101 0xFFFF 0

/-- A steal served by victim v's deque unit. -/
def State.stealFrom (s : State) (t rd x1 v : Nat) : State :=
  if s.dqCount v = 0 then s.stealMiss t rd
  else
    let top := s.dqTop v
    let s := (s.copySlot (dqSlot v top) (storeAt t + x1)).setDq v (top + 1) (s.dqBot v)
    let n := s.csrBits t 0x864 31 0
    let s := s.setCsr t 0x864 (putBits (s.csr t 0x864) 31 0 (min (n + 1) (2 ^ 32 - 1)))
    (s.setX t rd v).event (coreUnit t).1 (coreUnit t).2 (some 4) 0x0101 v top

/-- `sy.steal`. -/
def State.runSteal (s : State) (t w x1 x2 : Nat) : Option State :=
  match dqOffset x1 with
  | some cause => some (s.coreFault t cause x1 (if cause = 6 then 3 else 1))
  | none =>
    let auto := x2 = 2 ^ 64 - 1
    if !auto && 4096 ≤ x2 then some (s.syFault t 18 x2)
    else if s.unitsBlock t [] [((x1 : Int), (x1 + 64 : Nat))] then none
    else
      let rd := wRd w
      if !bitAt (s.csr t 0x861) 1 then some (s.stealMiss t rd)
      else if auto then
        match (stealOrder t (s.csrBits t 0x863 1 0)).find? fun v => s.stealable t v with
        | some v => some (s.stealFrom t rd x1 v)
        | none => some (s.stealMiss t rd)
      else if (s.core x2).ctx ≠ (s.core t).ctx || (s.core t).ctx.isNone || !s.dqEn x2 then some (s.stealMiss t rd)
      else
        let f := flaskOf x2
        let s := s.arrive f
        if s.serves f && !s.moving x2 then some (s.stealFrom t rd x1 x2)
        else some ((s.hold f (.core t (.sync 18 w x1 x2))).block t .access)

/-! ### Watch ranges (R166–R168) -/

/-- The span of a watch range lies in the tile's grant: HBM its context may reach, or stores of its allotment (R168). -/
def State.watchGrant (s : State) (t : TileId) (a len : Nat) : Bool :=
  (unitsOf 256 a len).all fun g =>
    match s.place none (g * 256) with
    | .hbm off => s.mayReach (.tile t) off
    | .store v _ => !(s.core t.val).user || ((s.core t.val).ctx.elim false fun x => (s.ctx x).flasks.contains (v / 16))
    | _ => false

/-- `sy.warm`. -/
def State.runWarm (s : State) (t : TileId) (w x1 x2 : Nat) : State :=
  let p := pgFlask (flaskOf t.val)
  let r := bits x2 36 32
  let len := (bits x2 7 0 + 1) * 256
  let targets := (List.range 16).filter fun i => bitAt (bits x2 23 8) i
  let ids := targets.map fun i => (flaskOf t.val * 16 + i) * 64 + bits x2 29 24
  if bitAt x2 31 || bits x2 63 37 ≠ 0 then s.coreFault t.val 2 w 3
  else if x1 % 256 ≠ 0 then s.coreFault t.val 6 x1 3
  else if !bitAt (s.getF fdFlaskWatchAllot p) r || !s.watchGrant t x1 len || !(ids.all fun i => s.counterGrant t.val i) then
    s.syFault t.val 24 x1
  else ((s.setF fdFlaskWatchBase p r x1).setF fdFlaskWatchCfg p r (bits x2 30 0)).setF fdFlaskWatchArmed p r 1

/-- `sy.wdis`. -/
def State.runWdis (s : State) (t x1 : Nat) : State :=
  let p := pgFlask (flaskOf t)
  if 32 ≤ x1 || !bitAt (s.getF fdFlaskWatchAllot p) x1 then s.syFault t 25 x1
  else s.setF fdFlaskWatchArmed p x1 0

/-! ### The rows -/

/-- An Xzsy instruction issues on core c; none where it has to wait for the core's earlier operations. -/
def State.runSync (s : State) (c code w x1 x2 : Nat) : Option State :=
  if !syOk c code w then some (s.coreFault c 2 w 3)
  else if code < 8 then s.runCounter c code w x1 x2
  else if code < 16 then s.runBarrier c code w x1 x2
  else if code = 16 || code = 17 then s.runDeque c code w x1
  else if code = 18 then s.runSteal c w x1 x2
  else if h : c < 4096 then
    if code = 24 then some (s.runWarm ⟨c, h⟩ w x1 x2) else some (s.runWdis c x1)
  else some s

/-- A wait held at its issuer is presented again (R152). -/
def State.retryWait (s : State) (c : Nat) : State :=
  match (s.core c).blocked with
  | .waitHeld id n rd deadline => if s.waitsOn (counterTile id) < 64 then s.presentWait c id n rd deadline else s
  | _ => s

/-- A wait's timeout expires (R153): rd = −1, nothing consumed, the entry released. -/
def State.timeoutWait (s : State) (c : Nat) : State :=
  match (s.core c).blocked with
  | .wait _ _ rd (some _) => (s.withdraw c).resume c rd (2 ^ 64 - 1)
  | .waitHeld _ _ rd (some _) => s.resume c rd (2 ^ 64 - 1)
  | _ => s

end Sys2Proof.Machine
end

