-- ==== Sys2Proof/Machine/CohBase.lean ====
section
/-! DEFINITION. Coherence within the tray (R186, R329–R332): the home agent's transactions and the lines that this node's PD
caches hold of its neighbours. -/
namespace Sys2Proof.Machine

/-! ### Messages (R331) -/

/-- GET_S. -/
def opGETS : Nat := 0
/-- GET_M. -/
def opGETM : Nat := 1
/-- UPGRADE. -/
def opUPGRADE : Nat := 2
/-- DATA_S. -/
def opDATAS : Nat := 8
/-- DATA_E. -/
def opDATAE : Nat := 9
/-- ACK_E. -/
def opACKE : Nat := 0xA
/-- ACK. -/
def opACK : Nat := 0xB
/-- INV_ACK. -/
def opINVACK : Nat := 0xC
/-- RECALL_DATA. -/
def opRECALLDATA : Nat := 0xD
/-- RETRY. -/
def opRETRY : Nat := 0xE

/-- The transaction tag of a message. -/
def cohTag (pk : Packet) : Nat := pk.tagSlot.toNat + pk.tagGen.toNat * 65536

/-- The line of a message. -/
def cohLine (pk : Packet) : Nat := pk.offset.toNat / 128

/-- LEN of a message type. -/
def cohLen (op : Nat) : Nat := if op = 3 || op = opDATAS || op = opDATAE || op = opRECALLDATA then 128 else 0

/-- A message with OP 0xF, the wrong LEN, or a line that is not aligned (R331). -/
def cohBad (pk : Packet) : Bool :=
  pk.malformed || pk.op.toNat = 0xF || pk.len.toNat ≠ cohLen pk.op.toNat || pk.payload.length ≠ cohLen pk.op.toNat ||
    pk.offset.toNat % 128 ≠ 0

/-- The answer to a message, echoing its tag (R331). -/
def State.cohAnswer (s : State) (pk : Packet) (op : Nat) (data : List Byte) (poisoned : Bool) : Packet :=
  s.cohPacket op (cohLine pk) (nodeW pk.src.toNat) (cohTag pk) pk.job.toNat pk.gen.toNat data poisoned

/-- A handled message among the last 4,096 of its source (R332). -/
def State.cohSeen (s : State) (pk : Packet) : Option (Nat × Nat × Nat × Option Packet) :=
  s.coh.handled.find? fun h => h.1 = pk.src.toNat && h.2.1 = cohTag pk && h.2.2.1 = pk.op.toNat

/-- A message noted as handled. -/
def State.cohNote (s : State) (pk : Packet) (answer : Option Packet) : State :=
  let mine := s.coh.handled.filter fun h => h.1 = pk.src.toNat
  let rest := s.coh.handled.filter fun h => h.1 ≠ pk.src.toNat
  let e := (pk.src.toNat, cohTag pk, pk.op.toNat, answer)
  { s with coh := { s.coh with handled := (e :: mine).take 4096 ++ rest } }

/-- A message answered; the answer is kept for a copy of the message (R332). -/
def State.cohReply (s : State) (pk : Packet) (op : Nat) (data : List Byte) (poisoned : Bool) : State :=
  let ans := s.cohAnswer pk op data poisoned
  let kept := s.coh.handled.map fun h =>
    if h.1 = pk.src.toNat && h.2.1 = cohTag pk && h.2.2.1 = pk.op.toNat then (h.1, h.2.1, h.2.2.1, some ans) else h
  ({ s with coh := { s.coh with handled := kept } }).send ans

/-! ### The home agent -/

/-- A line of local HBM for a grant: its bytes behind every earlier write, and its poison. -/
def State.cohData (s : State) (l : Nat) : State × List Byte × Bool := s.engineRead (l * 128) 128

/-- Data written back by an owner (R329): a write to local memory. -/
def State.cohWriteBack (s : State) (l : Nat) (data : List Byte) (poisoned : Bool) : State :=
  ((s.drainLine l).hbmBytes (l * 128) data poisoned).watchWrite (l * 128) 128

/-- A holder leaves a line's directory entry. -/
def State.dirDrop (s : State) (l w : Nat) : State :=
  let d := s.dirLine l
  s.setDir l { d with owner := if d.owner = some w then none else d.owner, sharers := putBits d.sharers w w 0 }

/-- The owner of a line becomes a sharer. -/
def State.dirShare (s : State) (l w : Nat) : State :=
  let d := s.dirLine l
  s.setDir l { d with owner := if d.owner = some w then none else d.owner, sharers := putBits d.sharers w w 1 }

/-- A transaction whose answers are in is granted or served (R331, R332). -/
def State.cohGrant (s : State) (tx : CohTx) : State :=
  match tx.pk, tx.req with
  | some pk, _ =>
    let l := tx.line
    let w := nodeW pk.src.toNat
    let d := { s.dirLine l with job := pk.job.toNat, gen := pk.gen.toNat }
    let others := d.owner.isSome || putBits d.sharers w w 0 ≠ 0
    if tx.kind = 2 && bitAt d.sharers w then
      ((s.setDir l { d with owner := some w, sharers := 0 }).breakReservations (l * 128) 128).cohReply pk opACKE [] false
    else
      let (s, data, p) := s.cohData l
      if tx.kind = 0 && others then
        (s.setDir l { d with sharers := putBits d.sharers w w 1 }).cohReply pk opDATAS data p
      else ((s.setDir l { d with owner := some w, sharers := 0 }).breakReservations (l * 128) 128).cohReply pk opDATAE data p
  | none, some rq => s.order rq
  | none, none => s

/-- A transaction starts: its messages go out, or it is granted at once. -/
def State.cohBegin (s : State) (tx : CohTx) : State :=
  let (s, tx) := s.cohAsk tx
  if tx.waiting = 0 then s.cohGrant tx else { s with coh := { s.coh with active := s.coh.active ++ [tx] } }

/-- The next queued transaction of a line starts. -/
def State.cohNext (s : State) (l : Nat) : State :=
  if s.coh.active.any fun t => t.line = l then s
  else match s.coh.queue.find? fun t => t.line = l with
    | some tx => ({ s with coh := { s.coh with queue := s.coh.queue.erase tx } }).cohBegin tx
    | none => s

/-- Queued transactions of a line start while each is granted at once: at most `fuel` of them. -/
def State.cohDrain (s : State) (l : Nat) : Nat → State
  | 0 => s
  | fuel + 1 =>
    if s.coh.queue.any fun t => t.line = l then (s.cohNext l).cohDrain l fuel else s

/-- An answer that an active transaction waits for is in. -/
def State.cohArrived (s : State) (tx : CohTx) (w : Nat) : State :=
  let tx' := { tx with waiting := putBits tx.waiting w w 0 }
  if tx'.waiting = 0 then
    let s := { s with coh := { s.coh with active := s.coh.active.erase tx } }
    (s.cohGrant tx').cohDrain tx.line 512
  else { s with coh := { s.coh with active := s.coh.active.map fun t => if t = tx then tx' else t } }

/-- A home agent's queue is full: 256 requests for the stack of a line (R332). -/
def State.cohQueueFull (s : State) (l : Nat) : Bool :=
  256 ≤ (s.coh.queue.filter fun t => s.siteOf (t.line * 128) = s.siteOf (l * 128)).length

/-- GET_S, GET_M or UPGRADE at the home agent (R332). -/
def State.cohRequest (s : State) (pk : Packet) : State :=
  let l := cohLine pk
  let tx : CohTx := { line := l, kind := pk.op.toNat, pk := some pk }
  if !(l * 128 < s.getF fdMemmapTop pgMemmap && s.mayReach (fabricSource pk) (l * 128)) then s
  else if s.coh.active.any fun t => t.line = l then
    if s.cohQueueFull l then
      let forgotten := s.coh.handled.filter fun h => !(h.1 = pk.src.toNat && h.2.1 = cohTag pk && h.2.2.1 = pk.op.toNat)
      ({ s with coh := { s.coh with handled := forgotten } }).send (s.cohAnswer pk opRETRY [] false)
    else { s with coh := { s.coh with queue := s.coh.queue ++ [tx] } }
  else s.cohBegin tx

/-- PUT_M or PUT_C at the home agent (R332). -/
def State.cohPut (s : State) (pk : Packet) : State :=
  let l := cohLine pk
  let w := nodeW pk.src.toNat
  let s := if pk.op.toNat = 3 && (s.dirLine l).owner = some w then
      s.cohWriteBack l pk.payload (bitAt pk.mask.toNat 0)
    else s
  (s.dirDrop l w).cohReply pk opACK [] false

/-- INV_ACK, RECALL_DATA, or the ACK of a clean DOWNGRADE at the home agent (R331). -/
def State.cohHomeAck (s : State) (pk : Packet) : State :=
  let l := cohLine pk
  let w := nodeW pk.src.toNat
  match s.coh.active.find? fun t => t.line = l && t.tag = cohTag pk && bitAt t.waiting w with
  | none => s
  | some tx =>
    let s := if pk.op.toNat = opRECALLDATA then s.cohWriteBack l pk.payload (bitAt pk.mask.toNat 0) else s
    let keeps := (tx.kind = 0 || tx.kind = 4) && pk.op.toNat ≠ opINVACK
    let s := if keeps then s.dirShare l w else s.dirDrop l w
    s.cohArrived tx w

/-! ### Lines of neighbours -/

/-- Key of a neighbour's line. -/
def cacheKey (w l : Nat) : Nat := w * 2 ^ 33 + l

/-- A neighbour's line in this node's caches. -/
def State.cached (s : State) (w l : Nat) : CacheLine := mapGet {} s.coh.cache (cacheKey w l)

/-- A neighbour's line replaced. -/
def State.setCached (s : State) (w l : Nat) (x : CacheLine) : State :=
  { s with coh := { s.coh with cache := mapPut {} s.coh.cache (cacheKey w l) x } }

/-- The class 0x8 address of byte `off` of the tray neighbour with W = `w`. -/
def State.trayAddr (s : State) (w off : Nat) : Nat := 8 * 2 ^ 60 + (s.nodeId / 4 * 4 + w) * 2 ^ 40 + off

/-- A neighbour's line leaves the caches, and reservations on it are lost. -/
def State.dropCached (s : State) (w l : Nat) : State :=
  (s.setCached w l {}).breakReservations (s.trayAddr w (l * 128)) 128

/-- INV, RECALL or DOWNGRADE of a line (R331). -/
def State.cohSnoop (s : State) (pk : Packet) : State :=
  let l := cohLine pk
  let w := nodeW pk.src.toNat
  let x := s.cached w l
  match pk.op.toNat with
  | 5 => (s.dropCached w l).cohReply pk opINVACK [] false
  | 6 =>
    if x.state = 3 then (s.dropCached w l).cohReply pk opRECALLDATA x.data x.poisoned
    else (s.dropCached w l).cohReply pk opINVACK [] false
  | _ =>
    if x.state = 3 then (s.setCached w l { x with state := 1 }).cohReply pk opRECALLDATA x.data x.poisoned
    else if x.state = 0 then s.cohReply pk opINVACK [] false
    else (s.setCached w l { x with state := 1 }).cohReply pk opACK [] false

/-- The request of this node that an answer belongs to: its tag slot. -/
def State.cohMine (s : State) (pk : Packet) : Option (Nat × CohReq) :=
  s.coh.reqs.find? fun r => r.1 = pk.tagSlot.toNat && r.2.active && r.2.pk.tagGen = pk.tagGen && r.2.pk.dst = pk.src &&
    r.2.pk.offset = pk.offset

/-- A grant, or an ACK or RETRY, at the requester (R331, R332). -/
def State.cohResult (s : State) (pk : Packet) : State :=
  match s.cohMine pk with
  | none => s
  | some (slot, r) =>
    let l := cohLine pk
    let w := nodeW pk.src.toNat
    let done := { s with coh := { s.coh with reqs := mapPut {} s.coh.reqs slot {} } }
    let fresh : CacheLine := { state := 2, data := pk.payload, poisoned := bitAt pk.mask.toNat 0, ctx := r.ctx }
    let op := pk.op.toNat
    if op = opDATAS then done.setCached w l { fresh with state := 1 }
    else if op = opDATAE then done.setCached w l fresh
    else if op = opACKE then
      let x := s.cached w l
      if x.state = 0 then done else done.setCached w l { x with state := 2 }
    else if op = opRETRY then
      let r := { r with wait := if r.wait = 0 then 1 else min 64 (2 * r.wait) }
      { s with coh := { s.coh with reqs := mapPut {} s.coh.reqs slot r } }
    else done

/-- A request of this node for a neighbour's line is in flight. -/
def State.cohAsked (s : State) (w l : Nat) : Bool :=
  s.coh.reqs.any fun r => r.2.active && nodeW r.2.pk.dst.toNat = w && cohLine r.2.pk = l

/-- A core of context c asks the home agent of a neighbour's line for a copy: GET_S, GET_M or UPGRADE (R331). -/
def State.cohFetch (s : State) (c w l : Nat) (excl : Bool) (o : Origin) : State :=
  if s.cohAsked w l then s
  else
    let op := if !excl then opGETS else if (s.cached w l).state = 1 then opUPGRADE else opGETM
    let tag := s.coh.nextTag
    let pk := s.cohPacket op l w tag (s.ctx c).job (s.ctx c).gen [] false
    let r : CohReq := { active := true, pk := pk, ctx := c, origin := o }
    ({ s with coh := { s.coh with
        nextTag := (tag + 1) % 2 ^ 18
        reqs := mapPut {} s.coh.reqs (tag % 65536) r } }).send pk

/-! ### Receiving -/

/-- A coherence message received (R318, R331, R332): `op` is the type that the command names. -/
def State.recvCoh (s : State) (op : Nat) (pk : Packet) : State :=
  if !s.nodeIdValid then s
  else if cohBad pk || pk.op.toNat ≠ op || !sameTray pk.src.toNat s.nodeId || pk.src.toNat = s.nodeId then s.dropMalformed
  else match s.cohSeen pk with
    | some (_, _, _, some ans) => if op ≤ 7 then s.send ans else s
    | some (_, _, _, none) => s
    | none =>
      if op ≤ 7 then
        match s.tagCheck pk with
        | .stale => s.dropStale
        | .foreign => s.dropForeign
        | .served =>
          let s := s.cohNote pk none
          if op ≤ 2 then s.cohRequest pk else if op ≤ 4 then s.cohPut pk else s.cohSnoop pk
      else
        let s := if op = opRETRY then s else s.cohNote pk none
        if op = opINVACK || op = opRECALLDATA then s.cohHomeAck pk
        else if op = opACK && (s.cohMine pk).isNone then s.cohHomeAck pk
        else s.cohResult pk

/-- The wait after RETRY ends: the same request goes again (R332). -/
def State.cohResend (s : State) (slot : Nat) : State :=
  let r := mapGet {} s.coh.reqs slot
  if r.active && r.wait ≠ 0 then s.send r.pk else s

/-- The core whose operation a request serves. -/
def originCore : Origin → Option Nat
  | .load c _ _ _ _ => some c
  | .store c _ => some c
  | .amo c _ _ _ _ => some c
  | _ => none

/-- The operation that waited for a line of a lost neighbour leaves its core. -/
def State.dropWaiting (s : State) (o : Origin) : State :=
  match originCore o with
  | some c =>
    let k := s.core c
    s.setCore c { k with stalled := k.stalled.tail, blocked := .none }
  | none => s

/-- Open contexts whose windows cover a node: the jobs with contexts on both (R330). -/
def State.ctxsWith (s : State) (node : Nat) : List Nat :=
  allCtxs.filter fun c => (s.ctx c).isOpen && s.windowList.any fun e =>
    windowCovers e c 8 node (bits e 39 0) 0

/-- A coherence message gets no answer within its timeout (R330): the request completes as of a dead target, and JOB_FATAL goes out
for every job with contexts on both nodes. -/
def State.cohTimeout (s : State) (slot : Nat) : State :=
  let r := mapGet {} s.coh.reqs slot
  let fatal := fun (s : State) (c w : Nat) =>
    let node := s.nodeId / 4 * 4 + w
    let s := { s with coh := { s.coh with lost := putBits s.coh.lost w w 1 } }
    let others := (s.ctxsWith node).filter fun x => x ≠ c
    s.forEach others fun x s => s.jobFatal x 0x0100 0 node
  if r.active then
    let w := nodeW r.pk.dst.toNat
    let s := { s with coh := { s.coh with reqs := mapPut {} s.coh.reqs slot {} } }
    fatal ((s.dropWaiting r.origin).complete r.ctx r.pk.dst.toNat r.origin stDEAD []) r.ctx w
  else match s.coh.active.find? fun t => t.tag % 65536 = slot with
    | some tx =>
      let ws := (List.range 4).filter fun w => bitAt tx.waiting w
      s.forEach ws fun w s => fatal (s.addF fdEcrokCntDead pgEcrok 0 1) 16 w
    | none => s

/-- Teardown of a job (R330, R512): its sharers leave the directory, lines that a lost node owned are poisoned, its lines and requests
leave this node's caches, and transactions that waited for it go on. -/
def State.cohTeardown (s : State) (job gen : Nat) (ctxs : List Nat) : State :=
  let mine := s.coh.dir.filter fun d => d.2.job = job && d.2.gen = gen
  let lost := s.coh.lost
  let s := s.forEach mine fun (l, d) s =>
    let s := if d.owner.any fun w => bitAt lost w then { s with poisonLine := mapPut false s.poisonLine l true } else s
    s.setDir l {}
  let s := { s with coh := { s.coh with
    cache := s.coh.cache.filter fun x => !ctxs.contains x.2.ctx
    reqs := s.coh.reqs.filter fun x => !ctxs.contains x.2.ctx } }
  let free := s.coh.active.filter fun t => mine.any fun d => d.1 = t.line
  let s := { s with coh := { s.coh with active := s.coh.active.filter fun t => !(mine.any fun d => d.1 = t.line) } }
  s.forEach free fun t s => (s.cohBegin { t with waiting := 0 }).cohDrain t.line 512

end Sys2Proof.Machine
end

