-- ==== Sys2Proof/Machine/DikeBase.lean ====
section
/-! DEFINITION. The dike set as records (R490, R491, R495): what each group holds, its digest, and the digest of the set. -/
namespace Sys2Proof.Machine

/-- The 32 bytes of an SM3 digest. -/
def digestBytes (d : Nat) : List Byte := (leBytes 32 d).reverse

/-- The number of 32 digest bytes. -/
def digestNat (bs : List Byte) : Nat := leNat bs.reverse

/-- Content bytes of an entry of a record kind (R495). -/
def entryLen (kind : Nat) : Nat := [12, 32, 16, 128, 16, 68, 4, 8].getD kind 0

/-- The group of a record kind (R495). -/
def entryGroup (kind : Nat) : Nat := if kind = 0 then 0 else if kind ≤ 3 then 1 else kind - 2

/-- An entry as the records carry it: index, then content. -/
def DikeEntry.bytes (e : DikeEntry) : List Byte := leBytes 4 e.index ++ leBytes (entryLen e.kind) e.content

/-- The content of a PARTITION entry: R495 names its fields and not their places (log entry 14). -/
def partitionContent (op warden : Nat) (flokan : Bool) (job gen tail : Nat) : Nat :=
  op + warden * 2 ^ 8 + flokan.toNat * 2 ^ 16 + (job + gen * 2 ^ 20) * 2 ^ 32 + tail * 2 ^ 64

/-- The entries of a group in index order, kind by kind (R490). -/
def State.groupEntries (s : State) (g : Nat) : List DikeEntry :=
  match g with
  | 0 => (s.pairs.filter fun x => x.2.state = 2).map fun (i, p) =>
      { kind := 0, index := i, content := partitionContent 0 p.warden p.flokan p.job p.gen p.nmemb }
  | 1 => (s.ecrok.windows.map fun (i, w) => { kind := 1, index := i, content := w }) ++
      (s.ecrok.routes.map fun (i, r) => { kind := 2, index := i, content := r - 1 }) ++
      s.coll.groups.map fun (i, e) => { kind := 3, index := i, content := e }
  | 2 => ((List.range 15).filter fun p => s.getF fdMemmapPolderSize pgMemmap p ≠ 0).map fun p =>
      { kind := 4, index := p,
        content := s.getF fdMemmapPolderBase pgMemmap p + s.getF fdMemmapPolderSize pgMemmap p * 2 ^ 16 +
          s.getF fdMemmapPolderJob pgMemmap p * 2 ^ 32 + s.getF fdMemmapPolderFloorR pgMemmap p * 2 ^ 64 +
          s.getF fdMemmapPolderFloorW pgMemmap p * 2 ^ 80 }
  | 3 => s.dike.wardens.map fun (i, w) => { kind := 5, index := i, content := w.role + leNat w.key * 2 ^ 32 }
  | 4 => [{ kind := 6, index := 0, content := s.dike.controlUnbound.toNat + 2 * s.dike.tenantEnable.toNat }]
  | _ => [{ kind := 7, index := 0, content := s.getF fdDikeFwSvnMin pgDike + s.getF fdDikeRootRevoked pgDike * 2 ^ 32 }]

/-- A group's digest (R491). -/
def State.groupDigest (s : State) (g : Nat) : Nat :=
  Config.sm3 (leBytes 4 (s.getF fdDikeGroupVer pgDike g) ++ (s.groupEntries g).flatMap DikeEntry.bytes)

/-- The digest of the dike set (R491). -/
def State.dikeDigest (s : State) : List Byte :=
  digestBytes (Config.sm3 ((List.range 6).flatMap fun g => digestBytes (s.groupDigest g)))

end Sys2Proof.Machine
end

