-- ==== Sys2Proof/Machine/RegRead.lean ====
section
/-! DEFINITION. What a load from a block page returns (R545–R548): stored fields, fields that show other state, and RC fields. -/
namespace Sys2Proof.Machine

/-! ### Fields that show other state -/

/-- Eight bytes of a value at word `i`. -/
def word64 (v i : Nat) : Nat := v / 2 ^ (64 * i) % 2 ^ 64

/-- An event ring entry as 128 bits (R531). -/
def evBits (e : EvEntry) : Nat := e.time % 2 ^ 64 + e.code % 2 ^ 16 * 2 ^ 64 + e.subject % 2 ^ 16 * 2 ^ 80 + e.value % 2 ^ 32 * 2 ^ 96

/-- The selected event ring of a page (R533). -/
def State.shownRing (s : State) (page : Nat) : EvRing := s.ring page (s.getF fdEvrEvrUnit page)

/-- A value of fields packed by width, the first lowest. -/
def packBits : List (Nat × Nat) → Nat
  | [] => 0
  | (w, v) :: l => v % 2 ^ w + 2 ^ w * packBits l

/-- A write-protect entry shown through `WP.INDEX` (R265). -/
def State.shownWp (s : State) : WpEntry := mapGet {} s.hbm.wp (s.getF fdMemmapWpIndex pgMemmap)

/-- A class S field holds a value not yet in effect on a page. -/
def State.shadowPending (s : State) (page : Nat) : Bool := s.shadow.any fun x => x.1 / 64 / 4096 = page

/-- What `STATUS.BLOCKED` shows (R507, R508): the conditions unmet: identity, time, HBM, self-test, Ethernet. -/
def State.blockedBits (s : State) : Nat :=
  let st := s.getF fdFtimeState pgFtime
  let eth := (List.range 2).any fun e => s.getF fdEthLinkL0 (pgEth e) = 2 || s.getF fdEthLinkL1 (pgEth e) = 2
  (decide (s.getF fdEcrokNodeIdValid pgEcrok ≠ 1)).toNat + 2 * (decide (st ≠ 2) && decide (st ≠ 5)).toNat + 4 * (!s.boot.trained).toNat +
    8 * (!s.boot.selfTested).toNat + 16 * (!eth).toNat

/-- `STATUS.BLOCKED`: from the time firmware runs until READY. -/
def State.blocked (s : State) : Nat :=
  if s.boot.firmware && s.getF fdNodectlStatusReady pgNodectl = 0 then s.blockedBits else 0

/-- The block is busy in the sense that its map gives for class X; where the map gives several, any of them (R548). -/
def State.blockBusy (s : State) (page : Nat) : Bool :=
  match blockCode page with
  | 0x01 => (s.flask page).imem.isSome
  | 0x08 => (List.range 64).any fun k => (s.core (4096 + k)).running
  | 0x0D => (List.range 16).any fun q => s.getF fdLsaQEn pgLsa q = 1
  | 0x18 => allCtxs.any s.ctxBusy
  | 0x1B => allCtxs.any s.ctxBusy
  | 0x1D => s.getF fdFtimeState pgFtime ≠ 0 || (List.range 32).any fun k => s.getF fdFtimeRelArm pgFtime k = 1
  | 0x1F => let st := s.getF fdPortState page; st = 2 || st = 5 || st = 6
  | 0x28 => allCtxs.any s.ctxBusy
  | 0x29 => s.getF fdObsSnapArm pgObs = 1 || s.getF fdObsSnapHeld pgObs = 1 || allCtxs.any s.ctxBusy
  | _ => false

/-- A command of the block runs (R550, R418, R348, R267): a kernel or IMEM load of a flask, a batch of the array, a step of a context
with application cores, a checkpoint or restore, a collective. -/
def State.blockRunning (s : State) (page : Nat) : Bool :=
  match blockCode page with
  | 0x01 => (s.flask page).imem.isSome || (upFrom (16 * page) 16).any fun t => (s.core t).running || (s.core t).heldStart
  | 0x08 => allCtxs.any fun c => (s.ctx c).isOpen && (s.ctx c).cores ≠ 0 && s.ctxBusy c
  | 0x0D => !s.lsa.batches.isEmpty
  | 0x1B => !s.coll.runs.isEmpty
  | 0x2A => s.ckpts.any fun x => x.2.active || x.2.restore.isSome
  | _ => false

/-- A TILE or EXCHANGE node waits to start on a flask: ready, not started (R550). -/
def State.flaskWaits (s : State) (f : Nat) : Bool :=
  allCtxs.any fun c => (s.ctx c).run.active && (List.range ((s.graph c).elim 0 (·.nodes.length))).any fun n =>
    (s.gnode c n).onTiles && (s.nodeFlasks c n).contains f && s.nodeReady c n

/-- A command waits at the block: a node of a flask, batches untaken, requests at a stack controller. -/
def State.blockWaiting (s : State) (page : Nat) : Bool :=
  match blockCode page with
  | 0x01 => s.flaskWaits page
  | 0x0D => (List.range 16).any fun q =>
      s.getF fdLsaQEn pgLsa q = 1 && mapGet 0 s.lsa.cidx q < s.loadNat (s.getF fdLsaQPidx pgLsa q) 8
  | 0x04 => s.hbm.waiting.any fun r => s.siteOf r.off = blockInstance page
  | _ => false

/-- A block, flask or node reset is in progress (R509, R510). -/
def State.blockResetting (s : State) (page : Nat) : Bool :=
  s.getF fdComCtrlReset page = 1 ||
    (s.getF fdNodectlStatusStage pgNodectl < 2 && s.getF fdNodectlResetCount pgNodectl ≠ 0)

/-- `STATUS.IDLE` (R548). -/
def State.blockIdle (s : State) (page : Nat) : Bool :=
  !s.blockRunning page && !s.blockWaiting page && !s.blockBusy page && !s.blockResetting page

/-- Highest class in a block's queue or handler (R439). -/
def State.maxClass (s : State) (page : Nat) : Nat :=
  let rs := s.err.queued ++ s.err.running.toList ++ s.err.stopped
  ((rs.filter fun r => r.page = page).map (·.cls)).foldl max 0

/-- Bits of `ERR_SEVERITY` of the listed sources (R556). -/
def severityMask (page : Nat) : Nat := (blockSources page).foldl (fun a s => a + 3 * 2 ^ (2 * s)) 0

/-- The value of a common field that shows other state (R548, R533). -/
def State.commonView (s : State) (page : Nat) (d : FieldDesc) (i : Nat) : Option Nat :=
  let code := blockCode page
  let k := d.lsb
  match d.off with
  | 0x000 => some (if k = 0 then code else blockInstance page)
  | 0x008 => some (bits (capsWord code) (k + d.width - 1) k)
  | 0x014 =>
    if k = 0 then some (s.blockBusy page).toNat
    else if k = 1 then some (s.blockIdle page).toNat
    else if k = 2 then some (s.shadowPending page).toNat
    else if k = 3 then some (s.getF fdComCtrlQuiesce page = 1 && !s.blockRunning page : Bool).toNat
    else if k = 4 then some (decide (s.getF fdErrErrStatusSrc page ≠ 0)).toNat
    else if k = 5 then some (s.frozen page).toNat
    else if k = 6 then some (s.absentPage page).toNat
    else if k = 7 then some (s.blockResetting page).toNat
    else none
  | 0x004 => if k = 0 then some (Config.versionMinor code) else none
  | 0x020 =>
    if k = 0 then some (s.getF d page i &&& sourceMask page)
    else if k = 17 then some (s.maxClass page)
    else if k = 19 then some (min (s.queuedOn page) 31)
    else none
  | 0x024 => some (s.getF d page i &&& sourceMask page)
  | 0x028 => some (s.getF d page i &&& severityMask page)
  | 0x088 => if k = 0 then some (min (s.shownRing page).written (2 ^ 32 - 1)) else none
  | 0x0C0 =>
    let e := mapGet {} (s.shownRing page).entries ((s.getF fdEvrEvrIndex page + i / 2) % 256)
    some (word64 (evBits e) (i % 2))
  | _ => none

/-! ### Clocks, supply and idle (R471, R474, R475, R478) -/

/-- The cap of the thermal state of a die, of BROWNOUT and of the ceiling, in 1/80. -/
def State.clockCap (s : State) (d : Nat) : Nat :=
  min (min (s.getF fdPowerDieCap pgPower d) s.power.ceil) (if s.getF fdPowerSupplyState pgPower = 3 then 32 else 80)

/-- Frequency in use of a flask's clock: 0 while asleep. -/
def State.flaskClock (s : State) (f : Nat) : Nat :=
  if s.pstate f = psAsleep then 0 else max 8 (min (s.getF fdClkFlaskFreq pgClk f) (s.clockCap (f / 64)))

/-- Quadrants of PD with an allotted core. -/
def State.quadrantsOn (s : State) : Nat :=
  ((List.range 4).filter fun q => allCtxs.any fun c => (s.ctx c).isOpen && bits (s.ctx c).cores (16 * q + 15) (16 * q) ≠ 0).length

/-- Frequency in use of the application cores: 0 while no quadrant runs. -/
def State.pdClock (s : State) : Nat :=
  if s.quadrantsOn = 0 then 0 else max 8 (min (s.getF fdClkPdFreq pgClk) (s.clockCap 4))

/-- Domains running (R474; DEDUCED, log entry 23): those of units in use, and of those that run from power-up. -/
def State.domainsOn (s : State) : Nat :=
  if !s.power.good then 1
  else
    let deep := s.getF fdPowerIdleState pgPower = 3
    let awake := fun f => s.pstate f ≠ psAsleep
    let flasks := ((List.range 256).filter awake).length
    let meshes := if deep then 0 else ((List.range 4).filter fun d => (upFrom (64 * d) 64).any awake).length
    let hbm := if s.hbm.selfRefresh = 0 && s.boot.trained then 2 * s.controllers else 0
    let optics := ((List.range 18).filter fun p => s.getF fdPortRole (pgPort p) ≠ 0xF).length
    let reeve := (!s.dike.tokens.isEmpty || s.err.running.isSome).toNat
    let pd := if deep then 0 else s.quadrantsOn + 5
    1 + flasks + meshes + hbm + 22 + optics + 4 + pd + reeve + (!s.lsa.gated && !deep : Bool).toNat

/-- `IDLE.STATE`: IDLE while every flask is asleep and the stacks are in self-refresh. -/
def State.idleState (s : State) : Nat :=
  let st := s.getF fdPowerIdleState pgPower
  if 2 ≤ st then st
  else if s.hbm.selfRefresh = 1 && (List.range 256).all fun f => s.pstate f = psAsleep then 1 else 0

/-- `ALERT.CAUSES` (R559). -/
def State.alertCauses (s : State) : Nat :=
  let hot := ((List.range 7).any fun d => s.getF fdPowerDieState pgPower d ≠ 0) ||
    (List.range 12).any fun i => 2 ≤ s.getF fdHbmcThermState (pgHbmc i)
  packBits [(1, (s.getF fdPowerSupplyState pgPower = 3 : Bool).toNat), (1, hot.toNat),
    (1, (2 ≤ s.getF fdErraggSpareState pgErragg : Bool).toNat), (1, bits (s.getF fdNodectlAlertCauses pgNodectl) 3 3)]

/-- The record that `RING.SEL` selects, while it is in the ring (R560, R561). -/
def State.shownError (s : State) : Option ErrRecord := s.errRecord (s.getF fdErraggRingSel pgErragg)

/-- The value of a block's own field that shows other state. -/
def State.blockView (s : State) (page : Nat) (d : FieldDesc) (i : Nat) : Option Nat :=
  match d.code, d.off with
  | 0x07, 0x118 => some s.shownWp.base
  | 0x07, 0x120 => some (if d.lsb = 0 then s.shownWp.len else if d.lsb = 32 then s.shownWp.ctx else s.shownWp.valid.toNat)
  | 0x04, 0x110 => some (s.hbm.merge.filter fun e => s.siteOf (e.line * 128) = blockInstance page).length
  | 0x0D, 0x218 => if d.lsb = 32 then some (mapGet 0 s.lsa.cidx i) else none
  | 0x0E, 0x118 => some Config.logBase
  | 0x11, 0x120 => some (leField s.dikeDigest (8 * i) 8)
  | 0x11, 0x170 => some Config.vendorPen
  | 0x18, 0x138 => some s.ecrok.replies.length
  | 0x18, 0x148 => some (word64 (mapGet 0 s.ecrok.windows (s.getF fdEcrokWinIndex pgEcrok)) i)
  | 0x1B, 0x180 => some (word64 (mapGet 0 s.coll.groups (s.getF fdCollGrpIndex pgColl)) i)
  | 0x21, 0x108 => some (Config.mac (blockInstance page) 0)
  | 0x21, 0x110 => some (Config.mac (blockInstance page) 1)
  | 0x24, 0x014 => if d.lsb = 24 then some s.blocked else none
  | 0x24, 0x108 => some Config.serial
  | 0x24, 0x138 => if d.lsb = 0 then some s.alertCauses else some (s.getF d page i ||| 1)
  | 0x2A, 0x104 => some (min s.promos.length 16)
  | 0x25, 0x10C => some s.shownError.isSome.toNat
  | 0x25, 0x118 => some s.err.queued.length
  | 0x25, 0x140 => some (s.shownError.elim 0 fun r => leField r.bytes (8 * i) 8)
  | 0x26, 0x13C => some (if d.lsb = 2 then s.idleState else 0)
  | 0x26, 0x160 => some (Config.sensor i s.now)
  | 0x26, 0x180 => some (Config.sensor (if d.lsb = 0 then 7 else 8) s.now)
  | 0x27, 0x108 => some s.domainsOn
  | 0x27, 0x200 =>
    if d.lsb = 8 then some (s.flaskClock i)
    else if d.lsb = 16 then some (s.pstate i = psAwake || s.pstate i = psEntering : Bool).toNat
    else none
  | 0x27, 0x600 => if d.lsb = 8 then some s.pdClock else none
  | 0x28, 0x140 => some (leField (s.reproOf (s.getF fdReproSel pgRepro)).bytes (8 * i) 8)
  | _, _ => none

/-- The value that a load sees in element i of a field: the last value written to a class S field (R550), else the value in
effect. -/
def State.fieldView (s : State) (page : Nat) (d : FieldDesc) (i : Nat) : Nat :=
  match if d.code = 0 then s.commonView page d i else s.blockView page d i with
  | some v => v % 2 ^ d.width
  | none => s.lastF d page i

/-! ### Loads (R546, R547) -/

/-- Elements of a field whose bits fall into the `size` bytes at `off`. -/
def elemsAt (d : FieldDesc) (off size : Nat) : List Nat :=
  let all := if d.stride = 0 then [0] else
    let lo := (off - d.off - 7) / d.stride
    (upFrom lo (size / d.stride + 3)).filter fun i => i < d.count
  all.filter fun i =>
    let lo := (d.off + d.stride * i) * 8 + d.lsb
    lo < (off + size) * 8 && off * 8 < lo + d.width

/-- The bits of the `size` bytes at `off` that a field element gives. -/
def viewBits (d : FieldDesc) (i v off size : Nat) : Nat :=
  let lo := (d.off + d.stride * i) * 8 + d.lsb
  let w := if off * 8 ≤ lo then v * 2 ^ (lo - off * 8) else v / 2 ^ (off * 8 - lo)
  w % 2 ^ (8 * size)

/-- A field element lies whole within the `size` bytes at `off`. -/
def wholeIn (d : FieldDesc) (i off size : Nat) : Bool :=
  let lo := (d.off + d.stride * i) * 8 + d.lsb
  off * 8 ≤ lo && lo + d.width ≤ (off + size) * 8

/-- The fields of a page with their elements that a load touches. -/
def State.loadFields (s : State) (page off size : Nat) : List (FieldDesc × Nat) :=
  let all := (pageFields (blockCode page)).flatMap fun d => (elemsAt d off size).map fun i => (d, i)
  if s.absentPage page then all.filter fun x => x.1.off < 0x010 || (x.1.off = 0x014 && x.1.lsb = 6) else all

/-- An access of a page that R546 allows. -/
def pageAccessOk (off size : Nat) : Bool := (size = 4 || size = 8) && off % size = 0

/-- The value that a load of a page returns. -/
def State.pageValue (s : State) (page off size : Nat) : Nat :=
  (s.loadFields page off size).foldl (fun a x => a ||| viewBits x.1 x.2 (s.fieldView page x.1 x.2) off size) 0

/-- A load of a page (R13, R546): its value; RC fields that it covers whole are cleared. -/
def State.pageLoad (s : State) (page off size : Nat) : State × Nat :=
  let v := s.pageValue page off size
  let rc := (s.loadFields page off size).filter fun x => x.1.acc = .rc && wholeIn x.1 x.2 off size
  (s.forEach rc fun x s => s.setF x.1 page x.2 0, v)

end Sys2Proof.Machine
end

