-- ==== Sys2Proof/Machine/CoreAccess.lean ====
section
/-! DEFINITION. What a core issues (R33–R38, R43, R96, R134, R183–R188, R304–R306, R334, R591): loads, stores, AMOs, LR and SC, unit
instructions, fences and kernel exits; an operation that has to wait is kept in order and carried out later. -/
namespace Sys2Proof.Machine

/-! ### Addresses -/

/-- Where a core's address leads. -/
inductive Target where
  | hbm (off : Nat)
  /-- Byte `off` of tile `t`'s store. -/
  | store (t off : Nat)
  /-- The core's own IMEM. -/
  | imem (t off : Nat)
  | page (page off : Nat)
  /-- A class 0x8 access of a context. -/
  | global (ctx node off : Nat)
  /-- A line of a tray neighbour that the PD caches hold coherently. -/
  | tray (ctx w off : Nat)
  /-- A class 0x9 access of a context. -/
  | replica (ctx node off : Nat)
  /-- Refused: 0 address fault, 1 access fault. -/
  | refused (kind : Nat)
  deriving DecidableEq, Repr

/-- A place as a target. -/
def targetOf : Place → Target
  | .hbm o => .hbm o
  | .store t o => .store t o
  | .imem t o => .imem t o
  | .page p o => .page p o
  | .nowhere => .refused 0

/-- The target of a 64-bit address (R304) for a core of context x. -/
def State.globalTarget (x : Option Nat) (a : Nat) : Target :=
  match x with
  | none => .refused 1
  | some x =>
    let node := bits a 56 40
    if a / 2 ^ 60 = 8 then .global x node (a % 2 ^ 40) else .replica x node (a % 2 ^ 40)

/-- The target of a pilot or scheduler core's address (R43, R304). -/
def State.busTarget (s : State) (c a : Nat) : Target :=
  let cls := a / 2 ^ 60
  if bits a 59 57 ≠ 0 then .refused 0
  else if cls = 0 then targetOf (s.place (if c < 4096 then some c else none) a)
  else if cls = 8 || cls = 9 then State.globalTarget (if c < 4096 then (s.core c).ctx else none) a
  else .refused 0

/-- The target of an application core's physical address (R183–R185). -/
def State.pdTarget (s : State) (c a : Nat) : Target :=
  if 2 ^ 56 ≤ a then .refused 1
  else if !bitAt a 55 then
    if bits a 54 40 ≠ 0 then .refused 1
    else match s.place none a with
      | .page _ _ => .refused 1
      | p => targetOf p
  else if bits a 54 48 ≠ 0 then .refused 1
  else
    let e := bits a 47 40
    let off := a % 2 ^ 40
    match s.coreOwner (c - 4096) with
    | none => .refused 1
    | some x =>
      if s.getF fdPdGmapValid pgPd e = 0 || s.getF fdPdGmapCtx pgPd e ≠ x then .refused 1
      else
        let node := s.getF fdPdGmapNode pgPd e
        if s.getF fdPdGmapClass pgPd e = 9 then .replica x node off
        else if sameTray node s.nodeId && node ≠ s.nodeId && off < storeBase then .tray x (nodeW node) off
        else .global x node off

/-- The target of a core's address, under its grant for tile stores, IMEM and pages (R33). -/
def State.target (s : State) (c a : Nat) : Target :=
  let t := if 4096 ≤ c && c < 4160 then s.pdTarget c a else s.busTarget c a
  if !s.limited c then t
  else match t with
    | .store k _ =>
      if k = c || (s.coreGrant c).elim false fun x => (s.ctx x).flasks.contains (k / 16) then t else .refused 1
    | .page _ _ => .refused 1
    | _ => t

/-- The source identity of a core (R264). -/
def coreSource (c : Nat) : Source :=
  if h : c < 4096 then .tile ⟨c, h⟩
  else if h : c - 4096 < 64 then .pd ⟨c - 4096, h⟩
  else if h : c - 4160 < 4 then .sched ⟨c - 4160, h⟩
  else .firmware

/-- A tile may touch a range of a tile store: its queues allow it on its own store (R97, R135). -/
def State.ownClear (s : State) (c k off len : Nat) (write : Bool) : Bool :=
  let r : Range := ((off : Int), (off + len : Nat))
  !(k = c && s.unitsBlock c (if write then [] else [r]) (if write then [r] else []))

/-- A refused access of a core. -/
def State.refuseCore (s : State) (c : Nat) (load : Bool) (a kind : Nat) : State :=
  s.coreFault c (if load then 5 else 7) a kind

/-! ### Global requests -/

/-- A refusal at the source (R304, R316, R317, R328). -/
def State.refusedAt (s : State) (c x node : Nat) (load : Bool) (a : Nat) (r : Refused) : State :=
  match r with
  | .dead => (s.targetDead x node).refuseCore c load a 1
  | r => s.refuseCore c load a (refusedKind r)

/-- A class 0x8 request of a core. -/
def State.coreGlobal (s : State) (c x node off len : Nat) (a kind : Nat) (o : Origin) (load : Bool) (f : Packet → Packet) :
    State :=
  match s.issue x 8 kind node off len o f with
  | .ok s => s
  | .error r => (s.block c .none).refusedAt c x node load a r

/-- The holders of a replica window that the node can reach: its own node and those it has a route to (R334). -/
def State.holders (s : State) (e : Nat) : List Nat :=
  let covered := fun (n : Nat) => windowCovers e (bits e 139 136) (bits e 119 116) n (bits e 39 0) 0
  sortBy (fun a b => a ≤ b) ((s.nodeId :: s.ecrok.routes.map (·.1)).filter covered)

/-- The holder with the fewest route hops, the lowest node field on ties (R334). -/
def State.nearest (s : State) (ns : List Nat) : Option Nat :=
  ns.foldl (fun best n =>
    let h := fun k => (s.routeTo k).elim 24 hops
    match best with
    | none => some n
    | some b => if h n < h b then some n else some b) none

/-- The window entry that decides a class 0x9 access. -/
def State.replicaEntry (s : State) (x node off len : Nat) : Option Nat :=
  s.windowList.find? fun e => windowCovers e x 9 node off len

/-- A class 0x9 load goes to the nearest holder (R334). -/
def State.replicaLoad (s : State) (c x node off len a : Nat) (o : Origin) : State :=
  let fail := fun (r : Refused) => (s.block c .none).refusedAt c x node true a r
  if !s.nodeIdValid then fail .address
  else match s.replicaEntry x node off len with
    | none => fail .access
    | some e =>
      if !bitAt e 120 then fail .access
      else match s.nearest (s.holders e) with
        | none => fail .dead
        | some n =>
          match s.issue x 9 kREAD n off len o id with
          | .ok s => s
          | .error r => fail r

/-! ### Loads and stores -/

/-- A line of a tray neighbour is held as an access needs it. -/
def State.trayReady (s : State) (w off len : Nat) (excl : Bool) : Bool :=
  (unitsOf 128 off len).all fun l => (if excl then 2 else 1) ≤ (s.cached w l).state

/-- The lines of a tray access are asked for; the window table decides first (R184). -/
def State.trayAsk (s : State) (c x w off len a perm : Nat) (excl : Bool) (o : Origin) : State :=
  let node := s.nodeId / 4 * 4 + w
  if !s.nodeIdValid then s.refuseCore c (!excl) a 0
  else if (s.windowDecide x 8 node off len perm).isNone then s.refuseCore c (!excl) a 1
  else s.forEach ((unitsOf 128 off len).filter fun l => !(s.trayReady w (l * 128) 1 excl)) fun l s => s.cohFetch x w l excl o

/-- Bytes of cached lines of a tray neighbour, and whether they are poisoned. -/
def State.trayBytes (s : State) (w off len : Nat) : List Byte × Bool :=
  ((upFrom off len).map fun a => (s.cached w (a / 128)).data.getD (a % 128) 0,
    (unitsOf 128 off len).any fun l => (s.cached w l).poisoned)

/-- Bytes written into cached lines of a tray neighbour, which become dirty; reservations on them are lost. -/
def State.trayWrite (s : State) (w off : Nat) (bs : List Byte) : State :=
  let s := s.forEach (linePieces off bs) fun (l, pos, b) s =>
    let x := s.cached w l
    s.setCached w l { x with
      state := 3
      data := x.data.take pos ++ b ++ x.data.drop (pos + b.length)
      poisoned := x.poisoned && b.length < 128 }
  s.breakReservations (s.trayAddr w off) bs.length

/-- A core operation reaches a tile store: none while the tile's own queues hold it back, held at the mesh port of a flask that is not
AWAKE or moves the tile, refused on an owned deque area (R52, R57, R97, R160), else served by `f`. -/
def State.coreStore (s : State) (c k off len a : Nat) (op : CoreOp) (load blocks : Bool) (f : State → State) : Option State :=
  if !s.ownClear c k off len (!load) then none
  else
    let s := s.arrive (flaskOf k)
    if !(s.serves (flaskOf k) && !s.moving k) then
      let s := s.hold (flaskOf k) (.core c op)
      some (if blocks then s.block c .access else s)
    else if s.dequeOwns k off len then some (s.refuseCore c load a 1)
    else some (f s)

/-- A load of a core (R36, R183, R304). None: it has to wait. -/
def State.runLoad (s : State) (c a size : Nat) (sgn : Bool) (rd : Nat) (op : CoreOp) : Option State :=
  if c < 4096 && a % size ≠ 0 then some (s.coreFault c 4 a 3)
  else match s.target c a with
    | .hbm off => some (((s.tallyMesh c 13 size).block c .access).submit
        { kind := 0, src := coreSource c, off := off, len := size, reply := .reg c rd size sgn a })
    | .store k off => s.coreStore c k off size a op true true fun s =>
        s.loadReg c rd size sgn a (s.bytes (storeAt k + off) size) (s.wordsPoisoned (storeAt k + off) size)
    | .imem k off => some (s.loadReg c rd size sgn a (s.bytes (imemAt k + off) size) (s.wordsPoisoned (imemAt k + off) size))
    | .page p off =>
      if pageAccessOk off size then
        let (s, v) := s.pageLoad p off size
        some (s.setX c rd (if sgn then wrapTo 64 (signedOf (8 * size) v) else v))
      else some (s.refuseCore c true a 1)
    | .global x node off =>
      some (((s.tallyMesh c 15 size).block c .access).coreGlobal c x node off size a kREAD (.load c rd size sgn a) true id)
    | .replica x node off => some (((s.tallyMesh c 15 size).block c .access).replicaLoad c x node off size a (.load c rd size sgn a))
    | .tray x w off =>
      if (s.windowDecide x 8 (s.nodeId / 4 * 4 + w) off size 0).isSome && s.trayReady w off size false then
        let (bs, p) := s.trayBytes w off size
        some (s.loadReg c rd size sgn a bs p)
      else
        let s' := s.trayAsk c x w off size a 0 false (.load c rd size sgn a)
        if (s'.core c).trap = (s.core c).trap then some ((s'.block c .access).setCore c
          { s'.core c with blocked := .access, stalled := op :: (s'.core c).stalled }) else some s'
    | .refused k => some (s.refuseCore c true a k)

/-- A store of a core. None: it has to wait. -/
def State.runStore (s : State) (c a size v : Nat) (op : CoreOp) : Option State :=
  let bs := leBytes size v
  if c < 4096 && a % size ≠ 0 then some (s.coreFault c 6 a 3)
  else match s.target c a with
    | .hbm off => some ((s.tallyMesh c 14 size).submit
        { kind := 1, src := coreSource c, off := off, len := size, data := bs, reply := .stored c a })
    | .store k off => s.coreStore c k off size a op false false fun s =>
        (s.storeBytes (storeAt k + off) bs).watchWrite (storeAt k + off) size
    | .imem _ _ => some (s.refuseCore c false a 1)
    | .page _ _ => some (s.refuseCore c false a 1)
    | .global x node off => some ((s.tallyMesh c 15 size).coreGlobal c x node off size a kWRITE (.store c a) false fun pk =>
        { pk with payload := bs })
    | .replica _ _ _ => some (s.refuseCore c false a 1)
    | .tray x w off =>
      if (s.windowDecide x 8 (s.nodeId / 4 * 4 + w) off size 1).isSome && s.trayReady w off size true then
        some (s.trayWrite w off bs)
      else
        let s' := s.trayAsk c x w off size a 1 true (.store c a)
        if (s'.core c).trap = (s.core c).trap then some (s'.setCore c
          { s'.core c with blocked := .access, stalled := op :: (s'.core c).stalled }) else some s'
    | .refused k => some (s.refuseCore c false a k)

/-! ### AMOs (R36, R187, R270) -/

/-- Operation and element type of an AMO at the atomic ALU. -/
def amoCode (op : AmoOp) (wide : Bool) : Nat × Nat :=
  let u := (if wide then 3 else 2)
  let i := (if wide then 1 else 0)
  match op with
  | .add => (0, i) | .min => (1, i) | .max => (2, i) | .minu => (1, u) | .maxu => (2, u)
  | .and => (3, i) | .or => (4, i) | .xor => (5, i) | .swap => (6, i)

/-- A 64 B line of bytes with an operand at byte `lane`. -/
def amoOperand (lane size v : Nat) : List Byte := (zeros lane ++ leBytes size v ++ zeros (64 - lane - size)).take 64

/-- An AMO of a core. None: it has to wait. -/
def State.runAmo (s : State) (c a : Nat) (o : AmoOp) (wide : Bool) (v rd : Nat) (op : CoreOp) : Option State :=
  let size := if wide then 8 else 4
  let (code, ty) := amoCode o wide
  if a % size ≠ 0 then some (s.coreFault c 6 a 3)
  else match s.target c a with
    | .hbm off => some (((s.tallyMesh c 14 size).block c .access).submit
        { kind := 2, src := coreSource c, off := off / 64 * 64, len := 64, data := amoOperand (off % 64) size v, op := code,
          ty := ty, mask := 2 ^ (off % 64 / size), fetch := true, reply := .reg c rd size true a })
    | .store k off => s.coreStore c k off size a op false true fun s =>
        let p := storeAt k + off
        if s.wordsPoisoned p size then (s.block c .none).poisonFault c a
        else
          let old := s.loadNat p size
          let new := (atomLane code ty old (v % 2 ^ (8 * size)) 0).1
          (((s.storeBytes p (leBytes size new)).watchWrite p size).block c .none).setX c rd (wrapTo 64 (signedOf (8 * size) old))
    | .imem _ _ => some (s.refuseCore c false a 1)
    | .page _ _ => some (s.refuseCore c false a 1)
    | .global x node off =>
      some (((s.tallyMesh c 15 size).block c .access).coreGlobal c x node off size a kATOMICF (.amo c rd wide (off % 64) a) false fun pk =>
        { pk with op := BitVec.ofNat 4 code, ty := BitVec.ofNat 4 ty, mask := BitVec.ofNat 16 (2 ^ (off % 64 / size)),
                  offset := BitVec.ofNat 40 (off / 64 * 64), len := 64, payload := amoOperand (off % 64) size v })
    | .replica _ _ _ => some (s.refuseCore c false a 1)
    | .tray x w off =>
      if (s.windowDecide x 8 (s.nodeId / 4 * 4 + w) off size 2).isSome && s.trayReady w off size true then
        let (bs, p) := s.trayBytes w off size
        if p then some (s.poisonFault c a)
        else
          let new := (atomLane code ty (leNat bs) (v % 2 ^ (8 * size)) 0).1
          some ((s.trayWrite w off (leBytes size new)).setX c rd (wrapTo 64 (signedOf (8 * size) (leNat bs))))
      else
        let s' := s.trayAsk c x w off size a 2 true (.amo c rd wide 0 a)
        if (s'.core c).trap = (s.core c).trap then some (s'.setCore c
          { s'.core c with blocked := .access, stalled := op :: (s'.core c).stalled }) else some s'
    | .refused k => some (s.refuseCore c false a k)

/-! ### LR and SC (R36, R187) -/

/-- The address under which a reservation on a target is kept; none where LR and SC are not allowed. -/
def State.lrKey (s : State) (c : Nat) (t : Target) : Option Nat :=
  match t with
  | .hbm off => if 4096 ≤ c then some off else none
  | .store k off => if c < 4096 && k / 16 = c / 16 then some (storeAt k + off) else none
  | .tray _ w off => some (s.trayAddr w off)
  | _ => none

/-- A load-reserved. -/
def State.runLr (s : State) (c a : Nat) (wide : Bool) (rd : Nat) (op : CoreOp) : Option State :=
  let size := if wide then 8 else 4
  if a % size ≠ 0 then some (s.coreFault c 4 a 3)
  else match s.target c a with
    | .refused k => some (s.refuseCore c true a k)
    | t =>
      match s.lrKey c t with
      | none => some (s.refuseCore c true a 1)
      | some key => (s.setCore c { s.core c with reservation := some key }).runLoad c a size true rd op

/-- A store-conditional: rd = 0 where the reservation holds, else rd = 1 and nothing is written. -/
def State.runSc (s : State) (c a : Nat) (wide : Bool) (v rd : Nat) (op : CoreOp) : Option State :=
  let size := if wide then 8 else 4
  let bs := leBytes size v
  if a % size ≠ 0 then some (s.coreFault c 6 a 3)
  else match s.target c a with
    | .refused k => some (s.refuseCore c false a k)
    | t =>
      match s.lrKey c t with
      | none => some (s.refuseCore c false a 1)
      | some key =>
        let held := (s.core c).reservation = some key
        let clear := fun (s : State) => s.setCore c { s.core c with reservation := none }
        if !held then some ((clear s).setX c rd 1)
        else match t with
          | .hbm off =>
            let rq : HbmReq := { kind := 1, src := coreSource c, off := off, len := size, data := bs, reply := .stored c a }
            match s.hbmRefusal rq with
            | some r => some ((clear s).replyRefused rq r)
            | none => some (((clear s).setX c rd 0).accept rq)
          | .store k off => s.coreStore c k off size a op false true fun s =>
              (((((clear s).storeBytes (storeAt k + off) bs).watchWrite (storeAt k + off) size).block c .none)).setX c rd 0
          | .tray x w off =>
            if (s.windowDecide x 8 (s.nodeId / 4 * 4 + w) off size 1).isSome && s.trayReady w off size true then
              some (((clear s).trayWrite w off bs).setX c rd 0)
            else
              let s' := s.trayAsk c x w off size a 1 true (.amo c rd wide 0 a)
              if (s'.core c).trap = (s.core c).trap then some (s'.setCore c
                { s'.core c with blocked := .access, stalled := op :: (s'.core c).stalled }) else some s'
          | _ => some s

/-! ### Unit instructions (R59, R96–R98, R134, R135, R143) -/

/-- A trap at issue. -/
def State.issueTrap (s : State) (t : Nat) (x : Trap) : State :=
  s.coreFault t x.cause x.tval (if x.cause = 5 || x.cause = 7 then 1 else 3)

/-- An Xzmx instruction issues: checked, then queued, or held while the queue of 8 is full (R95, R96). -/
def State.runMx (s : State) (t f3 w x1 x2 : Nat) : Option State :=
  let q := s.mxReq t w x1 x2
  let tk := (s.tile t).issueTag q.bank
  if mxOp w ≠ f3 || mxReserved w then some (s.coreFault t 2 w 3)
  else if f3 = 7 then if (s.tile t).mxq.isEmpty then some s else none
  else match q.trap tk (s.dqEn t) with
    | some x =>
      let s := if !q.tagBad tk.1 && q.kLimit tk.2 then s.orCsr t 0x84B 2 else s
      some (s.issueTrap t x)
    | none =>
      if 8 ≤ (s.tile t).mxq.length then none
      else
        let x := s.tile t
        let s := s.setTile t { x with mxq := x.mxq ++ [q], nextSeq := x.nextSeq + 1 }
        let s := s.arrive (flaskOf t)
        some (if mxEngine w = .fcu then s else s.startUnitWake t .mx)

/-- The control word of a row (R123): funct3 of the control layout, its fixed fields 0. -/
def svControlOk (w f3 : Nat) : Bool :=
  bits w 6 0 = 0x2B && bits w 31 25 = 0x7C && bits w 14 12 = f3 &&
    (match f3 with
      | 0 => bits w 24 22 = 0
      | 1 => bits w 19 18 = 0 && bits w 24 22 = 0
      | 4 => bits w 24 15 = 0 && wRd w = 0
      | _ => bits w 24 23 = 0 && wRd w = 0)

/-- `vl` set to a length, capped by VLMAX of the cost class (R121, R122). -/
def State.setVl (s : State) (t w n : Nat) : State :=
  let v := min n (65536 / 2 ^ bits w 21 20)
  (s.setCsr t 0x800 v).setX t (wRd w) v

/-- A descriptor advanced by `k` elements (R120). -/
def State.advance1 (s : State) (t n k : Nat) (packed : Bool) : State :=
  let d := s.desc t n
  let a := 0x810 + 2 * n
  if tyPacked d.ety then
    if packed then
      let s := s.setCsr t a (putBits (s.csr t a) 18 0 (wrapTo 19 ((d.base : Int) + ((k * tyBits d.ety + 7) / 8 : Nat))))
      s.setCsr t (a + 1) (putBits (s.csr t (a + 1)) 16 0 (d.count - k))
    else s
  else if d.stride = 0 then s
  else
    let s := s.setCsr t a (putBits (s.csr t a) 18 0 (wrapTo 19 ((d.base : Int) + k * d.stride)))
    s.setCsr t (a + 1) (putBits (s.csr t (a + 1)) 16 0 (d.count - k))

/-- A control instruction (R120, R121, R123, R134). -/
def State.runSvControl (s : State) (t f3 w x1 : Nat) : Option State :=
  if !svControlOk w f3 then some (s.coreFault t 2 w 3)
  else
    let vl := s.csrBits t 0x800 16 0
    let named := (List.range 8).filter fun n => bitAt (bits w 22 15) n
    match f3 with
    | 0 => some (s.setVl t w x1)
    | 1 => some (s.setVl t w (s.desc t (bits w 17 15)).count)
    | 2 => some (s.forEach named fun n s => s.advance1 t n vl true)
    | 3 => some (s.forEach named fun n s => s.advance1 t n 1 false)
    | _ => if (s.tile t).fcuq.isEmpty then some s else none

/-- A stream instruction or FCU request issues (R59, R134, R135, R139). -/
def State.runSv (s : State) (t code w : Nat) : Option State :=
  let o := s.svOp t w
  if svCode w ≠ code || bits w 6 0 ≠ 0x2B then some (s.coreFault t 2 w 3)
  else match o.check (s.dqEn t) with
    | some x => some (s.issueTrap t x)
    | none =>
      if svFcu code then
        if 4 ≤ (s.tile t).fcuq.length then none
        else
          let x := s.tile t
          some ((s.setTile t { x with fcuq := x.fcuq ++ [{ o.request x.nextSeq with since := s.now }], nextSeq := x.nextSeq + 1 }).arrive (flaskOf t))
      else if s.serves (flaskOf t) && s.unitOn t .sv && !s.unitsBlock t o.reads o.writes then some ((s.svRun t o).tallySv t o)
      else none

/-- A read of a status CSR (R98, R143). -/
def State.runStatus (s : State) (op : CoreOp) (t : Nat) : Option State :=
  match op with
  | .mxStatus stat rd =>
    if !(s.tile t).mxq.isEmpty then none
    else if stat then
      some ((s.setX t rd (s.csr t 0x84B)).setCsr t 0x84B (putBits (s.csr t 0x84B) 27 16 0))
    else some (s.setX t rd (s.csr t 0x84A))
  | .svStatus stat fq rd =>
    if !(s.tile t).fcuq.isEmpty then none
    else some (s.setX t rd (if stat then s.csr t 0x803 + fq * 256 else s.csr t 0x802))
  | _ => some s

/-! ### CSR writes (R100, R144, R171, R177, R407) -/

/-- A field of the tile CSRs: number, lowest bit, width, and whether a value is listed. -/
structure CsrField where
  csr : Nat
  lsb : Nat
  width : Nat
  w1c : Bool := false
  ok : Nat → Bool := fun _ => true

/-- The writable fields of the tile CSRs; RO and RC fields are not listed. -/
def csrFields : List CsrField :=
  [{ csr := 0x800, lsb := 0, width := 17, ok := fun v => v ≤ 65536 }, { csr := 0x801, lsb := 0, width := 2 },
   { csr := 0x802, lsb := 0, width := 6, w1c := true }, { csr := 0x803, lsb := 0, width := 2, w1c := true },
   { csr := 0x804, lsb := 0, width := 48 }, { csr := 0x805, lsb := 0, width := 24, ok := fun v => v ≠ 0 },
   { csr := 0x805, lsb := 24, width := 24 }, { csr := 0x806, lsb := 0, width := 64 }] ++
  ((List.range 8).flatMap fun n =>
    [{ csr := 0x810 + 2 * n, lsb := 0, width := 19 }, { csr := 0x810 + 2 * n, lsb := 24, width := 20 },
     { csr := 0x811 + 2 * n, lsb := 0, width := 17, ok := fun v => v ≤ 65536 },
     { csr := 0x811 + 2 * n, lsb := 32, width := 5, ok := fun v => v < 0x13 }]) ++
  [{ csr := 0x840, lsb := 0, width := 13 }, { csr := 0x840, lsb := 13, width := 3, ok := fun v => v ≤ 4 },
   { csr := 0x841, lsb := 0, width := 17, ok := fun v => v ≠ 0 && v ≤ 65536 }, { csr := 0x842, lsb := 0, width := 20 },
   { csr := 0x843, lsb := 0, width := 20 }, { csr := 0x844, lsb := 0, width := 20 }, { csr := 0x845, lsb := 0, width := 19 },
   { csr := 0x846, lsb := 0, width := 19 }, { csr := 0x847, lsb := 0, width := 19 }, { csr := 0x847, lsb := 32, width := 19 },
   { csr := 0x848, lsb := 0, width := 19 }, { csr := 0x848, lsb := 32, width := 19 }, { csr := 0x849, lsb := 0, width := 19 },
   { csr := 0x84A, lsb := 0, width := 6, w1c := true }, { csr := 0x84B, lsb := 0, width := 3, w1c := true }] ++
  [{ csr := 0x860, lsb := 0, width := 48 }, { csr := 0x861, lsb := 0, width := 1 },
   { csr := 0x863, lsb := 0, width := 2, ok := fun v => v ≠ 3 },
   { csr := 0x880, lsb := 0, width := 5 }, { csr := 0x880, lsb := 8, width := 1, w1c := true }, { csr := 0x881, lsb := 0, width := 64 },
   { csr := 0x882, lsb := 0, width := 32, ok := fun v => v ≠ 0 }, { csr := 0x883, lsb := 0, width := 32 },
   { csr := 0x884, lsb := 0, width := 64 }, { csr := 0x885, lsb := 0, width := 64 }]

/-- A CSR number of the four custom groups, whose unlisted numbers are illegal. -/
def csrCustom (n : Nat) : Bool :=
  0x800 ≤ n && n < 0x820 || 0x840 ≤ n && n < 0x870 || 0x880 ≤ n && n < 0x890

/-- The CSR number is listed in a group. -/
def csrListed (n : Nat) : Bool := (csrFields.any fun f => f.csr = n) || n = 0x862 || n = 0x864

/-- A write of the tile CSRs: all its fields listed, and the deque not disabled while it holds descriptors (R160). -/
def State.tileCsr (s : State) (t n v : Nat) : State :=
  let fs := csrFields.filter fun f => f.csr = n
  let val := fun (f : CsrField) => bits v (f.lsb + f.width - 1) f.lsb
  let drop := fun cause =>
    s.reject (pgFlask (flaskOf t)) n cause (if (s.core t).user then 3 else 2) (some (t % 16))
  if fs.any fun f => !f.ok (val f) then drop 1
  else if n = 0x861 && v % 2 = 0 && s.dqEn t && s.dqCount t ≠ 0 then drop 4
  else s.forEach fs fun f s =>
    let old := s.csrBits t n (f.lsb + f.width - 1) f.lsb
    let new := if f.w1c then old - (old &&& val f) else val f
    s.setCsr t n (putBits (s.csr t n) (f.lsb + f.width - 1) f.lsb new)

/-- The mode that a standard CSR number asks for is above the core's: machine CSRs in user mode. -/
def csrPrivileged (n : Nat) (user : Bool) : Bool := user && bits n 9 8 = 3

/-- A standard CSR that a core lacks: read-only numbers, and on tiles the float, vector and supervisor groups (R32). -/
def csrAbsent (c n : Nat) : Bool :=
  bits n 11 10 = 3 || (c < 4096 && (n < 0x010 || bits n 9 8 = 1 || bits n 9 8 = 2)) || (4096 ≤ c && csrCustom n && n ≠ 0x860)

/-- A CSR write. `frm` and `vxrm` of a PD core keep their values (R177). -/
def State.runCsr (s : State) (c n v : Nat) : State :=
  if csrAbsent c n || csrPrivileged n (s.core c).user || (csrCustom n && !csrListed n) then s.coreFault c 2 n 3
  else if c < 4096 && csrCustom n then s.tileCsr c n v
  else match n with
    | 0x001 => s.setCsr c 1 (v % 32)
    | 0x002 => s
    | 0x003 => s.setCsr c 1 (v % 32)
    | 0x008 => s.setCore c { s.core c with vstart := v % 512 }
    | 0x009 => s.setCsr c 9 (v % 2)
    | 0x00A => s
    | 0x00F => s.setCsr c 9 (v % 2)
    | 0x860 => s.setCsr c n (v % 2 ^ 48)
    | _ => s.setCsr c n v

/-! ### PD vector instructions (R176–R181) -/

/-- A vector load or store. -/
def vecMem (w : Nat) : Bool :=
  (bits w 6 0 = 0x07 || bits w 6 0 = 0x27) && (bits w 14 12 = 0 || 5 ≤ bits w 14 12)

/-- The truncating conversions that raise an illegal-instruction exception (R177). -/
def vecTruncating (w : Nat) : Bool :=
  bits w 6 0 = 0x57 && bits w 14 12 = 1 && bits w 31 26 = 0x12 && [6, 7, 14, 15, 22, 23].contains (bits w 19 15)

/-- A vector instruction word. -/
def vecWord (w : Nat) : Bool := bits w 6 0 = 0x57 || vecMem w

/-- The vector unit of PD core k is powered (R181). -/
def State.vecOn (s : State) (k : Nat) : Bool := bitAt (s.getF fdPdVstate pgPd) k || bitAt (s.getF fdPdVgateHold pgPd) k

/-- A vector unit powered or gated. -/
def State.setVec (s : State) (k : Nat) (on : Bool) : State :=
  s.setF fdPdVstate pgPd 0 (putBits (s.getF fdPdVstate pgPd) k k on.toNat)

/-- The registers that a vector instruction writes take values that the table of commands does not carry: free values (log entry 7).
Up to eight vector registers from vd, or the integer or float register of a scalar result; sticky flags may rise. -/
def State.vecWrite (s : State) (c w : Nat) : State :=
  let rd := bits w 11 7
  let f3 := bits w 14 12
  let toScalar := bits w 6 0 = 0x57 && (f3 = 1 || f3 = 2) && bits w 31 26 = 0x10
  if bits w 6 0 = 0x27 then s
  else if bits w 6 0 = 0x57 && (f3 = 7 || (toScalar && f3 = 2)) then
    let (v, s) := s.free
    s.setX c rd v
  else if toScalar then
    let (v, s) := s.free
    { s with fregs := mapPut 0 s.fregs (c * 32 + rd) (v % 2 ^ 64) }
  else
    let (vs, s) := s.frees 9
    let s := s.forEach (vs.take 8).zipIdx fun (v, i) s =>
      { s with vregs := mapPut 0 s.vregs (c * 32 + (rd + i) % 32) (v % 2 ^ 512) }
    let fl := vs.getD 8 0
    if bits w 6 0 = 0x57 then
      (s.setCsr c 1 (s.csr c 1 ||| fl % 32)).setCsr c 9 (s.csr c 9 ||| fl / 32 % 2)
    else s

/-- A vector instruction of a PD core; none while its gated unit wakes. -/
def State.runVector (s : State) (c w vl : Nat) (faultAt : Option Nat) (cause : Nat) : Option State :=
  let k := c - 4096
  if !vecWord w || vecTruncating w then some (s.coreFault c 2 w 3)
  else if !s.vecOn k then none
  else
    let s := s.setVec k true
    match if vecMem w then faultAt.filter (· < vl) else none with
    | some i =>
      let (v, s) := s.free
      some ((s.coreFault c cause v 3).setCore c { (s.coreFault c cause v 3).core c with vstart := i })
    | none => some ((s.vecWrite c w).setCore c { (s.vecWrite c w).core c with vstart := 0 })

/-! ### Kernel exit (R231) -/

/-- A kernel ends: its tile has exited once everything before has completed; a nonzero a0 is a kernel-reported failure. -/
def State.kernelExit (s : State) (t a0 : Nat) : State :=
  let k := s.core t
  if !(k.running && k.user) then s.coreFault t (if k.user then 8 else 11) 0 3
  else
    let c := k.ctx.getD 0
    let s := (s.trap t 8 0).setCore t { (s.trap t 8 0).core t with running := false }
    let s := s.withRun c fun r => { r with tilesLeft := r.tilesLeft.filter fun x => !(x.1 = k.node && x.2 = t) }
    let s := s.trace 38 c k.node a0
    if a0 = 0 then s else (s.trace 2 c k.node (Config.faultKind 3)).failNode c k.node

/-! ### Carrying operations out -/

/-- An operation of a core is carried out; none: it has to wait for the core's earlier operations or for a unit. -/
def State.runCore (s : State) (c : Nat) (op : CoreOp) : Option State :=
  match op with
  | .load a size sgn rd => s.runLoad c a size sgn rd op
  | .store a size v => s.runStore c a size v op
  | .amo a o wide v rd => s.runAmo c a o wide v rd op
  | .lr a wide rd => s.runLr c a wide rd op
  | .sc a wide v rd => s.runSc c a wide v rd op
  | .mx f3 w x1 x2 => s.runMx c f3 w x1 x2
  | .sv code w x1 => if 0x1F0 ≤ code then s.runSvControl c (code - 0x1F0) w x1 else s.runSv c code w
  | .sync code w x1 x2 => s.runSync c code w x1 x2
  | .mxStatus _ _ => s.runStatus op c
  | .svStatus _ _ _ => s.runStatus op c
  | .fence => if s.storesOpen c then none else some ((s.lateFault c).getD s)
  | .csr n v => some (s.runCsr c n v)
  | .vector w vl faultAt cause => s.runVector c w vl faultAt cause
  | .exit a0 =>
    if !s.coreQuiet c then none
    else match s.lateFault c with
      | some s => some s
      | none => some (s.kernelExit c a0)

/-- What a waiting operation starts: the wake of a gated SVU or of a sleeping flask (R57, R59). -/
def State.waitFor (s : State) (c : Nat) (op : CoreOp) : State :=
  match op with
  | .sv code _ _ => if code < 0x90 then (s.arrive (flaskOf c)).startUnitWake c .sv else s
  | .mx _ _ _ _ => s.arrive (flaskOf c)
  | .vector _ _ _ _ => if s.vecOn (c - 4096) then s else s.setCore c { s.core c with vwaking := true }
  | _ => s

/-- The core can carry out its next operation: not blocked, not paused. -/
def CoreState.free (k : CoreState) : Bool := k.blocked = .none && !k.paused

/-- A tray line that a core waits for has arrived, or its request has ended. -/
def State.trayWaits (s : State) (c : Nat) (op : CoreOp) : Bool :=
  let check := fun (a size : Nat) => match s.target c a with
    | .tray _ w off => (unitsOf 128 off size).any fun l => s.cohAsked w l
    | _ => false
  match op with
  | .load a size _ _ => check a size
  | .store a size _ => check a size
  | .amo a _ wide _ _ => check a (if wide then 8 else 4)
  | .lr a wide _ => check a (if wide then 8 else 4)
  | .sc a wide _ _ => check a (if wide then 8 else 4)
  | _ => false

/-- A core's waiting operations in order, while each can be carried out: at most `fuel` of them. -/
def State.drainCore (s : State) (c : Nat) : Nat → State
  | 0 => s
  | fuel + 1 =>
    let k := s.core c
    match k.stalled with
    | [] => s
    | op :: rest =>
      if k.paused then s
      else if k.blocked = .access && !(s.trayWaits c op) && (match op with
          | .load a _ _ _ | .store a _ _ | .amo a _ _ _ _ | .lr a _ _ | .sc a _ _ _ =>
            (match s.target c a with | .tray _ _ _ => true | _ => false)
          | _ => false) then
        let s := s.setCore c { k with blocked := .none, stalled := rest }
        match s.runCore c op with
        | some s' => s'.drainCore c fuel
        | none => s.setCore c k
      else if k.blocked ≠ .none then s
      else
        match (s.setCore c { k with stalled := rest }).runCore c op with
        | some s' => s'.drainCore c fuel
        | none => s.waitFor c op

/-- Cores with operations that wait. -/
def State.stalledCores (s : State) : List Nat := (s.cores.filter fun x => !x.2.stalled.isEmpty).map (·.1)

/-- What an operation let go on: loopback (R306) and the waiting operations of the cores, until nothing moves; at most `fuel`
rounds. -/
def State.goOn (s : State) : Nat → State
  | 0 => s
  | fuel + 1 =>
    let s' := s.settleLoop
    let s' := s'.forEach s'.stalledCores fun c s => s.drainCore c (s.core c).stalled.length
    if s'.ecrok.loop.isEmpty && (s'.cores.map fun x => x.2.stalled) = (s.cores.map fun x => x.2.stalled) then s' else s'.goOn fuel

/-- Interrupts held until a core's instruction retires or its pause ends are taken in order; the last one is recorded. -/
def State.deliverInterrupts (s : State) : State :=
  let due := s.cores.filter fun x => !x.2.heldInterrupts.isEmpty && x.2.free && x.2.stalled.isEmpty
  s.forEach due fun (c, k) s => s.setCore c { k with interrupt := k.heldInterrupts.getLast?, heldInterrupts := [] }

/-- Everything that can go on after a change does. -/
def State.finish (s : State) : State := (s.goOn 16).graphPoll.lsaPoll.deliverInterrupts.pfcPoll

/-- A core issues an operation: at once, or behind the operations it waits for. -/
def State.issueOp (s : State) (c : Nat) (op : CoreOp) : State :=
  let k := s.core c
  if !k.free || !k.stalled.isEmpty then s.setCore c { k with stalled := k.stalled ++ [op] }
  else match s.runCore c op with
    | some s => s
    | none => (s.waitFor c op).setCore c { (s.waitFor c op).core c with stalled := [op] }

/-- An access that a flask held is served (R52, R57). -/
def State.serveHeld (s : State) (h : Held) : State :=
  match h with
  | .core c op =>
    let s := if (s.core c).blocked = .access && (match op with | .store _ _ _ => false | _ => true) then s.block c .none else s
    match s.runCore c op with
    | some s => s
    | none => s.setCore c { s.core c with stalled := op :: (s.core c).stalled }
  | .watchPost f w id level => s.watchPost f w id level
  | .post id n => s.postTo id n
  | .fabric d pk =>
    let k := pk.kind.toNat
    if k = kREAD then s.applyRead d pk
    else if k = kWRITE then s.applyWrite d pk
    else s.applyAtomicPk d pk (k = kATOMICF)

/-- Every access that a flask held is served in order of arrival. -/
def State.releaseMesh (s : State) (f : Nat) : State :=
  let held := (s.flask f).held
  let since := (s.flask f).heldSince
  let s := s.setFlask f { s.flask f with held := [] }
  let s := s.forEach held fun h s => s.serveHeld h
  if (s.flask f).held.isEmpty then s else s.setFlask f { s.flask f with heldSince := since }

end Sys2Proof.Machine
end

