-- ==== Sys2Proof/Machine/Hbm.lean ====
section
/-! DEFINITION. The memory system's commands (R256–R281): accesses, merger drains, sluice grants, refresh, scrub, temperature and
channel evacuation. -/
namespace Sys2Proof.Machine

/-! ### Errors of a channel (R258, R261, R277, R279) -/

/-- The channel of an offset's granule within its site (R252). -/
def State.channelOf (_ : State) (off : Nat) : Nat := Config.granuleSlot (off / 256) % 32

/-- An evacuation of a channel is requested (R277, R279): its pending bit is set and it joins the queue; a ninth request is not
carried out, and the node asks for tray replacement (R455). -/
def State.requestEvac (s : State) (site ch : Nat) : State :=
  let page := pgHbmc site
  let busy := s.getF fdMemmapEvacBusy pgMemmap
  let key := site * 32 + ch
  if !bitAt (s.getF fdHbmcChInService page) ch || s.hbm.evacQueue.contains key ||
      (busy = 1 && s.getF fdMemmapEvacCh pgMemmap = key) then s
  else if 8 ≤ s.getF fdMemmapMapouts pgMemmap + s.hbm.evacQueue.length + busy then s.raiseSpare 2
  else
    let s := s.setF fdHbmcChEvacPending page ch 1
    let s := { s with hbm := { s.hbm with evacQueue := s.hbm.evacQueue ++ [key] }, urgentDue := true }
    let s := s.event page 0 (some 6) 0x0111 key 1
    s.detect page 5 { code := 0x0013, service := BitVec.ofNat 16 key }

/-- A corrected error of a channel (R258, R261): counted in its hour, with PREFAIL and evacuation at their thresholds. -/
def State.channelCe (s : State) (site ch off : Nat) (info : ErrorInfo := { code := 0x0010 }) : State :=
  let page := pgHbmc site
  let s := s.addF fdHbmcChCeHour page ch 1
  let s := s.detect page 3
    { info with code := 0x0010, addr := BitVec.ofNat 64 off, service := BitVec.ofNat 16 (site * 32 + ch) }
  let n := s.getF fdHbmcChCeHour page ch
  let warn := s.getF fdHbmcCePrefail page
  let evac := s.getF fdHbmcCeEvac page
  let s := if warn ≠ 0 && warn ≤ n then s.prefail page ch 0x0010 else s
  if evac ≠ 0 && evac ≤ n then s.requestEvac site ch else s

/-- An error of a channel detected and not corrected (R258, R259, R261): the line is poisoned; the first DE raises PREFAIL and a
second within 24 h requests evacuation. -/
def State.channelDe (s : State) (site ch off : Nat) (info : ErrorInfo := { code := 0x0011 }) : State :=
  let page := pgHbmc site
  let first := s.getF fdHbmcChDeTotal page ch = 0
  let key := site * 32 + ch
  let last := mapGet 0 s.hbm.lastDe key
  let again := last ≠ 0 && s.now + 1 - last < 24 * 3600 * 2000000000
  let s := { s with
    poisonLine := mapPut false s.poisonLine (off / 128) true
    hbm := { s.hbm with lastDe := mapPut 0 s.hbm.lastDe key (s.now + 1) } }
  let s := s.addF fdHbmcChDeTotal page ch 1
  let s := s.detect page 4
    { info with code := 0x0011, addr := BitVec.ofNat 64 off, service := BitVec.ofNat 16 key }
  let s := if first then s.prefail page ch 0x0011 else s
  if again then s.requestEvac site ch else s

/-! ### Accesses -/

/-- HBM_READ. -/
def execHbmRead (src : Source) (off : BitVec 40) (len : Nat) (s : State) : Out :=
  .next (s.submit { kind := 0, src := src, off := off.toNat, len := len }).finish

/-- HBM_WRITE. -/
def execHbmWrite (src : Source) (off : BitVec 40) (data : List Byte) (poisoned : Bool) (s : State) : Out :=
  .next (s.submit { kind := 1, src := src, off := off.toNat, len := data.length, data := data,
                    poisoned := poisoned }).finish

/-- An atomic that R270 does not list is refused at its source (R309): an illegal-instruction exception for a core, an access error
for other sources. -/
def State.refuseAtomic (s : State) (src : Source) : State :=
  match sourceCore src with
  | some c => s.coreFault c 2 0 3
  | none => s.emit (.memError src stACCESS)

/-- HBM_ATOMIC. -/
def execHbmAtomic (src : Source) (off : BitVec 40) (op ty : BitVec 4) (mask : BitVec 16) (operand : List Byte)
    (fetch : Bool) (s : State) : Out :=
  if atomicOk op.toNat ty.toNat mask.toNat then
    .next (s.submit { kind := 2, src := src, off := off.toNat / 64 * 64, len := 64, data := operand, op := op.toNat,
                      ty := ty.toNat, mask := mask.toNat, fetch := fetch }).finish
  else .next (s.refuseAtomic src)

/-- MERGER_DRAIN (R274): the line's open entry drains at its controller. -/
def execMergerDrain (site : SiteId) (line : BitVec 33) (s : State) : Out :=
  if s.siteOf (line.toNat * 128) = site.val then .next (s.drainLine line.toNat).finish else .next s

/-! ### Sluices (R267, R268) -/

/-- The thermal cap of a controller in quarter percent (R275). -/
def State.capQuarters (s : State) (site : Nat) : Nat :=
  let t := s.getF fdHbmcTempNow (pgHbmc site)
  match s.getF fdHbmcThermState (pgHbmc site) with
  | 2 => 400 - 30 * (t - 94)
  | 3 => 25
  | _ => 400

/-- Bytes that a controller served for a polder in the current window (R268). -/
def State.windowBytes (s : State) (site p : Nat) (write : Bool) : Nat :=
  (s.hbm.served.filter fun (k, _) => k % 32 = p * 2 + write.toNat && s.siteOf (k / 32 * 256) = site).foldl
    (fun a x => a + x.2) 0

/-- A polder is under its floor in the current 10 µs window (R268): FLOOR × U / N is 25,000 bytes per U and controller, scaled by
the thermal cap and by the channels in service. -/
def State.underFloor (s : State) (site p : Nat) (write : Bool) : Bool :=
  let floor := if write then s.getF fdMemmapPolderFloorW pgMemmap p else s.getF fdMemmapPolderFloorR pgMemmap p
  let slots := 32 * s.controllers
  s.windowBytes site p write * 400 * slots <
    floor * 25000 * s.capQuarters site * (slots - s.getF fdMemmapMapouts pgMemmap)

/-- The first waiting request of a polder at a controller that may be served: the head of its read or write queue whose bucket
pays, or either head in an idle cycle with `BORROW` (R267). Answers the request and whether it borrows. -/
def State.servable (s : State) (site p : Nat) (idle : Bool) : Option (HbmReq × Bool) :=
  let heads := (s.hbm.waiting.find? (s.waitsAt site p false)).toList ++
    (s.hbm.waiting.find? (s.waitsAt site p true)).toList
  let order := s.hbm.waiting.filter heads.contains
  let pays := order.find? fun r => s.bucketPays site p r.charge.1 r.charge.2
  match pays with
  | some r => some (r, false)
  | none =>
    if idle && s.getF fdMemmapPolderBorrow pgMemmap p = 1 then order.head?.map fun r => (r, true) else none

/-- Standing of a polder at a controller: polders under floor first, then round-robin after the polder served last (R268). -/
def State.standing (s : State) (site p : Nat) (r : HbmReq) : Nat :=
  let turn := (p + 16 - mapGet 0 s.hbm.lastServed site) % 16
  (if s.underFloor site p r.charge.2 then 0 else 16) + turn

/-- No other polder with a servable request at the controller stands before polder p (R268). -/
def State.turnOf (s : State) (site p : Nat) (r : HbmReq) (idle : Bool) : Bool :=
  (List.range 16).all fun q => match s.servable site q idle with
    | some (x, _) => q = p || s.standing site p r ≤ s.standing site q x
    | none => true

/-- SLUICE_GRANT. A borrowing request takes no token. -/
def execSluiceGrant (site : SiteId) (p : PolderId) (idle : Bool) (s : State) : Out :=
  match s.servable site.val p.val idle with
  | none => .next s
  | some (r, borrows) =>
    if s.turnOf site.val p.val r idle then
      let s := { s with hbm := { s.hbm with
        waiting := s.hbm.waiting.erase r
        lastServed := mapPut 0 s.hbm.lastServed site.val (p.val + 1) } }
      let (n, write) := r.charge
      let s := s.chargeWindow r.off p.val n write
      let s := if borrows then s else s.chargeBucket site.val p.val n write
      .next (s.accept r).finish
    else .next s

/-- SLUICE_WINDOW (R268): the controller's served bytes start again from 0. -/
def execSluiceWindow (site : SiteId) (s : State) : Out :=
  .next { s with hbm := { s.hbm with
    served := s.hbm.served.filter fun (k, _) => !(s.siteOf (k / 32 * 256) = site.val) } }

/-! ### Self-refresh (R256) -/

/-- Populated sites. -/
def State.sites (s : State) : List Nat := (List.range 12).filter fun i => !siteAbsent s.small i

/-- No request has reached any controller for its `SR_IDLE` × 100 µs, and none waits. -/
def State.idleForRefresh (s : State) : Bool :=
  s.hbm.waiting.isEmpty && s.hbm.merge.isEmpty && s.hbm.selfRefresh = 0 && s.sites.all fun i =>
    let n := s.getF fdHbmcSrIdle (pgHbmc i)
    n ≠ 0 && s.hbm.lastRequest + n * 200000 ≤ s.now

/-- HBM_SELF_REFRESH. -/
def execHbmSelfRefresh (s : State) : Out :=
  if s.idleForRefresh then .next { s with hbm := { s.hbm with selfRefresh := 1 } } else .next s

/-- SELF_REFRESH_EXIT_DONE: requests held during the exit are served in order. -/
def execSelfRefreshExitDone (s : State) : Out :=
  if s.hbm.selfRefresh = 2 then
    let held := s.hbm.srHeld
    let s := { s with hbm := { s.hbm with selfRefresh := 0, srHeld := [], lastRequest := s.now } }
    .next (s.forEach held fun r s => s.sluice r).finish
  else .next s

/-! ### Scrub and hourly counts (R258, R260, R451) -/

/-- HBM_PATROL_SCRUB: a poisoned line is left and not counted again (R259). -/
def execHbmPatrolScrub (site : SiteId) (off : BitVec 40) (found : EccFinding) (s : State) : Out :=
  let o := off.toNat
  match found with
  | .clean => .next s
  | .corrected => .next (s.channelCe site.val (s.channelOf o) o)
  | .uncorrectable =>
    if mapGet false s.poisonLine (o / 128) then .next s else .next (s.channelDe site.val (s.channelOf o) o)

/-- Corrected errors of a unit in the hour that ends, and its PREFAIL threshold; 0 where nothing counts. -/
def State.hourOf (s : State) (page unit : Nat) : Nat × Nat :=
  let code := blockCode page
  if code = 0x04 then (s.getF fdHbmcChCeHour page unit, s.getF fdHbmcCePrefail page)
  else
    let n := mapGet 0 s.err.ceHour (page * 128 + unit)
    if code = 0x01 then (n, s.getF fdErraggThrTilePrefail pgErragg)
    else if code = 0x0D then (n, s.getF fdErraggThrLsaPrefail pgErragg)
    else (n, s.getF fdErraggThrCorePrefail pgErragg)

/-- HOURLY_COUNT_ROLL: counts restart, and a unit that spent the hour below its threshold may raise PREFAIL again (R451). -/
def execHourlyCountRoll (s : State) : Out :=
  let keep := s.err.prefailed.filter fun (k, _) =>
    let (n, thr) := s.hourOf (k / 128) (k % 128)
    thr ≠ 0 && thr ≤ n
  let s := s.forEach (List.range 12) fun i s =>
    s.forEach (List.range 32) fun c s => s.setF fdHbmcChCeHour (pgHbmc i) c 0
  .next { s with err := { s.err with ceHour := [], prefailed := keep } }

/-! ### Temperature (R275, R276) -/

/-- THERM.STATE for a reading: a stack leaves HARD only at 103 °C or below. -/
def stackState (was t : Nat) : Nat :=
  if 105 ≤ t || (was = 3 && 103 < t) then 3 else if 95 ≤ t then 2 else if 85 ≤ t then 1 else 0

/-- A percentage held in quarters as `CAP` shows it: a fraction reads as either neighbour, which the spec leaves open. -/
def State.shownCap (s : State) (quarters : Nat) : Nat × State :=
  if quarters % 4 = 0 then (quarters / 4, s)
  else
    let (v, s) := s.free
    (quarters / 4 + v % 2, s)

/-- HBM_TEMP_READING. -/
def execHbmTempReading (site : SiteId) (reading : Byte) (s : State) : Out :=
  let page := pgHbmc site.val
  if s.absentPage page then .next s
  else
    let t := reading.toNat
    let was := s.getF fdHbmcThermState page
    let st := stackState was t
    let s := (s.setF fdHbmcTempNow page 0 t).setF fdHbmcTempMax page 0 (max t (s.getF fdHbmcTempMax page))
    let s := s.setF fdHbmcThermState page 0 st
    let (cap, s) := s.shownCap (s.capQuarters site.val)
    let s := s.setF fdHbmcThermCap page 0 cap
    let since := if st = 3 then if was = 3 then mapGet 0 s.hbm.hardSince site.val else s.now + 1 else 0
    let s := { s with hbm := { s.hbm with hardSince := mapPut 0 s.hbm.hardSince site.val since } }
    .next (if st = was then s else s.event page 0 (some 5) 0x0110 st t)

/-! ### Evacuation (R277–R279) -/

/-- EVAC_REQUEST. -/
def execEvacRequest (site : SiteId) (ch : Fin 32) (s : State) : Out :=
  if s.absentPage (pgHbmc site.val) then .next s else .next (s.requestEvac site.val ch.val)

/-- 2 GiB. -/
def channelSize : Nat := 0x80000000

/-- A job has an open context on the node. -/
def State.jobOpen (s : State) (job : Nat) : Bool := allCtxs.any fun c => (s.ctx c).isOpen && (s.ctx c).job = job

/-- Bytes of polder p at or above an offset. -/
def State.polderAbove (s : State) (p off : Nat) : Nat :=
  let b := s.getF fdMemmapPolderBase pgMemmap p * 2 ^ 30
  let e := b + s.getF fdMemmapPolderSize pgMemmap p * 2 ^ 30
  e - max b off

/-- No polder over the freed range belongs to a running job (R277 step 1). -/
def State.rangeFree (s : State) (off : Nat) : Bool :=
  (List.range 16).all fun p => s.polderAbove p off = 0 || !s.jobOpen (s.getF fdMemmapPolderJob pgMemmap p)

/-- TOP falls by 2 GiB, and each polder over the freed range shrinks by its overlap (R277 step 2). -/
def State.lowerTop (s : State) : State :=
  let top := s.getF fdMemmapTop pgMemmap - channelSize
  let s := s.forEach (List.range 16) fun p s =>
    s.setF fdMemmapPolderSize pgMemmap p
      (s.getF fdMemmapPolderSize pgMemmap p - s.polderAbove p top / 2 ^ 30)
  s.setF fdMemmapTop pgMemmap 0 top

/-- EVAC_START: steps 2 and 3 begin once the freed range holds no running job; one copy at a time. -/
def execEvacStart (site : SiteId) (ch : Fin 32) (s : State) : Out :=
  let key := site.val * 32 + ch.val
  if s.hbm.evacQueue.contains key && s.getF fdMemmapEvacBusy pgMemmap = 0 &&
      s.rangeFree (s.getF fdMemmapTop pgMemmap - channelSize) then
    let s := { s with hbm := { s.hbm with evacQueue := s.hbm.evacQueue.erase key } }
    let s := (s.setF fdHbmcChEvacPending (pgHbmc site.val) ch.val 0).lowerTop
    let s := s.event (pgHbmc site.val) 0 (some 6) 0x0111 key 2
    let s := (s.setF fdMemmapEvacBusy pgMemmap 0 1).setF fdMemmapEvacCh pgMemmap 0 key
    .next (s.event (pgHbmc site.val) 0 (some 6) 0x0111 key 3)
  else .next s

/-- EVAC_COPY_DONE: the channel leaves service (step 4); six map-outs are a WATCH condition (R455). -/
def execEvacCopyDone (site : SiteId) (ch : Fin 32) (s : State) : Out :=
  let key := site.val * 32 + ch.val
  let page := pgHbmc site.val
  if s.getF fdMemmapEvacBusy pgMemmap = 1 && s.getF fdMemmapEvacCh pgMemmap = key then
    let s := s.setF fdHbmcChInService page 0 (putBits (s.getF fdHbmcChInService page) ch.val ch.val 0)
    let s := (s.addF fdMemmapMapouts pgMemmap 0 1).setF fdMemmapEvacBusy pgMemmap 0 0
    let s := s.event page 0 (some 6) 0x0111 key 4
    let s := { s with hbm := { s.hbm with mappedOut := s.hbm.mappedOut ++ [key] } }
    .next (if 6 ≤ s.getF fdMemmapMapouts pgMemmap then s.raiseSpare 1 else s)
  else .next s

end Sys2Proof.Machine
end

