-- ==== Sys2Proof/Machine/Gf.lean ====
section
/-! DEFINITION. Arithmetic in GF(2⁸) with the polynomial 0x11D, of the checkpoint parity (R419) and of the flits' FEC (R293). -/
namespace Sys2Proof.Machine

/-- Product with 2 in GF(2⁸) under 0x11D. -/
def gfDouble (a : Nat) : Nat := if 128 ≤ a then (2 * a) ^^^ 0x11D else 2 * a

/-- Product of `a` with 2ⁿ. -/
def gfShift (a : Nat) : Nat → Nat
  | 0 => a
  | n + 1 => gfDouble (gfShift a n)

/-- Product in GF(2⁸). -/
def gfMul (a b : Nat) : Nat :=
  (List.range 8).foldl (fun acc i => if bitAt b i then acc ^^^ gfShift a i else acc) 0

/-- Inverse in GF(2⁸): the 254th power. -/
def gfInv (a : Nat) : Nat := (List.range 253).foldl (fun acc _ => gfMul acc a) a

end Sys2Proof.Machine
end

