-- ==== Sys2Proof/Machine/Ckpt.lean ====
section
/-! DEFINITION. Checkpoints (R410–R432): marks, the sweep and its promotions, pieces and manifests to the peers, drains to storage, and
restores. -/
namespace Sys2Proof.Machine

/-! ### Descriptors (R410–R412) -/

/-- A checkpoint run of a context. -/
def State.ckpt (s : State) (c : Nat) : CkptRun := mapGet {} s.ckpts c

/-- A checkpoint run replaced. -/
def State.setCkpt (s : State) (c : Nat) (r : CkptRun) : State := { s with ckpts := mapPut {} s.ckpts c r }

/-- A descriptor as its header and range bytes give it. -/
def readCkptDesc (bs : List Byte) : CkptDesc :=
  let f := leField bs
  { version := f 0 2, k := f 3 1, m := f 4 1, drain := bitAt (f 5 1) 0, sm4 := bitAt (f 5 1) 1, d4 := bitAt (f 5 1) 2,
    group := f 6 2, pstore := f 8 8, pslen := f 16 8, clog := f 24 8, qpn := f 32 4, rkey := f 36 4, rbase := f 40 8,
    rstride := f 48 8, keyslot := f 56 1, rate := f 57 1,
    ranges := (List.range (f 2 1)).map fun i => (f (64 + 16 * i) 8, f (72 + 16 * i) 4, f (76 + 16 * i) 4),
    reserved := bits (f 5 1) 7 3 ≠ 0 || f 58 6 ≠ 0 }

/-- The descriptor at an offset, and whether it is poisoned. -/
def State.ckptDesc (s : State) (off : Nat) : State × CkptDesc × Bool :=
  let (s, n) := s.readNat (off + 2) 1
  let (s, bs, p) := s.engineRead off (64 + 16 * n)
  (s, readCkptDesc bs, p)

/-- Stripe-set stride D. -/
def CkptDesc.stride (d : CkptDesc) : Nat := if d.d4 then 4 else 1

/-- T = K + M + 1 (R419). -/
def CkptDesc.members (d : CkptDesc) : Nat := d.k + d.m + 1

/-- SETDIGEST (R411). -/
def CkptDesc.digest (d : CkptDesc) : Nat :=
  Config.sm3 (leBytes 1 d.k ++ leBytes 1 d.m ++ leBytes 1 d.ranges.length ++
    d.ranges.flatMap fun r => leBytes 8 r.1 ++ leBytes 4 r.2.1 ++ leBytes 4 r.2.2)

/-- A connected or erring data queue pair of a context (R412). -/
def State.dataQp (s : State) (c qpn : Nat) : Bool :=
  let x := mapGet {} s.qps (qpn - 2)
  2 ≤ qpn && qpn - 2 < 4096 && x.kind = 2 && x.owner = c

/-- Some field of a descriptor is out of range (R410, R412). -/
def CkptDesc.outOfRange (d : CkptDesc) : Bool :=
  d.reserved || d.version ≠ 1 || d.ranges.length = 0 || 64 < d.ranges.length || d.k = 0 || 6 < d.k || d.m = 0 || 2 < d.m ||
    d.pstore % 65536 ≠ 0 || d.rate = 0 || 64 < d.rate || d.ranges.any fun r => r.1 % 65536 ≠ 0

/-- A descriptor that breaks R412. -/
def State.ckptBad (s : State) (c : Nat) (d : CkptDesc) : Bool :=
  d.outOfRange ||
    (d.ranges.any fun r => !s.inPolders c r.1 (r.2.1 * 65536) ||
      (r.1 < d.pstore + d.pslen && d.pstore < r.1 + r.2.1 * 65536)) ||
    ((s.groupOf c d.group).elim true fun e => grpMembers e % (d.stride * d.members) ≠ 0) ||
    d.pslen < 2 * d.slotLen ||
    (d.drain && (d.rstride < 4096 + (d.k + d.m) * (d.pieceLen + 4096) || !s.dataQp c d.qpn)) ||
    (d.sm4 && !bitAt (s.ctx c).features 6)

/-! ### The log (R426) -/

/-- A record joins the log, and the head word advances. -/
def State.clog (s : State) (c : Nat) (d : CkptDesc) (heat outcome stage promos sent : Nat) : State :=
  let now := s.now
  let (s, head) := s.readNat d.clog 8
  let r := leBytes 8 heat ++ leBytes 1 outcome ++ leBytes 1 stage ++ leBytes 2 0 ++ leBytes 4 promos ++ leBytes 8 now ++ leBytes 8 sent
  let s := s.engineWrite (engineOf c) (d.clog + 64 + head % 16 * 32) r
  (s.engineWrite (engineOf c) d.clog (leBytes 8 (head + 1))).setF fdCkptCtxLast pgCkpt c outcome

/-- `CTX[c].STATE` as what runs gives it (R432). -/
def State.ckptShow (s : State) (c : Nat) : State :=
  let r := s.ckpt c
  s.setF fdCkptCtxState pgCkpt c (if r.active then 1 else if r.restore.isSome then 3 else if r.draining.isEmpty then 0 else 2)

/-! ### Marks and the sweep map (R413–R418) -/

/-- The granules of the image, in image order: index, start and length. -/
def CkptDesc.granules (d : CkptDesc) : List (Nat × Nat × Nat) :=
  let starts := d.ranges.flatMap fun r => (List.range r.2.1).map fun i => r.1 + i * 65536
  starts.zipIdx.map fun (a, i) => (i, a, 65536)

/-- Held writes and atomics that touch no unreached granule any more go on (R417). -/
def State.ckptRelease (s : State) : State :=
  let free := s.ckptHeld.filter fun rq => (s.unreachedBy rq.off rq.len).isEmpty
  let s := { s with ckptHeld := s.ckptHeld.filter fun rq => !(s.unreachedBy rq.off rq.len).isEmpty }
  s.forEach free fun rq s => s.order rq

/-- Promotions in flight as `PROMO.INFLIGHT` shows them. -/
def State.promoShow (s : State) : State := s.setF fdCkptPromoInflight pgCkpt 0 (min 16 s.promos.length)

/-- The map is disarmed, hold slots are freed and held writes released (R418). -/
def State.ckptDisarm (s : State) (c : Nat) : State :=
  let r := s.ckpt c
  let s := s.setCkpt c { r with active := false, unreached := [], data := [], holds := [], handed := false }
  let s := s.setF fdCkptHoldUsed pgCkpt 0 (s.getF fdCkptHoldUsed pgCkpt - r.holds.length)
  (({ s with promos := s.promos.filter fun x => x.1 ≠ c }).promoShow).ckptRelease

/-- Stage one ends with an outcome. -/
def State.ckptEnd (s : State) (c outcome : Nat) : State :=
  let r := s.ckpt c
  ((s.clog c r.desc r.heat outcome 1 r.promotions r.sent).ckptDisarm c).ckptShow c

/-- A mark at the commit of a heat (R413, R415): recorded as SKIPPED while an earlier stage one runs, and as BAD_SET where the
descriptor breaks R412; else the sweep map is armed. -/
def State.ckptMark (s : State) (c off heat : Nat) : State :=
  let s := s.trace 19 c heat (s.getF fdSchedCtxAttempt pgSched c)
  let (s, d, bad) := s.ckptDesc off
  let r := s.ckpt c
  if bad then s.detect pgSched 8 { code := 0x0031, ctx := if h : c < 16 then some ⟨c, h⟩ else none, addr := BitVec.ofNat 64 off }
  else if r.active then s.clog c d heat 1 1 0 0
  else if s.ckptBad c d then s.clog c d heat 6 1 0 0
  else
    let r' : CkptRun :=
      { active := true, desc := d, heat := heat, marked := s.now, unreached := d.granules, draining := r.draining,
        drainBytes := r.drainBytes }
    ((s.setCkpt c r').setF fdCkptCtxHeat pgCkpt c heat).ckptShow c

/-! ### Pieces (R419–R423) -/

/-- Two byte lists added in GF(2⁸). -/
def gfAdd (a b : List Byte) : List Byte := a.zipWith (· ^^^ ·) b

/-- A byte list scaled. -/
def gfScale (f : Nat) (a : List Byte) : List Byte := a.map fun x => BitVec.ofNat 8 (gfMul x.toNat f)

/-- Granules of a piece. -/
def CkptDesc.pieceGranules (d : CkptDesc) (j : Nat) : List Nat :=
  let n := d.pieceLen / 65536
  upFrom (j * n) n

/-- Piece j as far as the engine read its granules; the tail is zeros. -/
def CkptRun.dataPiece (r : CkptRun) (j : Nat) : List Byte :=
  (r.desc.pieceGranules j).flatMap fun g => (r.data.find? fun x => x.1 = g).elim (zeros 65536) (·.2)

/-- Piece j: data, P or Q (R419). -/
def CkptRun.piece (r : CkptRun) (j : Nat) : List Byte :=
  let d := r.desc
  if j < d.k then r.dataPiece j
  else
    let q := j ≠ d.k
    (List.range d.k).foldl (fun acc i => gfAdd acc (if q then gfScale (gfShift 1 i) (r.dataPiece i) else r.dataPiece i))
      (zeros d.pieceLen)

/-- A data piece whose granules have all been reached. -/
def CkptRun.pieceReady (r : CkptRun) (j : Nat) : Bool :=
  !(r.unreached.any fun u => (r.desc.pieceGranules j).contains u.1)

/-- The rank that holds piece j of rank r (R419). -/
def CkptDesc.holder (d : CkptDesc) (r j : Nat) : Nat :=
  let i := r / d.stride % d.members
  r - d.stride * i + d.stride * ((i + 1 + j) % d.members)

/-- The rank whose piece j rank r holds. -/
def CkptDesc.sourceOf (d : CkptDesc) (r j : Nat) : Nat :=
  let i := r / d.stride % d.members
  r - d.stride * i + d.stride * ((i + 2 * d.members - 1 - j) % d.members)

/-- The first 64 bytes of a shard header or manifest (R422, R423). -/
def State.shardHead (s : State) (c : Nat) (r : CkptRun) (pos rank nmemb : Nat) : List Byte :=
  let d := r.desc
  leBytes 4 0x5A434B53 ++ leBytes 2 1 ++ leBytes 1 pos ++ leBytes 1 d.k ++ leBytes 1 d.m ++ leBytes 3 0 ++ leBytes 4 rank ++
    leBytes 8 r.heat ++ leBytes 4 ((s.ctx c).job + (s.ctx c).gen * 2 ^ 20) ++ leBytes 4 nmemb ++ digestBytes d.digest

/-- A byte list of `n` bytes: cut, or filled with zeros. -/
def fitTo (n : Nat) (bs : List Byte) : List Byte := (bs ++ zeros (n - bs.length)).take n

/-- The 4 KiB header block of a shard (R422). -/
def State.shardHeader (s : State) (c : Nat) (r : CkptRun) (j rank nmemb : Nat) (payload : List Byte) : List Byte :=
  let head := s.shardHead c r j rank nmemb ++ leBytes 8 r.desc.pieceLen ++ digestBytes (Config.sm3 payload)
  fitTo 4096 (fitTo 120 head ++ leBytes 8 r.marked)

/-- The manifest of a checkpoint (R423). -/
def State.manifest (s : State) (c : Nat) (r : CkptRun) (e rank : Nat) : List Byte :=
  let d := r.desc
  let x := s.reproOf c
  let front := s.shardHead c r 0xFF rank (grpMembers e) ++ digestBytes x.graph ++ leBytes 8 x.groups ++ leBytes 8 s.now ++
    leBytes 2 r.poison.length
  let rows := (List.range (d.k + d.m)).flatMap fun j =>
    leBytes 4 (Config.memberNode e (d.holder rank j)) ++ leBytes 4 j ++ leBytes 8 d.pieceLen ++
      digestBytes (Config.sm3 (r.piece j)) ++ leBytes 8 (4096 + j * (d.pieceLen + 4096)) ++ leBytes 8 0
  let body := fitTo 640 (fitTo 128 front ++ rows) ++ fitTo 512 (r.poison.flatMap (leBytes 8)) ++
    (leBytes 64 Config.identityKey).reverse ++ digestBytes Config.identityCert ++ leBytes 8 0
  let signed := fitTo 1256 body
  fitTo 4096 (signed ++ fitTo 64 (Config.sm2Sign Config.identityKey (digestBytes (Config.sm3 signed))))

/-- A heat that a peer store slot's shards carry, plus 1; 0 where it is empty (R421). -/
def State.slotHeat (s : State) (d : CkptDesc) (sl : Nat) : Nat :=
  (List.range (d.k + d.m)).foldl (fun h j =>
    let a := d.pstore + sl * d.slotLen + j * (d.pieceLen + 8192) + 4096
    if s.loadNat a 4 = 0x5A434B53 then max h (s.loadNat (a + 16) 8 + 1) else h) 0

/-- The slot for shards of a heat (R421). -/
def State.storeSlot (s : State) (d : CkptDesc) (heat : Nat) : Nat :=
  let a := s.slotHeat d 0
  let b := s.slotHeat d 1
  if a = heat + 1 then 0 else if b = heat + 1 then 1 else if b < a then 1 else 0

/-- Bytes go to a peer as WRITEs of 256 B on one flow (R420). -/
def State.ckptSend (s : State) (c node off : Nat) (bs : List Byte) : State :=
  s.forEach (List.range ((bs.length + 255) / 256)) fun i s =>
    let part := (bs.drop (256 * i)).take 256
    let r := s.ckpt c
    match s.issue c 8 kWRITE node (off + 256 * i) part.length (.ckpt c) fun pk => { pk with payload := part } with
    | .ok s => s.setCkpt c { s.ckpt c with outstanding := r.outstanding + 1, sent := r.sent + part.length }
    | .error _ => s.setCkpt c { r with failed := true }

/-- Piece j goes to its holder: header block, then payload. -/
def State.sendPiece (s : State) (c e j : Nat) : State :=
  let r := s.ckpt c
  let d := r.desc
  let rank := grpRank e
  let at' := d.pstore + s.storeSlot d r.heat * d.slotLen + j * (d.pieceLen + 8192)
  let node := Config.memberNode e (d.holder rank j)
  let payload := r.piece j
  (s.ckptSend c node (at' + 4096) (s.shardHeader c r j rank (grpMembers e) payload)).ckptSend c node (at' + 8192) payload

/-- Manifest copies go to every holder, behind their shards. -/
def State.sendManifests (s : State) (c e : Nat) : State :=
  let r := s.ckpt c
  let d := r.desc
  let m := s.manifest c r e (grpRank e)
  s.forEach (List.range (d.k + d.m)) fun j s =>
    s.ckptSend c (Config.memberNode e (d.holder (grpRank e) j))
      (d.pstore + s.storeSlot d r.heat * d.slotLen + j * (d.pieceLen + 8192)) m

/-- Pieces that have become complete are sent, and behind the last of them parity and manifests; a hold slot is freed once its
granule's piece has been sent (R418–R420). -/
def State.ckptPush (s : State) (c : Nat) : State :=
  let r := s.ckpt c
  let d := r.desc
  match s.groupOf c d.group with
  | none => s.setCkpt c { r with failed := true }
  | some e =>
    let due := (List.range d.k).filter fun j => r.pieceReady j && !r.sentPieces.contains j
    let s := s.forEach due fun j s => s.sendPiece c e j
    let r := s.ckpt c
    let freed := r.holds.filter fun g => due.any fun j => (d.pieceGranules j).contains g
    let s := s.setCkpt c { r with sentPieces := r.sentPieces ++ due, holds := r.holds.filter fun g => !freed.contains g }
    let s := s.setF fdCkptHoldUsed pgCkpt 0 (s.getF fdCkptHoldUsed pgCkpt - freed.length)
    let r := s.ckpt c
    if r.sentPieces.length = d.k && !r.handed then
      let s := s.forEach ((List.range d.m).map (d.k + ·)) fun j s => s.sendPiece c e j
      let s := s.sendManifests c e
      s.setCkpt c { s.ckpt c with handed := true }
    else s

/-- 64 KiB charged to the polder that holds an offset (R266). -/
def State.chargeSweep (s : State) (off : Nat) (write : Bool) : State :=
  match s.polderOf off with
  | none => s
  | some p =>
    let s := s.chargeWindow off p 65536 write
    if s.bucketRate p write = 1024 then s else s.chargeBucket (s.siteOf off) p 65536 write

/-- A granule is read and reached: a poisoned line reads as zeros and joins the poison list, more than 64 of which end the
checkpoint (R416, R423). -/
def State.reachGranule (s : State) (c g start : Nat) (hold : Bool) : State :=
  let (s, bs, _) := (s.chargeSweep start false).engineRead start 65536
  let bad := (List.range 512).filter fun i => s.linesPoisoned (start + 128 * i) 1
  let bs := bad.foldl (fun (b : List Byte) i => b.take (128 * i) ++ zeros 128 ++ b.drop (128 * i + 128)) bs
  let r := s.ckpt c
  let s := s.setCkpt c { r with
    unreached := r.unreached.filter fun u => u.1 ≠ g
    data := r.data ++ [(g, bs)]
    holds := if hold then r.holds ++ [g] else r.holds
    poison := r.poison ++ bad.map fun i => g * 65536 + 128 * i }
  let s := (({ s with promos := s.promos.filter fun x => x ≠ (c, g) }).promoShow).ckptRelease
  if 64 < (s.ckpt c).poison.length then s.ckptEnd c 4 else s.ckptPush c

/-- CKPT_SWEEP_READ: the engine reads the next unreached granule in image order. -/
def State.ckptSweep (s : State) (c : Nat) : State :=
  let r := s.ckpt c
  match r.unreached with
  | (g, a, _) :: _ => if r.active then s.reachGranule c g a false else s
  | [] => s

/-- CKPT_PROMOTION_DONE: one of the 16 promotions in flight completes; a full hold area ends the checkpoint with OVERFLOW (R418). -/
def State.promoDone (s : State) (c g : Nat) : State :=
  let r := s.ckpt c
  if !((s.promos.take 16).contains (c, g)) then s
  else match r.unreached.find? fun u => u.1 = g with
    | none => s
    | some (_, a, _) =>
      if s.getF fdCkptHoldUsed pgCkpt = 16384 then s.ckptEnd c 2
      else
        let s := (s.addF fdCkptHoldUsed pgCkpt 0 1).addF fdCkptPromoCount pgCkpt 0 1
        let s := s.setCkpt c { r with promotions := r.promotions + 1 }
        (s.chargeSweep 0 true).reachGranule c g a true

/-- CKPT_STAGE_ONE_END: a failed write ends stage one INCOMPLETE, and completion at every holder ends it OK (R420). -/
def State.stageOneEnd (s : State) (c : Nat) : State :=
  let r := s.ckpt c
  if !r.active then s
  else if r.failed then s.ckptEnd c 3
  else if r.handed && r.outstanding = 0 then s.ckptEnd c 0
  else s

/-- A teardown abandons a context's checkpoint (R418, R432). -/
def State.ckptAbandon (s : State) (c : Nat) : State :=
  let s := if (s.ckpt c).active then s.ckptEnd c 5 else s
  let r := s.ckpt c
  (s.setCkpt c { desc := r.desc }).setF fdCkptCtxState pgCkpt c 0

/-- A CKPT_REQUEST: 0, or the status that refuses it (R412–R414). -/
def State.ckptRequest (s : State) (c off heat : Nat) : State × Nat :=
  let (s, d, _) := s.ckptDesc off
  let r := s.ckpt c
  if s.ckptBad c d then (s, 0x40)
  else if heat ≤ s.getF fdSchedCtxHeat pgSched c then (s, 0x41)
  else if r.request.isSome then (s, 0x42)
  else (s.setCkpt c { r with request := some (off, heat) }, 0)

/-! ### Stage two (R424, R425) -/

/-- A RoCEv2 request of the node on a data queue pair: kept until acknowledged. -/
def State.qpSend (s : State) (qpn op va rkey : Nat) (data : List Byte) : State :=
  let x := s.qp (qpn - 2)
  (s.setQp (qpn - 2) { x with sends := x.sends ++ [(op, va, rkey, data)] }).ethSend (qpn - 2) (.rdma (qpn - 2) op va rkey data)

/-- What a holder has of piece j in a slot: the source's rank and heat where a shard and a manifest of one heat lie there. -/
def State.heldShard (s : State) (d : CkptDesc) (sl j : Nat) : Option (Nat × Nat) :=
  let a := d.pstore + sl * d.slotLen + j * (d.pieceLen + 8192)
  let m := s.bytes a 64
  let h := s.bytes (a + 4096) 64
  if leField m 0 4 = 0x5A434B53 && leField h 0 4 = 0x5A434B53 && leField m 6 1 = 0xFF && leField h 6 1 = j &&
      leField m 12 12 = leField h 12 12 then some (leField h 12 4, leField h 16 8)
  else none

/-- The slot holds a shard and a manifest of one heat from each of its K + M sources. -/
def State.slotComplete (s : State) (d : CkptDesc) (sl : Nat) : Bool :=
  let all := (List.range (d.k + d.m)).map fun j => s.heldShard d sl j
  all.all fun x => x.isSome && x.map (·.2) = (all.headD none).map (·.2)

/-- A key slot that serves a context's job (R489). -/
def State.keyFor (s : State) (c k : Nat) : Option KeySlot :=
  let x := mapGet {} s.keys k
  if k < 16 && x.full && x.job = (s.ctx c).job then some x else none

/-- One shard goes to storage (R424, R425): header and payload, encrypted where SM4 is set, and the manifest for piece 0. -/
def State.drainShard (s : State) (c sl j : Nat) : State :=
  let d := (s.ckpt c).desc
  let a := d.pstore + sl * d.slotLen + j * (d.pieceLen + 8192)
  let (s, man, _) := s.engineRead a 4096
  let (s, head, _) := s.engineRead (a + 4096) 4096
  let (s, body, _) := s.engineRead (a + 8192) d.pieceLen
  let key := mapGet {} s.keys d.keyslot
  let iv := s.nodeId + key.count * 2 ^ 32
  let sub := Config.subkey key.key key.salt
  let head' := if d.sm4 then
      head.take 9 ++ [1] ++ (head.drop 10).take 94 ++ fitTo 16 (Config.sm4Tag sub iv body) ++ (head.drop 120).take 8 ++
        (leBytes 16 key.salt).reverse ++ leBytes 12 iv ++ head.drop 156
    else head
  let body' := if d.sm4 then Config.sm4 sub iv body else body
  let s := if d.sm4 then { s with keys := mapPut {} s.keys d.keyslot { key with count := key.count + 1 } } else s
  let base := d.rbase + leField head 12 4 * d.rstride
  let at' := base + 4096 + j * (d.pieceLen + 4096)
  let s := (s.qpSend d.qpn 0 at' d.rkey head').qpSend d.qpn 0 (at' + 4096) d.rkey body'
  let s := if j = 0 then s.qpSend d.qpn 0 base d.rkey man else s
  let r := s.ckpt c
  s.setCkpt c { r with drainBytes := r.drainBytes + 4096 + d.pieceLen + (if j = 0 then 4096 else 0) }

/-- A stage-two record, and the slot is free again. -/
def State.drainRecord (s : State) (c sl outcome : Nat) : State :=
  let r := s.ckpt c
  let s := s.clog c r.desc (s.slotHeat r.desc sl - 1) outcome 2 0 r.drainBytes
  (s.setCkpt c { s.ckpt c with draining := r.draining.filter fun x => x ≠ sl, drainBytes := 0 }).ckptShow c

/-- CKPT_DRAIN_START (R424, R489). -/
def State.drainStart (s : State) (c sl : Nat) : State :=
  let r := s.ckpt c
  let d := r.desc
  if !d.drain || r.draining.contains sl || !s.slotComplete d sl then s
  else
    let s := (s.setCkpt c { r with draining := r.draining ++ [sl] }).ckptShow c
    if d.sm4 && (s.keyFor c d.keyslot).isNone then s.drainRecord c sl 7
    else s.forEach (List.range (d.k + d.m)) fun j s => s.drainShard c sl j

/-- CKPT_DRAIN_END: every write completed, or the queue pair is in error. -/
def State.drainEnd (s : State) (c : Nat) (ok : Bool) : State :=
  let r := s.ckpt c
  let x := mapGet {} s.qps (r.desc.qpn - 2)
  match r.draining with
  | [] => s
  | sl :: _ => if ok then (if x.sends.isEmpty then s.drainRecord c sl 0 else s)
      else if x.state = 3 then s.drainRecord c sl 7 else s

/-! ### Restore (R428–R430) -/

/-- What a member finds of piece j in a slot of its peer store: 0 nothing, 1 a shard of the job that does not match, 2 a verified
shard, 3 a verified shard and manifest. -/
def State.shardFound (s : State) (c : Nat) (d : CkptDesc) (e sl j : Nat) : Nat :=
  let a := d.pstore + sl * d.slotLen + j * (d.pieceLen + 8192)
  let man := s.bytes a 4096
  let h := s.bytes (a + 4096) 128
  let matches' := fun (b : List Byte) => leField b 0 4 = 0x5A434B53 && leField b 4 2 = 1 && leField b 7 1 = d.k && leField b 8 1 = d.m &&
    leField b 28 4 = grpMembers e && (b.drop 32).take 32 = digestBytes d.digest
  if leField h 0 4 ≠ 0x5A434B53 || leField h 24 4 % 2 ^ 20 ≠ (s.ctx c).job then 0
  else if !(matches' h && (h.drop 72).take 32 = digestBytes (Config.sm3 (s.bytes (a + 8192) d.pieceLen))) then 1
  else
    let key := leNat ((man.drop 1152).take 64).reverse
    if matches' man && leField man 6 1 = 0xFF && leField man 16 8 = leField h 16 8 &&
        Config.sm2Verify key (digestBytes (Config.sm3 (man.take 1256))) ((man.drop 1256).take 64) then 3 else 1

/-- The 64 B candidate record of a PEER restore: for each slot, the heat plus 1, a bitmap of the pieces verified, and whether a shard of
the job was found that does not match. R428 gives no layout for it (DESIGN CHOICE, log entry 9). -/
def State.peerCandidate (s : State) (c : Nat) (d : CkptDesc) (e : Nat) : List Byte :=
  fitTo 64 ((List.range 2).flatMap fun sl =>
    let f := (List.range (d.k + d.m)).map fun j => s.shardFound c d e sl j
    let mask := f.zipIdx.foldl (fun a (x, j) => if x = 3 then a + 2 ^ j else a) 0
    leBytes 8 (s.slotHeat d sl) ++ leBytes 1 mask ++ leBytes 1 (f.contains 1).toNat ++ zeros 22)

/-- The checks of a RESTORE after those of the capsule: 0, or the status that refuses it (R414, R428). -/
def State.restoreCheck (s : State) (c off : Nat) (storage : Bool) : State × CkptDesc × Nat :=
  let (s, d, _) := s.ckptDesc off
  let r := s.ckpt c
  if s.ctxState c ≠ csIdle || r.active || r.restore.isSome then (s, d, 0x42)
  else if s.ckptBad c d then (s, d, 0x40)
  else if storage && d.sm4 && (s.keyFor c d.keyslot).isNone then (s, d, 0x46)
  else (s, d, 0)

/-- A restore starts: what the node holds is verified, and its candidate record goes to the exchange. What storage holds comes over
RoCEv2, which no command brings back: a STORAGE record's contents are free (log entry 10). -/
def State.restoreStart (s : State) (c q tag : Nat) (d : CkptDesc) (storage : Bool) (regions : List (Nat × Nat × Nat × Nat)) :
    State :=
  let e := (s.groupOf c d.group).getD 0
  let r := s.ckpt c
  let s := s.setCkpt c { r with
    desc := d
    failed := false
    restore := some { q := q, tag := tag, storage := storage, regions := regions } }
  let s := s.ckptShow c
  if storage then
    s.forEach regions fun (qpn, rkey, rbase, rstride) s => s.qpSend qpn 1 (rbase + grpRank e * rstride) rkey []
  else s.emit (.candidate c (s.peerCandidate c d e))

/-- Slots of a member's PEER record: heat plus 1 and piece bitmap. -/
def candidateSlots (b : List Byte) : List (Nat × Nat) := [(leField b 0 8, leField b 8 1), (leField b 32 8, leField b 40 1)]

/-- Verified pieces of rank r at a heat, as the members' records give them: piece and the holder's slot. -/
def CkptDesc.found (d : CkptDesc) (records : List (List Byte)) (r heat : Nat) : List (Nat × Nat) :=
  (List.range (d.k + d.m)).filterMap fun j =>
    ((candidateSlots (records.getD (d.holder r j) [])).findIdx? fun x => x.1 = heat + 1 && bitAt x.2 j).map fun sl => (j, sl)

/-- Heats of the records, each once, newest first. -/
def candidateHeats (storage : Bool) (records : List (List Byte)) : List Nat :=
  let hs := records.flatMap fun b =>
    if storage then (List.range 8).map fun i => leField b (8 * i) 8 else (candidateSlots b).map (·.1)
  sortBy (fun a b => b ≤ a) ((hs.filter (· ≠ 0)).map (· - 1)).eraseDups

/-- A heat is complete: every rank has a manifest and K shards verified at it. -/
def CkptDesc.complete (d : CkptDesc) (storage : Bool) (records : List (List Byte)) (n heat : Nat) : Bool :=
  (List.range n).all fun r =>
    if storage then (List.range 8).any fun i => leField (records.getD r []) (8 * i) 8 = heat + 1
    else d.k ≤ (d.found records r heat).length

/-- A restore ends with a status. -/
def State.restoreEnd (s : State) (c code detail : Nat) (body : List Byte) : State :=
  let r := s.ckpt c
  match r.restore with
  | none => s
  | some x =>
    let s := (s.setCkpt c { r with restore := none, failed := false }).ckptShow c
    s.answerBusy x.q { op := 0x31, tag := x.tag, ctx := c, code := code, detail := detail, body := body }

/-- READs of a byte range of a holder (R430). -/
def State.fetchRange (s : State) (c node piece off from' len : Nat) : State :=
  s.forEach (List.range ((len + 255) / 256)) fun i s =>
    match s.issue c 8 kREAD node (from' + 256 * i) (min 256 (len - 256 * i)) (.restore c piece (off + 256 * i)) id with
    | .ok s => s.setCkpt c { s.ckpt c with outstanding := (s.ckpt c).outstanding + 1 }
    | .error _ => s.setCkpt c { s.ckpt c with failed := true }

/-- RESTORE_CANDIDATES: the members' records, by rank. Every member chooses the newest complete heat, or fails (R428, R429); a member
that did not join ends the restore (R430). -/
def State.restoreChoose (s : State) (c : Nat) (records : List (List Byte)) : State :=
  let r := s.ckpt c
  let d := r.desc
  match r.restore with
  | none => s
  | some x =>
    let e := (s.groupOf c d.group).getD 0
    let n := grpMembers e
    if x.heat ≠ 0 then s
    else if records.length < n then (s.restoreEnd c 0x45 0 []).jobFatal c 0x0102 0 0
    else
      let heats := candidateHeats x.storage records
      match heats.find? fun h => d.complete x.storage records n h with
      | none =>
        let odd := records.any fun b => !x.storage && (leField b 9 1 ≠ 0 || leField b 41 1 ≠ 0)
        if heats.isEmpty && odd then s.restoreEnd c 0x44 0 []
        else s.restoreEnd c 0x43 (min 28 heats.length) ((heats.take 28).flatMap (leBytes 8))
      | some h =>
        let rank := grpRank e
        let pieces := if x.storage then List.range d.k |>.map fun j => (j, 0) else (d.found records rank h).take d.k
        let s := s.setCkpt c { r with restore := some { x with heat := h + 1, pieces := pieces.map (·.1) } }
        if x.storage then s
        else
          let place := fun (j sl : Nat) => d.pstore + sl * d.slotLen + j * (d.pieceLen + 8192)
          let s := s.forEach pieces fun (j, sl) s =>
            s.fetchRange c (Config.memberNode e (d.holder rank j)) j 0 (place j sl + 8192) d.pieceLen
          match pieces with
          | (j, sl) :: _ => s.fetchRange c (Config.memberNode e (d.holder rank j)) 255 0 (place j sl) 4096
          | [] => s

/-- The bytes fetched of a piece. -/
def Restore.piece (x : Restore) (j len : Nat) : List Byte :=
  x.fetched.foldl (fun acc (p, off, bs) => if p = j then acc.take off ++ bs ++ acc.drop (off + bs.length) else acc) (zeros len)

/-- A missing data piece from P: the sum of P and the other data pieces. -/
def sumPieces (len : Nat) (ps : List (List Byte)) : List Byte := ps.foldl gfAdd (zeros len)

/-- The data pieces of an image from K pieces of it (R419, R430). `have'` gives a piece's bytes where it was fetched. -/
def rebuild (k len : Nat) (have' : Nat → Option (List Byte)) : List (List Byte) :=
  let lost := (List.range k).filter fun j => (have' j).isNone
  let known := (List.range k).filterMap fun j => (have' j).map fun b => (j, b)
  let pSum := fun p => sumPieces len (p :: known.map (·.2))
  let qSum := fun q => sumPieces len (q :: known.map fun (j, b) => gfScale (gfShift 1 j) b)
  let fixed : List (Nat × List Byte) :=
    match lost, have' k, have' (k + 1) with
    | [a], some p, _ => [(a, pSum p)]
    | [a], none, some q => [(a, gfScale (gfInv (gfShift 1 a)) (qSum q))]
    | [a, b], some p, some q =>
      let x := pSum p
      let y := qSum q
      let den := gfInv (gfShift 1 a ^^^ gfShift 1 b)
      let da := gfScale den (gfAdd y (gfScale (gfShift 1 b) x))
      [(a, da), (b, gfAdd x da)]
    | _, _, _ => []
  (List.range k).map fun j => (have' j).getD ((fixed.find? fun x => x.1 = j).elim (zeros len) (·.2))

/-- `n` free bytes. -/
def State.freeBytes (s : State) : Nat → State × List Byte
  | 0 => (s, [])
  | n + 1 =>
    let (v, s) := s.free
    let (s, bs) := s.freeBytes n
    (s, BitVec.ofNat 8 v :: bs)

/-- The ranges are written with full lines, poisoned lines as poisoned (R430). Firmware writes them, so that a write-protect entry left by
the last step does not refuse them (DEDUCED, log entry 11). -/
def State.writeImage (s : State) (d : CkptDesc) (image : List Byte) (poison : List Nat) : State :=
  s.forEach d.granules fun (i, a, n) s =>
    let s := s.engineWrite .firmware a ((image.drop (i * 65536)).take n)
    s.forEach (poison.filter fun p => i * 65536 ≤ p && p < i * 65536 + n) fun p s =>
      s.engineWrite .firmware (a + p % 65536) (zeros 128) true

/-- RESTORE_DONE: every piece has come; checked against the manifest, rebuilt and written, and HEAT is set to the chosen heat. -/
def State.restoreDone (s : State) (c : Nat) : State :=
  let r := s.ckpt c
  let d := r.desc
  match r.restore with
  | none => s
  | some x =>
    if x.heat = 0 then s
    else if r.failed then (s.restoreEnd c 0x45 0 []).jobFatal c 0x0102 0 0
    else if r.outstanding ≠ 0 then s
    else
      let n := d.granules.length * 65536
      let man := x.piece 255 4096
      let got := fun j => if x.pieces.contains j then some (x.piece j d.pieceLen) else none
      let sound := x.pieces.all fun j =>
        (man.drop (128 + 64 * j + 16)).take 32 = digestBytes (Config.sm3 (x.piece j d.pieceLen))
      if !x.storage && !sound then (s.restoreEnd c 0x45 0 []).jobFatal c 0x0102 0 0
      else
        let (s, image) := if x.storage then s.freeBytes n else (s, (rebuild d.k d.pieceLen got).flatten.take n)
        let poison := if x.storage then [] else (List.range (min 64 (leField man 112 2))).map fun i => leField man (640 + 8 * i) 8
        let s := s.writeImage d image poison
        let s := (s.setF fdSchedCtxHeat pgSched c (x.heat - 1)).setF fdCkptCtxHeat pgCkpt c (x.heat - 1)
        s.restoreEnd c 0 0 (leBytes 8 (x.heat - 1))

/-! ### The rows -/

/-- CKPT_SWEEP_READ. -/
def execCkptSweepRead (c : CtxId) (s : State) : Out := .next (s.ckptSweep c.val).finish

/-- CKPT_PROMOTION_DONE. -/
def execCkptPromotionDone (c : CtxId) (granule : Nat) (s : State) : Out := .next (s.promoDone c.val granule).finish

/-- CKPT_STAGE_ONE_END. -/
def execCkptStageOneEnd (c : CtxId) (s : State) : Out := .next (s.stageOneEnd c.val).finish

/-- CKPT_DRAIN_START. -/
def execCkptDrainStart (c : CtxId) (slot : Fin 2) (s : State) : Out := .next (s.drainStart c.val slot.val).finish

/-- CKPT_DRAIN_END. -/
def execCkptDrainEnd (c : CtxId) (ok : Bool) (s : State) : Out := .next (s.drainEnd c.val ok).finish

/-- RESTORE_CANDIDATES. -/
def execRestoreCandidates (c : CtxId) (records : List (List Byte)) (s : State) : Out :=
  .next (s.restoreChoose c.val records).finish

/-- RESTORE_DONE. -/
def execRestoreDone (c : CtxId) (s : State) : Out := .next (s.restoreDone c.val).finish

end Sys2Proof.Machine
end

