-- ==== Sys2Proof/Machine/Lsa.lean ====
section
/-! DEFINITION. The linkage solver array (R192–R213): problems on engines, contact iterations, ends, completion, deadlines, gating and
engine repair. The bits of an engine's arithmetic, which R193 and R202 do not give, are opaque functions of the operands. -/
namespace Sys2Proof.Machine

/-! ### Models and inputs (R195–R197) -/

/-- Degrees of freedom of a joint type (R196). -/
def jointDof (ty : Nat) : Nat := match ty with | 1 => 1 | 2 => 1 | 3 => 2 | 4 => 2 | 5 => 3 | 6 => 3 | 7 => 6 | _ => 0

/-- Position values of a joint type. -/
def jointPos (ty : Nat) : Nat := match ty with | 6 => 4 | 7 => 7 | n => jointDof n

/-- Joint records of a model, `nj` of them. -/
def modelJoints (bs : List Byte) (nj : Nat) : List (List Byte) := (List.range nj).map fun j => (bs.drop (64 + 256 * j)).take 256

/-- Type of a joint record. -/
def jointType (r : List Byte) : Nat := leField r 1 1

/-- A model that ends every problem with BAD_MODEL (R195). -/
def modelBad (js : List (List Byte)) : Bool :=
  js.isEmpty || js.zipIdx.any fun (r, j) =>
    let parent := leField r 0 1
    let mass := fmtFP64.decode (leField r 88 8)
    (parent ≠ 0xFF && j ≤ parent) || jointType r = 0 || 7 < jointType r ||
      (match mass with
        | .nan _ => true
        | .inf neg => neg
        | .fin neg m _ => neg || m = 0)

/-- Degrees of freedom of a model. -/
def modelDof (js : List (List Byte)) : Nat := js.foldl (fun a r => a + jointDof (jointType r)) 0

/-- Values in a position vector of a model. -/
def modelPos (js : List (List Byte)) : Nat := js.foldl (fun a r => a + jointPos (jointType r)) 0

/-- FP64 words of an operation's input block (R192, R196). -/
def inWords (op nq nv : Nat) : Nat :=
  match op with
  | 1 => nq + nv
  | 2 => nq + 2 * nv
  | 3 => nq
  | 4 => nq + 2 * nv
  | _ => nv * (nv + 1) / 2

/-- FP64 words of an operation's output block. -/
def outWords (op nj nv nc : Nat) : Nat :=
  match op with
  | 1 => 13 * nj
  | 2 => nv
  | 4 => nv + 3 * nc
  | _ => nv * (nv + 1) / 2

/-- A byte list as FP64 words. -/
def fpWords (bs : List Byte) : List Nat := (List.range (bs.length / 8)).map fun i => leField bs (8 * i) 8

/-- A NaN or infinity. -/
def fpOdd (w : Nat) : Bool := match fmtFP64.decode w with | .fin _ _ _ => false | _ => true

/-- A finite value's magnitude in units of 2^−1074. -/
def fpUnits (w : Nat) : Nat := match fmtFP64.decode w with | .fin _ m e => m * pow2 (e + 1074) | _ => 0

/-- A quaternion whose norm differs from 1 by more than 2^−20 (R196). -/
def quatBad (ws : List Nat) : Bool :=
  let sum := ws.foldl (fun a w => a + fpUnits w * fpUnits w) 0
  sum < (2 ^ 20 - 1) * (2 ^ 20 - 1) * 2 ^ 2108 || (2 ^ 20 + 1) * (2 ^ 20 + 1) * 2 ^ 2108 < sum

/-- Some quaternion of a position vector is bad. -/
def quatsBad : List (List Byte) → List Nat → Bool
  | [], _ => false
  | r :: js, ws =>
    let n := jointPos (jointType r)
    let q := if jointType r = 6 then ws.take 4 else if jointType r = 7 then (ws.drop 3).take 4 else []
    (q.length = 4 && quatBad q) || quatsBad js (ws.drop n)

/-- Input values of a contact list: friction, point and normal (R197). -/
def contactWords (bs : List Byte) (nc : Nat) : List Nat :=
  (List.range nc).flatMap fun i => fpWords ((bs.drop (64 * i + 8)).take 56)

/-- Body pair of contact i. -/
def contactPair (bs : List Byte) (i : Nat) : Nat × Nat := (leField bs (64 * i) 1, leField bs (64 * i + 1) 1)

/-! ### Warm start (R208, R209) -/

/-- The structure fingerprint of a problem. -/
def fingerprint (js : List (List Byte)) (contacts : List Byte) (nc : Nat) : Nat :=
  fnv1a (js.flatMap (·.take 2) ++ leBytes 2 nc ++ (List.range nc).flatMap fun i => (contacts.drop (64 * i)).take 2)

/-- Bytes of a warm record. -/
def warmLen (dof nc : Nat) : Nat := 32 + 8 * dof + 26 * nc

/-- The impulse words of old contact i in a warm record. -/
def warmImpulse (w : List Byte) (dof i : Nat) : List Nat := fpWords ((w.drop (32 + 8 * dof + 24 * i)).take 24)

/-- Starting impulses through a warm map: each new contact takes the first unused old contact of its mapped pair. -/
def mappedStart (w map contacts : List Byte) (dof oldNc : Nat) : Nat → Nat → List Nat → List Nat
  | 0, _, _ => []
  | n + 1, i, used =>
    let (a, b) := contactPair contacts i
    let through := fun x => if x = 0xFF then some 0xFF else if leField map x 1 = 0xFF then none else some (leField map x 1)
    let old := fun j => (leField w (32 + 8 * dof + 24 * oldNc + 2 * j) 1, leField w (32 + 8 * dof + 24 * oldNc + 2 * j + 1) 1)
    let hit := match through a, through b with
      | some x, some y => (List.range oldNc).find? fun j => old j = (x, y) && !used.contains j
      | _, _ => none
    match hit with
    | some j => warmImpulse w dof j ++ mappedStart w map contacts dof oldNc n (i + 1) (j :: used)
    | none => [0, 0, 0] ++ mappedStart w map contacts dof oldNc n (i + 1) used

/-- How a problem starts from its warm record: starting impulses and notes. -/
def warmStart (w : List Byte) (map : Option (List Byte)) (fp : Nat) (contacts : List Byte) (nc : Nat) : List Nat × Nat :=
  let cold := List.replicate (3 * nc) 0
  let dof := leField w 16 2
  let oldNc := leField w 18 2
  if leField w 0 8 = 0 then (cold, 4)
  else if leField w 0 8 = fp then ((List.range nc).flatMap fun i => warmImpulse w dof i, 0)
  else match map with
    | none => (cold, 1)
    | some m => (mappedStart w m contacts dof oldNc nc 0 [], 2)

/-! ### Batches and engines -/

/-- A batch replaced. -/
def State.putBatch (s : State) (b : LsaBatch) : State :=
  { s with lsa := { s.lsa with batches := s.lsa.batches.map fun x => if x.q = b.q && x.k = b.k then b else x } }

/-- Batch k of queue q. -/
def State.lsaBatch (s : State) (q k : Nat) : Option LsaBatch := s.lsa.batches.find? fun b => b.q = q && b.k = k

/-- What an engine works on. -/
def State.lsaEngine (s : State) (e : Nat) : Option LsaRun := mapGet none s.lsa.engines e

/-- What an engine works on replaced. -/
def State.setEngine (s : State) (e : Nat) (r : Option LsaRun) : State :=
  { s with lsa := { s.lsa with engines := mapPut none s.lsa.engines e r } }

/-- The batch whose next problem is handed out: queues round-robin after the last one (R206). -/
def State.lsaNext (s : State) : Option LsaBatch :=
  let startable := fun (b : LsaBatch) => !b.refused && b.next < b.count
  let order := (List.range 16).map fun i => (s.lsa.lastQueue + 1 + i) % 16
  order.findSome? fun q => s.lsa.batches.find? fun b => b.q = q && startable b

/-- A problem ends: its code joins its batch, its saturations the sticky flags, and its status record is written where STAT lies within
the grant (R199, R213). -/
def State.lsaEnd (s : State) (r : LsaRun) (code sat resid : Nat) (written : Bool) : State :=
  let c := s.lsaCtx r.q
  let s := match s.lsaBatch r.q r.k with
    | some b => s.putBatch { b with codes := mapIns b.codes r.i code, satmask := b.satmask ||| sat }
    | none => s
  let s := s.setF fdLsaSatflags pgLsa 0 (s.getF fdLsaSatflags pgLsa ||| sat)
  let s := (s.count pgLsa 0 1).count pgLsa 3 (if sat = 0 then 0 else 1)
  let s := (s.count pgLsa 4 (if code = 2 then 1 else 0)).count pgLsa 5 (r.notes % 2)
  let notes := r.notes ||| (if sat = 0 then 0 else 8)
  let rec' := leBytes 8 (code + notes * 2 ^ 8 + sat * 2 ^ 16 + r.iter * 2 ^ 32) ++ leBytes 8 resid
  if written && s.inPolders c r.statAt 16 then s.engineWrite (engineOf c) r.statAt rec' else s

/-- A problem descriptor (R197). -/
def lsaDesc (b : LsaBatch) (i : Nat) (d : List Byte) : LsaRun :=
  { q := b.q, k := b.k, i := i, op := b.op, outAt := leField d 8 8, statAt := leField d 48 8,
    nc := if b.op = 4 then leField d 40 2 else 0, warmAt := if b.warm && b.op = 4 then leField d 24 8 else 0 }

/-- A problem's ranges lie in the context's polders and are aligned as records are (R199). -/
def State.lsaAccess (s : State) (c : Nat) (d : List Byte) (r : LsaRun) (inLen : Nat) : Bool :=
  s.inPolders c (leField d 0 8) inLen && s.inPolders c r.outAt r.outLen && s.inPolders c r.statAt 16 &&
    (r.nc = 0 || s.inPolders c (leField d 16 8) (64 * r.nc)) &&
    (r.warmAt = 0 || s.inPolders c r.warmAt (warmLen r.dof r.nc)) &&
    (r.warmAt = 0 || leField d 32 8 = 0 || s.inPolders c (leField d 32 8) 128)

/-- What an engine finds as it reads a problem: the code with which the problem is to end at once, or the problem as it starts. -/
def State.lsaRead (s : State) (b : LsaBatch) (i : Nat) (d : List Byte) : State × LsaRun × Option Nat :=
  let c := s.lsaCtx b.q
  let r := lsaDesc b i d
  let (s, nj) := s.readNat b.model 1
  let (s, model, badM) := s.engineRead b.model (lsaModelLen nj)
  let js := modelJoints model nj
  let dof := modelDof js
  if 128 < nj then (s, r, some 4)
  else if modelBad js && !badM then (s, r, some 5)
  else if 384 < dof || 256 < r.nc then (s, r, some 4)
  else
    let inLen := 8 * inWords b.op (modelPos js) dof
    let r := { r with dof := dof, outLen := 8 * outWords b.op nj dof r.nc }
    if !s.lsaAccess c d r inLen then (s, r, some 0xB)
    else
      let (s, input, bad1) := s.engineRead (leField d 0 8) inLen
      let (s, cont, bad2) := s.engineRead (leField d 16 8) (64 * r.nc)
      let (s, range, bad3) := s.engineRead b.range 64
      let (s, head, _) := if r.warmAt = 0 then (s, [], false) else s.engineRead r.warmAt 32
      let wl := min (warmLen (leField head 16 2) (leField head 18 2)) (warmLen 384 256)
      let (s, warm, bad4) := if r.warmAt = 0 then (s, [], false) else s.engineRead r.warmAt wl
      let useMap := r.warmAt ≠ 0 && leField d 32 8 ≠ 0
      let (s, map, bad5) := if useMap then s.engineRead (leField d 32 8) 128 else (s, [], false)
      let fp := fingerprint js cont r.nc
      let (start, notes) := if r.warmAt = 0 then (List.replicate (3 * r.nc) 0, 0)
        else warmStart warm (if useMap then some map else none) fp cont r.nc
      let r := { r with operands := [model, input, cont, range], start := start, notes := notes }
      let odd := (fpWords input).any fpOdd || (contactWords cont r.nc).any fpOdd || (b.op ≠ 5 && quatsBad js (fpWords input))
      if badM || bad1 || bad2 || bad3 || bad4 || bad5 then (s, { r with poisoned := true, code := 9 }, none)
      else if odd then (s, r, some 6)
      else if (b.op = 4 || b.op = 5) && Config.linkageSingular b.op r.operands then (s, { r with code := 8 }, none)
      else (s, r, none)

/-- Engine e takes the next problem (R206, R210): past SOFT the problem ends NOT_RUN. -/
def State.lsaStart (s : State) (e : Nat) : State :=
  if s.lsa.gated || s.getF fdLsaEngInService pgLsa ≤ e || (s.lsaEngine e).isSome then s
  else match s.lsaNext with
    | none => s
    | some b =>
      let i := b.next
      let s := s.putBatch { b with next := i + 1 }
      let s := { s with lsa := { s.lsa with lastQueue := b.q } }
      let (s, d, bad) := s.engineRead (b.prob + 64 * i) 64
      let r := lsaDesc b i d
      if bad then (s.lsaPoison (s.lsaCtx b.q) (b.prob + 64 * i)).lsaEnd r 3 0 0 false
      else if b.soft ≠ 0 && b.soft ≤ s.now then s.lsaEnd r 3 0 0 true
      else
        let (s, r, stop) := s.lsaRead b i d
        match stop with
        | some code => s.lsaEnd r code 0 0 true
        | none => s.setEngine e (some r)

/-- A residual is at or below TOL (FP32). -/
def residualDone (resid tol : Nat) : Bool :=
  let a := fmtFP64.decode resid
  let b := fmtFP32.decode tol
  a.lt b || a.eq b

/-- A contact iteration ends (R210): the iterate with the smallest residual is kept, the later one on ties; the problem is then to end if
it converged, spent MAXITER or SOFT has passed. -/
def State.lsaIterate (s : State) (e : Nat) : State :=
  match s.lsaEngine e with
  | some r =>
    match s.lsaBatch r.q r.k with
    | some b =>
      if r.op ≠ 4 || r.nc = 0 || r.code ≠ 0 then s
      else
        let it := r.iter + 1
        let resid := Config.linkageResidual r.operands r.start it % 2 ^ 64
        let better := r.best = 0 || !((fmtFP64.decode (r.best - 1)).lt (fmtFP64.decode resid))
        let r := { r with iter := it, best := if better then resid + 1 else r.best, bestIter := if better then it else r.bestIter }
        let code := if residualDone resid b.tol then 1 else if b.maxIter ≤ it then 10
          else if b.soft ≠ 0 && b.soft ≤ s.now then 2 else 0
        s.setEngine e (some { r with code := code })
    | none => s
  | none => s

/-- Entry (i, j) of a packed factor is a structural zero (R193): joint of row i has joint of column j nowhere on its path to the root. -/
def pathHas (js : List (List Byte)) (target : Nat) : Nat → Nat → Bool
  | 0, _ => false
  | fuel + 1, j =>
    j = target || (let p := leField (js.getD j []) 0 1
      p ≠ 0xFF && pathHas js target fuel p)

/-- The joint of each degree of freedom. -/
def dofJoints (js : List (List Byte)) : List Nat :=
  js.zipIdx.flatMap fun (r, j) => List.replicate (jointDof (jointType r)) j

/-- Structural zeros of the LDLᵀ output written as 0. -/
def zeroFill (js : List (List Byte)) (ws : List Nat) : List Nat :=
  let ds := dofJoints js
  let cells := (List.range ds.length).flatMap fun i => (List.range (i + 1)).map fun j => (i, j)
  (cells.zip ws).map fun ((i, j), w) => if pathHas js (ds.getD j 0) 128 (ds.getD i 0) then w else 0

/-- The output words of a problem. -/
def lsaOut (r : LsaRun) : List Nat :=
  let raw := Config.linkage r.op r.operands r.start r.bestIter
  let n := r.outLen / 8
  let ws := (List.range n).map fun i => raw.getD i 0 % 2 ^ 64
  if r.op = 5 then
    let model := r.operands.getD 0 []
    zeroFill (modelJoints model (leField model 0 1)) ws
  else ws

/-- The warm record of a problem that ended with its outputs (R208, R209), written to the batch's shadow. -/
def State.lsaShadow (s : State) (r : LsaRun) (ws : List Nat) : State :=
  match s.lsaBatch r.q r.k with
  | some b =>
    if r.warmAt = 0 then s
    else
      let model := r.operands.getD 0 []
      let cont := r.operands.getD 2 []
      let fp := fingerprint (modelJoints model (leField model 0 1)) cont r.nc
      let heat := s.getF fdSchedCtxHeat pgSched (s.lsaCtx r.q)
      let head := leBytes 8 fp ++ leBytes 8 heat ++ leBytes 2 r.dof ++ leBytes 2 r.nc
      let tail := ws.flatMap (leBytes 8) ++ (List.range r.nc).flatMap fun i => (cont.drop (64 * i)).take 2
      s.putBatch { b with shadow := b.shadow ++ [(r.warmAt, head), (r.warmAt + 32, tail)] }
  | none => s

/-- An engine's problem ends (R193, R202, R203, R212, R213). A contact problem ends once an iteration has decided its code. -/
def State.lsaProblemEnd (s : State) (e : Nat) : State :=
  match s.lsaEngine e with
  | none => s
  | some r =>
    if r.op = 4 && r.nc ≠ 0 && r.code = 0 then s
    else
      let code := r.code - 1
      let c := s.lsaCtx r.q
      let s := s.setEngine e none
      let sat := if r.poisoned then 0 else Config.linkageSat r.op r.operands r.start r.bestIter % 2 ^ 16
      let resid := if r.nc = 0 then 0 else r.best - 1
      if code = 8 then
        (s.engineWrite (engineOf c) r.outAt (zeros r.outLen) true).lsaEnd r 8 0 resid true
      else if code = 7 then s.lsaEnd r 7 sat resid true
      else
        let ws := lsaOut r
        let s := s.engineWrite (engineOf c) r.outAt (ws.flatMap (leBytes 8))
        (s.lsaShadow r ws).lsaEnd r code sat resid true

/-! ### Completion (R206, R211, R213) -/

/-- The batch code. -/
def LsaBatch.code (b : LsaBatch) : Nat :=
  let has := fun c => b.codes.any fun x => x.2 = c
  if has 2 then 2 else if b.refused then 0xC
  else if has 1 || (b.soft ≠ 0 && has 3) then 1
  else if b.codes.any fun x => x.2 ≠ 0 then 0xA else 0

/-- Problems whose outputs were written. -/
def LsaBatch.done (b : LsaBatch) : Nat := (b.codes.filter fun x => x.2 = 0 || x.2 = 1 || x.2 = 9).length

/-- The completion record, the post and the scheduler event of a batch. -/
def State.lsaReport (s : State) (b : LsaBatch) : State :=
  let c := s.lsaCtx b.q
  let n := 2 ^ s.getF fdLsaQLog2len pgLsa b.q
  let rec' := leBytes 4 b.tag ++ leBytes 4 b.code ++ leBytes 2 b.done ++ leBytes 2 b.satmask ++ leBytes 4 0 ++ leBytes 8 b.k ++
    leBytes 8 s.now
  let s := s.engineWrite (engineOf c) (s.getF fdLsaQCq pgLsa b.q + b.k % n * 32) rec'
  let s := if b.post then s.postTo b.counter 1 else s
  let s := if s.getF fdLsaQEvent pgLsa b.q = 1 then
      let s := { s with schedEvents := s.schedEvents ++ [256 + b.q] }
      s.forEach ((s.queues.filter fun x => x.2.ctx = some c).map (·.1)) fun q s =>
        s.sendStatus q { op := 0x8003, ctx := c, body := leBytes 8 b.q ++ rec' }
    else s
  let s := s.event pgLsa 0 (some 0) 0x0140 b.q b.code
  let (kind, s) := s.free
  let s := s.event pgLsa 0 (some 0) 0x0002 kind b.code
  { s with lsa := { s.lsa with
    batches := s.lsa.batches.filter fun x => !(x.q = b.q && x.k = b.k)
    ended := s.lsa.ended ++ [(b.q, b.k, b.code)] } }

/-- A queue's first batch whose problems have all ended completes: warm records first (R206). -/
def State.lsaComplete (s : State) (q : Nat) : State :=
  match s.lsa.batches.find? fun b => b.q = q && (b.refused || b.codes.length = b.count) with
  | some b =>
    let c := s.lsaCtx q
    (s.forEach b.shadow fun (a, bs) s => s.engineWrite (engineOf c) a bs).lsaReport b
  | none => s

/-- A running problem is abandoned at HARD: what it leaves of its outputs is open, unwritten or, where the abort fell during write-out,
poisoned from some element on (R211). -/
def State.lsaAbort (s : State) (r : LsaRun) : State :=
  let c := s.lsaCtx r.q
  let (v, s) := s.free
  if v % 2 = 0 || r.outLen = 0 then s
  else
    let k := v / 2 % (r.outLen / 8 + 1)
    let s := s.engineWrite (engineOf c) r.outAt ((lsaOut r).flatMap (leBytes 8) |>.take (8 * k))
    s.engineWrite (engineOf c) (r.outAt + 8 * k) (zeros (r.outLen - 8 * k)) true

/-- Engines that work on a batch. -/
def State.lsaOn (s : State) (b : LsaBatch) : List (Nat × LsaRun) :=
  s.lsa.engines.filterMap fun x => x.2.bind fun r => if r.q = b.q && r.k = b.k then some (x.1, r) else none

/-- Fabric time reaches HARD of a queue's first batch that has one (R211). -/
def State.lsaHard (s : State) (q : Nat) : State :=
  match s.lsa.batches.find? fun b => b.q = q && b.hard ≠ 0 && !b.refused && b.codes.length ≠ b.count with
  | none => s
  | some b =>
    let s := s.forEach (s.lsaOn b) fun (e, r) s => ((s.setEngine e none).lsaAbort r).lsaEnd r 2 0 0 true
    let rest := upFrom b.next (b.count - b.next)
    let s := s.forEach rest fun i s =>
      let (s, d, bad) := s.engineRead (b.prob + 64 * i) 64
      s.lsaEnd (lsaDesc b i d) 3 0 0 (!bad)
    match s.lsaBatch b.q b.k with
    | some b => s.lsaReport { b with shadow := [], codes := if b.codes.any fun x => x.2 = 2 then b.codes else mapIns b.codes 4096 2 }
    | none => s

/-- Job teardown abandons the batches of a context's queues; nothing further is written (R212). -/
def State.lsaAbandon (s : State) (c : Nat) : State :=
  let mine := s.lsa.batches.filter fun b => s.lsaCtx b.q = c
  let s := s.forEach mine fun b s => s.forEach (s.lsaOn b) fun (e, r) s => (s.setEngine e none).lsaAbort r
  { s with lsa := { s.lsa with
    batches := s.lsa.batches.filter fun b => !mine.contains b
    ended := s.lsa.ended.filter fun x => s.lsaCtx x.1 ≠ c } }

/-! ### The rows -/

/-- LSA_PIDX_WRITE: the write of the producer index word, with what the array does on it. -/
def execLsaPidxWrite (src : Source) (q : CtxId) (v : Word) (s : State) : Out :=
  .next (s.submit { kind := 1, src := src, off := s.getF fdLsaQPidx pgLsa q.val, len := 8, data := leBytes 8 v.toNat }).finish

/-- LSA_PROBLEM_START. -/
def execLsaProblemStart (e : EngineId) (s : State) : Out := .next (s.lsaStart e.val).finish

/-- LSA_ITERATION_END. -/
def execLsaIterationEnd (e : EngineId) (s : State) : Out := .next (s.lsaIterate e.val)

/-- LSA_PROBLEM_END. -/
def execLsaProblemEnd (e : EngineId) (s : State) : Out := .next (s.lsaProblemEnd e.val).finish

/-- LSA_BATCH_COMPLETE. -/
def execLsaBatchComplete (q : CtxId) (s : State) : Out := .next (s.lsaComplete q.val).finish

/-- LSA_HARD_DEADLINE. -/
def execLsaHardDeadline (q : CtxId) (s : State) : Out := .next (s.lsaHard q.val).finish

/-- The array's clock stops when no queue has pending work (R207). -/
def State.lsaGate (s : State) : State :=
  if s.getF fdLsaGateIdleUs pgLsa ≠ 0 && s.lsa.batches.isEmpty && s.lsa.poked.isEmpty && !s.lsa.gated then
    ({ s with lsa := { s.lsa with gated := true } }).event pgLsa 0 (some 3) 0x0007 0 0
  else s

/-- LSA_GATE. -/
def execLsaGate (s : State) : Out := .next s.lsaGate

/-- The array's 4 µs wake ends (R207). -/
def State.lsaWoken (s : State) : State :=
  if s.lsa.waking then
    (({ s with lsa := { s.lsa with gated := false, waking := false } }).count pgLsa 6 1).event pgLsa 0 (some 3) 0x0008 0 8000
  else s

/-- LSA_WAKE_DONE. -/
def execLsaWakeDone (s : State) : Out := .next s.lsaWoken.finish

/-- A spare takes an engine's place (R212): the problem in progress restarts from its beginning. -/
def State.lsaRemap (s : State) (e : Nat) : State :=
  if 2 ≤ s.getF fdLsaEngSparesUsed pgLsa then s
  else
    let s := (s.addF fdLsaEngSparesUsed pgLsa 0 1).count pgLsa 7 1
    let s := if 2 ≤ s.getF fdLsaEngSparesUsed pgLsa then s.raiseSpare 1 else s
    match s.lsaEngine e with
    | some r => s.setEngine e (some (if r.op = 4 && (r.code = 1 || r.code = 2 || r.code = 10 || r.code = 0) then
        { r with iter := 0, best := 0, bestIter := 0, code := 0 } else r))
    | none => s

/-- LSA_ENGINE_REMAP. -/
def execLsaEngineRemap (e : EngineId) (s : State) : Out := .next (s.lsaRemap e.val)

end Sys2Proof.Machine
end

