-- ==== Sys2Proof/Machine/CoreCmd.lean ====
section
/-! DEFINITION. The commands of the cores: accesses, CSR writes, interrupts, and the Xzmx, Xzsv and Xzsy instructions (R32–R43,
R94–R172, R179, R188). -/
namespace Sys2Proof.Machine

/-- Core c issues an operation, and everything that can go on does. -/
def State.issue' (s : State) (c : Nat) (op : CoreOp) : State := (s.issueOp c op).finish

/-! ### Accesses (R33–R37, R43, R183–R188) -/

/-- CORE_LOAD. -/
def execCoreLoad (c : Core) (addr : Word) (size : Nat) (signed : Bool) (rd : Reg) (s : State) : Out :=
  .next (s.issue' (coreIx c) (.load addr.toNat size signed rd.val))

/-- CORE_AMO. -/
def execCoreAmo (c : Core) (addr : Word) (op : AmoOp) (wide : Bool) (v : Word) (rd : Reg) (s : State) : Out :=
  .next (s.issue' (coreIx c) (.amo addr.toNat op wide v.toNat rd.val))

/-- LR. -/
def execLr (c : Core) (addr : Word) (wide : Bool) (rd : Reg) (s : State) : Out :=
  .next (s.issue' (coreIx c) (.lr addr.toNat wide rd.val))

/-- SC. -/
def execSc (c : Core) (addr : Word) (wide : Bool) (v : Word) (rd : Reg) (s : State) : Out :=
  .next (s.issue' (coreIx c) (.sc addr.toNat wide v.toNat rd.val))

/-- FENCE. -/
def execFence (k : CoreId) (s : State) : Out := .next (s.issue' (coreIx (.pd k)) .fence)

/-- ECALL. -/
def execEcall (t : TileId) (a0 : Word) (s : State) : Out := .next (s.issue' t.val (.exit a0.toNat))

/-- CSR_WRITE. -/
def execCsrWrite (c : Core) (csr : BitVec 12) (v : Word) (s : State) : Out :=
  .next (s.issue' (coreIx c) (.csr csr.toNat v.toNat))

/-- A fetch of a pilot core (R37–R39): only from its own IMEM; an uncorrectable word is a fault that the tile monitor reports as UC. -/
def State.fetch (s : State) (t a : Nat) : State :=
  if imemView ≤ a && a < imemView + 0x10000 then
    if s.wordsPoisoned (imemAt t + (a - imemView)) 2 then
      (s.coreFault t 1 a 1).detect (pgFlask (flaskOf t)) 9
        { code := 0x0040, ctx := (s.core t).ctx.bind fun n => if h : n < 16 then some ⟨n, h⟩ else none, addr := BitVec.ofNat 64 a }
    else s
  else s.coreFault t 1 a 1

/-- INSTRUCTION_FETCH. -/
def execInstructionFetch (t : TileId) (addr : Word) (s : State) : Out := .next (s.fetch t.val addr.toNat)

/-! ### Interrupts (R140, R153, R157, R179, R181, R189) -/

/-- The core takes an interrupt. -/
def State.takeInterrupt (s : State) (c cause : Nat) : State := s.setCore c { s.core c with interrupt := some cause }

/-- A waiting vector instruction at the front of a core's operations. -/
def CoreState.vectorWaits (k : CoreState) : Bool :=
  match k.stalled with
  | .vector _ _ _ _ :: _ => true
  | _ => false

/-- An interrupt arrives: a blocked wait or a vector instruction that waits for its unit is withdrawn, to execute again after the
handler; an instruction in progress retires first; a core in repair or stopped by a remap takes it when it resumes. -/
def State.interruptCore (s : State) (c cause : Nat) : State :=
  let k := s.core c
  if k.paused then s.setCore c { k with heldInterrupts := k.heldInterrupts ++ [cause] }
  else match k.blocked with
    | .wait _ _ _ _ => ((s.withdraw c).block c .none).takeInterrupt c cause
    | .waitHeld _ _ _ _ => (s.block c .none).takeInterrupt c cause
    | .bwait slot _ since => ((s.waitEnd c slot since).block c .none).takeInterrupt c cause
    | .access => s.setCore c { k with heldInterrupts := k.heldInterrupts ++ [cause] }
    | .none =>
      if k.vectorWaits then (s.setCore c { k with stalled := k.stalled.tail }).takeInterrupt c cause
      else if k.stalled.isEmpty then s.takeInterrupt c cause
      else s.setCore c { k with heldInterrupts := k.heldInterrupts ++ [cause] }

/-- HART_INTERRUPT. -/
def execHartInterrupt (c : Core) (cause : Word) (s : State) : Out :=
  .next (s.interruptCore (coreIx c) cause.toNat).finish

/-- VECTOR_INSTRUCTION. -/
def execVectorInstruction (k : CoreId) (w : BitVec 32) (vl : Nat) (faultAt : Option Nat) (cause : Word) (s : State) : Out :=
  .next (s.issue' (coreIx (.pd k)) (.vector w.toNat vl faultAt cause.toNat))

/-! ### Xzmx (R94–R99) -/

/-- MX_MMA. -/
def execMxMma (t : TileId) (w : BitVec 32) (x1 x2 : Word) (s : State) : Out :=
  .next (s.issue' t.val (.mx 0 w.toNat x1.toNat x2.toNat))

/-- MX_WMMA. -/
def execMxWmma (t : TileId) (w : BitVec 32) (x1 x2 : Word) (s : State) : Out :=
  .next (s.issue' t.val (.mx 1 w.toNat x1.toNat x2.toNat))

/-- MX_LDACC. -/
def execMxLdacc (t : TileId) (w : BitVec 32) (x1 x2 : Word) (s : State) : Out :=
  .next (s.issue' t.val (.mx 2 w.toNat x1.toNat x2.toNat))

/-- MX_STACC. -/
def execMxStacc (t : TileId) (w : BitVec 32) (x1 x2 : Word) (s : State) : Out :=
  .next (s.issue' t.val (.mx 3 w.toNat x1.toNat x2.toNat))

/-- MX_ZERO. -/
def execMxZero (t : TileId) (w : BitVec 32) (x1 x2 : Word) (s : State) : Out :=
  .next (s.issue' t.val (.mx 4 w.toNat x1.toNat x2.toNat))

/-- MX_RECOMB. -/
def execMxRecomb (t : TileId) (w : BitVec 32) (x1 x2 : Word) (s : State) : Out :=
  .next (s.issue' t.val (.mx 5 w.toNat x1.toNat x2.toNat))

/-- MX_SLICE. -/
def execMxSlice (t : TileId) (w : BitVec 32) (x1 x2 : Word) (s : State) : Out :=
  .next (s.issue' t.val (.mx 6 w.toNat x1.toNat x2.toNat))

/-- MX_WAIT. -/
def execMxWait (t : TileId) (w : BitVec 32) (x1 x2 : Word) (s : State) : Out :=
  .next (s.issue' t.val (.mx 7 w.toNat x1.toNat x2.toNat))

/-- An engine of a tile may run: the flask serves, and the tile's state is not being copied. -/
def State.engineUp (s : State) (t : Nat) : Bool := s.serves (flaskOf t) && !s.moving t

/-- An engine starts its next instruction, where nothing earlier holds it (R96, R135) and its unit is powered (R59). -/
def State.startEngine (s : State) (t : Nat) (e : Engine) : State :=
  let x := s.tile t
  match x.nextFor e with
  | some q =>
    if s.engineUp t && s.enginePower t e && !q.running && !x.mxHeld q then
      s.setTile t { x with mxq := x.mxq.map fun r => if r.seq = q.seq then { r with running := true } else r }
    else s
  | none => s

/-- The running instruction of an engine completes. -/
def State.endEngine (s : State) (t : Nat) (e : Engine) : State :=
  match (s.tile t).mxq.find? fun q => mxEngine q.w = e && q.running with
  | some q =>
    if s.engineUp t then
      let s := (s.mxDo t q).tallyMx t q
      let x := s.tile t
      s.setTile t { x with mxq := x.mxq.filter fun r => r.seq ≠ q.seq }
    else s
  | none => s

/-- MX_ENGINE_START. -/
def execMxEngineStart (t : TileId) (e : Engine) (s : State) : Out := .next (s.startEngine t.val e)

/-- MX_ENGINE_DONE. -/
def execMxEngineDone (t : TileId) (e : Engine) (s : State) : Out := .next (s.endEngine t.val e).finish

/-- MX_STATUS_READ. -/
def execMxStatusRead (t : TileId) (stat : Bool) (rd : Reg) (s : State) : Out := .next (s.issue' t.val (.mxStatus stat rd.val))

/-! ### Xzsv (R117–R143) -/

/-- SV_ADD. -/
def execSvAdd (t : TileId) (w : BitVec 32) (s : State) : Out := .next (s.issue' t.val (.sv 0x00 w.toNat 0))

/-- SV_SUB. -/
def execSvSub (t : TileId) (w : BitVec 32) (s : State) : Out := .next (s.issue' t.val (.sv 0x01 w.toNat 0))

/-- SV_MUL. -/
def execSvMul (t : TileId) (w : BitVec 32) (s : State) : Out := .next (s.issue' t.val (.sv 0x02 w.toNat 0))

/-- SV_FMA. -/
def execSvFma (t : TileId) (w : BitVec 32) (s : State) : Out := .next (s.issue' t.val (.sv 0x03 w.toNat 0))

/-- SV_DIV. -/
def execSvDiv (t : TileId) (w : BitVec 32) (s : State) : Out := .next (s.issue' t.val (.sv 0x04 w.toNat 0))

/-- SV_SQRT. -/
def execSvSqrt (t : TileId) (w : BitVec 32) (s : State) : Out := .next (s.issue' t.val (.sv 0x05 w.toNat 0))

/-- SV_MIN. -/
def execSvMin (t : TileId) (w : BitVec 32) (s : State) : Out := .next (s.issue' t.val (.sv 0x06 w.toNat 0))

/-- SV_MAX. -/
def execSvMax (t : TileId) (w : BitVec 32) (s : State) : Out := .next (s.issue' t.val (.sv 0x07 w.toNat 0))

/-- SV_ABS. -/
def execSvAbs (t : TileId) (w : BitVec 32) (s : State) : Out := .next (s.issue' t.val (.sv 0x08 w.toNat 0))

/-- SV_NEG. -/
def execSvNeg (t : TileId) (w : BitVec 32) (s : State) : Out := .next (s.issue' t.val (.sv 0x09 w.toNat 0))

/-- SV_MOV. -/
def execSvMov (t : TileId) (w : BitVec 32) (s : State) : Out := .next (s.issue' t.val (.sv 0x0A w.toNat 0))

/-- SV_AND. -/
def execSvAnd (t : TileId) (w : BitVec 32) (s : State) : Out := .next (s.issue' t.val (.sv 0x10 w.toNat 0))

/-- SV_OR. -/
def execSvOr (t : TileId) (w : BitVec 32) (s : State) : Out := .next (s.issue' t.val (.sv 0x11 w.toNat 0))

/-- SV_XOR. -/
def execSvXor (t : TileId) (w : BitVec 32) (s : State) : Out := .next (s.issue' t.val (.sv 0x12 w.toNat 0))

/-- SV_ANDN. -/
def execSvAndn (t : TileId) (w : BitVec 32) (s : State) : Out := .next (s.issue' t.val (.sv 0x13 w.toNat 0))

/-- SV_NOT. -/
def execSvNot (t : TileId) (w : BitVec 32) (s : State) : Out := .next (s.issue' t.val (.sv 0x14 w.toNat 0))

/-- SV_SLL. -/
def execSvSll (t : TileId) (w : BitVec 32) (s : State) : Out := .next (s.issue' t.val (.sv 0x15 w.toNat 0))

/-- SV_SRL. -/
def execSvSrl (t : TileId) (w : BitVec 32) (s : State) : Out := .next (s.issue' t.val (.sv 0x16 w.toNat 0))

/-- SV_SRA. -/
def execSvSra (t : TileId) (w : BitVec 32) (s : State) : Out := .next (s.issue' t.val (.sv 0x17 w.toNat 0))

/-- SV_EQ. -/
def execSvEq (t : TileId) (w : BitVec 32) (s : State) : Out := .next (s.issue' t.val (.sv 0x20 w.toNat 0))

/-- SV_NE. -/
def execSvNe (t : TileId) (w : BitVec 32) (s : State) : Out := .next (s.issue' t.val (.sv 0x21 w.toNat 0))

/-- SV_LT. -/
def execSvLt (t : TileId) (w : BitVec 32) (s : State) : Out := .next (s.issue' t.val (.sv 0x22 w.toNat 0))

/-- SV_LE. -/
def execSvLe (t : TileId) (w : BitVec 32) (s : State) : Out := .next (s.issue' t.val (.sv 0x23 w.toNat 0))

/-- SV_UNORD. -/
def execSvUnord (t : TileId) (w : BitVec 32) (s : State) : Out := .next (s.issue' t.val (.sv 0x24 w.toNat 0))

/-- SV_SEL. -/
def execSvSel (t : TileId) (w : BitVec 32) (s : State) : Out := .next (s.issue' t.val (.sv 0x28 w.toNat 0))

/-- SV_EXP. -/
def execSvExp (t : TileId) (w : BitVec 32) (s : State) : Out := .next (s.issue' t.val (.sv 0x30 w.toNat 0))

/-- SV_LOG. -/
def execSvLog (t : TileId) (w : BitVec 32) (s : State) : Out := .next (s.issue' t.val (.sv 0x31 w.toNat 0))

/-- SV_RECIP. -/
def execSvRecip (t : TileId) (w : BitVec 32) (s : State) : Out := .next (s.issue' t.val (.sv 0x32 w.toNat 0))

/-- SV_RSQRT. -/
def execSvRsqrt (t : TileId) (w : BitVec 32) (s : State) : Out := .next (s.issue' t.val (.sv 0x33 w.toNat 0))

/-- SV_RSUM. -/
def execSvRsum (t : TileId) (w : BitVec 32) (s : State) : Out := .next (s.issue' t.val (.sv 0x40 w.toNat 0))

/-- SV_RMIN. -/
def execSvRmin (t : TileId) (w : BitVec 32) (s : State) : Out := .next (s.issue' t.val (.sv 0x41 w.toNat 0))

/-- SV_RMAX. -/
def execSvRmax (t : TileId) (w : BitVec 32) (s : State) : Out := .next (s.issue' t.val (.sv 0x42 w.toNat 0))

/-- SV_REXP. -/
def execSvRexp (t : TileId) (w : BitVec 32) (s : State) : Out := .next (s.issue' t.val (.sv 0x43 w.toNat 0))

/-- SV_SMX. -/
def execSvSmx (t : TileId) (w : BitVec 32) (s : State) : Out := .next (s.issue' t.val (.sv 0x50 w.toNat 0))

/-- SV_CAUSAL. -/
def execSvCausal (t : TileId) (w : BitVec 32) (s : State) : Out := .next (s.issue' t.val (.sv 0x60 w.toNat 0))

/-- SV_WINDOW. -/
def execSvWindow (t : TileId) (w : BitVec 32) (s : State) : Out := .next (s.issue' t.val (.sv 0x61 w.toNat 0))

/-- SV_LIMIT. -/
def execSvLimit (t : TileId) (w : BitVec 32) (s : State) : Out := .next (s.issue' t.val (.sv 0x62 w.toNat 0))

/-- SV_POSID. -/
def execSvPosid (t : TileId) (w : BitVec 32) (s : State) : Out := .next (s.issue' t.val (.sv 0x63 w.toNat 0))

/-- SV_PERM. -/
def execSvPerm (t : TileId) (w : BitVec 32) (s : State) : Out := .next (s.issue' t.val (.sv 0x70 w.toNat 0))

/-- SV_SHUF. -/
def execSvShuf (t : TileId) (w : BitVec 32) (s : State) : Out := .next (s.issue' t.val (.sv 0x71 w.toNat 0))

/-- SV_PACK. -/
def execSvPack (t : TileId) (w : BitVec 32) (s : State) : Out := .next (s.issue' t.val (.sv 0x72 w.toNat 0))

/-- SV_UNPKE. -/
def execSvUnpke (t : TileId) (w : BitVec 32) (s : State) : Out := .next (s.issue' t.val (.sv 0x73 w.toNat 0))

/-- SV_UNPKO. -/
def execSvUnpko (t : TileId) (w : BitVec 32) (s : State) : Out := .next (s.issue' t.val (.sv 0x74 w.toNat 0))

/-- SV_CVT. -/
def execSvCvt (t : TileId) (w : BitVec 32) (s : State) : Out := .next (s.issue' t.val (.sv 0x80 w.toNat 0))

/-- SV_FCVT. -/
def execSvFcvt (t : TileId) (w : BitVec 32) (s : State) : Out := .next (s.issue' t.val (.sv 0x90 w.toNat 0))

/-- SV_MXPACK. -/
def execSvMxpack (t : TileId) (w : BitVec 32) (s : State) : Out := .next (s.issue' t.val (.sv 0x91 w.toNat 0))

/-- SV_MXUNPACK. -/
def execSvMxunpack (t : TileId) (w : BitVec 32) (s : State) : Out := .next (s.issue' t.val (.sv 0x92 w.toNat 0))

/-- SV_XPREBASE. -/
def execSvXprebase (t : TileId) (w : BitVec 32) (s : State) : Out := .next (s.issue' t.val (.sv 0x93 w.toNat 0))

/-- SV_SETVL. -/
def execSvSetvl (t : TileId) (w : BitVec 32) (x1 : Word) (s : State) : Out :=
  .next (s.issue' t.val (.sv 0x1F0 w.toNat x1.toNat))

/-- SV_SETVLC. -/
def execSvSetvlc (t : TileId) (w : BitVec 32) (s : State) : Out := .next (s.issue' t.val (.sv 0x1F1 w.toNat 0))

/-- SV_ADV. -/
def execSvAdv (t : TileId) (w : BitVec 32) (s : State) : Out := .next (s.issue' t.val (.sv 0x1F2 w.toNat 0))

/-- SV_ADV1. -/
def execSvAdv1 (t : TileId) (w : BitVec 32) (s : State) : Out := .next (s.issue' t.val (.sv 0x1F3 w.toNat 0))

/-- SV_FWAIT. -/
def execSvFwait (t : TileId) (w : BitVec 32) (s : State) : Out := .next (s.issue' t.val (.sv 0x1F4 w.toNat 0))

/-- The oldest FCU request that may run completes (R134, R135). -/
def State.endFcu (s : State) (t : Nat) : State :=
  match (s.tile t).fcuReady with
  | some q =>
    if s.engineUp t then
      let s := (s.fcuDo t q).tallyFcu t q
      let x := s.tile t
      s.setTile t { x with fcuq := x.fcuq.filter fun r => r.seq ≠ q.seq }
    else s
  | none => s

/-- FCU_REQUEST_DONE. -/
def execFcuRequestDone (t : TileId) (s : State) : Out := .next (s.endFcu t.val).finish

/-- SV_STATUS_READ: `FQ` is taken as the read issues (R143). -/
def execSvStatusRead (t : TileId) (stat : Bool) (rd : Reg) (s : State) : Out :=
  .next (s.issue' t.val (.svStatus stat (s.tile t.val).fcuq.length rd.val))

/-! ### Xzsy (R145–R171) -/

/-- SY_POST. -/
def execSyPost (c : Core) (w : BitVec 32) (x1 x2 : Word) (s : State) : Out :=
  .next (s.issue' (coreIx c) (.sync 0 w.toNat x1.toNat x2.toNat))

/-- SY_TAKE. -/
def execSyTake (c : Core) (w : BitVec 32) (x1 x2 : Word) (s : State) : Out :=
  .next (s.issue' (coreIx c) (.sync 1 w.toNat x1.toNat x2.toNat))

/-- SY_WAIT. -/
def execSyWait (c : Core) (w : BitVec 32) (x1 x2 : Word) (s : State) : Out :=
  .next (s.issue' (coreIx c) (.sync 2 w.toNat x1.toNat x2.toNat))

/-- SY_READ. -/
def execSyRead (c : Core) (w : BitVec 32) (x1 x2 : Word) (s : State) : Out :=
  .next (s.issue' (coreIx c) (.sync 3 w.toNat x1.toNat x2.toNat))

/-- SY_INIT. -/
def execSyInit (c : Core) (w : BitVec 32) (x1 x2 : Word) (s : State) : Out :=
  .next (s.issue' (coreIx c) (.sync 4 w.toNat x1.toNat x2.toNat))

/-- SY_ARRIVE. -/
def execSyArrive (c : Core) (w : BitVec 32) (x1 x2 : Word) (s : State) : Out :=
  .next (s.issue' (coreIx c) (.sync 8 w.toNat x1.toNat x2.toNat))

/-- SY_BWAIT. -/
def execSyBwait (c : Core) (w : BitVec 32) (x1 x2 : Word) (s : State) : Out :=
  .next (s.issue' (coreIx c) (.sync 9 w.toNat x1.toNat x2.toNat))

/-- SY_PUSH. -/
def execSyPush (c : Core) (w : BitVec 32) (x1 x2 : Word) (s : State) : Out :=
  .next (s.issue' (coreIx c) (.sync 16 w.toNat x1.toNat x2.toNat))

/-- SY_POP. -/
def execSyPop (c : Core) (w : BitVec 32) (x1 x2 : Word) (s : State) : Out :=
  .next (s.issue' (coreIx c) (.sync 17 w.toNat x1.toNat x2.toNat))

/-- SY_STEAL. -/
def execSySteal (c : Core) (w : BitVec 32) (x1 x2 : Word) (s : State) : Out :=
  .next (s.issue' (coreIx c) (.sync 18 w.toNat x1.toNat x2.toNat))

/-- SY_WARM. -/
def execSyWarm (c : Core) (w : BitVec 32) (x1 x2 : Word) (s : State) : Out :=
  .next (s.issue' (coreIx c) (.sync 24 w.toNat x1.toNat x2.toNat))

/-- SY_WDIS. -/
def execSyWdis (c : Core) (w : BitVec 32) (x1 x2 : Word) (s : State) : Out :=
  .next (s.issue' (coreIx c) (.sync 25 w.toNat x1.toNat x2.toNat))

/-- SY_WAIT_RETRY. -/
def execSyWaitRetry (c : Core) (s : State) : Out := .next (s.retryWait (coreIx c)).finish

/-- SY_WAIT_TIMEOUT. -/
def execSyWaitTimeout (c : Core) (s : State) : Out := .next (s.timeoutWait (coreIx c)).finish

end Sys2Proof.Machine
end

