-- ==== Sys2Proof/Machine/TileFlask.lean ====
section
/-! DEFINITION. Flasks (R38, R42, R51–R60): IMEM loads, remaps, sleep, wakes and unit gating. -/
namespace Sys2Proof.Machine

/-- The tiles of a flask. -/
def tilesOf (f : Nat) : List Nat := (List.range 16).map fun t => f * 16 + t

/-! ### IMEM loads (R38) -/

/-- The source range lies wholly in one region that the load engine reads. -/
def State.imemReadable (s : State) (src len : Nat) : Bool :=
  src + len ≤ min storeBase (s.getF fdMemmapTop pgMemmap) || (storeBase ≤ src && src + len ≤ selfBase)

/-- A GO names tiles, a length and a source that R38 accepts. -/
def State.imemGoOk (s : State) (f tiles len src : Nat) : Bool :=
  len ≠ 0 && tiles ≠ 0 && s.imemReadable src (len * 256) &&
    (List.range 16).all fun t => !(bitAt tiles t && (s.core (f * 16 + t)).running)

/-- A load starts. -/
def State.imemStart (s : State) (f tiles len src : Nat) : State :=
  (s.setF fdFlaskImemCtrlGo (pgFlask f) 0 1).setFlask f { s.flask f with imem := some { tiles := tiles, src := src, len := len * 256 } }

/-- The load in progress ends, and GO reads 0. -/
def State.imemStop (s : State) (f : Nat) : State :=
  (s.setF fdFlaskImemCtrlGo (pgFlask f) 0 0).setFlask f { s.flask f with imem := none }

/-- The image as the engine reads it, and how many of its bytes come before the first poisoned unit; all of them where none is. -/
def State.imemSource (s : State) (l : ImemLoad) : State × List Byte × Nat :=
  let hbm := l.src < storeBase
  let (s, bs) := if hbm then let (s, bs, _) := s.engineRead l.src l.len; (s, bs) else (s, s.bytes l.src l.len)
  let clean := fun n => if hbm then !s.linesPoisoned l.src n else !s.wordsPoisoned l.src n
  (s, bs, ((upFrom 1 (l.len / 8)).map (· * 8)).foldl (fun a n => if clean n then n else a) 0)

/-- Bytes written into the IMEM of the named tiles, and those tiles marked with what they hold. -/
def State.imemFill (s : State) (f tiles : Nat) (bs : List Byte) (image : Option ImemImage) : State :=
  s.forEach ((List.range 16).filter fun t => bitAt tiles t) fun t s =>
    let k := f * 16 + t
    (s.storeBytes (imemAt k) bs).setCore k { s.core k with image := image }

/-- A load completes: every word of its source was good. -/
def State.imemDone (s : State) (f : Nat) : State :=
  match (s.flask f).imem with
  | some l =>
    let (s, bs, good) := s.imemSource l
    if s.serves f && good = l.len then
      (s.imemFill f l.tiles bs (some { src := l.src, len := l.len })).imemStop f
    else s
  | none => s

/-- Poison consumed as control data (R436): a UC with code 0x0031 of a context, raised at the page of the reading unit; an NF where
no context owns the data. -/
def State.controlPoison (s : State) (page : Nat) (c : Option Nat) (addr : Nat) : State :=
  s.detect page 8
    { code := 0x0031, ctx := c.bind fun n => if h : n < 16 then some ⟨n, h⟩ else none, addr := BitVec.ofNat 64 addr }

/-- A poisoned source word ends a load (R38): the words before it are written, the named tiles hold no image, and the context takes a
UC; an image in polder 15 is an NF. FLASK lists no source for code 0x0031, so SCHED records it (log entry 8). -/
def State.imemPoison (s : State) (f : Nat) : State :=
  match (s.flask f).imem with
  | some l =>
    let (s, bs, good) := s.imemSource l
    if good < l.len then
      let s := (s.imemFill f l.tiles (bs.take good) none).imemStop f
      let owner := if l.src < storeBase && s.polderOf l.src = some 15 then none else s.flaskOwner f
      s.controlPoison pgSched owner (l.src + good)
    else s
  | none => s

/-- IMEM_LOAD_DONE. -/
def execImemLoadDone (f : FlaskId) (s : State) : Out := .next (s.imemDone f.val).finish

/-- IMEM_LOAD_POISON. -/
def execImemLoadPoison (f : FlaskId) (s : State) : Out := .next (s.imemPoison f.val).finish

/-- TILE_STORE_SCRUB (R42): reading a word leaves every value and every poison tag as it was; errors found are ERROR_DETECT. -/
def execTileStoreScrub (_t : TileId) (_word : BitVec 16) (s : State) : Out := .next s

/-! ### Remaps (R49–R54) -/

/-- Some flask's tile is being moved (R454: one repair at a time). -/
def State.anyMoving (s : State) : Bool := s.flasks.any fun x => x.2.moving.isSome

/-- The pilot cores of a flask stop or resume. -/
def State.pauseFlask (s : State) (f : Nat) (on : Bool) : State :=
  s.forEach (tilesOf f) fun t s => s.setCore t { s.core t with paused := on }

/-- A remap starts: cores stopped, instructions in progress on the failing tile abandoned to restart from their beginning, and the
tile's state being copied. -/
def State.remapStart (s : State) (f t : Nat) : State :=
  let p := pgFlask f
  if s.anyMoving || s.getF fdFlaskSpareInUse p = 1 || s.getF fdFlaskSpareFenced p = 1 || s.pstate f ≠ psAwake then s
  else
    let s := s.pauseFlask f true
    let k := f * 16 + t
    let x := s.tile k
    let s := s.setTile k { x with mxq := x.mxq.map fun q => { q with running := false } }
    let s := s.setFlask f { s.flask f with moving := some t, since := s.now }
    State.trace { s with err := { s.err with repairing := true } } 109 0xFF k 0

/-- A remap ends: the map is switched, the cores resume, and what the flask held is served. -/
def State.remapEnd (s : State) (f : Nat) : State :=
  match (s.flask f).moving with
  | some t =>
    let p := pgFlask f
    let us := (s.now - (s.flask f).since) / 2000
    let s := (s.setF fdFlaskSpareInUse p 0 1).addF fdFlaskSpareRemaps p 0 1
    let s := s.setFlask f { s.flask f with moving := none, since := 0 }
    let s : State := { s with err := { s.err with repairing := false } }
    let s := ((s.addF fdErraggSpareFlasksUsed pgErragg 0 1).raiseSpare 1).trace 110 0xFF (f * 16 + t) 0
    let s := s.event p 0 (some 6) 0x0104 t us
    let s := match s.flaskOwner f with
      | some c => s.reproChange c
      | none => s
    ((s.pauseFlask f false).relCatchUp f).releaseMesh f
  | none => s

/-- TILE_REMAP_START. -/
def execTileRemapStart (f : FlaskId) (t : Fin 16) (s : State) : Out := .next (s.remapStart f.val t.val)

/-- TILE_REMAP_END. -/
def execTileRemapEnd (f : FlaskId) (s : State) : Out := .next (s.remapEnd f.val).finish

/-! ### Sleep and wake (R55–R58) -/

/-- The core is between kernels or blocked in a counter wait (R56, R157). -/
def CoreState.restful (k : CoreState) : Bool :=
  !k.running || (match k.blocked with
    | .wait _ _ _ _ => true
    | .waitHeld _ _ _ _ => true
    | .bwait _ _ _ => true
    | _ => false)

/-- A SLEEP command is accepted in AWAKE (R56). -/
def State.sleepOk (s : State) (f : Nat) : Bool :=
  (s.flask f).held.isEmpty && (s.flask f).moving.isNone &&
    (tilesOf f).all fun t => (s.core t).restful && (s.tile t).fcuq.isEmpty

/-- Sleep entry starts: every unit of the flask is unpowered (R59). -/
def State.sleepStart (s : State) (f : Nat) : State :=
  ((s.setPstate f psEntering).unitsOff f).trace 57 0xFF f s.now

/-- A SLEEP command: the state, or none where it is refused. -/
def State.sleepCmd (s : State) (f : Nat) : Option State :=
  let st := s.pstate f
  if st = psAsleep || st = psEntering then some s
  else if st = psAwake && s.sleepOk f then some (s.sleepStart f)
  else none

/-- A WAKE command (R57). -/
def State.wakeCmd (s : State) (f : Nat) : State :=
  if s.pstate f = psEntering then s.abortSleep f else s.startWake f false

/-- Sleep entry completes. -/
def State.sleepDone (s : State) (f : Nat) : State := if s.pstate f = psEntering then s.setPstate f psAsleep else s

/-- A wake completes: held units power up, a comparator's late action is taken, and held accesses are served (R57–R59, R362). -/
def State.wakeDone (s : State) (f : Nat) : State :=
  if s.pstate f = psWaking then
    (((s.setPstate f psAwake).holdUnitsOn f).relCatchUp f).releaseMesh f
  else s

/-- SLEEP_ENTRY_DONE. -/
def execSleepEntryDone (f : FlaskId) (s : State) : Out := .next (s.sleepDone f.val)

/-- DEMAND_WAKE. -/
def execDemandWake (f : FlaskId) (s : State) : Out := .next (s.arrive f.val)

/-- FLASK_WAKE_DONE. -/
def execFlaskWakeDone (f : FlaskId) (s : State) : Out := .next (s.wakeDone f.val).finish

/-! ### Unit gating (R59) -/

/-- A unit has no instruction queued, waiting or running. -/
def State.unitIdle (s : State) (t : Nat) (u : TileUnit) : Bool :=
  match u with
  | .mx => (s.tile t).mxq.all fun q => mxEngine q.w = .fcu
  | .sv => (s.core t).stalled.all fun op => match op with
    | .sv code _ _ => 0x90 ≤ code
    | _ => true

/-- A unit gates after its idle time. -/
def State.gateUnit (s : State) (t : Nat) (u : TileUnit) : State :=
  let p := pgFlask (flaskOf t)
  if s.serves (flaskOf t) && s.unitOn t u && !s.unitHeld t u && s.unitIdle t u && s.getF fdFlaskGateIdleCycles p ≠ 0 then
    (s.setUnit t u false).event p (1 + t % 16) (some 3) 0x0007 (unitBit t u) 0
  else s

/-- A unit's 120 ns wake ends. -/
def State.unitWoken (s : State) (t : Nat) (u : TileUnit) : State :=
  let f := flaskOf t
  if bitAt (s.flask f).waking (unitBit t u) && s.serves f then
    let s := s.setFlask f { s.flask f with waking := putBits (s.flask f).waking (unitBit t u) (unitBit t u) 0 }
    (s.setUnit t u true).event (pgFlask f) (1 + t % 16) (some 3) 0x0008 (unitBit t u) 240
  else s

/-- UNIT_GATE. -/
def execUnitGate (t : TileId) (u : TileUnit) (s : State) : Out := .next (s.gateUnit t.val u)

/-- UNIT_WAKE_DONE. -/
def execUnitWakeDone (t : TileId) (u : TileUnit) (s : State) : Out := .next (s.unitWoken t.val u).finish

/-- Hold bits just written: units gated in an AWAKE flask start to wake. -/
def State.holdWrite (s : State) (f : Nat) : State :=
  s.forEach (tilesOf f) fun t s =>
    let s := if s.unitHeld t .mx then s.startUnitWake t .mx else s
    if s.unitHeld t .sv then s.startUnitWake t .sv else s

end Sys2Proof.Machine
end

