-- ==== Sys2Proof/Machine/Graph.lean ====
section
/-! DEFINITION. Steps of a graph (R24–R27, R221–R243, R359, R409, R538, R539): release, node start and end, vote, commit and
deadlines. -/
namespace Sys2Proof.Machine

/-! ### Placement (R230) -/

/-- The tiles of a node, by rank. -/
def State.nodeTiles (s : State) (c n : Nat) : List Nat :=
  let m := (s.gnode c n).tmask
  (s.nodeFlasks c n).flatMap fun f => (tilesOf f).filter fun t => bitAt m (t % 16)

/-- The in-counters that a graph needs fit its context's allotment, and so do its slots (R227, R229). -/
def Graph.fits (g : Graph) (flasks : Nat) : Bool :=
  (g.nodes.all fun x => x.nslot = 0 || x.slot0 + x.nslot ≤ flasks) &&
    ((List.range g.nodes.length).filter fun n => g.preds n ≠ 0).length ≤ 128 * flasks

/-- The predicted start of a node (R234): under LEARN, the median of its starts over the last 8 committed steps. -/
def State.predStart (s : State) (c n : Nat) : Nat :=
  let h := (s.ctx c).history
  match s.graph c with
  | some g =>
    if bitAt g.flags 2 && 8 ≤ h.length then
      (sortBy (fun a b => decide (a ≤ b)) ((h.take 8).map fun l => l.getD n 0)).getD 3 0
    else (s.gnode c n).pstart
  | none => 0

/-! ### Release (R228, R235, R265, R409) -/

/-- CUR and PREV of a role while heat h + 1 is produced (R24). -/
def GRole.bases (r : GRole) (heat : Nat) : Nat × Nat :=
  if r.kind = 0 then (r.base0, r.base0)
  else if (heat + 1) % 2 = 0 then (r.base0, r.base1) else (r.base1, r.base0)

/-- The resolved role table (R235). -/
def Graph.rolesTable (g : Graph) (heat attempt soft hard : Nat) : List Byte :=
  leBytes 8 (heat + 1) ++ leBytes 4 attempt ++ leBytes 4 0 ++ leBytes 8 soft ++ leBytes 8 hard ++
    g.roles.flatMap fun r =>
      leBytes 8 (r.bases heat).1 ++ leBytes 8 (r.bases heat).2 ++ leBytes 8 r.length ++ leBytes 8 0

/-- The write-protect entries of a context for a step: one for the PREV buffer of each PAIRED role (R265). -/
def State.protectPrev (s : State) (c : Nat) (g : Graph) (heat : Nat) : State :=
  let rest := s.hbm.wp.filter fun e => e.1 / 256 ≠ c
  let prev := ((g.roles.filter fun r => r.kind = 1).map fun r =>
    ({ base := (r.bases heat).2, len := r.length / 256, ctx := c, valid := true } : WpEntry)).zipIdx
  { s with hbm := { s.hbm with wp := prev.foldl (fun m (e, i) => mapPut {} m (c * 256 + i) e) rest } }

/-- COUNT and SUM of every entry of the digest table zeroed (R409). -/
def State.zeroDigests (s : State) (c : Nat) : State :=
  s.forEach (List.range (s.getF fdReproCtxDtabN pgRepro c)) fun i s =>
    s.engineWrite .firmware (s.getF fdReproCtxDtab pgRepro c + 32 * i + 8) (zeros 16)

/-- Cores bound ahead of a release that does not come are unbound. -/
def State.unbindHeld (s : State) (c : Nat) : State :=
  let s := s.forEach ((s.ctx c).prebound.flatMap fun n => s.nodeTiles c n) fun t s =>
    s.setCore t { s.core t with running := false, user := false, heldStart := false }
  s.setCtx c { s.ctx c with prebound := [] }

/-- `CTX[c].STATE` set. -/
def State.setCtxState (s : State) (c v : Nat) : State := s.setF fdSchedCtxState pgSched c v

/-- Replay stops, and no release follows. -/
def State.stopReplay (s : State) (c v : Nat) : State :=
  let s := (s.unbindHeld c).setCtxState c v
  s.setCtx c { s.ctx c with nextRelease := 0 }

/-- The unsolicited CTX_STATE status on the context's queues (R242, R383). -/
def State.tellState (s : State) (c status : Nat) : State :=
  let qs := (s.queues.filter fun x => x.2.ctx = some c).map (·.1)
  let v := s.ctxState c
  s.forEach qs fun q s => s.sendStatus q { op := 0x8002, ctx := c, body := leBytes 1 c ++ leBytes 1 v ++ leBytes 1 status }

/-- An ALLOT that waited for the release takes effect (R216): none where the active graph no longer fits. -/
def State.applyAllot (s : State) (c : Nat) : Option State :=
  match (s.ctx c).pendingAllot with
  | none => some s
  | some (fs, cores, _) =>
    let s := (s.setCtx c { s.ctx c with flasks := fs, cores := cores, pendingAllot := none }).unbindHeld c
    if (s.graph c).elim true fun g => g.fits fs.length then some s else none

/-- The next attempt number (R235). -/
def nextAttempt (a : Nat) : Nat := if 0xFFFFFFFF ≤ a then 1 else a + 1

/-- A release begins a new entry of the context's draws (R469). -/
def State.noteRelease (s : State) (c at' : Nat) : State :=
  { s with power := { s.power with
      draws := mapPut [] s.power.draws c ((0 :: mapGet [] s.power.draws c).take 8)
      drawSince := mapPut 0 s.power.drawSince c (at' + 1) } }

/-- A step is released. -/
def State.release (s : State) (c : Nat) (g : Graph) : State :=
  let x := s.ctx c
  let heat := s.getF fdSchedCtxHeat pgSched c
  let attempt := nextAttempt (s.getF fdSchedCtxAttempt pgSched c)
  let at' := x.nextRelease
  let soft := if g.soft = 0 then 0 else at' + g.soft
  let hard := if g.hard = 0 then 0 else at' + g.hard
  let s := s.setF fdSchedCtxAttempt pgSched c attempt
  let s := if x.cores ≠ 0 then s.applyShadow pgPd else s
  let s := s.engineWrite .firmware g.roletab (g.rolesTable heat attempt soft hard)
  let s := (s.trace 18 c (heat + 1) attempt).protectPrev c g heat
  let s := s.zeroDigests c
  let n := g.nodes.length
  let s := s.engineWrite .firmware g.nstat (List.replicate n (BitVec.ofNat 8 nsPending))
  let s := s.forEach (List.range n) fun m s =>
    match s.inCounter c m with
    | some id => (s.arrive (flaskOf (counterTile id))).counterInit id 0 (g.preds m)
    | none => s
  let run : StepRun :=
    { active := true, release := at', soft := soft, hard := hard, heat := heat + 1, attempt := attempt,
      nstat := List.replicate n nsPending, starts := (List.range n).map fun m => s.predStart c m }
  let s := ((s.setCtx c { s.ctx c with run := run, nextRelease := 0 }).noteRelease c at').trace 12 c (heat + 1) attempt
  let s := s.reproTake c
  let bound := (s.ctx c).prebound
  let s := s.setCtx c { s.ctx c with prebound := [] }
  s.forEach bound fun m s =>
    (s.startNode c m).withRun c fun r => { r with
      readied := r.readied ++ [m]
      tilesLeft := r.tilesLeft ++ (s.nodeTiles c m).map fun t => (m, t) }

/-- STEP_RELEASE: a RUNNING context whose next release is set. -/
def State.stepRelease (s : State) (c : Nat) : State :=
  let x := s.ctx c
  if !(x.isOpen && s.ctxState c = csRunning && !x.run.active && !x.uncorrected && x.nextRelease ≠ 0) then s
  else match s.applyAllot c with
    | none => ((s.setCtx c { x with pendingAllot := none, flasks := (x.pendingAllot.getD ([], 0, 0)).1,
                                    cores := (x.pendingAllot.getD ([], 0, 0)).2.1 }).trace 0 c 0 0x000A).stopReplay c csIdle
    | some s =>
      match s.graph c with
      | some g => s.release c g
      | none => s

/-! ### Prewake (R27, R234) -/

/-- PREWAKE: WAKE to the flasks of a node, or to the linkage array. -/
def State.prewake (s : State) (c n : Nat) : State :=
  if (s.gnode c n).kind = 3 then
    let s := if s.lsa.gated then { s with lsa := { s.lsa with waking := true } } else s
    s.trace 60 c n s.now
  else s.forEach (s.nodeFlasks c n) fun f s => (s.wakeCmd f).trace 56 c f s.now

/-! ### Starting on tiles (R38, R231, R359) -/

/-- The tiles of a node are free: no kernel is bound to them, and no running node holds them. -/
def State.tilesFree (s : State) (c n : Nat) : Bool :=
  let mine := s.nodeTiles c n
  let used := (List.range (s.ctx c).run.nstat.length).filter fun m =>
    s.nodeCode c m = nsRunning && (s.gnode c m).onTiles && (s.nodeTiles c m).any fun t => mine.contains t
  used.isEmpty && mine.all fun t => !(s.core t).running

/-- No ready node of a lower index waits for the same tiles (R231). -/
def State.firstInLine (s : State) (c n : Nat) : Bool :=
  let mine := s.nodeTiles c n
  (List.range n).all fun m =>
    !(s.nodeReady c m && (s.gnode c m).onTiles && (s.nodeTiles c m).any fun t => mine.contains t)

/-- P of a node under class G (R400), else 0. -/
def State.classP (s : State) (c n : Nat) : Nat :=
  if (s.reproOf c).cls = 1 then ((s.nodeFlasks c n).map s.healthyTiles).foldl (· + ·) 0 else 0

/-- Every CSR of a tile at its reset value (R231). -/
def State.resetCsrs (s : State) (t : Nat) : State :=
  { s with csrs := s.csrs.filter fun x => x.1 / 4096 ≠ t }

/-- A tile's image as R231 step 1 loads it; none where its source is poisoned (R38). -/
def State.bindImage (s : State) (c n t : Nat) (image : ImemImage) : Option State :=
  if (s.core t).image = some image then some s
  else
    let (s, bs, good) := s.imemSource { tiles := 0, src := image.src, len := image.len }
    if good = image.len then some ((s.imemFill (flaskOf t) (2 ^ (t % 16)) bs (some image)).trace 36 c n nsRunning) else none

/-- A kernel is bound to a tile (R33, R231). -/
def State.bindTile (s : State) (c n t rank count : Nat) (held : Bool) : State :=
  let x := s.gnode c n
  let g := (s.graph c).getD {}
  let s := s.resetCsrs t
  let s := if bitAt g.flags 1 then s.setCsr t 0x861 0 else s
  let s := { s with tally := s.tally.filter fun y => y.1 / 16 ≠ t }
  let k := s.core t
  let s := s.setCore t { k with
    ctx := some c, node := n, running := true, user := true, trap := none, blocked := .none, reservation := none,
    heldStart := held, stalled := [] }
  let s := ((((s.setX t 10 x.arg).setX t 11 rank).setX t 12 count).setX t 13 g.roletab).setX t 14 (s.classP c n)
  let (kind, s) := s.free
  let s := s.event (pgFlask (flaskOf t)) (1 + t % 16) (some 0) 0x0001 kind n
  s.trace 37 c n nsRunning

/-- The hold bits of a node's units set or cleared (R59, R223). -/
def State.holdNode (s : State) (c n : Nat) (on : Bool) : State :=
  if !bitAt (s.gnode c n).flags 1 then s
  else s.forEach (s.nodeFlasks c n) fun f s =>
    let p := pgFlask f
    let m := (s.gnode c n).tmask
    let f' := fun v => if on then v ||| m else v - (v &&& m)
    let s := (s.setF fdFlaskGateHoldMx p 0 (f' (s.getF fdFlaskGateHoldMx p))).setF fdFlaskGateHoldSv p 0
      (f' (s.getF fdFlaskGateHoldSv p))
    if on then s.holdWrite f else s

/-- The images of a node's tiles are resident, one after another; the offset of the first poisoned source otherwise. -/
def State.bindImages (s : State) (c n : Nat) (image : ImemImage) : List Nat → State × Bool
  | [] => (s, true)
  | t :: ts =>
    match s.bindImage c n t image with
    | some s => s.bindImages c n image ts
    | none => (s.setCore t { s.core t with image := none }, false)

/-- The kernels of a TILE node are bound, at once or held for the release; none where its image is poisoned (R38). -/
def State.bindNode (s : State) (c n : Nat) (held : Bool) : Option State × State :=
  let x := s.gnode c n
  let ts := s.nodeTiles c n
  let image : ImemImage := { src := x.p0, len := bits x.p1 8 0 * 256 }
  let s := s.forEach (s.nodeFlasks c n) fun f s => s.applyShadow (pgFlask f)
  match s.bindImages c n image ts with
  | (s, true) =>
    let s := s.holdNode c n true
    let s := s.forEach ts.zipIdx fun (t, i) s => s.bindTile c n t i ts.length held
    (some s, s)
  | (s, false) => (none, s.controlPoison pgSched (some c) image.src)

/-- LATE_WAKE of the flasks that a node waited for (R27). -/
def State.lateWakes (s : State) (c n : Nat) : State :=
  let mine := (s.ctx c).run.late.filter fun x => x.1 = n
  let s := s.forEach mine fun (_, f, since) s => s.trace 35 c f (s.now - since)
  s.withRun c fun r => { r with late := r.late.filter fun x => x.1 ≠ n }

/-- The flasks of a node that are not AWAKE get a WAKE, and the node waits for them. -/
def State.awaitFlasks (s : State) (c n : Nat) (fs : List Nat) : State :=
  let now := s.now
  s.forEach fs fun f s =>
    let s := s.wakeCmd f
    if (s.ctx c).run.active && !(s.ctx c).run.late.any fun x => x.1 = n && x.2.1 = f then
      s.withRun c fun r => { r with late := r.late ++ [(n, f, now)] }
    else s

/-! ### Exchange (R226) -/

/-- A run of element bits as bytes: where it starts in bits, its width and values. -/
def elemBits (first w : Nat) (old : Nat) (vs : List Nat) : Nat :=
  let sh := first % 8
  let n := vs.foldr (fun v acc => v % 2 ^ w + acc * 2 ^ w) 0
  if vs.isEmpty then old else putBits old (sh + vs.length * w - 1) sh n

/-- Elements written at a bit position of local memory, poisoned ones as poisoned. -/
def State.putLocal (s : State) (c base first w : Nat) (es : List Elem) : State :=
  if es.isEmpty then s
  else
    let lo := base + first / 8
    let n := (first % 8 + es.length * w + 7) / 8
    let (s, old) := s.readNat lo n
    let s := s.engineWrite (engineOf c) lo (leBytes n (elemBits first w old (es.map (·.1))))
    s.forEach (es.zipIdx.filter fun x => x.1.2) fun (_, i) s =>
      let b := base + (first + i * w) / 8
      let (s, bs, _) := s.engineRead b ((w + 7) / 8)
      s.engineWrite (engineOf c) b bs true

/-- Elements written to a node as WRITEs of 256 B (R226). -/
def State.putRemote (s : State) (c n node base first w : Nat) (es : List Elem) : State :=
  let lo := base + first / 8
  let len := (first % 8 + es.length * w + 7) / 8
  let bs := leBytes len (elemBits first w 0 (es.map (·.1)))
  let bad := es.any (·.2)
  s.forEach (List.range ((len + 255) / 256)) fun i s =>
    let part := (bs.drop (256 * i)).take 256
    match s.issue c 8 kWRITE node (lo + 256 * i) part.length (.exchange c n)
        fun pk => { pk with payload := part, mask := BitVec.ofNat 16 bad.toNat } with
    | .ok s => s
    | .error .dead => (s.targetDead c node).failNode c n
    | .error _ => s.failNode c n

/-- An element of local memory. -/
def State.localElem (s : State) (base w i : Nat) : Elem :=
  let first := i * w
  let lo := base + first / 8
  let n := (first % 8 + w + 7) / 8
  (s.loadNat lo n / 2 ^ (first % 8) % 2 ^ w, s.linesPoisoned lo n)

/-- One element converted for an exchange. The entry states no XP128 exponent, so that one is free (log entry 12). -/
def exchangeElem (x : GExch) (ex : Int) (e : Elem) : Elem :=
  let r : Res :=
    if x.dstType = tXP128 then xpOfFloat (srcVal x.srcType e.1) ex
    else if x.srcType = tXP128 then (tyFmt x.dstType).ofXp e.1 ex
    else convertOn x.srcType x.dstType e.1 (bitAt x.flags 0) 0
  (r.1, e.2)

/-- One exchange entry. -/
def State.exchangeOne (s : State) (c n : Nat) (g : Graph) (x : GExch) : State :=
  let heat := s.getF fdSchedCtxHeat pgSched c
  let base := fun r => ((g.roles.getD r {}).bases heat).1
  let w := tyBits x.srcType
  let dw := tyBits x.dstType
  let (s, _, _) := s.engineRead (base x.src + x.offset * w / 8) ((x.count * w + 15) / 8)
  let es := (List.range x.count).map fun i => s.localElem (base x.src) w (x.offset + i)
  let (v, s) := s.free
  let out := fun (s : State) at' first ew vs =>
    if bitAt x.flags 1 then s.putRemote c n x.node at' first ew vs else s.putLocal c at' first ew vs
  if bitAt x.flags 2 then
    let blocks := (List.range ((x.count + 31) / 32)).map fun k => (es.drop (32 * k)).take 32
    let packed := blocks.map fun b =>
      let good := b.filter fun e => !e.2
      let r := mxBlock x.dstType (good.map fun e => srcVal x.srcType e.1) (b.length < 32) (b.any (·.2))
      (r.1.getD 0, b.map fun e => (((r.2.2) (srcVal x.srcType e.1)).1, e.2))
    let s := out s (base x.dst) (x.offset * dw) dw (packed.flatMap (·.2))
    out s (base (x.dst + 1)) (x.offset / 32 * 8) 8 (packed.map fun p => (p.1, false))
  else out s (base x.dst) (x.offset * dw) dw (es.map (exchangeElem x (signedOf 16 v)))

/-- An EXCHANGE node runs its table; its tiles are bound to firmware's own kernel, whose image stays in no kernel's name. -/
def State.exchangeNode (s : State) (c n : Nat) : State :=
  let g := (s.graph c).getD {}
  let table := (g.exch.find? fun x => x.1 = n).elim [] (·.2)
  let s := s.forEach (s.nodeTiles c n) fun t s => (s.resetCsrs t).setCore t { s.core t with image := none }
  let s := s.trace 92 c n 0
  s.forEach table fun x s => s.exchangeOne c n g x

/-! ### TILE_NODE_START -/

/-- A node of a running step starts, or is bound ahead of the release; it waits while a flask of it is quiesced (R549). -/
def State.tileNodeStart (s : State) (c n : Nat) : State :=
  let x := s.ctx c
  let g := s.gnode c n
  let ahead := !x.run.active && s.ctxState c = csRunning && x.isOpen && x.nextRelease ≠ 0 && g.kind = 1 &&
    !x.prebound.contains n && (s.graph c).elim false fun y => n < y.nodes.length && y.preds n = 0
  let quiet := (s.nodeFlasks c n).any fun f => s.getF fdComCtrlQuiesce (pgFlask f) = 1
  if quiet || !(g.onTiles && (ahead || s.nodeReady c n)) then s
  else
    let asleep := (s.nodeFlasks c n).filter fun f => !s.relReady f
    if !asleep.isEmpty then s.awaitFlasks c n asleep
    else if !(s.tilesFree c n && (ahead || s.firstInLine c n)) then s
    else if ahead then
      match s.bindNode c n true with
      | (some s, _) =>
        let s := s.setCtx c { s.ctx c with prebound := (s.ctx c).prebound ++ [n] }
        let m := (s.nodeFlasks c n).foldl (fun a f => a ||| 2 ^ f) (if s.getF fdFtimeRelArm pgFtime (2 * c) = 1 then s.relMask (2 * c) else 0)
        let s := ((s.setRelMask (2 * c) m).setF fdFtimeRelAction pgFtime (2 * c) 1).setF fdFtimeRelTime pgFtime (2 * c) x.nextRelease
        s.armRel (2 * c)
      | (none, s) => s
    else if g.kind = 5 then ((s.lateWakes c n).startNode c n).exchangeNode c n
    else
      match s.bindNode c n false with
      | (some s, _) =>
        let s := (s.lateWakes c n).startNode c n
        let ts := s.nodeTiles c n
        s.withRun c fun r => { r with tilesLeft := r.tilesLeft ++ ts.map fun t => (n, t) }
      | (none, s) => s

/-! ### Node end (R228, R231–R234, R538, R539) -/

/-- A core's work is abandoned: unit work, waits, and accesses not yet served (R99, R141, R153). -/
def State.abandonTile (s : State) (t : Nat) : State :=
  let s := (s.abandonUnits t).withdraw t
  let ofCore := fun (h : Held) => match h with
    | .core k _ => k = t
    | _ => false
  let s := s.forEach (List.range 256) fun f s =>
    if (s.flask f).held.any ofCore then s.setFlask f { s.flask f with held := (s.flask f).held.filter fun h => !ofCore h } else s
  let k := s.core t
  s.setCore t { k with running := false, user := false, heldStart := false, blocked := .none, stalled := [], reservation := none }

/-- The bracket record of a node (R539). -/
def State.bracket (s : State) (c n code : Nat) : State :=
  if s.getF fdObsBrkEn pgObs c = 0 then s
  else
    let r := (s.ctx c).run
    let counts := (List.range 16).map fun k => (s.nodeTiles c n).foldl (fun a t => a + mapGet 0 s.tally (t * 16 + k)) 0
    let rec' := leBytes 8 r.heat ++ leBytes 4 r.attempt ++ leBytes 2 n ++ leBytes 1 code ++ leBytes 1 0 ++
      leBytes 8 (r.release + r.starts.getD n 0) ++ leBytes 8 s.now ++ counts.flatMap (leBytes 8)
    let base := s.getF fdObsBrkBase pgObs c
    let (s, k) := s.readNat base 8
    let s := s.engineWrite .firmware (base + 256 + k % 2 ^ s.getF fdObsBrkLog2 pgObs c * 256) (fitTo 256 rec')
    s.engineWrite .firmware base (leBytes 8 (k + 1))

/-- A flask that no node of the step will use within SLEEPGAP of its predicted start is put to sleep (R234). -/
def State.sleepAfter (s : State) (c f : Nat) : State :=
  let r := (s.ctx c).run
  let gap := (s.graph c).elim 0 (·.gapTicks)
  let soon := (List.range r.nstat.length).any fun m =>
    (s.nodeFlasks c m).contains f && (s.nodeCode c m = nsRunning ||
      (s.nodeCode c m = nsPending && r.release + s.predStart c m ≤ s.now + gap))
  if soon then s
  else match s.sleepCmd f with
    | some s => s
    | none => s.reject (pgFlask f) 0x104 4 1

/-- The code with which a running node is to end, where its end has come (R224). -/
def State.endCode (s : State) (c n : Nat) : State × Option Nat :=
  let r := (s.ctx c).run
  let x := s.gnode c n
  let fault := r.faulted.contains n
  match x.kind with
  | 1 =>
    if fault then (s, some nsFault)
    else if r.tilesLeft.any fun y => y.1 = n then (s, none) else (s, some nsDone)
  | 2 =>
    let (s, v) := s.readNat x.p1 8
    (s, if v = r.attempt then some nsDone else if v = r.attempt + 2 ^ 63 then some nsFault else none)
  | 3 =>
    match r.batches.find? fun b => b.1 = n with
    | none => (s, none)
    | some (_, k) =>
      match s.lsa.ended.find? fun y => y.1 = c && y.2.1 = k with
      | none => (s, none)
      | some (_, _, code) =>
        let s := { s with lsa := { s.lsa with ended := s.lsa.ended.filter fun y => !(y.1 = c && y.2.1 = k) } }
        (s.trace 89 c n code, some (if code = 0xC then nsFault else if code = 2 then nsAbandoned else nsDone))
  | 4 =>
    match s.coll.ended.find? fun y => y.1 = c && y.2.1 = n with
    | none => (s, none)
    | some (_, _, code) =>
      let s := { s with coll := { s.coll with ended := s.coll.ended.filter fun y => !(y.1 = c && y.2.1 = n) } }
      (s.trace 91 c n code, some (if code = 1 || code = 2 || code = 6 then nsFault else nsDone))
  | 5 =>
    let open' := (s.liveTags.any fun y => y.2.origin = .exchange c n) || s.ecrok.stalled.any fun y => y.origin = .exchange c n
    if fault then (s.trace 93 c n 1, some nsFault) else if open' then (s, none) else (s.trace 93 c n 0, some nsDone)
  | _ => (s, none)

/-! ### The end of a step (R237–R242) -/

/-- The step record (R239). -/
def StepRun.record (r : StepRun) (status now vote : Nat) : List Byte :=
  fitTo 64 (leBytes 8 r.heat ++ leBytes 4 r.attempt ++ leBytes 1 status ++ leBytes 1 0 ++ leBytes 2 r.dropped ++
    leBytes 2 r.firstBad ++ leBytes 6 0 ++ leBytes 8 r.release ++ leBytes 8 now ++ leBytes 8 vote)

/-- Firmware writes the step record. -/
def State.writeRecord (s : State) (c status vote : Nat) : State :=
  match s.graph c with
  | none => s
  | some g =>
    let r := (s.ctx c).run
    let s := s.setCtx c { s.ctx c with lastStatus := status }
    s.engineWrite .firmware (g.steprec + r.attempt % 16 * 64) (r.record status s.now vote)

/-- The digest log of a committed step (R409). -/
def State.logDigests (s : State) (c heat status : Nat) : State :=
  s.forEach (List.range (s.getF fdReproCtxDtabN pgRepro c)) fun i s =>
    let (s, bs, _) := s.engineRead (s.getF fdReproCtxDtab pgRepro c + 32 * i) 32
    if leField bs 8 8 = 0 then s
    else
      let head := s.getF fdReproCtxDlogHead pgRepro c
      let at' := s.getF fdReproCtxDlog pgRepro c + head % 2 ^ s.getF fdReproCtxDlogLog2 pgRepro c * 32
      let rec' := leBytes 8 heat ++ bs.take 4 ++ leBytes 1 status ++ leBytes 3 0 ++ (bs.drop 8).take 16
      (s.engineWrite .firmware at' rec').setF fdReproCtxDlogHead pgRepro c (head + 1)

/-- Checkpoints due at the commit of a heat are marked (R413). -/
def State.markDue (s : State) (c heat : Nat) : State :=
  let g := (s.graph c).getD {}
  let due := g.nodes.filter fun x => x.kind = 6 && x.p1 % 2 ^ 32 ≠ 0 && heat % (x.p1 % 2 ^ 32) = 0
  let s := s.forEach due fun x s => s.ckptMark c x.p0 heat
  match (s.ckpt c).request with
  | some (off, h) => if h = heat then (s.setCkpt c { s.ckpt c with request := none }).ckptMark c off heat else s
  | none => s

/-- The step in progress is over. -/
def State.closeStep (s : State) (c : Nat) : State := s.withRun c fun r => { r with active := false }

/-- After a step that replay goes on from: the next release, or a stop that was asked for takes effect (R238, R243). -/
def State.scheduleNext (s : State) (c next : Nat) : State :=
  if s.ctxState c = csStopping then s.stopReplay c csIdle
  else s.setCtx c { s.ctx c with nextRelease := next }

/-- The next release after a step (R238): a PERIOD on under PERIODIC, else the time of a vote. -/
def State.nextAfter (s : State) (c vote : Nat) : Nat :=
  match s.graph c with
  | none => 0
  | some g => if bitAt g.flags 0 then (s.ctx c).run.release + g.period else vote % 2 ^ 63

/-- A step commits (R238). -/
def State.commitStep (s : State) (c vote : Nat) : State :=
  let r := (s.ctx c).run
  let status := if r.softPassed || (r.soft ≠ 0 && r.soft ≤ s.now) then 1 else 0
  let now := s.now
  let s := (s.writeRecord c status vote).logDigests c r.heat status
  let s := (s.setF fdSchedCtxHeat pgSched c r.heat).setF fdSchedCtxHardRun pgSched c 0
  let s := (s.markDue c r.heat).trace 13 c r.heat r.attempt
  let x := s.ctx c
  let s := s.setCtx c { x with commits := x.commits + 1, history := (r.starts :: x.history).take 8 }
  let s := match x.report with
    | some (q, _, n) =>
      if n ≠ 0 && (x.commits + 1) % n = 0 then s.sendStatus q { op := 0x8001, ctx := c, body := r.record status now vote } else s
    | none => s
  (s.closeStep c).scheduleNext c (s.nextAfter c vote)

/-- A step ends without commit by its vote: a failure of this node puts the context into FAULTED, another member's does not (R239,
R242). -/
def State.failStep (s : State) (c vote : Nat) : State :=
  let own := (s.ctx c).run.failed
  let status := if own then 3 else 4
  let s := ((s.writeRecord c status vote).setF fdSchedCtxHardRun pgSched c 0).closeStep c
  if own then (s.stopReplay c csFaulted).tellState c 3
  else (s.trace 4 c 0 4).scheduleNext c (s.nextAfter c vote)

/-- VOTE_RESULT. A step that was abandoned at HARD takes its next release from the result. -/
def State.voteResult (s : State) (c vote : Nat) : State :=
  let r := (s.ctx c).run
  if !r.voted then s
  else
    let single := (s.graph c).elim true fun g => g.group = 0xFFFF
    let vote := if single then r.voteWord else vote % 2 ^ 64
    let s := (s.setRuns (s.coll.runs.filter fun y => !(y.ctx = c && y.kind = 2))).trace 17 c r.heat vote
    let s := s.withRun c fun r => { r with voted := false }
    if !r.active then
      if s.ctxState c = csRunning && (s.ctx c).nextRelease = 0 then s.scheduleNext c (s.nextAfter c vote) else s
    else if bitAt vote 63 then s.failStep c vote
    else if (s.ctx c).uncorrected then s.withRun c fun r => { r with voted := true }
    else s.commitStep c vote

/-- Collectives of graph nodes stop at HARD (R241, R351). -/
def State.collHard (s : State) (c : Nat) : State :=
  let mine := s.coll.runs.filter fun r => r.ctx = c && r.kind = 0
  let s := s.setRuns (s.coll.runs.filter fun r => !(r.ctx = c && r.kind = 0))
  let s := s.forEach mine fun r s => s.collStatus c r.desc 5 r.flags
  let x := s.ctx c
  let late := fun (p : Packet) => p.job.toNat = x.job && p.seq.toNat / 4096 = x.run.attempt % 2 ^ 20 && p.seq.toNat % 4096 ≠ 4095
  let n := (s.coll.held.filter late).length
  let s := { s with coll := { s.coll with
    held := s.coll.held.filter fun p => !late p
    ended := s.coll.ended.filter fun y => y.1 ≠ c
    waiting := s.coll.waiting.filter fun y => y.1 ≠ c } }
  (s.addF fdCollCntStale pgColl 0 n).count pgColl 6 n

/-- Everything that runs of a step is abandoned: running nodes ABANDONED, the others NOT_RUN (R241). -/
def State.abandonStep (s : State) (c : Nat) : State :=
  let r := (s.ctx c).run
  let ns := List.range r.nstat.length
  let running := ns.filter fun n => s.nodeCode c n = nsRunning
  let rest := ns.filter fun n => s.nodeCode c n = nsPending
  let s := s.forEach (running.filter fun n => (s.gnode c n).kind = 1) fun n s =>
    (s.forEach (s.nodeTiles c n) fun t s => s.abandonTile t).holdNode c n false
  let s := s.collHard c
  let s := { s with ecrok := { s.ecrok with stalled := s.ecrok.stalled.filter fun y =>
    !(running.any fun n => y.origin = Origin.exchange c n) } }
  let s := s.forEach running fun n s => (s.setNode c n nsAbandoned).trace 34 c n nsAbandoned
  let s := s.forEach rest fun n s => s.setNode c n nsNotRun
  s.withRun c fun r => { r with
    tilesLeft := []
    firstBad := if r.firstBad = 0xFFFF then (running ++ rest).headD 0xFFFF else r.firstBad }

/-- The step ends DEADLINE_HARD (R237, R241, R242): it votes a failure, and after MAXHARD such steps the context stalls. -/
def State.stepHard (s : State) (c : Nat) : State :=
  let r := (s.ctx c).run
  match s.graph c with
  | none => s
  | some g =>
    if !r.active || r.voted then s
    else
      let s := ((s.trace 1 c ((s.ctx c).run.nstat.findIdx fun x => x = nsRunning) 2).abandonStep c).contribute c true
      let word := (s.ctx c).run.voteWord
      let s := ((s.writeRecord c 2 0).closeStep c).addF fdSchedCtxHardRun pgSched c 1
      let periodic := bitAt g.flags 0
      let single := g.group = 0xFFFF
      let s := if single then s.withRun c fun r => { r with voted := false } else s
      if (if g.maxHard = 0 then 3 else g.maxHard) ≤ s.getF fdSchedCtxHardRun pgSched c then
        ((s.stopReplay c csStalled).trace 3 c c 2).tellState c 2
      else if s.ctxState c = csStopping then s.stopReplay c csIdle
      else if periodic || single then s.scheduleNext c (s.nextAfter c word)
      else s

/-- STEP_HARD_DEADLINE: HARD passes for a step that has a hard deadline and has not contributed. -/
def State.hardDeadline (s : State) (c : Nat) : State := if (s.ctx c).run.hard = 0 then s else s.stepHard c

/-- VOTE_LOST (R237). -/
def State.voteLost (s : State) (c : Nat) : State :=
  let r := (s.ctx c).run
  if !r.voted then s
  else
    let s := s.setRuns (s.coll.runs.filter fun y => !(y.ctx = c && y.kind = 2))
    let s := if r.active then s.writeRecord c 6 0 else s
    let s := ((s.withRun c fun r => { r with voted := false }).closeStep c).trace 5 c 0 6
    let s := s.jobFatal c 0x0101 0 0
    if r.active && (s.graph c).elim false fun g => bitAt g.flags 0 then s.scheduleNext c (s.nextAfter c 0)
    else if s.ctxState c = csStopping then s.stopReplay c csIdle else s

/-- Firmware's side of a node's end. -/
def State.finishNode (s : State) (c n code : Nat) : State :=
  let x := s.gnode c n
  if code = nsAbandoned then s.stepHard c
  else
    let s := if x.kind = 1 then
        let s := if code = nsFault then s.forEach (s.nodeTiles c n) fun t s => s.abandonTile t else s
        let s := s.withRun c fun r => { r with tilesLeft := r.tilesLeft.filter fun y => y.1 ≠ n }
        let s := s.holdNode c n false
        let (kind, s) := s.free
        s.forEach (s.nodeTiles c n) fun t s =>
          s.event (pgFlask (flaskOf t)) (1 + t % 16) (some 0) 0x0002 kind code
      else s
    let s := if x.onTiles then s.bracket c n code else s
    let s := if x.kind = 2 then s.trace 40 c n code else s
    let s := s.endNode c n code
    if x.onTiles then s.forEach (s.nodeFlasks c n) fun f s => s.sleepAfter c f else s

/-- NODE_END: a running node whose end has come ends. -/
def State.nodeEnd (s : State) (c n : Nat) : State :=
  if !((s.ctx c).run.active && s.nodeCode c n = nsRunning) then s
  else match s.endCode c n with
    | (s, some code) => s.finishNode c n code
    | (s, none) => s

/-- DONE_WORD_WRITE: a write of a PD node's done word, which wakes firmware (R232). -/
def State.doneWordWrite (s : State) (c n v : Nat) : State :=
  let x := s.gnode c n
  if x.kind ≠ 2 then s
  else (s.engineWrite (engineOf c) x.p1 (leBytes 8 v)).nodeEnd c n

/-! ### The rows -/

/-- STEP_RELEASE. -/
def execStepRelease (c : CtxId) (s : State) : Out := .next (s.stepRelease c.val).finish

/-- PREWAKE. -/
def execPrewake (c : CtxId) (n : NodeIx) (s : State) : Out := .next (s.prewake c.val n.val).finish

/-- TILE_NODE_START. -/
def execTileNodeStart (c : CtxId) (n : NodeIx) (s : State) : Out := .next (s.tileNodeStart c.val n.val).finish

/-- DONE_WORD_WRITE. -/
def execDoneWordWrite (c : CtxId) (n : NodeIx) (v : Word) (s : State) : Out :=
  .next (s.doneWordWrite c.val n.val v.toNat).finish

/-- NODE_END. -/
def execNodeEnd (c : CtxId) (n : NodeIx) (s : State) : Out := .next (s.nodeEnd c.val n.val).finish

/-- VOTE_RESULT. -/
def execVoteResult (c : CtxId) (vote : Word) (s : State) : Out := .next (s.voteResult c.val vote.toNat).finish

/-- STEP_HARD_DEADLINE. -/
def execStepHardDeadline (c : CtxId) (s : State) : Out := .next (s.hardDeadline c.val).finish

/-- VOTE_LOST. -/
def execVoteLost (c : CtxId) (s : State) : Out := .next (s.voteLost c.val).finish

end Sys2Proof.Machine
end

