-- ==== Sys2Proof/Machine/Port.lean ====
section
/-! DEFINITION. Fabric time (R353–R356, R363) and the life of a port (R288–R290, R294–R303). -/
namespace Sys2Proof.Machine

/-! ### Fabric time -/

/-- OFF (R363). -/
def ftOff : Nat := 0
/-- ACQUIRE. -/
def ftAcquire : Nat := 1
/-- LOCKED. -/
def ftLocked : Nat := 2
/-- HOLDOVER. -/
def ftHoldover : Nat := 3
/-- RESYNC. -/
def ftResync : Nat := 4
/-- ROOT. -/
def ftRoot : Nat := 5

/-- `FTIME.STATE`. -/
def State.ftState (s : State) : Nat := s.getF fdFtimeState pgFtime

/-- A SYNC record goes to every active trace (R542). -/
def State.syncRecord (s : State) : State :=
  let subject := s.ftState + s.getF fdFtimeDepth pgFtime * 256
  let value := s.getF fdFtimeErrorPs pgFtime
  let ptp := s.getF fdEthPtpOffset (pgEth 0)
  let r : TraceRec := ⟨s.now, pgFtime, 0, 0x00FF, subject, value, s.nodeId, ptp⟩
  (s.forEach allCtxs fun c s => s.traceToCtx c r).traceToNode r

/-- `FTIME.STATE` changes, with its event and a SYNC record; time spent in HOLDOVER is counted on leaving it. -/
def State.setFt (s : State) (v : Nat) : State :=
  let old := s.ftState
  if old = v then s
  else
    let s := s.setF fdFtimeState pgFtime 0 v
    let s := if v = ftHoldover then { s with ftime := { s.ftime with holdSince := s.now } } else s
    let s := if old = ftHoldover then s.addF fdFtimeHoldoverMs pgFtime 0 ((s.now - s.ftime.holdSince) / 2000000) else s
    let s := { s with ftime := { s.ftime with good := 0 }, urgentDue := true }
    (s.event pgFtime 0 (some 5) 0x0160 v (s.getF fdFtimeErrorPs pgFtime)).syncRecord

/-- A rate that the servo chooses within ±`lim` parts per 10⁹ (R354: the law is not given). -/
def State.freeRate (s : State) (lim : Nat) : State :=
  let (v, s) := s.free
  s.setF fdFtimeRatePpb pgFtime 0 (wrapTo 32 ((v % (2 * lim + 1) : Nat) - (lim : Int)))

/-- A rate set. -/
def State.setRate (s : State) (ppb : Int) : State := s.setF fdFtimeRatePpb pgFtime 0 (wrapTo 32 ppb)

/-- A port serves fabric time: it is UP and its newest delay is published (R355). -/
def State.timeUsable (s : State) (p : Nat) : Bool := s.portState p = psUp && (s.port p).published && (s.port p).fresh

/-- The port of the parent pair that the child uses (R355). -/
def State.timePort (s : State) (pair : Nat) : Nat := if s.timeUsable (2 * pair) then 2 * pair else 2 * pair + 1

/-- HOLDOVER is entered when both ports of the parent pair are out of UP or neither has a published delay (R354). -/
def State.timePorts (s : State) : State :=
  let pair := s.getF fdFtimeParent pgFtime
  let ok := fun p => s.portUp p && (s.port p).published
  if pair ≤ 8 && (s.ftState = ftLocked || s.ftState = ftResync) && !ok (2 * pair) && !ok (2 * pair + 1) then
    s.setFt ftHoldover
  else s

/-- 1 ns in units of ps / 256. -/
def ns1 : Int := 256000

/-- Fabric time steps forward by an error in ps / 256, to the nearest tick not past it. -/
def State.stepTime (s : State) (e : Int) : State :=
  s.setF fdFtimeNow pgFtime 0 (s.now + (e / 128000).toNat)

/-- What a child does with the error of one TIME packet, in ps / 256 (R354). -/
def State.timeError (s : State) (e : Int) : State :=
  let small := e < ns1 && -ns1 < e
  let st := s.ftState
  if st = ftAcquire then
    let s := { s with ftime := { s.ftime with ahead := false } }
    if small then
      let s : State := { (s.setRate 0) with ftime := { s.ftime with good := s.ftime.good + 1 } }
      if 100 ≤ s.ftime.good then s.setFt ftLocked else s
    else
      let s := { s with ftime := { s.ftime with good := 0 }, urgentDue := true }
      if 0 ≤ e then s.stepTime e
      else if -(1000000 * ns1) ≤ e then s.setRate (-1000000)
      else { s with ftime := { s.ftime with ahead := true } }
  else if st = ftLocked then
    if 50 * ns1 < e || e < -(50 * ns1) then (s.setFt ftResync).freeRate 1000000 else s.freeRate 20000
  else if st = ftHoldover then (s.setFt ftResync).freeRate 1000000
  else if st = ftResync then
    if small then (s.setFt ftLocked).freeRate 20000 else s.freeRate 1000000
  else s

/-- A TIME packet on a port (R354, R355, R305). -/
def State.recvTime (s : State) (p ttx sub depth rxSub : Nat) : State :=
  let pair := s.getF fdFtimeParent pgFtime
  if !s.nodeIdValid || pair > 8 || p ≠ s.timePort pair || s.portState p ≠ psUp || !(s.port p).published then s
  else
    let s := if s.ftState = ftOff then s.setFt ftAcquire else s
    let e : Int := ((ttx * 256 + sub : Nat) - (s.now * 256 + rxSub : Nat) : Int) * 500 + s.getF fdPortDelay (pgPort p) * 256
    let s := s.setF fdFtimeErrorPs pgFtime 0 (wrapTo 32 (e / 256))
    (s.setF fdFtimeDepth pgFtime 0 (depth + 1)).timeError e

/-- `FTIME.PARENT` written (R354, R356). -/
def State.setParent (s : State) (v : Nat) : State :=
  let s := s.setF fdFtimeParent pgFtime 0 v
  if v = 0xE then s.setFt ftOff
  else if v = 0xF then
    let s := if s.ftState = ftOff then s.setF fdFtimeNow pgFtime 0 (max s.now (s.getF fdFtimeStart pgFtime)) else s
    (s.setF fdFtimeDepth pgFtime 0 0).setFt ftRoot
  else if s.ftState = ftRoot then s.setFt ftAcquire
  else s.timePorts

/-- TIME_SEND (R354): a TIME packet on both ports of each pair toward a child. -/
def execTimeSend (s : State) : Out :=
  let st := s.ftState
  let parent := s.getF fdFtimeParent pgFtime
  if st = ftOff || st = ftAcquire then .next s
  else
    let ps := (List.range 18).filter fun p => p / 2 ≠ parent && s.portUp p
    .next (s.forEach ps fun p s =>
      let (v, s) := s.free
      s.emit (.time p s.now (v % 256) (s.getF fdFtimeDepth pgFtime)))

/-- TIME_PACKET. -/
def execTimePacket (p : PortId) (ttx : Word) (sub : Byte) (depth : BitVec 6) (rxSub : Byte) (s : State) : Out :=
  .next (s.recvTime p.val ttx.toNat sub.toNat depth.toNat rxSub.toNat).finish

/-- PPS_EDGE (R356): an edge is a high of at least 100 ns at least 0.5 s after the previous one. -/
def execPpsEdge (highNs : Nat) (s : State) : Out :=
  if highNs < 100 || (s.ftime.lastPps ≠ 0 && s.now + 1 - s.ftime.lastPps < 1000000000) then .next s
  else
    let s := { (s.setF fdFtimePpsTime pgFtime 0 s.now) with ftime := { s.ftime with lastPps := s.now + 1 } }
    .next (if s.ftState = ftRoot && s.getF fdFtimePpsEn pgFtime = 1 then s.freeRate 20000 else s)

/-- COMPARATOR_FIRE (R358, R360). -/
def execComparatorFire (k : Fin 32) (s : State) : Out :=
  if s.getF fdFtimeRelArm pgFtime k.val = 0 then .next s
  else
    let s := s.fireRel k.val false
    .next (if k.val % 2 = 1 then (s.timedFired (k.val / 2)).finish else s.finish)

/-! ### Flows (R289, R290) -/

/-- The flows of a port that leaves UP move to the partner: unacknowledged flits first, then what waits. With the partner out of UP
too, the packets are discarded and counted. -/
def State.moveFlows (s : State) (p : Nat) : State :=
  let l := s.port p
  let q := partner p
  if s.portUp q then
    let m := s.port q
    (s.setPort q { m with carry := m.carry ++ l.unacked ++ l.carry, queue := m.queue ++ l.queue }).setPort p
      { l with unacked := [], cursor := 0, carry := [], queue := [], moved := true }
  else
    (s.setPort p { l with unacked := [], cursor := 0, carry := [], queue := [] }).addF fdPortLost (pgPort (p - p % 2)) 0
      l.queue.length

/-- The flows of a port move back once it is UP and the partner holds nothing of them (R289). -/
def State.moveBack (s : State) (p : Nat) : State :=
  let l := s.port p
  let m := s.port (partner p)
  let holds := m.unacked.any (·.home = p) || m.carry.any (·.home = p) || m.queue.any (·.home = p)
  if l.moved && s.portUp p && !holds then s.setPort p { l with moved := false } else s

/-- `PORT.STATE` changes (R294–R303): with its event; flows move and fabric time looks again where the port enters or leaves
service. -/
def State.setPortState (s : State) (p st cause : Nat) : State :=
  if s.portState p = st && s.getF fdPortDownCause (pgPort p) = cause then s
  else
    let was := s.portUp p
    let s := (s.setF fdPortState (pgPort p) 0 st).setF fdPortDownCause (pgPort p) 0 cause
    let s := s.event (pgPort p) 0 (some 5) 0x0120 st cause
    let s := if was && !s.portUp p then s.moveFlows p else s
    let s := if was && !s.portUp p && !s.portUp (partner p) then { s with urgentDue := true } else s
    let s := if !was && s.portUp p then s.moveBack p else s
    s.timePorts

/-- The port enters DOWN (R299, R301, R302), with its record (R444) and, where capacity is lost, the spare state (R455). -/
def State.portDown (s : State) (p cause : Nat) : State :=
  let l := s.port p
  let s := s.setPort p { l with swapTx := false, swapRx := false, maskTx := 0, maskRx := 0 }
  let s := (s.setPortState p psDown cause).setF fdPortSwapGo (pgPort p) 0 0
  let s := s.detect (pgPort p) 6 { code := 0x0023, detail := BitVec.ofNat 64 cause }
  if cause = 1 || cause = 2 then s.raiseSpare 2 else s

/-! ### Lane swaps (R300, R301) -/

/-- Bits set in an 18-bit circuit mask. -/
def circuitCount (m : Nat) : Nat := ((List.range 18).filter fun i => bitAt m i).length

/-- The circuits of a mask. -/
def circuitsOf (m : Nat) : List Nat := (List.range 18).filter fun i => bitAt m i

/-- The field of active circuits of a direction. -/
def fdActive : Direction → FieldDesc
  | .tx => fdPortLaneTxActive
  | .rx => fdPortLaneRxActive

/-- The field of failed circuits of a direction. -/
def fdFailed : Direction → FieldDesc
  | .tx => fdPortLaneTxFailed
  | .rx => fdPortLaneRxFailed

/-- The field of spares left of a direction. -/
def fdSpares : Direction → FieldDesc
  | .tx => fdPortSparesTx
  | .rx => fdPortSparesRx

/-- A spare circuit for a failed one: on the same fibre where there is one (R300). -/
def State.spareFor (s : State) (p : Nat) (dir : Direction) (c : Nat) : Option Nat :=
  let free := (List.range 18).filter fun i =>
    !bitAt (s.getF (fdActive dir) (pgPort p)) i && !bitAt (s.getF (fdFailed dir) (pgPort p)) i
  match free.find? fun i => i / 9 = c / 9 with
  | some i => some i
  | none => free.head?

/-- One named circuit is swapped out: marked failed, its logical lane mapped onto a spare (R300). A named spare is marked failed. -/
def State.swapOut (s : State) (p : Nat) (dir : Direction) (c : Nat) : State :=
  let pg := pgPort p
  let active := s.getF (fdActive dir) pg
  let failed := s.getF (fdFailed dir) pg
  if bitAt failed c then s
  else
    let spare := if bitAt active c then s.spareFor p dir c else none
    let s := (s.setF (fdFailed dir) pg 0 (putBits failed c c 1)).setF (fdSpares dir) pg 0 (s.getF (fdSpares dir) pg - 1)
    match spare with
    | none => s
    | some i =>
      let s := s.setF (fdActive dir) pg 0 (putBits (putBits active c c 0) i i 1)
      let l := s.port p
      let swap := fun m : List Nat => m.map fun x => if x = c then i else x
      s.setPort p (match dir with
        | .tx => { l with laneTx := swap l.laneTx }
        | .rx => { l with laneRx := swap l.laneRx })

/-- A lane swap of a direction starts, or restarts with further circuits (R300, R301): with more failing circuits than spares the
port enters DOWN, cause NO_SPARE. -/
def State.startSwap (s : State) (p : Nat) (dir : Direction) (circuits : Nat) : State :=
  let pg := pgPort p
  let new := (circuitsOf circuits).filter fun c => !bitAt (s.getF (fdFailed dir) pg) c
  if !s.portUp p || new = [] then s
  else if s.getF (fdSpares dir) pg < new.length then s.portDown p 1
  else
    let s := s.forEach new fun c s => (s.swapOut p dir c).detect pg 6
      { code := 0x0021, service := BitVec.ofNat 16 (c + if dir = .rx then 256 else 0) }
    let s := if s.getF (fdSpares dir) pg = 0 then s.raiseSpare 1 else s
    let l := s.port p
    let mask := new.foldl (fun m c => putBits m c c 1)
    let s := s.setPort p (match dir with
      | .tx => { l with swapTx := true, maskTx := mask l.maskTx }
      | .rx => { l with swapRx := true, maskRx := mask l.maskRx })
    s.setPortState p psSwapping 0

/-- A swap that this end's receiver asks for: a SWAP CONTROL flit names the circuits on the reverse direction (R300). -/
def State.askSwap (s : State) (p circuits : Nat) : State :=
  if s.portUp p && circuits ≠ 0 then (s.emit (.swap p .rx circuits)).startSwap p .rx circuits else s

/-- A commanded swap of the transmit circuit in `SWAP.CIRCUIT` (R300). -/
def State.swapGo (s : State) (p : Nat) : State :=
  let c := 2 ^ s.getF fdPortSwapCircuit (pgPort p)
  if s.portUp p then (((s.setF fdPortSwapGo (pgPort p) 0 1).emit (.swap p .tx c)).startSwap p .tx c) else s

/-- SWAP: a SWAP CONTROL flit names circuits of a direction. -/
def execSwap (p : PortId) (dir : Direction) (circuits : BitVec 18) (s : State) : Out :=
  .next (s.startSwap p.val dir circuits.toNat).finish

/-- A swap of one direction ends: its event, a new delay measurement, and UP once both directions have ended (R297, R300, R301). -/
def State.endSwap (s : State) (p : Nat) (dir : Direction) : State :=
  let l := s.port p
  let (on, mask) := match dir with
    | .tx => (l.swapTx, l.maskTx)
    | .rx => (l.swapRx, l.maskRx)
  if !on || s.portState p ≠ psSwapping then s
  else
    let l := { l with fresh := false, cursor := 0 }
    let l := match dir with
      | .tx => { l with swapTx := false, maskTx := 0 }
      | .rx => { l with swapRx := false, maskRx := 0 }
    let s := (s.setPort p l).count (pgPort p) 7 1
    let s := s.event (pgPort p) 0 (some 6) 0x0121 (if dir = .tx then 0 else 1) mask
    let s := if dir = .tx then s.setF fdPortSwapGo (pgPort p) 0 0 else s
    if l.swapTx || l.swapRx then s else s.setPortState p psUp 0

/-- SWAP_DONE. -/
def execSwapDone (p : PortId) (dir : Direction) (s : State) : Out := .next (s.endSwap p.val dir).finish

/-- LANE_ERROR_WINDOW (R293, R300): receive circuits above `SWAP.THRESH` in the 1 ms start a proactive swap. The counts are those of
the flits that FLIT_RECEIVE corrected and those of the command. -/
def execLaneErrorWindow (p : PortId) (corrected : List Nat) (s : State) : Out :=
  let l := s.port p.val
  let th := s.getF fdPortSwapThresh (pgPort p.val)
  let noisy := (List.range 18).filter fun c => th < mapGet 0 l.corrected c + corrected.getD c 0
  let s := s.setPort p.val { l with corrected := [] }
  .next (if th = 0 then s
    else (s.askSwap p.val ((noisy.filter fun c => bitAt (s.getF fdPortLaneRxActive (pgPort p.val)) c).foldl
      (fun m c => putBits m c c 1) 0)).finish)

/-- The port retrains (R299): out of UP, with its stored equaliser settings. -/
def State.retrain (s : State) (p : Nat) : State :=
  let l := s.port p
  ((s.setPort p { l with swapTx := false, swapRx := false, maskTx := 0, maskRx := 0 }).setF fdPortSwapGo (pgPort p) 0 0).setPortState
    p psRetrain 0

/-- RETRY_ESCALATION (R299): counted; the circuits with errors are swapped while spares of the direction suffice, else the port
retrains. -/
def execRetryEscalation (p : PortId) (dir : Direction) (circuits : BitVec 18) (s : State) : Out :=
  if !s.portUp p.val then .next s
  else
    let s := s.addF fdPortRetryEscalations (pgPort p.val) 0 1
    let s := s.detect (pgPort p.val) 6 { code := 0x0020 }
    let n := circuitCount circuits.toNat
    .next (if 1 ≤ n && n ≤ s.getF (fdSpares dir) (pgPort p.val) then
        (s.emit (.swap p.val dir circuits.toNat)).startSwap p.val dir circuits.toNat
      else s.retrain p.val).finish

/-- RETRAIN_DONE (R299). -/
def execRetrainDone (p : PortId) (ok : Bool) (s : State) : Out :=
  if s.portState p.val ≠ psRetrain then .next s
  else if ok then
    let l := s.port p.val
    .next ((s.setPort p.val { l with fresh := false, cursor := 0 }).setPortState p.val psUp 0).finish
  else .next (s.portDown p.val 4).finish

/-! ### Comb sources (R285, R302) -/

/-- A comb source fails: sources 0 and 1, or the spare where it has replaced one. -/
def State.combFail (s : State) (p source : Nat) : State :=
  let spare := s.getF fdPortCombSpare (pgPort p)
  let used := if source = 2 then spare ≠ 0 else spare ≠ source + 2 && !(spare = 1 && (s.port p).combFailed = source)
  if !used || s.portState p = psOff then s
  else if spare = 0 then
    let l := s.port p
    let s := (s.setPort p { l with combFailed := source, trained := false, identified := false }).setF fdPortCombSpare (pgPort p) 0 1
    ((s.portDown p 2).detect (pgOpteng p) 6 { code := 0x0022 }).raiseSpare 1
  else s.portDown p 2

/-- COMB_FAIL. -/
def execCombFail (p : PortId) (source : Fin 3) (s : State) : Out := .next (s.combFail p.val source.val).finish

/-- COMB_SPARE_LOCK (R302): the spare replaces the failed source and the port trains from receive lock. -/
def execCombSpareLock (p : PortId) (s : State) : Out :=
  if s.getF fdPortCombSpare (pgPort p.val) ≠ 1 then .next s
  else
    let s := s.setF fdPortCombSpare (pgPort p.val) 0 (2 + (s.port p.val).combFailed)
    .next (s.setPortState p.val psTraining 0).finish

/-! ### Bring-up (R294–R297) -/

/-- PORT_LASER_LOCK. -/
def execPortLaserLock (p : PortId) (s : State) : Out :=
  .next (if s.portState p.val = psLaser then s.setPortState p.val psTraining 0 else s)

/-- The node sends its side of the identity exchange (R295). -/
def State.sendIdentity (s : State) (p : Nat) : State :=
  s.emit (.identity p s.nodeId p (s.getF fdPortRole (pgPort p)))

/-- PORT_TRAINED: receive lock, equalisation, deskew and FEC lock are done in both directions; the identity exchange follows. -/
def execPortTrained (p : PortId) (s : State) : Out :=
  if s.portState p.val ≠ psTraining then .next s
  else .next ((s.setPort p.val { s.port p.val with trained := true }).sendIdentity p.val)

/-- The role that a peer has to have, and for W links its W and pair (R287, R295): the peer fits. -/
def peerFits (own role node port peerRole : Nat) : Bool :=
  if role ≤ 2 then
    sameTray own node && nodeW node = (nodeW own + role + 1) % 4 && port / 2 = 2 - role
  else
    nodeW node = nodeW own && peerRole = (if role % 2 = 1 then role + 1 else role - 1)

/-- IDENTITY_EXCHANGE (R295): a mismatch enters MISCABLED; a match in MISCABLED, after the cabling changed, trains on. -/
def execIdentityExchange (p : PortId) (node : NodeField) (port : BitVec 5) (role : BitVec 4) (s : State) : Out :=
  let st := s.portState p.val
  let l := s.port p.val
  if !((st = psTraining && l.trained) || st = psMiscabled) then .next s
  else
    let s := (s.setF fdPortPeerNode (pgPort p.val) 0 node.toNat).setF fdPortPeerPort (pgPort p.val) 0 port.toNat
    if peerFits s.nodeId (s.getF fdPortRole (pgPort p.val)) node.toNat port.toNat role.toNat then
      .next ((s.setPort p.val { l with identified := true }).setPortState p.val psTraining 0)
    else .next ((s.setPort p.val { l with identified := false }).setPortState p.val psMiscabled 0)

/-- PORT_RETRY_TIMER (R294, R295): every 1 s a MISCABLED port repeats the exchange, and a training port whose peer is not lit repeats
each stage from receive lock. -/
def execPortRetryTimer (p : PortId) (s : State) : Out :=
  let st := s.portState p.val
  if st = psMiscabled then .next (s.sendIdentity p.val)
  else if st = psTraining then .next (s.setPort p.val { s.port p.val with trained := false, identified := false })
  else .next s

/-- DELAY_MEASURED (R294, R297): the delay is published, and a port whose training and exchange are done enters UP. -/
def execDelayMeasured (p : PortId) (ps : BitVec 24) (s : State) : Out :=
  let st := s.portState p.val
  let l := s.port p.val
  if (st = psTraining && l.trained && l.identified) || s.portUp p.val then
    let s := (s.setF fdPortDelay (pgPort p.val) 0 ps.toNat).setPort p.val { l with published := true, fresh := true }
    .next (if st = psTraining then s.setPortState p.val psUp 0 else s.timePorts).finish
  else .next s

end Sys2Proof.Machine
end

