-- ==== Sys2Proof/Machine/Ethernet.lean ====
section
/-! DEFINITION. The Ethernet ports (R365–R370), the RoCEv2 responder and requester (R371–R376), and connection management with the
receive ring (R377–R379). -/
namespace Sys2Proof.Machine

/-! ### Links, neighbours and time -/

/-- ETH_LINK_CHANGE (R366): logical port .1 exists in mode 1 only. -/
def execEthLinkChange (e : EthId) (lp : Fin 2) (up : Bool) (s : State) : Out :=
  let v := if up then 2 else 0
  let pg := pgEth e.val
  .next (if lp.val = 0 then s.setF fdEthLinkL0 pg 0 v
    else if s.getF fdEthMode pg = 1 then s.setF fdEthLinkL1 pg 0 v else s)

/-- NEIGHBOUR_QUERY (R367, R368): firmware answers for the logical port's own addresses only. -/
def execNeighbourQuery (e : EthId) (lp : Fin 2) (v6 : Bool) (addr : BitVec 128) (s : State) : Out :=
  .next (if Config.ownAddress e.val lp.val v6 addr.toNat then
    s.emit (.neighbour e.val lp.val addr.toNat (Config.mac e.val lp.val)) else s)

/-- ICMP_ECHO (R367). -/
def execIcmpEcho (e : EthId) (lp : Fin 2) (addr : BitVec 128) (data : List Byte) (s : State) : Out :=
  .next (if Config.ownAddress e.val lp.val false addr.toNat || Config.ownAddress e.val lp.val true addr.toNat then
    s.emit (.echo e.val lp.val addr.toNat data) else s)

/-- PTP_EVENT (R370): firmware publishes offset and rate; only a root with `PTP.STEER` set and `PPS.EN` clear steers to it. -/
def execPtpEvent (e : EthId) (offset : Word) (rate : BitVec 32) (s : State) : Out :=
  if e.val ≠ 0 || s.getF fdEthPtpEn (pgEth 0) = 0 then .next s
  else
    let s := (s.setF fdEthPtpOffset (pgEth 0) 0 offset.toNat).setF fdEthPtpRatePpb (pgEth 0) 0 rate.toNat
    .next (if s.ftState = ftRoot && s.getF fdEthPtpSteer (pgEth 0) = 1 && s.getF fdFtimePpsEn pgFtime = 0 then
      s.freeRate 20000 else s)

/-! ### Priority flow control (R369) -/

/-- Line rate of a logical port in Mbit/s (R376). -/
def State.lineRate (s : State) (e : Nat) : Nat := if s.getF fdEthMode (pgEth e) = 0 then 800000 else 400000

/-- A priority resumes: what waited leaves in order. -/
def State.resumePrio (s : State) (k : Nat) : State :=
  let z := s.pause k
  (s.setPause k { z with paused := 0, held := [] }).emitAll z.held

/-- PFC_PAUSE: quanta of 512 bit times (PRESUMED, IEEE 802.1Qbb, log entry 68); 0 resumes. A priority whose enable is 0 is never paused. -/
def execPfcPause (e : EthId) (lp : Fin 2) (prio : BitVec 3) (quanta : BitVec 16) (s : State) : Out :=
  let s := s.count (pgEth e.val) 4 1
  let k := prioKey e.val lp.val prio.toNat
  if !bitAt (s.getF fdEthPfcEnable (pgEth e.val)) prio.toNat then .next s
  else if quanta = 0 then .next (s.resumePrio k)
  else .next (s.setPause k { s.pause k with paused := s.now + quanta.toNat * 1024000 / s.lineRate e.val + 1 })

/-- PFC_PAUSE_EXPIRY. -/
def execPfcPauseExpiry (e : EthId) (lp : Fin 2) (prio : BitVec 3) (s : State) : Out :=
  .next (s.resumePrio (prioKey e.val lp.val prio.toNat))

/-! ### Queue pairs -/

/-- ETH page of a queue pair's port. -/
def State.qpPage (s : State) (i : Nat) : Nat := pgEth (s.qp i).eth

/-- A queue's session ends, with its SPDM session; the status of a capsule in execution will be discarded (R387, R389). -/
def State.endSession (s : State) (q : Nat) : State :=
  let k := s.queue q
  let s : State := { s with spdm := mapDel s.spdm q }
  if k.session.isNone then s.setQueue q { k with busy := none }
  else (s.setQueue q { k with session := none, busy := none }).trace 104 0xFF q 0

/-- A command queue pair leaves the connected state: its session ends, and nothing more of its queue executes (R381, R387). -/
def State.dropQueue (s : State) (q : Nat) : State :=
  let s := s.endSession q
  s.setQueue q { s.queue q with ring := [] }

/-- A queue pair enters the error state (R371, R373, R374). -/
def State.qpError (s : State) (i : Nat) : State :=
  let x := s.qp i
  if x.kind = 0 || x.state = 3 then s
  else
    let pg := pgEth x.eth
    let s := (s.addF fdEthCntQpErr pg 0 1).count pg 7 1
    let s := if x.state = 2 then s.setF fdEthQpUsed pg 0 (s.getF fdEthQpUsed pg - 1) else s
    let s := s.setQp i { x with state := 3, sends := [], rnrWait := false }
    if x.kind = 1 then s.dropQueue x.owner else s

/-- A queue pair closes and its number is free again. -/
def State.qpClose (s : State) (i : Nat) : State :=
  let x := s.qp i
  let pg := pgEth x.eth
  let s := if x.state = 2 then s.setF fdEthQpUsed pg 0 (s.getF fdEthQpUsed pg - 1) else s
  let s := s.setQp i {}
  if x.kind = 1 then s.dropQueue x.owner else s

/-- An answer of the node as responder. -/
def State.roceAnswer (s : State) (i kind : Nat) : State := s.ethSend i (.roce i kind [])

/-- A received packet carried CE: one CNP at most every `CC.CNP_US` (R375). -/
def State.noteCe (s : State) (i : Nat) (ce : Bool) : State :=
  let x := s.qp i
  if ce && (x.lastCnp = 0 || s.getF fdEthCcCnpUs (pgEth x.eth) * 2000 ≤ s.now + 1 - x.lastCnp) then
    ((s.setQp i { x with lastCnp := s.now + 1 }).roceAnswer i 4).addF fdEthCntCnpSent (pgEth x.eth) 0 1
  else s

/-- A request refused for good: a NAK, and the queue pair is in error. -/
def State.nak (s : State) (i kind : Nat) : State := (s.roceAnswer i kind).qpError i

/-- A request not ready to be taken: an RNR NAK (R373, R378). -/
def State.rnrNak (s : State) (i : Nat) : State := (s.roceAnswer i 3).addF fdEthCntRnrSent (s.qpPage i) 0 1

/-- A request is taken: the next PSN is expected, and an ACK leaves. -/
def State.ackRequest (s : State) (i : Nat) : State :=
  let x := s.qp i
  (s.setQp i { x with psnRecv := (x.psnRecv + 1) % 2 ^ 24 }).roceAnswer i 0

/-! ### The receive ring (R378, R381) -/

/-- OPCODE of a capsule. -/
def capOp (b : List Byte) : Nat := leField b 0 2
/-- MORE. -/
def capMore (b : List Byte) : Bool := leField b 2 1 % 2 = 1
/-- CHAIN. -/
def capChain (b : List Byte) : Nat := leField b 3 1 % 16
/-- TAG. -/
def capTag (b : List Byte) : Nat := leField b 4 4

/-- The capsules at the end of a ring that form a chain still open, and those before them. -/
def openChain (ring : List RingCap) : List RingCap × List RingCap :=
  let tail := (ring.reverse.takeWhile fun x => !x.broken && capMore x.bytes).reverse
  (ring.take (ring.length - tail.length), tail)

/-- A capsule joins a ring: one that breaks the sequence of the open chain, or changes its OPCODE or TAG, ends the chain, and all of it is
discarded for one CHAIN_BROKEN (R381). -/
def joinRing (ring : List RingCap) (b : List Byte) (now : Nat) : List RingCap :=
  let (done, tail) := openChain ring
  match tail with
  | [] => if capChain b = 0 then ring ++ [{ bytes := b, since := now }] else ring ++ [{ bytes := b, broken := true, since := now }]
  | h :: _ =>
    if capChain b = tail.length && capOp b = capOp h.bytes && capTag b = capTag h.bytes then ring ++ [{ bytes := b, since := now }]
    else done ++ [{ bytes := h.bytes, broken := true, since := now }]

/-- CHAIN_BROKEN leaves for each broken chain at the front of a queue, in queue order (R219, R381). -/
def State.flushBroken (s : State) (q : Nat) : Nat → State
  | 0 => s
  | n + 1 =>
    let k := s.queue q
    match k.ring with
    | x :: rest =>
      if x.broken && k.busy.isNone then
        ((s.setQueue q { k with ring := rest }).answer q
          { op := capOp x.bytes, tag := capTag x.bytes, ctx := leField x.bytes 8 1, code := 0x0E }).flushBroken q n
      else s
    | [] => s

/-- A SEND on a connected queue pair (R372, R378). -/
def State.recvSend (s : State) (i : Nat) (data : List Byte) : State :=
  let x := s.qp i
  let s := s.count (pgEth x.eth) 1 data.length
  if x.kind = 2 || data.length ≠ 256 then s.nak i 1
  else
    let k := s.queue x.owner
    if 64 ≤ (k.ring.filter fun r => !r.broken).length then (s.rnrNak i).trace 7 0xFF x.owner 3
    else
      let s := (s.setQueue x.owner { k with ring := joinRing k.ring data s.now, received := k.received + 1 }).count (pgEth x.eth) 6 1
      let s := s.trace 72 0xFF x.owner (capTag data)
      (s.ackRequest i).flushBroken x.owner 64

/-- ROCE_SEND. -/
def execRoceSend (qp : QpIx) (data : List Byte) (ce : Bool) (s : State) : Out :=
  if (s.qp qp.val).state ≠ 2 then .next s else .next ((s.noteCe qp.val ce).recvSend qp.val data)

/-! ### RDMA (R373) -/

/-- The region of an R_Key admits an access of a data queue pair: permission bit 0 read, 1 write. -/
def State.regionAdmits (s : State) (i va rkey len perm : Nat) : Bool :=
  let r := mapGet {} s.regions (rkey % 4096)
  r.valid && r.gen = rkey / 4096 && r.ctx = (s.qp i).owner && r.base ≤ va && va + len ≤ r.base + r.len && bitAt r.perm perm

/-- The immediate ring may lack a free entry once every entry has been written: the node does not learn what the host's consumer has
taken (R373 states no consumer index). -/
def State.immFull (s : State) (i : Nat) : Bool × State :=
  let x := s.qp i
  if x.immCount < 2 ^ x.immLog then (false, s)
  else
    let (v, s) := s.free
    (v % 2 = 1, s)

/-- The entry of a WRITE with immediate: the immediate, the byte count and the fabric time of arrival. -/
def State.pushImm (s : State) (i imm n : Nat) (src : Source) : State :=
  let x := s.qp i
  let off := x.immRing + x.immCount % 2 ^ x.immLog * 16
  let s := s.setQp i { x with immCount := x.immCount + 1 }
  s.engineWrite src off (leBytes 4 imm ++ leBytes 4 n ++ leBytes 8 s.now)

/-- An RDMA WRITE on a connected queue pair (R369, R372, R373). -/
def State.recvRdmaWrite (s : State) (qp : QpIx) (va rkey : Nat) (data : List Byte) (imm : Option Nat) : State :=
  let i := qp.val
  let x := s.qp i
  let s := s.count (pgEth x.eth) 1 data.length
  let k := prioKey x.eth x.lp x.pcp
  let rq : HbmReq := { kind := 1, src := .qp qp, off := va, len := data.length, data := data, reply := .quiet }
  if x.kind ≠ 2 then s.nak i 1
  else if !bitAt (s.getF fdEthPfcEnable (pgEth x.eth)) x.pcp && 4194304 < s.ethBuffered k + data.length then
    (s.addF fdEthCntDropped (pgEth x.eth) 0 1).count (pgEth x.eth) 2 1
  else if !s.regionAdmits i va rkey data.length 1 || (data ≠ [] && (s.hbmRefusal rq).isSome) then s.nak i 2
  else
    match imm with
    | none => (s.engineWrite (.qp qp) va data).ackRequest i
    | some w =>
      match s.immFull i with
      | (true, s) => s.rnrNak i
      | (false, s) => ((s.engineWrite (.qp qp) va data).pushImm i w data.length (.qp qp)).ackRequest i

/-- RDMA_WRITE. -/
def execRdmaWrite (qp : QpIx) (va : Word) (rkey : BitVec 32) (data : List Byte) (imm : Option (BitVec 32)) (ce : Bool) (s : State) :
    Out :=
  if (s.qp qp.val).state ≠ 2 then .next s
  else .next ((s.noteCe qp.val ce).recvRdmaWrite qp va.toNat rkey.toNat data (imm.map (·.toNat))).finish

/-- An RDMA READ on a connected queue pair; its data leave as `Output.memData` of the queue pair when the memory system has
them; poisoned data are answered with a NAK for a remote operational error (R436). -/
def State.recvRdmaRead (s : State) (qp : QpIx) (va rkey len : Nat) : State :=
  let i := qp.val
  let rq : HbmReq := { kind := 0, src := .qp qp, off := va, len := len }
  if (s.qp i).kind ≠ 2 then s.nak i 1
  else if !s.regionAdmits i va rkey len 0 || (len ≠ 0 && (s.hbmRefusal rq).isSome) then s.nak i 2
  else if (s.drainRange va len).linesPoisoned va len then (s.drainRange va len).nak i 6
  else (s.submit rq).ackRequest i

/-- RDMA_READ. -/
def execRdmaRead (qp : QpIx) (va : Word) (rkey : BitVec 32) (len : Nat) (ce : Bool) (s : State) : Out :=
  if (s.qp qp.val).state ≠ 2 then .next s
  else .next ((s.noteCe qp.val ce).recvRdmaRead qp va.toNat rkey.toNat len).finish

/-! ### The node as requester (R374) -/

/-- Every unacknowledged request is sent again, in order. -/
def State.resendAll (s : State) (i : Nat) : State :=
  s.forEach (s.qp i).sends fun (op, va, rkey, data) s => s.ethSend i (.rdma i op va rkey data)

/-- A retransmission, or the error state once the retry count of 7 is spent. -/
def State.retryQp (s : State) (i : Nat) : State :=
  let x := s.qp i
  if x.sends = [] then s
  else if 7 ≤ x.tries then s.qpError i
  else (s.setQp i { x with tries := x.tries + 1 }).resendAll i

/-- ROCE_ACK. -/
def execRoceAck (qp : QpIx) (kind : AckKind) (s : State) : Out :=
  let i := qp.val
  let x := s.qp i
  if x.state ≠ 2 then .next s
  else match kind with
    | .ack => .next (s.setQp i { x with sends := x.sends.drop 1, psnSend := (x.psnSend + 1) % 2 ^ 24, tries := 0, rnr := 0 })
    | .nakSequence => .next (s.retryQp i)
    | .nakFatal => .next (s.qpError i)
    | .rnr => if x.sends = [] then .next s else .next (s.setQp i { x with rnrWait := true })

/-- ROCE_ACK_TIMEOUT. -/
def execRoceAckTimeout (qp : QpIx) (s : State) : Out :=
  if (s.qp qp.val).state ≠ 2 then .next s else .next (s.retryQp qp.val)

/-- RNR_RETRY_TIMER. -/
def execRnrRetryTimer (qp : QpIx) (s : State) : Out :=
  let x := s.qp qp.val
  if x.state ≠ 2 || !x.rnrWait then .next s
  else if 7 ≤ x.rnr then .next (s.qpError qp.val)
  else .next ((s.setQp qp.val { x with rnrWait := false, rnr := x.rnr + 1 }).resendAll qp.val)

/-! ### Congestion (R376) -/

/-- CNP_RECEIVE. -/
def execCnpReceive (qp : QpIx) (s : State) : Out :=
  let i := qp.val
  let x := s.qp i
  if x.state ≠ 2 then .next s
  else
    let pg := pgEth x.eth
    let s := (s.addF fdEthCntCnpRecv pg 0 1).count pg 3 1
    let x := if x.lastDec = 0 || s.getF fdEthCcPeriodUs pg * 2000 ≤ s.now + 1 - x.lastDec then
        { x with
          target := x.rate
          rate := max (s.lineRate x.eth / 1024) (x.rate - x.rate * s.getF fdEthCcDec pg / 256)
          lastDec := s.now + 1 }
      else x
    .next (s.setQp i { x with quiet := 0 })

/-- CC_PERIOD. -/
def execCcPeriod (qp : QpIx) (s : State) : Out :=
  let i := qp.val
  let x := s.qp i
  if x.state ≠ 2 then .next s
  else
    let pg := pgEth x.eth
    let q := x.quiet + 1
    let t := if s.getF fdEthCcQuiet pg < q then min (s.lineRate x.eth) (x.target + s.getF fdEthCcAiMbps pg) else x.target
    .next (s.setQp i { x with quiet := q, target := t, rate := x.rate + (t - x.rate) / 4 })

/-! ### Connection management (R371, R377) -/

/-- A queue pair index that is not in use. -/
def State.freeQp (s : State) : Option Nat := (List.range 4096).find? fun i => (s.qp i).kind = 0

/-- The node accepts a host on a command queue (R377). -/
def State.cmAccepts (s : State) (q gid : Nat) : Bool :=
  q < 256 && !(s.qps.any fun x => x.2.kind = 1 && x.2.owner = q && (x.2.state = 1 || x.2.state = 2)) &&
    (if q < 4 then Config.mgmtPeer gid else (s.queue q).ctx.isSome && (s.queue q).gid = gid)

/-- CM_REQ. -/
def execCmReq (e : EthId) (lp : Fin 2) (gid : BitVec 128) (remote : BitVec 24) (priv : List Byte) (s : State) : Out :=
  let q := leField priv 0 2
  match (if 2 ≤ priv.length && s.cmAccepts q gid.toNat then s.freeQp else none) with
  | none => .next (s.emit (.cm 1 remote.toNat 0))
  | some i =>
    let rate := s.lineRate e.val
    let (psn, s) := s.free
    let x : QueuePair :=
      { kind := 1, state := 1, owner := q, eth := e.val, lp := lp.val, remote := remote.toNat, gid := gid.toNat,
        psnSend := psn % 2 ^ 24, pcp := Config.commandPcp e.val lp.val % 8, rate := rate, target := rate }
    .next ((s.setQp i x).emit (.cm 0 remote.toNat i))

/-- CM_RTU. -/
def execCmRtu (qp : QpIx) (s : State) : Out :=
  let x := s.qp qp.val
  if x.kind = 1 && x.state = 1 then
    .next ((s.setQp qp.val { x with state := 2 }).addF fdEthQpUsed (pgEth x.eth) 0 1)
  else .next s

/-- CM_DREQ: the pair is disconnected and its session ends. -/
def execCmDreq (qp : QpIx) (s : State) : Out :=
  let x := s.qp qp.val
  if x.kind = 1 then .next ((s.qpClose qp.val).emit (.cm 2 x.remote qp.val)) else .next s

end Sys2Proof.Machine
end

