-- ==== Sys2Proof/Machine/Teardown.lean ====
section
/-! DEFINITION. The end of a context (R174, R243, R387) and the job reset (R512–R514), with the job-reset paragraph of each block's
chapter. -/
namespace Sys2Proof.Machine

/-- A running step ends at once, STOPPED (R243). -/
def State.stopStep (s : State) (c : Nat) : State :=
  if (s.ctx c).run.active then (((s.abandonStep c).writeRecord c 5 0).closeStep c) else s

/-- An application core is released: its caches written back and invalidated, its architectural state cleared (R174). -/
def State.releaseCore (s : State) (k : Nat) : State :=
  let c := 4096 + k
  let s := s.abandonTile c
  { s with
    cores := mapDel s.cores c
    xregs := s.xregs.filter fun x => x.1 / 32 ≠ c
    fregs := s.fregs.filter fun x => x.1 / 32 ≠ c
    vregs := s.vregs.filter fun x => x.1 / 32 ≠ c
    csrs := s.csrs.filter fun x => x.1 / 4096 ≠ c }

/-- Every queue of a context is unbound, and its session ends (R387). -/
def State.freeQueues (s : State) (c : Nat) : State :=
  let qs := (s.queues.filter fun x => x.2.ctx = some c).map (·.1)
  s.forEach qs fun q s =>
    let s := s.endSession q
    s.setQueue q { s.queue q with ctx := none, gid := 0, ring := [] }

/-- The context's data queue pairs close, and its memory regions are invalid, each in a new generation. -/
def State.freeRdma (s : State) (c : Nat) : State :=
  let mine := (s.qps.filter fun x => x.2.kind = 2 && x.2.owner = c).map (·.1)
  let s := s.forEach mine fun i s => s.qpClose i
  { s with regions := s.regions.map fun (i, r) =>
      (i, if r.valid && r.ctx = c then { r with valid := false, gen := (r.gen + 1) % 2 ^ 20 } else r) }

/-- The context's comparators are disarmed without firing (R362). -/
def State.disarm (s : State) (c : Nat) : State :=
  let s := (s.setF fdFtimeRelArm pgFtime (2 * c) 0).setF fdFtimeRelArm pgFtime (2 * c + 1) 0
  { s with relPending := s.relPending.filter fun x => x.1 / 2 ≠ c }

/-- Cores that were to be fenced once their context ends are fenced (R190, R455). -/
def State.fenceCores (s : State) (cores : Nat) : State :=
  let m := cores &&& s.err.fenceDue
  if m = 0 then s
  else
    let s : State := { s with err := { s.err with fenceDue := s.err.fenceDue - m } }
    (s.setF fdPdCoresFenced pgPd 0 (s.getF fdPdCoresFenced pgPd ||| m)).raiseSpare 2

/-- A context closes: its step, its engines' work, its cores, queues and graphs; `SCHED.CTX[c]` returns to CLOSED with heat, run and
attempt 0 (R235, R249). -/
def State.closeContext (s : State) (c : Nat) : State :=
  let x := s.ctx c
  let s := (s.stopStep c).unbindHeld c
  let s := (((s.disarm c).collAbandon c).ckptAbandon c).lsaAbandon c
  let s := s.forEach (x.flasks.flatMap fun f => (tilesOf f).filter fun t => (s.core t).running || (s.core t).heldStart) fun t s =>
    s.abandonTile t
  let s := s.forEach ((List.range 64).filter fun k => bitAt x.cores k) fun k s => s.releaseCore k
  let s := (s.freeQueues c).freeRdma c
  let s := s.fenceCores x.cores
  let s := { s with hbm := { s.hbm with wp := s.hbm.wp.filter fun e => e.1 / 256 ≠ c } }
  let s := ((s.setF fdSchedCtxHeat pgSched c 0).setF fdSchedCtxHardRun pgSched c 0).setF fdSchedCtxAttempt pgSched c 0
  ((s.setF fdSchedCtxSlot pgSched c 0).setCtxState c csClosed).setCtx c {}

/-! ### Job reset -/

/-- What the blocks of a flask take from a job reset (R155, R166, R249): counters disabled, waits cleared, watch ranges disarmed, barrier
slots unconfigured with generation 0. -/
def State.resetFlaskJob (s : State) (f : Nat) : State :=
  let pg := pgFlask f
  let s := s.forEach (List.range 32) fun w s =>
    ((s.setF fdFlaskWatchArmed pg w 0).setF fdFlaskWatchBase pg w 0).setF fdFlaskWatchCfg pg w 0
  let s := (s.setF fdFlaskWatchAllot pg 0 0).setF fdFlaskWatchOver pg 0 0
  let s := s.forEach (List.range 8) fun b s =>
    (((s.setF fdFlaskBarMembers pg b 0).setF fdFlaskBarLevel pg b 0).setF fdFlaskBarGen pg b 0)
  { s with
    arrived := s.arrived.filter fun x => x.1 / 8 ≠ f
    counters := s.counters.filter fun x => flaskOf (counterTile x.1) ≠ f
    waits := s.waits.filter fun w => flaskOf (counterTile w.id) ≠ f }

/-- What the blocks give back for a context of the job: GMAP and LLC_WAYS (R191), linkage enable (R214), MRING and TMO (R338), COLL
(R364), REPRO (R398, R563), OBS (R544). -/
def State.resetCtxJob (s : State) (c : Nat) : State :=
  let s := s.forEach ((List.range 256).filter fun i => s.getF fdPdGmapCtx pgPd i = c) fun i s => s.setF fdPdGmapValid pgPd i 0
  let s := (s.clearF fdPdLlcWays pgPd c).setF fdLsaQEn pgLsa c 0
  let s := ((s.setF fdEcrokMringEn pgEcrok c 0).clearF fdEcrokTmoUs pgEcrok c).clearF fdEcrokTmoRetries pgEcrok c
  let s := s.clearF fdCollTmoMs pgColl c
  let s := s.forEach (List.range 8) fun b s => s.clearF fdCollBargrp pgColl (8 * c + b)
  let s := ((s.setF fdReproCtxDtabN pgRepro c 0).setF fdReproCtxDlogHead pgRepro c 0).clearF fdReproCtxDlogLog2 pgRepro c
  let s := { s with repro := mapPut {} s.repro c {} }
  let s := ((s.setF fdObsBrkEn pgObs c 0).setF fdObsCtrMode pgObs c 0).setF fdCkptCtxState pgCkpt c 0
  { s with traceDrain := s.traceDrain.filter fun x => x.1 ≠ c }

/-- Outstanding requests, flows and reply stores of a job (R512 step 3). -/
def State.dropJobFlows (s : State) (job gen : Nat) (cs : List Nat) : State :=
  let s := s.cohTeardown job gen cs
  let tag := job + gen * 2 ^ 20
  let sent := (s.ecrok.outJob.filter fun x => x.2 = tag).map (·.1)
  let got := (s.ecrok.inJob.filter fun x => x.2 = tag + 1).map (·.1)
  { s with ecrok := { s.ecrok with
      tags := s.ecrok.tags.map fun (k, t) =>
        (k, if t.active && cs.contains t.ctx then { gen := (t.gen + 1) % 4 } else t)
      stalled := s.ecrok.stalled.filter fun x => !cs.contains x.ctx
      replies := s.ecrok.replies.filter fun r => r.job ≠ job
      outNext := s.ecrok.outNext.filter fun x => !sent.contains x.1
      outLow := s.ecrok.outLow.filter fun x => !sent.contains x.1
      outJob := s.ecrok.outJob.filter fun x => !sent.contains x.1
      inNext := s.ecrok.inNext.filter fun x => !got.contains x.1
      inLow := s.ecrok.inLow.filter fun x => !got.contains x.1
      inJob := s.ecrok.inJob.filter fun x => !got.contains x.1 } }

/-- The polders that a job owns. -/
def State.jobPolders (s : State) (job : Nat) : List Nat :=
  (List.range 15).filter fun p => s.getF fdMemmapPolderSize pgMemmap p ≠ 0 && s.getF fdMemmapPolderJob pgMemmap p = job

/-- SM4 key slots bound to a job are emptied (R489). -/
def State.clearKeys (s : State) (job : Nat) : State :=
  { s with keys := s.keys.filter fun x => x.2.job ≠ job }

/-- A job reset (R512): steps 1–4 at once; the scrub that follows ends with JOB_SCRUB_DONE. The flasks to scrub stay in the pair. -/
def State.jobReset (s : State) (i : Nat) (retained : Nat) : State :=
  let p := mapGet {} s.pairs i
  let cs := allCtxs.filter fun c => (s.ctx c).isOpen && (s.ctx c).job = p.job && (s.ctx c).gen = p.gen
  let fs := cs.flatMap fun c => (s.ctx c).flasks
  let s := { s with pairs := mapPut {} s.pairs i { p with state := 3, retained := retained, flasks := fs } }
  let s := s.forEach cs fun c s => s.closeContext c
  let s := s.dropJobFlows p.job p.gen cs
  let s := s.forEach cs fun c s => s.resetCtxJob c
  let s := s.forEach fs fun f s => s.resetFlaskJob f
  let s := s.clearKeys p.job
  (s.forEach ((s.jobPolders p.job).filter fun q => !bitAt retained q) fun q s => s.setF fdMemmapPolderScrubBusy pgMemmap q 1)

/-- A pair is RETIRED and reported (R512, R516); its launch entry goes (R517). -/
def State.retired (s : State) (i : Nat) : State :=
  let p := mapGet {} s.pairs i
  let body := mgmtHead 0x06 0 1 p.job p.gen ++ leBytes 4 s.nodeId ++ leBytes 2 p.retained ++ [0, 0] ++ leBytes 8 s.now
  let s := s.report p.job p.gen body
  let q : Pair := { p with state := 4, flasks := [], retiredAt := s.now }
  { s with
    pairs := mapPut {} s.pairs i q
    dike := { s.dike with launches := s.dike.launches.filter fun l => !(l.job = p.job && l.gen = p.gen) }
    urgentDue := true }

/-- JOB_SCRUB_DONE (R512–R516): the job's polders and tile stores hold zeros with valid check bits, and RETIRED is reported; with a polder
retained the pair stays awaiting a later scrub (R427). -/
def State.scrubDone (s : State) (job : Nat) : State :=
  match (List.range 16).find? fun i => (mapGet {} s.pairs i).job = job && (mapGet {} s.pairs i).state = 3 with
  | none => s
  | some i =>
    let p := mapGet {} s.pairs i
    let ps := (s.jobPolders job).filter fun q => !bitAt p.retained q
    let s := s.forEach ps fun q s =>
      let b := s.getF fdMemmapPolderBase pgMemmap q * 2 ^ 30
      (s.zeroRange b (b + s.getF fdMemmapPolderSize pgMemmap q * 2 ^ 30)).setF fdMemmapPolderScrubBusy pgMemmap q 0
    let s := s.forEach p.flasks fun f s => s.forEach (tilesOf f) fun t s => s.zeroRange (storeAt t) (storeAt t + storeSize)
    let s := s.forEach ps fun q s =>
      (((s.setF fdMemmapPolderBase pgMemmap q 0).setF fdMemmapPolderSize pgMemmap q 0).setF fdMemmapPolderJob pgMemmap q 0).setF
        fdMemmapPolderFloorR pgMemmap q 0 |>.setF fdMemmapPolderFloorW pgMemmap q 0
    let s := if ps.isEmpty then s else s.addF fdDikeGroupVer pgDike 2 1
    let kept := (s.jobPolders job).foldl (fun m q => if bitAt p.retained q then m + 2 ^ q else m) 0
    if kept ≠ 0 then { s with pairs := mapPut {} s.pairs i { p with state := 5, flasks := [] } }
    else
      let waiting := (List.range 16).filter fun j => j ≠ i && (mapGet {} s.pairs j).job = job && (mapGet {} s.pairs j).state = 5
      s.forEach (waiting ++ [i]) fun j s => s.retired j

/-- JOB_SCRUB_DONE. -/
def execJobScrubDone (job : JobId) (s : State) : Out := .next (s.scrubDone job.toNat).finish

end Sys2Proof.Machine
end

