-- ==== Sys2Proof/Machine/GraphLoad.lean ====
section
/-! DEFINITION. Loading a graph (R221–R227, R397): what firmware reads, the checks in their order, and the copy. -/
namespace Sys2Proof.Machine

/-- Where a graph stands while it is checked: the raw header, records, and what was poisoned. -/
structure RawGraph where
  head : List Byte := []
  nodes : List (List Byte) := []
  edges : List (List Byte) := []
  roles : List (List Byte) := []
  /-- Role accesses of each node. -/
  acc : List (List (List Byte)) := []
  /-- Exchange table of each node. -/
  exch : List (List (List Byte)) := []
  deriving DecidableEq, Repr

/-- A refusal of R227: status, order of the check, failing node or role (0xFFFF where no single one fails). -/
structure GraphRefusal where
  code : Nat
  order : Nat
  who : Nat := 0xFFFF
  deriving DecidableEq, Repr

/-- The index of the first element that fails. -/
def firstBadIx {α : Type} (l : List α) (p : α → Bool) : Nat := l.findIdx p

/-- A refusal where some element fails. -/
def refuseAny {α : Type} (code order : Nat) (l : List α) (p : α → Bool) : Option GraphRefusal :=
  if l.any p then some ⟨code, order, firstBadIx l p⟩ else none

/-- A refusal that names no single node. -/
def refuseIf (code order : Nat) (b : Bool) : Option GraphRefusal := if b then some ⟨code, order, 0xFFFF⟩ else none

/-! ### Reading -/

/-- `n` records of `w` bytes of local memory, and whether one is poisoned. -/
def State.records (s : State) (off n w : Nat) : State × List (List Byte) × Bool :=
  let (s, bs, bad) := s.engineRead off (n * w)
  (s, (List.range n).map fun i => (bs.drop (i * w)).take w, bad)

/-- A node record of R223. -/
def nodeOf (b : List Byte) : GNode :=
  let f := leField b
  { kind := f 0 1, flags := f 1 1, slot0 := f 4 2, nslot := f 6 2, tmask := f 8 2, p0 := f 16 8, p1 := f 24 8, arg := f 32 8,
    pstart := f 40 4, pdur := f 44 4, accFirst := f 48 4, accCount := f 52 2 }

/-- A role of R225. -/
def roleOf (b : List Byte) : GRole :=
  { kind := leField b 0 1, base0 := leField b 8 8, base1 := leField b 16 8, length := leField b 24 8 }

/-- An exchange entry of R226. -/
def exchOf (b : List Byte) : GExch :=
  let f := leField b
  { src := f 0 2, dst := f 2 2, srcType := f 4 1, dstType := f 5 1, flags := f 6 1, offset := f 8 8, count := f 16 8,
    node := f 24 4 }

/-- Every byte of a list from a position on, cut to a length, is 0. -/
def zeroAt (b : List Byte) (pos n : Nat) : Bool := leField b pos n = 0

/-- Check 1 reads every structure that the header names, taking the counts as written: the raw graph, whether some of it is poisoned,
and whether all of it lies in the context's polders. -/
def State.readGraph (s : State) (c off : Nat) : State × RawGraph × Bool × Bool :=
  if !s.inPolders c off 128 then (s, {}, false, false)
  else
    let (s, h, bad) := s.engineRead off 128
    let f := leField h
    let inside := fun a n => n = 0 || s.inPolders c a n
    if !(inside (f 56 8) (f 2 2 * 64) && inside (f 64 8) (f 8 4 * 8) && inside (f 72 8) (f 4 2 * 32)) then (s, {}, bad, false)
    else
      let (s, ns, b1) := s.records (f 56 8) (f 2 2) 64
      let (s, es, b2) := s.records (f 64 8) (f 8 4) 8
      let (s, rs, b3) := s.records (f 72 8) (f 4 2) 32
      let accAt := fun (n : GNode) => (f 80 8 + 4 * n.accFirst, n.accCount)
      let exAt := fun (n : GNode) => (n.p0, if n.kind = 5 then n.p1 % 2 ^ 16 else 0)
      let nodes := ns.map nodeOf
      if nodes.any fun n => !inside (accAt n).1 ((accAt n).2 * 4) || !inside (exAt n).1 ((exAt n).2 * 32) then (s, {}, bad, false)
      else
        let (s, acc, b4) := nodes.foldl (fun (s, l, b) n =>
          let (s, x, y) := s.records (accAt n).1 (accAt n).2 4
          (s, l ++ [x], b || y)) ((s, [], false) : State × List (List (List Byte)) × Bool)
        let (s, ex, b5) := nodes.foldl (fun (s, l, b) n =>
          let (s, x, y) := s.records (exAt n).1 (exAt n).2 32
          (s, l ++ [x], b || y)) ((s, [], false) : State × List (List (List Byte)) × Bool)
        (s, { head := h, nodes := ns, edges := es, roles := rs, acc := acc, exch := ex }, bad || b1 || b2 || b3 || b4 || b5, true)

/-! ### Checks -/

/-- The feature bits that a node needs (R247). -/
def nodeNeeds (n : GNode) : List Nat :=
  (if n.kind = 2 then [15] else if n.kind = 3 then [3] else if n.kind = 5 then [4] else if n.kind = 6 then [5] else []) ++
    (if bitAt n.flags 0 then [2] else [])

/-- The offsets that a node names beside the structures of check 1, with their lengths. -/
def nodeExtents (n : GNode) : List (Nat × Nat) :=
  if n.kind = 1 then [(n.p0, n.p1 % 512 * 256)]
  else if n.kind = 2 then [(n.p1, 8)]
  else if n.kind = 3 || n.kind = 4 || n.kind = 6 then [(n.p0, 64)]
  else []

/-- A node record breaks its layout (R223, R224). -/
def nodeBad (b : List Byte) : Bool :=
  let n := nodeOf b
  !(n.flags < 4 && zeroAt b 2 2 && zeroAt b 10 6 && zeroAt b 54 10) || n.kind = 0 || 6 < n.kind ||
    (if n.kind = 1 || n.kind = 5 then n.nslot = 0 || 256 < n.nslot || n.tmask = 0 else n.nslot ≠ 0) ||
    (match n.kind with
      | 1 => n.p0 % 256 ≠ 0 || n.p1 = 0 || 256 < n.p1
      | 2 => 2 ^ 18 ≤ n.p0 || n.p1 % 8 ≠ 0
      | 3 => 16 ≤ n.p1
      | 4 => n.p1 ≠ 0
      | 5 => 2 ^ 16 ≤ n.p1
      | _ => 2 ^ 32 ≤ n.p1)

/-- A role breaks its layout (R225). -/
def roleBad (b : List Byte) : Bool :=
  let r := roleOf b
  1 < r.kind || !zeroAt b 1 7 || r.length % 256 ≠ 0 || (r.kind = 0 && r.base1 ≠ 0)

/-- The node offers a conversion between two types (R86). -/
def pairOffered (src dst : Nat) (mx : Bool) : Bool :=
  if mx then tyMxElem dst && tyColumn src ≤ 4 else pairS src dst || pairF src dst

/-- An exchange entry breaks its layout or names a dash pair (R86, R226). -/
def exchBad (b : List Byte) : Bool :=
  let x := exchOf b
  let mx := bitAt x.flags 2
  8 ≤ x.flags || !zeroAt b 7 1 || 2 ^ 17 ≤ x.node || !zeroAt b 28 4 || !pairOffered x.srcType x.dstType mx ||
    (mx && x.offset % 32 ≠ 0)

/-- A role access has a reserved byte, an unlisted MODE bit, or reads or writes PREV of a SINGLE role. -/
def accBad (roles : List (List Byte)) (a : List Byte) : Bool :=
  let mode := leField a 2 1
  16 ≤ mode || !zeroAt a 3 1 || (4 ≤ mode && ((roles[leField a 0 2]?).any fun r => leField r 0 1 = 0))

/-- The header breaks its layout (R222). -/
def headBad (h : List Byte) : Bool :=
  let lead := leField h 40 4
  leField h 0 2 ≠ 1 || 8 ≤ leField h 12 4 || !zeroAt h 49 7 || !zeroAt h 112 16 || (0 < lead && lead < 8000)

/-- The edges among nodes that are left after those without predecessors go away, again and again: none is left without a cycle. -/
def cyclic (edges : List (Nat × Nat)) : Nat → List Nat → Bool
  | 0, left => left ≠ []
  | n + 1, left =>
    let next := left.filter fun x => edges.any fun e => e.2 = x && left.contains e.1
    if next.length = left.length then left ≠ [] else cyclic edges n next

/-- An edge of R225. -/
def edgeOf (b : List Byte) : Nat × Nat := (leField b 0 2, leField b 2 2)

/-- The checks of R227 from the second on, in order. -/
def State.graphChecks (s : State) (c features : Nat) (r : RawGraph) : Option GraphRefusal :=
  let h := r.head
  let f := leField h
  let nodes := r.nodes.map nodeOf
  let flasks := (s.ctx c).flasks.length
  let edges := r.edges.map edgeOf
  let nn := f 2 2
  let nr := f 4 2
  let lead := if f 40 4 = 0 then 12000 else f 40 4
  let (period, soft, hard) := (f 16 8, f 24 8, f 32 8)
  let periodic := bitAt (f 12 4) 0
  let inside := fun (x : Nat × Nat) => s.inPolders c x.1 x.2
  (refuseIf 0x01 2 (bitAt (f 12 4) 2 && !bitAt features 14)).or <|
  (refuseAny 0x01 2 nodes fun n => (nodeNeeds n).any fun b => !bitAt features b).or <|
  (refuseIf 0x02 3 (!(inside (f 88 8, 32 + 32 * nr) && inside (f 96 8, nn) && inside (f 104 8, 1024)))).or <|
  (refuseAny 0x02 3 nodes fun n => !(nodeExtents n).all inside || (n.kind = 3 && n.p1 % 16 ≠ c)).or <|
  (refuseAny 0x02 3 (r.roles.map roleOf) fun x => !inside (x.base0, x.length) || (x.kind = 1 && !inside (x.base1, x.length))).or <|
  (refuseIf 0x05 4 (headBad h || r.edges.any fun e => !zeroAt e 4 4)).or <|
  (refuseAny 0x05 4 ((r.nodes.zip r.acc).zip r.exch) fun ((n, a), x) => nodeBad n || a.any (accBad r.roles) || x.any exchBad).or <|
  (refuseAny 0x05 4 r.roles roleBad).or <|
  (refuseIf 0x06 5 (nn = 0 || 4096 < nn || 256 < nr || 16384 < f 8 4 || (edges.any fun e => nn ≤ e.1 || nn ≤ e.2) ||
    (hard ≠ 0 && hard < soft) || (periodic && period < hard + lead) || (hard = 0 && (periodic || f 6 2 ≠ 0xFFFF)))).or <|
  (refuseAny 0x06 5 (r.acc.zip r.exch) fun (a, x) => (a.any fun y => nr ≤ leField y 0 2) ||
    x.any fun y => nr ≤ leField y 0 2 || nr ≤ leField y 2 2 + (if bitAt (leField y 6 1) 2 then 1 else 0)).or <|
  (refuseIf 0x06 5 (128 * flasks < ((List.range nn).filter fun n => edges.any fun e => e.2 = n).length)).or <|
  (refuseIf 0x08 6 (cyclic edges nn (List.range nn))).or <|
  (refuseAny 0x09 7 r.acc fun a => a.any fun y => bitAt (leField y 2 1) 3).or <|
  (refuseAny 0x0A 8 nodes fun n => n.onTiles && flasks < n.slot0 + n.nslot)

/-- The copy of a checked graph (R221), with the digest of R397. -/
def State.graphCopy (s : State) (r : RawGraph) : State × Graph :=
  let f := leField r.head
  let nodes := r.nodes.map nodeOf
  let (s, images) := (nodes.filter fun n => n.kind = 1).foldl (fun (s, l) n =>
    let (s, bs, _) := s.engineRead n.p0 (n.p1 * 256)
    (s, l ++ bs)) ((s, []) : State × List Byte)
  let digest := Config.sm3 (r.head.take 56 ++ r.nodes.flatten ++ r.edges.flatten ++ (r.exch.map List.flatten).flatten ++ images)
  let exch := (r.exch.zipIdx.filter fun x => x.1 ≠ []).map fun x => (x.2, x.1.map exchOf)
  (s, { group := f 6 2, flags := f 12 4, period := f 16 8, soft := f 24 8, hard := f 32 8, lead := f 40 4, sleepGap := f 44 4,
        maxHard := f 48 1, nodes := nodes, edges := r.edges.map edgeOf, roles := r.roles.map roleOf,
        access := r.acc.flatten.map fun a => (leField a 0 2, leField a 2 1), exch := exch, roletab := f 88 8, nstat := f 96 8,
        steprec := f 104 8, digest := digest })

/-- GRAPH_LOAD after the checks of the capsule: a status and its DETAIL (R221, R227). A poisoned graph ends the load with a UC (R436); no
status of R385 names that end, so its code is free. -/
def State.loadGraph (s : State) (c slot off features : Nat) : State × Nat × Nat :=
  if !(s.ctx c).isOpen then (s, 0x07, 0)
  else if slot = s.getF fdSchedCtxSlot pgSched c && s.ctxBusy c then (s, 0x03, 0)
  else
    let (s, r, poisoned, inside) := s.readGraph c off
    let refuse := fun (s : State) (x : GraphRefusal) => (s.trace 0 c x.who x.code, x.code, x.order)
    if poisoned then
      let (v, s) := (s.controlPoison pgSched (some c) off).free
      (s, v % 0xFFFF + 1, 0)
    else if !inside then refuse s ⟨0x02, 1, 0xFFFF⟩
    else match s.graphChecks c features r with
      | some x => refuse s x
      | none =>
        let (s, g) := s.graphCopy r
        (s.setCtx c { s.ctx c with graphs := (s.ctx c).graphs.set slot (some g) }, 0, 0)

end Sys2Proof.Machine
end

