-- ==== Sys2Proof/Machine/Capsule.lean ====
section
/-! DEFINITION. Command capsules (R215–R221, R243–R248, R379–R387): the checks that every capsule meets, and what each opcode does but for
tokens, attestation, register access and node reset. -/
namespace Sys2Proof.Machine

/-! ### Statuses (R385) -/

/-- OK. -/
def scOK : Nat := 0x00
/-- UNSUPPORTED. -/
def scUnsupported : Nat := 0x01
/-- ACCESS. -/
def scAccess : Nat := 0x02
/-- BUSY. -/
def scBusy : Nat := 0x03
/-- ALLOT_CONFLICT. -/
def scConflict : Nat := 0x04
/-- STATE. -/
def scState : Nat := 0x07
/-- GRAPH_PLACE. -/
def scPlace : Nat := 0x0A
/-- BAD_CAPSULE. -/
def scBad : Nat := 0x0B
/-- REG_REJECTED. -/
def scRejected : Nat := 0x0C
/-- NO_RESOURCE. -/
def scNoResource : Nat := 0x0D
/-- NO_SESSION. -/
def scNoSession : Nat := 0x0F

/-! ### The common course of a capsule -/

/-- What the table of opcodes says of an opcode (R383). -/
structure Opcode where
  code : Nat
  feature : Nat := 0
  mgmt : Bool := false
  /-- The capsule names a context in CTX. -/
  ctxOp : Bool := false
  /-- The body names a context in byte 0. -/
  bodyCtx : Bool := false
  deriving DecidableEq, Repr

/-- What a capsule's own part answers. -/
structure Answer where
  code : Nat := scOK
  detail : Nat := 0
  body : List Byte := []
  /-- The status is still to come. -/
  later : Bool := false
  deriving DecidableEq, Repr

/-- The node is in DEEP (R471). -/
def State.inDeep (s : State) : Bool := s.getF fdPowerIdleState pgPower = 3

/-- The exit from DEEP starts; an entry in progress is aborted at once (R471, R479). -/
def State.leaveDeep (s : State) : State :=
  if s.inDeep then { s with power := { s.power with exiting := true } }
  else if s.getF fdPowerIdleState pgPower = 2 then s.setF fdPowerIdleState pgPower 0 0
  else s

/-- The capsules of the first chain in a queue's ring leave it where they carry an opcode and tag. -/
def State.popRing (s : State) (q op tag : Nat) : State :=
  let k := s.queue q
  match k.ring with
  | [] => s
  | x :: _ =>
    if x.broken || capOp x.bytes ≠ op || capTag x.bytes ≠ tag then s
    else
      let n := (k.ring.takeWhile fun y => !y.broken && capMore y.bytes).length + 1
      s.setQueue q { k with ring := k.ring.drop n }

/-- Checks 1–3 of R386 and the header's part of check 4. -/
def State.capsuleCheck (s : State) (q : Nat) (o : Opcode) (cap : Capsule) : Option Nat :=
  let k := s.queue q
  let ctx := cap.ctx.toNat
  let named := ctx ≠ 0xFF || o.ctxOp
  let bodyCtx := (cap.body.headD 0).toNat
  if k.session.isNone && o.code ≠ 0x0001 then some scNoSession
  else if !bitAt ((k.session.map (·.features)).getD 1) o.feature then some scUnsupported
  else if 4 ≤ q && (o.mgmt || (named && k.ctx ≠ some ctx) || (o.bodyCtx && k.ctx ≠ some bodyCtx)) then some scAccess
  else if cap.reserved || (ctx > 15 && (ctx ≠ 0xFF || o.ctxOp)) ||
      (o.bodyCtx && (bodyCtx > 15 || (ctx ≠ 0xFF && ctx ≠ bodyCtx))) then some scBad
  else none

/-- The status of a capsule leaves, and what waited behind it in the ring for its own status follows. -/
def State.endCapsule (s : State) (q : Nat) (o : Opcode) (cap : Capsule) (a : Answer) : State :=
  let ctx := cap.ctx.toNat
  let who := if ctx < 16 then ctx else 0xFF
  let s := if a.code = scOK then s else s.trace 75 who q cap.tag.toNat
  let s := if a.code = scUnsupported then s.trace 6 who q a.code else if a.code = scConflict then s.trace 8 who q a.code else s
  if a.later then s
  else
    let x : StatusCap :=
      { op := o.code, tag := cap.tag.toNat, ctx := ctx, code := a.code, detail := a.detail, body := a.body }
    ((s.trace 73 who q cap.tag.toNat).answer q x).flushBroken q 64

/-- A capsule as firmware executes it: nothing while an earlier one of its queue is outstanding (R219), while the node is in DEEP (R471), or
on queues 4–255 once the node has left service (R456); else the checks of R386 in order, then `run` with the body's check `ok`. -/
def State.capsule (s : State) (q : QueueId) (cap : Capsule) (o : Opcode) (ok : Bool) (run : State → State × Answer) : Out :=
  let q := q.val
  if (s.queue q).busy.isSome || (s.err.out && 4 ≤ q) then .next s
  else
    let s := if o.code = 0x0010 || o.code = 0x0070 then s.leaveDeep else s
    if s.inDeep then .next s
    else
    let s := s.popRing q o.code cap.tag.toNat
    match s.capsuleCheck q o cap with
    | some c => .next (s.endCapsule q o cap { code := c })
    | none =>
      if !ok then .next (s.endCapsule q o cap { code := scBad })
      else
        let (s, a) := run s
        .next (s.endCapsule q o cap a).finish

/-- A body has its length, and bytes beyond the listed ranges are 0: the ranges are (first, length). -/
def bodyOk (cap : Capsule) (len : Nat) (listed : List (Nat × Nat)) : Bool :=
  cap.bodyLen = len && (List.range len).all fun i =>
    (listed.any fun r => r.1 ≤ i && i < r.1 + r.2) || cap.body.getD i 0 = 0

/-- A field of a capsule's body. -/
def capF (cap : Capsule) (off n : Nat) : Nat := leField cap.body off n

/-- A plain answer. -/
def just (s : State) (code : Nat) : State × Answer := (s, { code := code })

/-! ### Sessions (R246, R387, R508) -/

/-- The node's own version and features, as SESSION_OPEN answers them. -/
def State.ownVersion (s : State) : List Byte :=
  leBytes 2 (s.getF fdSchedProtoMajor pgSched) ++ leBytes 2 (s.getF fdSchedProtoMinor pgSched) ++
    (List.range 4).flatMap fun i => leBytes 8 (s.getF fdSchedFeatures pgSched i)

/-- The firmware's feature bitmap. -/
def State.ownFeatures (s : State) : Nat := leNat ((List.range 4).flatMap fun i => leBytes 8 (s.getF fdSchedFeatures pgSched i))

/-- SESSION_OPEN. -/
def execSessionOpen (q : QueueId) (cap : Capsule) (s : State) : Out :=
  s.capsule q cap { code := 0x0001 } (bodyOk cap 36 [(0, 36)]) fun s =>
    if s.getF fdNodectlStatusReady pgNodectl = 0 then just s scBusy
    else if (s.queue q.val).session.isSome then just s scState
    else if capF cap 0 2 ≠ s.getF fdSchedProtoMajor pgSched then (s, { code := scUnsupported, body := s.ownVersion })
    else
      let feats := capF cap 4 32 &&& s.ownFeatures
      let x : Session := { minor := min (capF cap 2 2) (s.getF fdSchedProtoMinor pgSched), features := feats }
      let s := s.setQueue q.val { s.queue q.val with session := some x }
      ((s.trace 11 0xFF q.val scOK).trace 105 0xFF q.val scOK, { body := s.ownVersion })

/-- SESSION_CLOSE: the session ends once its status is sent. -/
def execSessionClose (q : QueueId) (cap : Capsule) (s : State) : Out :=
  s.capsule q cap { code := 0x0002 } (bodyOk cap 0 []) fun s =>
    ((s.answer q.val { op := 0x0002, tag := cap.tag.toNat, ctx := cap.ctx.toNat }).endSession q.val, { later := true })

/-- NOP. -/
def execNop (q : QueueId) (cap : Capsule) (s : State) : Out :=
  s.capsule q cap { code := 0x0003 } (bodyOk cap 0 []) fun s => just s scOK

/-! ### Contexts and queues (R215–R218) -/

/-- The members of a bit mask. -/
def maskList (m n : Nat) : List Nat := (List.range n).filter fun i => bitAt m i

/-- The flasks and cores that a context holds or is to hold from its next release. -/
def State.heldFlasks (s : State) (c : Nat) : List Nat :=
  let x := s.ctx c
  x.flasks ++ (x.pendingAllot.elim [] (·.1))

/-- The cores that a context holds or is to hold. -/
def State.heldCores (s : State) (c : Nat) : Nat :=
  let x := s.ctx c
  x.cores ||| (x.pendingAllot.elim 0 (·.2.1))

/-- Flasks or cores overlap another open context's, or are fenced or out of the pool (R216, R456, R549). -/
def State.allotConflict (s : State) (c : Nat) (fs : List Nat) (cores : Nat) : Bool :=
  (allCtxs.any fun o => o ≠ c && (s.ctx o).isOpen &&
    ((fs.any fun f => (s.heldFlasks o).contains f) || s.heldCores o &&& cores ≠ 0)) ||
  (fs.any fun f => s.flaskOut f) || s.getF fdPdCoresFenced pgPd &&& cores ≠ 0

/-- A queue of a set is bound to another context. -/
def State.queueTaken (s : State) (c : Nat) (qs : List Nat) : Bool :=
  qs.any fun q => (s.queue q).ctx.any fun o => o ≠ c

/-- Queues bound to a context and the host that may connect to them (R218, R377). -/
def State.bindQueues (s : State) (c gid : Nat) (qs : List Nat) : State :=
  s.forEach qs fun q s => s.setQueue q { s.queue q with ctx := some c, gid := gid }

/-- The generation of a job that is committed here. -/
def State.committedGen (s : State) (job : Nat) : Option Nat :=
  (s.pairs.find? fun p => p.2.state = 2 && p.2.job = job).map (·.2.gen)

/-- CTX_OPEN. -/
def execCtxOpen (q : QueueId) (cap : Capsule) (s : State) : Out :=
  let c := capF cap 0 1
  let job := capF cap 4 4
  let ways := capF cap 16 2
  let qs := maskList (capF cap 52 32) 256
  let ok := bodyOk cap 100 [(0, 18), (20, 80)] && capF cap 1 1 < 8 && job < 2 ^ 20 && ways ≠ 0 && qs.all fun q => 4 ≤ q
  s.capsule q cap { code := 0x0010, mgmt := true, bodyCtx := true } ok fun s =>
    match (if s.ctxState c = csClosed then s.committedGen job else none) with
    | none => just s scState
    | some gen =>
      let ps := maskList (capF cap 2 2) 16
      let fs := maskList (capF cap 20 32) 256
      if !(ps.all fun p => (s.jobPolders job).contains p) then just s scAccess
      else if s.allotConflict c fs (capF cap 8 8) || s.queueTaken c qs then just s scConflict
      else
        let x : Ctx := { isOpen := true, job := job, gen := gen, polders := capF cap 2 2, flasks := fs, cores := capF cap 8 8,
                         priority := capF cap 1 1 }
        let s := ((s.setCtx c x).setCtxState c csIdle).setF fdPdLlcWays pgPd c ways
        let s := (s.bindQueues c (capF cap 84 16) qs).trace 9 c q.val scOK
        just (s.reproChange c) scOK

/-- CTX_CLOSE. -/
def execCtxClose (q : QueueId) (cap : Capsule) (s : State) : Out :=
  let c := capF cap 0 1
  s.capsule q cap { code := 0x0011, mgmt := true, bodyCtx := true } (bodyOk cap 1 [(0, 1)]) fun s =>
    if !(s.ctx c).isOpen then just s scState
    else just ((s.trace 10 c q.val scOK).closeContext c) scOK

/-- ALLOT: at once for a context that is stopped, else at its next release (R216). -/
def execAllot (q : QueueId) (cap : Capsule) (s : State) : Out :=
  let c := capF cap 0 1
  s.capsule q cap { code := 0x0012, mgmt := true, bodyCtx := true } (bodyOk cap 48 [(0, 1), (8, 40)]) fun s =>
    let fs := maskList (capF cap 16 32) 256
    let cores := capF cap 8 8
    if !(s.ctx c).isOpen then just s scState
    else if s.allotConflict c fs cores then just s scConflict
    else if s.ctxBusy c then just (s.setCtx c { s.ctx c with pendingAllot := some (fs, cores, 0) }) scOK
    else just ((s.setCtx c { s.ctx c with flasks := fs, cores := cores }).reproChange c) scOK

/-- QUEUE_BIND. -/
def execQueueBind (q : QueueId) (cap : Capsule) (s : State) : Out :=
  let c := capF cap 0 1
  let qs := maskList (capF cap 4 32) 256
  s.capsule q cap { code := 0x0013, mgmt := true, bodyCtx := true } (bodyOk cap 52 [(0, 1), (4, 48)] && qs.all fun q => 4 ≤ q) fun s =>
    if !(s.ctx c).isOpen then just s scState
    else if s.queueTaken c qs then just s scConflict
    else just (s.bindQueues c (capF cap 36 16) qs) scOK

/-- STATUS_QUERY. -/
def execStatusQuery (q : QueueId) (cap : Capsule) (s : State) : Out :=
  let c := capF cap 0 1
  s.capsule q cap { code := 0x0014, bodyCtx := true } (bodyOk cap 1 [(0, 1)]) fun s =>
    (s, { body := leBytes 8 (s.getF fdSchedCtxHeat pgSched c) ++ leBytes 1 (s.ctxState c) ++
      leBytes 1 (s.getF fdSchedCtxSlot pgSched c) ++ leBytes 1 (s.getF fdSchedCtxHardRun pgSched c) ++ [0] ++
      leBytes 4 (s.getF fdSchedCtxAttempt pgSched c) })

/-! ### Graphs (R221, R227, R243) -/

/-- The feature set of a queue's session. -/
def State.features (s : State) (q : Nat) : Nat := ((s.queue q).session.map (·.features)).getD 0

/-- GRAPH_LOAD. -/
def execGraphLoad (q : QueueId) (cap : Capsule) (s : State) : Out :=
  s.capsule q cap { code := 0x0020, feature := 1, ctxOp := true } (bodyOk cap 16 [(0, 1), (8, 8)] && capF cap 0 1 < 4) fun s =>
    let (s, code, order) := s.loadGraph cap.ctx.toNat (capF cap 0 1) (capF cap 8 8) (s.features q.val)
    (s, { code := code, detail := order })

/-- STEP_START: the slot's graph becomes active and replay starts, its first release LEAD ahead. -/
def State.stepStart (s : State) (q tag c slot n : Nat) : State × Nat :=
  let x := s.ctx c
  let st := s.ctxState c
  match (if x.isOpen && (st = csIdle || st = csStalled || st = csFaulted) && !x.uncorrected && (s.ckpt c).restore.isNone then
      x.graphs.getD slot none else none) with
  | none => (s, scState)
  | some g =>
    if !g.fits x.flasks.length then (s, scPlace)
    else
      let s := (s.setF fdSchedCtxSlot pgSched c slot).setF fdSchedCtxHardRun pgSched c 0
      let s := s.setCtx c { x with
        features := s.features q
        commits := 0
        report := if n = 0 then none else some (q, tag, n)
        history := []
        nextRelease := s.now + g.leadTicks }
      ((s.setCtxState c csRunning).reproStart c g, scOK)

/-- STEP_START. -/
def execStepStart (q : QueueId) (cap : Capsule) (s : State) : Out :=
  s.capsule q cap { code := 0x0021, feature := 1, ctxOp := true } (bodyOk cap 8 [(0, 1), (4, 4)] && capF cap 0 1 < 4) fun s =>
    let (s, code) := s.stepStart q.val cap.tag.toNat cap.ctx.toNat (capF cap 0 1) (capF cap 4 4)
    just s code

/-- STEP_STOP takes effect at the next step boundary: at once between steps (R243). -/
def State.stepStop (s : State) (c : Nat) : State × Nat :=
  let st := s.ctxState c
  let told := fun (s : State) =>
    s.trace 20 c (s.getF fdSchedCtxHeat pgSched c + 1) (s.getF fdSchedCtxAttempt pgSched c)
  if st = csStopping then (s, scOK)
  else if st = csRunning then
    if (s.ctx c).run.active then (told (s.setCtxState c csStopping), scOK) else (told (s.stopReplay c csIdle), scOK)
  else if st = csStalled || st = csFaulted then (told (s.stopReplay c csIdle), scOK)
  else (s, scState)

/-- STEP_STOP. -/
def execStepStop (q : QueueId) (cap : Capsule) (s : State) : Out :=
  s.capsule q cap { code := 0x0022, feature := 1, ctxOp := true } (bodyOk cap 0 []) fun s =>
    let (s, code) := s.stepStop cap.ctx.toNat
    just s code

/-! ### Checkpoints (R413, R414, R428) -/

/-- CKPT_REQUEST. -/
def execCkptRequest (q : QueueId) (cap : Capsule) (s : State) : Out :=
  s.capsule q cap { code := 0x0030, feature := 5, ctxOp := true } (bodyOk cap 16 [(0, 16)]) fun s =>
    let c := cap.ctx.toNat
    if !(s.ctx c).isOpen then just s scState
    else
      let (s, code) := s.ckptRequest c (capF cap 0 8) (capF cap 8 8)
      just s code

/-- RESTORE: its status comes when the restore ends. -/
def execRestore (q : QueueId) (cap : Capsule) (s : State) : Out :=
  let storage := capF cap 8 1 = 1
  let n := capF cap 9 1
  let ok := bodyOk cap (if n = 0 then 10 else 16 + 24 * n) [(0, 10), (16, 24 * n)] && capF cap 8 1 < 2 &&
    (if storage then 1 ≤ n && n ≤ 8 else n = 0)
  s.capsule q cap { code := 0x0031, feature := 5, ctxOp := true } ok fun s =>
    let c := cap.ctx.toNat
    if !(s.ctx c).isOpen then just s scState
    else
      let (s, d, code) := s.restoreCheck c (capF cap 0 8) storage
      if code ≠ 0 then just s code
      else
        let regions := (List.range n).map fun k =>
          (capF cap (16 + 24 * k) 4, capF cap (20 + 24 * k) 4, capF cap (24 + 24 * k) 8, capF cap (32 + 24 * k) 8)
        let s := s.setQueue q.val { s.queue q.val with busy := some cap.tag.toNat }
        (s.restoreStart c q.val cap.tag.toNat d storage regions, { later := true })

/-! ### Queue pairs and regions (R371–R373, R384) -/

/-- The queue pair index of a QPN. -/
def qpIx (qpn : Nat) : Option Nat := if 2 ≤ qpn && qpn ≤ 0x1001 then some (qpn - 2) else none

/-- QP_CONNECT. -/
def execQpConnect (q : QueueId) (cap : Capsule) (s : State) : Out :=
  let ok := bodyOk cap 48 [(0, 27), (28, 3), (32, 4), (40, 8)] && (qpIx (capF cap 0 4)).isSome && capF cap 4 4 < 2 ^ 24 && capF cap 32 1 ≤ 4 &&
    capF cap 33 1 < 8 && 4 ≤ capF cap 34 1 && capF cap 34 1 ≤ 12 && capF cap 35 1 < 4
  s.capsule q cap { code := 0x0040, ctxOp := true } ok fun s =>
    let c := cap.ctx.toNat
    let i := (qpIx (capF cap 0 4)).getD 0
    if !(s.ctx c).isOpen then just s scState
    else if (s.freeQp).isNone then just s scNoResource
    else if (s.qp i).kind ≠ 0 then just s scState
    else
      let e := bits (capF cap 35 1) 1 1
      let x : QueuePair :=
        { kind := 2, state := 2, owner := c, eth := e, lp := bits (capF cap 35 1) 0 0, remote := capF cap 4 4, gid := capF cap 8 16,
          psnSend := capF cap 24 3, psnRecv := capF cap 28 3, mtu := capF cap 32 1, pcp := capF cap 33 1, immRing := capF cap 40 8,
          immLog := capF cap 34 1, rate := s.lineRate e, target := s.lineRate e }
      just ((s.setQp i x).addF fdEthQpUsed (pgEth e) 0 1) scOK

/-- QP_CLOSE. -/
def execQpClose (q : QueueId) (cap : Capsule) (s : State) : Out :=
  s.capsule q cap { code := 0x0041, ctxOp := true } (bodyOk cap 4 [(0, 4)] && (qpIx (capF cap 0 4)).isSome) fun s =>
    let i := (qpIx (capF cap 0 4)).getD 0
    let x := s.qp i
    if x.kind ≠ 2 || x.owner ≠ cap.ctx.toNat then just s scState else just (s.qpClose i) scOK

/-- A region index that is not in use. -/
def State.freeRegion (s : State) : Option Nat := (List.range 4096).find? fun i => !(mapGet {} s.regions i).valid

/-- MR_REG. -/
def execMrReg (q : QueueId) (cap : Capsule) (s : State) : Out :=
  s.capsule q cap { code := 0x0042, ctxOp := true } (bodyOk cap 17 [(0, 17)] && capF cap 16 1 < 4) fun s =>
    let c := cap.ctx.toNat
    if !(s.ctx c).isOpen then just s scState
    else match s.freeRegion with
      | none => just s scNoResource
      | some i =>
        let gen := (mapGet {} s.regions i).gen
        let r : Region := { valid := true, gen := gen, ctx := c, base := capF cap 0 8, len := capF cap 8 8, perm := capF cap 16 1 }
        ({ s with regions := mapPut {} s.regions i r }, { body := leBytes 4 (i + gen * 4096) })

/-- MR_DEREG: the region's generation advances, so that its R_Key names nothing. -/
def execMrDereg (q : QueueId) (cap : Capsule) (s : State) : Out :=
  s.capsule q cap { code := 0x0043, ctxOp := true } (bodyOk cap 4 [(0, 4)]) fun s =>
    let key := capF cap 0 4
    let i := key % 4096
    let r := mapGet {} s.regions i
    if r.valid && r.gen = key / 4096 && r.ctx = cap.ctx.toNat then
      just { s with regions := mapPut {} s.regions i { gen := (r.gen + 1) % 2 ^ 20 } } scOK
    else just s scState

/-! ### Log (R244, R245) -/

/-- The enable bits of trace points set: named points only, and points 0–11 always 1 (R245). -/
def State.setTraceEn (s : State) (lo hi : Nat) : State :=
  (s.setF fdSchedTraceEnLo pgSched 0 ((lo &&& namedMask 0 64) ||| 0xFFF)).setF fdSchedTraceEnHi pgSched 0 (hi &&& namedMask 64 56)

/-- TRACE_SET. -/
def execTraceSet (q : QueueId) (cap : Capsule) (s : State) : Out :=
  s.capsule q cap { code := 0x0050, feature := 7 } (bodyOk cap 16 [(0, 16)]) fun s =>
    just (s.setTraceEn (capF cap 0 8) (capF cap 8 8)) scOK

/-- The 32 bytes of a log record (R244). -/
def LogRec.bytes (r : LogRec) : List Byte :=
  leBytes 8 r.time ++ leBytes 2 r.point ++ leBytes 1 r.ctx ++ [0] ++ leBytes 4 r.seq ++ leBytes 8 r.arg0 ++ leBytes 8 r.arg1

/-- Records from a sequence number on, at most `count`, of one context or of all: the next number and the records. -/
def readLog (log : SMap LogRec) (only : Option Nat) : (fuel seq count : Nat) → Nat × List LogRec
  | 0, seq, _ => (seq, [])
  | n + 1, seq, count =>
    if count = 0 then (seq, [])
    else
      let hit := (log.find? fun x => x.1 = seq).map (·.2)
      match hit.filter fun r => only.elim true fun c => r.ctx = c with
      | some r => let (nx, l) := readLog log only n ((seq + 1) % 2 ^ 32) (count - 1); (nx, r :: l)
      | none => readLog log only n ((seq + 1) % 2 ^ 32) count

/-- The log read from `first` on: records older than the ring holds are lost, and a number ahead of the newest finds none. -/
def State.logFrom (s : State) (only : Option Nat) (first count : Nat) : Nat × List LogRec :=
  let last := s.getF fdSchedLogSeq pgSched
  let behind := (last + 2 ^ 32 - first) % 2 ^ 32
  if 2 ^ 31 ≤ behind then (first, [])
  else
    let n := min behind 32768
    readLog s.log only n ((last + 2 ^ 32 - n) % 2 ^ 32) count

/-- LOG_READ. -/
def execLogRead (q : QueueId) (cap : Capsule) (s : State) : Out :=
  s.capsule q cap { code := 0x0051, feature := 8 } (bodyOk cap 5 [(0, 5)] && 1 ≤ capF cap 4 1 && capF cap 4 1 ≤ 6) fun s =>
    let (next, rs) := s.logFrom (if q.val < 4 then none else (s.queue q.val).ctx) (capF cap 0 4) (capF cap 4 1)
    let body := leBytes 4 next ++ leBytes 1 rs.length ++ [0, 0, 0] ++ rs.flatMap LogRec.bytes
    (s.trace 106 0xFF q.val scOK, { body := body })

end Sys2Proof.Machine
end

