-- ==== Sys2Proof/Machine/Dike.lean ====
section
/-! DEFINITION. Tokens (R490–R500, R514): their form, the staging area, the reeve's checks in order, shadows, and what a token that applies
changes. -/
namespace Sys2Proof.Machine

/-! ### Form (R494, R495) -/

/-- A token taken apart. -/
structure TokenView where
  groups : Nat := 0
  shadow : Bool := false
  notBefore : Nat := 0
  notAfter : Nat := 0
  nonce : Nat := 0
  tree : Bool := false
  wmask : Nat := 0
  root : Nat := 0
  ttl : Nat := 0
  trays : List Nat := []
  entries : List DikeEntry := []
  /-- SM3 digest of header and body. -/
  digest : Nat := 0
  /-- Role, key digest and signature of the two blocks. -/
  sigs : List (Nat × Nat × List Byte) := []
  /-- The second block is all zeros. -/
  single : Bool := false
  deriving DecidableEq, Repr

/-- Bits of a number outside the listed (high, low) ranges, of a width, are 0. -/
def onlyBits (w v : Nat) (rs : List (Nat × Nat)) : Bool :=
  (List.range w).all fun i => !bitAt v i || rs.any fun r => r.2 ≤ i && i ≤ r.1

/-- Bits that a tree's fields of a group entry take from byte `b` (R339). -/
def treeBits (b : Nat) : List (Nat × Nat) :=
  let f := fun (i : Nat) => (8 * (b + i) + 16, 8 * (b + i))
  [f 0, (8 * b + 26, 8 * b + 24), (8 * b + 31, 8 * b + 31), f 4, f 7, f 10, f 13, f 16, f 19, (8 * b + 183, 8 * b + 176)]

/-- The bits of an entry's content that its layout names (R315, R317, R339, R495). -/
def entryBits (kind : Nat) : List (Nat × Nat) :=
  match kind with
  | 0 => [(16, 0), (95, 32)]
  | 1 => [(109, 0), (124, 112), (130, 128), (139, 136), (143, 143)]
  | 2 => [(95, 0)]
  | 3 => [(19, 0), (23, 23), (31, 24), (49, 32), (80, 64), (191, 128)] ++ treeBits 24 ++ treeBits 48
  | 4 => [(9, 0), (25, 16), (51, 32), (73, 64), (89, 80)]
  | 5 => [(7, 0), (543, 32)]
  | 6 => [(1, 0)]
  | _ => [(35, 0)]

/-- Entries of one record: `n` of them from a byte list, and what is left. -/
def takeEntries (kind : Nat) : Nat → List Byte → Option (List DikeEntry × List Byte)
  | 0, bs => some ([], bs)
  | n + 1, bs =>
    let len := entryLen kind
    if bs.length < 4 + len then none
    else
      let e : DikeEntry := { kind := kind, index := leField bs 0 4, content := leField bs 4 len }
      (takeEntries kind n (bs.drop (4 + len))).map fun (es, rest) => (e :: es, rest)

/-- The records of a body or a blob; none where they do not fill it exactly. A TREE marker holds no entry (R495). -/
def takeRecords : (fuel : Nat) → List Byte → Option (List DikeEntry)
  | 0, _ => none
  | fuel + 1, bs =>
    if bs = [] then some []
    else
      let kind := leField bs 0 1
      let n := leField bs 2 2
      if bs.length < 4 || leField bs 1 1 ≠ 0 || 8 < kind || (kind = 8 && n ≠ 0) then none
      else match takeEntries kind n (bs.drop 4) with
        | none => none
        | some (es, rest) => (takeRecords fuel rest).map fun l => es ++ l

/-- A token whose records hold a TREE marker. -/
def hasMarker : (fuel : Nat) → List Byte → Bool
  | 0, _ => false
  | fuel + 1, bs =>
    if bs.length < 4 then false
    else
      let kind := leField bs 0 1
      kind = 8 || hasMarker fuel (bs.drop (4 + leField bs 2 2 * (4 + entryLen kind)))

/-- A set of groups that one token may change (R494). -/
def groupsOk (g : Nat) : Bool := g ≠ 0 && (g < 8 || g = 8 || g = 16 || g = 24 || g = 32)

/-- A signature block (R495). -/
def sigBlock (b : List Byte) : Nat × Nat × List Byte := (leField b 0 1, digestNat ((b.drop 4).take 32), (b.drop 36).take 64)

/-- Check 1 of R497: the token taken apart, or none for TOKEN_BAD. -/
def takeToken (bs : List Byte) : Option TokenView :=
  let f := leField bs
  let bodyLen := f 44 4
  let tree := f 40 1 = 1
  let body := (bs.drop 128).take bodyLen
  let ntrays := f 42 2
  let trays := if tree then [] else (List.range ntrays).map fun i => leField body (2 * i) 2
  let recs := if tree then body else body.drop (2 * ntrays)
  let b1 := (bs.drop (128 + bodyLen)).take 100
  let b2 := (bs.drop (228 + bodyLen)).take 100
  let ok := bs.length = 328 + bodyLen && f 0 4 = 0x4E544B44 && f 4 2 = 1 && f 7 1 < 2 && f 40 1 < 2 && f 41 1 < 16 &&
    leNat ((bs.drop 88).take 40) = 0 && groupsOk (f 6 1) && f 8 8 ≤ f 16 8 && f 16 8 ≤ f 8 8 + 120000000000 &&
    leField b1 1 3 = 0 && leField b2 1 3 = 0 &&
    (tree || (1 ≤ ntrays && ntrays ≤ 256 && 2 * ntrays ≤ bodyLen && trays.all (· < 2 ^ 15) && trays.Pairwise (· < ·) &&
      !hasMarker bodyLen recs))
  match (if ok then takeRecords (bodyLen + 1) recs else none) with
  | none => none
  | some es =>
    if !(es.all fun e => bitAt (f 6 1) (entryGroup e.kind) && onlyBits (8 * entryLen e.kind) e.content (entryBits e.kind)) then none
    else some
      { groups := f 6 1, shadow := f 7 1 = 1, notBefore := f 8 8, notAfter := f 16 8, nonce := f 24 16, tree := tree, wmask := f 41 1,
        root := digestNat ((bs.drop 48).take 32), ttl := if f 80 8 = 0 then 200000000 else f 80 8, trays := trays, entries := es,
        digest := Config.sm3 (bs.take (128 + bodyLen)), sigs := [sigBlock b1, sigBlock b2], single := leNat b2 = 0 }

/-- The digest by which COMMIT, ABORT and launch copies name a token, whatever its form. -/
def tokenDigest (bs : List Byte) : Nat := Config.sm3 (bs.take (128 + leField bs 44 4))

/-! ### The staging area (R496, R515) -/

/-- From a leaf to the root: index, width of the level, hash, and the sibling hashes left; none where they do not match the levels. -/
def climb : (fuel i n h : Nat) → List (List Byte) → Option Nat
  | 0, _, _, _, _ => none
  | fuel + 1, i, n, h, path =>
    if n ≤ 1 then (if path = [] then some h else none)
    else if i % 2 = 0 && i + 1 = n then climb fuel (i / 2) ((n + 1) / 2) h path
    else match path with
      | [] => none
      | sib :: rest =>
        let h' := if i % 2 = 1 then Config.sm3 (1 :: sib ++ digestBytes h) else Config.sm3 (1 :: digestBytes h ++ sib)
        climb fuel (i / 2) ((n + 1) / 2) h' rest

/-- A staged object taken apart (R515); none where it is malformed. -/
def State.openStaged (s : State) (bs : List Byte) : Option Staged :=
  let p := leField bs 8 4
  let i := leField bs 0 4
  let n := leField bs 4 4
  if bs.length < 12 + 32 * p || n ≤ i then none
  else
    let path := (List.range p).map fun k => (bs.drop (12 + 32 * k)).take 32
    let blob := bs.drop (12 + 32 * p)
    let leaf := Config.sm3 (0 :: leBytes 4 s.nodeId ++ digestBytes (Config.sm3 blob))
    (climb 33 i n leaf path).map fun r => { root := r, blob := blob }

/-- Bytes from the start that the parts cover without a gap. -/
def gather (parts : List (Nat × List Byte)) : (fuel : Nat) → List Byte → List Byte
  | 0, bs => bs
  | fuel + 1, bs =>
    match parts.find? fun p => p.1 ≤ bs.length && bs.length < p.1 + p.2.length with
    | none => bs
    | some p => gather parts fuel (bs ++ p.2.drop (bs.length - p.1))

/-- A part arrives; the whole once every byte has. -/
def State.assemble (s : State) (src kind len off : Nat) (data : List Byte) : State × Option (List Byte) :=
  let mine := fun (a : Assembly) => a.src = src && a.kind = kind
  let old := (s.dike.parts.find? fun a => mine a && a.len = len).elim [] (·.parts)
  let parts := (off, data) :: old
  let whole := gather parts parts.length []
  let rest := s.dike.parts.filter fun a => !mine a
  if len ≤ whole.length then ({ s with dike := { s.dike with parts := rest } }, some (whole.take len))
  else
    let a : Assembly := { src := src, kind := kind, len := len, parts := parts }
    ({ s with dike := { s.dike with parts := a :: rest } }, none)

/-- The staging area holds 64 MiB. -/
def State.stagingRoom (s : State) (len : Nat) : Bool := (s.dike.staged.map (·.blob.length)).foldl (· + ·) 0 + len ≤ 2 ^ 26

/-- Part of a staged object arrives from a source. -/
def State.stagePart (s : State) (src len off : Nat) (data : List Byte) : State :=
  if !s.stagingRoom len then s
  else match s.assemble src 0 len off data with
    | (s, none) => s
    | (s, some bs) => match s.openStaged bs with
      | none => s
      | some x => { s with dike := { s.dike with staged := x :: s.dike.staged.filter fun y => y.root ≠ x.root } }

/-- A group entry that is a launch entry (R517). -/
def DikeEntry.isLaunch (e : DikeEntry) : Bool := e.kind = 3 && bits e.content 15 0 = 0xFFFE

/-- The entries of a staged blob: its records are of kinds 1–4. -/
def Staged.entries (x : Staged) : Option (List DikeEntry) :=
  (takeRecords (x.blob.length + 1) x.blob).filter fun es => es.all fun e =>
    1 ≤ e.kind && e.kind ≤ 4 && onlyBits (8 * entryLen e.kind) e.content (entryBits e.kind)

/-- The staged blob that a TREE token's root names. -/
def State.stagedFor (s : State) (v : TokenView) : Option Staged := s.dike.staged.find? fun x => v.tree && x.root = v.root

/-! ### The checks (R497) -/

/-- The tray ID of this node (R495). -/
def State.trayId (s : State) : Nat := nodeZ s.nodeId * 1024 + nodeY s.nodeId * 32 + nodeX s.nodeId

/-- Check 2. -/
def State.checkTarget (s : State) (v : TokenView) : Option Nat :=
  if !v.tree then (if v.trays.contains s.trayId && bitAt v.wmask (nodeW s.nodeId) then none else some 0x61)
  else if (s.stagedFor v).isSome then none
  else if s.dike.staged = [] then some 0x68
  else some 0x61

/-- Check 3: fabric time known, within the token's span, and the span not before the READY that follows a cold reset. -/
def State.checkTime (s : State) (v : TokenView) : Option Nat :=
  let st := s.getF fdFtimeState pgFtime
  if (st = ftLocked || st = ftRoot) && v.notBefore ≤ s.now && s.now ≤ v.notAfter && s.dike.readyAt ≠ 0 && s.dike.readyAt ≤ v.notBefore + 1
  then none else some 0x62

/-- A PARTITION entry that retires its pair. -/
def DikeEntry.retires (e : DikeEntry) : Bool := e.kind = 0 && bits e.content 7 0 = 1
/-- Job of a PARTITION entry. -/
def DikeEntry.job (e : DikeEntry) : Nat := bits e.content 51 32
/-- Generation of a PARTITION entry. -/
def DikeEntry.gen (e : DikeEntry) : Nat := bits e.content 63 52

/-- The token raises the minimum and revocations only (R490, R500). -/
def State.raisesOnly (s : State) (v : TokenView) : Bool :=
  v.entries.all fun e => e.kind ≠ 7 || (s.getF fdDikeFwSvnMin pgDike ≤ bits e.content 31 0 &&
    s.getF fdDikeRootRevoked pgDike &&& bits e.content 35 32 = s.getF fdDikeRootRevoked pgDike)

/-- The pairs of roles that a token needs, one of them (R490). -/
def State.rolesNeeded (s : State) (v : TokenView) : List (List Nat) :=
  if v.groups < 8 then
    if v.groups = 1 && v.entries.all DikeEntry.retires then [[1, 3], [1, 2]] else [[1, 3]]
  else if v.groups < 32 then [[1, 2]]
  else if s.raisesOnly v then [[4]] else [[2, 4]]

/-- The token enrols the first wardens (R492): an unclaimed node, through Flokan. -/
def State.claiming (s : State) (from' : TokenFrom) (v : TokenView) : Bool :=
  from' = .flokan && s.getF fdDikeStateClaimed pgDike = 0 && bitAt v.groups 3

/-- The key that a signature block names: of an enrolled slot of its role, or of a slot that a claiming token enrols. -/
def State.signerKey (s : State) (claim : Bool) (v : TokenView) (b : Nat × Nat × List Byte) : Option (List Byte) :=
  let named := fun (role : Nat) (key : List Byte) => role = b.1 && role ≠ 0 && Config.sm3 key = b.2.1
  if claim then
    (v.entries.find? fun e => e.kind = 5 && named (bits e.content 7 0) (leBytes 64 (e.content / 2 ^ 32))).map fun e =>
      leBytes 64 (e.content / 2 ^ 32)
  else (s.dike.wardens.find? fun x => named x.2.role x.2.key).map (·.2.key)

/-- The blocks that count: one where VENDOR alone signs. -/
def TokenView.blocks (v : TokenView) : List (Nat × Nat × List Byte) := if v.single then v.sigs.take 1 else v.sigs

/-- Check 5. -/
def State.checkSigner (s : State) (claim : Bool) (v : TokenView) : Option Nat :=
  let roles := v.blocks.map (·.1)
  let fits := (s.rolesNeeded v).any fun r => r = roles || r = roles.reverse
  if fits && v.blocks.all fun b => (s.signerKey claim v b).isSome then none else some 0x64

/-- Check 6. -/
def State.checkSig (s : State) (claim : Bool) (v : TokenView) : Option Nat :=
  if v.blocks.all fun b => Config.sm2Verify (leNat ((s.signerKey claim v b).getD [])) (digestBytes v.digest) b.2.2 then none
  else some 0x65

/-- The token's jobs: those of its PARTITION entries; without one, the jobs whose TENANT warden signed (DEDUCED, log entry 15). -/
def State.tokenJobs (s : State) (v : TokenView) : List Nat :=
  match (v.entries.filter fun e => e.kind = 0).map DikeEntry.job with
  | [] =>
    let ks := (v.sigs.filter fun b => b.1 = 3).map (·.2.1)
    (s.pairs.filter fun x => x.2.state = 2 && ks.contains (Config.sm3 (mapGet {} s.dike.wardens x.2.warden).key)).map (·.2.job)
  | js => js

/-- An entry's index and values are in range (R315, R339, R495). -/
def DikeEntry.inRange (e : DikeEntry) : Bool :=
  let f := bits e.content
  match e.kind with
  | 0 => e.index < 16 && f 7 0 < 2 && f 15 8 < 32 && (if f 7 0 = 0 then 1 ≤ f 95 64 && f 95 64 ≤ 131072 else f 95 64 < 2 ^ 15)
  | 1 => e.index < 256 && (f 143 143 = 0 || (f 39 0 % 256 = 0 && f 84 80 ≤ f 89 85 && f 94 90 ≤ f 99 95 && f 104 100 ≤ f 109 105 &&
      (f 119 116 = 8 || f 119 116 = 9) && (f 130 128 = 0 || f 130 128 = 5 || f 130 128 = 7)))
  | 2 => e.index < 2 ^ 17
  | 3 => e.index < 64 && f 15 0 < 0xFFFE && (f 23 23 = 0 || (f 31 24 ≤ 5 && 1 ≤ f 49 32 && f 49 32 ≤ 131072 && f 80 64 < f 49 32 &&
      f 218 216 ≤ 6 && f 410 408 ≤ 6))
  | 4 => e.index < 15
  | 5 => e.index < 32 && f 7 0 ≤ 4
  | _ => e.index = 0

/-- The pair entry i. -/
def State.pair (s : State) (i : Nat) : Pair := mapGet {} s.pairs i

/-- A job is being reset here (R514). -/
def State.retiringJob (s : State) (job : Nat) : Bool := s.pairs.any fun x => x.2.state = 3 && x.2.job = job

/-- An entry is free or belongs to the token's jobs (R497). -/
def State.mayTouch (s : State) (jobs : List Nat) (e : DikeEntry) : Bool :=
  match e.kind with
  | 0 =>
    let p := s.pair e.index
    if e.retires then (p.state = 2 || p.state = 5) && p.job = e.job && p.gen = e.gen
    else p.state = 0 || p.state = 1 || p.state = 3 || p.state = 4 || (p.state = 2 && p.job = e.job)
  | 1 => (let o := mapGet 0 s.dike.winJob e.index; o = 0 || jobs.contains (o - 1))
  | 3 => (let o := mapGet 0 s.dike.grpJob e.index; o = 0 || jobs.contains (o - 1))
  | 4 =>
    let old := s.getF fdMemmapPolderJob pgMemmap e.index
    (s.getF fdMemmapPolderSize pgMemmap e.index = 0 || jobs.contains old || s.retiringJob old) &&
      (bits e.content 25 16 = 0 || jobs.contains (bits e.content 51 32))
  | _ => true

/-- Base, size and floors of every polder once the token's entries stand. -/
def State.polderMap (s : State) (es : List DikeEntry) : List (Nat × Nat × Nat) :=
  (List.range 16).map fun p =>
    match (es.filter fun e => e.kind = 4 && e.index = p).getLast? with
    | some e => (bits e.content 9 0, bits e.content 25 16, bits e.content 73 64 + bits e.content 89 80)
    | none => (s.getF fdMemmapPolderBase pgMemmap p, s.getF fdMemmapPolderSize pgMemmap p,
        s.getF fdMemmapPolderFloorR pgMemmap p + s.getF fdMemmapPolderFloorW pgMemmap p)

/-- R262: no two polders overlap, none passes `TOP`, and the floors sum to at most 614. -/
def State.poldersFit (s : State) (es : List DikeEntry) : Bool :=
  let ps := (s.polderMap es).filter fun p => p.2.1 ≠ 0
  ps.Pairwise (fun a b => a.1 + a.2.1 ≤ b.1 ∨ b.1 + b.2.1 ≤ a.1) &&
    (ps.all fun p => (p.1 + p.2.1) * 2 ^ 30 ≤ s.getF fdMemmapTop pgMemmap) &&
    (ps.map (·.2.2)).foldl (· + ·) 0 ≤ 614

/-- The image in a firmware bank. -/
def State.bankImage (s : State) (b : Nat) : List Byte :=
  match (s.store.banks.find? fun x => x.1 = b).map (·.2) with
  | some i => i
  | none => Config.factoryImage b

/-- R500: a ROLLBACK entry neither passes the running bank's SVN nor revokes its root. -/
def State.rollbackOk (s : State) (e : DikeEntry) : Bool :=
  e.kind ≠ 7 || (bits e.content 31 0 ≤ s.getF fdDikeFwSvn pgDike &&
    !bitAt (bits e.content 35 32) (Config.imageRoot (s.bankImage (s.getF fdDikeStateBank pgDike))))

/-- Every entry of a token: its own and, under TREE, its blob's but for the launch entry; none where the blob is malformed. -/
def State.tokenEntries (s : State) (v : TokenView) : Option (List DikeEntry) :=
  if !v.tree then some v.entries
  else ((s.stagedFor v).bind Staged.entries).map fun es => v.entries ++ es.filter fun e => !e.isLaunch

/-- Check 7. -/
def State.checkContent (s : State) (v : TokenView) : Option Nat :=
  match s.tokenEntries v with
  | none => some 0x66
  | some es =>
    let jobs := s.tokenJobs v
    if es.all (fun e => bitAt v.groups (entryGroup e.kind) && e.inRange && s.mayTouch jobs e && s.rollbackOk e) && s.poldersFit es then none
    else some 0x66

/-- The shadow slots in use. -/
def State.shadowList (s : State) : List Shadow := (s.dike.shadows.map (·.2)).filter (·.used)

/-- Check 8, with the full nonce store (R498) and the rule of R514. -/
def State.checkState (s : State) (v : TokenView) : Option Nat :=
  let es := (s.tokenEntries v).getD []
  let reserved := es.any fun e => s.shadowList.any fun x => x.entries.any fun y => y.kind = e.kind && y.index = e.index
  let retiring := es.any fun e =>
    (e.kind = 0 && !e.retires && s.pairs.any fun x => x.2.state = 3) ||
    (e.kind = 4 && s.getF fdMemmapPolderSize pgMemmap e.index ≠ 0 && s.retiringJob (s.getF fdMemmapPolderJob pgMemmap e.index))
  if reserved || retiring || (v.shadow && 2 ≤ s.shadowList.length) || 4096 ≤ s.dike.nonces.length then some 0x67 else none

/-- Checks 2–8 in order; the first that fails decides. -/
def State.tokenChecks (s : State) (from' : TokenFrom) (v : TokenView) : Option Nat :=
  let claim := s.claiming from' v
  (s.checkTarget v).or <| (s.checkTime v).or <|
    (if s.dike.nonces.any fun x => x.1 = v.nonce then some 0x63 else none).or <|
    (s.checkSigner claim v).or <| (s.checkSig claim v).or <| (s.checkContent v).or (s.checkState v)

/-! ### What applies (R490, R491, R499, R501, R512) -/

/-- `TMO[c].HMAX` (R317): the longest route to a node that a window of context c covers. -/
def State.windowHops (s : State) (c : Nat) : Nat :=
  let ws := s.windowList.filter fun e => bitAt e 143 && bits e 139 136 = c
  let covered := fun (n : Nat) => ws.any fun e => windowCovers e c (bits e 119 116) n (bits e 39 0) 0
  ((s.ecrok.routes.filter fun x => covered x.1).map fun x => hops (x.2 - 1)).foldl max 0

/-- `HMAX` and the REPRO descriptors follow a change of WINDOWS (R317, R398). -/
def State.windowsChanged (s : State) : State :=
  s.forEach allCtxs fun c s =>
    let s := s.setF fdEcrokTmoHmax pgEcrok c (s.windowHops c)
    if (s.ctx c).isOpen then s.reproChange c else s

/-- A retired job's windows and groups leave the dike set (R503). -/
def State.dropJobWindows (s : State) (job : Nat) : State :=
  let w := (s.dike.winJob.filter fun x => x.2 = job + 1).map (·.1)
  let g := (s.dike.grpJob.filter fun x => x.2 = job + 1).map (·.1)
  if w = [] && g = [] then s
  else
    let s := { s with
      ecrok := { s.ecrok with windows := s.ecrok.windows.filter fun x => !w.contains x.1 }
      coll := { s.coll with groups := s.coll.groups.filter fun x => !g.contains x.1 }
      dike := { s.dike with
        winJob := s.dike.winJob.filter fun x => x.2 ≠ job + 1
        grpJob := s.dike.grpJob.filter fun x => x.2 ≠ job + 1 } }
    (s.addF fdDikeGroupVer pgDike 1 1).windowsChanged

/-- A table entry set, or removed where its VALID bit is 0. -/
def putValid (m : SMap Nat) (i v valid : Nat) : SMap Nat := mapPut 0 m i (if bitAt v valid then v else 0)

/-- One entry of a token takes effect; `owner` is the job of its windows and groups. -/
def State.applyEntry (s : State) (owner : Nat) (e : DikeEntry) : State :=
  let f := bits e.content
  let i := e.index
  match e.kind with
  | 0 =>
    if e.retires then (s.jobReset i (f 95 64)).dropJobWindows e.job
    else
      let p : Pair := { job := e.job, gen := e.gen, state := 2, warden := f 15 8, flokan := bitAt e.content 16, nmemb := f 95 64 }
      { s with pairs := mapPut {} s.pairs i p }
  | 1 => { s with
      ecrok := { s.ecrok with windows := putValid s.ecrok.windows i e.content 143 }
      dike := { s.dike with winJob := mapPut 0 s.dike.winJob i (if bitAt e.content 143 then owner + 1 else 0) } }
  | 2 => { s with ecrok := { s.ecrok with routes := mapPut 0 s.ecrok.routes i (f 95 0 + 1) } }
  | 3 => { s with
      coll := { s.coll with groups := putValid s.coll.groups i e.content 23 }
      dike := { s.dike with grpJob := mapPut 0 s.dike.grpJob i (if bitAt e.content 23 then owner + 1 else 0) } }
  | 4 =>
    ((((s.setF fdMemmapPolderBase pgMemmap i (f 9 0)).setF fdMemmapPolderSize pgMemmap i (f 25 16)).setF fdMemmapPolderJob pgMemmap i
      (f 51 32)).setF fdMemmapPolderFloorR pgMemmap i (f 73 64)).setF fdMemmapPolderFloorW pgMemmap i (f 89 80)
  | 5 =>
    let w : Warden := if f 7 0 = 0 then {} else { role := f 7 0, key := leBytes 64 (e.content / 2 ^ 32), enrolment := s.dike.enrolled + 1 }
    { s with dike := { s.dike with
        wardens := mapPut {} s.dike.wardens i w
        enrolled := s.dike.enrolled + (if f 7 0 = 0 then 0 else 1) } }
  | 6 => { s with dike := { s.dike with controlUnbound := bitAt e.content 0, tenantEnable := bitAt e.content 1 } }
  | _ => (s.setF fdDikeFwSvnMin pgDike 0 (f 31 0)).setF fdDikeRootRevoked pgDike 0 (f 35 32)

/-- CLAIMED after a change of the wardens (R492). -/
def State.settleClaim (s : State) (claims : Bool) : State :=
  let has := fun (r : Nat) => s.dike.wardens.any fun x => x.2.role = r
  if !(has 1 && has 2) then s.setF fdDikeStateClaimed pgDike 0 0
  else if claims then s.setF fdDikeStateClaimed pgDike 0 1
  else s

/-- A token's groups apply together (R491, R499, R501). -/
def State.applyToken (s : State) (groups : Nat) (entries : List DikeEntry) (jobs : List Nat) (claims : Bool) : State :=
  let s := s.forEach entries fun e s => s.applyEntry (jobs.headD 0) e
  let s := s.forEach ((List.range 6).filter fun g => bitAt groups g) fun g s => s.addF fdDikeGroupVer pgDike g 1
  let s := if bitAt groups 1 then s.windowsChanged else s
  let s := if bitAt groups 3 then s.settleClaim claims else s
  let s := if 8 ≤ groups then s.addF fdDikeCfgGen pgDike 0 1 else s
  if bitAt groups 0 then { s with urgentDue := true } else s

/-! ### Shadows (R499) -/

/-- `SHADOW.USED` follows the slots. -/
def State.setShadow (s : State) (k : Nat) (x : Shadow) : State :=
  let s : State := { s with dike := { s.dike with shadows := mapPut {} s.dike.shadows k x } }
  s.setF fdDikeShadowUsed pgDike 0 s.shadowList.length

/-- The shadow slot that holds a token. -/
def State.shadowOf (s : State) (digest : Nat) : Option Nat :=
  (List.range 2).find? fun k => (mapGet {} s.dike.shadows k).used && (mapGet {} s.dike.shadows k).digest = digest

/-- A shadow is installed: its PARTITION pairs read shadow where their entry was free (R584). -/
def State.installShadow (s : State) (v : TokenView) (es : List DikeEntry) (claim : Bool) : State :=
  let k := if (mapGet {} s.dike.shadows 0).used then 1 else 0
  let x : Shadow := { used := true, digest := v.digest, groups := v.groups, entries := es, jobs := s.tokenJobs v, claims := claim,
                      installed := s.now, ttl := v.ttl }
  let s := s.setShadow k x
  s.forEach (es.filter fun e => e.kind = 0 && !e.retires && ((s.pair e.index).state = 0 || (s.pair e.index).state = 4)) fun e s =>
    { s with pairs := mapPut {} s.pairs e.index { job := e.job, gen := e.gen, state := 1 } }

/-- A shadow applies. -/
def State.commitShadow (s : State) (k : Nat) : State :=
  let x := mapGet {} s.dike.shadows k
  (s.setShadow k {}).applyToken x.groups x.entries x.jobs x.claims

/-- A pair entry becomes empty. -/
def State.withoutPair (s : State) (i : Nat) : State := { s with pairs := mapDel s.pairs i }

/-- A shadow is discarded: its reserved pairs become empty, and the launch that it belonged to has failed (R499, R509, R520). -/
def State.discardShadow (s : State) (k : Nat) : State :=
  let x := mapGet {} s.dike.shadows k
  let s := s.setShadow k {}
  let sets := x.entries.filter fun e => e.kind = 0 && !e.retires && (s.pair e.index).state = 1
  let s := s.forEach sets fun e s => (s.dropJobFlows e.job e.gen []).withoutPair e.index
  { s with urgentDue := s.urgentDue || sets ≠ [] }

/-- COMMIT (R499): the shadow of that digest applies at the time, or at once if it has passed; else counted as an orphan. -/
def State.commitDigest (s : State) (digest t : Nat) : State :=
  match s.shadowOf digest with
  | none => s.addF fdDikeCntOrphan pgDike 0 1
  | some k =>
    let x := mapGet {} s.dike.shadows k
    if t ≤ s.now then s.commitShadow k
    else s.setShadow k { x with apply := if x.apply = 0 then t + 1 else min x.apply (t + 1) }

/-- ABORT (R499). -/
def State.abortDigest (s : State) (digest : Nat) : State :=
  match s.shadowOf digest with
  | none => s.addF fdDikeCntOrphan pgDike 0 1
  | some k => s.discardShadow k

end Sys2Proof.Machine
end

