-- ==== Sys2Proof/Machine/Launch.lean ====
section
/-! DEFINITION. Tokens on their way to the reeve and through it (R388, R497–R499), and the two-phase launch (R515–R521). -/
namespace Sys2Proof.Machine

/-! ### Launch records (R517, R518) -/

/-- The launch of a token digest. -/
def State.launchOf (s : State) (d : Nat) : Launch := (s.dike.launches.find? fun l => l.digest = d).getD { digest := d }

/-- A launch record replaced. -/
def State.setLaunch (s : State) (l : Launch) : State :=
  { s with dike := { s.dike with launches := l :: s.dike.launches.filter fun o => o.digest ≠ l.digest } }

/-- A launch takes the fields of a launch entry: the trees as group entries give them, and the launch root in the SHAPE bytes. -/
def Launch.take (l : Launch) (content : Nat) : Launch :=
  let tree := fun (b : Nat) =>
    (bitAt content (8 * b + 31), bits content (8 * b + 16) (8 * b),
      (List.range (min (bits content (8 * b + 26) (8 * b + 24)) 6)).map fun i =>
        bits content (8 * (b + 4 + 3 * i) + 16) (8 * (b + 4 + 3 * i)))
  let t0 := tree 24
  let t1 := tree 48
  { l with known := true, root := bits content 144 128, isRoot := [t0.1, t1.1], parents := [t0.2.1, t1.2.1],
           children := [t0.2.2, t1.2.2] }

/-- The launch entry of a token (R517): of its staged blob, or the one that the node keeps of the job. -/
def State.withEntry (s : State) (l : Launch) (bs : List Byte) : Launch :=
  if l.known then l
  else
    let blob := ((takeToken bs).bind s.stagedFor).bind Staged.entries
    match (blob.bind fun es => es.find? DikeEntry.isLaunch) with
    | some e => l.take e.content
    | none => match s.dike.launches.find? fun o => o.known && o.job = l.job && o.gen = l.gen with
      | some o => { l with known := true, root := o.root, isRoot := o.isRoot, parents := o.parents, children := o.children }
      | none => l

/-- The children in a tree. -/
def Launch.kids (l : Launch) (t : Nat) : List Nat := l.children.getD t []

/-- The LAUNCH messages that carry a token in a tree (R515). -/
def launchMessages (job gen tree : Nat) (bs : List Byte) : List (List Byte) :=
  let n := (bs.length + 239) / 240
  (List.range n).map fun k =>
    mgmtHead 0x02 k n job gen ++ leBytes 2 bs.length ++ leBytes 1 tree ++ [0, 0, 0, 0, 0] ++ (bs.drop (240 * k)).take 240

/-- The token goes to the children in a tree, once (R518). -/
def State.launchForward (s : State) (d t : Nat) (bs : List Byte) : State :=
  let l := s.launchOf d
  if !l.known || l.forwarded.contains t then s
  else
    let s := s.setLaunch { l with forwarded := t :: l.forwarded }
    s.forEach (l.kids t) fun k s => s.emitAll ((launchMessages l.job l.gen t bs).map fun m => Output.mgmt k m)

/-! ### Counting (R518, R519) -/

/-- What a member knows of its subtree in a tree: refusal flag, first refusal status, count; its own outcome included. -/
def Launch.tally (l : Launch) (t : Nat) : Bool × Nat × Nat :=
  let cs := l.counts.filter fun c => c.1 = t
  let own := if l.outcome = 2 then [(true, l.status)] else []
  let bad := own ++ (cs.filter fun c => c.2.2.1).map fun c => (true, c.2.2.2.1)
  (bad ≠ [], (bad.headD (false, 0)).2, (cs.map fun c => c.2.2.2.2).foldl (· + ·) 0 + (decide (l.outcome = 1)).toNat)

/-- The member's own check has ended, and each child's COUNT in a tree has come. -/
def Launch.ready (l : Launch) (t : Nat) : Bool :=
  l.known && l.outcome ≠ 0 && (l.kids t).all fun k => l.counts.any fun c => c.1 = t && c.2.1 = k

/-- The payload of COUNT (R515). -/
def countMessage (l : Launch) (t : Nat) : List Byte :=
  let (bad, status, n) := l.tally t
  mgmtHead 0x03 0 1 l.job l.gen ++ digestBytes l.digest ++ leBytes 1 t ++ leBytes 1 bad.toNat ++ leBytes 2 status ++ leBytes 4 n

/-- COUNT goes up each tree that is ready. -/
def State.countUp (s : State) (d : Nat) : State :=
  s.forEach [0, 1] fun t s =>
    let l := s.launchOf d
    if l.ready t && !l.counted.contains t && !l.isRoot.getD t false then
      (s.setLaunch { l with counted := t :: l.counted }).emit (.mgmt (l.parents.getD t 0) (countMessage l t))
    else s

/-- The root broadcasts on both trees. -/
def State.broadcast (s : State) (l : Launch) (m : List Byte) : State :=
  (s.setLaunch { l with decided := true, passed := [0, 1] }).forEach (l.kids 0 ++ l.kids 1) fun k s => s.emit (.mgmt k m)

/-- The root broadcasts ABORT with a cause, and discards its own shadow. -/
def State.launchAbort (s : State) (d cause : Nat) : State :=
  let l := s.launchOf d
  let s := s.broadcast l (mgmtHead 0x05 0 1 l.job l.gen ++ digestBytes d ++ leBytes 1 cause)
  (s.shadowOf d).elim s s.discardShadow

/-- What the root decides (R519): ABORT on a refusal, COMMIT once a tree has counted every member and the time allows it. -/
def State.launchDecide (s : State) (d : Nat) : State :=
  let l := s.launchOf d
  let roots := [0, 1].filter fun t => l.isRoot.getD t false
  if !l.known || !l.shadow || l.decided || roots = [] || l.outcome = 0 then s
  else if [0, 1].any fun t => (l.tally t).1 then s.launchAbort d 0
  else
    let tc := s.now + 4000000
    if (roots.any fun t => l.ready t && (l.tally t).2.2 = l.nmemb) && tc + 2000000 ≤ l.installed + l.ttl then
      (s.broadcast l (mgmtHead 0x04 0 1 l.job l.gen ++ digestBytes d ++ leBytes 8 tc)).commitDigest d tc
    else s

/-! ### The reeve (R497) -/

/-- The final line of Flokan's TOKEN (R525, R530). -/
def State.flokanDone (s : State) (code : Nat) : State :=
  if s.flokan.awaiting then
    { (s.emit (.final (if s.flokan.aborted then 9 else code) 0)) with flokan := { s.flokan with awaiting := false, aborted := false } }
  else s

/-- Whoever handed a token over learns its outcome, and a launch that it belongs to goes on. -/
def State.tokenDone (s : State) (from' : TokenFrom) (d : Nat) (v : Option TokenView) (code : Nat) : State :=
  let s := match from' with
    | .capsule q tag ctx =>
      let s := (if code = 0 then s else s.trace 75 0xFF q tag).trace 73 0xFF q tag
      (s.answerBusy q { op := 0x0070, tag := tag, ctx := ctx, code := code }).flushBroken q 64
    | .launch => s
    | .flokan => s.flokanDone code
  if !(s.dike.launches.any fun l => l.digest = d) then s
  else
    let l := s.launchOf d
    let set := v.bind fun v => v.entries.find? fun e => e.kind = 0 && !e.retires
    let s := s.setLaunch { l with
      outcome := if code = 0 then 1 else 2
      status := code
      installed := s.now
      ttl := v.elim 0 (·.ttl)
      shadow := v.elim false (·.shadow)
      nmemb := set.elim 0 fun e => bits e.content 95 64 }
    (s.countUp d).launchDecide d

/-- A token is refused (R497): it changes nothing but the counts. -/
def State.refuseToken (s : State) (v : Option TokenView) (code : Nat) : State :=
  let s := (s.addF fdDikeCntRefused pgDike 0 1).setF fdDikeLastRefusal pgDike 0 code
  { s with urgentDue := s.urgentDue || v.elim false fun v => bitAt v.groups 0 }

/-- A token that passed every check is installed: in shadow, or at once (R498, R499). -/
def State.installToken (s : State) (from' : TokenFrom) (v : TokenView) : State :=
  let es := (s.tokenEntries v).getD []
  let claim := s.claiming from' v
  let jobs := s.tokenJobs v
  let s : State := { s with dike := { s.dike with
    nonces := (v.nonce, v.notAfter) :: s.dike.nonces
    staged := s.dike.staged.filter fun x => !(v.tree && x.root = v.root) } }
  let s := (s.setF fdDikeNonceUsed pgDike 0 s.dike.nonces.length).addF fdDikeCntAccepted pgDike 0 1
  if v.shadow then s.installShadow v es claim else s.applyToken v.groups es jobs claim

/-- The reeve checks one token. -/
def State.checkToken (s : State) (from' : TokenFrom) (bs : List Byte) : State :=
  match takeToken bs with
  | none => (s.refuseToken none 0x60).tokenDone from' (tokenDigest bs) none 0x60
  | some v => match s.tokenChecks from' v with
    | some c => (s.refuseToken (some v) c).tokenDone from' v.digest (some v) c
    | none => (s.installToken from' v).tokenDone from' v.digest (some v) 0

/-- SHADOW_APPLY. -/
def execShadowApply (slot : Fin 2) (s : State) : Out :=
  let x := mapGet {} s.dike.shadows slot.val
  if x.used && x.apply ≠ 0 then .next (s.commitShadow slot.val).finish else .next s

/-- SHADOW_TTL_EXPIRY. -/
def execShadowTtlExpiry (slot : Fin 2) (s : State) : Out :=
  let x := mapGet {} s.dike.shadows slot.val
  if x.used && x.apply = 0 then .next (s.discardShadow slot.val) else .next s

/-- NONCE_EXPIRY. -/
def execNonceExpiry (nonce : BitVec 128) (s : State) : Out :=
  let s : State := { s with dike := { s.dike with nonces := s.dike.nonces.filter fun x => x.1 ≠ nonce.toNat } }
  .next (s.setF fdDikeNonceUsed pgDike 0 s.dike.nonces.length)

/-- STAGED_BLOB_DISCARD. -/
def execStagedBlobDiscard (root : Nat) (s : State) : Out :=
  .next { s with dike := { s.dike with staged := s.dike.staged.filter fun x => x.root ≠ root } }

/-! ### Copies of a token (R518) -/

/-- A copy of a token arrives, in a tree or from the fabric manager: it is forwarded first, and checked if it is the first. -/
def State.launchCopy (s : State) (job gen : Nat) (tree : Option Nat) (from' : TokenFrom) (bs : List Byte) : State :=
  let d := tokenDigest bs
  let seen := s.dike.launches.any fun l => l.digest = d && l.forwarded ≠ []
  let l := s.withEntry { s.launchOf d with job := job, gen := gen } bs
  let s := if l.known || from' = .launch then s.setLaunch l else s
  let trees := match tree with
    | some t => [t]
    | none => [0, 1].filter fun t => l.isRoot.getD t false
  let s := s.forEach trees fun t s => s.launchForward d t bs
  let held := s.dike.tokens.any fun x => tokenDigest x.2 = d
  if from' = .launch && (seen || held || l.outcome ≠ 0) then (s.countUp d).launchDecide d
  else if 8 ≤ s.dike.tokens.length then s.tokenDone from' d (takeToken bs) scBusy
  else { s with dike := { s.dike with tokens := s.dike.tokens ++ [(from', bs)] } }

/-- The job and generation of a token's first PARTITION entry. -/
def tokenPair (bs : List Byte) : Nat × Nat :=
  match (takeToken bs).bind fun v => v.entries.find? fun e => e.kind = 0 with
  | some e => (e.job, e.gen)
  | none => (0, 0)

/-- TOKEN: a token for the reeve, or part of a staged object (R384, R388). -/
def execToken (q : QueueId) (cap : Capsule) (s : State) : Out :=
  let part := capF cap 0 1 = 0x5A && cap.body ≠ []
  let ok := cap.bodyLen = cap.body.length && cap.bodyLen ≤ 3584 && cap.body ≠ [] &&
    (!part || (12 ≤ cap.bodyLen && capF cap 1 3 = 0 && capF cap 8 4 + (cap.bodyLen - 12) ≤ capF cap 4 4 && capF cap 4 4 ≤ 2 ^ 26))
  s.capsule q cap { code := 0x0070, feature := 11, mgmt := true } ok fun s =>
    if part then
      if !s.stagingRoom (capF cap 4 4) then just s scNoResource
      else just (s.stagePart q.val (capF cap 4 4) (capF cap 8 4) (cap.body.drop 12)) scOK
    else if 8 ≤ s.dike.tokens.length then just (s.trace 108 0xFF q.val scBusy) scBusy
    else
      let s := s.setQueue q.val { s.queue q.val with busy := some cap.tag.toNat }
      let (job, gen) := tokenPair cap.body
      let s := (s.trace 108 0xFF q.val scOK).launchCopy job gen none (.capsule q.val cap.tag.toNat cap.ctx.toNat) cap.body
      (s, { later := true })

/-! ### MGMT messages of kind 0x1E (R515) -/

/-- The common bytes of a message that is not a STAGE: part `k` of `n`. -/
def mgmtForm (p : List Byte) (sub : Nat) : Bool :=
  8 ≤ p.length && leField p 0 1 = sub && leField p 3 1 = 0 &&
    (if sub = 1 then leField p 1 2 = 0 else leField p 1 1 < leField p 2 1 && leField p 2 1 ≤ 16)

/-- A one-part message of a length whose listed bytes alone may not be 0. -/
def mgmtSingle (p : List Byte) (sub len : Nat) (listed : List (Nat × Nat)) : Bool :=
  mgmtForm p sub && p.length = len && leField p 1 2 = 0x100 &&
    (List.range (len - 8)).all fun i => leField p (i + 8) 1 = 0 || listed.any fun r => r.1 ≤ i + 8 && i + 8 < r.1 + r.2

/-- Job and generation of a message. -/
def mgmtPair (p : List Byte) : Nat × Nat := (leField p 4 4 % 2 ^ 20, leField p 4 4 / 2 ^ 20)

/-- STAGE. -/
def State.recvStage (s : State) (src : Nat) (p : List Byte) : State :=
  let len := leField p 12 4
  let off := leField p 16 4
  let n := p.length - 32
  if !(mgmtForm p 1 && 33 ≤ p.length && n ≤ 224 && leField p 8 4 < 2 ^ 17 && leField p 20 12 = 0 && off + n ≤ len) then s.dropMalformed
  else if leField p 8 4 ≠ s.nodeId then s
  else s.stagePart (256 + src) len off (p.drop 32)

/-- LAUNCH: the parts of a token gather, and the whole is a copy in its tree. -/
def State.recvLaunch (s : State) (src : Nat) (p : List Byte) : State :=
  let len := leField p 8 2
  let k := leField p 1 1
  let n := leField p 2 1
  let tree := leField p 10 1
  let size := if k + 1 = n then len - 240 * k else 240
  if !(mgmtForm p 2 && 16 < p.length && tree < 2 && leField p 11 5 = 0 && n = (len + 239) / 240 && p.length = 16 + size) then s.dropMalformed
  else match s.assemble (256 + src) (1 + tree) len (240 * k) (p.drop 16) with
    | (s, none) => s
    | (s, some bs) => s.launchCopy (mgmtPair p).1 (mgmtPair p).2 (some tree) .launch bs

/-- COUNT: a child's count in a tree, kept also where it comes before the token. -/
def State.recvCount (s : State) (src : Nat) (p : List Byte) : State :=
  if !(mgmtSingle p 3 48 [(8, 40)] && leField p 40 1 < 2 && leField p 41 1 < 2) then s.dropMalformed
  else
    let d := digestNat ((p.drop 8).take 32)
    let l := { s.launchOf d with job := (mgmtPair p).1, gen := (mgmtPair p).2 }
    let t := leField p 40 1
    let c := (t, src, decide (leField p 41 1 = 1), leField p 42 2, leField p 44 4)
    let s := s.setLaunch { l with counts := c :: l.counts.filter fun o => !(o.1 = t && o.2.1 = src) }
    (s.countUp d).launchDecide d

/-- COMMIT or ABORT is passed on in each tree whose parent sent it, once. -/
def State.launchPass (s : State) (d src : Nat) (p : List Byte) : State :=
  s.forEach [0, 1] fun t s =>
    let l := s.launchOf d
    if l.known && l.parents.getD t 0 = src && !l.isRoot.getD t false && !l.passed.contains t then
      (s.setLaunch { l with passed := t :: l.passed }).forEach (l.kids t) fun k s => s.emit (.mgmt k p)
    else s

/-- COMMIT. -/
def State.recvCommit (s : State) (src : Nat) (p : List Byte) : State :=
  if !mgmtSingle p 4 48 [(8, 40)] then s.dropMalformed
  else
    let d := digestNat ((p.drop 8).take 32)
    (s.launchPass d src p).commitDigest d (leField p 40 8)

/-- ABORT. -/
def State.recvAbort (s : State) (src : Nat) (p : List Byte) : State :=
  if !(mgmtSingle p 5 41 [(8, 33)] && leField p 40 1 < 3) then s.dropMalformed
  else
    let d := digestNat ((p.drop 8).take 32)
    (s.launchPass d src p).abortDigest d

/-- A report that reaches the launch root is passed to the fabric manager on its management sessions (R516). -/
def State.passReport (s : State) (p : List Byte) : State :=
  s.forEach (List.range 4) fun q s => s.sendStatus q { op := 0x8004, body := p }

/-- RETIRED. -/
def State.recvRetired (s : State) (p : List Byte) : State :=
  if !(mgmtSingle p 6 24 [(8, 6), (16, 8)] && leField p 8 4 < 2 ^ 17) then s.dropMalformed else s.passReport p

/-- JOB_FATAL. -/
def State.recvJobFatal (s : State) (p : List Byte) : State :=
  if !(mgmtSingle p 7 40 [(8, 6), (16, 24)] && leField p 8 4 < 2 ^ 17 && leField p 20 4 < 2 ^ 17) then s.dropMalformed else s.passReport p

/-- A MGMT payload of kind 0x1E from a node. -/
def State.recvMgmt (s : State) (src : Nat) (p : List Byte) : State :=
  match leField p 0 1 with
  | 1 => s.recvStage src p
  | 2 => s.recvLaunch src p
  | 3 => s.recvCount src p
  | 4 => s.recvCommit src p
  | 5 => s.recvAbort src p
  | 6 => s.recvRetired p
  | 7 => s.recvJobFatal p
  | _ => s.dropMalformed

/-- A MGMT message that comes in DEEP waits for the exit, which a launch token starts (R471). -/
def State.mgmtRow (s : State) (src : Nat) (p : List Byte) (run : State → State) : Out :=
  let s := if leField p 0 1 = 2 then s.leaveDeep else s
  if s.inDeep then .next { s with power := { s.power with heldMgmt := s.power.heldMgmt ++ [(src, p)] } } else .next (run s).finish

/-- STAGE. -/
def execStage (src : NodeField) (payload : List Byte) (s : State) : Out :=
  s.mgmtRow src.toNat payload fun s => s.recvStage src.toNat payload

/-- LAUNCH. -/
def execLaunch (src : NodeField) (payload : List Byte) (s : State) : Out :=
  s.mgmtRow src.toNat payload fun s => s.recvLaunch src.toNat payload

/-- COUNT. -/
def execCount (src : NodeField) (payload : List Byte) (s : State) : Out :=
  s.mgmtRow src.toNat payload fun s => s.recvCount src.toNat payload

/-- COMMIT. -/
def execCommit (src : NodeField) (payload : List Byte) (s : State) : Out :=
  s.mgmtRow src.toNat payload fun s => s.recvCommit src.toNat payload

/-- ABORT. -/
def execAbort (src : NodeField) (payload : List Byte) (s : State) : Out :=
  s.mgmtRow src.toNat payload fun s => s.recvAbort src.toNat payload

/-- RETIRED. -/
def execRetired (src : NodeField) (payload : List Byte) (s : State) : Out :=
  s.mgmtRow src.toNat payload fun s => s.recvRetired payload

/-- JOB_FATAL. -/
def execJobFatal (src : NodeField) (payload : List Byte) (s : State) : Out :=
  s.mgmtRow src.toNat payload fun s => s.recvJobFatal payload

/-- LAUNCH_ABORT_TIMER: the root of a launch whose counts are still incomplete. -/
def execLaunchAbortTimer (s : State) : Out :=
  match s.dike.launches.find? fun l => l.known && l.shadow && !l.decided && l.outcome = 1 && l.isRoot.contains true with
  | some l => .next (s.launchAbort l.digest 1)
  | none => .next s

end Sys2Proof.Machine
end

