-- ==== Sys2Proof/Machine/Spdm.lean ====
section
/-! DEFINITION. Attestation (R389, R487, R488) and the SM4 key slots (R489). Message codes and layouts are those of DMTF SPDM 1.3
(PRESUMED, log entry 16); a secured session's messages stand here as they are after decryption. -/
namespace Sys2Proof.Machine

/-! ### Messages -/

/-- Request codes that R487 lists. -/
def spdmRequests : List Nat := [0x84, 0xE1, 0xE3, 0x81, 0x82, 0x83, 0xE0, 0xE4, 0xE5, 0xE8, 0xE9, 0xEC, 0xFE]

/-- A response: version 1.3, code, two parameters, and the rest. -/
def spdmReply (code p1 p2 : Nat) (rest : List Byte) : List Byte := [0x13, BitVec.ofNat 8 code, BitVec.ofNat 8 p1, BitVec.ofNat 8 p2] ++ rest

/-- ERROR with a code. -/
def spdmError (code : Nat) : List Byte := spdmReply 0x7F code 0 []

/-- InvalidRequest. -/
def seInvalid : Nat := 0x01
/-- UnexpectedRequest. -/
def seUnexpected : Nat := 0x04
/-- DecryptError. -/
def seDecrypt : Nat := 0x06
/-- UnsupportedRequest. -/
def seUnsupported : Nat := 0x07
/-- SessionLimitExceeded. -/
def seLimit : Nat := 0x0A
/-- VersionMismatch. -/
def seVersion : Nat := 0x41

/-- The SPDM state of a queue. -/
def State.spdmOf (s : State) (q : Nat) : SpdmState := mapGet {} s.spdm q

/-- The SPDM state of a queue replaced. -/
def State.setSpdm (s : State) (q : Nat) (x : SpdmState) : State := { s with spdm := mapPut {} s.spdm q x }

/-- An SPDM capsule (R384, R389): it is the one at the front of the queue's ring; its body is the request, and the status body carries the
response, which joins the transcript. A request of another code than `code` is answered with ERROR. -/
def State.spdm' (s : State) (q : QueueId) (code : Nat) (msg : List Byte) (run : State → SpdmState → State × List Byte) : Out :=
  let head := ((s.queue q.val).ring.find? fun x => !x.broken).elim [] (·.bytes)
  let mine := capOp head = 0x0071
  let cap : Capsule :=
    { tag := BitVec.ofNat 32 (if mine then capTag head else 0), ctx := BitVec.ofNat 8 (if mine then leField head 8 1 else 0xFF),
      bodyLen := msg.length, body := msg }
  s.capsule q cap { code := 0x0071, feature := 10 } true fun s =>
    let got := leField msg 1 1
    let (s, out) :=
      if msg.length < 4 then (s, spdmError seInvalid)
      else if !spdmRequests.contains got then (s, spdmError seUnsupported)
      else if got ≠ code then (s, spdmError seInvalid)
      else if code ≠ 0x84 && leField msg 0 1 ≠ 0x13 then (s, spdmError seVersion)
      else run s (s.spdmOf q.val)
    let x := s.spdmOf q.val
    (s.setSpdm q.val { x with transcript := x.transcript ++ msg ++ out }, { body := out })

/-- A fresh value of `n` bytes. -/
def State.freshBytes (s : State) (n : Nat) : List Byte × State :=
  let (v, s) := s.free
  (leBytes n v, s)

/-! ### Negotiation -/

/-- GET_VERSION: negotiation starts again, and an SPDM session ends. -/
def execGetVersion (q : QueueId) (msg : List Byte) (s : State) : Out :=
  s.spdm' q 0x84 msg fun s _ =>
    (s.setSpdm q.val { stage := 1 }, [0x10, 0x04, 0, 0, 0, 1, 0x00, 0x13])

/-- The capability flags of R487: CERT, CHAL, MEAS with signature, MEAS_FRESH, ENCRYPT, MAC, MUT_AUTH, KEY_EX, HBEAT, KEY_UPD. -/
def spdmFlags : Nat := 2 ^ 1 + 2 ^ 2 + 2 ^ 4 + 2 ^ 5 + 2 ^ 6 + 2 ^ 7 + 2 ^ 8 + 2 ^ 9 + 2 ^ 13 + 2 ^ 14

/-- GET_CAPABILITIES. -/
def execGetCapabilities (q : QueueId) (msg : List Byte) (s : State) : Out :=
  s.spdm' q 0xE1 msg fun s x =>
    if x.stage = 0 then (s, spdmError seUnexpected)
    else (s.setSpdm q.val { x with stage := max x.stage 2 }, spdmReply 0x61 0 0 (Config.spdmTimes ++ leBytes 4 spdmFlags ++ Config.spdmSizes))

/-- NEGOTIATE_ALGORITHMS. -/
def execNegotiateAlgorithms (q : QueueId) (msg : List Byte) (s : State) : Out :=
  s.spdm' q 0xE3 msg fun s x =>
    if x.stage < 2 then (s, spdmError seUnexpected)
    else (s.setSpdm q.val { x with stage := 3 }, spdmReply 0x63 0 0 (Config.spdmAlgorithms msg))

/-! ### Certificates and challenge -/

/-- Boots since the cold reset, which tell the attestation keys apart. -/
def State.bootCount (s : State) : Nat := s.getF fdNodectlResetCount pgNodectl

/-- A slot's chain (R487). -/
def State.chain (s : State) (slot : Nat) : List Byte := Config.certChain slot s.bootCount

/-- GET_DIGESTS: both slots. -/
def execGetDigests (q : QueueId) (msg : List Byte) (s : State) : Out :=
  s.spdm' q 0x81 msg fun s x =>
    if x.stage < 3 then (s, spdmError seUnexpected)
    else (s, spdmReply 0x01 3 3 (digestBytes (Config.sm3 (s.chain 0)) ++ digestBytes (Config.sm3 (s.chain 1))))

/-- GET_CERTIFICATE: a portion of a slot's chain, as much as a status chain of 3,584 B carries. -/
def execGetCertificate (q : QueueId) (msg : List Byte) (s : State) : Out :=
  s.spdm' q 0x82 msg fun s x =>
    let slot := leField msg 2 1 % 16
    let off := leField msg 4 2
    let chain := s.chain slot
    if x.stage < 3 then (s, spdmError seUnexpected)
    else if msg.length < 8 || 2 ≤ slot || chain.length ≤ off then (s, spdmError seInvalid)
    else
      let part := (chain.drop off).take (min (leField msg 6 2) 3576)
      (s, spdmReply 0x02 slot 0 (leBytes 2 part.length ++ leBytes 2 (chain.length - off - part.length) ++ part))

/-- The content of a measurement block (R488). -/
def State.measured (s : State) (i : Nat) : List Byte :=
  let rollback := leBytes 4 (s.getF fdDikeFwSvnMin pgDike) ++ leBytes 4 (s.getF fdDikeRootRevoked pgDike) ++ leBytes 8 (s.getF fdDikeCfgGen pgDike)
  match i with
  | 1 => Config.romContent
  | 2 => leBytes 1 (s.getF fdDikeStateBank pgDike) ++ leBytes 4 (s.getF fdDikeFwSvn pgDike) ++ leBytes 1 (s.getF fdDikeStateTrial pgDike)
  | 3 => (s.bankImage (s.getF fdDikeStateBank pgDike)).take 4096
  | 4 => rollback
  | 5 => s.dikeDigest
  | 6 => ((List.range 9).flatMap fun k => leBytes 1 (s.getF fdPortRole (pgPort (2 * k)))) ++
      (List.range 2).flatMap fun e => leBytes 1 (s.getF fdEthMode (pgEth e))
  | 0x7F => rollback ++ s.dikeDigest
  | _ => if (s.ctx (i - 16)).isOpen then (s.reproOf (i - 16)).bytes else [0]

/-- The indices that the node reports. -/
def measureList : List Nat := [1, 2, 3, 4, 5, 6] ++ (List.range 16).map (· + 16) ++ [0x7F]

/-- A measurement block in DMTF format: a digest, or raw bytes at index 0x7F. -/
def State.measureBlock (s : State) (i : Nat) : List Byte :=
  let raw := i = 0x7F
  let v := if raw then s.measured i else digestBytes (Config.sm3 (s.measured i))
  leBytes 1 i ++ [1] ++ leBytes 2 (v.length + 3) ++ leBytes 1 (if raw then 0x80 + 4 else min i 4) ++ leBytes 2 v.length ++ v

/-- A signature of the boot's attestation key over the transcript and a response (R485). -/
def State.attest (s : State) (x : SpdmState) (msg body : List Byte) : List Byte :=
  Config.sm2Sign (Config.attestationKey s.bootCount) (digestBytes (Config.sm3 (x.transcript ++ msg ++ body)))

/-- A summary of all measurements, where asked for. -/
def State.measureSummary (s : State) (kind : Nat) : List Byte :=
  if kind = 0 then [] else digestBytes (Config.sm3 (measureList.flatMap fun i => s.measureBlock i))

/-- CHALLENGE. -/
def execChallenge (q : QueueId) (msg : List Byte) (s : State) : Out :=
  s.spdm' q 0x83 msg fun s x =>
    let slot := leField msg 2 1 % 16
    if x.stage < 3 then (s, spdmError seUnexpected)
    else if msg.length < 44 || 2 ≤ slot then (s, spdmError seInvalid)
    else
      let (nonce, s) := s.freshBytes 32
      let body := spdmReply 0x03 slot (2 ^ slot) (digestBytes (Config.sm3 (s.chain slot)) ++ nonce ++ s.measureSummary (leField msg 3 1) ++
        [0, 0] ++ (msg.drop 36).take 8)
      (s, body ++ s.attest x msg body)

/-- GET_MEASUREMENTS: the number of blocks, one block, or all of them, signed where asked for. -/
def execGetMeasurements (q : QueueId) (msg : List Byte) (s : State) : Out :=
  s.spdm' q 0xE0 msg fun s x =>
    let signed := leField msg 2 1 % 2 = 1
    let i := leField msg 3 1
    let is := if i = 0 then [] else if i = 0xFF then measureList else [i]
    if x.stage < 3 then (s, spdmError seUnexpected)
    else if !(is.all measureList.contains) || (signed && msg.length < 37) then (s, spdmError seInvalid)
    else
      let (nonce, s) := s.freshBytes 32
      let record := is.flatMap fun i => s.measureBlock i
      let body := spdmReply 0x60 (if i = 0 then measureList.length else 0) 0
        (leBytes 1 is.length ++ leBytes 3 record.length ++ record ++ nonce ++ [0, 0] ++ (msg.drop (if signed then 37 else 4)).take 8)
      (s, if signed then body ++ s.attest x msg body else body)

/-! ### Secured sessions -/

/-- KEY_EXCHANGE: at most one SPDM session per session (R389). -/
def execKeyExchange (q : QueueId) (msg : List Byte) (s : State) : Out :=
  s.spdm' q 0xE4 msg fun s x =>
    if x.stage < 3 then (s, spdmError seUnexpected)
    else if x.session ≠ 0 then (s, spdmError seLimit)
    else
      let (v, s) := s.free
      (s.setSpdm q.val { x with session := 1 }, spdmReply 0x64 0 0 (Config.spdmKeyExchange msg v))

/-- FINISH: the session opens where the message verifies; with a signature the requester has authenticated itself. -/
def execFinish (q : QueueId) (msg : List Byte) (s : State) : Out :=
  s.spdm' q 0xE5 msg fun s x =>
    if x.session ≠ 1 then (s, spdmError seUnexpected)
    else if !Config.spdmFinishOk x.transcript msg then (s.setSpdm q.val { x with session := 0 }, spdmError seDecrypt)
    else
      let who := if leField msg 2 1 % 2 = 1 then some (Config.spdmRequester x.transcript msg) else none
      (s.setSpdm q.val { x with session := 2, requester := who }, spdmReply 0x65 0 0 [])

/-- HEARTBEAT. -/
def execHeartbeat (q : QueueId) (msg : List Byte) (s : State) : Out :=
  s.spdm' q 0xE8 msg fun s x => if x.session ≠ 2 then (s, spdmError seUnexpected) else (s, spdmReply 0x68 0 0 [])

/-- KEY_UPDATE: 1 one direction, 2 both, 3 the new key verified. -/
def execKeyUpdate (q : QueueId) (msg : List Byte) (s : State) : Out :=
  s.spdm' q 0xE9 msg fun s x =>
    let op := leField msg 2 1
    if x.session ≠ 2 then (s, spdmError seUnexpected)
    else if op = 0 || 3 < op then (s, spdmError seInvalid)
    else (s.setSpdm q.val { x with updates := x.updates + (if op = 3 then 0 else op) }, spdmReply 0x69 op (leField msg 3 1) [])

/-- END_SESSION. -/
def execEndSession (q : QueueId) (msg : List Byte) (s : State) : Out :=
  s.spdm' q 0xEC msg fun s x =>
    if x.session ≠ 2 then (s, spdmError seUnexpected)
    else (s.setSpdm q.val { x with session := 0, requester := none }, spdmReply 0x6C 0 0 [])

/-! ### Key slots (R489) -/

/-- The requester of an SPDM session is the enrolled TENANT warden that a job's committed PARTITION entry names. -/
def State.tenantOf (s : State) (job : Nat) (who : List Byte) : Bool :=
  s.pairs.any fun p => p.2.state = 2 && p.2.job = job &&
    (let w := mapGet {} s.dike.wardens p.2.warden
     w.role = 3 && w.key = who)

/-- The status of a key request, checked in the order of the status codes (log entry 17). -/
def State.keyStatus (s : State) (x : SpdmState) (op : Nat) (p : List Byte) : Nat :=
  let f := leField p
  let job := f 4 4 % 2 ^ 20
  match (if x.session = 2 then x.requester else none) with
  | none => 1
  | some who =>
    if !s.tenantOf job who then 2
    else if !(allCtxs.any fun c => (s.ctx c).isOpen && (s.ctx c).job = job) then 3
    else if 15 < f 1 1 then 4
    else if p.length ≠ 24 || f 0 1 ≠ op || f 2 2 ≠ 0 || 2 ^ 20 ≤ f 4 4 || (op = 2 && f 8 16 ≠ 0) then 5
    else 0

/-- KEY_LOAD or KEY_CLEAR, a VENDOR_DEFINED_REQUEST of StandardID 4 and Borranil's VendorID. -/
def State.keyRequest (s : State) (q : QueueId) (op : Nat) (msg : List Byte) : Out :=
  s.spdm' q 0xFE msg fun s x =>
    let pen := Config.vendorPen % 2 ^ 32
    let p := msg.drop 13
    if leField msg 4 2 ≠ 4 || leField msg 6 1 ≠ 4 || leField msg 7 4 ≠ pen then (s, spdmError seUnsupported)
    else
      let st := if leField msg 11 2 = p.length then s.keyStatus x op p else 5
      let slot := leField p 1 1
      let old := mapGet {} s.keys slot
      let (v, s) := s.free
      let salt := if v % 2 ^ 128 = old.salt then (v + 1) % 2 ^ 128 else v % 2 ^ 128
      let k : KeySlot := if op = 1 then { full := true, job := leField p 4 4 % 2 ^ 20, key := leField p 8 16, salt := salt } else {}
      let s := if st = 0 then { s with keys := mapPut {} s.keys slot k } else s
      let body := leBytes 1 (leField p 0 1) ++ leBytes 1 st ++ [0, 0] ++ leBytes 16 (if st = 0 && op = 1 then salt else 0)
      (s, spdmReply 0x7E 0 0 ([4, 0, 4] ++ leBytes 4 pen ++ leBytes 2 body.length ++ body))

/-- KEY_LOAD. -/
def execKeyLoad (q : QueueId) (msg : List Byte) (s : State) : Out := s.keyRequest q 1 msg

/-- KEY_CLEAR. -/
def execKeyClear (q : QueueId) (msg : List Byte) (s : State) : Out := s.keyRequest q 2 msg

end Sys2Proof.Machine
end

