-- ==== Sys2Proof/Machine/Reset.lean ====
section
/-! DEFINITION. What a node reset and a loss of power keep and clear (R509, R510). -/
namespace Sys2Proof.Machine

/-- A page's fields: a descriptor and how many of its elements. -/
def fieldsOf (page : Nat) (ds : List FieldDesc) : List (FieldDesc × Nat) := ds.map fun d => (d, page)

/-- Fields of the always-on island, of the reeve and of the configuration store that a node reset keeps (R509). -/
def keptFields : List (FieldDesc × Nat) :=
  fieldsOf pgDike [fdDikeStateClaimed, fdDikeStateIdentity, fdDikeStateTrial, fdDikeFwSvnMin, fdDikeRootRevoked, fdDikeCfgGen,
      fdDikeNonceUsed, fdDikeCntAccepted, fdDikeCntRefused, fdDikeLastRefusal, fdDikeCntOrphan] ++
    fieldsOf pgPower [fdPowerVin, fdPowerIin, fdPowerPin, fdPowerSupplyState, fdPowerSupplyDips, fdPowerSupplyBrownouts, fdPowerEnergy,
      fdPowerDieTj, fdPowerDieTjmax, fdPowerDieState, fdPowerDieCap, fdPowerLastgaspCause,
      fdPowerLastgaspTime] ++
    fieldsOf pgErragg [fdErraggSpareState, fdErraggRingNewest, fdErraggCntNf, fdErraggCntJobFatal, fdErraggLastNf] ++
    fieldsOf pgNodectl [fdNodectlIdentOrderCode, fdNodectlIdentStepping, fdNodectlResetCount, fdNodectlReadyTime] ++
    fieldsOf pgMemmap [fdMemmapMapouts, fdMemmapTop] ++ fieldsOf pgClk [fdClkRefState, fdClkRefPpb] ++
    (List.range 12).flatMap fun i => fieldsOf (pgHbmc i)
      [fdHbmcChInService, fdHbmcTempNow, fdHbmcTempMax, fdHbmcThermState, fdHbmcThermCap]

/-- Fields that hold the configuration store and the part's identity, which a cold reset keeps too. -/
def storeFields : List (FieldDesc × Nat) :=
  fieldsOf pgDike [fdDikeStateClaimed, fdDikeStateIdentity, fdDikeStateTrial, fdDikeFwSvnMin, fdDikeRootRevoked, fdDikeCfgGen] ++
    fieldsOf pgPower [fdPowerLastgaspCause, fdPowerLastgaspTime] ++
    fieldsOf pgNodectl [fdNodectlIdentOrderCode, fdNodectlIdentStepping] ++
    fieldsOf pgMemmap [fdMemmapMapouts, fdMemmapTop] ++
    (List.range 12).flatMap fun i => fieldsOf (pgHbmc i) [fdHbmcChInService]

/-- Every element of the fields copied from a state. -/
def State.copyFields (s : State) (l : List (FieldDesc × Nat)) (old : State) : State :=
  s.forEach l fun x s => s.forEach (List.range x.1.count) fun i s => s.setF x.1 x.2 i (old.getF x.1 x.2 i)

/-- Versions of the persistent groups (R490). -/
def State.copyVersions (s : State) (old : State) : State :=
  s.forEach [3, 4, 5] fun g s => s.setF fdDikeGroupVer pgDike g (old.getF fdDikeGroupVer pgDike g)

/-- Roles and Ethernet modes of the configuration store (R288, R365), and the straps (R571), as the ROM and the reeve take them at the
start. -/
def State.takeStore (s : State) : State :=
  let s := s.forEach s.store.roles fun (k, r) s =>
    (s.setF fdPortRole (pgPort (2 * k)) 0 (r - 1)).setF fdPortRole (pgPort (2 * k + 1)) 0 (r - 1)
  let s := s.forEach [0, 1] fun e s => s.setF fdEthMode (pgEth e) 0 (bitAt s.store.ethMode e).toNat
  (s.setF fdDikeStateTrial pgDike 0 s.store.trial.toNat).setF fdNodectlPosStraps pgNodectl 0 s.boot.straps

/-- The dike set without its non-persistent groups, shadows and staging area. -/
def DikeState.kept (d : DikeState) : DikeState :=
  { d with winJob := [], grpJob := [], shadows := [], staged := [], parts := [], launches := [] }

/-- The node with nothing but what a node reset keeps. -/
def State.bare (s : State) : State :=
  let b : State :=
    { dike := s.dike.kept
      store := s.store
      flokan := s.flokan
      side := { summary := s.side.summary }
      boot := { held := s.boot.held, straps := s.boot.straps }
      power := { samples := s.power.samples, powers := s.power.powers, vbank := s.power.vbank, brownout := s.power.brownout,
                 isolated := s.power.isolated, good := s.power.good, hardSince := s.power.hardSince, lastGasp := s.power.lastGasp,
                 stopping := s.power.stopping, gasp := s.power.gasp }
      err := { ring := s.err.ring, queued := s.err.queued, running := s.err.running, stopped := s.err.stopped, lost := s.err.lost,
               prefailed := s.err.prefailed, lastNf := s.err.lastNf, nfRepeated := s.err.nfRepeated, out := s.err.out }
      hbm := { mappedOut := s.hbm.mappedOut, hardSince := s.hbm.hardSince }
      out := s.out
      freeCount := s.freeCount
      pending := s.pending }
  ((b.copyFields keptFields s).copyVersions s).takeStore

/-- The node once power is gone: only the NOR contents stand, and nothing of what is outside the node changes. -/
def State.cold (s : State) : State :=
  let d := s.dike
  let b : State :=
    { dike := { wardens := d.wardens, enrolled := d.enrolled, controlUnbound := d.controlUnbound, tenantEnable := d.tenantEnable }
      store := s.store
      boot := { held := s.boot.held, straps := s.boot.straps }
      power := { lastGasp := s.power.lastGasp }
      hbm := { mappedOut := s.hbm.mappedOut }
      out := s.out
      freeCount := s.freeCount
      pending := s.pending }
  ((b.copyFields storeFields s).copyVersions s).takeStore

/-- A node reset is in progress until the boot ROM has judged the firmware banks (R510; DEDUCED, log entry 18). -/
def State.resetting (s : State) : Bool :=
  s.getF fdNodectlStatusStage pgNodectl < 2 && s.getF fdNodectlResetCount pgNodectl ≠ 0

/-- ROM start (R504, R571): the straps are sampled, the stage is VERIFY, and the tray controller is asked for a position; nothing while
RESET_REQ_N is held low. -/
def State.romStart (s : State) : State :=
  if s.boot.held then s
  else
    let s := (s.setF fdNodectlPosStraps pgNodectl 0 s.boot.straps).setF fdNodectlStatusStage pgNodectl 0 1
    s.emit (.ibi 1)

/-- A node reset (R509, R510) with a cause of `RESET.CAUSE`; nothing while one is in progress or an orderly stop runs. -/
def State.nodeReset (s : State) (cause : Nat) : State :=
  if s.resetting || s.power.stopping ≠ 0 then s
  else
    let s := (s.jobFatalAll 0x0103 0).bare
    let s := (s.addF fdNodectlResetCount pgNodectl 0 1).setF fdNodectlResetCause pgNodectl 0 cause
    (s.event pgNodectl 0 none 0x0009 1 0).romStart

end Sys2Proof.Machine
end

