-- ==== Sys2Proof/Machine/Power.lean ====
section
/-! DEFINITION. Power, heat and the reference (R460–R476): supply states, the orderly stop, the ceiling and the floor, deep idle, and what
temperature readings do. -/
namespace Sys2Proof.Machine

/-! ### Supply states (R460, R461) -/

/-- `SUPPLY.STATE`. -/
def State.supply (s : State) : Nat := s.getF fdPowerSupplyState pgPower

/-- `SUPPLY.STATE` changes, with its event and an urgent summary. -/
def State.setSupply (s : State) (v : Nat) : State :=
  if s.supply = v then s
  else
    let s := (s.setF fdPowerSupplyState pgPower 0 v).event pgPower 0 (some 5) 0x0150 v (s.getF fdPowerVin pgPower)
    { s with urgentDue := true }

/-- BROWNOUT is entered (R461): filler stops and the floor is ignored. -/
def State.enterBrownout (s : State) : State :=
  if 3 ≤ s.supply then s
  else
    let s := (s.setSupply 3).addF fdPowerSupplyBrownouts pgPower 0 1
    ({ s with power := { s.power with brownout := true } }).setF fdPowerBankEffectiveW pgPower 0 0

/-- The highest reading of a list. -/
def highest (l : List Nat) : Nat := l.foldl max 0

/-- A last-gasp record (R464). -/
def State.gaspRecord (s : State) (cause : Nat) : List Byte :=
  let volts := s.power.samples.take 64
  let newest := s.getF fdErraggRingNewest pgErragg
  let recs := (List.range 48).filterMap fun k => s.errRecord (newest + k - 47)
  let errs := recs.flatMap ErrRecord.bytes
  leBytes 4 0x4C475350 ++ leBytes 1 cause ++ [0, 0, 0] ++ leBytes 8 s.now ++
    List.replicate (128 - 2 * volts.length) 0 ++ volts.reverse.flatMap (leBytes 2) ++
    ((List.range 7).flatMap fun d => leBytes 1 (s.getF fdPowerDieTj pgPower d)) ++
    leBytes 1 (highest ((List.range 12).map fun i => s.getF fdHbmcTempNow (pgHbmc i))) ++
    (allCtxs.flatMap fun c => leBytes 8 (s.getF fdSchedCtxHeat pgSched c)) ++
    List.replicate 744 0 ++ fitTo 3072 errs

/-- An orderly stop is decided (R463): PWR_GOOD falls, JOB_FATAL leaves for every job, and every job's state and HBM are lost. A stop
that runs keeps its cause. -/
def State.orderlyStop (s : State) (cause : Nat) : State :=
  if s.power.stopping ≠ 0 then s
  else
    let record := s.gaspRecord cause
    let s := (s.setSupply 4).jobFatalAll 0x0103 0
    let s : State := { s with power := { s.power with good := false, stopping := cause, gasp := record } }
    s.bare

/-- VIN samples at the front of the history for which a condition holds. -/
def State.runOf (s : State) (p : Nat → Bool) : Nat := (s.power.samples.takeWhile p).length

/-- The state that a sample in range gives (R460). -/
def supplyOf (cv old : Nat) : Nat :=
  if 4000 ≤ cv && cv ≤ 6000 then 0 else if 3800 ≤ cv && cv < 4000 then 1 else if 6000 < cv && cv ≤ 6600 then 2 else old

/-- A VIN sample, every 10 µs: a run of n samples below a level has lasted more than (n − 2) × 10 µs. -/
def State.vinSample (s : State) (cv : Nat) : State :=
  let old := s.power.samples
  let dip := (old.takeWhile (· < 3800)).length
  let s : State := { s with power := { s.power with samples := (cv :: old).take 128 } }
  let l := s.power.samples.take 100
  let s := s.setF fdPowerVin pgPower 0 (l.foldl (· + ·) 0 / l.length)
  let s := if 3800 ≤ cv && 1 ≤ dip && dip ≤ 2 then s.addF fdPowerSupplyDips pgPower 0 1 else s
  if 32 ≤ s.runOf (· < 3400) then s.orderlyStop 1
  else if 102 ≤ s.runOf (6600 < ·) then s.orderlyStop 2
  else if 7 ≤ s.runOf (· < 3800) then s.enterBrownout
  else if 3 ≤ s.supply then s
  else s.setSupply (supplyOf cv s.supply)

/-- VIN_SAMPLE; beyond 100 V no outcome is promised (R575). -/
def execVinSample (centivolts : Nat) (s : State) : Out :=
  if 10000 < centivolts then .fault .ratingsExceeded else .next (s.vinSample centivolts)

/-- VBANK_LOW. -/
def execVbankLow (centivolts : Nat) (s : State) : Out :=
  let s : State := { s with power := { s.power with vbank := centivolts } }
  .next (if centivolts < 2800 then s.orderlyStop 1 else if centivolts < 3000 then s.enterBrownout else s)

/-- INPUT_OVERVOLTAGE: above 84 V the isolation switch opens. -/
def execInputOvervoltage (centivolts : Nat) (s : State) : Out :=
  if 10000 < centivolts then .fault .ratingsExceeded
  else .next (if 8400 < centivolts then { s with power := { s.power with isolated := true } } else s)

/-- BROWNOUT_EXIT. -/
def execBrownoutExit (s : State) : Out :=
  if s.supply = 3 then
    let s := s.setSupply (supplyOf (s.power.samples.headD 4800) 0)
    .next { s with power := { s.power with brownout := false } }
  else .next s

/-- LAST_GASP_WRITTEN: the record enters the ring of eight, and the island is off. -/
def execLastGaspWritten (s : State) : Out :=
  if s.power.stopping = 0 || s.power.off then .next s
  else
    let cause := s.power.stopping
    let t := leField s.power.gasp 8 8
    let s : State := { s with power := { s.power with lastGasp := (s.power.gasp :: s.power.lastGasp).take 8 } }
    let s := ((s.setF fdPowerLastgaspCause pgPower 0 cause).setF fdPowerLastgaspTime pgPower 0 t).cold
    .next { s with power := { s.power with off := true } }

/-! ### The ceiling and the floor (R465–R469) -/

/-- ΔP in W (R465). -/
def State.rampW (s : State) : Nat := 41 * s.getF fdPowerRampPct pgPower

/-- A die or stack is in THROTTLE or HARD. -/
def State.hot (s : State) : Bool :=
  ((List.range 7).any fun d => s.getF fdPowerDieState pgPower d ≠ 0) || (List.range 12).any fun i => 2 ≤ s.getF fdHbmcThermState (pgHbmc i)

/-- The ceiling C (R466). -/
def State.ceiling (s : State) : Nat :=
  let ps := s.power.powers
  let rise := if s.getF fdPowerRampPct pgPower = 100 || ps = [] then 100000 else ps.foldl min 100000 + s.rampW
  let brown := if s.power.brownout then 1640 else 100000
  let amps := 110 * s.getF fdPowerVin pgPower / 100
  [s.getF fdPowerCapW pgPower, rise, brown, if amps = 0 then 100000 else amps].foldl min 100000

/-- The effective floor F (R467), ignored in BROWNOUT (R461); falls that heat or an NF cause are exempt (R462). -/
def State.floorW (s : State) (c : Nat) : Nat :=
  if s.power.brownout then 0
  else
    let ps := s.power.powers
    let fall := if s.getF fdPowerRampPct pgPower = 100 || s.hot || s.err.out then 0 else highest ps - s.rampW
    let bank := highest ((s.power.targets.filter fun t => t.2.1 ≤ s.now && s.now ≤ t.2.2).map (·.1))
    min c (highest [s.getF fdPowerBankFloorW pgPower, fall, bank])

/-- The draw within 2 ms after a context's newest release (R469). -/
def State.noteDraw (s : State) (watts c : Nat) : State :=
  let since := mapGet 0 s.power.drawSince c
  match mapGet [] s.power.draws c with
  | d :: ds =>
    if since ≠ 0 && s.now + 1 ≤ since + 4000000 then
      { s with power := { s.power with draws := mapPut [] s.power.draws c (max d watts :: ds) } }
    else s
  | [] => s

/-- POWER_SAMPLE: P₁ of one more millisecond. The node is capped while its draw reaches C: the demand itself is not seen (log entry 19). -/
def State.powerSample (s : State) (watts : Nat) : State :=
  let c := s.ceiling
  let f := s.floorW c
  let s := (s.setF fdPowerPin pgPower 0 watts).addF fdPowerEnergy pgPower 0 watts
  let vin := s.getF fdPowerVin pgPower
  let s := if vin = 0 then s else s.setF fdPowerIin pgPower 0 (watts * 10000 / vin)
  let s := s.forEach allCtxs fun x s => s.noteDraw watts x
  let was := s.getF fdPowerRampCapped pgPower
  let capped := decide (c ≤ watts)
  let (v, s) := if capped || watts ≤ f then s.free else (0, s)
  let s := (s.setF fdPowerRampCapped pgPower 0 capped.toNat).setF fdPowerBankEffectiveW pgPower 0 f
  let s := if capped then s.addF fdPowerRampCapMs pgPower 0 1 else s
  let s := if !capped && watts ≤ f then s.addF fdPowerBankFillJ pgPower 0 v else s
  let s := if was ≠ capped.toNat then s.event pgPower 0 (some 5) 0x0151 capped.toNat c else s
  { s with power := { s.power with
      powers := (watts :: s.power.powers).take 10
      ceil := if capped then 8 + v % 73 else 80
      targets := s.power.targets.filter fun t => s.now ≤ t.2.2 } }

/-- POWER_SAMPLE. -/
def execPowerSample (watts : Nat) (s : State) : Out := .next (s.powerSample watts)

/-- P_rel of a context's next release: the highest P₁ after its last 8 releases, or the present draw and `BANK.FLASK_W` for each flask of
the nodes that start at the release (R469). -/
def State.releaseDraw (s : State) (c : Nat) : Nat :=
  let ds := mapGet [] s.power.draws c
  if 8 ≤ ds.length then highest ds
  else
    let starts := match s.graph c with
      | some g => ((List.range g.nodes.length).filter fun n => g.preds n = 0).flatMap fun n => s.nodeFlasks c n
      | none => []
    s.getF fdPowerPin pgPower + s.getF fdPowerBankFlaskW pgPower * starts.eraseDups.length

/-- PREBANK_RAISE: the target of the context's next release, with those of releases in the same 10 ms. -/
def execPrebankRaise (c : CtxId) (s : State) : Out :=
  let t := (s.ctx c.val).nextRelease
  if t = 0 then .next s
  else
    let near := allCtxs.filter fun o => (s.ctx o).nextRelease ≠ 0 && (s.ctx o).nextRelease < t + 20000000 && t < (s.ctx o).nextRelease + 20000000
    let p := highest (near.map s.releaseDraw) - s.rampW
    let s : State := { s with power := { s.power with targets := (p, s.now, t + 2000000) :: s.power.targets } }
    .next (s.trace 61 c.val 0 s.now)

/-! ### Deep idle (R471) -/

/-- DEEP written to `IDLE.CMD`; none where it is dropped. -/
def State.deepCmd (s : State) : Option State :=
  if s.anyOpen then none
  else if 2 ≤ s.getF fdPowerIdleState pgPower then some s
  else some (s.setF fdPowerIdleState pgPower 0 2)

/-- DEEP_ENTRY_DONE: meshes, HBM PHYs, application cores and the linkage array are off. -/
def execDeepEntryDone (s : State) : Out :=
  if s.getF fdPowerIdleState pgPower ≠ 2 then .next s
  else
    let awake := (List.range 256).filter fun f => s.pstate f ≠ psAsleep
    let s := s.forEach awake fun f s => (s.setPstate f psAsleep).unitsOff f
    let s : State := { s with
      hbm := { s.hbm with selfRefresh := 1 }
      lsa := { s.lsa with gated := true, waking := false } }
    .next (s.setF fdPowerIdleState pgPower 0 3)

/-- DEEP_EXIT_DONE: what came in DEEP is served. -/
def execDeepExitDone (s : State) : Out :=
  if !s.inDeep || !s.power.exiting then .next s
  else
    let held := s.power.heldMgmt
    let s : State := { s with power := { s.power with exiting := false, heldMgmt := [] } }
    let s := s.setF fdPowerIdleState pgPower 0 0
    .next (s.forEach held fun m s => s.recvMgmt m.1 m.2).finish

/-! ### Heat (R473) -/

/-- A die's state for a reading: it leaves HARD only at 103 °C or below. -/
def dieStateOf (was t : Nat) : Nat := if 105 ≤ t || (was = 2 && 103 < t) then 2 else if 95 ≤ t then 1 else 0

/-- A die's clock cap. -/
def dieCapOf (st t : Nat) : Nat := if st = 2 then 10 else if st = 1 then 80 - 5 * (t - 94) else 80

/-- DIE_TEMP_READING. -/
def execDieTempReading (d : DieId) (reading : Byte) (s : State) : Out :=
  let t := reading.toNat
  let was := s.getF fdPowerDieState pgPower d.val
  let st := dieStateOf was t
  let s := (s.setF fdPowerDieTj pgPower d.val t).setF fdPowerDieTjmax pgPower d.val (max t (s.getF fdPowerDieTjmax pgPower d.val))
  let s := (s.setF fdPowerDieState pgPower d.val st).setF fdPowerDieCap pgPower d.val (dieCapOf st t)
  let since := if st = 2 then if was = 2 then mapGet 0 s.power.hardSince d.val else s.now + 1 else 0
  .next { s with power := { s.power with hardSince := mapPut 0 s.power.hardSince d.val since } }

/-- THERMAL_HARD_TIMEOUT: NF with code 0x0050, and the node stops in order. -/
def execThermalHardTimeout (u : ThermalUnit) (s : State) : Out :=
  let (hard, page, service) := match u with
    | .die d => (s.getF fdPowerDieState pgPower d.val == 2, pgPower, d.val)
    | .stack i => (s.getF fdHbmcThermState (pgHbmc i.val) == 3, pgHbmc i.val, i.val * 32)
  if !hard then .next s
  else .next ((s.detect page 11 { code := 0x0050, service := BitVec.ofNat 16 service }).orderlyStop 3)

/-! ### The reference (R476) -/

/-- REF_COMPARE, while fabric time is LOCKED: `ppb` is signed. -/
def execRefCompare (ppb : BitVec 32) (s : State) : Out :=
  if s.ftState ≠ ftLocked || s.getF fdClkRefState pgClk = 2 then .next s
  else
    let off := decide (100000 < ppb.toInt.natAbs)
    .next ((s.setF fdClkRefPpb pgClk 0 ppb.toNat).setF fdClkRefState pgClk 0 off.toNat)

/-- REF_LOST. -/
def execRefLost (s : State) : Out := .next ((s.setF fdClkRefState pgClk 0 2).orderlyStop 4)

end Sys2Proof.Machine
end

