-- ==== Sys2Proof/Machine/Boot.lean ====
section
/-! DEFINITION. From 48 V to READY (R504–R508) and the resets of the whole node (R509, R510, R570). -/
namespace Sys2Proof.Machine

/-! ### Contacts -/

/-- POWER_UP: 48 V in range and PWR_EN asserted; the island comes up and the ROM starts. -/
def execPowerUp (straps : BitVec 2) (vinOk : Bool) (s : State) : Out :=
  if !vinOk || s.power.good then .next s
  else
    let s : State := { s with
      boot := { s.boot with straps := straps.toNat }
      power := { s.power with off := false, isolated := false, good := true } }
    .next s.takeStore.romStart

/-- COLD_RESET: PWR_EN low for 1 ms or more removes power without an orderly stop. -/
def execColdReset (lowUs : Nat) (s : State) : Out :=
  if lowUs < 1000 then .next s
  else
    let s := s.cold
    .next { s with power := { s.power with off := true, isolated := true } }

/-- RESET_REQ_N: low for 1 µs or more starts a node reset, and held low it keeps the node at stage ROM. -/
def execResetReqN (lowNs : Nat) (s : State) : Out :=
  if lowNs < 1000 then .next s else .next (State.nodeReset { s with boot := { s.boot with held := true } } 1)

/-- RESET_REQ_N_RELEASE: the sequence resumes from +2 ms. -/
def execResetReqNRelease (s : State) : Out :=
  if !s.boot.held then .next s
  else
    let s : State := { s with boot := { s.boot with held := false } }
    .next (if s.getF fdNodectlStatusStage pgNodectl = 0 then s.romStart else s)

/-! ### The boot ROM (R481, R482, R486, R501) -/

/-- A bank passes the boot ROM. -/
def State.bankGood (s : State) (b : Nat) : Bool :=
  let i := s.bankImage b
  Config.imageGood i && !bitAt (s.getF fdDikeRootRevoked pgDike) (Config.imageRoot i) && s.getF fdDikeFwSvnMin pgDike ≤ Config.imageSvn i

/-- RECOVERY (R482). -/
def State.recovery (s : State) : State := (s.setF fdDikeStateRecovery pgDike 0 1).setF fdNodectlStatusStage pgNodectl 0 6

/-- A bank runs: the oldest last-gasp slot is erased (R464), and the comb sources of every port in use are enabled (R504). -/
def State.runBank (s : State) (b : Nat) : State :=
  let s := (s.setF fdDikeStateBank pgDike 0 b).setF fdDikeFwSvn pgDike 0 (Config.imageSvn (s.bankImage b))
  let s : State := { s with
    boot := { s.boot with firmware := true }
    power := { s.power with lastGasp := s.power.lastGasp.take 7 } }
  let s := s.setF fdNodectlStatusStage pgNodectl 0 2
  s.forEach ((List.range 18).filter fun p => s.getF fdPortRole (pgPort p) ≠ 0xF && s.portState p = psOff) fun p s =>
    s.setPortState p psLaser 0

/-- BOOT_VERIFY_DONE: the preferred bank first, then the other. -/
def execBootVerifyDone (s : State) : Out :=
  if s.getF fdNodectlStatusStage pgNodectl ≠ 1 then .next s
  else if !Config.identityGood s.bootCount then .next ((s.setF fdDikeStateIdentity pgDike 0 0).recovery)
  else if !Config.storeGood s.bootCount then .next s.recovery
  else
    let p := s.store.preferred
    .next (if s.bankGood p then s.runBank p else if s.bankGood (1 - p) then s.runBank (1 - p) else s.recovery)

/-- POSITION_QUERY_TIMER. -/
def execPositionQueryTimer (s : State) : Out :=
  if s.getF fdNodectlPosI3cOk pgNodectl = 1 || s.getF fdNodectlStatusStage pgNodectl = 0 then .next s else .next (s.emit (.ibi 1))

/-! ### Training and self-test (R504, R506) -/

/-- The stage once training or self-test has ended: MEMORY until both have, then TIME. -/
def State.stageOn (s : State) : State :=
  if s.getF fdNodectlStatusStage pgNodectl = 7 then s
  else s.setF fdNodectlStatusStage pgNodectl 0 (if s.boot.trained && s.boot.selfTested then 4 else 3)

/-- A channel that failed training is mapped out; with 8 map-outs recorded the node enters spare state OUT. -/
def State.mapOut (s : State) (site ch : Nat) : State :=
  let page := pgHbmc site
  if s.absentPage page || !bitAt (s.getF fdHbmcChInService page) ch then s
  else if 8 ≤ s.getF fdMemmapMapouts pgMemmap then
    let s := s.detect page 5 { code := 0x0013, service := BitVec.ofNat 16 (site * 32 + ch) }
    State.setF { s.raiseSpare 3 with boot := { s.boot with trainingFailed := true } } fdNodectlStatusStage pgNodectl 0 7
  else
    let s := s.setF fdHbmcChInService page 0 (putBits (s.getF fdHbmcChInService page) ch ch 0)
    let s := s.addF fdMemmapMapouts pgMemmap 0 1
    let s := s.setF fdMemmapTop pgMemmap 0 (s.getF fdMemmapTop pgMemmap - channelSize)
    let s : State := { s with hbm := { s.hbm with mappedOut := s.hbm.mappedOut ++ [site * 32 + ch] } }
    if 6 ≤ s.getF fdMemmapMapouts pgMemmap then s.raiseSpare 1 else s

/-- HBM_TRAINING_DONE: then the controllers write zeros over every channel in service. -/
def execHbmTrainingDone (failed : List (SiteId × Fin 32)) (s : State) : Out :=
  if !s.boot.firmware || s.boot.trained then .next s
  else
    let s := s.forEach failed fun x s => s.mapOut x.1.val x.2.val
    if s.boot.trainingFailed then .next s
    else
      let s := s.zeroRange 0 (s.getF fdMemmapTop pgMemmap)
      .next (State.stageOn { s with boot := { s.boot with trained := true } })

/-- A failing tile is repaired onto its flask's spare; a second one fences the flask (R51, R53). -/
def State.bootTile (s : State) (t : Nat) : State :=
  let p := pgFlask (t / 16)
  if s.getF fdFlaskSpareFenced p = 1 then s
  else if s.getF fdFlaskSpareInUse p = 0 then
    ((s.setF fdFlaskSpareInUse p 0 1).addF fdErraggSpareFlasksUsed pgErragg 0 1).raiseSpare 1
  else ((s.setF fdFlaskSpareFenced p 0 1).addF fdErraggSpareFlasksFenced pgErragg 0 1).raiseSpare 2

/-- A failing application core is repaired onto a spare; past the fourth it is fenced (R189, R190). -/
def State.bootCore (s : State) (k : Nat) : State :=
  if s.getF fdPdSpareInUse pgPd < 4 then
    let s := s.addF fdPdSpareInUse pgPd 0 1
    if 4 ≤ s.getF fdPdSpareInUse pgPd then s.raiseSpare 1 else s
  else (s.setF fdPdCoresFenced pgPd 0 (s.getF fdPdCoresFenced pgPd ||| 2 ^ k)).raiseSpare 2

/-- A failing linkage engine is replaced by a spare; past the second the array has one engine less (R452). -/
def State.bootEngine (s : State) : State :=
  if s.getF fdLsaEngSparesUsed pgLsa < 2 then
    let s := s.addF fdLsaEngSparesUsed pgLsa 0 1
    if 2 ≤ s.getF fdLsaEngSparesUsed pgLsa then s.raiseSpare 1 else s
  else (s.setF fdLsaEngInService pgLsa 0 (s.getF fdLsaEngInService pgLsa - 1)).raiseSpare 2

/-- SELF_TEST_DONE. -/
def execSelfTestDone (tiles : List TileId) (cores : List CoreId) (engines : Nat) (s : State) : Out :=
  if !s.boot.firmware || s.boot.selfTested then .next s
  else
    let s := s.forEach tiles fun t s => s.bootTile t.val
    let s := s.forEach cores fun k s => s.bootCore k.val
    let s := s.forEach (List.range (min engines 34)) fun _ s => s.bootEngine
    .next (State.stageOn { s with boot := { s.boot with selfTested := true } })

/-! ### READY (R507) -/

/-- The conditions of R507. -/
def State.readyOk (s : State) : Bool :=
  s.boot.firmware && s.getF fdDikeStateRecovery pgDike = 0 && s.blockedBits = 0 && !s.boot.trainingFailed &&
    (!s.err.out || s.getF fdNodectlResetCause pgNodectl = 4)

/-- The spare state that the node's condition gives (R455). -/
def State.spareCondition (s : State) : Nat :=
  let down := (List.range 18).any fun p => let c := s.getF fdPortDownCause (pgPort p); s.portState p = psDown && (c = 1 || c = 2)
  let noLane := (List.range 18).any fun p => s.getF fdPortSparesTx (pgPort p) = 0 || s.getF fdPortSparesRx (pgPort p) = 0 ||
    1 ≤ s.getF fdPortCombSpare (pgPort p)
  if 1 ≤ s.getF fdErraggSpareFlasksFenced pgErragg || s.getF fdPdCoresFenced pgPd ≠ 0 || s.getF fdLsaEngInService pgLsa < 32 || down then 2
  else if 1 ≤ s.getF fdErraggSpareFlasksUsed pgErragg || 4 ≤ s.getF fdPdSpareInUse pgPd || 2 ≤ s.getF fdLsaEngSparesUsed pgLsa || noLane ||
      6 ≤ s.getF fdMemmapMapouts pgMemmap then 1
  else 0

/-- A trial boot has passed (R483). -/
def State.endTrial (s : State) : State :=
  if s.getF fdDikeStateTrial pgDike = 1 then
    ((State.setF { s with store := { s.store with trial := false } } fdDikeStateTrial pgDike 0 0).addF fdDikeCfgGen pgDike 0 1)
  else s

/-- NODE_READY. After the reset of R457 the node returns to service in at least WATCH. -/
def execNodeReady (s : State) : Out :=
  if !s.readyOk || s.getF fdNodectlStatusReady pgNodectl = 1 then .next s
  else
    let s := ((s.setF fdNodectlStatusReady pgNodectl 0 1).setF fdNodectlStatusStage pgNodectl 0 5).setF fdNodectlReadyTime pgNodectl 0 s.now
    let s := s.endTrial
    let s := if s.err.out then
        { (s.setF fdErraggSpareState pgErragg 0 (max 1 s.spareCondition)) with err := { s.err with out := false }, urgentDue := true }
      else s
    .next { s with dike := { s.dike with readyAt := if s.dike.readyAt = 0 then s.now + 1 else s.dike.readyAt } }

/-- The former bank is preferred again, and the node resets (R483). -/
def State.trialFallback (s : State) : State :=
  let s : State := { s with store := { s.store with preferred := 1 - s.store.preferred, trial := false } }
  (s.addF fdDikeCfgGen pgDike 0 1).nodeReset 5

/-- TRIAL_BOOT_TIMEOUT. -/
def execTrialBootTimeout (s : State) : Out :=
  if s.getF fdDikeStateTrial pgDike = 1 && s.getF fdNodectlStatusReady pgNodectl = 0 then .next s.trialFallback else .next s

/-- NODE_RESET: no status follows. -/
def execNodeReset (q : QueueId) (cap : Capsule) (s : State) : Out :=
  s.capsule q cap { code := 0x0080, mgmt := true } (bodyOk cap 0 []) fun s => (s.nodeReset 2, { later := true })

end Sys2Proof.Machine
end

