-- ==== Sys2Proof/Machine/Pd.lean ====
section
/-! DEFINITION. The processor die (R181, R189): vector gating and core repair. -/
namespace Sys2Proof.Machine

/-- A PD core's vector unit gates after its idle cycles (R181). -/
def State.vecGate (s : State) (k : Nat) : State :=
  let c := 4096 + k
  if bitAt (s.getF fdPdVstate pgPd) k && !bitAt (s.getF fdPdVgateHold pgPd) k && s.getF fdPdVgateIdleCycles pgPd ≠ 0 &&
      !(s.core c).vectorWaits then
    (s.setVec k false).event (coreUnit c).1 (coreUnit c).2 (some 3) 0x0007 (k % 16) 0
  else s

/-- A gated vector unit finishes its 150 ns wake. -/
def State.vecWoken (s : State) (k : Nat) : State :=
  let c := 4096 + k
  if (s.core c).vwaking then
    let s := (s.setCore c { s.core c with vwaking := false }).setVec k true
    (s.count pgPd 3 1).event (coreUnit c).1 (coreUnit c).2 (some 3) 0x0008 (k % 16) 300
  else s

/-- Hold bits just written: those units are powered (R181). -/
def State.vecHoldWrite (s : State) : State :=
  s.setF fdPdVstate pgPd 0 (s.getF fdPdVstate pgPd ||| s.getF fdPdVgateHold pgPd)

/-- VECTOR_GATE. -/
def execVectorGate (k : CoreId) (s : State) : Out := .next (s.vecGate k.val)

/-- VECTOR_WAKE_DONE. -/
def execVectorWakeDone (k : CoreId) (s : State) : Out := .next (s.vecWoken k.val).finish

/-- A core repair starts (R189): the hart stops at an instruction boundary; one repair runs at a time (R454). -/
def State.coreRepairStart (s : State) (k : Nat) : State :=
  let c := 4096 + k
  if s.anyMoving || (s.cores.any fun x => 4096 ≤ x.1 && x.2.paused) || 4 ≤ s.getF fdPdSpareInUse pgPd ||
      bitAt (s.getF fdPdCoresFenced pgPd) k then s
  else
    let s := s.setCore c { s.core c with paused := true }
    State.trace { s with err := { s.err with repairing := true } } 109 0xFF k 0

/-- A core repair ends: the map is switched, the hart resumes, and held interrupts are delivered. -/
def State.coreRepairEnd (s : State) (k : Nat) : State :=
  let c := 4096 + k
  if (s.core c).paused then
    let s := s.setCore c { s.core c with paused := false }
    let s := (s.addF fdPdSpareInUse pgPd 0 1).count pgPd 7 1
    let s := if 4 ≤ s.getF fdPdSpareInUse pgPd then s.raiseSpare 1 else s
    State.trace { s with err := { s.err with repairing := false } } 110 0xFF k 0
  else s

/-- CORE_REPAIR_START. -/
def execCoreRepairStart (k : CoreId) (s : State) : Out := .next (s.coreRepairStart k.val)

/-- CORE_REPAIR_END. -/
def execCoreRepairEnd (k : CoreId) (s : State) : Out := .next (s.coreRepairEnd k.val).finish

end Sys2Proof.Machine
end

