-- ==== Sys2Proof/Machine/Errors.lean ====
section
/-! DEFINITION. Errors (R433–R457): what detection does in hardware, handlers and their outcomes, injection, and the repairs that counts and
failures start. -/
namespace Sys2Proof.Machine

/-! ### Repairs that wait (R450, R454) -/

/-- A repair joins the queue, or goes to its front where a failure caused it; one of the same unit is not queued twice. -/
def State.queueRepair (s : State) (page unit : Nat) (failed : Bool) : State :=
  let rs := s.err.repairs.filter fun r => r ≠ (page, unit)
  let rs := if failed then (page, unit) :: rs else if s.err.repairs.contains (page, unit) then s.err.repairs else rs ++ [(page, unit)]
  { s with err := { s.err with repairs := rs } }

/-- The page on which a unit's corrected errors are counted, the PREFAIL and the repair threshold (R450): tiles, PD cores, linkage
engines. -/
def State.thresholds (s : State) (page : Nat) : Option (Nat × Nat × Nat) :=
  match blockCode page with
  | 0x01 => some (page, s.getF fdErraggThrTilePrefail pgErragg, s.getF fdErraggThrTileRepair pgErragg)
  | 0x09 => some (pgPd, s.getF fdErraggThrCorePrefail pgErragg, s.getF fdErraggThrCoreRepair pgErragg)
  | 0x0D => some (page, s.getF fdErraggThrLsaPrefail pgErragg, s.getF fdErraggThrLsaRepair pgErragg)
  | _ => none

/-- One more corrected error of a physical unit in the hour: PREFAIL and the repair at their thresholds. -/
def State.countCe (s : State) (page unit : Nat) : State :=
  match s.thresholds page with
  | none => s
  | some (p, warn, repair) =>
    let key := p * 128 + unit
    let n := mapGet 0 s.err.ceHour key + 1
    let s : State := { s with err := { s.err with ceHour := mapPut 0 s.err.ceHour key n } }
    let s := if warn ≠ 0 && warn ≤ n then s.prefail p unit 0x0001 else s
    if repair = 0 || n < repair then s
    else if blockCode page = 0x0D then (if n = repair then s.lsaRemap unit else s)
    else s.queueRepair p unit false

/-- A tile that has lost its state: the flask remaps it, or is fenced where its spare is used (R53). -/
def State.tileLost (s : State) (page unit : Nat) : State :=
  if s.getF fdFlaskSpareInUse page = 0 then s.queueRepair page unit true
  else if s.getF fdFlaskSpareFenced page = 1 then s
  else ((s.setF fdFlaskSpareFenced page 0 1).addF fdErraggSpareFlasksFenced pgErragg 0 1).raiseSpare 2

/-- A PD core that has lost its state: a spare takes its place, or it is fenced once its context ends (R189, R190). -/
def State.coreLost (s : State) (k : Nat) : State :=
  if s.getF fdPdSpareInUse pgPd < 4 then s.queueRepair pgPd k true
  else
    let s : State := { s with err := { s.err with fenceDue := s.err.fenceDue ||| 2 ^ k } }
    if (s.coreOwner k).isSome then s else s.fenceCores (2 ^ k)

/-- A linkage engine that has failed: a spare takes its place, or the array goes on with one engine less (R452). -/
def State.engineLost (s : State) (e : Nat) : State :=
  if s.getF fdLsaEngSparesUsed pgLsa < 2 then s.lsaRemap e
  else (s.setF fdLsaEngInService pgLsa 0 (s.getF fdLsaEngInService pgLsa - 1)).raiseSpare 2

/-- What an error does to the hardware at detection (R445), beside its record. -/
def State.errorEffect (s : State) (page : Nat) (info : ErrorInfo) : State :=
  let unit := info.service.toNat
  match info.code.toNat with
  | 0x0001 => s.countCe page unit
  | 0x0002 =>
    if blockCode page = 0x01 then { s with poisonWord := mapPut false s.poisonWord (info.addr.toNat / 8) true } else s
  | 0x0040 => if blockCode page = 0x01 then s.tileLost page (unit % 16) else s
  | 0x0041 => if blockCode page = 0x08 then s.coreLost (unit % 64) else s
  | 0x0042 => s.engineLost (unit % 32)
  | _ => s

/-- An error detected (R433–R446): errors of a channel count there, PREFAIL is raised for its unit, and every other error takes its effect and
is recorded. -/
def State.errorDetect (s : State) (page src : Nat) (info : ErrorInfo) : State :=
  if !(blockSources page).contains src then s
  else if src = 3 then s.channelCe (blockInstance page) (s.channelOf info.addr.toNat) info.addr.toNat info
  else if src = 4 then s.channelDe (blockInstance page) (s.channelOf info.addr.toNat) info.addr.toNat info
  else if src = 13 then s.prefail page (info.service.toNat % (if blockCode page = 0x04 then 32 else 128)) (info.detail.toNat % 65536)
  else (s.detect page src info).errorEffect page info

/-- ERROR_DETECT. -/
def execErrorDetect (page : BitVec 20) (source : Fin 16) (info : ErrorInfo) (s : State) : Out :=
  .next (s.errorDetect page.toNat source.val info).finish

/-- FIRMWARE_WATCHDOG (R444): the SCHED block reports it. -/
def execFirmwareWatchdog (s : State) : Out := .next (s.detect pgSched 12 { code := 0x0061 }).finish

/-! ### Handlers (R445–R448) -/

/-- The queued error whose handler comes first: the highest class, the oldest within it. -/
def State.nextQueued (s : State) : Option ErrRecord :=
  s.err.queued.foldl (fun best r => match best with
    | none => some r
    | some b => if b.cls < r.cls then some r else some b) none

/-- The handler of ERRAGG shows the running one (R560). -/
def State.showHandler (s : State) : State :=
  let r := s.err.running
  ((s.setF fdErraggHandlerActive pgErragg 0 r.isSome.toNat).setF fdErraggHandlerPage pgErragg 0 (r.elim 0 (·.page))).setF
    fdErraggHandlerClass pgErragg 0 (r.elim 0 (·.cls))

/-- OUTCOME of a record (R443). -/
def State.setOutcome (s : State) (r : ErrRecord) (v : Nat) : State := s.amendRecord r.seq fun x => { x with outcome := v }

/-- A handler starts: at the head of the queue, or preempting one of a lower class; a preempting NF abandons the stopped handler and every
queued one (R447). -/
def State.handlerStart (s : State) : State :=
  match s.nextQueued with
  | none => s
  | some r =>
    let go := fun (s : State) => State.showHandler { s with err := { s.err with running := some r, queued := s.err.queued.filter (·.seq ≠ r.seq) } }
    match s.err.running with
    | none => go s
    | some o =>
      if r.cls ≤ o.cls then s
      else
        let s := s.amendRecord o.seq fun x => { x with preempted := true }
        if r.cls = 3 then
          let gone := o :: s.err.stopped ++ s.err.queued.filter (·.seq ≠ r.seq)
          let s := s.forEach gone fun g s => s.setOutcome g 8
          go { s with err := { s.err with stopped := [], queued := [r] } }
        else go { s with err := { s.err with stopped := o :: s.err.stopped } }

/-- HANDLER_START. -/
def execHandlerStart (s : State) : Out := .next s.handlerStart

/-- OUTCOME of a handled error (R433, R441, R443, R456). For a corrected error outside a unit's repair the spec tells CORRECTED from
COUNTED in its example only, for SRAM; the others are free between the two. -/
def State.outcomeOf (s : State) (r : ErrRecord) : Nat × State :=
  if r.injected && 2 ≤ r.cls then (9, s)
  else match r.cls with
    | 3 => (7, s)
    | 2 => (3, s)
    | 1 => (2, s)
    | _ =>
      if r.code = 0x0001 then (if s.err.repairs.contains (r.page, r.service) then (4, s) else (0x0A, s))
      else if r.code = 0x0012 || r.code = 0x0021 || r.code = 0x0022 || r.code = 0x0042 then (4, s)
      else if r.code = 0x0013 then (5, s)
      else
        let (v, s) := s.free
        (if v % 2 = 0 then 1 else 0x0A, s)

/-- A unit whose NF is a hardware failure has no spare left (R457). -/
def State.beyondSpare (s : State) (r : ErrRecord) : Bool :=
  match blockCode r.page with
  | 0x01 => s.getF fdFlaskSpareInUse r.page = 1
  | 0x09 => 4 ≤ s.getF fdPdSpareInUse pgPd
  | 0x0D => 2 ≤ s.getF fdLsaEngSparesUsed pgLsa
  | _ => false

/-- After an NF's handler: one node reset, unless the cause is a failure with no spare or another NF lay within 24 h (R457); a trial boot
falls back (R483). -/
def State.afterNf (s : State) (r : ErrRecord) : State :=
  if s.getF fdDikeStateTrial pgDike = 1 && s.getF fdNodectlStatusReady pgNodectl = 0 then s.trialFallback
  else if (r.code = 0x0003 && s.beyondSpare r) || r.code = 0x0050 || s.err.nfRepeated then s
  else s.nodeReset 4

/-- A handler ends: OUTCOME is rewritten and the handler stopped last resumes. An error within the handler escalates to NF (R448). -/
def State.handlerEnd (s : State) (inHandler : Bool) : State :=
  match s.err.running with
  | none => s
  | some r =>
    if inHandler then s.detect pgReeve 12 { code := 0x0060 } (escalate := true)
    else
      let (v, s) := s.outcomeOf r
      let s := s.setOutcome r v
      let s : State := { s with err := { s.err with running := s.err.stopped.head?, stopped := s.err.stopped.tail } }
      let s := s.showHandler
      if r.cls = 3 && !r.injected then s.afterNf r else s

/-- HANDLER_END. -/
def execHandlerEnd (inHandler : Bool) (s : State) : Out := .next (s.handlerEnd inHandler).finish

/-! ### Injection (R441) -/

/-- The record code of an injected error of a source (R556): the first that the source lists. -/
def injectCode (src : Nat) : Nat :=
  [0x0001, 0x0002, 0x0003, 0x0010, 0x0011, 0x0012, 0x0020, 0x0030, 0x0031, 0x0040, 0x0042, 0x0050, 0x0060, 0x0070].getD src 0

/-- `ERR_INJECT.GO`: one error of the chosen source along the whole path of its class; GO reads 0 again once the record is written. -/
def State.injectError (s : State) (page : Nat) : State :=
  let src := s.getF fdErrErrInjectSource page
  (s.detect page src { code := BitVec.ofNat 16 (injectCode src) } (injected := true)).setF fdErrErrInjectGo page 0 0

/-! ### Repairs that start (R453, R454) -/

/-- No gap is needed, or the unit's context has the room before its next release (R454). -/
def State.repairGap (s : State) (page unit : Nat) : Bool :=
  let owner := if blockCode page = 0x01 then s.flaskOwner page else s.coreOwner unit
  let need := if blockCode page = 0x01 then 800000 else 200000
  match owner with
  | none => true
  | some c =>
    let x := s.ctx c
    s.ctxState c ≠ csRunning || (!x.run.active && match s.graph c with
      | some g => x.nextRelease ≠ 0 && s.now + need + g.leadTicks ≤ x.nextRelease
      | none => true)

/-- REPAIR_START: the repair at the front of the queue starts in a gap, or at once when it has waited 1 s. -/
def State.repairStart (s : State) (forced : Bool) : State :=
  match s.err.repairs with
  | [] => s
  | (page, unit) :: rest =>
    if s.err.repairing || !(forced || s.repairGap page unit) then s
    else
      let s : State := { s with err := { s.err with repairs := rest } }
      if blockCode page = 0x01 then (if unit < 16 then s.remapStart page unit else s) else s.coreRepairStart (unit % 64)

/-- REPAIR_START. -/
def execRepairStart (forced : Bool) (s : State) : Out := .next (s.repairStart forced)

/-- ROW_REPAIR: a row or lane is repaired while the stack has a resource left; else its channel's evacuation is requested. -/
def execRowRepair (site : SiteId) (ch : Fin 32) (_lane : Bool) (left : Bool) (s : State) : Out :=
  if s.absentPage (pgHbmc site.val) then .next s
  else if left then
    .next (s.detect (pgHbmc site.val) 5 { code := 0x0012, service := BitVec.ofNat 16 (site.val * 32 + ch.val) })
  else .next (s.requestEvac site.val ch.val)

end Sys2Proof.Machine
end

