-- ==== Sys2Proof/Machine/Fabric.lean ====
section
/-! DEFINITION. The Ecrok commands (R304–R335) and those of the collectives (R341–R352): packets received,
forwarded, resent and timed out. -/
namespace Sys2Proof.Machine

/-- READ. -/
def execRead (d : FabricDie) (pk : Packet) (s : State) : Out := .next (s.recvRead d pk).finish

/-- WRITE. -/
def execWrite (d : FabricDie) (pk : Packet) (s : State) : Out := .next (s.recvWrite d pk).finish

/-- ATOMIC. -/
def execAtomic (d : FabricDie) (pk : Packet) (s : State) : Out := .next (s.recvAtomic d pk false).finish

/-- ATOMIC_F. -/
def execAtomicF (d : FabricDie) (pk : Packet) (s : State) : Out := .next (s.recvAtomic d pk true).finish

/-- MSG. -/
def execMsg (d : FabricDie) (pk : Packet) (s : State) : Out := .next (s.recvMsg d pk).finish

/-- RUPDATE. -/
def execRupdate (d : FabricDie) (pk : Packet) (s : State) : Out := .next (s.recvRupdate d pk).finish

/-- LOWMARK. -/
def execLowmark (_d : FabricDie) (pk : Packet) (s : State) : Out := .next (s.recvLowmark pk).finish

/-- RESP_DATA. -/
def execRespData (d : FabricDie) (pk : Packet) (s : State) : Out := .next (s.recvResponse d.val pk).finish

/-- RESP_ACK. -/
def execRespAck (d : FabricDie) (pk : Packet) (s : State) : Out := .next (s.recvResponse d.val pk).finish

/-- PACKET_FORWARD. -/
def execPacketForward (_p : PortId) (pk : Packet) (s : State) : Out := .next (s.forward pk).finish

/-- LOWMARK_SEND (R319): sent when LOW has changed since the flow last carried it. -/
def State.sendLowmark (s : State) (dst vc : Nat) : State :=
  let k := flowKey dst vc
  let low := s.flowLow dst vc
  if mapGet 0 s.ecrok.outLow k = low then s
  else
    let tag := mapGet 0 s.ecrok.outJob k
    let pk : Packet :=
      { kind := BitVec.ofNat 5 kLOWMARK, vc := BitVec.ofNat 3 vc, ovc := BitVec.ofNat 3 vc, dst := BitVec.ofNat 17 dst,
        src := BitVec.ofNat 17 s.nodeId, job := BitVec.ofNat 20 tag, gen := BitVec.ofNat 12 (tag / 2 ^ 20),
        seq := BitVec.ofNat 32 (mapGet 0 s.ecrok.outNext k), low := BitVec.ofNat 32 low,
        route := BitVec.ofNat 96 ((s.routeTo dst).getD (2 ^ 96 - 1)) }
    ({ s with ecrok := { s.ecrok with outLow := mapPut 0 s.ecrok.outLow k low } }).send pk

/-- LOWMARK_SEND. -/
def execLowmarkSend (_d : FabricDie) (dst : NodeField) (vc : BitVec 3) (s : State) : Out :=
  .next (s.sendLowmark dst.toNat vc.toNat).finish

/-- BUSY_RESEND. -/
def execBusyResend (d : FabricDie) (slot : BitVec 16) (s : State) : Out :=
  .next (s.resendBusy (d.val * 65536 + slot.toNat)).finish

/-- COMPLETION_TIMEOUT. -/
def execCompletionTimeout (d : FabricDie) (slot : BitVec 16) (s : State) : Out :=
  .next (s.timeoutTag (d.val * 65536 + slot.toNat)).finish

/-! ### Coherence within the tray (R329–R332) -/

/-- GET_S. -/
def execGetS (pk : Packet) (s : State) : Out := .next (s.recvCoh 0 pk).finish

/-- GET_M. -/
def execGetM (pk : Packet) (s : State) : Out := .next (s.recvCoh 1 pk).finish

/-- UPGRADE. -/
def execUpgrade (pk : Packet) (s : State) : Out := .next (s.recvCoh 2 pk).finish

/-- PUT_M. -/
def execPutM (pk : Packet) (s : State) : Out := .next (s.recvCoh 3 pk).finish

/-- PUT_C. -/
def execPutC (pk : Packet) (s : State) : Out := .next (s.recvCoh 4 pk).finish

/-- INV. -/
def execInv (pk : Packet) (s : State) : Out := .next (s.recvCoh 5 pk).finish

/-- RECALL. -/
def execRecall (pk : Packet) (s : State) : Out := .next (s.recvCoh 6 pk).finish

/-- DOWNGRADE. -/
def execDowngrade (pk : Packet) (s : State) : Out := .next (s.recvCoh 7 pk).finish

/-- DATA_S. -/
def execDataS (pk : Packet) (s : State) : Out := .next (s.recvCoh 8 pk).finish

/-- DATA_E. -/
def execDataE (pk : Packet) (s : State) : Out := .next (s.recvCoh 9 pk).finish

/-- ACK_E. -/
def execAckE (pk : Packet) (s : State) : Out := .next (s.recvCoh 10 pk).finish

/-- ACK. -/
def execAck (pk : Packet) (s : State) : Out := .next (s.recvCoh 11 pk).finish

/-- INV_ACK. -/
def execInvAck (pk : Packet) (s : State) : Out := .next (s.recvCoh 12 pk).finish

/-- RECALL_DATA. -/
def execRecallData (pk : Packet) (s : State) : Out := .next (s.recvCoh 13 pk).finish

/-- RETRY. -/
def execRetry (pk : Packet) (s : State) : Out := .next (s.recvCoh 14 pk).finish

/-- COH_RETRY_RESEND. -/
def execCohRetryResend (slot : BitVec 16) (s : State) : Out := .next (s.cohResend slot.toNat).finish

/-- COH_TIMEOUT. -/
def execCohTimeout (slot : BitVec 16) (s : State) : Out := .next (s.cohTimeout slot.toNat).finish

/-! ### Collectives (R341–R352) -/

/-- COLLECTIVE_START. -/
def execCollectiveStart (c : CtxId) (n : NodeIx) (s : State) : Out := .next (s.collStart c.val n.val).finish

/-- COLL_UP. -/
def execCollUp (_d : FabricDie) (pk : Packet) (s : State) : Out := .next (s.recvColl pk).finish

/-- COLL_DOWN. -/
def execCollDown (_d : FabricDie) (pk : Packet) (s : State) : Out := .next (s.recvColl pk).finish

/-- QUICK_UP. -/
def execQuickUp (_d : FabricDie) (pk : Packet) (s : State) : Out := .next (s.recvColl pk).finish

/-- QUICK_DOWN. -/
def execQuickDown (_d : FabricDie) (pk : Packet) (s : State) : Out := .next (s.recvColl pk).finish

/-- COLL_TIMEOUT. -/
def execCollTimeout (c : CtxId) (n : NodeIx) (s : State) : Out := .next (s.collTimeout c.val n.val).finish

end Sys2Proof.Machine
end

