-- ==== Sys2Proof/Machine/Flit.lean ====
section
/-! DEFINITION. Flits (R291–R293), link-level retry (R298) and the port arbiter (R311, R312). -/
namespace Sys2Proof.Machine

/-! ### CRC and FEC (R291, R293) -/

/-- One bit of the reflected CRC-32C. -/
def crcBit (c : Nat) : Nat := if c % 2 = 1 then (c / 2) ^^^ 0x82F63B78 else c / 2

/-- One byte of the CRC. -/
def crcByte (c : Nat) (b : Byte) : Nat := (List.range 8).foldl (fun c _ => crcBit c) (c ^^^ b.toNat)

/-- CRC-32C (R291: polynomial 0x1EDC6F41; reflected, with the initial value and final inversion of the standard of that name: PRESUMED,
log entry 20). -/
def crc32c (bs : List Byte) : Nat := bs.foldl crcByte 0xFFFFFFFF ^^^ 0xFFFFFFFF

/-- αⁿ, α = 2. -/
def gfAlpha (n : Nat) : Nat := gfShift 1 (n % 255)

/-- The sum of a list. -/
def gfSum (l : List Nat) : Nat := l.foldl (· ^^^ ·) 0

/-- The determinant of a square matrix of `n` rows, by its first row. -/
def gfDet : Nat → List (List Nat) → Nat
  | 0, _ => 1
  | n + 1, m =>
    gfSum ((List.range (n + 1)).map fun j => gfMul ((m.getD 0 []).getD j 0) (gfDet n ((m.drop 1).map fun r => r.eraseIdx j)))

/-- The solution of a linear system by Cramer's rule; none where the matrix is singular. -/
def gfSolve (n : Nat) (m : List (List Nat)) (b : List Nat) : Option (List Nat) :=
  let d := gfDet n m
  if d = 0 then none
  else some ((List.range n).map fun j => gfMul (gfInv d)
    (gfDet n ((List.range n).map fun i => (m.getD i []).set j (b.getD i 0))))

/-- A polynomial's value, its first coefficient of the highest degree. -/
def gfEval (p : List Nat) (x : Nat) : Nat := p.foldl (fun a c => gfMul a x ^^^ c) 0

/-- The generator of the code: roots α^(r), …, α^(r+5). -/
def rsRoots : List Nat := (List.range 6).map fun i => gfAlpha (Config.fecFirstRoot + i)

/-- The generator polynomial, its first coefficient of the highest degree. -/
def rsGenerator : List Nat :=
  rsRoots.foldl (fun g r => (List.zip (g ++ [0]) (0 :: g)).map fun x => x.1 ^^^ gfMul r x.2) [1]

/-- The six parity symbols of 122 (R293): the remainder of data × x⁶ by the generator. -/
def rsParity (data : List Nat) : List Nat :=
  data.foldl (fun rem d =>
    let f := (rem.getD 0 0) ^^^ d
    (List.zip (rem.drop 1 ++ [0]) (rsGenerator.drop 1)).map fun x => x.1 ^^^ gfMul f x.2) (List.replicate 6 0)

/-- The six syndromes of a received word. -/
def rsSyndromes (w : List Nat) : List Nat := rsRoots.map (gfEval w)

/-- The error symbols of a word with `n` errors, as (place, value); none where there is no such pattern. -/
def rsErrors (s : List Nat) (n : Nat) : Option (List (Nat × Nat)) :=
  let at' := fun i => s.getD i 0
  match gfSolve n ((List.range n).map fun i => (List.range n).map fun j => at' (i + j)) ((List.range n).map fun i => at' (i + n)) with
  | none => none
  | some l =>
    -- `l` holds σₙ, …, σ₁ of σ(x) = 1 + σ₁ x + … + σₙ xⁿ, whose roots are the inverses of the locators
    let places := (List.range 128).filter fun p => gfEval (l ++ [1]) (gfInv (gfAlpha (127 - p))) = 0
    if places.length ≠ n then none
    else
      let rows := (List.range n).map fun i => places.map fun p => gfAlpha ((Config.fecFirstRoot + i) * (127 - p))
      (gfSolve n rows ((List.range n).map at')).map fun vs => List.zip places vs

/-- A codeword of 128 symbols with up to three errors corrected, and the places corrected; none where that fails (R293). -/
def rsDecode (w : List Nat) : Option (List Nat × List Nat) :=
  let s := rsSyndromes w
  if s.all (· = 0) then some (w, [])
  else
    let fix := fun n => (rsErrors s n).bind fun es =>
      let w' := es.foldl (fun w e => w.set e.1 ((w.getD e.1 0) ^^^ e.2)) w
      if (rsSyndromes w').all (· = 0) then some (w', es.map (·.1)) else none
    match fix 3 with
    | some r => some r
    | none => match fix 2 with
      | some r => some r
      | none => fix 1

/-- The bytes of a codeword in a flit: even (0) or odd (1) bytes (R291). -/
def codeword (k : Nat) (f : List Byte) : List Nat := (List.range 128).map fun i => (f.getD (2 * i + k) 0).toNat

/-- A flit's bytes with its FEC corrected, and the bytes corrected; none where the FEC fails. -/
def fecCorrect (f : List Byte) : Option (List Byte × List Nat) :=
  match rsDecode (codeword 0 f), rsDecode (codeword 1 f) with
  | some (a, ea), some (b, eb) =>
    some ((List.range 256).map fun i => BitVec.ofNat 8 ((if i % 2 = 0 then a else b).getD (i / 2) 0),
      ea.map (2 * ·) ++ eb.map (2 * · + 1))
  | _, _ => none

/-- A flit from its header and payload (R291–R293). -/
def flitBytes (header : Nat) (payload : List Byte) : List Byte :=
  let body := leBytes 7 header ++ (payload ++ List.replicate (233 - payload.length) 0)
  let all := body ++ leBytes 4 (crc32c body)
  let par := fun k => rsParity ((List.range 122).map fun i => (all.getD (2 * i + k) 0).toNat)
  all ++ (List.range 12).map fun i => BitVec.ofNat 8 ((par (i % 2)).getD (i / 2) 0)

/-- The header of R292. -/
def flitHeader (ty seq ack nak vc cvc cred start : Nat) : Nat :=
  ty + seq % 1024 * 2 ^ 4 + ack % 1024 * 2 ^ 14 + nak * 2 ^ 24 + vc % 8 * 2 ^ 25 + cvc % 8 * 2 ^ 28 + cred % 256 * 2 ^ 31 +
    start % 256 * 2 ^ 39

/-! ### Receiving -/

/-- A MGMT packet of kind 0x1E (R515); in DEEP it waits for the exit (R471). -/
def State.mgmtPacket (s : State) (src : Nat) (p : List Byte) : State :=
  let s := if leField p 0 1 = 2 then s.leaveDeep else s
  if s.inDeep then { s with power := { s.power with heldMgmt := s.power.heldMgmt ++ [(src, p)] } } else s.recvMgmt src p

/-- The die that holds the tag slot that a response answers. -/
def State.answerDie (s : State) (p : Nat) (pk : Packet) : Nat :=
  ((s.liveTags.find? fun t => t.1 % 65536 = pk.tagSlot.toNat && t.2.pk.dst = pk.src).map (·.1 / 65536)).getD (p % 2)

/-- A packet that a port received (R305, R307, R308, R318): served here where it names this node, else forwarded. What a TIME packet
says is the command TIME_PACKET's. -/
def State.recvPacket (s : State) (p : Nat) (pk : Packet) : State :=
  let k := pk.kind.toNat
  let d : FabricDie := if p % 2 = 0 then 0 else 1
  if !s.nodeIdValid || k = 0x1D then s
  else if !((1 ≤ k && k ≤ 7) || k = kRESPDATA || k = kRESPACK || (0x18 ≤ k && k ≤ 0x1E)) then s.dropMalformed
  else if pk.dst.toNat ≠ s.nodeId then s.forward pk
  else if k = kREAD then s.recvRead d pk
  else if k = kWRITE then s.recvWrite d pk
  else if k = kATOMIC then s.recvAtomic d pk false
  else if k = kATOMICF then s.recvAtomic d pk true
  else if k = kMSG then s.recvMsg d pk
  else if k = kRUPDATE then s.recvRupdate d pk
  else if k = kLOWMARK then s.recvLowmark pk
  else if k = kRESPDATA || k = kRESPACK then s.recvResponse (s.answerDie p pk) pk
  else if k = kCOH then s.recvCoh pk.op.toNat pk
  else if k = kMGMT then if pk.malformed then s.dropMalformed else s.mgmtPacket pk.src.toNat pk.payload
  else s.recvColl pk

/-- The packets that whole bytes spell, and the bytes left: a READ carries no payload (R308), and 0 in place of a KIND means that the
rest of the payload is padding (DESIGN CHOICE, log entry 21). A LEN beyond 256 leaves no way to find the next packet, and the bytes up
to the flit's end go. -/
def splitPackets (bs : List Byte) : Nat → List Packet × List Byte
  | 0 => ([], [])
  | fuel + 1 =>
    if bs = [] || leField bs 0 1 % 32 = 0 then ([], [])
    else if bs.length < 48 then ([], bs)
    else
      let len := leField bs 44 2 % 512
      let n := if leField bs 0 1 % 32 = kREAD then 0 else len
      if 256 < len then ([headerPacket (bs.take 48) []], [])
      else if bs.length < 48 + n then ([], bs)
      else
        let r := splitPackets (bs.drop (48 + n)) fuel
        (headerPacket (bs.take 48) ((bs.drop 48).take n) :: r.1, r.2)

/-- Flits that an ACK covers (R298): `ack` and the 511 sequence numbers before it. -/
def ackCovers (ack seq : Nat) : Bool := (ack + 1024 - seq) % 1024 < 512

/-- ACK, NAK and the returned credits of a good flit (R292, R298): the port's flows may move back once the partner holds nothing. -/
def State.flitAcks (s : State) (p h : Nat) : State :=
  let l := s.port p
  let gone := (l.unacked.filter fun f => ackCovers (bits h 23 14) f.seq).length
  let cvc := bits h 30 28
  let l := { l with
    unacked := l.unacked.drop gone
    cursor := if bitAt h 24 then 0 else l.cursor - gone
    spent := mapPut 0 l.spent cvc (mapGet 0 l.spent cvc - bits h 38 31) }
  (s.setPort p l).moveBack (partner p)

/-- A DATA flit in order: its payload joins its channel's bytes, its credit is owed, and the packets now whole are received. -/
def State.flitData (s : State) (p h : Nat) (payload : List Byte) : State :=
  let l := s.port p
  let vc := bits h 27 25
  let had := mapGet [] l.rx vc
  let start := bits h 46 39
  let bs := if had = [] then payload.drop start else had ++ payload
  let (pks, rest) := splitPackets bs 8
  let s := s.setPort p { l with
    rxLast := bits h 13 4
    rx := mapPut [] l.rx vc rest
    owed := mapPut 0 l.owed vc (mapGet 0 l.owed vc + 1) }
  (s.count (pgPort p) 1 233).forEach pks fun pk s => s.recvPacket p pk

/-- A flit is discarded and a NAK is due (R298). -/
def State.flitNak (s : State) (p : Nat) : State := s.setPort p { s.port p with nak := true }

/-- The symbols that the FEC corrected, counted per circuit and on slot 4 (R293, R537): byte b came on logical lane b mod 16. -/
def State.countSymbols (s : State) (p : Nat) (places : List Nat) : State :=
  let l := s.port p
  let circuits := places.map fun b => l.laneRx.getD (b % 16) 0
  (s.setPort p { l with corrected := circuits.foldl (fun m c => mapPut 0 m c (mapGet 0 m c + 1)) l.corrected }).count (pgPort p) 4 places.length

/-- FLIT_RECEIVE (R291–R293, R298): a port in service corrects the flit, checks it and takes what it carries. -/
def execFlitReceive (p : PortId) (flit : List Byte) (s : State) : Out :=
  if !s.portUp p.val || flit.length ≠ 256 then .next s
  else match fecCorrect flit with
    | none => .next (s.flitNak p.val)
    | some (f, places) =>
      let s := s.countSymbols p.val places
      let h := leField f 0 7
      if leField f 240 4 ≠ crc32c (f.take 240) || 2 < h % 16 then .next (s.flitNak p.val)
      else
        let s := s.flitAcks p.val h
        let ahead := (bits h 13 4 + 1024 - (s.port p.val).rxLast) % 1024
        .next (if h % 16 ≠ 0 || ahead = 0 || 512 ≤ ahead then s.finish
          else if ahead = 1 then (s.flitData p.val h ((f.drop 7).take 233)).finish
          else (s.flitNak p.val).finish)

/-! ### Sending -/

/-- The channel whose credit the next flit returns, and how many (R292, R311). -/
def PortLink.credit (l : PortLink) : Nat × Nat :=
  match (List.range 8).find? fun v => mapGet 0 l.owed v ≠ 0 with
  | some v => (v, min (mapGet 0 l.owed v) 255)
  | none => (0, 0)

/-- A flit leaves with what its header returns: ACK, NAK and credits. `f` is the DATA flit, none for IDLE. -/
def State.putFlit (s : State) (p : Nat) (f : Option LinkFlit) : State :=
  let l := s.port p
  let (cvc, n) := l.credit
  let head := fun ty seq vc start => flitHeader ty seq l.rxLast l.nak.toNat vc cvc n start
  let quick : Bool := match f with
    | some f => f.vc == vcQUICK
    | none => false
  let l := { l with
    nak := false
    owed := mapPut 0 l.owed cvc (mapGet 0 l.owed cvc - n)
    quick := (2 * l.quick + quick.toNat) % 2 ^ 255 }
  let s := s.setPort p l
  match f with
  | some f => ((s.emit (.flit p (flitBytes (head 0 f.seq f.vc f.start) f.payload))).count (pgPort p) 0 233).count (pgPort p) 2 1
  | none => s.emit (.flit p (flitBytes (head 1 0 0 0xFF) []))

/-- The next flit of a replay (R298): a replay that begins is counted. -/
def State.resendFlit (s : State) (p : Nat) (f : LinkFlit) : State :=
  let l := s.port p
  let s := if l.cursor = 0 then (s.addF fdPortRetryReplays (pgPort p) 0 1).count (pgPort p) 3 1 else s
  (s.setPort p { l with cursor := l.cursor + 1 }).putFlit p (some f)

/-- A DATA flit is sent for the first time on a port: it takes the next SEQ, a credit and a place in the retry buffer. -/
def State.sendFlit (s : State) (p : Nat) (f : LinkFlit) : State :=
  let l := s.port p
  let f := { f with seq := l.txNext }
  let s := s.setPort p { l with
    txNext := (l.txNext + 1) % 1024
    unacked := l.unacked ++ [f]
    cursor := l.cursor + 1
    spent := mapPut 0 l.spent f.vc (mapGet 0 l.spent f.vc + 1)
    granted := mapPut 0 l.granted f.vc (mapGet 0 l.granted f.vc + 1) }
  (s.putFlit p (some f)).moveBack (partner p)

/-- Fills `room` bytes of a flit from the packets of a channel and home port: the bytes, the place of the first start, and what is left
of the queue. Packets of others keep their places. -/
def fillFlit (vc home : Nat) (room used : Nat) : List LinkPacket → List Byte × Option Nat × List LinkPacket
  | [] => ([], none, [])
  | w :: ws =>
    if w.vc ≠ vc || w.home ≠ home || room = 0 then
      let r := fillFlit vc home room used ws
      (r.1, r.2.1, w :: r.2.2)
    else
      let n := min room w.left.length
      let r := fillFlit vc home (room - n) (used + n) ws
      let start := if w.begun then r.2.1 else some used
      let rest := if n = w.left.length then r.2.2 else { w with left := w.left.drop n, begun := true } :: r.2.2
      (w.left.take n ++ r.1, start, rest)

/-- A channel has a credit on the port (R311). -/
def PortLink.hasCredit (l : PortLink) (vc : Nat) : Bool := mapGet 0 l.spent vc < linkBuffer vc

/-- Weight of a channel, or the cap of QUICK (R311, R312). -/
def State.vcWeight (s : State) (p vc : Nat) : Nat := s.getF fdEcrokVcw pgEcrok p / 2 ^ (8 * vc) % 256

/-- QUICK flits among the last 255. -/
def quickCount (mask : Nat) : Nat := ((List.range 255).filter (bitAt mask)).length

/-- The channel that the arbiter grants (R311, R312): QUICK while fewer than its cap of the last 256 flits were QUICK, else by weighted
round robin, the lowest code that has share left in the round; a channel with nothing to send gives up its share. -/
def State.grant (s : State) (p : Nat) : Option Nat :=
  let l := s.port p
  let ready := fun v => l.hasCredit v && l.queue.any fun w => w.vc = v
  if ready vcQUICK && quickCount l.quick < s.vcWeight p vcQUICK then some vcQUICK
  else (List.range 8).find? fun v => v ≠ vcQUICK && ready v && mapGet 0 l.granted v < s.vcWeight p v

/-- The round's shares are spent: a new round begins. -/
def State.newRound (s : State) (p : Nat) : State := s.setPort p { s.port p with granted := [] }

/-- A new DATA flit of a channel. -/
def State.buildFlit (s : State) (p vc : Nat) : State :=
  let l := s.port p
  match l.queue.find? fun w => w.vc = vc with
  | none => s
  | some w =>
    let (bs, start, rest) := fillFlit vc w.home 233 0 l.queue
    (s.setPort p { l with queue := rest }).sendFlit p { vc := vc, start := start.getD 0xFF, payload := bs, home := w.home }

/-- The next flit of a port (R289, R298, R311): what a replay still has to resend, then flits taken over from the partner, then new data
while fewer than 256 flits are unacknowledged, else IDLE. A flit taken over waits while another flow's packet of its channel is half sent. -/
def State.nextFlit (s : State) (p : Nat) : State :=
  let l := s.port p
  match l.unacked.drop l.cursor with
  | f :: _ => s.resendFlit p f
  | [] =>
    if 256 ≤ l.unacked.length then s.putFlit p none
    else match l.carry with
      | f :: rest =>
        if !l.hasCredit f.vc then s.putFlit p none
        else if l.queue.any fun w => w.begun && w.vc = f.vc && w.home ≠ f.home then s.buildFlit p f.vc
        else (s.setPort p { l with carry := rest }).sendFlit p f
      | [] =>
        match s.grant p with
        | some v => s.buildFlit p v
        | none =>
          match (s.newRound p).grant p with
          | some v => (s.newRound p).buildFlit p v
          | none => s.putFlit p none

/-- FLIT_SEND: a port in service sends its next flit; while its transmit lanes are swapped it sends no DATA flit (R300). -/
def execFlitSend (p : PortId) (s : State) : Out :=
  if !s.portUp p.val then .next s
  else if (s.port p.val).swapTx then .next (s.putFlit p.val none)
  else .next (s.nextFlit p.val)

end Sys2Proof.Machine
end

