-- ==== Sys2Proof/Machine/Observe.lean ====
section
/-! DEFINITION. Freeze snapshots (R535, R536), trace SYNC records (R542), health summaries (R583, R584) and the I3C sideband
(R581, R582). -/
namespace Sys2Proof.Machine

/-! ### Snapshots -/

/-- The die that a page's block lies on (R15–R17, R353; DEDUCED, log entry 22), numbered as the snapshot units: TD0–TD3, PD, FD0, FD1.
The Ecrok and collective pages count as FD0's, as fabric time's. -/
def dieOfPage (page : Nat) : Nat :=
  let code := blockCode page
  let i := blockInstance page
  if code = 0x01 then i / 64
  else if code = 0x02 || code = 0x03 then i
  else if 0x04 ≤ code && code ≤ 0x06 then i / 3
  else if code = 0x2B || code = 0x2C then i
  else if code = 0x18 || code = 0x1B || code = 0x1D || code = 0x1E then 5
  else if 0x16 ≤ code && code ≤ 0x23 then 5 + i % 2
  else 4

/-- Every page of the directory (R554). -/
def allPages : List Nat := directory.flatMap fun r => upFrom r.first r.count

/-- A record of R536. -/
def snapRec (page unit kind which occupancy capacity a b subject age : Nat) : SnapRec :=
  ⟨page, unit, kind, which, occupancy, capacity, a, b, subject, age⟩

/-- Age in µs, saturating. -/
def State.age (s : State) (since : Nat) : Nat := min ((s.now - since) / 2000) (2 ^ 32 - 1)

/-- Age of the oldest of a queue's entries, given when each came; 0 for none. -/
def State.oldest (s : State) (l : List Nat) : Nat :=
  match l with
  | [] => 0
  | x :: xs => s.age (xs.foldl min x)

/-- The counters of a tile that some core waits for, as counter numbers. -/
def State.waitedOn (s : State) (t : Nat) : List Nat :=
  (List.range 64).filter fun n => s.waits.any fun w => w.id = t * 64 + n

/-- A tile's records: its Xzmx queue, its FCU requests and its waited counters. A record takes a free value for what the spec leaves
open: where a queue's head stands in its slots. -/
def State.snapTile (s : State) (t : Nat) : List (Nat → SnapRec) :=
  let page := pgFlask (flaskOf t)
  let unit := 1 + t % 16
  let x := s.tile t
  let mx := fun h => (snapRec page unit 1 0 x.mxq.length 8 (h % 8) ((h + x.mxq.length) % 8) (x.mxq.head?.elim 0 fun q => mxOp q.w)
        (s.oldest (x.mxq.map (·.since))))
  let fcu := fun h => (snapRec page unit 2 0 x.fcuq.length 4 (h % 4) ((h + x.fcuq.length) % 4) (x.fcuq.head?.elim 0 (·.op))
        (s.oldest (x.fcuq.map (·.since))))
  let waited := (s.waitedOn t).map fun n _ =>
    let id := t * 64 + n
    let ws := s.waits.filter fun w => w.id = id
    let h := ws.head?
    (snapRec page unit 3 n ws.length 64 ((mapGet {} s.counters id).value) (h.elim 0 (·.n)) (id +
          (h.elim 0 fun w => hartId w.core) * 2 ^ 18) (s.oldest (ws.map (·.since))))
  [mx, fcu] ++ waited

/-- When the cores blocked at a barrier slot came. -/
def State.slotSince (s : State) (f slot : Nat) : List Nat :=
  (List.range 16).filterMap fun t =>
    match (s.core (f * 16 + t)).blocked with
    | .bwait b _ since => if b = slot then some since else none
    | _ => none

/-- A held access writes. -/
def Held.writes : Held → Bool
  | .core _ (.load ..) => false
  | .core _ (.lr ..) => false
  | .core .. => true
  | .fabric _ pk => pk.kind.toNat ≠ 1
  | _ => true

/-- Address bits [39:8] of a held access: of its own address, of its counter's tile store, or of its packet's offset. -/
def Held.subject : Held → Nat
  | .core _ (.load a ..) => a / 256 % 2 ^ 32
  | .core _ (.store a ..) => a / 256 % 2 ^ 32
  | .core _ (.amo a ..) => a / 256 % 2 ^ 32
  | .core _ (.lr a ..) => a / 256 % 2 ^ 32
  | .core _ (.sc a ..) => a / 256 % 2 ^ 32
  | .core c _ => storeAt c / 256 % 2 ^ 32
  | .watchPost _ _ id _ => storeAt (id / 64) / 256 % 2 ^ 32
  | .post id _ => storeAt (id / 64) / 256 % 2 ^ 32
  | .fabric _ pk => pk.offset.toNat / 256 % 2 ^ 32

/-- A flask's records: those of its tiles, its barrier slots and what its mesh port holds. -/
def State.snapFlask (s : State) (f : Nat) : List (Nat → SnapRec) :=
  let tiles := (upFrom (f * 16) 16).flatMap s.snapTile
  let bits' := fun m => ((List.range 16).filter (bitAt m)).length
  let slots := (List.range 8).map fun k _ =>
    let n := bits' (mapGet 0 s.arrived (f * 8 + k))
    let m := bits' (s.getF fdFlaskBarMembers (pgFlask f) k)
    (snapRec (pgFlask f) 19 4 k n m n m (s.getF fdFlaskBarGen (pgFlask f) k) (s.oldest (s.slotSince f k)))
  let x := s.flask f
  let held := fun cap =>
    (snapRec (pgFlask f) 20 5 0 x.held.length (cap % 2 ^ 32) ((x.held.filter fun h => !h.writes).length) ((x.held.filter
          (·.writes)).length) (x.held.head?.elim 0 Held.subject) (if x.held.isEmpty then 0 else s.age x.heldSince))
  tiles ++ slots ++ [held]

/-- A stack controller's records: sluice waits and its line merger. -/
def State.snapHbmc (s : State) (i : Nat) : List (Nat → SnapRec) :=
  let ws := s.hbm.waiting.filter fun r => s.siteOf r.off = i
  let sum := fun (w : Bool) => (ws.filter fun r => r.charge.2 = w).foldl (fun n r => n + r.charge.1) 0
  let es := s.hbm.merge.filter fun e => s.siteOf (e.line * 128) = i
  [fun cap => snapRec (pgHbmc i) 0 6 0 ws.length (cap % 2 ^ 32) (sum false) (sum true)
        ((ws.head?.bind fun r => s.polderOf r.off).getD 0) (s.oldest (ws.map (·.since))),
   fun held => snapRec (pgHbmc i) 0 7 0 es.length 64 es.length (held % 2 ^ 32) (es.head?.elim 0 fun e => e.line % 2 ^ 32)
         (s.oldest (es.map (·.since)))]

/-- The tag slots of a context on a fabric die. -/
def State.snapTags (s : State) (d c : Nat) : SnapRec :=
  let ts := (s.liveTags.filter fun t => t.1 / 65536 = d && t.2.ctx = c).map (·.2)
  let age := s.oldest (ts.map (·.since))
  let old := ts.find? fun t => s.age t.since = age
  snapRec (0x157 + d) 0 8 c ts.length 65536 ts.length ((ts.filter fun t => t.tries ≠ 0).length) (old.elim 0 (·.pk.dst.toNat)) age

/-- A die's reply store. -/
def State.snapReplies (s : State) (d : Nat) : SnapRec :=
  let rs := s.ecrok.replies.filter fun r => r.die = d
  snapRec (0x155 + d) 0 10 0 rs.length 32768 rs.length (s.getF fdEcrokCntBusy pgEcrok) (rs.head?.elim 0 (·.src)) (s.oldest (rs.map
        (·.since)))

/-- Link credits of a port and channel: flits that its waiting packets fill. -/
def State.snapLink (s : State) (p v : Nat) : SnapRec :=
  let l := s.port p
  let ws := l.queue.filter fun w => w.vc = v
  let n := ((ws.foldl (fun n w => n + w.left.length) 0) + 232) / 233
  let cap := linkBuffer v
  let free := cap - mapGet 0 l.spent v
  snapRec (pgPort p) 1 9 v n cap free n v (s.oldest (ws.map (·.since)))

/-- A command queue's receive ring. -/
def State.snapRing (s : State) (q : Nat) : SnapRec :=
  let k := s.queue q
  let rs := k.ring.filter fun r => !r.broken
  snapRec pgSched 0 11 q rs.length 64 rs.length (k.received % 64) q (s.oldest (rs.map (·.since)))

/-- A linkage queue: its producer index is the word in memory. The age of its oldest entry is a free value: no rule has the array or
the node note when software wrote an entry. -/
def State.snapLinkage (s : State) (q age : Nat) : SnapRec :=
  let k := mapGet 0 s.lsa.cidx q
  let p := s.loadNat (s.getF fdLsaQPidx pgLsa q) 8
  snapRec pgLsa 0 12 q (p - k) (2 ^ s.getF fdLsaQLog2len pgLsa q) (k % 2 ^ 32) (p % 2 ^ 32) q (if p ≤ k then 0 else age % 2 ^ 32)

/-- The records of a die (R536). -/
def State.snapDie (s : State) (d : Nat) : List (Nat → SnapRec) :=
  if d < 4 then
    (upFrom (64 * d) 64).flatMap s.snapFlask ++
      ((upFrom (3 * d) 3).filter fun i => !siteAbsent s.small i).flatMap s.snapHbmc
  else if d = 4 then
    ((List.range 16).map fun q age => s.snapLinkage q age) ++ (List.range 256).map fun q _ => s.snapRing q
  else
    let fd := d - 5
    ((List.range 16).map fun c _ => s.snapTags fd c) ++ [fun _ => s.snapReplies fd] ++
      ((List.range 18).filter fun p => p % 2 = fd).flatMap fun p => (List.range 8).map fun v _ => s.snapLink p v

/-- A die latches its records, at most 32,768 of them (R535). -/
def State.latchDie (s : State) (d : Nat) : State :=
  let rs := s.snapDie d
  let kept := (rs.zipIdx.take 32768).map fun x => x.1 (Config.freeValue (s.freeCount + x.2))
  let s : State := { s with freeCount := s.freeCount + rs.length, snaps := mapPut [] s.snaps d kept }
  if 32768 < rs.length then s.setF fdObsSnapTrunc pgObs 0 1 else s

/-- An armed snapshot is taken (R535): the chosen dies latch, then their rings freeze with cause 1. -/
def State.takeSnapshot (s : State) : State :=
  if s.getF fdObsSnapArm pgObs = 0 then s
  else
    let dies := (List.range 7).filter (bitAt (s.getF fdObsSnapDies pgObs))
    let s := ({ s with snaps := [] }).setF fdObsSnapTrunc pgObs 0 0
    let s := s.forEach dies fun d s => s.latchDie d
    let pages := allPages.filter fun p => dies.contains (dieOfPage p) && !s.frozen p && !s.absentPage p
    let s := s.forEach pages fun p s => s.freezeRings p 1
    let s := ((s.setF fdObsSnapArm pgObs 0 0).setF fdObsSnapHeld pgObs 0 1).setF fdObsSnapTaken pgObs 0 s.now
    { s with snapPages := pages }

/-- SNAP_LATCH. -/
def execSnapLatch (s : State) : Out := .next s.takeSnapshot

/-- A snapshot is released (R535): its records go and the rings that it froze thaw. -/
def State.releaseSnapshot (s : State) : State :=
  if s.getF fdObsSnapHeld pgObs = 0 then s
  else
    let pages := s.snapPages
    let s : State := { s with snaps := [], snapPages := [] }
    (s.forEach pages fun p s => s.thawRings p).setF fdObsSnapHeld pgObs 0 0

/-! ### SYNC records and health summaries -/

/-- TRACE_SYNC. -/
def execTraceSync (s : State) : Out := .next s.syncRecord

/-- The largest of a list. -/
def maxOf (l : List Nat) : Nat := l.foldl max 0

/-- Directions lost (R290): both ports of a pair that has a role are out of UP. -/
def State.lostDirections (s : State) : Nat :=
  packBits ((List.range 9).map fun k =>
    (1, (s.getF fdPortRole (pgPort (2 * k)) ≠ 0xF && !s.portUp (2 * k) && !s.portUp (2 * k + 1) : Bool).toNat))

/-- A pair entry of 8 B (R584): a RETIRED one becomes empty 10 s after it. -/
def State.pairEntry (s : State) (i : Nat) : Nat :=
  let p := mapGet {} s.pairs i
  if p.state = 0 || (p.state = 4 && p.retiredAt + 20000000000 ≤ s.now) then 0
  else p.job + p.gen * 2 ^ 20 + p.state * 2 ^ 32

/-- The 192 B of a summary (R584). -/
def State.summaryBytes (s : State) (urgent : Bool) : List Byte :=
  let head := packBits [(17, s.nodeId), (3, s.getF fdNodectlStatusStage pgNodectl), (5, s.blocked), (2, s.getF fdErraggSpareState pgErragg),
    (3, s.getF fdPowerSupplyState pgPower), (2, s.getF fdClkRefState pgClk)]
  let sites := (List.range 12).filter fun i => !siteAbsent s.small i
  let cause := s.err.prefailCauses.getLast?
  let evac := sites.any fun i => (List.range 32).any fun c => s.getF fdHbmcChEvacPending (pgHbmc i) c = 1
  let notes := packBits [(1, urgent.toNat), (1, s.side.misplaced.toNat), (1, cause.isSome.toNat), (1, evac.toNat), (1, s.ftime.ahead.toNat)]
  leBytes 8 s.now ++ leBytes 4 (s.getF fdNodectlHealthSeq pgNodectl) ++ leBytes 4 head ++ leBytes 2 (s.getF fdPowerPin pgPower) ++
    leBytes 1 (maxOf ((List.range 7).map fun d => s.getF fdPowerDieTj pgPower d)) ++
    leBytes 1 (maxOf (sites.map fun i => s.getF fdHbmcTempNow (pgHbmc i))) ++
    leBytes 1 (Config.sensor 7 s.now) ++ leBytes 1 (Config.sensor 8 s.now) ++
    leBytes 1 (s.ftState + min (s.getF fdFtimeDepth pgFtime) 31 * 8) ++ leBytes 1 notes ++
    leBytes 2 (cause.elim 0 (· / 2 ^ 16)) ++ leBytes 2 (cause.elim 0 (· % 2 ^ 16)) ++
    leBytes 4 (packBits ((List.range 18).map fun p => (1, (s.portUp p).toNat))) ++ leBytes 2 s.lostDirections ++ [0, 0] ++
    leBytes 4 (s.getF fdErraggRingNewest pgErragg) ++ leBytes 8 (s.getF fdPowerEnergy pgPower) ++ List.replicate 16 0 ++
    (List.range 16).flatMap fun i => leBytes 8 (s.pairEntry i)

/-- A summary is written and its interrupt raised (R581, R583). -/
def State.writeSummary (s : State) (urgent : Bool) : State :=
  let s := s.addF fdNodectlHealthSeq pgNodectl 0 1
  let s := (s.setF fdNodectlHealthLast pgNodectl 0 s.now)
  let s : State := { s with side := { s.side with summary := s.summaryBytes urgent }, urgentDue := s.urgentDue && !urgent }
  let gone := fun (p : Pair) => p.state = 4 && p.retiredAt + 20000000000 ≤ s.now
  let s : State := { s with
    err := { s.err with prefailCauses := [] }
    pairs := s.pairs.filter fun p => !gone p.2 }
  s.emit (.ibi 2)

/-- Ticks since the latest summary; none before the first. -/
def State.summaryAge (s : State) : Option Nat :=
  if s.side.summary = [] then none else some (s.now - s.getF fdNodectlHealthLast pgNodectl)

/-- HEALTH_SUMMARY (R583): an urgent one where one is due and the latest urgent one is at least 1 ms back; a periodic one unless an
urgent one was written within the last 10 ms. -/
def execHealthSummary (urgent : Bool) (s : State) : Out :=
  let last := bitAt (s.side.summary.getD 23 0).toNat 0
  let within := fun n => last && s.summaryAge.elim false fun a => a < n
  if urgent then .next (if !s.urgentDue || within 2000000 then s else s.writeSummary true)
  else .next (if within 20000000 then s else s.writeSummary false)

/-! ### I3C -/

/-- I3C_POSITION_WRITE (R305, R582). -/
def execI3cPositionWrite (x y z check : Byte) (s : State) : Out :=
  let node := s.getF fdNodectlPosStraps pgNodectl + x.toNat * 4 + y.toNat * 128 + z.toNat * 4096
  if check ≠ x ^^^ y ^^^ z ^^^ 0xA5 || 32 ≤ x.toNat || 32 ≤ y.toNat || 32 ≤ z.toNat then .next s
  else if s.getF fdNodectlPosI3cOk pgNodectl = 1 then
    .next (if node = s.getF fdNodectlPosNode pgNodectl then s else { s with side := { s.side with misplaced := true } })
  else
    let s := (s.setF fdNodectlPosI3cOk pgNodectl 0 1).setF fdNodectlPosNode pgNodectl 0 node
    .next ((s.setF fdEcrokNodeId pgEcrok 0 node).setF fdEcrokNodeIdValid pgEcrok 0 1)

/-- I3C_STAGE_READ (R581). -/
def execI3cStageRead (s : State) : Out :=
  .next (s.emit (.i3cData (leBytes 1 (s.getF fdNodectlStatusStage pgNodectl + s.blocked * 8))))

/-- I3C_SUMMARY_READ (R581): before the first summary its bytes are free. -/
def execI3cSummaryRead (s : State) : Out :=
  if s.side.summary = [] then
    let bs := (List.range 192).map fun i => BitVec.ofNat 8 (Config.freeValue (s.freeCount + i))
    .next (State.emit { s with freeCount := s.freeCount + 192 } (.i3cData bs))
  else .next (s.emit (.i3cData s.side.summary))

end Sys2Proof.Machine
end

