-- ==== Sys2Proof/Machine/Registers.lean ====
section
/-! DEFINITION. Stores to the block pages (R10–R13, R545–R553): which fields a store writes, how it is judged, what each written field
does, block resets (R509, R549), and the register capsules (R390). -/
namespace Sys2Proof.Machine

/-! ### What a store carries -/

/-- The bits of a store that fall on a field element, moved to the element's own places. -/
def carriedBits (d : FieldDesc) (i v off size : Nat) : Nat :=
  let lo := (d.off + d.stride * i) * 8 + d.lsb
  let v := v % 2 ^ (8 * size)
  (if off * 8 ≤ lo then v / 2 ^ (lo - off * 8) else v * 2 ^ (off * 8 - lo)) % 2 ^ d.width

/-- The bits of a field element that a store covers. -/
def coveredBits (d : FieldDesc) (i off size : Nat) : Nat := carriedBits d i (2 ^ (8 * size) - 1) off size

/-- A field that no store reaches on this page: fields of polder 15 (R280), `PTP.EN` of E1 (R392), `COMMIT` where it is not offered
(R550). -/
def fixedField (page : Nat) (d : FieldDesc) (i : Nat) : Bool :=
  (d.code = 0x07 && d.count = 16 && i = 15) || (d = fdEthPtpEn && blockInstance page = 1) ||
    (d = fdComCommitGo && !offersCommit (blockCode page))

/-- A value with the bits that writes ignore put back: sources that the directory does not list (R556), points 0–11 and unnamed points
(R245), bit 8 of `ALERT.MASK` (R559). -/
def keptBits (page : Nat) (d : FieldDesc) (v : Nat) : Nat :=
  if d = fdErrErrStatusSrc || d = fdErrErrEnable then v &&& sourceMask page
  else if d = fdErrErrSeverity then v &&& severityMask page
  else if d = fdSchedTraceEnLo then (v &&& namedMask 0 64) ||| 0xFFF
  else if d = fdSchedTraceEnHi then v &&& namedMask 64 56
  else if d = fdNodectlAlertMask then v ||| 1
  else v

/-- A field element that a store writes: its new value, or the bits that carry 1 (W1S, W1C). -/
structure FieldWrite where
  d : FieldDesc
  i : Nat
  v : Nat
  deriving DecidableEq, Repr

/-- What a store does to one field element that it touches: nothing where it does not write it (R553). -/
def State.writeOf (s : State) (page off size v : Nat) (d : FieldDesc) (i : Nat) : Option FieldWrite :=
  if fixedField page d i then none
  else
    match d.acc with
    | .rw =>
      let old := s.fieldView page d i
      let new := keptBits page d (old - (old &&& coveredBits d i off size) + carriedBits d i v off size)
      if new = old then none else some ⟨d, i, new⟩
    | .w1c | .w1s =>
      let b := keptBits page d (carriedBits d i v off size)
      if b = 0 then none else some ⟨d, i, b⟩
    | _ => none

/-- The fields that a store writes (R553). -/
def State.written (s : State) (page off size v : Nat) : List FieldWrite :=
  (s.loadFields page off size).filterMap fun x => s.writeOf page off size v x.1 x.2

/-! ### How a store is judged (R553) -/

/-- An open context holds the block: a flask's allotment, an application core of PD or of the quadrant. -/
def State.heldByOpen (s : State) (page : Nat) : Bool :=
  match blockCode page with
  | 0x01 => (s.flaskOwner page).isSome
  | 0x08 => s.coresHeld
  | 0x09 => (List.range 16).any fun k => (s.coreOwner (16 * blockInstance page + k)).isSome
  | _ => false

/-- A hart of a context runs (R191). -/
def State.hartRuns (s : State) (c : Nat) : Bool :=
  (List.range 64).any fun k => bitAt (s.ctx c).cores k && (s.core (4096 + k)).running

/-- The block is busy in a class X field's sense. -/
def State.fieldBusy (s : State) (page : Nat) (d : FieldDesc) (i : Nat) : Bool :=
  match d.code, d.off with
  | 0x00, 0x010 => s.heldByOpen page || !s.blockIdle page
  | 0x00, 0x02C => s.heldByOpen page || s.getF fdErrErrInjectGo page = 1
  | 0x01, _ => (s.flask page).imem.isSome
  | 0x08, 0x180 => s.hartRuns i
  | 0x08, _ => s.hartRuns (s.getF fdPdGmapCtx page i)
  | 0x0D, _ => s.getF fdLsaQEn page i = 1
  | 0x1B, 0x400 => s.ctxBusy (i / 8)
  | 0x1D, 0x120 => s.getF fdFtimeState page ≠ 0
  | 0x1D, _ => s.getF fdFtimeRelArm page i = 1
  | 0x1F, _ => s.blockBusy page
  | 0x29, off =>
    if off < 0x200 then s.getF fdObsSnapArm page = 1 || s.getF fdObsSnapHeld page = 1 else s.ctxBusy i
  | _, _ => s.ctxBusy i

/-- The value that a field has after a store. -/
def State.afterStore (s : State) (page : Nat) (ws : List FieldWrite) (d : FieldDesc) (i : Nat := 0) : Nat :=
  match ws.find? fun w => w.d = d && w.i = i with
  | some w => w.v
  | none => s.fieldView page d i

/-- Byte k of a `VCW` value. -/
def vcwByte (v k : Nat) : Nat := bits v (8 * k + 7) (8 * k)

/-- The weights of a `VCW` value (R312): the seven without QUICK sum to 256, and QUICK is 1–64. -/
def vcwOk (v : Nat) : Bool :=
  ([0, 1, 2, 3, 5, 6, 7].map (vcwByte v)).sum = 256 && 1 ≤ vcwByte v 4 && vcwByte v 4 ≤ 64

/-- A PREFAIL threshold is not above the non-zero repair threshold of its unit (R561). -/
def thresholdsOk (prefail repair : Nat) : Bool := prefail = 0 || repair = 0 || prefail ≤ repair

/-- A PREFAIL or repair threshold keeps its order with the other (R561). -/
def State.thrOk (s : State) (page : Nat) (ws : List FieldWrite) (d : FieldDesc) : Bool :=
  let check := fun p r => thresholdsOk (s.afterStore page ws p) (s.afterStore page ws r)
  match d.off with
  | 0x120 => check fdErraggThrTilePrefail fdErraggThrTileRepair
  | 0x124 => check fdErraggThrCorePrefail fdErraggThrCoreRepair
  | 0x128 => check fdErraggThrLsaPrefail fdErraggThrLsaRepair
  | _ => true

/-- A source whose bit of `ERR_ENABLE` a store clears while its severity is UC or NF (R439). -/
def State.disablesSevere (s : State) (page v : Nat) : Bool :=
  (List.range 16).any fun k =>
    bitAt (s.fieldView page fdErrErrEnable 0) k && !bitAt v k && 2 ≤ bits (s.getF fdErrErrSeverity page) (2 * k + 1) (2 * k)

/-- `ERR_SEVERITY` gives every listed source at least its minimum class (R439). -/
def severityOk (page v : Nat) : Bool :=
  (blockSources page).all fun k => minClass page k ≤ bits v (2 * k + 1) (2 * k)

/-- A written value is one that its map lists (R10), and its rule's own bound holds. -/
def State.listed (s : State) (page : Nat) (ws : List FieldWrite) (w : FieldWrite) : Bool :=
  validHolds w.d.valid w.v &&
    match w.d.code, w.d.off with
    | 0x00, 0x010 =>
      if w.d.lsb = 0 then offersEnable (blockCode page)
      else if w.d.lsb = 1 then offersQuiesce (blockCode page)
      else offersReset (blockCode page)
    | 0x00, 0x024 => !s.disablesSevere page w.v
    | 0x00, 0x028 => severityOk page w.v
    | 0x00, 0x080 => w.d.lsb ≠ 24 || w.v ≤ highestUnit (blockCode page)
    | 0x18, 0x200 => w.d.lsb ≠ 0 || 3 * s.getF fdEcrokTmoHmax page w.i + 10 ≤ w.v
    | 0x18, 0x600 => vcwOk w.v
    | 0x1F, 0x124 => w.d.lsb = 0 || bitAt (s.getF fdPortLaneTxActive page) (s.afterStore page ws fdPortSwapCircuit)
    | 0x25, _ => s.thrOk page ws w.d
    | 0x26, 0x128 => w.v ≤ s.getF fdPowerCapW page
    | 0x26, 0x138 => s.getF fdPowerBankFloorW page ≤ w.v
    | 0x28, 0x208 => w.d.lsb ≠ 0 || s.inPolders w.i w.v 1
    | 0x28, 0x210 => w.d.lsb ≠ 0 || s.inPolders w.i w.v 1
    | 0x29, 0x200 => w.d.lsb ≠ 0 || s.inPolders w.i w.v 1
    | 0x29, 0x208 => w.d.lsb ≠ 0 || s.inPolders w.i w.v 1
    | _, _ => true

/-- The block's chapter refuses a write (R38, R56, R158, R471). -/
def State.refusesWrite (s : State) (page : Nat) (ws : List FieldWrite) (w : FieldWrite) : Bool :=
  match w.d.code, w.d.off with
  | 0x01, 0x104 => w.v = 1 && (s.sleepCmd page).isNone
  | 0x01, 0x128 => w.d.lsb = 31 &&
      !s.imemGoOk page (s.afterStore page ws fdFlaskImemCtrlTiles) (s.afterStore page ws fdFlaskImemCtrlLen)
        (s.afterStore page ws fdFlaskImemSrc)
  | 0x01, 0x140 => mapGet 0 s.arrived (page * 8 + w.i) ≠ 0
  | 0x26, 0x13C => w.v = 1 && s.deepCmd.isNone
  | _, _ => false

/-- The first check that fails, by its cause code of R552; 0 where the store is accepted. -/
def State.judge (s : State) (page size : Nat) (ws : List FieldWrite) : Nat :=
  if ws.any fun w => 32 < w.d.width && size = 4 then 5
  else if !ws.all (s.listed page ws) then 1
  else if ws.any fun w => w.d.cls = .dike then 3
  else if ws.any fun w => w.d.cls = .locked && s.fieldBusy page w.d w.i then 2
  else if ws.any (s.refusesWrite page ws) then 4
  else 0

/-! ### What an accepted store does (R11, R13) -/

/-- A field whose write is a command with an effect of its own: it holds no value that the store sets. -/
def commandField (d : FieldDesc) : Bool :=
  d = fdFlaskPcmdCmd || d = fdPowerIdleCmd || d = fdEvrEvrFreeze || d = fdFtimeParent || d = fdMemmapWpBase || d = fdMemmapWpLen ||
    d = fdMemmapWpCtx || d = fdMemmapWpValid

/-- A value held in shadow (R11, R550); none is pending where it equals the value in effect. -/
def State.holdShadow (s : State) (page : Nat) (d : FieldDesc) (i v : Nat) : State :=
  { s with shadow := mapPut 0 s.shadow (descKey d page i) (if v = s.getF d page i then 0 else v + 1) }

/-- A written field takes its value by its class and access. -/
def State.putField (s : State) (page : Nat) (w : FieldWrite) : State :=
  match w.d.acc with
  | .rw =>
    if w.d.cls = .shadowed then s.holdShadow page w.d w.i w.v
    else if commandField w.d then s
    else s.setF w.d page w.i w.v
  | .w1c => let x := s.getF w.d page w.i; s.setF w.d page w.i (x - (x &&& w.v))
  | _ => s

/-- The write-protect entry that `WP_INDEX` selects changes (R265, R280). -/
def State.putWp (s : State) (f : WpEntry → WpEntry) : State :=
  { s with hbm := { s.hbm with wp := mapPut {} s.hbm.wp (s.getF fdMemmapWpIndex pgMemmap) (f s.shownWp) } }

/-- Buckets of a polder whose rate or burst has just been written: they keep the tokens they held, up to the new depth (R266). -/
def State.rebucket (s old : State) (p : Nat) : State :=
  s.forEach (List.range 12) fun site s => s.forEach [false, true] fun write s =>
    let short := s.bucketDepth p write * 4 + old.bucketShort site p write - old.bucketDepth p write * 4
    let b : Bucket := if short = 0 then {} else { spent := short, since := s.now }
    { s with hbm := { s.hbm with buckets := mapPut {} s.hbm.buckets (bucketKey site p write) b } }

/-- ENABLE cleared (R549): the flask goes ASLEEP. -/
def State.flaskDisabled (s : State) (f : Nat) : State :=
  if s.pstate f = psAwake then s.sleepStart f
  else if s.pstate f = psWaking && (s.flask f).held.isEmpty then s.setPstate f psAsleep
  else s

/-- A block or flask reset starts (R509, R549), with its RESET entry: kind 3 a flask, 4 a block. -/
def State.resetStart (s : State) (page : Nat) : State :=
  (s.setF fdComCtrlReset page 0 1).event page 0 none 0x0009 (if blockCode page = 0x01 then 3 else 4) 0

/-- A snapshot armed: it is taken at once where `SNAP.TIME` is 0 or not after the present (R535). -/
def State.snapArm (s : State) : State :=
  let s := s.setF fdObsSnapArm pgObs 0 1
  if s.getF fdObsSnapTime pgObs ≤ s.now then s.takeSnapshot else s

/-- What a written field of the common part does beside its value. -/
def State.commonAct (s : State) (page : Nat) (w : FieldWrite) : State :=
  match w.d.off, w.d.lsb with
  | 0x010, 0 => if w.v = 0 then s.flaskDisabled page else s
  | 0x010, 2 => s.resetStart page
  | 0x018, _ => if s.blockIdle page then s.applyShadow page else s
  | 0x02C, 8 => (s.setF fdErrErrInjectGo page 0 1).injectError page
  | 0x080, 16 => if w.v = 1 then s.freezeRings page 0 else s.thawRings page
  | _, _ => s

/-- What a written field does beside its value; `old` is the state before the store. -/
def State.act (s old : State) (page : Nat) (w : FieldWrite) : State :=
  match w.d.code, w.d.off, w.d.lsb with
  | 0x00, _, _ => s.commonAct page w
  | 0x01, 0x104, _ => if w.v = 1 then (s.sleepCmd page).getD s else s.wakeCmd page
  | 0x01, 0x10C, _ => s.holdWrite page
  | 0x01, 0x128, 31 =>
    s.imemStart page (s.getF fdFlaskImemCtrlTiles page) (s.getF fdFlaskImemCtrlLen page) (s.getF fdFlaskImemSrc page)
  | 0x07, 0x118, _ => s.putWp fun e => { e with base := w.v }
  | 0x07, 0x120, 0 => s.putWp fun e => { e with len := w.v }
  | 0x07, 0x120, 32 => s.putWp fun e => { e with ctx := w.v }
  | 0x07, 0x120, 36 => s.putWp fun e => { e with valid := w.v = 1 }
  | 0x07, 0x210, _ => s.rebucket old w.i
  | 0x07, 0x218, 0 => s.rebucket old w.i
  | 0x07, 0x218, 8 => s.rebucket old w.i
  | 0x08, 0x108, _ => s.vecHoldWrite
  | 0x0D, 0x218, 4 =>
    if w.v = 1 && !s.lsa.poked.contains w.i then { s with lsa := { s.lsa with poked := s.lsa.poked ++ [w.i] } } else s
  | 0x1D, 0x10C, _ => s.setParent w.v
  | 0x1D, 0x408, 8 => s.armRel w.i
  | 0x1F, 0x124, 31 => s.swapGo (blockInstance page)
  | 0x26, 0x13C, _ => if w.v = 1 then s.deepCmd.getD s else s.leaveDeep
  | 0x29, 0x118, 8 => s.snapArm
  | 0x29, 0x118, 10 => s.releaseSnapshot
  | _, _, _ => s

/-- A store of 4 or 8 B to a page, by an agent of R552 whose writes the page takes: the state, and the cause code of the drop, 0 where
the store is accepted or ignored (R547, R553). -/
def State.tryStore (s : State) (agent page off size v : Nat) : State × Nat :=
  if blockCode page = 0 || s.absentPage page then (s, 0)
  else
    let ws := s.written page off size v
    let cause := if ws.isEmpty then 0 else s.judge page size ws
    if cause ≠ 0 then (s.reject page off cause agent, cause)
    else ((s.forEach ws fun w t => t.putField page w).forEach ws fun w t => t.act s page w, 0)

/-! ### Agents (R545, R546) -/

/-- The agent code of R552 of an agent whose writes the pages take. -/
def writerCode : Agent → Option Nat
  | .reeve => some 0
  | .sched _ => some 1
  | _ => none

/-- An access fault at the source of a page access (R545, R546): a trap of the core, or a failed access of the reeve. -/
def State.pageFault (s : State) (a : Agent) (load : Bool) (page off : Nat) : State :=
  let addr := pageBase + page * 4096 + off
  match a with
  | .reeve => s.emit (.pageFault a)
  | .sched k => s.refuseCore (4160 + k.val) load addr 1
  | .monitor t => s.refuseCore t.val load addr 1
  | .kernel t => s.refuseCore t.val load addr 1
  | .pd k => s.refuseCore (4096 + k.val) load addr 1

/-- A store of an agent to a page. -/
def State.storePage (s : State) (a : Agent) (page off size v : Nat) : State :=
  match writerCode a with
  | none => s.pageFault a false page off
  | some g => if pageAccessOk off size then (s.tryStore g page off size v).1 else s.pageFault a false page off

/-- The word that a store carries to leave every field of it as it is: RW fields as they read, 0 for the others. -/
def State.keepWord (s : State) (page off size : Nat) : Nat :=
  ((s.loadFields page off size).filter fun x => x.1.acc = .rw).foldl
    (fun a x => a ||| viewBits x.1 x.2 (s.fieldView page x.1 x.2) off size) 0

/-- A store that sets or clears bit `b` of a 4 B word and carries the word's other fields as they are. -/
def State.storeBit (s : State) (a : Agent) (page off b : Nat) (on : Bool) : State :=
  s.storePage a page off 4 (putBits (s.keepWord page off 4) b b on.toNat)

/-- REGISTER_WRITE. -/
def execRegisterWrite (a : Agent) (page : BitVec 20) (off : BitVec 12) (size : Nat) (v : Word) (s : State) : Out :=
  .next (s.storePage a page.toNat off.toNat size v.toNat).finish

/-- RC_READ: a load of an agent that reaches the window (R545). -/
def execRcRead (a : Agent) (page : BitVec 20) (off : BitVec 12) (size : Nat) (s : State) : Out :=
  let reaches := match a with
    | .reeve | .sched _ | .monitor _ => true
    | _ => false
  if reaches && pageAccessOk off.toNat size then
    let (s, v) := s.pageLoad page.toNat off.toNat size
    .next (s.emit (.readValue a v))
  else .next (s.pageFault a true page.toNat off.toNat)

/-- COMMIT_GO. -/
def execCommitGo (a : Agent) (page : BitVec 20) (s : State) : Out := .next (s.storePage a page.toNat 0x018 4 1).finish

/-- CTRL_QUIESCE. -/
def execCtrlQuiesce (a : Agent) (page : BitVec 20) (on : Bool) (s : State) : Out :=
  .next (s.storeBit a page.toNat 0x010 1 on).finish

/-- CTRL_ENABLE. -/
def execCtrlEnable (a : Agent) (page : BitVec 20) (on : Bool) (s : State) : Out :=
  .next (s.storeBit a page.toNat 0x010 0 on).finish

/-- FLASK_SLEEP. -/
def execFlaskSleep (a : Agent) (f : FlaskId) (s : State) : Out := .next (s.storePage a (pgFlask f.val) 0x104 4 1).finish

/-- FLASK_WAKE. -/
def execFlaskWake (a : Agent) (f : FlaskId) (s : State) : Out := .next (s.storePage a (pgFlask f.val) 0x104 4 2).finish

/-- GATE_HOLD_WRITE. -/
def execGateHoldWrite (a : Agent) (f : FlaskId) (v : BitVec 32) (s : State) : Out :=
  .next (s.storePage a (pgFlask f.val) 0x10C 4 v.toNat).finish

/-- IMEM_LOAD_GO. -/
def execImemLoadGo (a : Agent) (f : FlaskId) (v : BitVec 32) (s : State) : Out :=
  .next (s.storePage a (pgFlask f.val) 0x128 4 v.toNat).finish

/-- SWAP_GO. -/
def execSwapGo (a : Agent) (p : PortId) (v : BitVec 32) (s : State) : Out :=
  .next (s.storePage a (pgPort p.val) 0x124 4 v.toNat).finish

/-- REL_ARM. -/
def execRelArm (a : Agent) (k : Fin 32) (v : Word) (s : State) : Out :=
  .next (s.storePage a pgFtime (0x408 + 64 * k.val) 8 v.toNat).finish

/-- ERR_INJECT_GO. -/
def execErrInjectGo (a : Agent) (page : BitVec 20) (v : BitVec 32) (s : State) : Out :=
  .next (s.storePage a page.toNat 0x02C 4 v.toNat).finish

/-- DEEP. -/
def execDeep (a : Agent) (s : State) : Out := .next (s.storePage a pgPower 0x13C 4 1).finish

/-- IDLE_WAKE. -/
def execIdleWake (a : Agent) (s : State) : Out := .next (s.storePage a pgPower 0x13C 4 2).finish

/-- EVR_FREEZE. -/
def execEvrFreeze (a : Agent) (page : BitVec 20) (on : Bool) (s : State) : Out :=
  .next (s.storeBit a page.toNat 0x080 16 on).finish

/-- SNAP_ARM. -/
def execSnapArm (a : Agent) (v : BitVec 32) (s : State) : Out := .next (s.storePage a pgObs 0x118 4 v.toNat).finish

/-- SNAP_RELEASE. -/
def execSnapRelease (a : Agent) (s : State) : Out := .next (s.storeBit a pgObs 0x118 10 true).finish

/-- CORE_STORE: a scheduler core's store to a page is judged by the page; every other store is issued by its core. -/
def execCoreStore (c : Core) (addr : Word) (size : Nat) (v : Word) (s : State) : Out :=
  match c, s.place none addr.toNat with
  | .sched k, .page page off => .next (s.storePage (.sched k) page off size v.toNat).finish
  | c, _ => .next (s.issue' (coreIx c) (.store addr.toNat size v.toNat))

/-! ### Block and flask resets (R509, R549) -/

/-- BLOCK_RESET. -/
def execBlockReset (a : Agent) (page : BitVec 20) (s : State) : Out := .next (s.storeBit a page.toNat 0x010 2 true).finish

/-- A field that a block reset sets to its reset value: writable and RC fields, but for class D fields, the error registers, the
always-on counters and the event rings. -/
def resetByBlock (d : FieldDesc) : Bool :=
  d.acc ≠ .ro && d.cls ≠ .dike && !(d.code = 0 && 0x020 ≤ d.off && d.off < 0x100)

/-- The logical tile state of R50 of every tile of a flask, with stores and IMEM written with zeros. -/
def State.clearTiles (s : State) (f : Nat) : State :=
  let mine := fun t => flaskOf t = f
  let s := s.forEach (tilesOf f) fun t s =>
    (s.zeroRange (storeAt t) (storeAt t + storeSize)).zeroRange (imemAt t) (imemAt t + 0x10000)
  let s : State := { s with
    csrs := s.csrs.filter fun x => !mine (x.1 / 4096)
    xregs := s.xregs.filter fun x => !mine (x.1 / 32)
    cores := s.cores.filter fun x => !mine x.1
    tiles := s.tiles.filter fun x => !mine x.1 }
  s.resetFlaskJob f

/-- The unit state that a block's fields configure, after its fields. -/
def State.resetUnit (s : State) (page : Nat) : State :=
  match blockCode page with
  | 0x01 => s.clearTiles page
  | 0x07 => { s with hbm := { s.hbm with wp := [], buckets := [] } }
  | 0x0D => { s with lsa := { s.lsa with cidx := [], poked := [] } }
  | 0x29 => s.releaseSnapshot
  | _ => s

/-- A block or flask reset ends. -/
def State.resetDone (s : State) (page : Nat) : State :=
  if s.getF fdComCtrlReset page = 0 then s
  else
    let ds := (pageFields (blockCode page)).filter resetByBlock
    let s : State := { s with shadow := s.shadow.filter fun x => x.1 / 64 / 4096 ≠ page }
    let s := s.forEach ds fun d s => s.forEach (List.range d.count) fun i s =>
      if fixedField page d i && d.code = 0x07 then s else s.clearF d page i
    s.resetUnit page

/-- BLOCK_RESET_DONE. -/
def execBlockResetDone (page : BitVec 20) (s : State) : Out := .next (s.resetDone page.toNat).finish

/-! ### Register capsules (R384, R390) -/

/-- A session reads a page: a tenant only its context's flasks, the linkage array's page and the scheduler's. -/
def State.mayRead (s : State) (q page : Nat) : Bool :=
  q < 4 || page = pgLsa || page = pgSched || (s.queue q).ctx.elim false fun c => (s.ctx c).flasks.contains page

/-- Words of a page, each read with one load of 4 B. -/
def State.pageWords (s : State) (page : Nat) : (n off : Nat) → State × List Byte
  | 0, _ => (s, [])
  | n + 1, off =>
    let (s, v) := s.pageLoad page off 4
    let (s, bs) := s.pageWords page n (off + 4)
    (s, leBytes 4 v ++ bs)

/-- REG_READ. -/
def execRegRead (q : QueueId) (cap : Capsule) (s : State) : Out :=
  let page := capF cap 0 4
  let off := capF cap 4 2
  let n := capF cap 6 1
  s.capsule q cap { code := 0x0060, feature := 9 }
    (bodyOk cap 7 [(0, 7)] && page < 2 ^ 20 && off % 4 = 0 && 1 ≤ n && n ≤ 48 && off + 4 * n ≤ 4096) fun s =>
    if !s.mayRead q.val page then just s scAccess
    else
      let (s, bs) := s.pageWords page n off
      (s, { body := bs })

/-- A store to REPRO that carries a non-zero CLASS or CANON which the session's features do not cover (R399). -/
def State.reproUnsupported (s : State) (q page off size v : Nat) : Bool :=
  let fs := ((s.queue q).session.map (·.features)).getD 1
  page = pgRepro && (s.written page off size v).any fun w =>
    w.v ≠ 0 && ((w.d = fdReproCtxClass && !bitAt fs 13) || (w.d = fdReproCtxCanon && !bitAt fs 12))

/-- REG_WRITE. -/
def execRegWrite (q : QueueId) (cap : Capsule) (s : State) : Out :=
  let page := capF cap 0 4
  let off := capF cap 4 2
  let size := capF cap 6 1
  let v := capF cap 8 size
  s.capsule q cap { code := 0x0061, feature := 9, mgmt := true }
    (bodyOk cap 16 [(0, 7), (8, 8)] && page < 2 ^ 20 && off < 4096 && pageAccessOk off size) fun s =>
    if s.reproUnsupported q.val page off size v then just (s.trace 107 0xFF q.val scUnsupported) scUnsupported
    else if s.heldByOpen page || page = pgReeve then just (s.trace 107 0xFF q.val scAccess) scAccess
    else
      let (s, cause) := s.tryStore 1 page off size v
      if cause = 0 then just (s.trace 107 0xFF q.val scOK) scOK
      else (s.trace 107 0xFF q.val scRejected, { code := scRejected, body := leBytes 4 (s.getF fdComFieldReject page) })

end Sys2Proof.Machine
end

