-- ==== Sys2Proof/Machine/Flokan.lean ====
section
/-! DEFINITION. Flokan, the serial monitor (R493, R522–R530): tiers, the commands with their arguments as numbers, content as data lines,
and the lines it sends. -/
namespace Sys2Proof.Machine

/-! ### Answers (R525) -/

/-- A final line: 0 OK, else an error name. -/
def State.final (s : State) (name : Nat) (detail : Nat := 0) : State := s.emit (.final name detail)
/-- SYNTAX. -/
def feSyntax : Nat := 1
/-- UNKNOWN. -/
def feUnknown : Nat := 2
/-- RANGE. -/
def feRange : Nat := 3
/-- TIER. -/
def feTier : Nat := 4
/-- STATE. -/
def feState : Nat := 6
/-- BUSY. -/
def feBusy : Nat := 7
/-- ABORTED. -/
def feAborted : Nat := 9
/-- REJECTED. -/
def feRejected : Nat := 10

/-- A refusal whose error name the spec does not give (R288, R365, R483): one of the ten names of R525, a free value. -/
def State.finalFree (s : State) : State := let (v, s) := s.free; s.final (v % 10 + 1)

/-- Data lines, and then OK. -/
def State.show (s : State) (lines : List (List Nat)) : State := (s.emitAll (lines.map .line)).final 0

/-- A byte list as the values of a data line. -/
def byteValues (bs : List Byte) : List Nat := bs.map (·.toNat)

/-! ### Tiers (R493, R528) -/

/-- Committed pairs: the jobs bound to the node. -/
def State.boundPairs (s : State) : List Pair := (s.pairs.map (·.2)).filter fun p => p.state = 2

/-- Some job is bound. -/
def State.jobBound (s : State) : Bool := !s.boundPairs.isEmpty

/-- The node is in RECOVERY (R482). -/
def State.inRecovery (s : State) : Bool := s.getF fdDikeStateRecovery pgDike = 1

/-- The control tier is open. -/
def State.controlOpen (s : State) : Bool :=
  !s.inRecovery && ((!s.jobBound && s.dike.controlUnbound) || (s.dike.tenantEnable && s.boundPairs.all (·.flokan)))

/-- The protect tier, which accepts only tokens, is closed in RECOVERY alone. -/
def State.protectOpen (s : State) : Bool := !s.inRecovery

/-- A command of the control tier. -/
def State.control (s : State) (run : State → State) : State := if s.controlOpen then run s else s.final feTier

/-- A command of the protect tier. -/
def State.protect (s : State) (run : State → State) : State := if s.protectOpen then run s else s.final feTier

/-- A command takes between `lo` and `hi` arguments. -/
def State.arity (s : State) (args : List Nat) (lo hi : Nat) (run : State → State) : State :=
  if lo ≤ args.length && args.length ≤ hi then run s else s.final feSyntax

/-- A condition on the values of the arguments. -/
def State.ranged (s : State) (ok : Bool) (run : State → State) : State := if ok then run s else s.final feRange

/-- The page belongs to units that DEEP powers down (R471), so that Flokan does not reach it (R527). -/
def State.pageDark (s : State) (page : Nat) : Bool :=
  s.inDeep && [0x01, 0x02, 0x03, 0x04, 0x05, 0x06, 0x08, 0x09, 0x0D].contains (blockCode page)

/-- A count that a command leaves out, cut to its range. -/
def defaultCount (command hi : Nat) : Nat := Config.flokanCount command % hi + 1

/-- The argument at a place, else the default count of the command. -/
def countArg (args : List Nat) (i command hi : Nat) : Nat := (args[i]?).getD (defaultCount command hi)

/-! ### Inspect tier (R529, R530) -/

/-- HELP: the numbers of the commands in the order of R530's table, or of the one named. -/
def State.flHelp (args : List Nat) (s : State) : State :=
  s.arity args 0 1 fun s =>
    match args with
    | [] => s.show ((List.range 26).map fun k => [k])
    | k :: _ => if k < 26 then s.show [[k]] else s.final feUnknown

/-- VER. -/
def State.flVer (args : List Nat) (s : State) : State :=
  s.arity args 0 0 fun s =>
    s.show [[Config.romVersion, s.getF fdDikeStateBank pgDike, s.getF fdDikeFwSvn pgDike, s.getF fdDikeStateTrial pgDike,
      s.getF fdNodectlIdentOrderCode pgNodectl, s.getF fdNodectlIdentStepping pgNodectl]]

/-- STATUS. -/
def State.flStatus (args : List Nat) (s : State) : State :=
  s.arity args 0 0 fun s =>
    s.show [[s.getF fdNodectlStatusStage pgNodectl, s.blocked, s.getF fdErraggSpareState pgErragg,
      s.getF fdPowerSupplyState pgPower, s.idleState]]

/-- The rates of R523. -/
def baudRates : List Nat := [115200, 230400, 460800, 921600, 1000000, 1500000, 2000000, 3000000]

/-- BAUD: the final line at the old rate, then the switch. -/
def State.flBaud (args : List Nat) (s : State) : State :=
  s.arity args 1 1 fun s =>
    let n := args.headD 0
    s.ranged (baudRates.contains n) fun s => { (s.final 0) with flokan := { s.flokan with baud := n, fresh := true } }

/-- TIME. -/
def State.flTime (args : List Nat) (s : State) : State :=
  s.arity args 0 0 fun s =>
    s.show [[s.now, s.getF fdFtimeState pgFtime, s.getF fdFtimeDepth pgFtime, s.getF fdFtimeErrorPs pgFtime,
      s.getF fdEthPtpOffset (pgEth 0)]]

/-- ERR: records from a SEQ on, or the newest, newest first. -/
def State.flErr (args : List Nat) (s : State) : State :=
  s.arity args 0 2 fun s =>
    let n := countArg args 1 5 64
    s.ranged (1 ≤ n && n ≤ 64) fun s =>
      let newest := s.getF fdErraggRingNewest pgErragg
      let seqs := match args with
        | [] => (List.range n).map fun i => newest - i
        | seq :: _ => upFrom seq n
      s.show ((seqs.filterMap s.errRecord).map fun r => byteValues r.bytes)

/-- LASTGASP: slot n is the n-th newest record, from 0. -/
def State.flLastgasp (args : List Nat) (s : State) : State :=
  s.arity args 0 1 fun s =>
    let n := args.headD 0
    s.ranged (n < 8) fun s => s.show ((s.power.lastGasp[n]?).toList.map byteValues)

/-- What of a page is open at the inspect tier: the common part to 0x07F while an open context holds the block (R529). -/
def State.inspects (s : State) (page lo hi : Nat) : Bool :=
  !s.heldByOpen page || s.controlOpen || (lo < hi && hi ≤ 0x080)

/-- REGR. -/
def State.flRegr (args : List Nat) (s : State) : State :=
  s.arity args 2 3 fun s =>
    let page := args.headD 0
    let off := args.getD 1 0
    let n := countArg args 2 7 64
    s.ranged (page < 2 ^ 20 && off % 4 = 0 && 1 ≤ n && n ≤ 64 && off + 4 * n ≤ 4096) fun s =>
      if s.pageDark page then s.final feState
      else if !s.inspects page off (off + 4 * n) then s.final feTier
      else
        let (s, bs) := s.pageWords page n off
        s.show [(List.range n).map fun i => leField bs (4 * i) 4]

/-- COUNT. -/
def State.flCount (args : List Nat) (s : State) : State :=
  s.arity args 1 1 fun s =>
    let page := args.headD 0
    s.ranged (page < 2 ^ 20) fun s =>
      if s.pageDark page then s.final feState
      else s.show [(List.range 8).map fun i => s.pageValue page (0x040 + 8 * i) 8]

/-- RING: the newest entries, newest first: time, code, SUBJECT, VALUE. -/
def State.flRing (args : List Nat) (s : State) : State :=
  s.arity args 2 3 fun s =>
    let page := args.headD 0
    let unit := args.getD 1 0
    let n := countArg args 2 9 256
    s.ranged (page < 2 ^ 20 && unit ≤ highestUnit (blockCode page) && 1 ≤ n && n ≤ 256) fun s =>
      if s.pageDark page then s.final feState
      else if !s.inspects page 0x080 0x100 then s.final feTier
      else
        let r := s.ring page unit
        s.show ((List.range (min n (min r.written 256))).map fun i =>
          let e := mapGet {} r.entries ((r.written - 1 - i) % 256)
          [e.time, e.code, e.subject, e.value])

/-- A store of the reeve for a command: the state and what the final line says of it. -/
def State.reeveStore (s : State) (page off size v : Nat) : State × Nat := s.tryStore 0 page off size v

/-- The final line of a store: OK, or REJECTED with the block's `FIELD_REJECT` (R525). -/
def State.finalStore (s : State) (page cause : Nat) : State :=
  if cause = 0 then s.final 0 else s.final feRejected (s.getF fdComFieldReject page)

/-- SNAP: `SNAP.TIME` and `SNAP.DIES` as the arguments give them, and `SNAP.ARM`. -/
def State.flSnap (args : List Nat) (s : State) : State :=
  s.arity args 0 2 fun s =>
    let dies := (args.head?).getD (s.getF fdObsSnapDies pgObs)
    let time := (args[1]?).getD (s.getF fdObsSnapTime pgObs)
    s.ranged (dies < 128 && time < 2 ^ 64) fun s =>
      let (s, c) := s.reeveStore pgObs 0x110 8 time
      if c ≠ 0 then s.finalStore pgObs c
      else
        let (s, c) := s.reeveStore pgObs 0x118 4 (dies + 2 ^ 8)
        s.finalStore pgObs c

/-- SNAPSHOW. -/
def State.flSnapshow (args : List Nat) (s : State) : State :=
  s.arity args 1 2 fun s =>
    let die := args.headD 0
    s.ranged (die < 7) fun s =>
      let rs := (mapGet [] s.snaps die).filter fun r => (args[1]?).elim true fun k => r.kind = k
      s.show (rs.map fun r => [r.page, r.unit, r.kind, r.which, r.occupancy, r.capacity, r.a, r.b, r.subject, r.age])

/-- SNAPREL. -/
def State.flSnaprel (args : List Nat) (s : State) : State :=
  s.arity args 0 0 fun s =>
    let (s, c) := s.reeveStore pgObs 0x118 4 (s.keepWord pgObs 0x118 4 + 2 ^ 10)
    s.finalStore pgObs c

/-- LOG: every record where the control tier is open, else those that are node-wide. -/
def State.flLog (args : List Nat) (s : State) : State :=
  s.arity args 0 2 fun s =>
    let n := countArg args 1 22 256
    s.ranged (1 ≤ n && n ≤ 256) fun s =>
      if !s.boot.firmware then s.final feState
      else
        let last := s.getF fdSchedLogSeq pgSched
        let first := (args.head?).getD ((last + 2 ^ 32 - n) % 2 ^ 32)
        let (_, rs) := s.logFrom (if s.controlOpen then none else some 0xFF) first n
        s.show (rs.map fun r => byteValues r.bytes)

/-! ### Control tier -/

/-- REGW: one store as the reeve. -/
def State.flRegw (args : List Nat) (s : State) : State :=
  s.control fun s => s.arity args 3 4 fun s =>
    let page := args.headD 0
    let off := args.getD 1 0
    let v := args.getD 2 0
    let size := (args[3]?).getD 4
    s.ranged (page < 2 ^ 20 && off < 4096 && pageAccessOk off size && v < 2 ^ (8 * size)) fun s =>
      if s.pageDark page then s.final feState
      else
        let (s, c) := s.reeveStore page off size v
        s.finalStore page c

/-- INJECT. -/
def State.flInject (args : List Nat) (s : State) : State :=
  s.control fun s => s.arity args 2 2 fun s =>
    let page := args.headD 0
    let src := args.getD 1 0
    s.ranged (page < 2 ^ 20 && src < 16) fun s =>
      if s.pageDark page then s.final feState
      else
        let (s, c) := s.reeveStore page 0x02C 4 (src + 2 ^ 8)
        s.finalStore page c

/-- RESET: the final line, then the node reset. -/
def State.flReset (args : List Nat) (s : State) : State :=
  s.control fun s => s.arity args 0 0 fun s => (s.final 0).nodeReset 3

/-- The configuration store changes (R501). -/
def State.putStore (s : State) (x : Store) : State := ({ s with store := x }).addF fdDikeCfgGen pgDike 0 1

/-- PORTMAP: the role of both ports of a pair, while no job is bound; a role is 0–8 or 15 UNUSED. -/
def State.flPortmap (args : List Nat) (s : State) : State :=
  s.control fun s => s.arity args 2 2 fun s =>
    let pair := args.headD 0
    let role := args.getD 1 0
    s.ranged (pair < 9 && (role < 9 || role = 15)) fun s =>
      if s.jobBound then s.finalFree
      else
        let x := s.store
        (s.putStore { x with roles := mapPut 0 x.roles pair (if role = pair then 0 else role + 1) }).final 0

/-- ETHMODE. -/
def State.flEthmode (args : List Nat) (s : State) : State :=
  s.control fun s => s.arity args 2 2 fun s =>
    let e := args.headD 0
    let mode := args.getD 1 0
    s.ranged (e < 2 && mode < 2) fun s =>
      if s.jobBound then s.finalFree
      else
        let x := s.store
        (s.putStore { x with ethMode := putBits x.ethMode e e mode }).final 0

/-- TRACE on|off [pct]: 1 or 0, and `TRACE.PCT`. -/
def State.flTrace (args : List Nat) (s : State) : State :=
  s.control fun s => s.arity args 1 2 fun s =>
    let on := args.headD 0
    let pct := (args[1]?).getD (s.getF fdObsTracePct pgObs)
    s.ranged (on < 2 && 1 ≤ pct && pct ≤ 3) fun s =>
      let (s, c) := s.reeveStore pgObs 0x100 4 (on + pct * 2 ^ 8)
      s.finalStore pgObs c

/-- TDUMP: records by number from the first that the trace wrote; the newest ones where none is named. -/
def State.flTdump (args : List Nat) (s : State) : State :=
  s.control fun s => s.arity args 0 2 fun s =>
    let n := countArg args 1 20 4096
    s.ranged (1 ≤ n && n ≤ 4096) fun s =>
      if !s.boot.trained then s.final feState
      else
        let head := s.getF fdObsNtraceHead pgObs
        let first := (args.head?).getD (head - n)
        let ns := (upFrom first n).filter fun i => i < head && head - i ≤ s.nodeTrace.length
        s.show (ns.filterMap fun i => (s.nodeTrace[head - 1 - i]?).map fun r => byteValues (traceBytes r))

/-! ### Content as data lines (R526) -/

/-- FWLOAD is refused: a job is bound, or the node is in a trial boot (R483). -/
def State.fwBarred (s : State) : Bool := s.jobBound || s.getF fdDikeStateTrial pgDike = 1

/-- FWLOAD starts to take its image. -/
def State.flFwload (args : List Nat) (s : State) : State :=
  if !(s.controlOpen || s.inRecovery) then s.final feTier
  else s.arity args 0 0 fun s =>
    if s.fwBarred then s.finalFree else { s with flokan := { s.flokan with content := 1, data := [] } }

/-- TOKEN starts to take its token. -/
def State.flToken (args : List Nat) (s : State) : State :=
  s.protect fun s => s.arity args 0 0 fun s => { s with flokan := { s.flokan with content := 2, data := [] } }

/-- COMMIT. -/
def State.flCommit (args : List Nat) (s : State) : State :=
  s.protect fun s => s.arity args 2 2 fun s =>
    s.ranged (args.headD 0 < 2 ^ 256 && args.getD 1 0 < 2 ^ 64) fun s => (s.commitDigest (args.headD 0) (args.getD 1 0)).final 0

/-- ABORT. -/
def State.flAbort (args : List Nat) (s : State) : State :=
  s.protect fun s => s.arity args 1 1 fun s =>
    s.ranged (args.headD 0 < 2 ^ 256) fun s => (s.abortDigest (args.headD 0)).final 0

/-- The bank not in use: beside the running one, in RECOVERY beside the preferred one. -/
def State.spareBank (s : State) : Nat :=
  1 - if s.boot.firmware then s.getF fdDikeStateBank pgDike else s.store.preferred

/-- What FWLOAD has taken so far stands in the bank not in use. -/
def State.bankWrite (s : State) (bs : List Byte) : State :=
  { s with store := { s.store with banks := mapIns s.store.banks s.spareBank bs } }

/-- The content command ends, with nothing of the content applied; what a partial FWLOAD wrote stays in its bank. -/
def State.dropContent (s : State) : State :=
  let s := if s.flokan.content = 1 && s.flokan.data ≠ [] then s.bankWrite s.flokan.data else s
  { s with flokan := { s.flokan with content := 0, data := [], aborted := false } }

/-- FWLOAD ends (R483): the image is written; where it passes R481 its bank becomes preferred with TRIAL set. -/
def State.endFwload (s : State) (bs : List Byte) : State :=
  let s := s.bankWrite bs
  if s.fwBarred || !s.bankGood s.spareBank then s.finalFree
  else
    let x := s.store
    (s.putStore { x with preferred := s.spareBank, trial := true }).final 0

/-- TOKEN ends: the token goes to the reeve, and its status is the final line. -/
def State.endToken (s : State) (bs : List Byte) : State :=
  if 8 ≤ s.dike.tokens.length then s.final feBusy
  else
    let s : State := { s with flokan := { s.flokan with awaiting := true } }
    let (job, gen) := tokenPair bs
    (s.trace 108 0xFF 0xFF scOK).launchCopy job gen none .flokan bs

/-- `END`. -/
def State.endContent (s : State) : State :=
  let k := s.flokan.content
  let bs := s.flokan.data
  let s : State := { s with flokan := { s.flokan with content := 0, data := [], aborted := false } }
  if k = 1 then s.endFwload bs else s.endToken bs

/-- The value of a hexadecimal digit. -/
def hexDigit (b : Byte) : Option Nat :=
  let n := b.toNat
  if 0x30 ≤ n && n ≤ 0x39 then some (n - 0x30)
  else if 0x41 ≤ n && n ≤ 0x46 then some (n - 0x37)
  else if 0x61 ≤ n && n ≤ 0x66 then some (n - 0x57)
  else none

/-- Bytes as pairs of hexadecimal digits. -/
def hexBytes : List Byte → Option (List Byte)
  | [] => some []
  | [_] => none
  | a :: b :: l =>
    match hexDigit a, hexDigit b, hexBytes l with
    | some x, some y, some r => some (BitVec.ofNat 8 (16 * x + y) :: r)
    | _, _, _ => none

/-- The line `END`. -/
def endLine : List Byte := [0x45, 0x4E, 0x44]

/-- A line while a command takes content. -/
def State.contentLine (s : State) (line : List Byte) : State :=
  if s.flokan.aborted then s.dropContent.final feAborted
  else if line = endLine then s.endContent
  else
    match hexBytes line with
    | some bs =>
      if bs.length ≤ 64 then { (s.emit .plus) with flokan := { s.flokan with data := s.flokan.data ++ bs } }
      else s.dropContent.final feSyntax
    | none => s.dropContent.final feSyntax

/-! ### Lines (R524–R526) -/

/-- A command by its place in R530's table; any other line names no command. -/
def State.runLine (s : State) (k : Nat) (args : List Nat) : State :=
  match k with
  | 0 => s.flHelp args
  | 1 => s.flVer args
  | 2 => s.flStatus args
  | 3 => s.flBaud args
  | 4 => s.flTime args
  | 5 => s.flErr args
  | 6 => s.flLastgasp args
  | 7 => s.flRegr args
  | 8 => s.flCount args
  | 9 => s.flRing args
  | 10 => s.flSnap args
  | 11 => s.flSnapshow args
  | 12 => s.flSnaprel args
  | 13 => s.flRegw args
  | 14 => s.flInject args
  | 15 => s.flReset args
  | 16 => s.flPortmap args
  | 17 => s.flEthmode args
  | 18 => s.flFwload args
  | 19 => s.flTrace args
  | 20 => s.flTdump args
  | 22 => s.flLog args
  | 23 => s.flToken args
  | 24 => s.flCommit args
  | 25 => s.flAbort args
  | _ => s.final feUnknown

/-- A complete line that names a command: nothing while the island is off; a line of content where a command takes content, and none of
them is hexadecimal; held while a TOKEN is with the reeve. -/
def State.line (s : State) (k : Nat) (args : List Nat) : State :=
  if s.power.off then s
  else
    let s : State := { s with flokan := { s.flokan with fresh := false } }
    if s.flokan.content ≠ 0 then s.dropContent.final (if s.flokan.aborted then feAborted else feSyntax)
    else if s.flokan.awaiting then { s with flokan := { s.flokan with lines := s.flokan.lines ++ [(k, args)] } }
    else s.runLine k args

/-- Held lines run in order once the command before them has ended; at most `fuel`. -/
def State.runHeld (s : State) : Nat → State
  | 0 => s
  | fuel + 1 =>
    match s.flokan.lines with
    | [] => s
    | (k, args) :: rest =>
      if s.flokan.awaiting then s
      else (State.line { s with flokan := { s.flokan with lines := rest } } k args).runHeld fuel

/-- TOKEN_CHECK: the reeve checks the token handed to it first; lines of Flokan that waited for it then run. -/
def execTokenCheck (s : State) : Out :=
  match s.dike.tokens with
  | [] => .next s
  | (from', bs) :: rest =>
    let s := State.checkToken { s with dike := { s.dike with tokens := rest } } from' bs
    .next (s.runHeld s.flokan.lines.length).finish

/-- FLOKAN_HELP. -/
def execFlokanHelp (args : List Nat) (s : State) : Out := .next (s.line 0 args)
/-- FLOKAN_VER. -/
def execFlokanVer (args : List Nat) (s : State) : Out := .next (s.line 1 args)
/-- FLOKAN_STATUS. -/
def execFlokanStatus (args : List Nat) (s : State) : Out := .next (s.line 2 args)
/-- FLOKAN_BAUD. -/
def execFlokanBaud (args : List Nat) (s : State) : Out := .next (s.line 3 args)
/-- FLOKAN_TIME. -/
def execFlokanTime (args : List Nat) (s : State) : Out := .next (s.line 4 args)
/-- FLOKAN_ERR. -/
def execFlokanErr (args : List Nat) (s : State) : Out := .next (s.line 5 args)
/-- FLOKAN_LASTGASP. -/
def execFlokanLastgasp (args : List Nat) (s : State) : Out := .next (s.line 6 args)
/-- FLOKAN_REGR. -/
def execFlokanRegr (args : List Nat) (s : State) : Out := .next (s.line 7 args)
/-- FLOKAN_COUNT. -/
def execFlokanCount (args : List Nat) (s : State) : Out := .next (s.line 8 args)
/-- FLOKAN_RING. -/
def execFlokanRing (args : List Nat) (s : State) : Out := .next (s.line 9 args)
/-- FLOKAN_SNAP. -/
def execFlokanSnap (args : List Nat) (s : State) : Out := .next (s.line 10 args)
/-- FLOKAN_SNAPSHOW. -/
def execFlokanSnapshow (args : List Nat) (s : State) : Out := .next (s.line 11 args)
/-- FLOKAN_SNAPREL. -/
def execFlokanSnaprel (args : List Nat) (s : State) : Out := .next (s.line 12 args)
/-- FLOKAN_REGW. -/
def execFlokanRegw (args : List Nat) (s : State) : Out := .next (s.line 13 args).finish
/-- FLOKAN_INJECT. -/
def execFlokanInject (args : List Nat) (s : State) : Out := .next (s.line 14 args).finish
/-- FLOKAN_RESET. -/
def execFlokanReset (args : List Nat) (s : State) : Out := .next (s.line 15 args)
/-- PORTMAP. -/
def execPortmap (args : List Nat) (s : State) : Out := .next (s.line 16 args)
/-- ETHMODE. -/
def execEthmode (args : List Nat) (s : State) : Out := .next (s.line 17 args)
/-- FWLOAD. -/
def execFwload (args : List Nat) (s : State) : Out := .next (s.line 18 args)
/-- FLOKAN_TRACE. -/
def execFlokanTrace (args : List Nat) (s : State) : Out := .next (s.line 19 args)
/-- FLOKAN_TDUMP. -/
def execFlokanTdump (args : List Nat) (s : State) : Out := .next (s.line 20 args)
/-- FLOKAN_LOG. -/
def execFlokanLog (args : List Nat) (s : State) : Out := .next (s.line 22 args)
/-- FLOKAN_TOKEN. -/
def execFlokanToken (args : List Nat) (s : State) : Out := .next (s.line 23 args)
/-- FLOKAN_COMMIT. -/
def execFlokanCommit (args : List Nat) (s : State) : Out := .next (s.line 24 args).finish
/-- FLOKAN_ABORT. -/
def execFlokanAbort (args : List Nat) (s : State) : Out := .next (s.line 25 args).finish

/-- FLOKAN_DATA_LINE: content where a command takes it; an empty line is ignored, and outside content the line names no command. -/
def execFlokanDataLine (line : List Byte) (s : State) : Out :=
  if s.power.off || line = [] then .next s
  else if s.flokan.content = 0 then .next (s.line 26 [])
  else .next (State.contentLine { s with flokan := { s.flokan with fresh := false } } line).finish

/-- FLOKAN_ABORT_BYTE: a running command ends at its next line. -/
def execFlokanAbortByte (s : State) : Out :=
  .next (if !s.power.off && (s.flokan.content ≠ 0 || s.flokan.awaiting) then { s with flokan := { s.flokan with aborted := true } } else s)

/-- BAUD_REVERT. -/
def execBaudRevert (s : State) : Out :=
  .next (if s.flokan.fresh then { s with flokan := { s.flokan with baud := 115200, fresh := false } } else s)

end Sys2Proof.Machine
end

