-- ==== Sys2Proof/Machine/Dispatch.lean ====
section
/-! DEFINITION. The dispatch: one arm per command. -/
namespace Sys2Proof.Machine

/-- The effect of a command on everything but the queue of waiting commands. -/
def exec (i : Instr) (s : State) : Host.Outcome State Fault Refusal :=
  match i with
  | .registerWrite a page off size v => Sys2Proof.Machine.execRegisterWrite a page off size v s
  | .rcRead a page off size => Sys2Proof.Machine.execRcRead a page off size s
  | .commitGo a page => Sys2Proof.Machine.execCommitGo a page s
  | .ctrlQuiesce a page on => Sys2Proof.Machine.execCtrlQuiesce a page on s
  | .ctrlEnable a page on => Sys2Proof.Machine.execCtrlEnable a page on s
  | .blockReset a page => Sys2Proof.Machine.execBlockReset a page s
  | .blockResetDone page => Sys2Proof.Machine.execBlockResetDone page s
  | .csrWrite c csr v => Sys2Proof.Machine.execCsrWrite c csr v s
  | .instructionFetch t addr => Sys2Proof.Machine.execInstructionFetch t addr s
  | .coreLoad c addr size signed rd => Sys2Proof.Machine.execCoreLoad c addr size signed rd s
  | .coreStore c addr size v => Sys2Proof.Machine.execCoreStore c addr size v s
  | .coreAmo c addr op wide v rd => Sys2Proof.Machine.execCoreAmo c addr op wide v rd s
  | .lr c addr wide rd => Sys2Proof.Machine.execLr c addr wide rd s
  | .sc c addr wide v rd => Sys2Proof.Machine.execSc c addr wide v rd s
  | .fence k => Sys2Proof.Machine.execFence k s
  | .ecall t a0 => Sys2Proof.Machine.execEcall t a0 s
  | .hartInterrupt c cause => Sys2Proof.Machine.execHartInterrupt c cause s
  | .vectorInstruction k w vl faultAt cause => Sys2Proof.Machine.execVectorInstruction k w vl faultAt cause s
  | .vectorGate k => Sys2Proof.Machine.execVectorGate k s
  | .vectorWakeDone k => Sys2Proof.Machine.execVectorWakeDone k s
  | .coreRepairStart k => Sys2Proof.Machine.execCoreRepairStart k s
  | .coreRepairEnd k => Sys2Proof.Machine.execCoreRepairEnd k s
  | .imemLoadGo a f v => Sys2Proof.Machine.execImemLoadGo a f v s
  | .imemLoadDone f => Sys2Proof.Machine.execImemLoadDone f s
  | .imemLoadPoison f => Sys2Proof.Machine.execImemLoadPoison f s
  | .tileStoreScrub t word => Sys2Proof.Machine.execTileStoreScrub t word s
  | .tileRemapStart f t => Sys2Proof.Machine.execTileRemapStart f t s
  | .tileRemapEnd f => Sys2Proof.Machine.execTileRemapEnd f s
  | .flaskSleep a f => Sys2Proof.Machine.execFlaskSleep a f s
  | .sleepEntryDone f => Sys2Proof.Machine.execSleepEntryDone f s
  | .flaskWake a f => Sys2Proof.Machine.execFlaskWake a f s
  | .demandWake f => Sys2Proof.Machine.execDemandWake f s
  | .flaskWakeDone f => Sys2Proof.Machine.execFlaskWakeDone f s
  | .unitGate t u => Sys2Proof.Machine.execUnitGate t u s
  | .unitWakeDone t u => Sys2Proof.Machine.execUnitWakeDone t u s
  | .gateHoldWrite a f v => Sys2Proof.Machine.execGateHoldWrite a f v s
  | .mxMma t w x1 x2 => Sys2Proof.Machine.execMxMma t w x1 x2 s
  | .mxWmma t w x1 x2 => Sys2Proof.Machine.execMxWmma t w x1 x2 s
  | .mxLdacc t w x1 x2 => Sys2Proof.Machine.execMxLdacc t w x1 x2 s
  | .mxStacc t w x1 x2 => Sys2Proof.Machine.execMxStacc t w x1 x2 s
  | .mxZero t w x1 x2 => Sys2Proof.Machine.execMxZero t w x1 x2 s
  | .mxRecomb t w x1 x2 => Sys2Proof.Machine.execMxRecomb t w x1 x2 s
  | .mxSlice t w x1 x2 => Sys2Proof.Machine.execMxSlice t w x1 x2 s
  | .mxWait t w x1 x2 => Sys2Proof.Machine.execMxWait t w x1 x2 s
  | .mxEngineStart t e => Sys2Proof.Machine.execMxEngineStart t e s
  | .mxEngineDone t e => Sys2Proof.Machine.execMxEngineDone t e s
  | .mxStatusRead t stat rd => Sys2Proof.Machine.execMxStatusRead t stat rd s
  | .svAdd t w => Sys2Proof.Machine.execSvAdd t w s
  | .svSub t w => Sys2Proof.Machine.execSvSub t w s
  | .svMul t w => Sys2Proof.Machine.execSvMul t w s
  | .svFma t w => Sys2Proof.Machine.execSvFma t w s
  | .svDiv t w => Sys2Proof.Machine.execSvDiv t w s
  | .svSqrt t w => Sys2Proof.Machine.execSvSqrt t w s
  | .svMin t w => Sys2Proof.Machine.execSvMin t w s
  | .svMax t w => Sys2Proof.Machine.execSvMax t w s
  | .svAbs t w => Sys2Proof.Machine.execSvAbs t w s
  | .svNeg t w => Sys2Proof.Machine.execSvNeg t w s
  | .svMov t w => Sys2Proof.Machine.execSvMov t w s
  | .svAnd t w => Sys2Proof.Machine.execSvAnd t w s
  | .svOr t w => Sys2Proof.Machine.execSvOr t w s
  | .svXor t w => Sys2Proof.Machine.execSvXor t w s
  | .svAndn t w => Sys2Proof.Machine.execSvAndn t w s
  | .svNot t w => Sys2Proof.Machine.execSvNot t w s
  | .svSll t w => Sys2Proof.Machine.execSvSll t w s
  | .svSrl t w => Sys2Proof.Machine.execSvSrl t w s
  | .svSra t w => Sys2Proof.Machine.execSvSra t w s
  | .svEq t w => Sys2Proof.Machine.execSvEq t w s
  | .svNe t w => Sys2Proof.Machine.execSvNe t w s
  | .svLt t w => Sys2Proof.Machine.execSvLt t w s
  | .svLe t w => Sys2Proof.Machine.execSvLe t w s
  | .svUnord t w => Sys2Proof.Machine.execSvUnord t w s
  | .svSel t w => Sys2Proof.Machine.execSvSel t w s
  | .svExp t w => Sys2Proof.Machine.execSvExp t w s
  | .svLog t w => Sys2Proof.Machine.execSvLog t w s
  | .svRecip t w => Sys2Proof.Machine.execSvRecip t w s
  | .svRsqrt t w => Sys2Proof.Machine.execSvRsqrt t w s
  | .svRsum t w => Sys2Proof.Machine.execSvRsum t w s
  | .svRmin t w => Sys2Proof.Machine.execSvRmin t w s
  | .svRmax t w => Sys2Proof.Machine.execSvRmax t w s
  | .svRexp t w => Sys2Proof.Machine.execSvRexp t w s
  | .svSmx t w => Sys2Proof.Machine.execSvSmx t w s
  | .svCausal t w => Sys2Proof.Machine.execSvCausal t w s
  | .svWindow t w => Sys2Proof.Machine.execSvWindow t w s
  | .svLimit t w => Sys2Proof.Machine.execSvLimit t w s
  | .svPosid t w => Sys2Proof.Machine.execSvPosid t w s
  | .svPerm t w => Sys2Proof.Machine.execSvPerm t w s
  | .svShuf t w => Sys2Proof.Machine.execSvShuf t w s
  | .svPack t w => Sys2Proof.Machine.execSvPack t w s
  | .svUnpke t w => Sys2Proof.Machine.execSvUnpke t w s
  | .svUnpko t w => Sys2Proof.Machine.execSvUnpko t w s
  | .svCvt t w => Sys2Proof.Machine.execSvCvt t w s
  | .svFcvt t w => Sys2Proof.Machine.execSvFcvt t w s
  | .svMxpack t w => Sys2Proof.Machine.execSvMxpack t w s
  | .svMxunpack t w => Sys2Proof.Machine.execSvMxunpack t w s
  | .svXprebase t w => Sys2Proof.Machine.execSvXprebase t w s
  | .svSetvl t w x1 => Sys2Proof.Machine.execSvSetvl t w x1 s
  | .svSetvlc t w => Sys2Proof.Machine.execSvSetvlc t w s
  | .svAdv t w => Sys2Proof.Machine.execSvAdv t w s
  | .svAdv1 t w => Sys2Proof.Machine.execSvAdv1 t w s
  | .svFwait t w => Sys2Proof.Machine.execSvFwait t w s
  | .fcuRequestDone t => Sys2Proof.Machine.execFcuRequestDone t s
  | .svStatusRead t stat rd => Sys2Proof.Machine.execSvStatusRead t stat rd s
  | .syPost c w x1 x2 => Sys2Proof.Machine.execSyPost c w x1 x2 s
  | .syTake c w x1 x2 => Sys2Proof.Machine.execSyTake c w x1 x2 s
  | .syWait c w x1 x2 => Sys2Proof.Machine.execSyWait c w x1 x2 s
  | .syRead c w x1 x2 => Sys2Proof.Machine.execSyRead c w x1 x2 s
  | .syInit c w x1 x2 => Sys2Proof.Machine.execSyInit c w x1 x2 s
  | .syWaitRetry c => Sys2Proof.Machine.execSyWaitRetry c s
  | .syWaitTimeout c => Sys2Proof.Machine.execSyWaitTimeout c s
  | .syArrive c w x1 x2 => Sys2Proof.Machine.execSyArrive c w x1 x2 s
  | .syBwait c w x1 x2 => Sys2Proof.Machine.execSyBwait c w x1 x2 s
  | .syPush c w x1 x2 => Sys2Proof.Machine.execSyPush c w x1 x2 s
  | .syPop c w x1 x2 => Sys2Proof.Machine.execSyPop c w x1 x2 s
  | .sySteal c w x1 x2 => Sys2Proof.Machine.execSySteal c w x1 x2 s
  | .syWarm c w x1 x2 => Sys2Proof.Machine.execSyWarm c w x1 x2 s
  | .syWdis c w x1 x2 => Sys2Proof.Machine.execSyWdis c w x1 x2 s
  | .hbmRead src off len => Sys2Proof.Machine.execHbmRead src off len s
  | .hbmWrite src off data poisoned => Sys2Proof.Machine.execHbmWrite src off data poisoned s
  | .hbmAtomic src off op ty mask operand fetch => Sys2Proof.Machine.execHbmAtomic src off op ty mask operand fetch s
  | .mergerDrain site line => Sys2Proof.Machine.execMergerDrain site line s
  | .sluiceGrant site p idle => Sys2Proof.Machine.execSluiceGrant site p idle s
  | .sluiceWindow site => Sys2Proof.Machine.execSluiceWindow site s
  | .hbmSelfRefresh => Sys2Proof.Machine.execHbmSelfRefresh s
  | .hbmPatrolScrub site off found => Sys2Proof.Machine.execHbmPatrolScrub site off found s
  | .hourlyCountRoll => Sys2Proof.Machine.execHourlyCountRoll s
  | .hbmTempReading site reading => Sys2Proof.Machine.execHbmTempReading site reading s
  | .thermalHardTimeout u => Sys2Proof.Machine.execThermalHardTimeout u s
  | .evacRequest site ch => Sys2Proof.Machine.execEvacRequest site ch s
  | .evacStart site ch => Sys2Proof.Machine.execEvacStart site ch s
  | .evacCopyDone site ch => Sys2Proof.Machine.execEvacCopyDone site ch s
  | .lsaPidxWrite src q v => Sys2Proof.Machine.execLsaPidxWrite src q v s
  | .lsaProblemStart e => Sys2Proof.Machine.execLsaProblemStart e s
  | .lsaIterationEnd e => Sys2Proof.Machine.execLsaIterationEnd e s
  | .lsaProblemEnd e => Sys2Proof.Machine.execLsaProblemEnd e s
  | .lsaBatchComplete q => Sys2Proof.Machine.execLsaBatchComplete q s
  | .lsaHardDeadline q => Sys2Proof.Machine.execLsaHardDeadline q s
  | .lsaGate => Sys2Proof.Machine.execLsaGate s
  | .lsaWakeDone => Sys2Proof.Machine.execLsaWakeDone s
  | .lsaEngineRemap e => Sys2Proof.Machine.execLsaEngineRemap e s
  | .stepRelease c => Sys2Proof.Machine.execStepRelease c s
  | .prewake c n => Sys2Proof.Machine.execPrewake c n s
  | .tileNodeStart c n => Sys2Proof.Machine.execTileNodeStart c n s
  | .doneWordWrite c n v => Sys2Proof.Machine.execDoneWordWrite c n v s
  | .nodeEnd c n => Sys2Proof.Machine.execNodeEnd c n s
  | .voteResult c vote => Sys2Proof.Machine.execVoteResult c vote s
  | .stepHardDeadline c => Sys2Proof.Machine.execStepHardDeadline c s
  | .voteLost c => Sys2Proof.Machine.execVoteLost c s
  | .flitReceive p flit => Sys2Proof.Machine.execFlitReceive p flit s
  | .flitSend p => Sys2Proof.Machine.execFlitSend p s
  | .retryEscalation p dir circuits => Sys2Proof.Machine.execRetryEscalation p dir circuits s
  | .retrainDone p ok => Sys2Proof.Machine.execRetrainDone p ok s
  | .swap p dir circuits => Sys2Proof.Machine.execSwap p dir circuits s
  | .swapDone p dir => Sys2Proof.Machine.execSwapDone p dir s
  | .laneErrorWindow p corrected => Sys2Proof.Machine.execLaneErrorWindow p corrected s
  | .swapGo a p v => Sys2Proof.Machine.execSwapGo a p v s
  | .combFail p source => Sys2Proof.Machine.execCombFail p source s
  | .combSpareLock p => Sys2Proof.Machine.execCombSpareLock p s
  | .portLaserLock p => Sys2Proof.Machine.execPortLaserLock p s
  | .portTrained p => Sys2Proof.Machine.execPortTrained p s
  | .identityExchange p node port role => Sys2Proof.Machine.execIdentityExchange p node port role s
  | .portRetryTimer p => Sys2Proof.Machine.execPortRetryTimer p s
  | .delayMeasured p ps => Sys2Proof.Machine.execDelayMeasured p ps s
  | .read d pk => Sys2Proof.Machine.execRead d pk s
  | .write d pk => Sys2Proof.Machine.execWrite d pk s
  | .atomic d pk => Sys2Proof.Machine.execAtomic d pk s
  | .atomicF d pk => Sys2Proof.Machine.execAtomicF d pk s
  | .msg d pk => Sys2Proof.Machine.execMsg d pk s
  | .rupdate d pk => Sys2Proof.Machine.execRupdate d pk s
  | .lowmark d pk => Sys2Proof.Machine.execLowmark d pk s
  | .respData d pk => Sys2Proof.Machine.execRespData d pk s
  | .respAck d pk => Sys2Proof.Machine.execRespAck d pk s
  | .packetForward p pk => Sys2Proof.Machine.execPacketForward p pk s
  | .lowmarkSend d dst vc => Sys2Proof.Machine.execLowmarkSend d dst vc s
  | .busyResend d slot => Sys2Proof.Machine.execBusyResend d slot s
  | .completionTimeout d slot => Sys2Proof.Machine.execCompletionTimeout d slot s
  | .getS pk => Sys2Proof.Machine.execGetS pk s
  | .getM pk => Sys2Proof.Machine.execGetM pk s
  | .upgrade pk => Sys2Proof.Machine.execUpgrade pk s
  | .putM pk => Sys2Proof.Machine.execPutM pk s
  | .putC pk => Sys2Proof.Machine.execPutC pk s
  | .inv pk => Sys2Proof.Machine.execInv pk s
  | .recall pk => Sys2Proof.Machine.execRecall pk s
  | .downgrade pk => Sys2Proof.Machine.execDowngrade pk s
  | .dataS pk => Sys2Proof.Machine.execDataS pk s
  | .dataE pk => Sys2Proof.Machine.execDataE pk s
  | .ackE pk => Sys2Proof.Machine.execAckE pk s
  | .ack pk => Sys2Proof.Machine.execAck pk s
  | .invAck pk => Sys2Proof.Machine.execInvAck pk s
  | .recallData pk => Sys2Proof.Machine.execRecallData pk s
  | .retry pk => Sys2Proof.Machine.execRetry pk s
  | .cohRetryResend slot => Sys2Proof.Machine.execCohRetryResend slot s
  | .cohTimeout slot => Sys2Proof.Machine.execCohTimeout slot s
  | .collectiveStart c n => Sys2Proof.Machine.execCollectiveStart c n s
  | .collUp d pk => Sys2Proof.Machine.execCollUp d pk s
  | .collDown d pk => Sys2Proof.Machine.execCollDown d pk s
  | .quickUp d pk => Sys2Proof.Machine.execQuickUp d pk s
  | .quickDown d pk => Sys2Proof.Machine.execQuickDown d pk s
  | .collTimeout c n => Sys2Proof.Machine.execCollTimeout c n s
  | .timeSend => Sys2Proof.Machine.execTimeSend s
  | .timePacket p ttx sub depth rxSub => Sys2Proof.Machine.execTimePacket p ttx sub depth rxSub s
  | .ppsEdge highNs => Sys2Proof.Machine.execPpsEdge highNs s
  | .relArm a k v => Sys2Proof.Machine.execRelArm a k v s
  | .comparatorFire k => Sys2Proof.Machine.execComparatorFire k s
  | .ethLinkChange e lp up => Sys2Proof.Machine.execEthLinkChange e lp up s
  | .neighbourQuery e lp v6 addr => Sys2Proof.Machine.execNeighbourQuery e lp v6 addr s
  | .icmpEcho e lp addr data => Sys2Proof.Machine.execIcmpEcho e lp addr data s
  | .ptpEvent e offset rate => Sys2Proof.Machine.execPtpEvent e offset rate s
  | .pfcPause e lp prio quanta => Sys2Proof.Machine.execPfcPause e lp prio quanta s
  | .roceSend qp data ce => Sys2Proof.Machine.execRoceSend qp data ce s
  | .rdmaWrite qp va rkey data imm ce => Sys2Proof.Machine.execRdmaWrite qp va rkey data imm ce s
  | .rdmaRead qp va rkey len ce => Sys2Proof.Machine.execRdmaRead qp va rkey len ce s
  | .roceAck qp kind => Sys2Proof.Machine.execRoceAck qp kind s
  | .roceAckTimeout qp => Sys2Proof.Machine.execRoceAckTimeout qp s
  | .cnpReceive qp => Sys2Proof.Machine.execCnpReceive qp s
  | .ccPeriod qp => Sys2Proof.Machine.execCcPeriod qp s
  | .cmReq e lp gid remote priv => Sys2Proof.Machine.execCmReq e lp gid remote priv s
  | .cmDreq qp => Sys2Proof.Machine.execCmDreq qp s
  | .sessionOpen q cap => Sys2Proof.Machine.execSessionOpen q cap s
  | .sessionClose q cap => Sys2Proof.Machine.execSessionClose q cap s
  | .nop q cap => Sys2Proof.Machine.execNop q cap s
  | .ctxOpen q cap => Sys2Proof.Machine.execCtxOpen q cap s
  | .ctxClose q cap => Sys2Proof.Machine.execCtxClose q cap s
  | .allot q cap => Sys2Proof.Machine.execAllot q cap s
  | .queueBind q cap => Sys2Proof.Machine.execQueueBind q cap s
  | .statusQuery q cap => Sys2Proof.Machine.execStatusQuery q cap s
  | .graphLoad q cap => Sys2Proof.Machine.execGraphLoad q cap s
  | .stepStart q cap => Sys2Proof.Machine.execStepStart q cap s
  | .stepStop q cap => Sys2Proof.Machine.execStepStop q cap s
  | .ckptRequest q cap => Sys2Proof.Machine.execCkptRequest q cap s
  | .restore q cap => Sys2Proof.Machine.execRestore q cap s
  | .qpConnect q cap => Sys2Proof.Machine.execQpConnect q cap s
  | .qpClose q cap => Sys2Proof.Machine.execQpClose q cap s
  | .mrReg q cap => Sys2Proof.Machine.execMrReg q cap s
  | .mrDereg q cap => Sys2Proof.Machine.execMrDereg q cap s
  | .traceSet q cap => Sys2Proof.Machine.execTraceSet q cap s
  | .logRead q cap => Sys2Proof.Machine.execLogRead q cap s
  | .regRead q cap => Sys2Proof.Machine.execRegRead q cap s
  | .regWrite q cap => Sys2Proof.Machine.execRegWrite q cap s
  | .token q cap => Sys2Proof.Machine.execToken q cap s
  | .nodeReset q cap => Sys2Proof.Machine.execNodeReset q cap s
  | .tokenCheck => Sys2Proof.Machine.execTokenCheck s
  | .jobScrubDone job => Sys2Proof.Machine.execJobScrubDone job s
  | .shadowApply slot => Sys2Proof.Machine.execShadowApply slot s
  | .shadowTtlExpiry slot => Sys2Proof.Machine.execShadowTtlExpiry slot s
  | .nonceExpiry nonce => Sys2Proof.Machine.execNonceExpiry nonce s
  | .stagedBlobDiscard root => Sys2Proof.Machine.execStagedBlobDiscard root s
  | .getVersion q msg => Sys2Proof.Machine.execGetVersion q msg s
  | .getCapabilities q msg => Sys2Proof.Machine.execGetCapabilities q msg s
  | .negotiateAlgorithms q msg => Sys2Proof.Machine.execNegotiateAlgorithms q msg s
  | .getDigests q msg => Sys2Proof.Machine.execGetDigests q msg s
  | .getCertificate q msg => Sys2Proof.Machine.execGetCertificate q msg s
  | .challenge q msg => Sys2Proof.Machine.execChallenge q msg s
  | .getMeasurements q msg => Sys2Proof.Machine.execGetMeasurements q msg s
  | .keyExchange q msg => Sys2Proof.Machine.execKeyExchange q msg s
  | .finish q msg => Sys2Proof.Machine.execFinish q msg s
  | .heartbeat q msg => Sys2Proof.Machine.execHeartbeat q msg s
  | .keyUpdate q msg => Sys2Proof.Machine.execKeyUpdate q msg s
  | .endSession q msg => Sys2Proof.Machine.execEndSession q msg s
  | .keyLoad q msg => Sys2Proof.Machine.execKeyLoad q msg s
  | .keyClear q msg => Sys2Proof.Machine.execKeyClear q msg s
  | .ckptSweepRead c => Sys2Proof.Machine.execCkptSweepRead c s
  | .ckptPromotionDone c granule => Sys2Proof.Machine.execCkptPromotionDone c granule s
  | .ckptStageOneEnd c => Sys2Proof.Machine.execCkptStageOneEnd c s
  | .ckptDrainStart c slot => Sys2Proof.Machine.execCkptDrainStart c slot s
  | .ckptDrainEnd c ok => Sys2Proof.Machine.execCkptDrainEnd c ok s
  | .restoreCandidates c records => Sys2Proof.Machine.execRestoreCandidates c records s
  | .restoreDone c => Sys2Proof.Machine.execRestoreDone c s
  | .errorDetect page source info => Sys2Proof.Machine.execErrorDetect page source info s
  | .handlerStart => Sys2Proof.Machine.execHandlerStart s
  | .handlerEnd inHandler => Sys2Proof.Machine.execHandlerEnd inHandler s
  | .errInjectGo a page v => Sys2Proof.Machine.execErrInjectGo a page v s
  | .firmwareWatchdog => Sys2Proof.Machine.execFirmwareWatchdog s
  | .repairStart forced => Sys2Proof.Machine.execRepairStart forced s
  | .rowRepair site ch lane left => Sys2Proof.Machine.execRowRepair site ch lane left s
  | .vinSample centivolts => Sys2Proof.Machine.execVinSample centivolts s
  | .vbankLow centivolts => Sys2Proof.Machine.execVbankLow centivolts s
  | .inputOvervoltage centivolts => Sys2Proof.Machine.execInputOvervoltage centivolts s
  | .brownoutExit => Sys2Proof.Machine.execBrownoutExit s
  | .lastGaspWritten => Sys2Proof.Machine.execLastGaspWritten s
  | .powerSample watts => Sys2Proof.Machine.execPowerSample watts s
  | .prebankRaise c => Sys2Proof.Machine.execPrebankRaise c s
  | .deep a => Sys2Proof.Machine.execDeep a s
  | .idleWake a => Sys2Proof.Machine.execIdleWake a s
  | .deepExitDone => Sys2Proof.Machine.execDeepExitDone s
  | .dieTempReading d reading => Sys2Proof.Machine.execDieTempReading d reading s
  | .refCompare ppb => Sys2Proof.Machine.execRefCompare ppb s
  | .refLost => Sys2Proof.Machine.execRefLost s
  | .powerUp straps vinOk => Sys2Proof.Machine.execPowerUp straps vinOk s
  | .coldReset lowUs => Sys2Proof.Machine.execColdReset lowUs s
  | .resetReqN lowNs => Sys2Proof.Machine.execResetReqN lowNs s
  | .bootVerifyDone => Sys2Proof.Machine.execBootVerifyDone s
  | .positionQueryTimer => Sys2Proof.Machine.execPositionQueryTimer s
  | .hbmTrainingDone failed => Sys2Proof.Machine.execHbmTrainingDone failed s
  | .selfTestDone tiles cores engines => Sys2Proof.Machine.execSelfTestDone tiles cores engines s
  | .nodeReady => Sys2Proof.Machine.execNodeReady s
  | .trialBootTimeout => Sys2Proof.Machine.execTrialBootTimeout s
  | .stage src payload => Sys2Proof.Machine.execStage src payload s
  | .launch src payload => Sys2Proof.Machine.execLaunch src payload s
  | .count src payload => Sys2Proof.Machine.execCount src payload s
  | .commit src payload => Sys2Proof.Machine.execCommit src payload s
  | .abort src payload => Sys2Proof.Machine.execAbort src payload s
  | .retired src payload => Sys2Proof.Machine.execRetired src payload s
  | .jobFatal src payload => Sys2Proof.Machine.execJobFatal src payload s
  | .launchAbortTimer => Sys2Proof.Machine.execLaunchAbortTimer s
  | .flokanHelp args => Sys2Proof.Machine.execFlokanHelp args s
  | .flokanVer args => Sys2Proof.Machine.execFlokanVer args s
  | .flokanStatus args => Sys2Proof.Machine.execFlokanStatus args s
  | .flokanBaud args => Sys2Proof.Machine.execFlokanBaud args s
  | .baudRevert => Sys2Proof.Machine.execBaudRevert s
  | .flokanTime args => Sys2Proof.Machine.execFlokanTime args s
  | .flokanErr args => Sys2Proof.Machine.execFlokanErr args s
  | .flokanLastgasp args => Sys2Proof.Machine.execFlokanLastgasp args s
  | .flokanRegr args => Sys2Proof.Machine.execFlokanRegr args s
  | .flokanCount args => Sys2Proof.Machine.execFlokanCount args s
  | .flokanRing args => Sys2Proof.Machine.execFlokanRing args s
  | .flokanSnap args => Sys2Proof.Machine.execFlokanSnap args s
  | .flokanSnapshow args => Sys2Proof.Machine.execFlokanSnapshow args s
  | .flokanSnaprel args => Sys2Proof.Machine.execFlokanSnaprel args s
  | .flokanRegw args => Sys2Proof.Machine.execFlokanRegw args s
  | .flokanInject args => Sys2Proof.Machine.execFlokanInject args s
  | .flokanReset args => Sys2Proof.Machine.execFlokanReset args s
  | .portmap args => Sys2Proof.Machine.execPortmap args s
  | .ethmode args => Sys2Proof.Machine.execEthmode args s
  | .fwload args => Sys2Proof.Machine.execFwload args s
  | .flokanTrace args => Sys2Proof.Machine.execFlokanTrace args s
  | .flokanTdump args => Sys2Proof.Machine.execFlokanTdump args s
  | .flokanLog args => Sys2Proof.Machine.execFlokanLog args s
  | .flokanToken args => Sys2Proof.Machine.execFlokanToken args s
  | .flokanCommit args => Sys2Proof.Machine.execFlokanCommit args s
  | .flokanAbort args => Sys2Proof.Machine.execFlokanAbort args s
  | .flokanDataLine line => Sys2Proof.Machine.execFlokanDataLine line s
  | .flokanAbortByte => Sys2Proof.Machine.execFlokanAbortByte s
  | .evrFreeze a page on => Sys2Proof.Machine.execEvrFreeze a page on s
  | .snapArm a v => Sys2Proof.Machine.execSnapArm a v s
  | .snapLatch => Sys2Proof.Machine.execSnapLatch s
  | .snapRelease a => Sys2Proof.Machine.execSnapRelease a s
  | .traceSync => Sys2Proof.Machine.execTraceSync s
  | .healthSummary urgent => Sys2Proof.Machine.execHealthSummary urgent s
  | .i3cPositionWrite x y z check => Sys2Proof.Machine.execI3cPositionWrite x y z check s
  | .i3cStageRead => Sys2Proof.Machine.execI3cStageRead s
  | .i3cSummaryRead => Sys2Proof.Machine.execI3cSummaryRead s
  | .selfRefreshExitDone => Sys2Proof.Machine.execSelfRefreshExitDone s
  | .deepEntryDone => Sys2Proof.Machine.execDeepEntryDone s
  | .resetReqNRelease => Sys2Proof.Machine.execResetReqNRelease s
  | .cmRtu qp => Sys2Proof.Machine.execCmRtu qp s
  | .rnrRetryTimer qp => Sys2Proof.Machine.execRnrRetryTimer qp s
  | .pfcPauseExpiry e lp prio => Sys2Proof.Machine.execPfcPauseExpiry e lp prio s

end Sys2Proof.Machine
end

