-- ==== Sys2Proof/Machine/Step.lean ====
section
/-! DEFINITION. One step: the command at the front of the queue, or one tick of fabric time. -/
namespace Sys2Proof.Machine

/-- A step takes the command at the front of the queue and runs it with the queue's rest. On an empty queue the block idles and
one tick of fabric time passes (DESIGN CHOICE, log entry 1). -/
def step (s : State) : Host.Outcome State Fault Refusal :=
  match s.pending with
  | [] => .next (s.setF fdFtimeNow pgFtime 0 (s.now + 1))
  | c :: cs => exec c { s with pending := cs }

/-- The state with the command that a word spells put at the front of its queue; no row of the table gives bits, so no word
spells a command. -/
def State.withFetchWord (s : State) (nbits w : Nat) : State :=
  match decodeTableWord nbits w with
  | some c => { s with pending := c :: s.pending }
  | none => s

end Sys2Proof.Machine
end

