-- ==== Sys2Proof/Safety.lean ====
section
/-! DEFINITION. What the statements say of a step: that it answers a next state, what that state holds, and what it leaves alone. -/
namespace Sys2Proof.Machine

/-- The step goes on. -/
def stepsOn (s : State) : Prop := ∃ t, step s = .next t

/-- The command runs in a state. -/
def runsOn (i : Instr) (s : State) : Prop := ∃ t, exec i s = .next t

/-- The command answers a next state of which P holds. -/
def Gives (i : Instr) (s : State) (P : State → Prop) : Prop := ∃ t, exec i s = .next t ∧ P t

/-- The command's own effect leads to a state of which P holds; the step then answers that state once everything that waited and can
now go on has gone on (`State.finish`, which leaves a state in which nothing waits as it is). -/
def Effect (i : Instr) (s : State) (P : State → Prop) : Prop := ∃ u, exec i s = .next u.finish ∧ P u

/-- Nothing waits to go on: no packet in loopback, no operation of a core, no held interrupt, no running step, no linkage queue to look
at, and no priority flow control. -/
def State.quiet (s : State) : Prop :=
  s.ecrok.loop = [] ∧ (∀ x ∈ s.cores, x.2.stalled = [] ∧ x.2.heldInterrupts = []) ∧
    (∀ c, c < 16 → (s.ctx c).run.active = false) ∧ s.lsa.poked = [] ∧
    s.getF fdEthPfcEnable (pgEth 0) = 0 ∧ s.getF fdEthPfcEnable (pgEth 1) = 0

/-- A core carries out an operation at once: it is not blocked or paused, and nothing of it waits. -/
def State.ready (s : State) (c : Nat) : Prop := (s.core c).free = true ∧ (s.core c).stalled = []

/-- Integer register `rd` of a core takes a value, x0 excepted, and no other integer register of any core changes. -/
def xregWrite (s u : State) (c rd v : Nat) : Prop :=
  (rd ≠ 0 → u.xreg c rd = v % 2 ^ 64) ∧ ∀ z y, y < 32 → ¬(z = c ∧ y = rd ∧ rd ≠ 0) → u.xreg z y = s.xreg z y

/-- Tile t's core can access `size` bytes at offset `off` of its own tile store at once: aligned and inside the store, the flask AWAKE,
the tile not moving, no queued unit operation in the way, and no deque area owned by its unit. -/
def State.ownReach (s : State) (t off size : Nat) (write : Bool) : Prop :=
  s.ready t ∧ off % size = 0 ∧ off + size ≤ storeSize ∧ s.serves (flaskOf t) = true ∧ s.moving t = false ∧
    s.ownClear t t off size write = true ∧ s.dequeOwns t off size = false

/-- The address of offset `off` of the issuing tile's own store (R43). -/
def selfAddr (off : Nat) : Word := BitVec.ofNat 64 (selfBase + off)

/-- No watch range is armed on a flask. -/
def State.unwatched (s : State) : Prop := s.armedRanges = []

/-- One field of a page takes a value, and every field at another place keeps its own. -/
def fieldOnly (s u : State) (d : FieldDesc) (page i v : Nat) : Prop :=
  u.getF d page i = v ∧ ∀ e q j, descKey d page i ≠ descKey e q j → u.getF e q j = s.getF e q j

/-- Places of written fields that do more than hold a value, as block code and offset (R11, R549, R550, R265, R266, R204, R441, R534,
R535, R38, R57, R59, R181, R300, R354, R362, R471). -/
def actingPlaces : List (Nat × Nat) :=
  [(0x00, 0x010), (0x00, 0x018), (0x00, 0x02C), (0x00, 0x080), (0x01, 0x104), (0x01, 0x10C), (0x01, 0x128), (0x07, 0x118),
   (0x07, 0x120), (0x07, 0x210), (0x07, 0x218), (0x08, 0x108), (0x0D, 0x218), (0x1D, 0x10C), (0x1D, 0x408), (0x1F, 0x124),
   (0x26, 0x13C), (0x29, 0x118)]

/-- A writable field that takes the value stored at once and does nothing else. -/
def plainField (d : FieldDesc) : Bool :=
  d.acc = .rw && d.cls ≠ .shadowed && !commandField d && !actingPlaces.contains (d.code, d.off)

/-- A store of an agent that reaches a page writes exactly the fields of `ws`, and no check of R553 drops it. -/
def State.storeTaken (s : State) (a : Agent) (page off size v : Nat) (ws : List FieldWrite) : Prop :=
  (writerCode a).isSome = true ∧ pageAccessOk off size = true ∧ blockCode page ≠ 0 ∧ s.absentPage page = false ∧
    s.written page off size v = ws ∧ s.judge page size ws = 0

/-- The fields of a store's writes given their values. -/
def State.putAll (s : State) (page : Nat) (ws : List FieldWrite) : State := s.forEach ws fun w t => t.setF w.d page w.i w.v

/-- The word that a one-bit command row stores: the word's fields as they are, and bit b as named. -/
def State.bitWord (s : State) (page off b : Nat) (on : Bool) : Nat := putBits (s.keepWord page off 4) b b on.toNat

/-- Nothing but register fields differs. -/
def regsOnly (s u : State) : Prop := { u with regs := s.regs } = s

/-- Nothing but the records of events differs: rings, log, traces, and register fields. -/
def recordsOnly (s u : State) : Prop :=
  { u with regs := s.regs, rings := s.rings, log := s.log, nodeTrace := s.nodeTrace, traceDrain := s.traceDrain, mem := s.mem,
           poisonLine := s.poisonLine } = s

/-- No context's trace goes to memory (R540), so that records write no memory. -/
def State.tracesOff (s : State) : Prop := ∀ c, c < 16 → s.getF fdObsCtrMode pgObs c ≠ 1

/-! ### Units of a tile -/

/-- Constructors of Xzmx commands that queue, with their funct3. -/
def mxRows : List ((TileId → BitVec 32 → Word → Word → Instr) × Nat) :=
  [(.mxMma, 0), (.mxWmma, 1), (.mxLdacc, 2), (.mxStacc, 3), (.mxZero, 4), (.mxRecomb, 5), (.mxSlice, 6)]

/-- Arithmetic stream commands with their codes. -/
def arithRows : List ((TileId → BitVec 32 → Instr) × Nat) :=
  [(.svAdd, 0x00), (.svSub, 0x01), (.svMul, 0x02), (.svFma, 0x03), (.svDiv, 0x04), (.svSqrt, 0x05), (.svMin, 0x06), (.svMax, 0x07),
   (.svAbs, 0x08), (.svNeg, 0x09)]

/-- Bitwise stream commands. -/
def bitRows : List ((TileId → BitVec 32 → Instr) × Nat) :=
  [(.svAnd, 0x10), (.svOr, 0x11), (.svXor, 0x12), (.svAndn, 0x13), (.svNot, 0x14), (.svSll, 0x15), (.svSrl, 0x16), (.svSra, 0x17)]

/-- Comparisons. -/
def cmpRows : List ((TileId → BitVec 32 → Instr) × Nat) :=
  [(.svEq, 0x20), (.svNe, 0x21), (.svLt, 0x22), (.svLe, 0x23), (.svUnord, 0x24)]

/-- Transcendentals. -/
def transRows : List ((TileId → BitVec 32 → Instr) × Nat) := [(.svExp, 0x30), (.svLog, 0x31), (.svRecip, 0x32), (.svRsqrt, 0x33)]

/-- Reductions. -/
def reduceRows : List ((TileId → BitVec 32 → Instr) × Nat) := [(.svRsum, 0x40), (.svRmin, 0x41), (.svRmax, 0x42), (.svRexp, 0x43)]

/-- Conversion requests. -/
def fcuRows : List ((TileId → BitVec 32 → Instr) × Nat) := [(.svFcvt, 0x90), (.svMxpack, 0x91), (.svMxunpack, 0x92), (.svXprebase, 0x93)]

/-- A stream instruction executes at once (R59, R97, R124, R139): its word is of its row, no check of R139 stops it, its flask is AWAKE
and its unit powered, and no queued unit operation is in its way. -/
def State.svRuns (s : State) (t w code : Nat) : Prop :=
  s.ready t ∧ svCode w = code ∧ bits w 6 0 = 0x2B ∧ (s.svOp t w).check (s.dqEn t) = none ∧ s.serves (flaskOf t) = true ∧
    s.unitOn t .sv = true ∧ s.unitsBlock t (s.svOp t w).reads (s.svOp t w).writes = false ∧ (s.svOp t w).vl ≠ 0

/-- No mask is named, no word of a tile store is poisoned, and no watch range is armed. -/
def State.svPlain (s : State) (t w : Nat) : Prop := (s.svOp t w).masked = false ∧ s.poisonWord = [] ∧ s.unwatched

/-- A stream instruction wrote these elements, in order, and raised these flags and the index bit; beside memory only CSRs of the cores,
reservations, counts and what watches writes may differ. -/
def svWrote (s u : State) (t : Nat) (ps : List Put) (fl : Nat) (ix : Bool) : Prop :=
  u.mem = ps.foldl (fun m p => putBitsAt m (storeAt t) p) s.mem ∧ u.csr t 0x802 = (s.csr t 0x802 ||| fl) % 2 ^ 64 ∧
    u.csr t 0x803 = (s.csr t 0x803 ||| ix.toNat) % 2 ^ 64 ∧ u.xregs = s.xregs ∧
    { u with mem := s.mem, poisonWord := s.poisonWord, csrs := s.csrs, cores := s.cores, schedEvents := s.schedEvents, lsa := s.lsa,
             tally := s.tally, freeCount := s.freeCount } = s

/-- The elements of d from values by index. -/
def Desc.puts (d : Desc) (n : Nat) (v : Nat → Nat) : List Put := (List.range n).map fun i => d.put i (v i, false)

/-- Flags of n elements together. -/
def flagsOf (n : Nat) (fl : Nat → Nat) : Nat := (List.range n).foldl (fun a i => a ||| fl i) 0

/-! ### Xzsy -/

/-- A counter row of core c reaches its counter at once (R146, R147, R151): the word is the row's, the counter exists and is granted, a
post follows everything the core issued, and the counter's flask is AWAKE and its tile not moving. -/
def State.counterReach (s : State) (c code w x1 : Nat) : Prop :=
  s.ready c ∧ syOk c code w = true ∧ x1 < 2 ^ 18 ∧ s.counterGrant c x1 = true ∧ (code = 4 → s.limited c = false) ∧
    (code = 0 → s.coreQuiet c = true ∧ mapGet 0 s.ecrok.lateFaults c = 0) ∧ s.serves (counterTile x1 / 16) = true ∧
    s.moving (counterTile x1) = false

/-- No core waits on a counter. -/
def State.unwaited (s : State) (id : Nat) : Prop := (s.waits.find? fun e => e.id = id) = none

/-- Counter `id` holds a value and a capacity, and every other counter what it held. -/
def counterOnly (s u : State) (id value cap : Nat) : Prop :=
  u.counter id = ⟨value, cap⟩ ∧ ∀ z, z ≠ id → u.counter z = s.counter z

/-! ### Memory -/

/-- A request to HBM is served at once (R253–R268, R329, R417): nothing refuses it, the stacks run, nothing waits at a sluice and its
polder's rate is 1,024, no other node holds a line of it, no checkpoint holds it, and no merger entry is open. -/
def State.hbmClear (s : State) (rq : HbmReq) : Prop :=
  s.hbmRefusal rq = none ∧ s.hbm.selfRefresh = 0 ∧ s.hbm.waiting = [] ∧ s.hbm.merge = [] ∧
    (∀ p, s.polderOf rq.off = some p → s.bucketRate p rq.charge.2 = 1024) ∧
    ((unitsOf 128 rq.off rq.len).find? fun l => s.cohBusy l (rq.kind ≠ 0)) = none ∧ (rq.kind ≠ 0 → s.unreachedBy rq.off rq.len = [])

/-- Some reply that goes to no core and no packet. -/
def plainReply (r : Reply) : Bool := r = .none || r = .quiet

/-! ### Ecrok -/

/-- A request is the next of its flow and every check admits it (R305, R307, R318, R320). -/
def State.admits (s : State) (pk : Packet) : Prop :=
  s.nodeIdValid = true ∧ packetBad pk = false ∧ s.err.out = false ∧ s.tagCheck pk = .served ∧ pk.seq.toNat = s.expected pk

/-- The state as an admitted request is applied: counted, its LOW noted, the flow's next SEQ expected. -/
def State.admitted (s : State) (pk : Packet) : State := ((s.count pgEcrok 1 1).noteLow pk).advance pk

/-- A response that answers a live tag slot of its die (R322). -/
def State.answers (s : State) (die : Nat) (pk : Packet) : Prop :=
  s.nodeIdValid = true ∧ packetBad pk = false ∧ (s.tag (die * 65536 + pk.tagSlot.toNat)).active = true ∧
    (s.tag (die * 65536 + pk.tagSlot.toNat)).gen = pk.tagGen.toNat ∧ (s.tag (die * 65536 + pk.tagSlot.toNat)).pk.dst = pk.src

/-- A coherence message of a type is taken: from a neighbour of the tray, well-formed, not handled before, and of a job of this node
(R318, R331, R332). -/
def State.cohTakes (s : State) (op : Nat) (pk : Packet) : Prop :=
  s.nodeIdValid = true ∧ cohBad pk = false ∧ pk.op.toNat = op ∧ sameTray pk.src.toNat s.nodeId = true ∧ pk.src.toNat ≠ s.nodeId ∧
    s.cohSeen pk = none ∧ (op ≤ 7 → s.tagCheck pk = .served)

/-- A collective packet reaches a run of this node with its group entry (R350). -/
def State.collReaches (s : State) (pk : Packet) (c e : Nat) (r : CollRun) : Prop :=
  s.nodeIdValid = true ∧ packetBad pk = false ∧ s.tagCheck pk = .served ∧
    (allCtxs.find? fun c => (s.ctx c).isOpen && (s.ctx c).job = pk.job.toNat && (s.groupOf c pk.tagSlot.toNat).isSome) = some c ∧
    s.groupOf c pk.tagSlot.toNat = some e ∧
    (s.coll.runs.find? fun r => r.ctx = c && r.group = pk.tagSlot.toNat && r.inst = pk.seq.toNat) = some r

/-! ### Capsules -/

/-- The capsule rows with what the table of opcodes says of each (R383). -/
def capRows : List ((QueueId → Capsule → Instr) × Opcode) :=
  [(.sessionOpen, { code := 0x0001 }), (.sessionClose, { code := 0x0002 }), (.nop, { code := 0x0003 }),
   (.ctxOpen, { code := 0x0010, mgmt := true, bodyCtx := true }), (.ctxClose, { code := 0x0011, mgmt := true, bodyCtx := true }),
   (.allot, { code := 0x0012, mgmt := true, bodyCtx := true }), (.queueBind, { code := 0x0013, mgmt := true, bodyCtx := true }),
   (.statusQuery, { code := 0x0014, bodyCtx := true }), (.graphLoad, { code := 0x0020, feature := 1, ctxOp := true }),
   (.stepStart, { code := 0x0021, feature := 1, ctxOp := true }), (.stepStop, { code := 0x0022, feature := 1, ctxOp := true }),
   (.ckptRequest, { code := 0x0030, feature := 5, ctxOp := true }), (.restore, { code := 0x0031, feature := 5, ctxOp := true }),
   (.qpConnect, { code := 0x0040, ctxOp := true }), (.qpClose, { code := 0x0041, ctxOp := true }),
   (.mrReg, { code := 0x0042, ctxOp := true }), (.mrDereg, { code := 0x0043, ctxOp := true }),
   (.traceSet, { code := 0x0050, feature := 7 }), (.logRead, { code := 0x0051, feature := 8 }),
   (.regRead, { code := 0x0060, feature := 9 }), (.regWrite, { code := 0x0061, feature := 9, mgmt := true }),
   (.token, { code := 0x0070, feature := 11, mgmt := true }), (.nodeReset, { code := 0x0080, mgmt := true })]

/-- The state once a capsule that may wake the node has begun to wake it (R471). -/
def State.capWake (s : State) (o : Opcode) : State := if o.code = 0x0010 || o.code = 0x0070 then s.leaveDeep else s

/-- Firmware reaches a capsule: no earlier one of its queue is outstanding (R219), the node is in service or the queue is a management
queue (R456), and the node is not in DEEP (R471). -/
def State.capReaches (s : State) (q : QueueId) (o : Opcode) : Prop :=
  (s.queue q.val).busy = none ∧ (s.err.out = true → q.val < 4) ∧ (s.capWake o).inDeep = false

/-- Firmware reaches a capsule and no check of R386 on its header refuses it; `z` is the state in which its own part starts. -/
def State.capTakes (s : State) (q : QueueId) (cap : Capsule) (o : Opcode) (z : State) : Prop :=
  s.capReaches q o ∧ z = (s.capWake o).popRing q.val o.code cap.tag.toNat ∧ z.capsuleCheck q.val o cap = none

/-- The capsule that carries an SPDM request (R384, R389). -/
def State.spdmCap (s : State) (q : QueueId) (msg : List Byte) : Capsule :=
  let head := ((s.queue q.val).ring.find? fun x => !x.broken).elim [] (·.bytes)
  let mine := capOp head = 0x0071
  { tag := BitVec.ofNat 32 (if mine then capTag head else 0), ctx := BitVec.ofNat 8 (if mine then leField head 8 1 else 0xFF),
    bodyLen := msg.length, body := msg }

/-- What the table of opcodes says of SPDM. -/
def spdmOpcode : Opcode := { code := 0x0071, feature := 10 }

/-- A request of a code is taken: the capsule is, and the message is of the code and of version 1.3. -/
def State.spdmTakes (s : State) (q : QueueId) (code : Nat) (msg : List Byte) (z : State) : Prop :=
  s.capTakes q (s.spdmCap q msg) spdmOpcode z ∧ 4 ≤ msg.length ∧ leField msg 1 1 = code ∧ (code ≠ 0x84 → leField msg 0 1 = 0x13)

/-- The queue's SPDM state is `x` with this request and response joined to its transcript, and the response leaves as the body of the
capsule's status; beside that the state is `y`. -/
def spdmAnswers (s : State) (q : QueueId) (msg : List Byte) (y : State) (x : SpdmState) (out : List Byte) (u : State) : Prop :=
  ∃ w : State, u = w.endCapsule q.val spdmOpcode (s.spdmCap q msg) { body := out } ∧
    w.spdmOf q.val = { x with transcript := x.transcript ++ msg ++ out } ∧ (∀ j, j ≠ q.val → w.spdmOf j = y.spdmOf j) ∧
    { w with spdm := y.spdm } = y

/-! ### Flokan -/

/-- A command line runs at once: the island is on, and no command takes content or has a token with the reeve (R525, R526). `z` is the
state in which it runs. -/
def State.lineRuns (s z : State) : Prop :=
  s.power.off = false ∧ s.flokan.content = 0 ∧ s.flokan.awaiting = false ∧ z = { s with flokan := { s.flokan with fresh := false } }

/-- A command sends these data lines and then the line OK, and does nothing else. -/
def lines (z : State) (ls : List (List Nat)) (t : State) : Prop := t = { z with out := z.out ++ ls.map .line ++ [.final 0 0] }

/-- A command sends an error line alone. -/
def errs (z : State) (name : Nat) (t : State) : Prop := t = { z with out := z.out ++ [.final name 0] }

end Sys2Proof.Machine
end

