-- ==== Sys2Proof/Certificates/Slice0/Obligations.lean ====
section
/-! DEFINITION. The statements for the provers. -/
open Sys2Proof Sys2Proof.Machine

/-! ### The queue, the tick and reset -/

/-- A step takes the command at the front of the queue and answers what the command answers with the queue's rest. -/
def Obligations.StepRunsFrontCommand : Prop :=
  ∀ (i : Instr) (cs : List Instr) (s : State), step { s with pending := i :: cs } = exec i { s with pending := cs }

/-- On an empty queue a step is one tick of fabric time and nothing else (DESIGN CHOICE, log entry 1). -/
def Obligations.IdleStepIsOneTick : Prop :=
  ∀ s : State, s.pending = [] →
    ∃ t, step s = .next t ∧ t.now = (s.now + 1) % 2 ^ 64 ∧ regsOnly s t ∧
      ∀ e q j, descKey fdFtimeNow pgFtime 0 ≠ descKey e q j → t.getF e q j = s.getF e q j

/-- Where nothing waits, nothing goes on: what a command leaves is then its own effect. -/
def Obligations.QuietStateStays : Prop := ∀ s : State, s.quiet → s.finish = s

/-- Every step keeps memory in its canonical form: addresses strictly rising, and no entry equal to what an unlisted address reads as. -/
def Obligations.StepKeepsMemoryCanonical : Prop :=
  ∀ s t : State, memWf s.mem = true → step s = .next t → memWf t.mem = true

/-- Every step takes the queue's front and leaves the rest as it was: no command adds, drops or reorders a waiting one. -/
def Obligations.StepKeepsQueueOrder : Prop := ∀ s t : State, step s = .next t → t.pending = s.pending.tail

/-- After reset every register field of every page reads its table's reset value, no class S value is pending, every flask is ASLEEP,
no command waits, memory lists nothing and so is in its canonical form, and the registers of the cores hold what the model names for them
(0, where the spec states no reset value: DESIGN CHOICE, log entry 5). -/
def Obligations.ResetState : Prop :=
  (∀ (d : FieldDesc) (page i : Nat), State.reset.getF d page i = regReset page d i ∧ State.reset.lastF d page i = regReset page d i) ∧
    (∀ f, f < 256 → State.reset.pstate f = psAsleep) ∧ State.reset.pending = [] ∧ State.reset.mem = [] ∧ memWf State.reset.mem = true ∧
    (∀ c r, State.reset.xreg c r = 0) ∧ ∀ c n, State.reset.csr c n = csrReset n

/-! ### Register pages -/

/-- A store that writes one plain RW field of a page, and that no check of R553 drops, gives that field the stored value and changes
nothing else. -/
def Obligations.RegisterWriteStoresField : Prop :=
  ∀ (a : Agent) (g : Nat) (page : BitVec 20) (off : BitVec 12) (size : Nat) (v : Word) (s : State) (w : FieldWrite),
    writerCode a = some g → pageAccessOk off.toNat size = true → blockCode page.toNat ≠ 0 → s.absentPage page.toNat = false →
    s.written page.toNat off.toNat size v.toNat = [w] → s.judge page.toNat size [w] = 0 → plainField w.d = true →
    Effect (.registerWrite a page off size v) s fun u =>
      fieldOnly s u w.d page.toNat w.i (w.v % 2 ^ w.d.width) ∧ regsOnly s u

/-- A store that writes a value that its field's map does not list is dropped whole, as is one that any other check of R553 fails. A dropped
store leaves its place, cause, agent and count in the page's `FIELD_REJECT`, and changes nothing else: nothing of the stored value is kept
anywhere, so that it is never applied later. -/
def Obligations.DroppedStoreOnlyRecorded : Prop :=
  ∀ (a : Agent) (g : Nat) (page : BitVec 20) (off : BitVec 12) (size : Nat) (v : Word) (s : State) (ws : List FieldWrite),
    writerCode a = some g → pageAccessOk off.toNat size = true → blockCode page.toNat ≠ 0 → s.absentPage page.toNat = false →
    ws = s.written page.toNat off.toNat size v.toNat →
    (∀ w ∈ ws, s.listed page.toNat ws w = false →
      s.judge page.toNat size ws = if ws.any fun x => 32 < x.d.width && size = 4 then 5 else 1) ∧
    (s.judge page.toNat size ws ≠ 0 → Effect (.registerWrite a page off size v) s fun u =>
      (∃ r, fieldOnly s u fdComFieldReject page.toNat 0 r ∧ bits r 11 0 = off.toNat ∧ bits r 12 12 = 0 ∧ bits r 16 13 = 0 ∧
        bits r 19 17 = s.judge page.toNat size ws ∧ bits r 22 20 = g ∧
        bits r 30 23 = min (bits (s.getF fdComFieldReject page.toNat) 30 23 + 1) 255 ∧ bits r 31 31 = 1) ∧
      regsOnly s u)

/-- A store that writes no field, and any store to a page that the directory does not list or the part does not populate, changes
nothing. -/
def Obligations.EmptyStoreChangesNothing : Prop :=
  ∀ (a : Agent) (g : Nat) (page : BitVec 20) (off : BitVec 12) (size : Nat) (v : Word) (s : State),
    writerCode a = some g → pageAccessOk off.toNat size = true →
    blockCode page.toNat = 0 ∨ s.absentPage page.toNat = true ∨ s.written page.toNat off.toNat size v.toNat = [] →
    exec (.registerWrite a page off size v) s = .next s.finish

/-- A load by an agent that reaches the window answers the bytes of the page; each RC field that it covers whole reads 0 afterwards,
and every other field keeps its value. -/
def Obligations.LoadClearsCoveredRcFields : Prop :=
  ∀ (a : Agent) (page : BitVec 20) (off : BitVec 12) (size : Nat) (s : State),
    (∀ t, a ≠ .kernel t) → (∀ k, a ≠ .pd k) → pageAccessOk off.toNat size = true →
    Gives (.rcRead a page off size) s fun t =>
      t.out = s.out ++ [.readValue a (s.pageValue page.toNat off.toNat size)] ∧
      (∀ x ∈ s.loadFields page.toNat off.toNat size, x.1.acc = .rc → wholeIn x.1 x.2 off.toNat size = true →
        t.getF x.1 page.toNat x.2 = 0) ∧
      (∀ e q j, (∀ x ∈ s.loadFields page.toNat off.toNat size, x.1.acc = .rc → wholeIn x.1 x.2 off.toNat size = true →
        descKey x.1 page.toNat x.2 ≠ descKey e q j) → t.getF e q j = s.getF e q j) ∧
      { t with regs := s.regs, out := s.out } = s

/-- CTRL and COMMIT. A QUIESCE store sets that bit and nothing else; ENABLE set to 1 does the same, and set to 0 puts an AWAKE flask into
sleep entry; RESET set reads 1 and writes a RESET entry (kind 3 a flask, 4 a block); a COMMIT.GO store of an idle block gives every class S
field the value last written, and of a busy one changes nothing. -/
def Obligations.ControlStores : Prop :=
  (∀ (a : Agent) (page : BitVec 20) (on : Bool) (s : State),
    s.storeTaken a page.toNat 0x010 4 (s.bitWord page.toNat 0x010 1 on) [⟨fdComCtrlQuiesce, 0, on.toNat⟩] →
    Effect (.ctrlQuiesce a page on) s fun u => fieldOnly s u fdComCtrlQuiesce page.toNat 0 on.toNat ∧ regsOnly s u) ∧
  (∀ (a : Agent) (page : BitVec 20) (s : State),
    s.storeTaken a page.toNat 0x010 4 (s.bitWord page.toNat 0x010 0 true) [⟨fdComCtrlEnable, 0, 1⟩] →
    Effect (.ctrlEnable a page true) s fun u => fieldOnly s u fdComCtrlEnable page.toNat 0 1 ∧ regsOnly s u) ∧
  (∀ (a : Agent) (f : FlaskId) (s : State),
    s.storeTaken a (pgFlask f.val) 0x010 4 (s.bitWord (pgFlask f.val) 0x010 0 false) [⟨fdComCtrlEnable, 0, 0⟩] →
    Effect (.ctrlEnable a (BitVec.ofNat 20 f.val) false) s fun u => u.getF fdComCtrlEnable (pgFlask f.val) = 0 ∧
      (s.pstate f.val = psAwake → u.pstate f.val = psEntering) ∧ (s.pstate f.val = psAsleep → u.pstate f.val = psAsleep)) ∧
  (∀ (a : Agent) (page : BitVec 20) (s : State),
    s.storeTaken a page.toNat 0x010 4 (s.bitWord page.toNat 0x010 2 true) [⟨fdComCtrlReset, 0, 1⟩] →
    exec (.blockReset a page) s = .next ((s.setF fdComCtrlReset page.toNat 0 1).event page.toNat 0 none 0x0009
      (if blockCode page.toNat = 0x01 then 3 else 4) 0).finish) ∧
  (∀ (a : Agent) (page : BitVec 20) (s : State) (d : FieldDesc), d ∈ shadowedFields → d.code = blockCode page.toNat →
    s.storeTaken a page.toNat 0x018 4 1 [⟨fdComCommitGo, 0, 1⟩] →
    (s.blockIdle page.toNat = true → Effect (.commitGo a page) s fun u =>
      u.getF d page.toNat = s.lastF d page.toNat % 2 ^ d.width ∨ (u.getF d page.toNat = s.getF d page.toNat ∧
        mapGet 0 s.shadow (descKey d page.toNat 0) = 0)) ∧
    (s.blockIdle page.toNat = false → exec (.commitGo a page) s = .next s.finish))

/-- Flask commands through the page. SLEEP accepted in AWAKE starts sleep entry and unpowers every unit; WAKE starts the wake of an ASLEEP
flask, counted as a prewake, and aborts a sleep entry; GO starts the IMEM load of the named tiles; hold bits take the stored value. -/
def Obligations.FlaskStores : Prop :=
  ∀ (a : Agent) (f : FlaskId) (s : State),
    (s.storeTaken a (pgFlask f.val) 0x104 4 1 [⟨fdFlaskPcmdCmd, 0, 1⟩] → s.pstate f.val = psAwake →
      Effect (.flaskSleep a f) s fun u => u.pstate f.val = psEntering ∧ (∀ k, k < 16 → ∀ x, u.unitOn (16 * f.val + k) x = false) ∧
        (s.tracesOff → u.mem = s.mem)) ∧
    (s.storeTaken a (pgFlask f.val) 0x104 4 2 [⟨fdFlaskPcmdCmd, 0, 2⟩] →
      (s.pstate f.val = psAsleep → Effect (.flaskWake a f) s fun u => u.pstate f.val = psWaking ∧
        u.getF fdComCounter (pgFlask f.val) 6 = min (s.getF fdComCounter (pgFlask f.val) 6 + 1) (2 ^ 64 - 1)) ∧
      (s.pstate f.val = psEntering → Effect (.flaskWake a f) s fun u => u.pstate f.val = psAwake ∧
        u.getF fdFlaskPstateSleepAbort (pgFlask f.val) = 1)) ∧
    (∀ (v : BitVec 32) (pre : List FieldWrite) (s' : State),
      s.storeTaken a (pgFlask f.val) 0x128 4 v.toNat (pre ++ [⟨fdFlaskImemCtrlGo, 0, 1⟩]) →
      (∀ w ∈ pre, w.d = fdFlaskImemCtrlTiles ∨ w.d = fdFlaskImemCtrlLen) → s' = s.putAll (pgFlask f.val) pre →
      Effect (.imemLoadGo a f v) s fun u => u.getF fdFlaskImemCtrlGo (pgFlask f.val) = 1 ∧
        (u.flask f.val).imem = some { tiles := s'.getF fdFlaskImemCtrlTiles (pgFlask f.val), src := s'.getF fdFlaskImemSrc (pgFlask f.val),
                                      len := s'.getF fdFlaskImemCtrlLen (pgFlask f.val) * 256 } ∧
        { u with regs := s.regs, flasks := s.flasks } = s) ∧
    (∀ (v : BitVec 32) (ws : List FieldWrite), s.storeTaken a (pgFlask f.val) 0x10C 4 v.toNat ws →
      (∀ w ∈ ws, w.d = fdFlaskGateHoldMx ∨ w.d = fdFlaskGateHoldSv) →
      Effect (.gateHoldWrite a f v) s fun u => u.regs = (s.putAll (pgFlask f.val) ws).regs ∧
        { u with regs := s.regs, flasks := s.flasks } = s)

/-- Other commands through the pages: a lane swap, a comparator armed, an error injected, deep idle entered and left, rings frozen and
thawed, a snapshot armed and released. Where the command's word also carries operand fields (`pre`), they take their values first. -/
def Obligations.CommandStores : Prop :=
  (∀ (a : Agent) (p : PortId) (v : BitVec 32) (s s' : State) (pre : List FieldWrite),
    s.storeTaken a (pgPort p.val) 0x124 4 v.toNat (pre ++ [⟨fdPortSwapGo, 0, 1⟩]) → (∀ w ∈ pre, w.d = fdPortSwapCircuit) →
    s' = s.putAll (pgPort p.val) pre → s'.portUp p.val = true →
    exec (.swapGo a p v) s = .next (((s'.setF fdPortSwapGo (pgPort p.val) 0 1).emit
      (.swap p.val .tx (2 ^ s'.getF fdPortSwapCircuit (pgPort p.val)))).startSwap p.val .tx
        (2 ^ s'.getF fdPortSwapCircuit (pgPort p.val))).finish) ∧
  (∀ (a : Agent) (k : Fin 32) (v : Word) (s s' : State) (pre : List FieldWrite),
    s.storeTaken a pgFtime (0x408 + 64 * k.val) 8 v.toNat (pre ++ [⟨fdFtimeRelArm, k.val, 1⟩]) →
    (∀ w ∈ pre, (w.d = fdFtimeRelSlot ∨ w.d = fdFtimeRelAction) ∧ w.i = k.val) → s' = s.putAll pgFtime pre →
    s.now ≤ s.getF fdFtimeRelTime pgFtime k.val →
    Effect (.relArm a k v) s fun u => fieldOnly s' u fdFtimeRelArm pgFtime k.val 1 ∧ regsOnly s u) ∧
  (∀ (a : Agent) (page : BitVec 20) (v : BitVec 32) (s s' : State) (pre : List FieldWrite),
    s.storeTaken a page.toNat 0x02C 4 v.toNat (pre ++ [⟨fdErrErrInjectGo, 0, 1⟩]) → (∀ w ∈ pre, w.d = fdErrErrInjectSource) →
    s' = s.putAll page.toNat pre →
    exec (.errInjectGo a page v) s = .next (((s'.setF fdErrErrInjectGo page.toNat 0 1).detect page.toNat
      (s'.getF fdErrErrInjectSource page.toNat) { code := BitVec.ofNat 16 (injectCode (s'.getF fdErrErrInjectSource page.toNat)) } true).setF
        fdErrErrInjectGo page.toNat 0 0).finish) ∧
  (∀ (a : Agent) (s : State), s.storeTaken a pgPower 0x13C 4 1 [⟨fdPowerIdleCmd, 0, 1⟩] → s.getF fdPowerIdleState pgPower < 2 →
    Effect (.deep a) s fun u => fieldOnly s u fdPowerIdleState pgPower 0 2 ∧ regsOnly s u) ∧
  (∀ (a : Agent) (s : State), s.storeTaken a pgPower 0x13C 4 2 [⟨fdPowerIdleCmd, 0, 2⟩] →
    (s.getF fdPowerIdleState pgPower = 3 → Effect (.idleWake a) s fun u => u.power.exiting = true ∧ { u with power := s.power } = s) ∧
    (s.getF fdPowerIdleState pgPower = 2 → Effect (.idleWake a) s fun u => fieldOnly s u fdPowerIdleState pgPower 0 0 ∧ regsOnly s u)) ∧
  (∀ (a : Agent) (page : BitVec 20) (on : Bool) (s : State),
    s.storeTaken a page.toNat 0x080 4 (s.bitWord page.toNat 0x080 16 on) [⟨fdEvrEvrFreeze, 0, on.toNat⟩] →
    Effect (.evrFreeze a page on) s fun u => u.frozen page.toNat = on ∧ recordsOnly s u) ∧
  (∀ (a : Agent) (v : BitVec 32) (s s' : State) (pre : List FieldWrite),
    s.storeTaken a pgObs 0x118 4 v.toNat (pre ++ [⟨fdObsSnapArm, 0, 1⟩]) → (∀ w ∈ pre, w.d = fdObsSnapDies) → s' = s.putAll pgObs pre →
    s.now < s.getF fdObsSnapTime pgObs →
    Effect (.snapArm a v) s fun u => fieldOnly s' u fdObsSnapArm pgObs 0 1 ∧ regsOnly s u) ∧
  (∀ (a : Agent) (s : State), s.storeTaken a pgObs 0x118 4 (s.bitWord pgObs 0x118 10 true) [⟨fdObsSnapRelease, 0, 1⟩] →
    s.getF fdObsSnapHeld pgObs = 1 →
    Effect (.snapRelease a) s fun u => u.snaps = [] ∧ u.snapPages = [] ∧ u.getF fdObsSnapHeld pgObs = 0)

/-! ### Flasks -/

/-- Events of a flask: sleep entry ends ASLEEP; an arrival at an ASLEEP flask starts a demand wake, counted; a wake ends AWAKE with the
held units powered; an idle unit gates and a waking one powers up; a word scrub changes no value; a remap stops the cores, and its end
resumes them with the spare in use. -/
def Obligations.FlaskEvents : Prop :=
  ∀ (f : FlaskId) (s : State),
    (s.pstate f.val = psEntering → Gives (.sleepEntryDone f) s fun t => t.pstate f.val = psAsleep ∧ recordsOnly s t) ∧
    (s.pstate f.val = psAsleep → Gives (.demandWake f) s fun t => t.pstate f.val = psWaking ∧ recordsOnly s t ∧
      t.getF fdComCounter (pgFlask f.val) 5 = min (s.getF fdComCounter (pgFlask f.val) 5 + 1) (2 ^ 64 - 1)) ∧
    (s.pstate f.val = psWaking → (s.flask f.val).held = [] → s.relPending = [] → Effect (.flaskWakeDone f) s fun u =>
      u.pstate f.val = psAwake ∧ u.getF fdFlaskUnitStateMx (pgFlask f.val) = s.getF fdFlaskGateHoldMx (pgFlask f.val) % 2 ^ 16 ∧
        u.getF fdFlaskUnitStateSv (pgFlask f.val) = s.getF fdFlaskGateHoldSv (pgFlask f.val) % 2 ^ 16) ∧
    (∀ (t : TileId) (x : TileUnit), s.serves (flaskOf t.val) = true → s.unitOn t.val x = true → s.unitHeld t.val x = false →
      s.unitIdle t.val x = true → s.getF fdFlaskGateIdleCycles (pgFlask (flaskOf t.val)) ≠ 0 →
      Gives (.unitGate t x) s fun u => u.unitOn t.val x = false ∧ recordsOnly s u) ∧
    (∀ (t : TileId) (x : TileUnit), bitAt (s.flask (flaskOf t.val)).waking (unitBit t.val x) = true → s.serves (flaskOf t.val) = true →
      Effect (.unitWakeDone t x) s fun u => u.unitOn t.val x = true) ∧
    (∀ (t : TileId) (w : BitVec 16), exec (.tileStoreScrub t w) s = .next s) ∧
    (∀ t : Fin 16, s.anyMoving = false → s.getF fdFlaskSpareInUse (pgFlask f.val) ≠ 1 → s.getF fdFlaskSpareFenced (pgFlask f.val) ≠ 1 →
      s.pstate f.val = psAwake → Gives (.tileRemapStart f t) s fun u => (u.flask f.val).moving = some t.val ∧
        (∀ k, k < 16 → (u.core (f.val * 16 + k)).paused = true) ∧ u.err.repairing = true) ∧
    (∀ t : Nat, (s.flask f.val).moving = some t → (s.flask f.val).held = [] → s.relPending = [] → s.flaskOwner f.val = none →
      Effect (.tileRemapEnd f) s fun u => (u.flask f.val).moving = none ∧ (∀ k, k < 16 → (u.core (f.val * 16 + k)).paused = false) ∧
        u.err.repairing = false ∧ u.getF fdFlaskSpareInUse (pgFlask f.val) = 1)

/-- An IMEM load whose source is in the tile stores and good writes the source's bytes into the IMEM of every named tile, marks those
tiles with the image, and ends; a poisoned word ends it with no image in the named tiles. -/
def Obligations.ImemLoads : Prop :=
  ∀ (f : FlaskId) (s : State) (l : ImemLoad), (s.flask f.val).imem = some l → storeBase ≤ l.src → l.len ≤ 0x10000 →
    (s.serves f.val = true → (s.imemSource l).2.2 = l.len → Effect (.imemLoadDone f) s fun u =>
      (∀ t, t < 16 → bitAt l.tiles t = true → u.bytes (imemAt (f.val * 16 + t)) l.len = s.bytes l.src l.len ∧
        (u.core (f.val * 16 + t)).image = some { src := l.src, len := l.len }) ∧
      u.getF fdFlaskImemCtrlGo (pgFlask f.val) = 0 ∧ (u.flask f.val).imem = none) ∧
    ((s.imemSource l).2.2 < l.len →
      exec (.imemLoadPoison f) s = .next (((s.imemFill f.val l.tiles ((s.bytes l.src l.len).take (s.imemSource l).2.2) none).imemStop
        f.val).controlPoison pgSched (State.flaskOwner ((s.imemFill f.val l.tiles
          ((s.bytes l.src l.len).take (s.imemSource l).2.2) none).imemStop f.val) f.val) (l.src + (s.imemSource l).2.2)).finish)

/-! ### Cores -/

/-- A pilot core's accesses to its own tile store: a load puts the bytes, little-endian and extended, into its register; a store writes
them; an AMO does both; LR loads and takes a reservation; SC stores and answers 0 where the reservation holds, and answers 1 and
stores nothing where it does not. x0 takes no value. -/
def Obligations.TileAccesses : Prop :=
  ∀ (t : TileId) (off size : Nat) (rd : Reg) (s : State), size = 1 ∨ size = 2 ∨ size = 4 ∨ size = 8 →
    (∀ sgn : Bool, s.ownReach t.val off size false → s.wordsPoisoned (storeAt t.val + off) size = false →
      Effect (.coreLoad (.tile t) (selfAddr off) size sgn rd) s fun u =>
        xregWrite s u t.val rd.val (if sgn then wrapTo 64 (signedOf (8 * size) (s.loadNat (storeAt t.val + off) size))
          else s.loadNat (storeAt t.val + off) size) ∧ { u with xregs := s.xregs, cores := s.cores } = s) ∧
    (∀ v : Word, s.ownReach t.val off size true → s.unwatched →
      Effect (.coreStore (.tile t) (selfAddr off) size v) s fun u =>
        u.mem = memWrite s.mem (storeAt t.val + off) (leBytes size v.toNat) ∧ u.regs = s.regs ∧ u.xregs = s.xregs ∧ u.csrs = s.csrs) ∧
    (∀ (op : AmoOp) (wide : Bool) (v : Word), size = (if wide then 8 else 4) → s.ownReach t.val off size true → s.unwatched →
      s.wordsPoisoned (storeAt t.val + off) size = false →
      Effect (.coreAmo (.tile t) (selfAddr off) op wide v rd) s fun u =>
        xregWrite s u t.val rd.val (wrapTo 64 (signedOf (8 * size) (s.loadNat (storeAt t.val + off) size))) ∧
        u.mem = memWrite s.mem (storeAt t.val + off) (leBytes size (atomLane (amoCode op wide).1 (amoCode op wide).2
          (s.loadNat (storeAt t.val + off) size) (v.toNat % 2 ^ (8 * size)) 0).1) ∧ u.regs = s.regs) ∧
    (∀ wide : Bool, size = (if wide then 8 else 4) → s.ownReach t.val off size false →
      s.wordsPoisoned (storeAt t.val + off) size = false →
      Effect (.lr (.tile t) (selfAddr off) wide rd) s fun u =>
        xregWrite s u t.val rd.val (wrapTo 64 (signedOf (8 * size) (s.loadNat (storeAt t.val + off) size))) ∧
        (u.core t.val).reservation = some (storeAt t.val + off) ∧ u.mem = s.mem) ∧
    (∀ (wide : Bool) (v : Word), size = (if wide then 8 else 4) → s.ownReach t.val off size true → s.unwatched →
      ((s.core t.val).reservation = some (storeAt t.val + off) → Effect (.sc (.tile t) (selfAddr off) wide v rd) s fun u =>
        xregWrite s u t.val rd.val 0 ∧ u.mem = memWrite s.mem (storeAt t.val + off) (leBytes size v.toNat)) ∧
      ((s.core t.val).reservation ≠ some (storeAt t.val + off) → Effect (.sc (.tile t) (selfAddr off) wide v rd) s fun u =>
        xregWrite s u t.val rd.val 1 ∧ u.mem = s.mem ∧ (u.core t.val).reservation = none))

/-- CSR writes, fences, exits, interrupts and fetches. A standard CSR takes the value; a tile CSR takes each of its fields, write-1-to-clear
ones losing the bits written 1; a fence with every store done changes nothing; a bound kernel's exit ends it; an interrupt at a core that
waits for nothing is taken at once, and at a paused core is held; a fetch of a good IMEM word changes nothing. -/
def Obligations.CoreCommands : Prop :=
  (∀ (c : Core) (n : BitVec 12) (v : Word) (s : State), s.ready (coreIx c) → csrAbsent (coreIx c) n.toNat = false →
    csrPrivileged n.toNat (s.core (coreIx c)).user = false → csrCustom n.toNat = false → n.toNat ∉ [0x001, 0x002, 0x003, 0x008, 0x009, 0x00A, 0x00F] →
    Effect (.csrWrite c n v) s fun u => u.csr (coreIx c) n.toNat = v.toNat ∧
      (∀ z m, m < 4096 → ¬(z = coreIx c ∧ m = n.toNat) → u.csr z m = s.csr z m) ∧ { u with csrs := s.csrs } = s) ∧
  (∀ (t : TileId) (n : BitVec 12) (v : Word) (s : State) (fs : List CsrField), s.ready t.val → fs = csrFields.filter (fun f => f.csr = n.toNat) →
    csrCustom n.toNat = true → fs ≠ [] → (∀ f ∈ fs, f.ok (bits v.toNat (f.lsb + f.width - 1) f.lsb) = true) →
    ¬(n.toNat = 0x861 ∧ v.toNat % 2 = 0 ∧ s.dqEn t.val = true ∧ s.dqCount t.val ≠ 0) → csrAbsent t.val n.toNat = false →
    Effect (.csrWrite (.tile t) n v) s fun u => u = fs.foldl (fun s f => s.setCsr t.val n.toNat (putBits (s.csr t.val n.toNat)
      (f.lsb + f.width - 1) f.lsb (if f.w1c then s.csrBits t.val n.toNat (f.lsb + f.width - 1) f.lsb -
        (s.csrBits t.val n.toNat (f.lsb + f.width - 1) f.lsb &&& bits v.toNat (f.lsb + f.width - 1) f.lsb)
        else bits v.toNat (f.lsb + f.width - 1) f.lsb))) s) ∧
  (∀ (k : CoreId) (s : State), s.ready (coreIx (.pd k)) → s.storesOpen (coreIx (.pd k)) = false →
    mapGet 0 s.ecrok.lateFaults (coreIx (.pd k)) = 0 → exec (.fence k) s = .next s.finish) ∧
  (∀ (t : TileId) (a0 : Word) (s : State), s.ready t.val → s.coreQuiet t.val = true → mapGet 0 s.ecrok.lateFaults t.val = 0 →
    (s.core t.val).running = true → (s.core t.val).user = true →
    Effect (.ecall t a0) s fun u => (u.core t.val).running = false ∧ (u.core t.val).user = false ∧
      (u.core t.val).trap = some ⟨8, 0⟩ ∧ u.xregs = s.xregs) ∧
  (∀ (c : Core) (cause : Word) (s : State), s.ready (coreIx c) →
    Effect (.hartInterrupt c cause) s fun u => u = s.setCore (coreIx c) { s.core (coreIx c) with interrupt := some cause.toNat }) ∧
  (∀ (c : Core) (cause : Word) (s : State), (s.core (coreIx c)).paused = true →
    Effect (.hartInterrupt c cause) s fun u =>
      (u.core (coreIx c)).heldInterrupts = (s.core (coreIx c)).heldInterrupts ++ [cause.toNat] ∧ { u with cores := s.cores } = s) ∧
  (∀ (t : TileId) (a : Word) (s : State), imemView ≤ a.toNat → a.toNat < imemView + 0x10000 →
    s.wordsPoisoned (imemAt t.val + (a.toNat - imemView)) 2 = false → exec (.instructionFetch t a) s = .next s)

/-- Vector units of application cores. A vector instruction of a powered unit that meets no exception changes only registers of the core
and clears `vstart`; an idle unit gates; a waking one powers up; a core repair stops the hart, and its end resumes it on a spare. -/
def Obligations.VectorAndRepair : Prop :=
  ∀ (k : CoreId) (s : State),
    (∀ (w : BitVec 32) (vl : Nat) (cause : Word), s.ready (4096 + k.val) → vecWord w.toNat = true → vecTruncating w.toNat = false →
      s.vecOn k.val = true → Effect (.vectorInstruction k w vl none cause) s fun u => (u.core (4096 + k.val)).vstart = 0 ∧
        { u with regs := s.regs, xregs := s.xregs, fregs := s.fregs, vregs := s.vregs, csrs := s.csrs, cores := s.cores,
                 freeCount := s.freeCount } = s ∧
        (bits w.toNat 6 0 = 0x27 → u.xregs = s.xregs ∧ u.fregs = s.fregs ∧ u.vregs = s.vregs ∧ u.csrs = s.csrs)) ∧
    (bitAt (s.getF fdPdVstate pgPd) k.val = true → bitAt (s.getF fdPdVgateHold pgPd) k.val = false → s.getF fdPdVgateIdleCycles pgPd ≠ 0 →
      (s.core (4096 + k.val)).vectorWaits = false →
      Gives (.vectorGate k) s fun t => bitAt (t.getF fdPdVstate pgPd) k.val = false ∧ recordsOnly s t) ∧
    ((s.core (4096 + k.val)).vwaking = true → Effect (.vectorWakeDone k) s fun u =>
      bitAt (u.getF fdPdVstate pgPd) k.val = true ∧ (u.core (4096 + k.val)).vwaking = false) ∧
    (s.anyMoving = false → (∀ x ∈ s.cores, 4096 ≤ x.1 → x.2.paused = false) → s.getF fdPdSpareInUse pgPd < 4 →
      bitAt (s.getF fdPdCoresFenced pgPd) k.val = false →
      Gives (.coreRepairStart k) s fun t => (t.core (4096 + k.val)).paused = true ∧ t.err.repairing = true) ∧
    ((s.core (4096 + k.val)).paused = true → Effect (.coreRepairEnd k) s fun u => (u.core (4096 + k.val)).paused = false ∧
      u.err.repairing = false ∧ u.getF fdPdSpareInUse pgPd = min (s.getF fdPdSpareInUse pgPd + 1) (2 ^ fdPdSpareInUse.width - 1))

/-! ### Units of a tile -/

/-- NaR of XP128. The pattern 0x8000…0000 stands for no integer; every other 128-bit pattern encodes one of ±(2¹²⁷ − 1), and each of these has
a pattern. NaR plus any value is NaR without a flag, and NaR converted to FP64 or FP32 is the canonical NaN with NV. -/
def Obligations.NotAResult : Prop :=
  xpNaR = 0x80000000000000000000000000000000 ∧
    (∀ a, a < 2 ^ 128 → a ≠ xpNaR → -(2 ^ 127 - 1) ≤ signedOf 128 a ∧ signedOf 128 a ≤ 2 ^ 127 - 1) ∧
    (∀ z : Int, -(2 ^ 127 - 1) ≤ z → z ≤ 2 ^ 127 - 1 → ∃ a, a < 2 ^ 128 ∧ a ≠ xpNaR ∧ signedOf 128 a = z) ∧
    (∀ a, xpAdd xpNaR a = (xpNaR, 0) ∧ xpAdd a xpNaR = (xpNaR, 0)) ∧
    ∀ ex, fmtFP64.ofXp xpNaR ex = (0x7FF8000000000000, flNV) ∧ fmtFP32.ofXp xpNaR ex = (0x7FC00000, flNV)

/-- An Xzmx instruction that no check stops joins its tile's queue with the CSRs it captured, and nothing else changes but the wake of its
array; mx.wait with an empty queue changes nothing; a status read with an empty queue answers the CSR, `mxinfo`'s SPREAD reading 0 after. -/
def Obligations.MatrixIssue : Prop :=
  (∀ r ∈ mxRows, ∀ (t : TileId) (w : BitVec 32) (x1 x2 : Word) (s : State), s.ready t.val → mxOp w.toNat = r.2 →
    mxReserved w.toNat = false →
    (s.mxReq t.val w.toNat x1.toNat x2.toNat).trap ((s.tile t.val).issueTag (bits w.toNat 7 7)) (s.dqEn t.val) = none →
    (s.tile t.val).mxq.length < 8 → s.serves (flaskOf t.val) = true →
    Effect (r.1 t w x1 x2) s fun u =>
      u.tile t.val = { s.tile t.val with mxq := (s.tile t.val).mxq ++ [s.mxReq t.val w.toNat x1.toNat x2.toNat],
                                         nextSeq := (s.tile t.val).nextSeq + 1 } ∧
      { u with tiles := s.tiles, flasks := s.flasks } = s) ∧
  (∀ (t : TileId) (w : BitVec 32) (x1 x2 : Word) (s : State), s.ready t.val → mxOp w.toNat = 7 → mxReserved w.toNat = false →
    (s.tile t.val).mxq = [] → exec (.mxWait t w x1 x2) s = .next s.finish) ∧
  (∀ (t : TileId) (rd : Reg) (s : State), s.ready t.val → (s.tile t.val).mxq = [] →
    (Effect (.mxStatusRead t false rd) s fun u => xregWrite s u t.val rd.val (s.csr t.val 0x84A) ∧ { u with xregs := s.xregs } = s) ∧
    (Effect (.mxStatusRead t true rd) s fun u => xregWrite s u t.val rd.val (s.csr t.val 0x84B) ∧
      bits (u.csr t.val 0x84B) 27 16 = 0 ∧ { u with xregs := s.xregs, csrs := s.csrs } = s))

/-- Engines of a tile. A powered engine starts its oldest instruction that nothing earlier holds, and nothing but that mark changes; a
running instruction that ends leaves its queue with its result: mx.zero an empty bank, mx.mma the cells of R102 and R104, mx.stacc the
elements of its bank in memory, and a wide product its cumulative K. -/
def Obligations.MatrixEngines : Prop :=
  ∀ (t : TileId) (e : Engine) (s : State) (q : MxReq), s.engineUp t.val = true →
    ((s.tile t.val).nextFor e = some q → s.enginePower t.val e = true → q.running = false → (s.tile t.val).mxHeld q = false →
      Gives (.mxEngineStart t e) s fun u =>
        u.tile t.val = { s.tile t.val with mxq := (s.tile t.val).mxq.map fun r => if r.seq = q.seq then { r with running := true } else r } ∧
        { u with tiles := s.tiles } = s) ∧
    (((s.tile t.val).mxq.find? fun q => mxEngine q.w = e && q.running) = some q → s.unwatched → Effect (.mxEngineDone t e) s fun u =>
      (u.tile t.val).mxq = (s.tile t.val).mxq.filter (fun r => r.seq ≠ q.seq) ∧
      (mxOp q.w = 4 → (u.tile t.val).bank q.bank = {} ∧ u.mem = s.mem) ∧
      (mxOp q.w = 0 → q.kind = 1 → ((u.tile t.val).bank q.bank).tag = 1 ∧ ∀ i j, i < 32 → j < 32 →
        mapGet 0 ((u.tile t.val).bank q.bank).acc (i * 32 + j) = (s.mmaFloat t.val q ((s.tile t.val).bank q.bank) i j).v) ∧
      (mxOp q.w = 0 → q.kind ≠ 1 → ((u.tile t.val).bank q.bank).tag = 2 ∧ ∀ i j, i < 32 → j < 32 →
        mapGet 0 ((u.tile t.val).bank q.bank).ints ((i * 32 + j) * 5) = (s.mmaInt t.val q ((s.tile t.val).bank q.bank) i j).1) ∧
      (mxOp q.w = 1 → ((u.tile t.val).bank q.bank).tag = q.kind ∧ ((u.tile t.val).bank q.bank).k = ((s.tile t.val).bank q.bank).k + q.kk) ∧
      (mxOp q.w = 3 → ((s.tile t.val).bank q.bank).poison = [] → ((s.tile t.val).bank q.bank).tag ≠ 0 →
        u.mem = (cells.map fun x => (⟨(q.x1 + x.1 * q.ldc + x.2 * cBytes q.cfmt) * 8, 8 * cBytes q.cfmt,
            (staccElem q.cfmt ((s.tile t.val).bank q.bank) (x.1 * 32 + x.2)).1, false⟩ : Put)).foldl
            (fun m p => putBitsAt m (storeAt t.val) p) s.mem) ∧
      (mxOp q.w = 5 → (u.tile t.val).bank q.bank = {}))

/-- Stream instructions, element by element: arithmetic in the element type, a copy, bitwise operations, comparisons, the selection by s3
and transcendentals. -/
def Obligations.StreamElements : Prop :=
  ∀ (t : TileId) (w : BitVec 32) (s : State) (o : SvOp) (a b c : Nat → Nat), o = s.svOp t.val w.toNat → s.svPlain t.val w.toNat →
    a = (fun i => (s.elem t.val o.s1 i).1) → b = (fun i => if o.uses2 then (s.elem t.val o.s2 i).1 else 0) →
    c = (fun i => if o.uses3 then (s.elem t.val o.s3 i).1 else 0) →
    (∀ r ∈ arithRows, s.svRuns t.val w.toNat r.2 → tyFlt o.s1.ety = true → Effect (r.1 t w) s fun u =>
      svWrote s u t.val (o.d.puts o.vl fun i => ((tyFmt o.s1.ety).arith r.2 (a i) (b i) (c i)).1)
        (flagsOf o.vl fun i => ((tyFmt o.s1.ety).arith r.2 (a i) (b i) (c i)).2) false) ∧
    (∀ r ∈ arithRows, s.svRuns t.val w.toNat r.2 → tyFlt o.s1.ety = false → Effect (r.1 t w) s fun u =>
      svWrote s u t.val (o.d.puts o.vl fun i => intArith o.s1.ety r.2 (a i) (b i) (c i) (Config.freeValue (s.freeCount + i))) 0 false) ∧
    (s.svRuns t.val w.toNat 0x0A → Effect (.svMov t w) s fun u => svWrote s u t.val (o.d.puts o.vl a) 0 false) ∧
    (∀ r ∈ bitRows, s.svRuns t.val w.toNat r.2 → Effect (r.1 t w) s fun u =>
      svWrote s u t.val (o.d.puts o.vl fun i => bitwiseOn o.s1.ety r.2 (a i) (b i)) 0 false) ∧
    (∀ r ∈ cmpRows, s.svRuns t.val w.toNat r.2 → Effect (r.1 t w) s fun u =>
      svWrote s u t.val (o.d.puts o.vl fun i => (compareOn o.s1.ety r.2 (a i) (s.elem t.val o.s2 i).1).1)
        (flagsOf o.vl fun i => (compareOn o.s1.ety r.2 (a i) (s.elem t.val o.s2 i).1).2) false) ∧
    (s.svRuns t.val w.toNat 0x28 → Effect (.svSel t w) s fun u =>
      svWrote s u t.val (o.d.puts o.vl fun i => if (s.elem t.val o.s3 i).1 % 2 = 1 then a i else (s.elem t.val o.s2 i).1) 0 false) ∧
    (∀ r ∈ transRows, s.svRuns t.val w.toNat r.2 → Effect (r.1 t w) s fun u =>
      svWrote s u t.val (o.d.puts o.vl fun i => ((tyFmt o.s1.ety).transcend (r.2 - 0x30) (a i)).1)
        (flagsOf o.vl fun i => ((tyFmt o.s1.ety).transcend (r.2 - 0x30) (a i)).2) false)

/-- Stream instructions that reduce, compare positions, permute or convert: a reduction writes one element, position instructions the
masks and positions of R131, and permutations, packing and conversion the source elements they name. -/
def Obligations.StreamShapes : Prop :=
  ∀ (t : TileId) (w : BitVec 32) (s : State) (o : SvOp) (a : Nat → Nat), o = s.svOp t.val w.toNat → s.svPlain t.val w.toNat →
    a = (fun i => (s.elem t.val o.s1 i).1) →
    (∀ r ∈ reduceRows, s.svRuns t.val w.toNat r.2 → Effect (r.1 t w) s fun u =>
      svWrote s u t.val [o.d.put 0 ((reduceOn o (s.elem t.val o.s2 0).1 (signedOf 16 (if o.xpSum then (s.elem t.val o.s3 0).1 else 0))
        ((List.range o.vl).map fun i => some (a i))).1, false)]
        (reduceOn o (s.elem t.val o.s2 0).1 (signedOf 16 (if o.xpSum then (s.elem t.val o.s3 0).1 else 0))
          ((List.range o.vl).map fun i => some (a i))).2 false) ∧
    (s.svRuns t.val w.toNat 0x50 → Effect (.svSmx t w) s fun u =>
      svWrote s u t.val (s.svSmx t.val o).puts (s.svSmx t.val o).flags false) ∧
    (s.svRuns t.val w.toNat 0x60 → Effect (.svCausal t w) s fun u =>
      svWrote s u t.val (o.d.puts o.vl fun i => (decide (o.kpos + i ≤ o.qpos)).toNat) 0 false) ∧
    (s.svRuns t.val w.toNat 0x61 → Effect (.svWindow t w) s fun u =>
      svWrote s u t.val (o.d.puts o.vl fun i => (decide (o.qpos < o.kpos + i + o.win ∧ o.kpos + i ≤ o.qpos)).toNat) 0 false) ∧
    (s.svRuns t.val w.toNat 0x62 → Effect (.svLimit t w) s fun u =>
      svWrote s u t.val (o.d.puts o.vl fun i => (decide (o.kpos + i < o.klim)).toNat) 0 false) ∧
    (s.svRuns t.val w.toNat 0x63 → Effect (.svPosid t w) s fun u => svWrote s u t.val (o.d.puts o.vl fun i => o.kpos + i) 0 false) ∧
    (s.svRuns t.val w.toNat 0x70 →
      (∀ i, i < o.vl → 0 ≤ signedOf 32 (s.elem t.val o.s2 i).1 ∧ signedOf 32 (s.elem t.val o.s2 i).1 < o.s1.count) →
      Effect (.svPerm t w) s fun u => svWrote s u t.val (o.d.puts o.vl fun i => a (signedOf 32 (s.elem t.val o.s2 i).1).toNat) 0 false) ∧
    (s.svRuns t.val w.toNat 0x71 → (∀ i, i < o.vl → shufIndex o.shuf i < o.vl) → Effect (.svShuf t w) s fun u =>
      svWrote s u t.val (o.d.puts o.vl fun i => a (shufIndex o.shuf i)) 0 false) ∧
    (s.svRuns t.val w.toNat 0x72 → Effect (.svPack t w) s fun u =>
      svWrote s u t.val (o.d.puts (2 * o.vl) fun i => if i % 2 = 0 then a (i / 2) else (s.elem t.val o.s2 (i / 2)).1) 0 false) ∧
    (s.svRuns t.val w.toNat 0x73 → Effect (.svUnpke t w) s fun u => svWrote s u t.val (o.d.puts o.vl fun i => a (2 * i)) 0 false) ∧
    (s.svRuns t.val w.toNat 0x74 → Effect (.svUnpko t w) s fun u => svWrote s u t.val (o.d.puts o.vl fun i => a (2 * i + 1)) 0 false) ∧
    (s.svRuns t.val w.toNat 0x80 → Effect (.svCvt t w) s fun u =>
      svWrote s u t.val (o.d.puts o.vl fun i => (convertOn o.s1.ety o.d.ety (a i) o.sat (if o.shifts then o.shift else 0)).1)
        (flagsOf o.vl fun i => (convertOn o.s1.ety o.d.ety (a i) o.sat (if o.shifts then o.shift else 0)).2) false)

/-- Stream control and the conversion unit: `vl` takes the least of the length asked for and VLMAX, descriptors advance by `vl` or one
element, a request joins the queue, its end writes its result and removes it, waiting on an empty queue changes nothing, and a status
read answers the CSR. -/
def Obligations.StreamControl : Prop :=
  ∀ (t : TileId) (w : BitVec 32) (s : State), s.ready t.val →
    (∀ x1 : Word, svControlOk w.toNat 0 = true → Effect (.svSetvl t w x1) s fun u =>
      u.csr t.val 0x800 = min x1.toNat (65536 / 2 ^ bits w.toNat 21 20) ∧
      xregWrite s u t.val (wRd w.toNat) (min x1.toNat (65536 / 2 ^ bits w.toNat 21 20)) ∧ { u with csrs := s.csrs, xregs := s.xregs } = s) ∧
    (svControlOk w.toNat 1 = true → Effect (.svSetvlc t w) s fun u =>
      u.csr t.val 0x800 = min (s.desc t.val (bits w.toNat 17 15)).count (65536 / 2 ^ bits w.toNat 21 20) ∧
      xregWrite s u t.val (wRd w.toNat) (min (s.desc t.val (bits w.toNat 17 15)).count (65536 / 2 ^ bits w.toNat 21 20)) ∧
      { u with csrs := s.csrs, xregs := s.xregs } = s) ∧
    (∀ n, n < 8 → bits w.toNat 22 15 = 2 ^ n → tyPacked (s.desc t.val n).ety = false → (s.desc t.val n).stride ≠ 0 →
      (svControlOk w.toNat 2 = true → Effect (.svAdv t w) s fun u =>
        (u.desc t.val n).base = wrapTo 19 (((s.desc t.val n).base : Int) + (s.csrBits t.val 0x800 16 0 : Nat) * (s.desc t.val n).stride) ∧
        (u.desc t.val n).count = (s.desc t.val n).count - s.csrBits t.val 0x800 16 0 ∧ { u with csrs := s.csrs } = s) ∧
      (svControlOk w.toNat 3 = true → Effect (.svAdv1 t w) s fun u =>
        (u.desc t.val n).base = wrapTo 19 (((s.desc t.val n).base : Int) + (s.desc t.val n).stride) ∧
        (u.desc t.val n).count = (s.desc t.val n).count - 1 ∧ { u with csrs := s.csrs } = s)) ∧
    (svControlOk w.toNat 4 = true → (s.tile t.val).fcuq = [] → exec (.svFwait t w) s = .next s.finish) ∧
    (∀ r ∈ fcuRows, svCode w.toNat = r.2 → bits w.toNat 6 0 = 0x2B → (s.svOp t.val w.toNat).check (s.dqEn t.val) = none →
      (s.tile t.val).fcuq.length < 4 → s.serves (flaskOf t.val) = true → Effect (r.1 t w) s fun u =>
        u.tile t.val = { s.tile t.val with
          fcuq := (s.tile t.val).fcuq ++ [{ (s.svOp t.val w.toNat).request (s.tile t.val).nextSeq with since := s.now }],
          nextSeq := (s.tile t.val).nextSeq + 1 } ∧ { u with tiles := s.tiles } = s) ∧
    (∀ q, (s.tile t.val).fcuReady = some q → s.engineUp t.val = true → s.unwatched → Effect (.fcuRequestDone t) s fun u =>
      (u.tile t.val).fcuq = (s.tile t.val).fcuq.filter (fun r => r.seq ≠ q.seq) ∧
      u.mem = (s.fcuCompute t.val q.sv).puts.foldl (fun m p => putBitsAt m (storeAt t.val) p) s.mem) ∧
    (∀ rd : Reg, (s.tile t.val).fcuq = [] →
      (Effect (.svStatusRead t false rd) s fun u => xregWrite s u t.val rd.val (s.csr t.val 0x802) ∧ { u with xregs := s.xregs } = s) ∧
      (Effect (.svStatusRead t true rd) s fun u => xregWrite s u t.val rd.val (s.csr t.val 0x803) ∧ { u with xregs := s.xregs } = s))

/-! ### Synchronisation -/

/-- Counter rows. A post within the capacity adds to the value; a take or a satisfied wait subtracts and answers the old value; a wait that
is not satisfied takes an entry and blocks; a read answers the value; an init sets value and capacity. -/
def Obligations.CounterRows : Prop :=
  ∀ (c : Core) (w : BitVec 32) (x1 x2 : Word) (s : State) (id n : Nat) (k : Counter), id = x1.toNat → n = x2.toNat % 2 ^ 32 →
    k = s.counter id →
    (s.counterReach (coreIx c) 0 w.toNat id → k.cap ≠ 0 → k.value + n ≤ k.cap → s.unwaited id →
      Effect (.syPost c w x1 x2) s fun u => counterOnly s u id (k.value + n) k.cap ∧ recordsOnly { s with counters := u.counters } u) ∧
    (s.counterReach (coreIx c) 1 w.toNat id → k.cap ≠ 0 → n ≤ k.value →
      Effect (.syTake c w x1 x2) s fun u => counterOnly s u id (k.value - n) k.cap ∧ xregWrite s u (coreIx c) (wRd w.toNat) k.value ∧
        { u with counters := s.counters, xregs := s.xregs } = s) ∧
    (s.counterReach (coreIx c) 2 w.toNat id → k.cap ≠ 0 → n ≤ k.cap → n ≤ k.value → s.unwaited id →
      Effect (.syWait c w x1 x2) s fun u => counterOnly s u id (k.value - n) k.cap ∧ xregWrite s u (coreIx c) (wRd w.toNat) k.value ∧
        (u.core (coreIx c)).blocked = .none ∧ { u with counters := s.counters, xregs := s.xregs, cores := s.cores } = s) ∧
    (s.counterReach (coreIx c) 2 w.toNat id → k.cap ≠ 0 → n ≤ k.cap → k.value < n → s.waitsOn (counterTile id) < 64 →
      Effect (.syWait c w x1 x2) s fun u => u.counters = s.counters ∧ u.xregs = s.xregs ∧
        ∃ d, (u.core (coreIx c)).blocked = .wait id n (wRd w.toNat) d ∧ u.waits = s.waits ++ [⟨coreIx c, id, n, wRd w.toNat, d, s.now⟩] ∧
          (d = none ↔ (if coreIx c < 4096 then s.csr (coreIx c) 0x860 % 2 ^ 48 else 0) = 0)) ∧
    (s.counterReach (coreIx c) 3 w.toNat id → k.cap ≠ 0 →
      Effect (.syRead c w x1 x2) s fun u => xregWrite s u (coreIx c) (wRd w.toNat) k.value ∧ { u with xregs := s.xregs } = s) ∧
    (s.counterReach (coreIx c) 4 w.toNat id → n ≤ x2.toNat / 2 ^ 32 → s.unwaited id →
      Effect (.syInit c w x1 x2) s fun u => counterOnly s u id n (x2.toNat / 2 ^ 32) ∧ { u with counters := s.counters, waits := s.waits } = s ∧
        u.waits = s.waits)

/-- Blocked waits and barriers. A held wait presented again is satisfied as a wait is; an expired wait answers −1 and consumes nothing; an
arrival answers the slot's generation and is counted; the last arrival of a flask's slot starts the next generation; a wait for a
generation that has passed goes on, and for the current one blocks. -/
def Obligations.WaitsAndBarriers : Prop :=
  (∀ (c : Core) (s : State) (id n rd : Nat) (d : Option Nat), rd < 32 → (s.core (coreIx c)).blocked = .waitHeld id n rd d →
    s.waitsOn (counterTile id) < 64 → n ≤ (s.counter id).value → s.waits.any (fun e => e.id = id) = false →
    Effect (.syWaitRetry c) s fun u => counterOnly s u id ((s.counter id).value - n) (s.counter id).cap ∧
      xregWrite s u (coreIx c) rd (s.counter id).value ∧ (u.core (coreIx c)).blocked = .none) ∧
  (∀ (c : Core) (s : State) (id n rd d : Nat), rd < 32 →
    ((s.core (coreIx c)).blocked = .wait id n rd (some d) → Effect (.syWaitTimeout c) s fun u =>
      (rd ≠ 0 → u.xreg (coreIx c) rd = 2 ^ 64 - 1) ∧ (u.core (coreIx c)).blocked = .none ∧ (∀ e ∈ u.waits, e.core ≠ coreIx c) ∧
      ((∀ e ∈ s.waits, e.core = coreIx c) → u.counters = s.counters ∧ xregWrite s u (coreIx c) rd (2 ^ 64 - 1))) ∧
    ((s.core (coreIx c)).blocked = .waitHeld id n rd (some d) → Effect (.syWaitTimeout c) s fun u =>
      xregWrite s u (coreIx c) rd (2 ^ 64 - 1) ∧ (u.core (coreIx c)).blocked = .none ∧
      { u with xregs := s.xregs, cores := s.cores } = s)) ∧
  (∀ (t : TileId) (w : BitVec 32) (x1 x2 : Word) (s : State) (f b : Nat), f = flaskOf t.val → b = x1.toNat → b < 8 → s.ready t.val →
    (syOk t.val 8 w.toNat = true → s.coreQuiet t.val = true → mapGet 0 s.ecrok.lateFaults t.val = 0 → s.slotMisuse t.val b true = 0 →
      (State.slotFull { s with arrived := mapPut 0 s.arrived (f * 8 + b) (putBits (s.slotArrived f b) (t.val % 16) (t.val % 16) 1) }
        (s.slotFlasks f b) b = false → Effect (.syArrive (.tile t) w x1 x2) s fun u =>
        xregWrite s u t.val (wRd w.toNat) (s.slotGen f b) ∧
        u.slotArrived f b = putBits (s.slotArrived f b) (t.val % 16) (t.val % 16) 1 ∧ { u with xregs := s.xregs, arrived := s.arrived } = s) ∧
      (s.slotLevel f b = 0 → putBits (s.slotArrived f b) (t.val % 16) (t.val % 16) 1 = s.slotMembers f b → s.serves f = true →
        Effect (.syArrive (.tile t) w x1 x2) s fun u => u.slotArrived f b = 0 ∧ u.slotGen f b = (s.slotGen f b + 1) % 2 ^ 32)) ∧
    (syOk t.val 9 w.toNat = true → s.slotMisuse t.val b false = 0 →
      (s.slotGen f b ≠ x2.toNat → exec (.syBwait (.tile t) w x1 x2) s = .next s.finish) ∧
      (s.slotGen f b = x2.toNat → Effect (.syBwait (.tile t) w x1 x2) s fun u =>
        (u.core t.val).blocked = .bwait b x2.toNat s.now ∧ u.xregs = s.xregs)))

/-- Deques and watch ranges. A push or pop that finds room or work copies 64 bytes, moves BOT and answers 1, else it answers 0 and changes
nothing else; a steal from a named tile of the same context takes the oldest descriptor and answers the tile, else it answers −1; a watch
range named with the right to do so is armed, and one of the allotment is disarmed. -/
def Obligations.DequesAndRanges : Prop :=
  ∀ (t : TileId) (w : BitVec 32) (x1 x2 : Word) (s : State) (a rd : Nat) (r : Range), a = x1.toNat → rd = wRd w.toNat → s.ready t.val →
    r = ((a : Int), ((a + 64 : Nat) : Int)) →
    (dqOffset a = none → syOk t.val 16 w.toNat = true → s.unitsBlock t.val [r] [] = false →
      (s.dqEn t.val = true → s.dqCount t.val < 256 → s.unwatched → Effect (.syPush (.tile t) w x1 x2) s fun u =>
        xregWrite s u t.val rd 1 ∧ u.dqBot t.val = (s.dqBot t.val + 1) % 2 ^ 32 ∧ u.dqTop t.val = s.dqTop t.val ∧
        u.mem = (s.copySlot (storeAt t.val + a) (dqSlot t.val (s.dqBot t.val))).mem) ∧
      (¬(s.dqEn t.val = true ∧ s.dqCount t.val < 256) → Effect (.syPush (.tile t) w x1 x2) s fun u =>
        xregWrite s u t.val rd 0 ∧ { u with xregs := s.xregs } = s)) ∧
    (dqOffset a = none → syOk t.val 17 w.toNat = true → s.unitsBlock t.val [r] [r] = false →
      (s.dqCount t.val ≠ 0 → s.unwatched → Effect (.syPop (.tile t) w x1 x2) s fun u =>
        xregWrite s u t.val rd 1 ∧ u.dqBot t.val = (s.dqBot t.val + 2 ^ 32 - 1) % 2 ^ 32 ∧ u.dqTop t.val = s.dqTop t.val ∧
        u.mem = (s.copySlot (dqSlot t.val ((s.dqBot t.val + 2 ^ 32 - 1) % 2 ^ 32)) (storeAt t.val + a)).mem) ∧
      (s.dqCount t.val = 0 → Effect (.syPop (.tile t) w x1 x2) s fun u =>
        xregWrite s u t.val rd 0 ∧ { u with xregs := s.xregs } = s)) ∧
    (∀ v, v = x2.toNat → v < 4096 → dqOffset a = none → syOk t.val 18 w.toNat = true → s.unitsBlock t.val [] [r] = false →
      bitAt (s.csr t.val 0x861) 1 = true →
      ((s.core v).ctx = (s.core t.val).ctx → (s.core t.val).ctx.isSome = true → s.dqEn v = true → s.serves (flaskOf v) = true →
        s.moving v = false → s.dqCount v ≠ 0 → s.unwatched → Effect (.sySteal (.tile t) w x1 x2) s fun u =>
          xregWrite s u t.val rd v ∧ u.dqTop v = (s.dqTop v + 1) % 2 ^ 32) ∧
      ((s.core v).ctx ≠ (s.core t.val).ctx ∨ (s.core t.val).ctx = none ∨ s.dqEn v = false → Effect (.sySteal (.tile t) w x1 x2) s fun u =>
        xregWrite s u t.val rd (2 ^ 64 - 1) ∧ recordsOnly { s with xregs := u.xregs, csrs := u.csrs } u)) ∧
    (syOk t.val 24 w.toNat = true → bitAt x2.toNat 31 = false → bits x2.toNat 63 37 = 0 → a % 256 = 0 →
      bitAt (s.getF fdFlaskWatchAllot (pgFlask (flaskOf t.val))) (bits x2.toNat 36 32) = true →
      s.watchGrant t a ((bits x2.toNat 7 0 + 1) * 256) = true →
      (∀ i, i < 16 → bitAt (bits x2.toNat 23 8) i = true →
        s.counterGrant t.val ((flaskOf t.val * 16 + i) * 64 + bits x2.toNat 29 24) = true) →
      Effect (.syWarm (.tile t) w x1 x2) s fun u =>
        u.getF fdFlaskWatchBase (pgFlask (flaskOf t.val)) (bits x2.toNat 36 32) = a % 2 ^ fdFlaskWatchBase.width ∧
        u.getF fdFlaskWatchCfg (pgFlask (flaskOf t.val)) (bits x2.toNat 36 32) = bits x2.toNat 30 0 ∧
        u.getF fdFlaskWatchArmed (pgFlask (flaskOf t.val)) (bits x2.toNat 36 32) = 1 ∧ regsOnly s u) ∧
    (syOk t.val 25 w.toNat = true → a < 32 → bitAt (s.getF fdFlaskWatchAllot (pgFlask (flaskOf t.val))) a = true →
      Effect (.syWdis (.tile t) w x1 x2) s fun u => fieldOnly s u fdFlaskWatchArmed (pgFlask (flaskOf t.val)) a 0 ∧ regsOnly s u)

/-! ### Memory -/

/-- HBM accesses that nothing holds back. A read answers the bytes and their poison; a store within one line opens a merger entry with its
bytes and mask; a fetching atomic answers the old 64 bytes and applies its operation; another atomic opens an entry of its operation; a
drained store entry writes the bytes of its mask. -/
def Obligations.HbmAccesses : Prop :=
  (∀ (src : Source) (off : BitVec 40) (len : Nat) (s : State), s.hbmClear { kind := 0, src := src, off := off.toNat, len := len } →
    Effect (.hbmRead src off len) s fun u =>
      u.out = s.out ++ [.memData src (s.bytes off.toNat len) (s.linesPoisoned off.toNat len)] ∧ { u with hbm := s.hbm, out := s.out } = s) ∧
  (∀ (src : Source) (off : BitVec 40) (data : List Byte) (poisoned : Bool) (s : State), data ≠ [] → off.toNat % 128 + data.length ≤ 128 →
    s.hbmClear { kind := 1, src := src, off := off.toNat, len := data.length, data := data, poisoned := poisoned } →
    Effect (.hbmWrite src off data poisoned) s fun u =>
      u.hbm.merge = [{ line := off.toNat / 128, mask := (2 ^ data.length - 1) * 2 ^ (off.toNat % 128),
                       data := lineBytes (off.toNat % 128) data, poisoned := poisoned,
                       arrivals := [(off.toNat, data.length, .none)], since := s.now }] ∧ { u with hbm := s.hbm } = s) ∧
  (∀ (src : Source) (off : BitVec 40) (op ty : BitVec 4) (mask : BitVec 16) (operand : List Byte) (s : State) (line half : Nat)
      (arg cmp : List Byte) (m : Nat), line = off.toNat / 64 * 64 / 128 → half = off.toNat / 64 * 64 % 128 →
    arg = lineBytes half (operand.take 64) → cmp = lineBytes half (operand.drop 64) → m = mask.toNat * 2 ^ (half / atomSize ty.toNat) →
    atomicOk op.toNat ty.toNat mask.toNat = true →
    (s.hbmClear { kind := 2, src := src, off := off.toNat / 64 * 64, len := 64, data := operand, op := op.toNat, ty := ty.toNat,
                   mask := mask.toNat, fetch := true } → mapGet false s.poisonLine line = false → s.unwatched →
      Effect (.hbmAtomic src off op ty mask operand true) s fun u =>
        u.out = s.out ++ [.memData src (((s.bytes (line * 128) 128).drop half).take 64) false] ∧
        u.mem = (s.putBytes (line * 128) (atomLine op.toNat ty.toNat (s.bytes (line * 128) 128) arg cmp m).1).mem) ∧
    (s.hbmClear { kind := 2, src := src, off := off.toNat / 64 * 64, len := 64, data := operand, op := op.toNat, ty := ty.toNat,
                   mask := mask.toNat, fetch := false } → op.toNat ≠ 6 → op.toNat ≠ 7 →
      Effect (.hbmAtomic src off op ty mask operand false) s fun u =>
        u.hbm.merge = [{ line := line, atomic := some (op.toNat, ty.toNat), mask := m, data := arg,
                         arrivals := [(line * 128 + half, 64, .none)], since := s.now }] ∧ { u with hbm := s.hbm } = s)) ∧
  (∀ (site : SiteId) (line : BitVec 33) (s : State) (e : MergeEntry), s.siteOf (line.toNat * 128) = site.val →
    s.mergeFor line.toNat = some e → e.atomic = none → (∀ x ∈ e.arrivals, plainReply x.2.2 = true) → s.unwatched →
    Effect (.mergerDrain site line) s fun u => u.hbm.merge = s.hbm.merge.erase e ∧
      u.mem = (s.putBytes (line.toNat * 128) (maskedBytes (s.bytes (line.toNat * 128) 128) e.data e.mask)).mem)

/-- Sluices and self-refresh. A grant takes the request it serves from its queue and lets it go on, without a token where it borrows; a new
window starts with no served bytes; idle stacks enter self-refresh and others do not; after the exit the held requests go on in order. -/
def Obligations.SluicesAndRefresh : Prop :=
  (∀ (site : SiteId) (p : PolderId) (idle borrows : Bool) (s : State) (r : HbmReq), s.servable site.val p.val idle = some (r, borrows) →
    s.turnOf site.val p.val r idle = true → Effect (.sluiceGrant site p idle) s fun u => ∃ z : State, u = z.accept r ∧
      z.hbm.waiting = s.hbm.waiting.erase r ∧ mapGet 0 z.hbm.lastServed site.val = p.val + 1 ∧
      (borrows = true → z.hbm.buckets = s.hbm.buckets) ∧ { z with hbm := s.hbm } = s) ∧
  (∀ (site : SiteId) (s : State), Gives (.sluiceWindow site) s fun t => { t with hbm := s.hbm } = s ∧
    ∀ p w, t.windowBytes site.val p w = 0) ∧
  (∀ s : State, (s.idleForRefresh = true → Gives .hbmSelfRefresh s fun t => t.hbm.selfRefresh = 1 ∧ { t with hbm := s.hbm } = s) ∧
    (s.idleForRefresh = false → exec .hbmSelfRefresh s = .next s)) ∧
  (∀ s : State, s.hbm.selfRefresh = 2 → Effect .selfRefreshExitDone s fun u =>
    ∃ z : State, u = z.forEach s.hbm.srHeld (fun r s => s.sluice r) ∧ z.hbm.selfRefresh = 0 ∧ z.hbm.srHeld = [] ∧
      { z with hbm := s.hbm } = s)

/-- Upkeep of the stacks. A scrub finding is counted at its channel and a poisoned line is left; hourly counts restart from 0; a reading
sets temperature, maximum and state; HARD for 100 ms stops the node; an evacuation is queued, started and ended; a lane or row repair that
leaves the channel bad is an error. -/
def Obligations.StackUpkeep : Prop :=
  (∀ (site : SiteId) (off : BitVec 40) (s : State), exec (.hbmPatrolScrub site off .clean) s = .next s ∧
    Gives (.hbmPatrolScrub site off .corrected) s (fun t => t = s.channelCe site.val (s.channelOf off.toNat) off.toNat) ∧
    (mapGet false s.poisonLine (off.toNat / 128) = false →
      Gives (.hbmPatrolScrub site off .uncorrectable) s (fun t => t = s.channelDe site.val (s.channelOf off.toNat) off.toNat)) ∧
    (mapGet false s.poisonLine (off.toNat / 128) = true → exec (.hbmPatrolScrub site off .uncorrectable) s = .next s)) ∧
  (∀ s : State, Gives .hourlyCountRoll s fun t => t.err.ceHour = [] ∧ { t with regs := s.regs, err := s.err } = s ∧
    ∀ i c, i < 12 → c < 32 → t.getF fdHbmcChCeHour (pgHbmc i) c = 0) ∧
  (∀ (site : SiteId) (r : Byte) (s : State), s.absentPage (pgHbmc site.val) = false → Gives (.hbmTempReading site r) s fun t =>
    t.getF fdHbmcTempNow (pgHbmc site.val) = r.toNat ∧
    t.getF fdHbmcTempMax (pgHbmc site.val) = max r.toNat (s.getF fdHbmcTempMax (pgHbmc site.val)) % 2 ^ fdHbmcTempMax.width ∧
    t.getF fdHbmcThermState (pgHbmc site.val) = stackState (s.getF fdHbmcThermState (pgHbmc site.val)) r.toNat ∧
    recordsOnly { s with hbm := t.hbm, freeCount := t.freeCount } t) ∧
  (∀ (d : DieId) (s : State),
    (s.getF fdPowerDieState pgPower d.val = 2 → Gives (.thermalHardTimeout (.die d)) s fun t =>
      t = (s.detect pgPower 11 { code := 0x0050, service := BitVec.ofNat 16 d.val }).orderlyStop 3) ∧
    (s.getF fdPowerDieState pgPower d.val ≠ 2 → exec (.thermalHardTimeout (.die d)) s = .next s)) ∧
  (∀ (i : SiteId) (s : State),
    (s.getF fdHbmcThermState (pgHbmc i.val) = 3 → Gives (.thermalHardTimeout (.stack i)) s fun t =>
      t = (s.detect (pgHbmc i.val) 11 { code := 0x0050, service := BitVec.ofNat 16 (i.val * 32) }).orderlyStop 3) ∧
    (s.getF fdHbmcThermState (pgHbmc i.val) ≠ 3 → exec (.thermalHardTimeout (.stack i)) s = .next s)) ∧
  (∀ (site : SiteId) (ch : Fin 32) (s : State) (key : Nat), key = site.val * 32 + ch.val → s.absentPage (pgHbmc site.val) = false →
    (bitAt (s.getF fdHbmcChInService (pgHbmc site.val)) ch.val = true → s.hbm.evacQueue.contains key = false →
      ¬(s.getF fdMemmapEvacBusy pgMemmap = 1 ∧ s.getF fdMemmapEvacCh pgMemmap = key) →
      (s.getF fdMemmapMapouts pgMemmap + s.hbm.evacQueue.length + s.getF fdMemmapEvacBusy pgMemmap < 8 →
        Gives (.evacRequest site ch) s fun t => ∃ z : State,
          t = z.detect (pgHbmc site.val) 5 { code := 0x0013, service := BitVec.ofNat 16 key } ∧
          z.hbm.evacQueue = s.hbm.evacQueue ++ [key] ∧ z.getF fdHbmcChEvacPending (pgHbmc site.val) ch.val = 1) ∧
      (8 ≤ s.getF fdMemmapMapouts pgMemmap + s.hbm.evacQueue.length + s.getF fdMemmapEvacBusy pgMemmap →
        Gives (.evacRequest site ch) s fun t => t = s.raiseSpare 2)) ∧
    (s.hbm.evacQueue.contains key = true → s.getF fdMemmapEvacBusy pgMemmap = 0 →
      s.rangeFree (s.getF fdMemmapTop pgMemmap - 0x80000000) = true → Gives (.evacStart site ch) s fun t =>
        t.hbm.evacQueue = s.hbm.evacQueue.erase key ∧ t.getF fdMemmapEvacBusy pgMemmap = 1 ∧ t.getF fdMemmapEvacCh pgMemmap = key ∧
        t.getF fdMemmapTop pgMemmap = (s.getF fdMemmapTop pgMemmap - 0x80000000) % 2 ^ fdMemmapTop.width ∧
        recordsOnly { s with hbm := t.hbm } t) ∧
    (s.getF fdMemmapEvacBusy pgMemmap = 1 → s.getF fdMemmapEvacCh pgMemmap = key → Gives (.evacCopyDone site ch) s fun t =>
      bitAt (t.getF fdHbmcChInService (pgHbmc site.val)) ch.val = false ∧ t.getF fdMemmapEvacBusy pgMemmap = 0 ∧
      t.hbm.mappedOut = s.hbm.mappedOut ++ [key]) ∧
    ∀ lane, exec (.rowRepair site ch lane false) s = exec (.evacRequest site ch) s ∧ Gives (.rowRepair site ch lane true) s fun t =>
      t = s.detect (pgHbmc site.val) 5 { code := 0x0012, service := BitVec.ofNat 16 key })

/-- The linkage array. A producer index write is a write of 8 bytes; a free engine takes the next problem of the next queue and reads it, and
ends it at once past SOFT or where it reads an error; an iteration is counted and decides the problem's code by residual, MAXITER and SOFT; a
problem's end frees its engine and writes its outputs; a batch whose problems ended is reported, warm records first; the array gates when idle
and wakes; a spare takes an engine's place and its contact problem restarts. -/
def Obligations.LinkageArray : Prop :=
  (∀ (src : Source) (q : CtxId) (v : Word) (s : State) (off : Nat), off = s.getF fdLsaQPidx pgLsa q.val → off % 128 ≤ 120 →
    s.hbmClear { kind := 1, src := src, off := off, len := 8, data := leBytes 8 v.toNat } →
    Effect (.lsaPidxWrite src q v) s fun u =>
      u.hbm.merge = [{ line := off / 128, mask := (2 ^ 8 - 1) * 2 ^ (off % 128), data := lineBytes (off % 128) (leBytes 8 v.toNat),
                       arrivals := [(off, 8, .none)], since := s.now }] ∧ { u with hbm := s.hbm } = s) ∧
  (∀ (e : EngineId) (s z y : State) (b : LsaBatch) (d : List Byte) (bad : Bool) (r : LsaRun) (stop : Option Nat),
    s.lsa.gated = false → e.val < s.getF fdLsaEngInService pgLsa → s.lsaEngine e.val = none → s.lsaNext = some b →
    State.engineRead { s with lsa := { (s.putBatch { b with next := b.next + 1 }).lsa with lastQueue := b.q } } (b.prob + 64 * b.next) 64 =
      (z, d, bad) →
    (bad = true → Effect (.lsaProblemStart e) s fun u =>
      u = (z.lsaPoison (z.lsaCtx b.q) (b.prob + 64 * b.next)).lsaEnd (lsaDesc b b.next d) 3 0 0 false) ∧
    (bad = false → b.soft ≠ 0 → b.soft ≤ z.now → Effect (.lsaProblemStart e) s fun u => u = z.lsaEnd (lsaDesc b b.next d) 3 0 0 true) ∧
    (bad = false → (b.soft = 0 ∨ z.now < b.soft) → z.lsaRead b b.next d = (y, r, stop) → Effect (.lsaProblemStart e) s fun u =>
      (stop = none → u.lsaEngine e.val = some r ∧ { u with lsa := y.lsa } = y) ∧ ∀ code, stop = some code → u = y.lsaEnd r code 0 0 true)) ∧
  (∀ (e : EngineId) (s : State) (r : LsaRun) (b : LsaBatch) (resid : Nat), s.lsaEngine e.val = some r → s.lsaBatch r.q r.k = some b →
    r.op = 4 → r.nc ≠ 0 → r.code = 0 → resid = Config.linkageResidual r.operands r.start (r.iter + 1) % 2 ^ 64 →
    Gives (.lsaIterationEnd e) s fun t => { t with lsa := s.lsa } = s ∧ ∃ x, t.lsaEngine e.val = some x ∧ x.iter = r.iter + 1 ∧
      (r.best = 0 → x.best = resid + 1 ∧ x.bestIter = r.iter + 1) ∧
      (r.best ≠ 0 → (fmtFP64.decode (r.best - 1)).lt (fmtFP64.decode resid) = true → x.best = r.best ∧ x.bestIter = r.bestIter) ∧
      (residualDone resid b.tol = true → x.code = 1) ∧
      (residualDone resid b.tol = false → b.maxIter ≤ r.iter + 1 → x.code = 10) ∧
      (residualDone resid b.tol = false → r.iter + 1 < b.maxIter → b.soft ≠ 0 → b.soft ≤ s.now → x.code = 2) ∧
      (residualDone resid b.tol = false → r.iter + 1 < b.maxIter → (b.soft = 0 ∨ s.now < b.soft) → x.code = 0)) ∧
  (∀ (e : EngineId) (s z : State) (r : LsaRun), s.lsaEngine e.val = some r → ¬(r.op = 4 ∧ r.nc ≠ 0 ∧ r.code = 0) → r.poisoned = false →
    z = s.setEngine e.val none → r.code ≠ 9 →
    (r.code = 8 → Effect (.lsaProblemEnd e) s fun u =>
      u = z.lsaEnd r 7 (Config.linkageSat r.op r.operands r.start r.bestIter % 2 ^ 16) (if r.nc = 0 then 0 else r.best - 1) true) ∧
    (r.code ≠ 8 → Effect (.lsaProblemEnd e) s fun u =>
      u = ((z.engineWrite (engineOf (s.lsaCtx r.q)) r.outAt ((lsaOut r).flatMap (leBytes 8))).lsaShadow r (lsaOut r)).lsaEnd r (r.code - 1)
        (Config.linkageSat r.op r.operands r.start r.bestIter % 2 ^ 16) (if r.nc = 0 then 0 else r.best - 1) true)) ∧
  (∀ (q : CtxId) (s : State) (b : LsaBatch),
    ((s.lsa.batches.find? fun b => b.q = q.val && (b.refused || b.codes.length = b.count)) = some b →
      Effect (.lsaBatchComplete q) s fun u =>
        u = (s.forEach b.shadow fun x t => t.engineWrite (engineOf (s.lsaCtx q.val)) x.1 x.2).lsaReport b) ∧
    ((s.lsa.batches.find? fun b => b.q = q.val && b.hard ≠ 0 && !b.refused && b.codes.length ≠ b.count) = some b →
      ∀ (z : State) (x : LsaBatch),
        z = (s.forEach (s.lsaOn b) fun r s => ((s.setEngine r.1 none).lsaAbort r.2).lsaEnd r.2 2 0 0 true).forEach
          (upFrom b.next (b.count - b.next)) (fun i s => (s.engineRead (b.prob + 64 * i) 64).1.lsaEnd
            (lsaDesc b i (s.engineRead (b.prob + 64 * i) 64).2.1) 3 0 0 (!(s.engineRead (b.prob + 64 * i) 64).2.2)) →
        z.lsaBatch b.q b.k = some x → Effect (.lsaHardDeadline q) s fun u => u = z.lsaReport { x with shadow := [], codes := if x.codes.any fun y => y.2 = 2 then x.codes else mapIns x.codes 4096 2 })) ∧
  (∀ s : State,
    (s.getF fdLsaGateIdleUs pgLsa ≠ 0 → s.lsa.batches = [] → s.lsa.poked = [] → s.lsa.gated = false → Gives .lsaGate s fun t =>
      t.lsa = { s.lsa with gated := true } ∧ recordsOnly { s with lsa := t.lsa } t) ∧
    (s.lsa.waking = true → Effect .lsaWakeDone s fun u =>
      u.lsa = { s.lsa with gated := false, waking := false } ∧ recordsOnly { s with lsa := u.lsa } u)) ∧
  (∀ (e : EngineId) (s : State), s.getF fdLsaEngSparesUsed pgLsa < 2 → Gives (.lsaEngineRemap e) s fun t =>
    t.getF fdLsaEngSparesUsed pgLsa = s.getF fdLsaEngSparesUsed pgLsa + 1 ∧
    (∀ r, s.lsaEngine e.val = some r → r.op = 4 → r.code = 0 →
      t.lsaEngine e.val = some { r with iter := 0, best := 0, bestIter := 0, code := 0 }))

/-- Steps of a graph. A due context releases its step; a prewake wakes the node's flasks or the gated array; a node starts on its tiles, its
kernels bound; a done word ends its node; a node whose end has come ends with its code; a vote commits or fails the step; HARD abandons it; a
lost vote ends it. -/
def Obligations.GraphSteps : Prop :=
  ∀ (c : CtxId) (s z : State),
    (∀ g, (s.ctx c.val).isOpen = true → s.ctxState c.val = csRunning → (s.ctx c.val).run.active = false →
      (s.ctx c.val).uncorrected = false → (s.ctx c.val).nextRelease ≠ 0 → s.applyAllot c.val = some z → z.graph c.val = some g →
      Effect (.stepRelease c) s fun u => u = z.release c.val g) ∧
    (∀ n : NodeIx,
      ((s.gnode c.val n.val).kind = 3 → s.lsa.gated = true → Effect (.prewake c n) s fun u => u.lsa.waking = true ∧
        recordsOnly { s with lsa := { s.lsa with waking := true } } u) ∧
      ((s.gnode c.val n.val).kind ≠ 3 → Effect (.prewake c n) s fun u =>
        u = s.forEach (s.nodeFlasks c.val n.val) fun f t => (t.wakeCmd f).trace 56 c.val f t.now) ∧
      ((s.nodeFlasks c.val n.val).any (fun f => s.getF fdComCtrlQuiesce (pgFlask f) = 1) = false → (s.gnode c.val n.val).kind = 1 →
        (s.ctx c.val).run.active = true → s.nodeReady c.val n.val = true → (∀ f ∈ s.nodeFlasks c.val n.val, s.relReady f = true) →
        s.tilesFree c.val n.val = true → s.firstInLine c.val n.val = true → (s.bindNode c.val n.val false).1 = some z →
        Effect (.tileNodeStart c n) s fun u => ∃ y : State, y = (z.lateWakes c.val n.val).startNode c.val n.val ∧
          u = y.withRun c.val fun r => { r with tilesLeft := r.tilesLeft ++ (y.nodeTiles c.val n.val).map fun t => (n.val, t) }) ∧
      ((s.gnode c.val n.val).kind = 2 → ∀ v, Effect (.doneWordWrite c n v) s fun u =>
        u = (s.engineWrite (engineOf c.val) (s.gnode c.val n.val).p1 (leBytes 8 v.toNat)).nodeEnd c.val n.val) ∧
      ((s.ctx c.val).run.active = true → s.nodeCode c.val n.val = nsRunning →
        (∀ code, s.endCode c.val n.val = (z, some code) → Effect (.nodeEnd c n) s fun u => u = z.finishNode c.val n.val code) ∧
        (s.endCode c.val n.val = (z, none) → Effect (.nodeEnd c n) s fun u => u = z))) ∧
    (∀ v w : Word, (s.ctx c.val).run.voted = true → (s.ctx c.val).run.active = true →
      w = (if (s.graph c.val).elim true (fun g => g.group = 0xFFFF) then BitVec.ofNat 64 (s.ctx c.val).run.voteWord else v) →
      (s.ctx c.val).run.voteWord < 2 ^ 64 →
      z = (((s.setRuns (s.coll.runs.filter fun y => !(y.ctx = c.val && y.kind = 2))).trace 17 c.val (s.ctx c.val).run.heat
        w.toNat).withRun c.val fun r => { r with voted := false }) →
      (bitAt w.toNat 63 = true → Effect (.voteResult c v) s fun u => u = z.failStep c.val w.toNat) ∧
      (bitAt w.toNat 63 = false → (z.ctx c.val).uncorrected = false → Effect (.voteResult c v) s fun u => u = z.commitStep c.val w.toNat)) ∧
    ((s.ctx c.val).run.hard ≠ 0 → Effect (.stepHardDeadline c) s fun u => u = s.stepHard c.val) ∧
    ((s.ctx c.val).run.voted = true → (s.ctx c.val).run.active = true →
      z = (((((s.setRuns (s.coll.runs.filter fun y => !(y.ctx = c.val && y.kind = 2))).writeRecord c.val 6 0).withRun c.val fun r =>
        { r with voted := false }).closeStep c.val).trace 5 c.val 0 6).jobFatal c.val 0x0101 0 0 →
      (z.graph c.val).elim false (fun g => bitAt g.flags 0) = true →
      Effect (.voteLost c) s fun u => u = z.scheduleNext c.val (z.nextAfter c.val 0))

/-! ### Ports and fabric time -/

/-- Flits of a port in service. A flit that the FEC or the CRC refuses owes a NAK; the next DATA flit in order gives its payload; any other
good flit only its ACK and credits; a port sends IDLE while its transmit lanes are swapped, then a replay's flits, flits taken over, and new
data of the channel granted, else IDLE. -/
def Obligations.PortFlits : Prop :=
  ∀ (p : PortId) (s : State), s.portUp p.val = true →
    (∀ flit : List Byte, flit.length = 256 →
      (fecCorrect flit = none → Gives (.flitReceive p flit) s fun t => (t.port p.val).nak = true ∧ { t with ports := s.ports } = s) ∧
      ∀ (f : List Byte) (places : List Nat) (h : Nat) (z : State), fecCorrect flit = some (f, places) → h = leField f 0 7 →
        ((leField f 240 4 ≠ crc32c (f.take 240) ∨ 2 < h % 16) → Gives (.flitReceive p flit) s fun t => (t.port p.val).nak = true) ∧
        (leField f 240 4 = crc32c (f.take 240) → h % 16 = 0 → z = (s.countSymbols p.val places).flitAcks p.val h →
          (bits h 13 4 + 1024 - (z.port p.val).rxLast) % 1024 = 1 → Effect (.flitReceive p flit) s fun u =>
            u = z.flitData p.val h ((f.drop 7).take 233)) ∧
        (leField f 240 4 = crc32c (f.take 240) → h % 16 = 1 → Effect (.flitReceive p flit) s fun u =>
          u = (s.countSymbols p.val places).flitAcks p.val h)) ∧
    ((s.port p.val).swapTx = true → Gives (.flitSend p) s fun t => ∃ b, t.out = s.out ++ [.flit p.val b] ∧
      { t with ports := s.ports, out := s.out } = s) ∧
    ((s.port p.val).swapTx = false →
      (∀ f rest, (s.port p.val).unacked.drop (s.port p.val).cursor = f :: rest → Gives (.flitSend p) s fun t => t = s.resendFlit p.val f) ∧
      ((s.port p.val).unacked.drop (s.port p.val).cursor = [] → (s.port p.val).unacked.length < 256 →
        (∀ f rest, (s.port p.val).carry = f :: rest → (s.port p.val).hasCredit f.vc = true →
          ((s.port p.val).queue.any fun w => w.begun && w.vc = f.vc && w.home ≠ f.home) = false → Gives (.flitSend p) s fun t =>
            t = (s.setPort p.val { s.port p.val with carry := rest }).sendFlit p.val f) ∧
        ((s.port p.val).carry = [] →
          (∀ v, s.grant p.val = some v → Gives (.flitSend p) s fun t => t = s.buildFlit p.val v) ∧
          (s.grant p.val = none → (s.newRound p.val).grant p.val = none → Gives (.flitSend p) s fun t => ∃ b, t.out = s.out ++ [.flit p.val b] ∧
            { t with ports := s.ports, out := s.out } = s))))

/-- The life of a port. A swap with spares enough puts it into SWAPPING and one without into DOWN; the last swap's end returns it to UP; a
retry escalation is counted and swaps or retrains; a retrained port is UP or DOWN; comb failures, spare lock, laser lock, training, identity
and delay bring it up as R294–R302 say. -/
def Obligations.PortLife : Prop :=
  ∀ (p : PortId) (s : State),
    (∀ (dir : Direction) (circuits : BitVec 18) (new : List Nat), s.portUp p.val = true → new ≠ [] →
      new = (circuitsOf circuits.toNat).filter (fun c => !bitAt (s.getF (fdFailed dir) (pgPort p.val)) c) →
      (new.length ≤ s.getF (fdSpares dir) (pgPort p.val) → Effect (.swap p dir circuits) s fun u => u.portState p.val = psSwapping) ∧
      (s.getF (fdSpares dir) (pgPort p.val) < new.length → Effect (.swap p dir circuits) s fun u => u = s.portDown p.val 1)) ∧
    (s.portState p.val = psSwapping →
      ((s.port p.val).swapTx = true → (s.port p.val).swapRx = false → Effect (.swapDone p .tx) s fun u => u.portState p.val = psUp) ∧
      ((s.port p.val).swapRx = true → (s.port p.val).swapTx = false → Effect (.swapDone p .rx) s fun u => u.portState p.val = psUp) ∧
      ((s.port p.val).swapRx = true → (s.port p.val).swapTx = true → Effect (.swapDone p .rx) s fun u =>
        (u.port p.val).swapRx = false ∧ (u.port p.val).swapTx = true ∧ u.portState p.val = psSwapping)) ∧
    (∀ corrected : List Nat,
      (s.getF fdPortSwapThresh (pgPort p.val) = 0 → Gives (.laneErrorWindow p corrected) s fun t =>
        t = s.setPort p.val { s.port p.val with corrected := [] }) ∧
      (s.getF fdPortSwapThresh (pgPort p.val) ≠ 0 →
        (∀ c, c < 18 → mapGet 0 (s.port p.val).corrected c + corrected.getD c 0 ≤ s.getF fdPortSwapThresh (pgPort p.val)) →
        Effect (.laneErrorWindow p corrected) s fun u => u = s.setPort p.val { s.port p.val with corrected := [] })) ∧
    (∀ (dir : Direction) (circuits : BitVec 18) (z : State), s.portUp p.val = true →
      z = (s.addF fdPortRetryEscalations (pgPort p.val) 0 1).detect (pgPort p.val) 6 { code := 0x0020 } →
      (1 ≤ circuitCount circuits.toNat → circuitCount circuits.toNat ≤ z.getF (fdSpares dir) (pgPort p.val) →
        Effect (.retryEscalation p dir circuits) s fun u => u = (z.emit (.swap p.val dir circuits.toNat)).startSwap p.val dir circuits.toNat) ∧
      (z.getF (fdSpares dir) (pgPort p.val) < circuitCount circuits.toNat → Effect (.retryEscalation p dir circuits) s fun u =>
        u.portState p.val = psRetrain)) ∧
    (s.portState p.val = psRetrain →
      (Effect (.retrainDone p true) s fun u => u.portState p.val = psUp) ∧
      (Effect (.retrainDone p false) s fun u => u = s.portDown p.val 4)) ∧
    (∀ source : Fin 3, s.portState p.val ≠ psOff → s.getF fdPortCombSpare (pgPort p.val) = 0 → source.val < 2 → ∀ z : State,
      z = (s.setPort p.val { s.port p.val with combFailed := source.val, trained := false, identified := false }).setF fdPortCombSpare
        (pgPort p.val) 0 1 →
      Effect (.combFail p source) s fun u => u = ((z.portDown p.val 2).detect (pgOpteng p.val) 6 { code := 0x0022 }).raiseSpare 1) ∧
    (s.getF fdPortCombSpare (pgPort p.val) = 1 → Effect (.combSpareLock p) s fun t => t.portState p.val = psTraining ∧
      t.getF fdPortCombSpare (pgPort p.val) = (2 + (s.port p.val).combFailed) % 2 ^ fdPortCombSpare.width) ∧
    (s.portState p.val = psLaser → Gives (.portLaserLock p) s fun t => t.portState p.val = psTraining) ∧
    (s.portState p.val = psTraining → Gives (.portTrained p) s fun t => (t.port p.val).trained = true ∧
      t.out = s.out ++ [.identity p.val s.nodeId p.val (s.getF fdPortRole (pgPort p.val))] ∧ { t with ports := s.ports, out := s.out } = s) ∧
    (∀ (node : NodeField) (port : BitVec 5) (role : BitVec 4), (s.portState p.val = psTraining ∧ (s.port p.val).trained = true) →
      (peerFits s.nodeId (s.getF fdPortRole (pgPort p.val)) node.toNat port.toNat role.toNat = true →
        Gives (.identityExchange p node port role) s fun t => t.portState p.val = psTraining ∧
          t.getF fdPortPeerNode (pgPort p.val) = node.toNat ∧ t.getF fdPortPeerPort (pgPort p.val) = port.toNat) ∧
      (peerFits s.nodeId (s.getF fdPortRole (pgPort p.val)) node.toNat port.toNat role.toNat = false →
        Gives (.identityExchange p node port role) s fun t => t.portState p.val = psMiscabled)) ∧
    (s.portState p.val = psTraining → Gives (.portRetryTimer p) s fun t =>
      (t.port p.val).trained = false ∧ (t.port p.val).identified = false ∧ { t with ports := s.ports } = s) ∧
    (s.portState p.val = psMiscabled → Gives (.portRetryTimer p) s fun t =>
      t.out = s.out ++ [.identity p.val s.nodeId p.val (s.getF fdPortRole (pgPort p.val))] ∧ { t with out := s.out } = s) ∧
    (∀ ps : BitVec 24, s.portState p.val = psTraining → (s.port p.val).trained = true → (s.port p.val).identified = true →
      Effect (.delayMeasured p ps) s fun u => u.portState p.val = psUp ∧ u.getF fdPortDelay (pgPort p.val) = ps.toNat)

/-- Fabric time. The node sends TIME to the ports away from its parent; a locked child steers by the error of its parent's packets; a PPS
edge is latched; a comparator fires once and flasks that cannot act are remembered; a reference is compared, and a lost one stops the node. -/
def Obligations.FabricTime : Prop :=
  (∀ (s : State) (ps : List Nat), s.ftState ≠ ftOff → s.ftState ≠ ftAcquire →
    ps = (List.range 18).filter (fun p => p / 2 ≠ s.getF fdFtimeParent pgFtime && s.portUp p) → Gives .timeSend s fun t =>
      t.out = s.out ++ ps.zipIdx.map (fun x => .time x.1 s.now (Config.freeValue (s.freeCount + x.2) % 256) (s.getF fdFtimeDepth pgFtime)) ∧
      { t with out := s.out, freeCount := s.freeCount } = s) ∧
  (∀ (p : PortId) (ttx : Word) (sub : Byte) (depth : BitVec 6) (rxSub : Byte) (s : State) (e : Int), s.nodeIdValid = true →
    s.getF fdFtimeParent pgFtime ≤ 8 → p.val = s.timePort (s.getF fdFtimeParent pgFtime) → s.portState p.val = psUp →
    (s.port p.val).published = true → s.ftState = ftLocked →
    e = ((ttx.toNat * 256 + sub.toNat : Nat) - (s.now * 256 + rxSub.toNat : Nat) : Int) * 500 + s.getF fdPortDelay (pgPort p.val) * 256 →
    -(50 * ns1) ≤ e → e ≤ 50 * ns1 → Effect (.timePacket p ttx sub depth rxSub) s fun u =>
      u.getF fdFtimeErrorPs pgFtime = wrapTo 32 (e / 256) ∧ u.getF fdFtimeDepth pgFtime = (depth.toNat + 1) % 2 ^ fdFtimeDepth.width ∧
      u.ftState = ftLocked ∧ { u with regs := s.regs, freeCount := s.freeCount } = s) ∧
  (∀ (highNs : Nat) (s : State), 100 ≤ highNs → (s.ftime.lastPps = 0 ∨ 1000000000 ≤ s.now + 1 - s.ftime.lastPps) →
    Gives (.ppsEdge highNs) s fun t => t.getF fdFtimePpsTime pgFtime = s.now % 2 ^ fdFtimePpsTime.width ∧ t.ftime.lastPps = s.now + 1 ∧
      { t with regs := s.regs, ftime := s.ftime, freeCount := s.freeCount } = s) ∧
  (∀ (k : Fin 32) (s : State), s.getF fdFtimeRelArm pgFtime k.val = 1 →
    (k.val % 2 = 1 → Effect (.comparatorFire k) s fun u => u = (s.fireRel k.val false).timedFired (k.val / 2)) ∧
    (k.val % 2 = 0 → Effect (.comparatorFire k) s fun u => u = s.fireRel k.val false ∧
      ((∀ f, f < 256 → s.relNames k.val f = true → s.relReady f = false) →
        u.relPending = s.relPending ++ ((List.range 256).filter (s.relNames k.val)).map (fun f => (k.val, f)) ∧
        u.getF fdFtimeRelArm pgFtime k.val = 0 ∧ u.getF fdFtimeRelFired pgFtime k.val = s.now % 2 ^ fdFtimeRelFired.width))) ∧
  (∀ (ppb : BitVec 32) (s : State), s.ftState = ftLocked → s.getF fdClkRefState pgClk ≠ 2 → Gives (.refCompare ppb) s fun t =>
    t.getF fdClkRefPpb pgClk = ppb.toNat % 2 ^ fdClkRefPpb.width ∧
    t.getF fdClkRefState pgClk = (decide (100000 < ppb.toInt.natAbs)).toNat ∧ regsOnly s t) ∧
  (∀ s : State, Gives .refLost s fun t => t = (s.setF fdClkRefState pgClk 0 2).orderlyStop 4)

/-! ### The fabric -/

/-- Requests that the node admits. Each advances its flow's expected SEQ by one; a READ answers the bytes of a tile store, a WRITE stores its
payload, an atomic applies its operation; a message takes the next slot of its context's ring or is BUSY where the ring is full; an update with
an older epoch is acknowledged and not applied; a LOWMARK notes LOW; a duplicate is answered and not applied; a request of another
generation or job is dropped and counted. -/
def Obligations.FabricRequests : Prop :=
  ∀ (d : FabricDie) (pk : Packet) (s z : State), z = s.admitted pk →
    z.expected pk = (s.expected pk + 1) % 2 ^ 32 ∧
    (s.admits pk → z.repliesFull d.val = false → ∀ t o, z.fabricPlace pk = .store t o → z.serves (flaskOf t) = true → z.moving t = false →
      z.dequeOwns t o pk.len.toNat = false → Effect (.read d pk) s fun u => u = z.respondKept d.val pk
        (if z.wordsPoisoned (storeAt t + o) pk.len.toNat then stPOISON else stOK) (z.bytes (storeAt t + o) pk.len.toNat)) ∧
    (s.admits pk → z.repliesFull d.val = false → ∀ o, z.fabricPlace pk = .hbm o → Effect (.read d pk) s fun u =>
      u = z.submit { kind := 0, src := .fabric pk.job, off := o, len := pk.len.toNat, reply := .fabric d pk }) ∧
    (s.admits pk → ∀ t o, z.fabricPlace pk = .store t o → z.serves (flaskOf t) = true → z.moving t = false →
      z.dequeOwns t o pk.payload.length = false → Effect (.write d pk) s fun u =>
        u = ((z.storeBytes (storeAt t + o) pk.payload (bitAt pk.mask.toNat 0)).watchWrite (storeAt t + o) pk.payload.length).respond
          pk kRESPACK stOK []) ∧
    (s.admits pk → ∀ o, z.fabricPlace pk = .hbm o → Effect (.write d pk) s fun u =>
      u = z.submit { kind := 1, src := .fabric pk.job, off := o, len := pk.payload.length, data := pk.payload,
                     poisoned := bitAt pk.mask.toNat 0, reply := .fabric d pk }) ∧
    (s.admits pk → atomicOk pk.op.toNat pk.ty.toNat pk.mask.toNat = true → ∀ o, z.fabricPlace pk = .hbm o →
      (Effect (.atomic d pk) s fun u =>
        u = z.submit { kind := 2, src := .fabric pk.job, off := o / 64 * 64, len := 64, data := pk.payload, op := pk.op.toNat,
                       ty := pk.ty.toNat, mask := pk.mask.toNat, fetch := false, reply := .fabric d pk }) ∧
      (z.repliesFull d.val = false → Effect (.atomicF d pk) s fun u =>
        u = z.submit { kind := 2, src := .fabric pk.job, off := o / 64 * 64, len := 64, data := pk.payload, op := pk.op.toNat,
                       ty := pk.ty.toNat, mask := pk.mask.toNat, fetch := true, reply := .fabric d pk })) ∧
    (s.admits pk → ∀ (c n cons : Nat) (y : State), c = pk.offset.toNat % 16 → (z.ctx c).isOpen = true → (z.ctx c).job = pk.job.toNat →
      z.getF fdEcrokMringEn pgEcrok c = 1 → n = 2 ^ z.getF fdEcrokMringLog2 pgEcrok c → cons = z.getF fdEcrokMringCons pgEcrok c →
      y = z.drainRange cons 8 →
      ((z.getF fdEcrokMringTail pgEcrok c + 2 ^ 32 - y.loadNat cons 8 % 2 ^ 32) % 2 ^ 32 < n → pk.payload.length ≤ 254 →
        ∀ a, a = z.getF fdEcrokMringBase pgEcrok c + z.getF fdEcrokMringTail pgEcrok c % n * 256 → Effect (.msg d pk) s fun u =>
          ∃ x : State, x = (y.drainRange a 256).hbmBytes a ((pk.payload ++ zeros (254 - pk.payload.length)).take 254 ++
            leBytes 2 pk.payload.length) (bitAt pk.mask.toNat 0) ∧
          u = ((x.setF fdEcrokMringTail pgEcrok c (z.getF fdEcrokMringTail pgEcrok c + 1)).watchWrite a 256).respond pk kRESPACK stOK []) ∧
      (n ≤ (z.getF fdEcrokMringTail pgEcrok c + 2 ^ 32 - y.loadNat cons 8 % 2 ^ 32) % 2 ^ 32 → pk.kind.toNat = kMSG → Effect (.msg d pk) s fun u =>
        u = ((s.count pgEcrok 1 1).noteLow pk).respond pk kRESPACK stBUSY [])) ∧
    (s.admits pk → ∀ (base : Nat) (y : State), base = z.replicaBase pk.job.toNat pk.offset.toNat → y = z.drainRange base 8 →
      (leField pk.payload 0 8 < y.loadNat base 8 → Effect (.rupdate d pk) s fun u => u = y.respond pk kRESPACK stDUP []) ∧
      (y.loadNat base 8 ≤ leField pk.payload 0 8 → ∀ rq : HbmReq,
        rq = { kind := 1, src := .fabric pk.job, off := pk.offset.toNat, len := (pk.payload.drop 8).length, data := pk.payload.drop 8,
               poisoned := bitAt pk.mask.toNat 0, reply := .fabric d pk } → y.hbmRefusal rq = none →
        Effect (.rupdate d pk) s fun u => u = (y.hbmBytes base (leBytes 8 (leField pk.payload 0 8))).submit rq)) ∧
    (s.nodeIdValid = true → packetBad pk = false → s.tagCheck pk = .served → Effect (.lowmark d pk) s fun u =>
      mapGet 0 u.ecrok.inLow (flowKey pk.src.toNat pk.ovc.toNat) = pk.low.toNat ∧ { u with ecrok := s.ecrok } = s) ∧
    (s.nodeIdValid = true → packetBad pk = false → s.err.out = false →
      (s.tagCheck pk = .served → pk.seq.toNat ≠ s.expected pk → seqBehind (s.expected pk) pk.seq.toNat ≤ 4096 →
        Effect (.write d pk) s fun u => u = ((s.count pgEcrok 1 1).noteLow pk).answerDup pk) ∧
      (s.tagCheck pk = .stale → Effect (.write d pk) s fun u => u = (s.count pgEcrok 1 1).dropStale) ∧
      (s.tagCheck pk = .foreign → Effect (.write d pk) s fun u => u = (s.count pgEcrok 1 1).dropForeign))

/-- Responses, forwarding and timers. A response frees its tag slot and completes the request, waits where it says BUSY, and is counted where
nothing waits for it; a forwarded packet leaves over its next route step; LOW is sent where it changed; a BUSY request goes again; a timer
counts, and without reissues left completes the request as of a dead target. -/
def Obligations.FabricAnswers : Prop :=
  (∀ mk ∈ [Instr.respData, Instr.respAck], ∀ (d : FabricDie) (pk : Packet) (s : State) (k : Nat) (t : TagSlot),
    k = d.val * 65536 + pk.tagSlot.toNat → t = s.tag k → s.answers d.val pk →
    (pk.mask.toNat % 256 ≠ stBUSY → Effect (mk d pk) s fun u =>
      u = ((s.setTag k { gen := t.gen }).complete t.ctx t.pk.dst.toNat t.origin pk.mask.toNat pk.payload).unstall t.pk.dst.toNat
        t.pk.ovc.toNat) ∧
    (pk.mask.toNat % 256 = stBUSY → Effect (mk d pk) s fun u =>
      u.tag k = { t with busy := if t.busy = 0 then 1 else min 64 (2 * t.busy) } ∧ { u with ecrok := s.ecrok } = s)) ∧
  (∀ mk ∈ [Instr.respData, Instr.respAck], ∀ (d : FabricDie) (pk : Packet) (s : State), s.nodeIdValid = true → packetBad pk = false →
    (s.tag (d.val * 65536 + pk.tagSlot.toNat)).active = false → Effect (mk d pk) s fun u => u = s.addF fdEcrokCntLate pgEcrok 0 1) ∧
  (∀ (p : PortId) (pk : Packet) (s : State) (pair : Nat), s.nodeIdValid = true → pk.malformed = false → pk.job ≠ 0 →
    s.jobCommitted pk.job.toNat = true → pk.hop.toNat < 24 → bits pk.route.toNat (4 * pk.hop.toNat + 3) (4 * pk.hop.toNat) ≠ 0xF →
    pair = codePair (bits pk.route.toNat (4 * pk.hop.toNat + 3) (4 * pk.hop.toNat)) → routeLen pk.route.toNat 24 ≠ 24 →
    s.getF fdPortRole (pgPort (2 * pair)) ≠ 0xF → s.portState (2 * pair) ≠ 3 → pk.ovc.toNat ≠ vcTRANSIT → Effect (.packetForward p pk) s fun u =>
      u = s.depart { pk with vc := BitVec.ofNat 3 pk.ovc.toNat } pk.hop.toNat) ∧
  (∀ (d : FabricDie) (dst : NodeField) (vc : BitVec 3) (s : State) (k : Nat), k = flowKey dst.toNat vc.toNat →
    (mapGet 0 s.ecrok.outLow k = s.flowLow dst.toNat vc.toNat → Effect (.lowmarkSend d dst vc) s fun u => u = s) ∧
    (mapGet 0 s.ecrok.outLow k ≠ s.flowLow dst.toNat vc.toNat → Effect (.lowmarkSend d dst vc) s fun u =>
      ∃ (z : State) (pk : Packet), u = z.send pk ∧ mapGet 0 z.ecrok.outLow k = s.flowLow dst.toNat vc.toNat ∧
        { z with ecrok := s.ecrok } = s ∧ pk.kind = BitVec.ofNat 5 kLOWMARK ∧ pk.dst = BitVec.ofNat 17 dst.toNat ∧
        pk.low = BitVec.ofNat 32 (s.flowLow dst.toNat vc.toNat))) ∧
  (∀ (d : FabricDie) (slot : BitVec 16) (s : State) (k : Nat) (t : TagSlot), k = d.val * 65536 + slot.toNat → t = s.tag k → t.active = true →
    (t.busy ≠ 0 → Effect (.busyResend d slot) s fun u => u = s.send t.pk) ∧
    ∀ z : State, z = ((s.addF fdEcrokCntTimeout pgEcrok 0 1).count pgEcrok 3 1).event pgEcrok 0 (some 2) 0x0130 t.ctx t.pk.dst.toNat →
      (z.getF fdEcrokTmoRetries pgEcrok t.ctx ≤ t.tries → Effect (.completionTimeout d slot) s fun u =>
        u = ((z.setTag k { gen := (t.gen + 1) % 4 }).complete t.ctx t.pk.dst.toNat t.origin stDEAD []).unstall t.pk.dst.toNat
          t.pk.ovc.toNat) ∧
      (t.tries < z.getF fdEcrokTmoRetries pgEcrok t.ctx → z.laterTags t = [(k, t)] → Effect (.completionTimeout d slot) s fun u =>
        ∃ x : TagSlot, u = (z.setTag k x).send x.pk ∧ x.tries = t.tries + 1 ∧ x.gen = (t.gen + 1) % 4 ∧ x.busy = 0 ∧
          x.pk = { t.pk with tagGen := BitVec.ofNat 2 ((t.gen + 1) % 4) }))

/-- Coherence at the home agent. A request with no transaction on its line and no other holder is granted: a shared copy joins the sharers,
an exclusive one becomes the owner; a request on a busy line is queued; a writeback or clean eviction leaves the directory; INV, RECALL and
DOWNGRADE take the line from this node's caches or share it, a dirty copy going back as data. -/
def Obligations.CoherenceRequests : Prop :=
  ∀ (pk : Packet) (s z : State) (l w : Nat), z = s.cohNote pk none → l = cohLine pk → w = nodeW pk.src.toNat →
    (∀ r ∈ [(Instr.getS, 0), (Instr.getM, 1), (Instr.upgrade, 2)], s.cohTakes r.2 pk → l * 128 < s.getF fdMemmapTop pgMemmap →
      s.mayReach (.fabric pk.job) (l * 128) = true → (s.coh.active.any fun t => t.line = l) = true → s.cohQueueFull l = false →
      Effect (r.1 pk) s fun u => u.coh.queue = s.coh.queue ++ [{ line := l, kind := r.2, pk := some pk }] ∧ { u with coh := s.coh } = s) ∧
    (∀ r ∈ [(Instr.getS, 0), (Instr.getM, 1), (Instr.upgrade, 2)], s.cohTakes r.2 pk → l * 128 < s.getF fdMemmapTop pgMemmap →
      s.mayReach (.fabric pk.job) (l * 128) = true → (s.coh.active.any fun t => t.line = l) = false → s.hbm.merge = [] →
      (s.dirLine l).owner = none →
      (putBits (s.dirLine l).sharers w w 0 = 0 → Effect (r.1 pk) s fun u =>
        u.dirLine l = { owner := some w, sharers := 0, job := pk.job.toNat, gen := pk.gen.toNat }) ∧
      (r.2 = 0 → putBits (s.dirLine l).sharers w w 0 ≠ 0 → Effect (r.1 pk) s fun u =>
        u.dirLine l = { owner := none, sharers := putBits (s.dirLine l).sharers w w 1, job := pk.job.toNat, gen := pk.gen.toNat })) ∧
    (s.cohTakes 3 pk → (s.dirLine l).owner = some w → Effect (.putM pk) s fun u =>
      u = ((z.cohWriteBack l pk.payload (bitAt pk.mask.toNat 0)).dirDrop l w).cohReply pk opACK [] false) ∧
    (s.cohTakes 4 pk → Effect (.putC pk) s fun u => u = (z.dirDrop l w).cohReply pk opACK [] false ∧
      ((s.dirLine l).owner = some w → (u.dirLine l).owner = none)) ∧
    (s.cohTakes 5 pk → Effect (.inv pk) s fun u => u = (z.dropCached w l).cohReply pk opINVACK [] false ∧ u.cached w l = {}) ∧
    (s.cohTakes 6 pk →
      ((s.cached w l).state = 3 → Effect (.recall pk) s fun u =>
        u = (z.dropCached w l).cohReply pk opRECALLDATA (s.cached w l).data (s.cached w l).poisoned ∧ u.cached w l = {}) ∧
      ((s.cached w l).state ≠ 3 → Effect (.recall pk) s fun u => u = (z.dropCached w l).cohReply pk opINVACK [] false ∧ u.cached w l = {})) ∧
    (s.cohTakes 7 pk →
      ((s.cached w l).state = 3 → Effect (.downgrade pk) s fun u => u.cached w l = { s.cached w l with state := 1 } ∧
        u = (z.setCached w l { s.cached w l with state := 1 }).cohReply pk opRECALLDATA (s.cached w l).data (s.cached w l).poisoned) ∧
      ((s.cached w l).state = 0 → Effect (.downgrade pk) s fun u => u = z.cohReply pk opINVACK [] false) ∧
      ((s.cached w l).state = 1 ∨ (s.cached w l).state = 2 → Effect (.downgrade pk) s fun u =>
        u.cached w l = { s.cached w l with state := 1 } ∧
        u = (z.setCached w l { s.cached w l with state := 1 }).cohReply pk opACK [] false))

/-- Coherence answers. A grant gives this node the line and ends its request; ACK_E makes the line exclusive; an ACK ends a put; a RETRY
doubles the wait up to 64 µs; an invalidation answer takes its holder from the directory and from the answers awaited, and data comes back to
memory first; a waiting request goes again, and one without an answer completes as of a dead target. -/
def Obligations.CoherenceAnswers : Prop :=
  ∀ (pk : Packet) (s : State) (l w : Nat), l = cohLine pk → w = nodeW pk.src.toNat →
    (∀ (slot : Nat) (r : CohReq), s.cohMine pk = some (slot, r) →
      (s.cohTakes 8 pk → Effect (.dataS pk) s fun u => mapGet {} u.coh.reqs slot = {} ∧ { u with coh := s.coh } = s ∧
        u.cached w l = { state := 1, data := pk.payload, poisoned := bitAt pk.mask.toNat 0, ctx := r.ctx }) ∧
      (s.cohTakes 9 pk → Effect (.dataE pk) s fun u => mapGet {} u.coh.reqs slot = {} ∧ { u with coh := s.coh } = s ∧
        u.cached w l = { state := 2, data := pk.payload, poisoned := bitAt pk.mask.toNat 0, ctx := r.ctx }) ∧
      (s.cohTakes 10 pk → (s.cached w l).state ≠ 0 → Effect (.ackE pk) s fun u => mapGet {} u.coh.reqs slot = {} ∧
        { u with coh := s.coh } = s ∧ u.cached w l = { s.cached w l with state := 2 }) ∧
      (s.cohTakes 11 pk → Effect (.ack pk) s fun u => mapGet {} u.coh.reqs slot = {} ∧ { u with coh := s.coh } = s) ∧
      (s.cohTakes 14 pk → Effect (.retry pk) s fun u => { u with coh := s.coh } = s ∧
        mapGet {} u.coh.reqs slot = { r with wait := if r.wait = 0 then 1 else min 64 (2 * r.wait) })) ∧
    (∀ (tx : CohTx) (z : State), z = s.cohNote pk none →
      (s.coh.active.find? fun t => t.line = l && t.tag = cohTag pk && bitAt t.waiting w) = some tx →
      (s.cohTakes 12 pk → Effect (.invAck pk) s fun u => u = (z.dirDrop l w).cohArrived tx w ∧
        (putBits tx.waiting w w 0 ≠ 0 →
          u.coh.active = s.coh.active.map (fun t => if t = tx then { tx with waiting := putBits tx.waiting w w 0 } else t))) ∧
      (s.cohTakes 13 pk → tx.kind ≠ 0 → tx.kind ≠ 4 → Effect (.recallData pk) s fun u =>
        u = ((z.cohWriteBack l pk.payload (bitAt pk.mask.toNat 0)).dirDrop l w).cohArrived tx w) ∧
      (s.cohTakes 13 pk → (tx.kind = 0 ∨ tx.kind = 4) → Effect (.recallData pk) s fun u =>
        u = ((z.cohWriteBack l pk.payload (bitAt pk.mask.toNat 0)).dirShare l w).cohArrived tx w)) ∧
    (∀ (slot : BitVec 16) (r : CohReq), r = mapGet {} s.coh.reqs slot.toNat → r.active = true →
      (r.wait ≠ 0 → Effect (.cohRetryResend slot) s fun u => u = s.send r.pk) ∧
      ∀ (z : State) (v : Nat), v = nodeW r.pk.dst.toNat →
        z = ((State.dropWaiting { s with coh := { s.coh with reqs := mapPut {} s.coh.reqs slot.toNat {} } } r.origin).complete r.ctx
          r.pk.dst.toNat r.origin stDEAD []) →
        Effect (.cohTimeout slot) s fun u => ∃ y : State, y = { z with coh := { z.coh with lost := putBits z.coh.lost v v 1 } } ∧
          u = y.forEach ((y.ctxsWith (z.nodeId / 4 * 4 + v)).filter fun x => x ≠ r.ctx)
            fun x t => t.jobFatal x 0x0100 0 (z.nodeId / 4 * 4 + v))

/-- Collectives. A ready COLLECTIVE node starts; a child's chunk on the way up and the parent's on the way down join their run, which goes on;
a packet of a collective that this member has not started is held; a timeout ends the run with code 6 and raises JOB_FATAL. -/
def Obligations.Collectives : Prop :=
  (∀ (c : CtxId) (n : NodeIx) (s z : State), (s.gnode c.val n.val).kind = 4 → s.nodeReady c.val n.val = true →
    z = (s.startNode c.val n.val).drainRange (s.gnode c.val n.val).p0 64 → z.timedBusy c.val n.val = false →
    Effect (.collectiveStart c n) s fun u => u = z.startCollective c.val n.val) ∧
  (∀ mk ∈ [Instr.collUp, Instr.quickUp], ∀ (d : FabricDie) (pk : Packet) (s : State) (c e tree k i : Nat) (r x : CollRun),
    pk.kind.toNat = 0x19 ∨ pk.kind.toNat = 0x1B → s.collReaches pk c e r → tree = pk.mask.toNat % 2 →
    k = r.ofWire (grpMembers e) tree pk.offset.toNat (pk.kind.toNat = 0x1B) →
    ((grpChildren e tree).findIdx? fun x => x = pk.src.toNat) = some i → r.seen.contains (0, tree, k, i) = false →
    x = { r with seen := r.seen ++ [(0, tree, k, i)], ups := r.ups ++ [{ from' := i, tree := tree, chunk := k, data := pk.payload, poison := pk.poison, flags := pk.mask.toNat / 256, mark := bitAt pk.mask.toNat 1 }] } →
    Effect (mk d pk) s fun u => u = (s.putRun x).collPump x 3) ∧
  (∀ mk ∈ [Instr.collDown, Instr.quickDown], ∀ (d : FabricDie) (pk : Packet) (s z : State) (c e tree k : Nat) (r x : CollRun),
    pk.kind.toNat = 0x1A ∨ pk.kind.toNat = 0x1C → s.collReaches pk c e r → tree = pk.mask.toNat % 2 →
    k = r.ofWire (grpMembers e) tree pk.offset.toNat (pk.kind.toNat = 0x1C) → grpRoot e tree = false → grpParent e tree = pk.src.toNat →
    r.seen.contains (1, tree, k, 0) = false →
    (z, x) = State.collDeliver s { r with seen := r.seen ++ [(1, tree, k, 0)] } e r.phase tree
      (k - ({ r with seen := r.seen ++ [(1, tree, k, 0)] } : CollRun).chunkBase (grpMembers e) r.phase tree)
      (payloadElems (({ r with seen := r.seen ++ [(1, tree, k, 0)] } : CollRun).downTy r.phase) pk.payload pk.poison)
      (bitAt pk.mask.toNat 1) (pk.mask.toNat / 256) →
    Effect (mk d pk) s fun u => u = z.collPump x 3) ∧
  (∀ mk ∈ [Instr.collUp, Instr.quickUp, Instr.collDown, Instr.quickDown], ∀ (d : FabricDie) (pk : Packet) (s : State) (c : Nat),
    s.nodeIdValid = true → packetBad pk = false → s.tagCheck pk = .served →
    (allCtxs.find? fun c => (s.ctx c).isOpen && (s.ctx c).job = pk.job.toNat && (s.groupOf c pk.tagSlot.toNat).isSome) = some c →
    (s.coll.runs.find? fun r => r.ctx = c && r.group = pk.tagSlot.toNat && r.inst = pk.seq.toNat) = none →
    s.collFate c pk.tagSlot.toNat pk.seq.toNat = 0 → s.coll.held.contains pk = false → Effect (mk d pk) s fun u =>
      u.coll.held = s.coll.held ++ [pk] ∧ { u with coll := s.coll } = s) ∧
  (∀ (c : CtxId) (n : NodeIx) (s : State) (r : CollRun),
    (s.coll.runs.find? fun r => r.ctx = c.val && r.kind = 0 && r.node = n.val) = some r → Effect (.collTimeout c n) s fun u =>
      u = (((s.addF fdCollCntTimeout pgColl 0 1).count pgColl 5 1).endRun r 6).jobFatal c.val 0x0102 0 0)

/-! ### Ethernet -/

/-- Ethernet ports. A link state is shown, for `.1` in mode 1 alone; queries and echoes are answered for own addresses only; PTP is published
on eth0 while enabled; PFC pauses a priority that it is enabled for by the time its quanta give, 0 quanta or the expiry let what waited leave
in order, and a frame for another priority is only counted. -/
def Obligations.EthernetPorts : Prop :=
  (∀ (e : EthId) (lp : Fin 2) (up : Bool) (s : State) (v : Nat), v = (if up then 2 else 0) →
    (lp.val = 0 → Gives (.ethLinkChange e lp up) s fun t => fieldOnly s t fdEthLinkL0 (pgEth e.val) 0 v ∧ regsOnly s t) ∧
    (lp.val = 1 → s.getF fdEthMode (pgEth e.val) = 1 → Gives (.ethLinkChange e lp up) s fun t =>
      fieldOnly s t fdEthLinkL1 (pgEth e.val) 0 v ∧ regsOnly s t) ∧
    (lp.val = 1 → s.getF fdEthMode (pgEth e.val) ≠ 1 → Gives (.ethLinkChange e lp up) s fun t => t = s)) ∧
  (∀ (e : EthId) (lp : Fin 2) (v6 : Bool) (addr : BitVec 128) (data : List Byte) (s : State),
    (Config.ownAddress e.val lp.val v6 addr.toNat = true →
      Gives (.neighbourQuery e lp v6 addr) s (fun t =>
        t = { s with out := s.out ++ [.neighbour e.val lp.val addr.toNat (Config.mac e.val lp.val)] }) ∧
      Gives (.icmpEcho e lp addr data) s fun t => t = { s with out := s.out ++ [.echo e.val lp.val addr.toNat data] }) ∧
    (Config.ownAddress e.val lp.val v6 addr.toNat = false → Gives (.neighbourQuery e lp v6 addr) s fun t => t = s) ∧
    (Config.ownAddress e.val lp.val false addr.toNat = false → Config.ownAddress e.val lp.val true addr.toNat = false →
      Gives (.icmpEcho e lp addr data) s fun t => t = s)) ∧
  (∀ (e : EthId) (offset : Word) (rate : BitVec 32) (s : State),
    (e.val ≠ 0 ∨ s.getF fdEthPtpEn (pgEth 0) = 0 → Gives (.ptpEvent e offset rate) s fun t => t = s) ∧
    (e.val = 0 → s.getF fdEthPtpEn (pgEth 0) ≠ 0 →
      (s.ftState ≠ ftRoot ∨ s.getF fdEthPtpSteer (pgEth 0) = 0 ∨ s.getF fdFtimePpsEn pgFtime ≠ 0) →
      Gives (.ptpEvent e offset rate) s fun t =>
        t.getF fdEthPtpOffset (pgEth 0) = offset.toNat ∧ t.getF fdEthPtpRatePpb (pgEth 0) = rate.toNat ∧ regsOnly s t ∧
        ∀ d q j, descKey fdEthPtpOffset (pgEth 0) 0 ≠ descKey d q j → descKey fdEthPtpRatePpb (pgEth 0) 0 ≠ descKey d q j →
          t.getF d q j = s.getF d q j) ∧
    (e.val = 0 → s.getF fdEthPtpEn (pgEth 0) ≠ 0 → s.ftState = ftRoot → s.getF fdEthPtpSteer (pgEth 0) = 1 →
      s.getF fdFtimePpsEn pgFtime = 0 → Gives (.ptpEvent e offset rate) s fun t =>
        ∃ z : State, t = z.freeRate 20000 ∧ z.getF fdEthPtpOffset (pgEth 0) = offset.toNat ∧
          z.getF fdEthPtpRatePpb (pgEth 0) = rate.toNat ∧ regsOnly s z)) ∧
  (∀ (e : EthId) (lp : Fin 2) (prio : BitVec 3) (quanta : BitVec 16) (s : State) (k : Nat), k = prioKey e.val lp.val prio.toNat →
    (bitAt (s.getF fdEthPfcEnable (pgEth e.val)) prio.toNat = false → Gives (.pfcPause e lp prio quanta) s fun t =>
      fieldOnly s t fdComCounter (pgEth e.val) 4 (min (s.getF fdComCounter (pgEth e.val) 4 + 1) (2 ^ 64 - 1)) ∧ regsOnly s t) ∧
    (bitAt (s.getF fdEthPfcEnable (pgEth e.val)) prio.toNat = true → quanta ≠ 0 → Gives (.pfcPause e lp prio quanta) s fun t =>
      t.pause k = { s.pause k with paused := s.now + quanta.toNat * 1024000 / s.lineRate e.val + 1 } ∧
      (∀ j, j ≠ k → t.pause j = s.pause j) ∧ { t with pauses := s.pauses, regs := s.regs } = s) ∧
    (bitAt (s.getF fdEthPfcEnable (pgEth e.val)) prio.toNat = true → quanta = 0 → Gives (.pfcPause e lp prio quanta) s fun t =>
      t.pause k = { s.pause k with paused := 0, held := [] } ∧ t.out = s.out ++ (s.pause k).held ∧
      (∀ j, j ≠ k → t.pause j = s.pause j) ∧ { t with pauses := s.pauses, regs := s.regs, out := s.out } = s) ∧
    Gives (.pfcPauseExpiry e lp prio) s fun t =>
      t.pause k = { s.pause k with paused := 0, held := [] } ∧ t.out = s.out ++ (s.pause k).held ∧
      (∀ j, j ≠ k → t.pause j = s.pause j) ∧ { t with pauses := s.pauses, out := s.out } = s)

/-- Queue pairs as responder. On a pair that is not connected nothing happens; a SEND of 256 B on a command pair joins its queue's ring, and a
ring of 64 answers RNR NAK; a SEND of another length, an RDMA request on a command pair, and one whose region does not admit it are refused
and put the pair in error; an admitted WRITE is stored and an admitted READ submitted, both acknowledged. A host is accepted on a queue that
is free for it, connected by RTU, and disconnected by DREQ. -/
def Obligations.QueuePairResponder : Prop :=
  (∀ (qp : QpIx) (data : List Byte) (ce : Bool) (va : Word) (rkey : BitVec 32) (imm : Option (BitVec 32)) (len : Nat) (s : State),
    (s.qp qp.val).state ≠ 2 → Gives (.roceSend qp data ce) s (fun t => t = s) ∧ Gives (.rdmaWrite qp va rkey data imm ce) s (fun t => t = s) ∧
      Gives (.rdmaRead qp va rkey len ce) s fun t => t = s) ∧
  (∀ (qp : QpIx) (data : List Byte) (ce : Bool) (s b z : State) (x : QueuePair) (k : Queue), (s.qp qp.val).state = 2 →
    b = s.noteCe qp.val ce → x = b.qp qp.val → k = b.queue x.owner → z = b.count (pgEth x.eth) 1 data.length →
    (x.kind = 1 → data.length = 256 → (k.ring.filter fun r => !r.broken).length < 64 → Gives (.roceSend qp data ce) s fun t =>
      ∃ y : State, t = (y.ackRequest qp.val).flushBroken x.owner 64 ∧
        recordsOnly (z.setQueue x.owner { k with ring := joinRing k.ring data b.now, received := k.received + 1 }) y) ∧
    (x.kind = 1 → data.length = 256 → 64 ≤ (k.ring.filter fun r => !r.broken).length → Gives (.roceSend qp data ce) s fun t =>
      recordsOnly (z.roceAnswer qp.val 3) t) ∧
    (x.kind = 1 ∨ x.kind = 2 → x.kind = 2 ∨ data.length ≠ 256 → Gives (.roceSend qp data ce) s fun t =>
      t = z.nak qp.val 1 ∧ (t.qp qp.val).state = 3)) ∧
  (∀ (qp : QpIx) (va : Word) (rkey : BitVec 32) (data : List Byte) (imm : Option (BitVec 32)) (ce : Bool) (s b z : State) (x : QueuePair),
    (s.qp qp.val).state = 2 → b = s.noteCe qp.val ce → x = b.qp qp.val → z = b.count (pgEth x.eth) 1 data.length →
    (x.kind = 1 → Effect (.rdmaWrite qp va rkey data imm ce) s fun u => u = z.nak qp.val 1 ∧ (u.qp qp.val).state = 3) ∧
    (x.kind = 2 → bitAt (b.getF fdEthPfcEnable (pgEth x.eth)) x.pcp = false →
      4194304 < z.ethBuffered (prioKey x.eth x.lp x.pcp) + data.length → Effect (.rdmaWrite qp va rkey data imm ce) s fun u =>
      u = (z.addF fdEthCntDropped (pgEth x.eth) 0 1).count (pgEth x.eth) 2 1) ∧
    (x.kind = 2 → bitAt (b.getF fdEthPfcEnable (pgEth x.eth)) x.pcp = true ∨
        z.ethBuffered (prioKey x.eth x.lp x.pcp) + data.length ≤ 4194304 →
      (z.regionAdmits qp.val va.toNat rkey.toNat data.length 1 = false → Effect (.rdmaWrite qp va rkey data imm ce) s fun u =>
        u = z.nak qp.val 2 ∧ (u.qp qp.val).state = 3) ∧
      (z.regionAdmits qp.val va.toNat rkey.toNat data.length 1 = true →
        z.hbmRefusal { kind := 1, src := .qp qp, off := va.toNat, len := data.length, data := data, reply := .quiet } = none →
        (imm = none → Effect (.rdmaWrite qp va rkey data imm ce) s fun u => u = (z.engineWrite (.qp qp) va.toNat data).ackRequest qp.val) ∧
        ∀ (w : BitVec 32) (y : State), imm = some w →
          ((true, y) = z.immFull qp.val → Effect (.rdmaWrite qp va rkey data imm ce) s fun u => u = y.rnrNak qp.val) ∧
          ((false, y) = z.immFull qp.val → Effect (.rdmaWrite qp va rkey data imm ce) s fun u =>
            u = ((y.engineWrite (.qp qp) va.toNat data).pushImm qp.val w.toNat data.length (.qp qp)).ackRequest qp.val)))) ∧
  (∀ (qp : QpIx) (va : Word) (rkey : BitVec 32) (len : Nat) (ce : Bool) (s b : State) (x : QueuePair), (s.qp qp.val).state = 2 →
    b = s.noteCe qp.val ce → x = b.qp qp.val →
    (x.kind = 1 → Effect (.rdmaRead qp va rkey len ce) s fun u => u = b.nak qp.val 1 ∧ (u.qp qp.val).state = 3) ∧
    (x.kind = 2 → b.regionAdmits qp.val va.toNat rkey.toNat len 0 = false → Effect (.rdmaRead qp va rkey len ce) s fun u =>
      u = b.nak qp.val 2 ∧ (u.qp qp.val).state = 3) ∧
    (x.kind = 2 → b.regionAdmits qp.val va.toNat rkey.toNat len 0 = true →
      b.hbmRefusal { kind := 0, src := .qp qp, off := va.toNat, len := len } = none →
      ((b.drainRange va.toNat len).linesPoisoned va.toNat len = true → Effect (.rdmaRead qp va rkey len ce) s fun u =>
        u = (b.drainRange va.toNat len).nak qp.val 6) ∧
      ((b.drainRange va.toNat len).linesPoisoned va.toNat len = false → Effect (.rdmaRead qp va rkey len ce) s fun u =>
        u = (b.submit { kind := 0, src := .qp qp, off := va.toNat, len := len }).ackRequest qp.val))) ∧
  (∀ (e : EthId) (lp : Fin 2) (gid : BitVec 128) (remote : BitVec 24) (priv : List Byte) (s : State),
    (priv.length < 2 ∨ s.cmAccepts (leField priv 0 2) gid.toNat = false ∨ s.freeQp = none → Gives (.cmReq e lp gid remote priv) s fun t =>
      t = { s with out := s.out ++ [.cm 1 remote.toNat 0] }) ∧
    ∀ i, 2 ≤ priv.length → s.cmAccepts (leField priv 0 2) gid.toNat = true → s.freeQp = some i → Gives (.cmReq e lp gid remote priv) s fun t =>
      (t.qp i).kind = 1 ∧ (t.qp i).state = 1 ∧ (t.qp i).owner = leField priv 0 2 ∧ (t.qp i).eth = e.val ∧ (t.qp i).lp = lp.val ∧
      (t.qp i).remote = remote.toNat ∧ (t.qp i).gid = gid.toNat ∧ t.out = s.out ++ [.cm 0 remote.toNat i] ∧
      (∀ j, j ≠ i → t.qp j = s.qp j) ∧ { t with qps := s.qps, out := s.out, freeCount := s.freeCount } = s) ∧
  (∀ (qp : QpIx) (s : State) (x : QueuePair), x = s.qp qp.val →
    (x.kind = 1 → x.state = 1 → Gives (.cmRtu qp) s fun t => t.qp qp.val = { x with state := 2 } ∧
      t.getF fdEthQpUsed (pgEth x.eth) = min (s.getF fdEthQpUsed (pgEth x.eth) + 1) (2 ^ fdEthQpUsed.width - 1) ∧
      (∀ j, j ≠ qp.val → t.qp j = s.qp j) ∧ { t with qps := s.qps, regs := s.regs } = s) ∧
    (x.kind ≠ 1 ∨ x.state ≠ 1 → Gives (.cmRtu qp) s fun t => t = s) ∧
    (x.kind = 1 → Gives (.cmDreq qp) s fun t => t = (s.qpClose qp.val).emit (.cm 2 x.remote qp.val) ∧ t.qp qp.val = {} ∧
      (t.queue x.owner).session = none ∧ (t.queue x.owner).ring = []) ∧
    (x.kind ≠ 1 → Gives (.cmDreq qp) s fun t => t = s))

/-- Queue pairs as requester. An ACK retires the oldest request; a sequence NAK or an ACK timeout sends every unacknowledged request again, the
eighth in a row puts the pair in error, as a fatal NAK does; an RNR NAK waits for its timer, which sends again up to seven times. A CNP cuts
the rate at most once a period, and a quiet period raises the target and closes a quarter of the gap to it. -/
def Obligations.QueuePairRequester : Prop :=
  ∀ (qp : QpIx) (s : State) (x : QueuePair) (only : State → State → Prop), x = s.qp qp.val → x.kind ≠ 0 →
    (∀ a b, only a b ↔ (∀ j, j ≠ qp.val → b.qp j = a.qp j) ∧ { b with qps := a.qps, pauses := a.pauses, out := a.out } = a) →
    (x.state ≠ 2 → (∀ k, Gives (.roceAck qp k) s fun t => t = s) ∧ Gives (.roceAckTimeout qp) s (fun t => t = s) ∧
      Gives (.rnrRetryTimer qp) s (fun t => t = s) ∧ Gives (.cnpReceive qp) s (fun t => t = s) ∧ Gives (.ccPeriod qp) s fun t => t = s) ∧
    (x.state = 2 →
      Gives (.roceAck qp .ack) s (fun t => only s t ∧ t.out = s.out ∧
        t.qp qp.val = { x with sends := x.sends.drop 1, psnSend := (x.psnSend + 1) % 2 ^ 24, tries := 0, rnr := 0 }) ∧
      (∀ i ∈ [Instr.roceAck qp .nakSequence, .roceAckTimeout qp],
        (x.sends = [] → Gives i s fun t => t = s) ∧
        (x.sends ≠ [] → x.tries < 7 → Gives i s fun t => only s t ∧ t.qp qp.val = { x with tries := x.tries + 1 } ∧
          ((s.pause (prioKey x.eth x.lp x.pcp)).paused = 0 →
            t.out = s.out ++ x.sends.map fun r => .rdma qp.val r.1 r.2.1 r.2.2.1 r.2.2.2)) ∧
        (x.sends ≠ [] → 7 ≤ x.tries → Gives i s fun t => t = s.qpError qp.val ∧ (t.qp qp.val).state = 3)) ∧
      Gives (.roceAck qp .nakFatal) s (fun t => t = s.qpError qp.val ∧ (t.qp qp.val).state = 3 ∧ (t.qp qp.val).sends = []) ∧
      (x.sends ≠ [] → Gives (.roceAck qp .rnr) s fun t => only s t ∧ t.qp qp.val = { x with rnrWait := true }) ∧
      (x.rnrWait = false → Gives (.rnrRetryTimer qp) s fun t => t = s) ∧
      (x.rnrWait = true → x.rnr < 7 → Gives (.rnrRetryTimer qp) s fun t =>
        only s t ∧ t.qp qp.val = { x with rnrWait := false, rnr := x.rnr + 1 }) ∧
      (x.rnrWait = true → 7 ≤ x.rnr → Gives (.rnrRetryTimer qp) s fun t => t = s.qpError qp.val ∧ (t.qp qp.val).state = 3) ∧
      ∀ pg, pg = pgEth x.eth →
        Gives (.cnpReceive qp) s (fun t => { t with qps := s.qps, regs := s.regs } = s ∧
          (x.lastDec = 0 ∨ s.getF fdEthCcPeriodUs pg * 2000 ≤ s.now + 1 - x.lastDec → t.qp qp.val =
            { x with quiet := 0, target := x.rate, lastDec := s.now + 1,
                     rate := max (s.lineRate x.eth / 1024) (x.rate - x.rate * s.getF fdEthCcDec pg / 256) }) ∧
          (x.lastDec ≠ 0 → s.now + 1 - x.lastDec < s.getF fdEthCcPeriodUs pg * 2000 → t.qp qp.val = { x with quiet := 0 })) ∧
        Gives (.ccPeriod qp) s fun t => only s t ∧
          (x.quiet + 1 ≤ s.getF fdEthCcQuiet pg →
            t.qp qp.val = { x with quiet := x.quiet + 1, rate := x.rate + (x.target - x.rate) / 4 }) ∧
          (s.getF fdEthCcQuiet pg < x.quiet + 1 → ∀ g, g = min (s.lineRate x.eth) (x.target + s.getF fdEthCcAiMbps pg) →
            t.qp qp.val = { x with quiet := x.quiet + 1, target := g, rate := x.rate + (g - x.rate) / 4 }))

/-! ### Capsules -/

/-- The checks of every capsule, in order: no session, a feature that the session does not have, a privileged opcode on a tenant queue, and
reserved bits are refused each with its status, and nothing else of the capsule happens; a capsule behind an outstanding one of its queue does
not run. -/
def Obligations.CapsuleChecks : Prop :=
  ∀ r ∈ capRows, ∀ (q : QueueId) (cap : Capsule) (s z : State) (ends : Nat → State → Prop),
    z = (s.capWake r.2).popRing q.val r.2.code cap.tag.toNat → (∀ c t, ends c t ↔ t = z.endCapsule q.val r.2 cap { code := c }) →
    ((s.queue q.val).busy.isSome = true ∨ (s.err.out = true ∧ 4 ≤ q.val) → Gives (r.1 q cap) s fun t => t = s) ∧
    (s.capReaches q r.2 →
      ((z.queue q.val).session = none → r.2.code ≠ 0x0001 → Gives (r.1 q cap) s (ends 0x0F)) ∧
      ∀ f, f = (((z.queue q.val).session.map (·.features)).getD 1) → ((z.queue q.val).session = none → r.2.code = 0x0001) →
        (bitAt f r.2.feature = false → Gives (r.1 q cap) s (ends 0x01)) ∧
        (bitAt f r.2.feature = true → r.2.mgmt = true → 4 ≤ q.val → Gives (r.1 q cap) s (ends 0x02)) ∧
        (bitAt f r.2.feature = true → q.val < 4 → cap.reserved = true → Gives (r.1 q cap) s (ends 0x0B)) ∧
        (bitAt f r.2.feature = true → q.val < 4 → cap.reserved = false → r.2.ctxOp = true → 15 < cap.ctx.toNat →
          Gives (r.1 q cap) s (ends 0x0B)))

/-- Session and context capsules whose header passes: a session opens with the common features and the lower minor version, and ends with its
status sent; a context opens IDLE with what the capsule names and its queues bound, and closes; its flasks and cores change at once or at the
next release; queues are bound, and the status shows the context's registers. What fails a condition is refused with its status. -/
def Obligations.SessionCapsules : Prop :=
  ∀ (q : QueueId) (cap : Capsule) (s z : State) (c : Nat), c = capF cap 0 1 →
    (∀ o : Opcode, o = { code := 0x0001 } → s.capTakes q cap o z → bodyOk cap 36 [(0, 36)] = true →
      (z.getF fdNodectlStatusReady pgNodectl = 0 → Effect (.sessionOpen q cap) s fun u => u = z.endCapsule q.val o cap { code := scBusy }) ∧
      (z.getF fdNodectlStatusReady pgNodectl ≠ 0 → (z.queue q.val).session ≠ none → Effect (.sessionOpen q cap) s fun u =>
        u = z.endCapsule q.val o cap { code := scState }) ∧
      (z.getF fdNodectlStatusReady pgNodectl ≠ 0 → (z.queue q.val).session = none → capF cap 0 2 ≠ z.getF fdSchedProtoMajor pgSched →
        Effect (.sessionOpen q cap) s fun u => u = z.endCapsule q.val o cap { code := scUnsupported, body := z.ownVersion }) ∧
      (z.getF fdNodectlStatusReady pgNodectl ≠ 0 → (z.queue q.val).session = none → capF cap 0 2 = z.getF fdSchedProtoMajor pgSched →
        ∀ n : Session, n = { minor := min (capF cap 2 2) (z.getF fdSchedProtoMinor pgSched), features := capF cap 4 32 &&& z.ownFeatures } →
        Effect (.sessionOpen q cap) s fun u => ∃ y : State, u = y.endCapsule q.val o cap { body := z.ownVersion } ∧
          recordsOnly (z.setQueue q.val { z.queue q.val with session := some n }) y)) ∧
    (s.capTakes q cap { code := 0x0002 } z → bodyOk cap 0 [] = true → Effect (.sessionClose q cap) s fun u =>
      u = (z.answer q.val { op := 0x0002, tag := cap.tag.toNat, ctx := cap.ctx.toNat }).endSession q.val ∧ (u.queue q.val).session = none ∧
      mapGet {} u.spdm q.val = {}) ∧
    (∀ o : Opcode, o = { code := 0x0003 } → s.capTakes q cap o z → bodyOk cap 0 [] = true → Effect (.nop q cap) s fun u =>
      u = z.endCapsule q.val o cap {}) ∧
    (∀ (o : Opcode) (qs fs : List Nat) (gen : Nat), o = { code := 0x0010, mgmt := true, bodyCtx := true } → s.capTakes q cap o z →
      bodyOk cap 100 [(0, 18), (20, 80)] = true → capF cap 1 1 < 8 → capF cap 4 4 < 2 ^ 20 → capF cap 16 2 ≠ 0 →
      qs = maskList (capF cap 52 32) 256 → fs = maskList (capF cap 20 32) 256 → (∀ i ∈ qs, 4 ≤ i) →
      (z.ctxState c ≠ csClosed ∨ z.committedGen (capF cap 4 4) = none → Effect (.ctxOpen q cap) s fun u =>
        u = z.endCapsule q.val o cap { code := scState }) ∧
      (z.ctxState c = csClosed → z.committedGen (capF cap 4 4) = some gen →
        (∀ p ∈ maskList (capF cap 2 2) 16, (z.jobPolders (capF cap 4 4)).contains p = true) →
        (z.allotConflict c fs (capF cap 8 8) = true ∨ z.queueTaken c qs = true → Effect (.ctxOpen q cap) s fun u =>
          u = z.endCapsule q.val o cap { code := scConflict }) ∧
        (z.allotConflict c fs (capF cap 8 8) = false → z.queueTaken c qs = false → Effect (.ctxOpen q cap) s fun u =>
          ∃ y w : State, u = (y.reproChange c).endCapsule q.val o cap {} ∧ recordsOnly (w.bindQueues c (capF cap 84 16) qs) y ∧
            ∀ x : Ctx, x = { isOpen := true, job := capF cap 4 4, gen := gen, polders := capF cap 2 2, flasks := fs, cores := capF cap 8 8,
                             priority := capF cap 1 1 } →
              w = ((z.setCtx c x).setCtxState c csIdle).setF fdPdLlcWays pgPd c (capF cap 16 2)))) ∧
    (∀ o : Opcode, o = { code := 0x0011, mgmt := true, bodyCtx := true } → s.capTakes q cap o z → bodyOk cap 1 [(0, 1)] = true →
      ((z.ctx c).isOpen = true → Effect (.ctxClose q cap) s fun u => u = ((z.trace 10 c q.val 0).closeContext c).endCapsule q.val o cap {}) ∧
      ((z.ctx c).isOpen = false → Effect (.ctxClose q cap) s fun u => u = z.endCapsule q.val o cap { code := scState })) ∧
    (∀ (o : Opcode) (fs : List Nat) (n : Nat), o = { code := 0x0012, mgmt := true, bodyCtx := true } → s.capTakes q cap o z →
      bodyOk cap 48 [(0, 1), (8, 40)] = true → fs = maskList (capF cap 16 32) 256 → n = capF cap 8 8 → (z.ctx c).isOpen = true →
      (z.allotConflict c fs n = true → Effect (.allot q cap) s fun u => u = z.endCapsule q.val o cap { code := scConflict }) ∧
      (z.allotConflict c fs n = false → z.ctxBusy c = true → Effect (.allot q cap) s fun u =>
        u = (z.setCtx c { z.ctx c with pendingAllot := some (fs, n, 0) }).endCapsule q.val o cap {}) ∧
      (z.allotConflict c fs n = false → z.ctxBusy c = false → Effect (.allot q cap) s fun u =>
        u = ((z.setCtx c { z.ctx c with flasks := fs, cores := n }).reproChange c).endCapsule q.val o cap {})) ∧
    (∀ (o : Opcode) (qs : List Nat), o = { code := 0x0013, mgmt := true, bodyCtx := true } → s.capTakes q cap o z →
      bodyOk cap 52 [(0, 1), (4, 48)] = true → qs = maskList (capF cap 4 32) 256 → (∀ i ∈ qs, 4 ≤ i) → (z.ctx c).isOpen = true →
      (z.queueTaken c qs = true → Effect (.queueBind q cap) s fun u => u = z.endCapsule q.val o cap { code := scConflict }) ∧
      (z.queueTaken c qs = false → Effect (.queueBind q cap) s fun u => ∃ y : State, u = y.endCapsule q.val o cap {} ∧
        (∀ i ∈ qs, y.queue i = { z.queue i with ctx := some c, gid := capF cap 36 16 }) ∧ (∀ i, i ∉ qs → y.queue i = z.queue i) ∧
        { y with queues := z.queues } = z)) ∧
    (∀ o : Opcode, o = { code := 0x0014, bodyCtx := true } → s.capTakes q cap o z → bodyOk cap 1 [(0, 1)] = true →
      Effect (.statusQuery q cap) s fun u => u = z.endCapsule q.val o cap
        { body := leBytes 8 (z.getF fdSchedCtxHeat pgSched c) ++ leBytes 1 (z.ctxState c) ++ leBytes 1 (z.getF fdSchedCtxSlot pgSched c) ++
            leBytes 1 (z.getF fdSchedCtxHardRun pgSched c) ++ [0] ++ leBytes 4 (z.getF fdSchedCtxAttempt pgSched c) })

/-- Graph, step and checkpoint capsules whose header passes. A graph is loaded into its slot; replay of a fitting graph starts with its first
release LEAD ahead; a stop takes effect at the boundary, at once between steps; a checkpoint request is kept or refused; a restore starts
and answers when it ends. -/
def Obligations.StepCapsules : Prop :=
  ∀ (q : QueueId) (cap : Capsule) (s z : State) (c : Nat), c = cap.ctx.toNat →
    (∀ o : Opcode, o = { code := 0x0020, feature := 1, ctxOp := true } → s.capTakes q cap o z → bodyOk cap 16 [(0, 1), (8, 8)] = true →
      capF cap 0 1 < 4 → ∀ (y : State) (code order : Nat), (y, code, order) = z.loadGraph c (capF cap 0 1) (capF cap 8 8) (z.features q.val) →
      Effect (.graphLoad q cap) s fun u => u = y.endCapsule q.val o cap { code := code, detail := order }) ∧
    (∀ (o : Opcode) (g : Graph) (x : Ctx), o = { code := 0x0021, feature := 1, ctxOp := true } → s.capTakes q cap o z →
      bodyOk cap 8 [(0, 1), (4, 4)] = true → capF cap 0 1 < 4 → x = z.ctx c →
      (x.isOpen = false ∨ z.ctxState c = csRunning ∨ z.ctxState c = csStopping ∨ z.ctxState c = csClosed ∨ x.uncorrected = true →
        Effect (.stepStart q cap) s fun u => u = z.endCapsule q.val o cap { code := scState }) ∧
      (x.isOpen = true → (z.ctxState c = csIdle ∨ z.ctxState c = csStalled ∨ z.ctxState c = csFaulted) → x.uncorrected = false →
        (z.ckpt c).restore = none → x.graphs.getD (capF cap 0 1) none = some g →
        (g.fits x.flasks.length = false → Effect (.stepStart q cap) s fun u => u = z.endCapsule q.val o cap { code := scPlace }) ∧
        (g.fits x.flasks.length = true → Effect (.stepStart q cap) s fun u => ∃ w : State,
          u = ((w.setCtxState c csRunning).reproStart c g).endCapsule q.val o cap {} ∧
          w = ((z.setF fdSchedCtxSlot pgSched c (capF cap 0 1)).setF fdSchedCtxHardRun pgSched c 0).setCtx c
            { x with features := z.features q.val, commits := 0, history := [], nextRelease := z.now + g.leadTicks,
                     report := if capF cap 4 4 = 0 then none else some (q.val, cap.tag.toNat, capF cap 4 4) }))) ∧
    (∀ o : Opcode, o = { code := 0x0022, feature := 1, ctxOp := true } → s.capTakes q cap o z → bodyOk cap 0 [] = true →
      (z.ctxState c = csStopping → Effect (.stepStop q cap) s fun u => u = z.endCapsule q.val o cap {}) ∧
      (z.ctxState c = csRunning → (z.ctx c).run.active = true → Effect (.stepStop q cap) s fun u => ∃ y : State,
        u = y.endCapsule q.val o cap {} ∧ recordsOnly (z.setCtxState c csStopping) y) ∧
      ((z.ctxState c = csRunning ∧ (z.ctx c).run.active = false) ∨ z.ctxState c = csStalled ∨ z.ctxState c = csFaulted →
        Effect (.stepStop q cap) s fun u => ∃ y : State, u = y.endCapsule q.val o cap {} ∧ recordsOnly (z.stopReplay c csIdle) y) ∧
      (z.ctxState c = csIdle ∨ z.ctxState c = csClosed → Effect (.stepStop q cap) s fun u => u = z.endCapsule q.val o cap { code := scState })) ∧
    (∀ (o : Opcode) (y : State) (code : Nat), o = { code := 0x0030, feature := 5, ctxOp := true } → s.capTakes q cap o z →
      bodyOk cap 16 [(0, 16)] = true → (z.ctx c).isOpen = true → (y, code) = z.ckptRequest c (capF cap 0 8) (capF cap 8 8) →
      Effect (.ckptRequest q cap) s fun u => u = y.endCapsule q.val o cap { code := code } ∧
        (code = 0 → (y.ckpt c).request = some (capF cap 0 8, capF cap 8 8))) ∧
    (∀ (o : Opcode) (y : State) (d : CkptDesc) (code n : Nat) (st : Bool) (rs : List (Nat × Nat × Nat × Nat)),
      o = { code := 0x0031, feature := 5, ctxOp := true } → s.capTakes q cap o z → n = capF cap 9 1 → st = decide (capF cap 8 1 = 1) →
      capF cap 8 1 < 2 → bodyOk cap (if n = 0 then 10 else 16 + 24 * n) [(0, 10), (16, 24 * n)] = true → (st = true → 1 ≤ n ∧ n ≤ 8) →
      (st = false → n = 0) → (z.ctx c).isOpen = true → (y, d, code) = z.restoreCheck c (capF cap 0 8) st →
      rs = (List.range n).map (fun k =>
        (capF cap (16 + 24 * k) 4, capF cap (20 + 24 * k) 4, capF cap (24 + 24 * k) 8, capF cap (32 + 24 * k) 8)) →
      (code ≠ 0 → Effect (.restore q cap) s fun u => u = y.endCapsule q.val o cap { code := code }) ∧
      (code = 0 → Effect (.restore q cap) s fun u =>
        u = (y.setQueue q.val { y.queue q.val with busy := some cap.tag.toNat }).restoreStart c q.val cap.tag.toNat d st rs))

/-- Queue pair and region capsules whose header passes: a data queue pair is connected at its number and closed; a region takes a free R_Key, and
leaves with its generation advanced, so that its R_Key names nothing. -/
def Obligations.RegionCapsules : Prop :=
  ∀ (q : QueueId) (cap : Capsule) (s z : State) (c : Nat), c = cap.ctx.toNat →
    (∀ (o : Opcode) (i e : Nat), o = { code := 0x0040, ctxOp := true } → s.capTakes q cap o z →
      bodyOk cap 48 [(0, 27), (28, 3), (32, 4), (40, 8)] = true → qpIx (capF cap 0 4) = some i → capF cap 4 4 < 2 ^ 24 → capF cap 32 1 ≤ 4 →
      capF cap 33 1 < 8 → 4 ≤ capF cap 34 1 → capF cap 34 1 ≤ 12 → capF cap 35 1 < 4 → e = bits (capF cap 35 1) 1 1 →
      ((z.ctx c).isOpen = false → Effect (.qpConnect q cap) s fun u => u = z.endCapsule q.val o cap { code := scState }) ∧
      ((z.ctx c).isOpen = true → z.freeQp = none → Effect (.qpConnect q cap) s fun u => u = z.endCapsule q.val o cap { code := scNoResource }) ∧
      ((z.ctx c).isOpen = true → z.freeQp ≠ none → (z.qp i).kind = 0 → Effect (.qpConnect q cap) s fun u => ∃ y : State,
        u = y.endCapsule q.val o cap {} ∧ { y with qps := z.qps, regs := z.regs } = z ∧ (∀ j, j ≠ i → y.qp j = z.qp j) ∧
        y.getF fdEthQpUsed (pgEth e) = min (z.getF fdEthQpUsed (pgEth e) + 1) (2 ^ fdEthQpUsed.width - 1) ∧
        y.qp i = { kind := 2, state := 2, owner := c, eth := e, lp := bits (capF cap 35 1) 0 0, remote := capF cap 4 4, gid := capF cap 8 16,
                   psnSend := capF cap 24 3, psnRecv := capF cap 28 3, mtu := capF cap 32 1, pcp := capF cap 33 1, immRing := capF cap 40 8,
                   immLog := capF cap 34 1, rate := z.lineRate e, target := z.lineRate e })) ∧
    (∀ (o : Opcode) (i : Nat), o = { code := 0x0041, ctxOp := true } → s.capTakes q cap o z → bodyOk cap 4 [(0, 4)] = true →
      qpIx (capF cap 0 4) = some i →
      ((z.qp i).kind = 2 → (z.qp i).owner = c → Effect (.qpClose q cap) s fun u => ∃ y : State, u = y.endCapsule q.val o cap {} ∧ y.qp i = {} ∧
        (∀ j, j ≠ i → y.qp j = z.qp j) ∧ { y with qps := z.qps, regs := z.regs } = z) ∧
      ((z.qp i).kind ≠ 2 ∨ (z.qp i).owner ≠ c → Effect (.qpClose q cap) s fun u => u = z.endCapsule q.val o cap { code := scState })) ∧
    (∀ o : Opcode, o = { code := 0x0042, ctxOp := true } → s.capTakes q cap o z → bodyOk cap 17 [(0, 17)] = true → capF cap 16 1 < 4 →
      (z.ctx c).isOpen = true →
      (z.freeRegion = none → Effect (.mrReg q cap) s fun u => u = z.endCapsule q.val o cap { code := scNoResource }) ∧
      ∀ (i : Nat) (g : Nat), z.freeRegion = some i → g = (mapGet {} z.regions i).gen → Effect (.mrReg q cap) s fun u => ∃ y : State,
        u = y.endCapsule q.val o cap { body := leBytes 4 (i + g * 4096) } ∧ { y with regions := z.regions } = z ∧
        mapGet {} y.regions i = { valid := true, gen := g, ctx := c, base := capF cap 0 8, len := capF cap 8 8, perm := capF cap 16 1 } ∧
        ∀ j, j ≠ i → mapGet {} y.regions j = mapGet {} z.regions j) ∧
    (∀ (o : Opcode) (i : Nat) (r : Region), o = { code := 0x0043, ctxOp := true } → s.capTakes q cap o z → bodyOk cap 4 [(0, 4)] = true →
      i = capF cap 0 4 % 4096 → r = mapGet {} z.regions i →
      (r.valid = true → r.gen = capF cap 0 4 / 4096 → r.ctx = c → Effect (.mrDereg q cap) s fun u => ∃ y : State,
        u = y.endCapsule q.val o cap {} ∧ { y with regions := z.regions } = z ∧
        mapGet {} y.regions i = { gen := (r.gen + 1) % 2 ^ 20 } ∧ ∀ j, j ≠ i → mapGet {} y.regions j = mapGet {} z.regions j) ∧
      (r.valid = false ∨ r.gen ≠ capF cap 0 4 / 4096 ∨ r.ctx ≠ c → Effect (.mrDereg q cap) s fun u =>
        u = z.endCapsule q.val o cap { code := scState }))

/-- Trace, log, register, token and reset capsules whose header passes. Points 0–11 stay enabled and only named points are; the log is read from a
number on; registers are read where the session may; a management session's store is as firmware's, and its rejection carries
`FIELD_REJECT`; a token goes to the reeve, which answers; a node reset gives no status. -/
def Obligations.RegisterCapsules : Prop :=
  ∀ (q : QueueId) (cap : Capsule) (s z : State),
    (∀ o : Opcode, o = { code := 0x0050, feature := 7 } → s.capTakes q cap o z → bodyOk cap 16 [(0, 16)] = true →
      Effect (.traceSet q cap) s fun u => ∃ y : State, u = y.endCapsule q.val o cap {} ∧ regsOnly z y ∧
        y.getF fdSchedTraceEnLo pgSched = ((capF cap 0 8 &&& namedMask 0 64) ||| 0xFFF) % 2 ^ fdSchedTraceEnLo.width ∧
        y.getF fdSchedTraceEnHi pgSched = (capF cap 8 8 &&& namedMask 64 56) % 2 ^ fdSchedTraceEnHi.width) ∧
    (∀ (o : Opcode) (nx : Nat) (rs : List LogRec), o = { code := 0x0051, feature := 8 } → s.capTakes q cap o z →
      bodyOk cap 5 [(0, 5)] = true → 1 ≤ capF cap 4 1 → capF cap 4 1 ≤ 6 →
      (nx, rs) = z.logFrom (if q.val < 4 then none else (z.queue q.val).ctx) (capF cap 0 4) (capF cap 4 1) →
      Effect (.logRead q cap) s fun u => ∃ y : State, recordsOnly z y ∧ u = y.endCapsule q.val o cap
        { body := leBytes 4 nx ++ leBytes 1 rs.length ++ [0, 0, 0] ++ rs.flatMap LogRec.bytes }) ∧
    (∀ (o : Opcode) (page off n : Nat), o = { code := 0x0060, feature := 9 } → s.capTakes q cap o z → page = capF cap 0 4 → off = capF cap 4 2 →
      n = capF cap 6 1 → bodyOk cap 7 [(0, 7)] = true → page < 2 ^ 20 → off % 4 = 0 → 1 ≤ n → n ≤ 48 → off + 4 * n ≤ 4096 →
      (z.mayRead q.val page = false → Effect (.regRead q cap) s fun u => u = z.endCapsule q.val o cap { code := scAccess }) ∧
      (z.mayRead q.val page = true → ∀ (y : State) (bs : List Byte), (y, bs) = z.pageWords page n off → Effect (.regRead q cap) s fun u =>
        u = y.endCapsule q.val o cap { body := bs } ∧ bs.length = 4 * n)) ∧
    (∀ (o : Opcode) (page off size : Nat), o = { code := 0x0061, feature := 9, mgmt := true } → s.capTakes q cap o z → page = capF cap 0 4 →
      off = capF cap 4 2 → size = capF cap 6 1 → bodyOk cap 16 [(0, 7), (8, 8)] = true → page < 2 ^ 20 → off < 4096 →
      pageAccessOk off size = true → z.reproUnsupported q.val page off size (capF cap 8 size) = false →
      (z.heldByOpen page = true ∨ page = pgReeve → Effect (.regWrite q cap) s fun u => ∃ y : State, recordsOnly z y ∧
        u = y.endCapsule q.val o cap { code := scAccess }) ∧
      (z.heldByOpen page = false → page ≠ pgReeve → ∀ (w : State) (cause : Nat), (w, cause) = z.tryStore 1 page off size (capF cap 8 size) →
        (cause = 0 → Effect (.regWrite q cap) s fun u => ∃ y : State, recordsOnly w y ∧ u = y.endCapsule q.val o cap {}) ∧
        (cause ≠ 0 → Effect (.regWrite q cap) s fun u => ∃ y : State, recordsOnly w y ∧ u = y.endCapsule q.val o cap
          { code := scRejected, body := leBytes 4 (w.getF fdComFieldReject page) }))) ∧
    (∀ o : Opcode, o = { code := 0x0070, feature := 11, mgmt := true } → s.capTakes q cap o z → cap.body ≠ [] →
      cap.bodyLen = cap.body.length → cap.bodyLen ≤ 3584 →
      (capF cap 0 1 ≠ 0x5A → 8 ≤ z.dike.tokens.length → Effect (.token q cap) s fun u => ∃ y : State, recordsOnly z y ∧
        u = y.endCapsule q.val o cap { code := scBusy }) ∧
      (capF cap 0 1 ≠ 0x5A → z.dike.tokens.length < 8 → ∀ (job gen : Nat), (job, gen) = tokenPair cap.body →
        Effect (.token q cap) s fun u => ∃ y : State, recordsOnly (z.setQueue q.val { z.queue q.val with busy := some cap.tag.toNat }) y ∧
          u = y.launchCopy job gen none (.capsule q.val cap.tag.toNat cap.ctx.toNat) cap.body) ∧
      (capF cap 0 1 = 0x5A → 12 ≤ cap.bodyLen → capF cap 1 3 = 0 → capF cap 8 4 + (cap.bodyLen - 12) ≤ capF cap 4 4 → capF cap 4 4 ≤ 2 ^ 26 →
        (z.stagingRoom (capF cap 4 4) = false → Effect (.token q cap) s fun u => u = z.endCapsule q.val o cap { code := scNoResource }) ∧
        (z.stagingRoom (capF cap 4 4) = true → Effect (.token q cap) s fun u =>
          u = (z.stagePart q.val (capF cap 4 4) (capF cap 8 4) (cap.body.drop 12)).endCapsule q.val o cap {}))) ∧
    (s.capTakes q cap { code := 0x0080, mgmt := true } z → bodyOk cap 0 [] = true → Effect (.nodeReset q cap) s fun u => u = z.nodeReset 2)

/-! ### Attestation -/

/-- Negotiation, certificates and measurements. Each request is answered from the stage that the queue has reached, with ERROR before it, and joins
the transcript with its response. -/
def Obligations.Attestation : Prop :=
  ∀ (q : QueueId) (msg : List Byte) (s z : State) (x : SpdmState) (slot : Nat) (ans : State → SpdmState → List Byte → State → Prop),
    x = z.spdmOf q.val → slot = leField msg 2 1 % 16 → (∀ y x' out u, ans y x' out u ↔ spdmAnswers s q msg y x' out u) →
    (s.spdmTakes q 0x84 msg z → Effect (.getVersion q msg) s (ans z { stage := 1 } [0x10, 0x04, 0, 0, 0, 1, 0x00, 0x13])) ∧
    (s.spdmTakes q 0xE1 msg z →
      (x.stage = 0 → Effect (.getCapabilities q msg) s (ans z x (spdmError seUnexpected))) ∧
      (x.stage ≠ 0 → Effect (.getCapabilities q msg) s
        (ans z { x with stage := max x.stage 2 } (spdmReply 0x61 0 0 (Config.spdmTimes ++ leBytes 4 spdmFlags ++ Config.spdmSizes))))) ∧
    (s.spdmTakes q 0xE3 msg z →
      (x.stage < 2 → Effect (.negotiateAlgorithms q msg) s (ans z x (spdmError seUnexpected))) ∧
      (2 ≤ x.stage → Effect (.negotiateAlgorithms q msg) s (ans z { x with stage := 3 } (spdmReply 0x63 0 0 (Config.spdmAlgorithms msg))))) ∧
    (∀ r ∈ [(Instr.getDigests, 0x81), (.getCertificate, 0x82), (.challenge, 0x83), (.getMeasurements, 0xE0), (.keyExchange, 0xE4)],
      s.spdmTakes q r.2 msg z → x.stage < 3 → Effect (r.1 q msg) s (ans z x (spdmError seUnexpected))) ∧
    (s.spdmTakes q 0x81 msg z → 3 ≤ x.stage → Effect (.getDigests q msg) s
      (ans z x (spdmReply 0x01 3 3 (digestBytes (Config.sm3 (z.chain 0)) ++ digestBytes (Config.sm3 (z.chain 1)))))) ∧
    (s.spdmTakes q 0x82 msg z → 3 ≤ x.stage → ∀ (off : Nat) (part : List Byte), off = leField msg 4 2 →
      part = ((z.chain slot).drop off).take (min (leField msg 6 2) 3576) → 8 ≤ msg.length → slot < 2 → off < (z.chain slot).length →
      Effect (.getCertificate q msg) s
        (ans z x (spdmReply 0x02 slot 0 (leBytes 2 part.length ++ leBytes 2 ((z.chain slot).length - off - part.length) ++ part)))) ∧
    (s.spdmTakes q 0x83 msg z → 3 ≤ x.stage → 44 ≤ msg.length → slot < 2 → ∀ (v : List Byte) (y : State) (body : List Byte),
      (v, y) = z.freshBytes 32 →
      body = spdmReply 0x03 slot (2 ^ slot) (digestBytes (Config.sm3 (y.chain slot)) ++ v ++ y.measureSummary (leField msg 3 1) ++ [0, 0] ++
        (msg.drop 36).take 8) →
      Effect (.challenge q msg) s (ans y (y.spdmOf q.val) (body ++ y.attest x msg body))) ∧
    (s.spdmTakes q 0xE0 msg z → 3 ≤ x.stage → ∀ (signed : Bool) (i : Nat) (is : List Nat) (v : List Byte) (y : State) (rec' body : List Byte),
      signed = decide (leField msg 2 1 % 2 = 1) → i = leField msg 3 1 → is = (if i = 0 then [] else if i = 0xFF then measureList else [i]) →
      ((∃ k ∈ is, measureList.contains k = false) ∨ (signed = true ∧ msg.length < 37) →
        Effect (.getMeasurements q msg) s (ans z x (spdmError seInvalid))) ∧
      ((∀ k ∈ is, measureList.contains k = true) → (signed = true → 37 ≤ msg.length) → (v, y) = z.freshBytes 32 →
        rec' = is.flatMap (fun i => y.measureBlock i) →
        body = spdmReply 0x60 (if i = 0 then measureList.length else 0) 0 (leBytes 1 is.length ++ leBytes 3 rec'.length ++ rec' ++ v ++ [0, 0] ++
          (msg.drop (if signed then 37 else 4)).take 8) →
        Effect (.getMeasurements q msg) s (ans y (y.spdmOf q.val) (if signed then body ++ y.attest x msg body else body))))

/-- Secured sessions and key slots. One SPDM session per session is exchanged, opened by a FINISH that verifies, kept alive, rekeyed and ended; a
key request of the tenant's warden fills or empties its slot, and one that is refused changes none. -/
def Obligations.SecuredSessions : Prop :=
  ∀ (q : QueueId) (msg : List Byte) (s z : State) (x : SpdmState) (ans : State → SpdmState → List Byte → State → Prop),
    x = z.spdmOf q.val → (∀ y x' out u, ans y x' out u ↔ spdmAnswers s q msg y x' out u) →
    (s.spdmTakes q 0xE4 msg z → 3 ≤ x.stage →
      (x.session ≠ 0 → Effect (.keyExchange q msg) s (ans z x (spdmError seLimit))) ∧
      (x.session = 0 → Effect (.keyExchange q msg) s (ans { z with freeCount := z.freeCount + 1 } { x with session := 1 }
        (spdmReply 0x64 0 0 (Config.spdmKeyExchange msg (Config.freeValue z.freeCount)))))) ∧
    (s.spdmTakes q 0xE5 msg z →
      (x.session ≠ 1 → Effect (.finish q msg) s (ans z x (spdmError seUnexpected))) ∧
      (x.session = 1 → Config.spdmFinishOk x.transcript msg = false →
        Effect (.finish q msg) s (ans z { x with session := 0 } (spdmError seDecrypt))) ∧
      (x.session = 1 → Config.spdmFinishOk x.transcript msg = true → ∀ who : Option (List Byte),
        who = (if leField msg 2 1 % 2 = 1 then some (Config.spdmRequester x.transcript msg) else none) →
        Effect (.finish q msg) s (ans z { x with session := 2, requester := who } (spdmReply 0x65 0 0 [])))) ∧
    (∀ r ∈ [(Instr.heartbeat, 0xE8), (.keyUpdate, 0xE9), (.endSession, 0xEC)], s.spdmTakes q r.2 msg z → x.session ≠ 2 →
      Effect (r.1 q msg) s (ans z x (spdmError seUnexpected))) ∧
    (x.session = 2 →
      (s.spdmTakes q 0xE8 msg z → Effect (.heartbeat q msg) s (ans z x (spdmReply 0x68 0 0 []))) ∧
      (s.spdmTakes q 0xE9 msg z → ∀ op, op = leField msg 2 1 →
        (op = 0 ∨ 3 < op → Effect (.keyUpdate q msg) s (ans z x (spdmError seInvalid))) ∧
        (1 ≤ op → op ≤ 3 → Effect (.keyUpdate q msg) s (ans z { x with updates := x.updates + (if op = 3 then 0 else op) }
          (spdmReply 0x69 op (leField msg 3 1) [])))) ∧
      (s.spdmTakes q 0xEC msg z → Effect (.endSession q msg) s (ans z { x with session := 0, requester := none } (spdmReply 0x6C 0 0 [])))) ∧
    (∀ r ∈ [(Instr.keyLoad, 1), (.keyClear, 2)], ∀ (p : List Byte) (st pen slot v salt : Nat) (key : KeySlot), s.spdmTakes q 0xFE msg z →
      p = msg.drop 13 → pen = Config.vendorPen % 2 ^ 32 → leField msg 4 2 = 4 → leField msg 6 1 = 4 → leField msg 7 4 = pen →
      leField msg 11 2 = p.length → st = z.keyStatus x r.2 p → slot = leField p 1 1 → v = Config.freeValue z.freeCount →
      salt = (if v % 2 ^ 128 = (mapGet {} z.keys slot).salt then (v + 1) % 2 ^ 128 else v % 2 ^ 128) →
      key = (if r.2 = 1 then { full := true, job := leField p 4 4 % 2 ^ 20, key := leField p 8 16, salt := salt } else {}) →
      Effect (r.1 q msg) s (ans { z with freeCount := z.freeCount + 1, keys := if st = 0 then mapPut {} z.keys slot key else z.keys } x
        (spdmReply 0x7E 0 0 ([4, 0, 4] ++ leBytes 4 pen ++ leBytes 2 20 ++ (leBytes 1 (leField p 0 1) ++ leBytes 1 st ++ [0, 0] ++
          leBytes 16 (if st = 0 && r.2 = 1 then salt else 0))))))

/-! ### Checkpoints -/

/-- Checkpoints and restores. The sweep reaches the next unreached granule and a promotion its own, counted in the hold area, whose overflow ends the
checkpoint; stage one ends INCOMPLETE on a failed write and OK once every holder has completed; a complete slot drains to storage, and its
drain ends with a record; a restore chooses the newest complete heat or fails, and ends once every piece has come. -/
def Obligations.Checkpoints : Prop :=
  ∀ (c : CtxId) (s : State) (r : CkptRun) (d : CkptDesc), r = s.ckpt c.val → d = r.desc →
    (r.active = false ∨ r.unreached = [] → Effect (.ckptSweepRead c) s fun u => u = s) ∧
    (∀ g a n rest, r.active = true → r.unreached = (g, a, n) :: rest → Effect (.ckptSweepRead c) s fun u =>
      u = s.reachGranule c.val g a false) ∧
    (∀ g, (s.promos.take 16).contains (c.val, g) = false → Effect (.ckptPromotionDone c g) s fun u => u = s) ∧
    (∀ g x, (s.promos.take 16).contains (c.val, g) = true → (r.unreached.find? fun u => u.1 = g) = some x →
      (s.getF fdCkptHoldUsed pgCkpt = 16384 → Effect (.ckptPromotionDone c g) s fun u => u = s.ckptEnd c.val 2) ∧
      (s.getF fdCkptHoldUsed pgCkpt ≠ 16384 → Effect (.ckptPromotionDone c g) s fun u => ∃ y : State,
        u = (y.chargeSweep 0 true).reachGranule c.val g x.2.1 true ∧ y.ckpt c.val = { r with promotions := r.promotions + 1 } ∧
        y.getF fdCkptHoldUsed pgCkpt = min (s.getF fdCkptHoldUsed pgCkpt + 1) (2 ^ fdCkptHoldUsed.width - 1) ∧
        y.getF fdCkptPromoCount pgCkpt = min (s.getF fdCkptPromoCount pgCkpt + 1) (2 ^ fdCkptPromoCount.width - 1) ∧
        { y with regs := s.regs, ckpts := s.ckpts } = s)) ∧
    (r.active = false → Effect (.ckptStageOneEnd c) s fun u => u = s) ∧
    (r.active = true → r.failed = true → Effect (.ckptStageOneEnd c) s fun u => u = s.ckptEnd c.val 3) ∧
    (r.active = true → r.failed = false → r.handed = true → r.outstanding = 0 → Effect (.ckptStageOneEnd c) s fun u =>
      u = s.ckptEnd c.val 0) ∧
    (r.active = true → r.failed = false → (r.handed = false ∨ r.outstanding ≠ 0) → Effect (.ckptStageOneEnd c) s fun u => u = s) ∧
    (∀ slot : Fin 2, d.drain = false ∨ r.draining.contains slot.val = true ∨ s.slotComplete d slot.val = false →
      Effect (.ckptDrainStart c slot) s fun u => u = s) ∧
    (∀ (slot : Fin 2) (z : State), d.drain = true → r.draining.contains slot.val = false → s.slotComplete d slot.val = true →
      z = (s.setCkpt c.val { r with draining := r.draining ++ [slot.val] }).ckptShow c.val →
      (d.sm4 = true → z.keyFor c.val d.keyslot = none → Effect (.ckptDrainStart c slot) s fun u => u = z.drainRecord c.val slot.val 7) ∧
      (d.sm4 = false ∨ z.keyFor c.val d.keyslot ≠ none → Effect (.ckptDrainStart c slot) s fun u =>
        u = z.forEach (List.range (d.k + d.m)) fun j t => t.drainShard c.val slot.val j)) ∧
    (r.draining = [] → ∀ ok, Effect (.ckptDrainEnd c ok) s fun u => u = s) ∧
    (∀ sl rest x, r.draining = sl :: rest → x = s.qp (d.qpn - 2) →
      (x.sends = [] → Effect (.ckptDrainEnd c true) s fun u => u = s.drainRecord c.val sl 0) ∧
      (x.sends ≠ [] → Effect (.ckptDrainEnd c true) s fun u => u = s) ∧
      (x.state = 3 → Effect (.ckptDrainEnd c false) s fun u => u = s.drainRecord c.val sl 7) ∧
      (x.state ≠ 3 → Effect (.ckptDrainEnd c false) s fun u => u = s)) ∧
    (r.restore = none → (∀ records, Effect (.restoreCandidates c records) s fun u => u = s) ∧ Effect (.restoreDone c) s fun u => u = s) ∧
    (∀ (x : Restore) (records : List (List Byte)) (n : Nat), r.restore = some x → n = grpMembers ((s.groupOf c.val d.group).getD 0) →
      x.heat = 0 →
      (records.length < n → Effect (.restoreCandidates c records) s fun u =>
        u = (s.restoreEnd c.val 0x45 0 []).jobFatal c.val 0x0102 0 0) ∧
      (n ≤ records.length → candidateHeats x.storage records ≠ [] →
        (∀ h ∈ candidateHeats x.storage records, d.complete x.storage records n h = false) → Effect (.restoreCandidates c records) s fun u =>
        ∀ hs, hs = candidateHeats x.storage records → u = s.restoreEnd c.val 0x43 (min 28 hs.length) ((hs.take 28).flatMap (leBytes 8))) ∧
      (∀ h, n ≤ records.length → x.storage = true →
        ((candidateHeats true records).find? fun h => d.complete true records n h) = some h → Effect (.restoreCandidates c records) s fun u =>
        u = s.setCkpt c.val { r with restore := some { x with heat := h + 1, pieces := List.range d.k } })) ∧
    (∀ x : Restore, r.restore = some x →
      (x.heat = 0 → Effect (.restoreDone c) s fun u => u = s) ∧
      (x.heat ≠ 0 → r.failed = true → Effect (.restoreDone c) s fun u => u = (s.restoreEnd c.val 0x45 0 []).jobFatal c.val 0x0102 0 0) ∧
      (x.heat ≠ 0 → r.failed = false → r.outstanding ≠ 0 → Effect (.restoreDone c) s fun u => u = s) ∧
      (x.heat ≠ 0 → r.failed = false → r.outstanding = 0 → ∀ (y : State) (image : List Byte), x.storage = true →
        (y, image) = s.freeBytes (d.granules.length * 65536) → Effect (.restoreDone c) s fun u =>
        u = (((y.writeImage d image []).setF fdSchedCtxHeat pgSched c.val (x.heat - 1)).setF fdCkptCtxHeat pgCkpt c.val
          (x.heat - 1)).restoreEnd c.val 0 0 (leBytes 8 (x.heat - 1))))

/-! ### Errors -/

/-- Errors. A detected error is recorded on its block's page and takes its effect, but for the channel errors of a stack and PREFAIL, which are
counted and raised; a source that the block does not have does nothing. The highest class queued runs first, and preempts a lower class; a
preempting NF abandons the others. A handler's end writes its outcome and resumes the one stopped last; an error within it escalates. -/
def Obligations.ErrorHandling : Prop :=
  (∀ (page : BitVec 20) (src : Fin 16) (info : ErrorInfo) (s : State) (n : Nat), n = page.toNat →
    ((blockSources n).contains src.val = false → Effect (.errorDetect page src info) s fun u => u = s) ∧
    ((blockSources n).contains src.val = true → src.val ≠ 3 → src.val ≠ 4 → src.val ≠ 13 → Effect (.errorDetect page src info) s fun u =>
      u = (s.detect n src.val info).errorEffect n info) ∧
    ((blockSources n).contains src.val = true → src.val = 3 → Effect (.errorDetect page src info) s fun u =>
      u = s.channelCe (blockInstance n) (s.channelOf info.addr.toNat) info.addr.toNat info) ∧
    ((blockSources n).contains src.val = true → src.val = 4 → Effect (.errorDetect page src info) s fun u =>
      u = s.channelDe (blockInstance n) (s.channelOf info.addr.toNat) info.addr.toNat info) ∧
    ((blockSources n).contains src.val = true → src.val = 13 → blockCode n ≠ 0x04 → Effect (.errorDetect page src info) s fun u =>
      u = s.prefail n (info.service.toNat % 128) (info.detail.toNat % 65536))) ∧
  (∀ s : State, Effect .firmwareWatchdog s fun u => u = s.detect pgSched 12 { code := 0x0061 }) ∧
  (∀ s : State,
    (s.err.queued = [] → Gives .handlerStart s fun t => t = s) ∧
    ∀ r, s.nextQueued = some r →
      (s.err.running = none → Gives .handlerStart s fun t =>
        t.err = { s.err with running := some r, queued := s.err.queued.filter (·.seq ≠ r.seq) } ∧
        t.getF fdErraggHandlerActive pgErragg = 1 ∧ t.getF fdErraggHandlerClass pgErragg = r.cls % 2 ^ fdErraggHandlerClass.width ∧
        t.getF fdErraggHandlerPage pgErragg = r.page % 2 ^ fdErraggHandlerPage.width ∧ { t with err := s.err, regs := s.regs } = s) ∧
      ∀ o, s.err.running = some o →
        (r.cls ≤ o.cls → Gives .handlerStart s fun t => t = s) ∧
        (o.cls < r.cls → ∀ y : State, y = s.amendRecord o.seq (fun x => { x with preempted := true }) →
          (r.cls ≠ 3 → ∀ later, later = y.err.queued.filter (·.seq ≠ r.seq) → Gives .handlerStart s fun t =>
            t.getF fdErraggHandlerActive pgErragg = 1 ∧ t.err = { y.err with running := some r, queued := later, stopped := o :: y.err.stopped }) ∧
          (r.cls = 3 → Gives .handlerStart s fun t => t.getF fdErraggHandlerActive pgErragg = 1 ∧ t.err.running = some r ∧ t.err.stopped = [] ∧
            t.err.queued = []))) ∧
  (∀ (inHandler : Bool) (s : State),
    (s.err.running = none → Effect (.handlerEnd inHandler) s fun u => u = s) ∧
    ∀ r, s.err.running = some r →
      Effect (.handlerEnd true) s (fun u => u = s.detect pgReeve 12 { code := 0x0060 } (escalate := true)) ∧
      ∀ (v : Nat) (y w : State), (v, y) = s.outcomeOf r → w = y.setOutcome r v →
        (r.injected = true → 2 ≤ r.cls → v = 9) ∧ (r.injected = false → (r.cls = 3 → v = 7) ∧ (r.cls = 2 → v = 3) ∧ (r.cls = 1 → v = 2)) ∧
        (r.cls ≠ 3 ∨ r.injected = true → Effect (.handlerEnd false) s fun u =>
          u.err = { w.err with running := w.err.stopped.head?, stopped := w.err.stopped.tail } ∧
          { u with err := w.err, regs := w.regs } = w) ∧
        (r.cls = 3 → r.injected = false → Effect (.handlerEnd false) s fun u => ∃ x : State, u = x.afterNf r ∧
          x.err = { w.err with running := w.err.stopped.head?, stopped := w.err.stopped.tail })) ∧
  (∀ (forced : Bool) (s : State),
    (s.err.repairs = [] → Gives (.repairStart forced) s fun t => t = s) ∧
    ∀ page unit rest, s.err.repairs = (page, unit) :: rest →
      (s.err.repairing = true ∨ (forced = false ∧ s.repairGap page unit = false) → Gives (.repairStart forced) s fun t => t = s) ∧
      (s.err.repairing = false → (forced = true ∨ s.repairGap page unit = true) → ∀ z : State, z = { s with err := { s.err with repairs := rest } } →
        (blockCode page = 0x01 → unit < 16 → Gives (.repairStart forced) s fun t => t = z.remapStart page unit) ∧
        (blockCode page ≠ 0x01 → Gives (.repairStart forced) s fun t => t = z.coreRepairStart (unit % 64))))

/-! ### Power -/

/-- The supply. A VIN sample joins the history and gives `VIN` its average; 310 µs or more below 34 V or 1 ms above 66 V stop the node in order,
50 µs below 38 V enter BROWNOUT, and else the sample's level gives the state; beyond 100 V no outcome is promised and the command faults. The
bank's voltage enters BROWNOUT below 30 V and stops the node below 28 V; above 84 V the isolation switch opens. -/
def Obligations.Supply : Prop :=
  (∀ (cv : Nat) (s : State), 10000 < cv → exec (.vinSample cv) s = .fault .ratingsExceeded ∧
    exec (.inputOvervoltage cv) s = .fault .ratingsExceeded) ∧
  (∀ (cv : Nat) (s : State), cv ≤ 10000 → Gives (.vinSample cv) s fun t => ∃ z : State,
    z.power = { s.power with samples := (cv :: s.power.samples).take 128 } ∧ { z with power := s.power, regs := s.regs } = s ∧
    z.supply = s.supply ∧ (∀ l, l = z.power.samples.take 100 →
      z.getF fdPowerVin pgPower = l.foldl (· + ·) 0 / l.length % 2 ^ fdPowerVin.width) ∧
    (32 ≤ z.runOf (· < 3400) → t = z.orderlyStop 1) ∧
    (z.runOf (· < 3400) < 32 → 102 ≤ z.runOf (6600 < ·) → t = z.orderlyStop 2) ∧
    (z.runOf (· < 3400) < 32 → z.runOf (6600 < ·) < 102 →
      (7 ≤ z.runOf (· < 3800) → t = z.enterBrownout) ∧
      (z.runOf (· < 3800) < 7 → 3 ≤ z.supply → t = z) ∧
      (z.runOf (· < 3800) < 7 → z.supply < 3 → t = z.setSupply (supplyOf cv z.supply)))) ∧
  (∀ (cv : Nat) (s z : State), z = { s with power := { s.power with vbank := cv } } →
    (cv < 2800 → Gives (.vbankLow cv) s fun t => t = z.orderlyStop 1) ∧
    (2800 ≤ cv → cv < 3000 → Gives (.vbankLow cv) s fun t => t = z.enterBrownout) ∧
    (3000 ≤ cv → Gives (.vbankLow cv) s fun t => t = z)) ∧
  (∀ (cv : Nat) (s : State), cv ≤ 10000 →
    (8400 < cv → Gives (.inputOvervoltage cv) s fun t => t = { s with power := { s.power with isolated := true } }) ∧
    (cv ≤ 8400 → Gives (.inputOvervoltage cv) s fun t => t = s)) ∧
  (∀ s : State,
    (s.supply ≠ 3 → Gives .brownoutExit s fun t => t = s) ∧
    (s.supply = 3 → Gives .brownoutExit s fun t => t.power = { s.power with brownout := false } ∧ t.supply =
      supplyOf (s.power.samples.headD 4800) 0 ∧ t.urgentDue = true)) ∧
  ∀ s : State,
    (s.power.stopping = 0 ∨ s.power.off = true → Gives .lastGaspWritten s fun t => t = s) ∧
    (s.power.stopping ≠ 0 → s.power.off = false → Gives .lastGaspWritten s fun t =>
      t.power = { lastGasp := (s.power.gasp :: s.power.lastGasp).take 8, off := true } ∧ t.store = s.store ∧ t.pending = s.pending ∧
      t.getF fdPowerLastgaspCause pgPower = s.power.stopping % 2 ^ fdPowerLastgaspCause.width)

/-- Draw, heat and deep idle. A power sample shows the draw, the floor and whether it reached the ceiling, and joins the last ten; the next
release of a context raises a target; a temperature reading shows the die's state and clock cap, which leaves HARD at 103 °C or below; DEEP is
entered with every flask asleep and left with what came in it served. -/
def Obligations.PowerAndHeat : Prop :=
  (∀ (watts : Nat) (s : State), Gives (.powerSample watts) s fun t =>
    t.getF fdPowerPin pgPower = watts % 2 ^ fdPowerPin.width ∧
    t.getF fdPowerRampCapped pgPower = (decide (s.ceiling ≤ watts)).toNat ∧
    t.getF fdPowerBankEffectiveW pgPower = s.floorW s.ceiling % 2 ^ fdPowerBankEffectiveW.width ∧
    t.power.powers = (watts :: s.power.powers).take 10) ∧
  (∀ (c : CtxId) (s : State) (n : Nat), n = (s.ctx c.val).nextRelease →
    (n = 0 → Gives (.prebankRaise c) s fun t => t = s) ∧
    (n ≠ 0 → ∀ (near : List Nat) (p : Nat),
      near = allCtxs.filter (fun o => (s.ctx o).nextRelease ≠ 0 && (s.ctx o).nextRelease < n + 20000000 && n < (s.ctx o).nextRelease + 20000000) →
      p = highest (near.map s.releaseDraw) - s.rampW → Gives (.prebankRaise c) s fun t =>
        recordsOnly { s with power := { s.power with targets := (p, s.now, n + 2000000) :: s.power.targets } } t)) ∧
  (∀ s : State,
    (s.getF fdPowerIdleState pgPower ≠ 2 → Gives .deepEntryDone s fun t => t = s) ∧
    (s.getF fdPowerIdleState pgPower = 2 → Gives .deepEntryDone s fun t => t.getF fdPowerIdleState pgPower = 3 ∧
      t.hbm = { s.hbm with selfRefresh := 1 } ∧ t.lsa = { s.lsa with gated := true, waking := false } ∧ ∀ f, f < 256 → t.pstate f = psAsleep)) ∧
  (∀ s : State,
    (s.inDeep = false ∨ s.power.exiting = false → Gives .deepExitDone s fun t => t = s) ∧
    (s.inDeep = true → s.power.exiting = true → Effect .deepExitDone s fun u => ∃ y : State,
      u = y.forEach s.power.heldMgmt (fun m t => t.recvMgmt m.1 m.2) ∧ y.power = { s.power with exiting := false, heldMgmt := [] } ∧
      fieldOnly s y fdPowerIdleState pgPower 0 0 ∧ { y with power := s.power, regs := s.regs } = s)) ∧
  ∀ (d : DieId) (reading : Byte) (s : State) (st : Nat), st = dieStateOf (s.getF fdPowerDieState pgPower d.val) reading.toNat →
    Gives (.dieTempReading d reading) s fun t =>
      t.getF fdPowerDieTj pgPower d.val = reading.toNat ∧ t.getF fdPowerDieState pgPower d.val = st ∧
      t.getF fdPowerDieTjmax pgPower d.val = max reading.toNat (s.getF fdPowerDieTjmax pgPower d.val) % 2 ^ fdPowerDieTjmax.width ∧
      t.getF fdPowerDieCap pgPower d.val = dieCapOf st reading.toNat % 2 ^ fdPowerDieCap.width ∧
      { t with power := s.power, regs := s.regs } = s ∧
      (st ≠ 2 → mapGet 0 t.power.hardSince d.val = 0)

/-! ### Boot -/

/-- Boot and resets. Power in range starts the ROM; PWR_EN low for 1 ms removes power; RESET_REQ_N low for 1 µs resets the node and holds it; a
bank that verifies runs, the preferred one first, and none leaves RECOVERY; training and self-test end the MEMORY stage; READY needs R507's
conditions; a trial boot that does not become READY falls back; a block reset that ends clears its request, touches no other page's fields, and
resets the units of the block. -/
def Obligations.BootAndReset : Prop :=
  (∀ (straps : BitVec 2) (vinOk : Bool) (s : State),
    (vinOk = false ∨ s.power.good = true → Gives (.powerUp straps vinOk) s fun t => t = s) ∧
    (vinOk = true → s.power.good = false → Gives (.powerUp straps vinOk) s fun t =>
      t.power = { s.power with off := false, isolated := false, good := true } ∧ t.boot = { s.boot with straps := straps.toNat } ∧ t.getF fdNodectlPosStraps pgNodectl = straps.toNat ∧
      (s.boot.held = false → t.getF fdNodectlStatusStage pgNodectl = 1 ∧ t.out = s.out ++ [.ibi 1]))) ∧
  (∀ (us : Nat) (s : State),
    (us < 1000 → Gives (.coldReset us) s fun t => t = s) ∧
    (1000 ≤ us → Gives (.coldReset us) s fun t => t.power = { lastGasp := s.power.lastGasp, off := true, isolated := true } ∧
      t.store = s.store ∧ t.mem = [] ∧ t.pending = s.pending)) ∧
  (∀ (ns : Nat) (s : State),
    (ns < 1000 → Gives (.resetReqN ns) s fun t => t = s) ∧
    (1000 ≤ ns → Gives (.resetReqN ns) s fun t => t = State.nodeReset { s with boot := { s.boot with held := true } } 1 ∧ t.boot.held = true)) ∧
  (∀ s : State,
    (s.boot.held = false → Gives .resetReqNRelease s fun t => t = s) ∧
    (s.boot.held = true → s.getF fdNodectlStatusStage pgNodectl ≠ 0 → Gives .resetReqNRelease s fun t =>
      t = { s with boot := { s.boot with held := false } }) ∧
    (s.boot.held = true → s.getF fdNodectlStatusStage pgNodectl = 0 → Gives .resetReqNRelease s fun t =>
      t.boot = { s.boot with held := false } ∧ t.getF fdNodectlStatusStage pgNodectl = 1 ∧ t.out = s.out ++ [.ibi 1])) ∧
  (∀ (s : State) (p : Nat), p = s.store.preferred →
    (s.getF fdNodectlStatusStage pgNodectl ≠ 1 → Gives .bootVerifyDone s fun t => t = s) ∧
    (s.getF fdNodectlStatusStage pgNodectl = 1 →
      (Config.identityGood s.bootCount = false → Gives .bootVerifyDone s fun t => t.getF fdDikeStateIdentity pgDike = 0 ∧
        t.getF fdDikeStateRecovery pgDike = 1 ∧ t.getF fdNodectlStatusStage pgNodectl = 6 ∧ regsOnly s t) ∧
      (Config.identityGood s.bootCount = true → Config.storeGood s.bootCount = false → Gives .bootVerifyDone s fun t => t = s.recovery) ∧
      (Config.identityGood s.bootCount = true → Config.storeGood s.bootCount = true →
        (s.bankGood p = true → Gives .bootVerifyDone s fun t => t = s.runBank p ∧ t.boot.firmware = true) ∧
        (s.bankGood p = false → s.bankGood (1 - p) = true → Gives .bootVerifyDone s fun t => t = s.runBank (1 - p) ∧ t.boot.firmware = true) ∧
        (s.bankGood p = false → s.bankGood (1 - p) = false → Gives .bootVerifyDone s fun t =>
          t.getF fdDikeStateRecovery pgDike = 1 ∧ t.getF fdNodectlStatusStage pgNodectl = 6 ∧ regsOnly s t)))) ∧
  (∀ s : State,
    (s.getF fdNodectlPosI3cOk pgNodectl = 1 ∨ s.getF fdNodectlStatusStage pgNodectl = 0 → Gives .positionQueryTimer s fun t => t = s) ∧
    (s.getF fdNodectlPosI3cOk pgNodectl ≠ 1 → s.getF fdNodectlStatusStage pgNodectl ≠ 0 → Gives .positionQueryTimer s fun t =>
      t = { s with out := s.out ++ [.ibi 1] })) ∧
  (∀ (failed : List (SiteId × Fin 32)) (s z : State), z = s.forEach failed (fun x t => t.mapOut x.1.val x.2.val) →
    (s.boot.firmware = false ∨ s.boot.trained = true → Gives (.hbmTrainingDone failed) s fun t => t = s) ∧
    (s.boot.firmware = true → s.boot.trained = false → z.boot.trainingFailed = true → Gives (.hbmTrainingDone failed) s fun t => t = z) ∧
    (s.boot.firmware = true → s.boot.trained = false → z.boot.trainingFailed = false → Gives (.hbmTrainingDone failed) s fun t => ∃ y : State,
      y = z.zeroRange 0 (z.getF fdMemmapTop pgMemmap) ∧ t = State.stageOn { y with boot := { y.boot with trained := true } })) ∧
  (∀ (tiles : List TileId) (cores : List CoreId) (engines : Nat) (s z : State),
    z = ((s.forEach tiles fun t u => u.bootTile t.val).forEach cores fun k u => u.bootCore k.val).forEach (List.range (min engines 34))
      (fun _ u => u.bootEngine) →
    (s.boot.firmware = false ∨ s.boot.selfTested = true → Gives (.selfTestDone tiles cores engines) s fun t => t = s) ∧
    (s.boot.firmware = true → s.boot.selfTested = false → Gives (.selfTestDone tiles cores engines) s fun t =>
      t = State.stageOn { z with boot := { z.boot with selfTested := true } })) ∧
  (∀ s : State,
    (s.readyOk = false ∨ s.getF fdNodectlStatusReady pgNodectl = 1 → Gives .nodeReady s fun t => t = s) ∧
    (s.readyOk = true → s.getF fdNodectlStatusReady pgNodectl ≠ 1 → Gives .nodeReady s fun t =>
      t.getF fdNodectlStatusReady pgNodectl = 1 ∧ t.getF fdNodectlStatusStage pgNodectl = 5 ∧ t.err.out = false ∧
      t.getF fdNodectlReadyTime pgNodectl = s.now % 2 ^ fdNodectlReadyTime.width)) ∧
  (∀ s : State,
    (s.getF fdDikeStateTrial pgDike = 1 → s.getF fdNodectlStatusReady pgNodectl = 0 → Gives .trialBootTimeout s fun t => ∃ y : State,
      t = y.nodeReset 5 ∧ y.store = { s.store with preferred := 1 - s.store.preferred, trial := false }) ∧
    (s.getF fdDikeStateTrial pgDike ≠ 1 ∨ s.getF fdNodectlStatusReady pgNodectl ≠ 0 → Gives .trialBootTimeout s fun t => t = s)) ∧
  ∀ (page : BitVec 20) (s : State),
    (s.getF fdComCtrlReset page.toNat = 0 → Effect (.blockResetDone page) s fun u => u = s) ∧
    (s.getF fdComCtrlReset page.toNat ≠ 0 → Effect (.blockResetDone page) s fun u => ∃ y : State, u = y.resetUnit page.toNat ∧
      (blockCode page.toNat ≠ 0 → y.getF fdComCtrlReset page.toNat = 0) ∧
      (∀ e q j, descKey e q j / 64 / 4096 ≠ page.toNat → y.getF e q j = s.getF e q j) ∧ { y with regs := s.regs, shadow := s.shadow } = s)

/-! ### The dike set -/

/-- The reeve. A token is checked in the order of R497: a malformed or refused one changes nothing but the counts and the last refusal, and one that
passes is installed; a shadow applies at its time and is discarded at its limit; an old nonce and a staged blob go; a scrub's end retires the
pair. -/
def Obligations.Reeve : Prop :=
  (∀ s : State, s.dike.tokens = [] → Gives .tokenCheck s fun t => t = s) ∧
  (∀ (s z w : State) (from' : TokenFrom) (bs : List Byte) (rest : List (TokenFrom × List Byte)), s.dike.tokens = (from', bs) :: rest →
    z = { s with dike := { s.dike with tokens := rest } } → ∀ ends : State → State → Prop,
    (∀ y u, ends y u ↔ u = y.runHeld y.flokan.lines.length) →
    (takeToken bs = none → Effect .tokenCheck s fun u => ∃ y : State, ends (y.tokenDone from' (tokenDigest bs) none 0x60) u ∧
      y.getF fdDikeLastRefusal pgDike = 0x60 ∧
      y.getF fdDikeCntRefused pgDike = min (s.getF fdDikeCntRefused pgDike + 1) (2 ^ fdDikeCntRefused.width - 1) ∧
      { y with regs := s.regs, urgentDue := s.urgentDue } = z) ∧
    ∀ v, takeToken bs = some v →
      (∀ c, z.tokenChecks from' v = some c → Effect .tokenCheck s fun u => ∃ y : State, ends (y.tokenDone from' v.digest (some v) c) u ∧
        y.getF fdDikeLastRefusal pgDike = c % 2 ^ fdDikeLastRefusal.width ∧
        y.getF fdDikeCntRefused pgDike = min (s.getF fdDikeCntRefused pgDike + 1) (2 ^ fdDikeCntRefused.width - 1) ∧
        { y with regs := s.regs, urgentDue := s.urgentDue } = z) ∧
      (z.tokenChecks from' v = none → w = (z.installToken from' v).tokenDone from' v.digest (some v) 0 →
        Effect .tokenCheck s fun u => ends w u)) ∧
  (∀ (slot : Fin 2) (s : State) (x : Shadow), x = mapGet {} s.dike.shadows slot.val →
    (x.used = true → x.apply ≠ 0 → Effect (.shadowApply slot) s (fun u => u = s.commitShadow slot.val) ∧
      Gives (.shadowTtlExpiry slot) s fun t => t = s) ∧
    (x.used = true → x.apply = 0 → Gives (.shadowApply slot) s (fun t => t = s) ∧
      Gives (.shadowTtlExpiry slot) s fun t => t = s.discardShadow slot.val) ∧
    (x.used = false → Gives (.shadowApply slot) s (fun t => t = s) ∧ Gives (.shadowTtlExpiry slot) s fun t => t = s)) ∧
  (∀ (nonce : BitVec 128) (root : Nat) (s : State),
    Gives (.nonceExpiry nonce) s (fun t => t.dike = { s.dike with nonces := s.dike.nonces.filter fun x => x.1 ≠ nonce.toNat } ∧
      t.getF fdDikeNonceUsed pgDike = t.dike.nonces.length % 2 ^ fdDikeNonceUsed.width ∧ { t with dike := s.dike, regs := s.regs } = s) ∧
    Gives (.stagedBlobDiscard root) s fun t => t = { s with dike := { s.dike with staged := s.dike.staged.filter fun x => x.root ≠ root } }) ∧
  ∀ (job : JobId) (s : State),
    ((∀ i, i < 16 → (mapGet {} s.pairs i).job ≠ job.toNat ∨ (mapGet {} s.pairs i).state ≠ 3) → Effect (.jobScrubDone job) s fun u => u = s) ∧
    ∀ (i : Nat) (p : Pair), p = mapGet {} s.pairs i →
      ((List.range 16).find? fun i => (mapGet {} s.pairs i).job = job.toNat && (mapGet {} s.pairs i).state = 3) = some i →
      (∀ j, j < 16 → (mapGet {} s.pairs j).job ≠ job.toNat ∨ (mapGet {} s.pairs j).state ≠ 5) → s.jobPolders job.toNat = [] →
      Effect (.jobScrubDone job) s fun u => ∃ y : State,
        y = s.forEach p.flasks (fun f t => t.forEach (tilesOf f) fun k t => t.zeroRange (storeAt k) (storeAt k + storeSize)) ∧
        u = y.retired i ∧ mapGet {} u.pairs i = { p with state := 4, flasks := [], retiredAt := s.now } ∧ u.urgentDue = true

/-- The two-phase launch. A MGMT message is handled at once, or waits for the exit from DEEP, which a launch token starts; a STAGE for this node is
staged, a LAUNCH's parts gather into a copy of the token, a COUNT joins its launch and goes up, COMMIT and ABORT are passed on and take
effect, reports reach the fabric manager, and the root of a launch whose counts do not come aborts it. -/
def Obligations.LaunchMessages : Prop :=
  (∀ r ∈ [((Instr.stage : NodeField → List Byte → Instr), (State.recvStage : State → Nat → List Byte → State)), (.launch, .recvLaunch),
      (.count, .recvCount), (.commit, .recvCommit), (.abort, .recvAbort), (.retired, fun s _ p => s.recvRetired p),
      (.jobFatal, fun s _ p => s.recvJobFatal p)],
    ∀ (src : NodeField) (p : List Byte) (s : State),
      (leField p 0 1 ≠ 2 → s.inDeep = true → Gives (r.1 src p) s fun t =>
        t = { s with power := { s.power with heldMgmt := s.power.heldMgmt ++ [(src.toNat, p)] } }) ∧
      (leField p 0 1 = 2 → s.inDeep = true → Gives (r.1 src p) s fun t =>
        t = { s with power := { s.power with exiting := true, heldMgmt := s.power.heldMgmt ++ [(src.toNat, p)] } }) ∧
      (s.inDeep = false → (leField p 0 1 ≠ 2 ∨ s.getF fdPowerIdleState pgPower ≠ 2) → Effect (r.1 src p) s fun u => u = r.2 s src.toNat p)) ∧
  (∀ (src : NodeField) (p : List Byte) (s : State) (d : Nat), s.inDeep = false → s.getF fdPowerIdleState pgPower ≠ 2 →
    d = digestNat ((p.drop 8).take 32) →
    (mgmtForm p 1 = true → 33 ≤ p.length → p.length ≤ 256 → leField p 8 4 < 2 ^ 17 → leField p 20 12 = 0 →
      leField p 16 4 + (p.length - 32) ≤ leField p 12 4 →
      (leField p 8 4 = s.nodeId → Effect (.stage src p) s fun u =>
        u = s.stagePart (256 + src.toNat) (leField p 12 4) (leField p 16 4) (p.drop 32)) ∧
      (leField p 8 4 ≠ s.nodeId → Effect (.stage src p) s fun u => u = s)) ∧
    (mgmtForm p 2 = false → Effect (.launch src p) s fun u => u = s.dropMalformed) ∧
    (mgmtSingle p 3 48 [(8, 40)] = true → leField p 40 1 < 2 → leField p 41 1 < 2 → Effect (.count src p) s fun u => ∃ y : State,
      u = (y.countUp d).launchDecide d ∧
      (leField p 40 1, src.toNat, decide (leField p 41 1 = 1), leField p 42 2, leField p 44 4) ∈ (y.launchOf d).counts ∧
      { y with dike := s.dike } = s) ∧
    (mgmtSingle p 4 48 [(8, 40)] = true → Effect (.commit src p) s fun u => u = (s.launchPass d src.toNat p).commitDigest d (leField p 40 8)) ∧
    (mgmtSingle p 5 41 [(8, 33)] = true → leField p 40 1 < 3 → Effect (.abort src p) s fun u =>
      u = (s.launchPass d src.toNat p).abortDigest d) ∧
    (mgmtSingle p 6 24 [(8, 6), (16, 8)] = true → leField p 8 4 < 2 ^ 17 → Effect (.retired src p) s fun u => u = s.passReport p) ∧
    (mgmtSingle p 7 40 [(8, 6), (16, 24)] = true → leField p 8 4 < 2 ^ 17 → leField p 20 4 < 2 ^ 17 → Effect (.jobFatal src p) s fun u =>
      u = s.passReport p) ∧
    (mgmtSingle p 4 48 [(8, 40)] = false → Effect (.commit src p) s fun u => u = s.dropMalformed)) ∧
  ∀ s : State,
    ((s.dike.launches.find? fun l => l.known && l.shadow && !l.decided && l.outcome = 1 && l.isRoot.contains true) = none →
      Gives .launchAbortTimer s fun t => t = s) ∧
    ∀ l, (s.dike.launches.find? fun l => l.known && l.shadow && !l.decided && l.outcome = 1 && l.isRoot.contains true) = some l →
      Gives .launchAbortTimer s fun t => t = s.launchAbort l.digest 1

/-! ### Flokan and observation -/

/-- The inspect tier. No line of these does anything while the island is off; one waits while a token is with the reeve, and ends a command that
takes content. On a line that runs, VER, STATUS, TIME and SNAPREL with arguments are SYNTAX, and each command named here, with the arguments and
in the state named here, answers what R530 gives it. -/
def Obligations.FlokanInspect : Prop :=
  (∀ r ∈ [((Instr.flokanHelp : List Nat → Instr), 0), (.flokanVer, 1), (.flokanStatus, 2), (.flokanBaud, 3), (.flokanTime, 4), (.flokanErr, 5),
      (.flokanLastgasp, 6), (.flokanRegr, 7), (.flokanCount, 8), (.flokanRing, 9), (.flokanSnap, 10), (.flokanSnapshow, 11),
      (.flokanSnaprel, 12), (.flokanReset, 15), (.portmap, 16), (.ethmode, 17), (.fwload, 18), (.flokanTrace, 19), (.flokanTdump, 20),
      (.flokanLog, 22), (.flokanToken, 23)],
    ∀ (args : List Nat) (s : State),
      (s.power.off = true → Gives (r.1 args) s fun t => t = s) ∧
      (s.power.off = false → s.flokan.content = 0 → s.flokan.awaiting = true → Gives (r.1 args) s fun t =>
        t = { s with flokan := { s.flokan with fresh := false, lines := s.flokan.lines ++ [(r.2, args)] } }) ∧
      (s.power.off = false → s.flokan.content ≠ 0 → Gives (r.1 args) s fun t => t.flokan.content = 0 ∧ t.flokan.data = [] ∧
        t.out = s.out ++ [.final (if s.flokan.aborted then 9 else 1) 0])) ∧
  (∀ (args : List Nat) (s z : State), s.lineRuns z →
    (∀ i ∈ [Instr.flokanVer args, .flokanStatus args, .flokanTime args, .flokanSnaprel args], args ≠ [] → Gives i s (errs z 1)) ∧
    Gives (.flokanHelp []) s (lines z ((List.range 26).map fun k => [k])) ∧
    (∀ k, k < 26 → Gives (.flokanHelp [k]) s (lines z [[k]])) ∧ (∀ k, 26 ≤ k → Gives (.flokanHelp [k]) s (errs z 2)) ∧
    Gives (.flokanVer []) s (lines z [[Config.romVersion, z.getF fdDikeStateBank pgDike, z.getF fdDikeFwSvn pgDike,
      z.getF fdDikeStateTrial pgDike, z.getF fdNodectlIdentOrderCode pgNodectl, z.getF fdNodectlIdentStepping pgNodectl]]) ∧
    Gives (.flokanStatus []) s (lines z [[z.getF fdNodectlStatusStage pgNodectl, z.blocked, z.getF fdErraggSpareState pgErragg,
      z.getF fdPowerSupplyState pgPower, z.idleState]]) ∧
    Gives (.flokanTime []) s (lines z [[z.now, z.getF fdFtimeState pgFtime, z.getF fdFtimeDepth pgFtime, z.getF fdFtimeErrorPs pgFtime,
      z.getF fdEthPtpOffset (pgEth 0)]]) ∧
    (∀ n, baudRates.contains n = true → Gives (.flokanBaud [n]) s fun t => t.flokan = { z.flokan with baud := n, fresh := true } ∧
      t.out = z.out ++ [.final 0 0] ∧ { t with flokan := z.flokan, out := z.out } = z) ∧
    (∀ n, baudRates.contains n = false → Gives (.flokanBaud [n]) s (errs z 3)) ∧
    (∀ seq n, 1 ≤ n → n ≤ 64 → Gives (.flokanErr [seq, n]) s
      (lines z (((upFrom seq n).filterMap z.errRecord).map fun r => byteValues r.bytes))) ∧
    (∀ n, n < 8 → Gives (.flokanLastgasp [n]) s (lines z ((z.power.lastGasp[n]?).toList.map byteValues))) ∧
    (∀ n, 8 ≤ n → Gives (.flokanLastgasp [n]) s (errs z 3)) ∧
    (∀ page off n, page < 2 ^ 20 → off % 4 = 0 → 1 ≤ n → n ≤ 64 → off + 4 * n ≤ 4096 → z.pageDark page = false →
      (z.inspects page off (off + 4 * n) = false → Gives (.flokanRegr [page, off, n]) s (errs z 4)) ∧
      (z.inspects page off (off + 4 * n) = true → ∀ (y : State) (bs : List Byte), (y, bs) = z.pageWords page n off →
        Gives (.flokanRegr [page, off, n]) s (lines y [(List.range n).map fun i => leField bs (4 * i) 4]))) ∧
    (∀ page, page < 2 ^ 20 → z.pageDark page = false → Gives (.flokanCount [page]) s
      (lines z [(List.range 8).map fun i => z.pageValue page (0x040 + 8 * i) 8])) ∧
    (∀ (page unit n : Nat) (r : EvRing), page < 2 ^ 20 → unit ≤ highestUnit (blockCode page) → 1 ≤ n → n ≤ 256 → z.pageDark page = false →
      z.inspects page 0x080 0x100 = true → r = z.ring page unit → Gives (.flokanRing [page, unit, n]) s
        (lines z ((List.range (min n (min r.written 256))).map fun i =>
          [(mapGet {} r.entries ((r.written - 1 - i) % 256)).time, (mapGet {} r.entries ((r.written - 1 - i) % 256)).code,
           (mapGet {} r.entries ((r.written - 1 - i) % 256)).subject, (mapGet {} r.entries ((r.written - 1 - i) % 256)).value]))) ∧
    (∀ dies time, dies < 128 → time < 2 ^ 64 → ∀ (y w : State) (a b : Nat), (y, a) = z.tryStore 0 pgObs 0x110 8 time →
      (w, b) = y.tryStore 0 pgObs 0x118 4 (dies + 2 ^ 8) →
      (a = 0 → Gives (.flokanSnap [dies, time]) s fun t => t = w.finalStore pgObs b) ∧
      (a ≠ 0 → Gives (.flokanSnap [dies, time]) s fun t => t = y.finalStore pgObs a)) ∧
    (∀ die k, die < 7 → Gives (.flokanSnapshow [die, k]) s
      (lines z (((mapGet [] z.snaps die).filter fun r => r.kind = k).map fun r =>
        [r.page, r.unit, r.kind, r.which, r.occupancy, r.capacity, r.a, r.b, r.subject, r.age]))) ∧
    (∀ (y : State) (a : Nat), (y, a) = z.tryStore 0 pgObs 0x118 4 (z.keepWord pgObs 0x118 4 + 2 ^ 10) →
      Gives (.flokanSnaprel []) s fun t => t = y.finalStore pgObs a) ∧
    (∀ first n, 1 ≤ n → n ≤ 256 → z.boot.firmware = true → Gives (.flokanLog [first, n]) s
      (lines z ((z.logFrom (if z.controlOpen then none else some 0xFF) first n).2.map fun r => byteValues r.bytes))) ∧
    (z.boot.firmware = false → ∀ first n, 1 ≤ n → n ≤ 256 → Gives (.flokanLog [first, n]) s (errs z 6)))

/-- The control and protect tiers. A closed tier answers TIER; else a store is the reeve's and its rejection names REJECTED, a reset says OK first,
roles and modes go to the configuration store while no job is bound, traces are set and dumped, an image goes to the bank not in use, a token
to the reeve, and COMMIT and ABORT reach the shadows. Content comes as lines of at most 64 bytes in hexadecimal; 0x03 ends a command at its next
line. -/
def Obligations.FlokanControl : Prop :=
  (∀ (args : List Nat) (s z : State), s.lineRuns z →
    (z.controlOpen = false → (∀ i ∈ [Instr.flokanReset args, .portmap args, .ethmode args, .flokanTrace args, .flokanTdump args],
        Gives i s (errs z 4)) ∧ (∀ i ∈ [Instr.flokanRegw args, .flokanInject args], Effect i s (errs z 4)) ∧
      (z.inRecovery = false → Gives (.fwload args) s (errs z 4))) ∧
    (z.inRecovery = true → Gives (.flokanToken args) s (errs z 4) ∧ ∀ i ∈ [Instr.flokanCommit args, .flokanAbort args], Effect i s (errs z 4)) ∧
    (z.controlOpen = true →
      (∀ page off v size, page < 2 ^ 20 → off < 4096 → pageAccessOk off size = true → v < 2 ^ (8 * size) → z.pageDark page = false →
        ∀ (y : State) (a : Nat), (y, a) = z.tryStore 0 page off size v → Effect (.flokanRegw [page, off, v, size]) s fun u =>
          u = y.emit (if a = 0 then .final 0 0 else .final 10 (y.getF fdComFieldReject page))) ∧
      (∀ page src, page < 2 ^ 20 → src < 16 → z.pageDark page = false → ∀ (y : State) (a : Nat),
        (y, a) = z.tryStore 0 page 0x02C 4 (src + 2 ^ 8) → Effect (.flokanInject [page, src]) s fun u => u = y.finalStore page a) ∧
      Gives (.flokanReset []) s (fun t => t = (z.emit (.final 0 0)).nodeReset 3) ∧
      (z.jobBound = false →
        (∀ pair role, pair < 9 → role < 9 ∨ role = 15 → Gives (.portmap [pair, role]) s fun t => t.out = z.out ++ [.final 0 0] ∧
          t.store = { z.store with roles := mapPut 0 z.store.roles pair (if role = pair then 0 else role + 1) } ∧
          { t with store := z.store, regs := z.regs, out := z.out } = z) ∧
        (∀ e mode, e < 2 → mode < 2 → Gives (.ethmode [e, mode]) s fun t => t.out = z.out ++ [.final 0 0] ∧
          t.store = { z.store with ethMode := putBits z.store.ethMode e e mode } ∧
          { t with store := z.store, regs := z.regs, out := z.out } = z)) ∧
      (∀ on pct, on < 2 → 1 ≤ pct → pct ≤ 3 → ∀ (y : State) (a : Nat), (y, a) = z.tryStore 0 pgObs 0x100 4 (on + pct * 2 ^ 8) →
        Gives (.flokanTrace [on, pct]) s fun t => t = y.finalStore pgObs a) ∧
      (∀ first n, 1 ≤ n → n ≤ 4096 → z.boot.trained = true → ∀ h, h = z.getF fdObsNtraceHead pgObs → Gives (.flokanTdump [first, n]) s
        (lines z ((((upFrom first n).filter fun i => i < h && h - i ≤ z.nodeTrace.length).filterMap fun i => z.nodeTrace[h - 1 - i]?).map
          fun r => byteValues (traceBytes r))))) ∧
    (z.controlOpen = true ∨ z.inRecovery = true → z.fwBarred = false → Gives (.fwload []) s fun t =>
      t = { z with flokan := { z.flokan with content := 1, data := [] } }) ∧
    (z.inRecovery = false →
      Gives (.flokanToken []) s (fun t => t = { z with flokan := { z.flokan with content := 2, data := [] } }) ∧
      (∀ d at', d < 2 ^ 256 → at' < 2 ^ 64 → Effect (.flokanCommit [d, at']) s fun u => u = (z.commitDigest d at').emit (.final 0 0)) ∧
      (∀ d, d < 2 ^ 256 → Effect (.flokanAbort [d]) s fun u => u = (z.abortDigest d).emit (.final 0 0)))) ∧
  (∀ (line : List Byte) (s z : State), z = { s with flokan := { s.flokan with fresh := false } } →
    (s.power.off = true ∨ line = [] → Gives (.flokanDataLine line) s fun t => t = s) ∧
    (s.power.off = false → line ≠ [] → s.flokan.content = 0 → s.flokan.awaiting = false → Gives (.flokanDataLine line) s (errs z 2)) ∧
    (s.power.off = false → line ≠ [] → s.flokan.content ≠ 0 →
      (s.flokan.aborted = true → Effect (.flokanDataLine line) s fun u => u = z.dropContent.emit (.final 9 0) ∧ u.flokan.content = 0) ∧
      (s.flokan.aborted = false → line = endLine → Effect (.flokanDataLine line) s fun u => u = z.endContent) ∧
      (s.flokan.aborted = false → line ≠ endLine →
        (hexBytes line = none → Effect (.flokanDataLine line) s fun u => u = z.dropContent.emit (.final 1 0) ∧ u.flokan.content = 0) ∧
        ∀ bs, hexBytes line = some bs → bs.length ≤ 64 → Effect (.flokanDataLine line) s fun u => u.out = s.out ++ [.plus] ∧
          u.flokan = { z.flokan with data := s.flokan.data ++ bs } ∧ { u with flokan := s.flokan, out := s.out } = s))) ∧
  ∀ s : State,
    (s.power.off = false → s.flokan.content ≠ 0 ∨ s.flokan.awaiting = true → Gives .flokanAbortByte s fun t =>
      t = { s with flokan := { s.flokan with aborted := true } }) ∧
    (s.power.off = true ∨ (s.flokan.content = 0 ∧ s.flokan.awaiting = false) → Gives .flokanAbortByte s fun t => t = s) ∧
    (s.flokan.fresh = true → Gives .baudRevert s fun t => t = { s with flokan := { s.flokan with baud := 115200, fresh := false } }) ∧
    (s.flokan.fresh = false → Gives .baudRevert s fun t => t = s)

/-- Observation and the sideband. An armed snapshot latches its dies, holds and freezes; a SYNC record is written; a summary is written where it is
due, counted and announced; a position with its check byte becomes the node's place once, and a later one that differs marks it misplaced;
stage and summary are read out. -/
def Obligations.Observation : Prop :=
  (∀ s : State,
    (s.getF fdObsSnapArm pgObs = 0 → Gives .snapLatch s fun t => t = s) ∧
    (s.getF fdObsSnapArm pgObs ≠ 0 → Gives .snapLatch s fun t => t.getF fdObsSnapArm pgObs = 0 ∧ t.getF fdObsSnapHeld pgObs = 1 ∧
      t.snapPages = allPages.filter fun p =>
        ((List.range 7).filter (bitAt (s.getF fdObsSnapDies pgObs))).contains (dieOfPage p) && !s.frozen p && !s.absentPage p)) ∧
  (∀ s : State, Gives .traceSync s fun t => t = s.syncRecord) ∧
  (∀ s : State, (s.urgentDue = false → Gives (.healthSummary true) s fun t => t = s) ∧
    (∀ urgent : Bool, (urgent = true → s.urgentDue = true) → s.side.summary = [] → Gives (.healthSummary urgent) s fun t =>
      t.getF fdNodectlHealthSeq pgNodectl = min (s.getF fdNodectlHealthSeq pgNodectl + 1) (2 ^ fdNodectlHealthSeq.width - 1) ∧
      t.getF fdNodectlHealthLast pgNodectl = s.now % 2 ^ fdNodectlHealthLast.width ∧ t.out = s.out ++ [.ibi 2] ∧
      t.urgentDue = (s.urgentDue && !urgent) ∧ t.side.summary ≠ [])) ∧
  (∀ (x y z check : Byte) (s : State) (node : Nat),
    node = s.getF fdNodectlPosStraps pgNodectl + x.toNat * 4 + y.toNat * 128 + z.toNat * 4096 →
    (check ≠ x ^^^ y ^^^ z ^^^ 0xA5 ∨ 32 ≤ x.toNat ∨ 32 ≤ y.toNat ∨ 32 ≤ z.toNat → Gives (.i3cPositionWrite x y z check) s fun t => t = s) ∧
    (check = x ^^^ y ^^^ z ^^^ 0xA5 → x.toNat < 32 → y.toNat < 32 → z.toNat < 32 →
      (s.getF fdNodectlPosI3cOk pgNodectl ≠ 1 → Gives (.i3cPositionWrite x y z check) s fun t => t.getF fdNodectlPosI3cOk pgNodectl = 1 ∧
        t.getF fdNodectlPosNode pgNodectl = node % 2 ^ fdNodectlPosNode.width ∧
        t.getF fdEcrokNodeId pgEcrok = node % 2 ^ fdEcrokNodeId.width ∧ t.getF fdEcrokNodeIdValid pgEcrok = 1 ∧ regsOnly s t) ∧
      (s.getF fdNodectlPosI3cOk pgNodectl = 1 → node = s.getF fdNodectlPosNode pgNodectl →
        Gives (.i3cPositionWrite x y z check) s fun t => t = s) ∧
      (s.getF fdNodectlPosI3cOk pgNodectl = 1 → node ≠ s.getF fdNodectlPosNode pgNodectl →
        Gives (.i3cPositionWrite x y z check) s fun t => t = { s with side := { s.side with misplaced := true } }))) ∧
  (∀ s : State, Gives .i3cStageRead s fun t =>
    t = { s with out := s.out ++ [.i3cData (leBytes 1 (s.getF fdNodectlStatusStage pgNodectl + s.blocked * 8))] }) ∧
  ∀ s : State, (s.side.summary ≠ [] → Gives .i3cSummaryRead s fun t => t = { s with out := s.out ++ [.i3cData s.side.summary] }) ∧
    (s.side.summary = [] → Gives .i3cSummaryRead s fun t => ∃ bs : List Byte, bs.length = 192 ∧ t.out = s.out ++ [.i3cData bs] ∧
      { t with out := s.out, freeCount := s.freeCount } = s)
end

