-- ==== Sys2Proof/Laws/Map.lean ====
section
/-! SUPPORT. Laws of sparse maps and of memory: a read after a write, and the canonical form that every memory operation keeps. -/
namespace Sys2Proof.Machine

/-! ### Reads after writes -/

theorem mapGet_del_self {α : Type} (d : α) (m : SMap α) (a : Nat) : mapGet d (mapDel m a) a = d := by
  induction m with
  | nil => rfl
  | cons p m ih =>
    obtain ⟨k, v⟩ := p
    by_cases h : k = a <;> simp [mapDel, mapGet, h, ih]

theorem mapGet_del_ne {α : Type} (d : α) (m : SMap α) {a b : Nat} (h : a ≠ b) :
    mapGet d (mapDel m a) b = mapGet d m b := by
  induction m with
  | nil => rfl
  | cons p m ih =>
    obtain ⟨k, v⟩ := p
    by_cases hk : k = a
    · subst hk; simp [mapDel, mapGet, h, ih]
    · simp only [mapDel, if_neg hk, mapGet, ih]

theorem mapGet_ins_self {α : Type} (d : α) (m : SMap α) (a : Nat) (x : α) : mapGet d (mapIns m a x) a = x := by
  induction m with
  | nil => simp [mapIns, mapGet]
  | cons p m ih =>
    obtain ⟨k, v⟩ := p
    by_cases hk : k = a
    · simp [mapIns, mapGet, hk]
    · by_cases hl : a < k <;> simp [mapIns, mapGet, hk, hl, ih]

theorem mapGet_ins_ne {α : Type} (d : α) (m : SMap α) {a b : Nat} (x : α) (h : a ≠ b) :
    mapGet d (mapIns m a x) b = mapGet d m b := by
  induction m with
  | nil => simp [mapIns, mapGet, h]
  | cons p m ih =>
    obtain ⟨k, v⟩ := p
    by_cases hk : k = a
    · subst hk; simp [mapIns, mapGet, h]
    · by_cases hl : a < k
      · simp [mapIns, mapGet, hk, hl, h]
      · simp only [mapIns, if_neg hk, if_neg hl, mapGet, ih]

/-- A key just set reads as the value it was set to. -/
@[simp] theorem mapGet_put_self {α : Type} [DecidableEq α] (d : α) (m : SMap α) (a : Nat) (x : α) :
    mapGet d (mapPut d m a x) a = x := by
  unfold mapPut
  split
  · next h => rw [mapGet_del_self, h]
  · exact mapGet_ins_self d m a x

/-- Every other key reads as before. -/
theorem mapGet_put_ne {α : Type} [DecidableEq α] (d d' : α) (m : SMap α) {a b : Nat} (x : α) (h : a ≠ b) :
    mapGet d' (mapPut d m a x) b = mapGet d' m b := by
  unfold mapPut
  split
  · exact mapGet_del_ne d' m h
  · exact mapGet_ins_ne d' m x h

/-! ### The canonical form -/

theorem mapWfFrom_weaken {α : Type} [DecidableEq α] (d : α) {lo lo' : Nat} (m : SMap α) (h : lo' ≤ lo)
    (hm : mapWfFrom d lo m = true) : mapWfFrom d lo' m = true := by
  cases m with
  | nil => rfl
  | cons p m =>
    obtain ⟨k, v⟩ := p
    simp only [mapWfFrom, Bool.and_eq_true, decide_eq_true_eq] at hm ⊢
    exact ⟨⟨by omega, hm.1.2⟩, hm.2⟩

theorem mapWfFrom_del {α : Type} [DecidableEq α] (d : α) (m : SMap α) (a : Nat) :
    ∀ lo, mapWfFrom d lo m = true → mapWfFrom d lo (mapDel m a) = true := by
  induction m with
  | nil => intro lo _; rfl
  | cons p m ih =>
    obtain ⟨k, v⟩ := p
    intro lo hm
    simp only [mapWfFrom, Bool.and_eq_true, decide_eq_true_eq] at hm
    by_cases hk : k = a
    · simp only [mapDel, hk, if_true]
      exact mapWfFrom_weaken d _ (by omega) (ih (k + 1) hm.2)
    · simp only [mapDel, hk, if_false, mapWfFrom, Bool.and_eq_true, decide_eq_true_eq]
      exact ⟨hm.1, ih _ hm.2⟩

theorem mapWfFrom_ins {α : Type} [DecidableEq α] (d : α) (m : SMap α) (a : Nat) (x : α) (hx : x ≠ d) :
    ∀ lo, lo ≤ a → mapWfFrom d lo m = true → mapWfFrom d lo (mapIns m a x) = true := by
  induction m with
  | nil => intro lo h _; simp [mapIns, mapWfFrom, h, hx]
  | cons p m ih =>
    obtain ⟨k, v⟩ := p
    intro lo h hm
    simp only [mapWfFrom, Bool.and_eq_true, decide_eq_true_eq] at hm
    by_cases hk : k = a
    · subst hk
      simp only [mapIns, if_true, mapWfFrom, Bool.and_eq_true, decide_eq_true_eq]
      exact ⟨⟨h, hx⟩, hm.2⟩
    · by_cases hl : a < k
      · simp only [mapIns, hk, hl, if_true, if_false, mapWfFrom, Bool.and_eq_true, decide_eq_true_eq]
        exact ⟨⟨h, hx⟩, ⟨by omega, hm.1.2⟩, hm.2⟩
      · simp only [mapIns, hk, hl, if_false, mapWfFrom, Bool.and_eq_true, decide_eq_true_eq]
        exact ⟨hm.1, ih _ (by omega) hm.2⟩

/-- Setting a key keeps the canonical form. -/
theorem mapWf_put {α : Type} [DecidableEq α] (d : α) (m : SMap α) (a : Nat) (x : α) (h : mapWf d m = true) :
    mapWf d (mapPut d m a x) = true := by
  unfold mapPut
  split
  · exact mapWfFrom_del d m a 0 h
  · next hx => exact mapWfFrom_ins d m a x hx 0 (Nat.zero_le a) h

theorem mapWfFrom_filter {α : Type} [DecidableEq α] (d : α) (m : SMap α) (p : Nat × α → Bool) :
    ∀ lo, mapWfFrom d lo m = true → mapWfFrom d lo (m.filter p) = true := by
  induction m with
  | nil => intro lo _; rfl
  | cons c m ih =>
    obtain ⟨k, v⟩ := c
    intro lo hm
    simp only [mapWfFrom, Bool.and_eq_true, decide_eq_true_eq] at hm
    by_cases hp : p (k, v) = true
    · simp only [List.filter_cons, hp, if_true, mapWfFrom, Bool.and_eq_true, decide_eq_true_eq]
      exact ⟨hm.1, ih _ hm.2⟩
    · simp only [List.filter_cons, hp]
      exact mapWfFrom_weaken d _ (by omega) (ih (k + 1) hm.2)

/-- Dropping entries keeps the canonical form. -/
theorem mapWf_filter {α : Type} [DecidableEq α] (d : α) (m : SMap α) (p : Nat × α → Bool) (h : mapWf d m = true) :
    mapWf d (m.filter p) = true := mapWfFrom_filter d m p 0 h

/-! ### Memory -/

theorem memWf_set (m : List Host.Cell) (a : Nat) (b : Byte) (h : memWf m = true) : memWf (memSet m a b) = true :=
  mapWf_put memDefault m a b h

/-- A write of bytes keeps memory's canonical form. -/
theorem memWf_write (bs : List Byte) : ∀ (m : List Host.Cell) (a : Nat), memWf m = true → memWf (memWrite m a bs) = true := by
  induction bs with
  | nil => intro m a h; exact h
  | cons b bs ih => intro m a h; exact ih _ _ (memWf_set m a b h)

/-- A write of bytes leaves every byte outside it as it was. -/
theorem memByte_write_out (bs : List Byte) : ∀ (m : List Host.Cell) (a x : Nat), x < a ∨ a + bs.length ≤ x →
    memByte (memWrite m a bs) x = memByte m x := by
  induction bs with
  | nil => intro m a x _; rfl
  | cons b bs ih =>
    intro m a x h
    simp only [List.length_cons] at h
    rw [memWrite, ih _ _ _ (by omega)]
    exact mapGet_put_ne _ _ _ _ (by omega)

/-- A byte just written reads back. -/
theorem memByte_write_in (bs : List Byte) : ∀ (m : List Host.Cell) (a i : Nat) (h : i < bs.length),
    memByte (memWrite m a bs) (a + i) = bs[i] := by
  induction bs with
  | nil => intro m a i h; simp at h
  | cons b bs ih =>
    intro m a i h
    cases i with
    | zero =>
      rw [memWrite, memByte_write_out _ _ _ _ (Or.inl (by omega))]
      exact mapGet_put_self _ _ _ _
    | succ i =>
      have := ih (memSet m a b) (a + 1) i (by simpa using h)
      rw [memWrite, show a + (i + 1) = a + 1 + i by omega, this]
      rfl

/-- Bytes just written read back as one list. -/
theorem memRead_write (m : List Host.Cell) (a : Nat) (bs : List Byte) : memRead (memWrite m a bs) a bs.length = bs := by
  have key : ∀ (n i : Nat), i + n = bs.length → memRead (memWrite m a bs) (a + i) n = bs.drop i := by
    intro n
    induction n with
    | zero => intro i h; rw [List.drop_of_length_le (by omega)]; rfl
    | succ n ih =>
      intro i h
      have hi : i < bs.length := by omega
      rw [memRead, memByte_write_in _ _ _ _ hi, show a + i + 1 = a + (i + 1) by omega, ih (i + 1) (by omega)]
      exact (List.drop_eq_getElem_cons hi).symm
  simpa using key bs.length 0 (by omega)

theorem State.putBytes_wf (s : State) (a : Nat) (bs : List Byte) (h : memWf s.mem = true) :
    memWf (s.putBytes a bs).mem = true := memWf_write _ _ _ h

theorem State.storeBytes_wf (s : State) (a : Nat) (bs : List Byte) (p : Bool) (h : memWf s.mem = true) :
    memWf (s.storeBytes a bs p).mem = true := memWf_write _ _ _ h

theorem State.hbmBytes_wf (s : State) (a : Nat) (bs : List Byte) (p : Bool) (h : memWf s.mem = true) :
    memWf (s.hbmBytes a bs p).mem = true := memWf_write _ _ _ h

theorem State.zeroRange_wf (s : State) (lo hi : Nat) (h : memWf s.mem = true) : memWf (s.zeroRange lo hi).mem = true :=
  mapWf_filter _ _ _ h

end Sys2Proof.Machine
end

