-- ==== Sys2Proof/Laws/State.lean ====
section
/-! SUPPORT. What each plain update of State leaves as it was: one lemma for each field and update. -/
namespace Sys2Proof.Machine

/-! `setF` -/
@[simp] theorem State.setF_shadow (s : State) (d : FieldDesc) (p i v : Nat) : (s.setF d p i v).shadow = s.shadow := rfl
@[simp] theorem State.setF_csrs (s : State) (d : FieldDesc) (p i v : Nat) : (s.setF d p i v).csrs = s.csrs := rfl
@[simp] theorem State.setF_xregs (s : State) (d : FieldDesc) (p i v : Nat) : (s.setF d p i v).xregs = s.xregs := rfl
@[simp] theorem State.setF_fregs (s : State) (d : FieldDesc) (p i v : Nat) : (s.setF d p i v).fregs = s.fregs := rfl
@[simp] theorem State.setF_vregs (s : State) (d : FieldDesc) (p i v : Nat) : (s.setF d p i v).vregs = s.vregs := rfl
@[simp] theorem State.setF_cores (s : State) (d : FieldDesc) (p i v : Nat) : (s.setF d p i v).cores = s.cores := rfl
@[simp] theorem State.setF_tally (s : State) (d : FieldDesc) (p i v : Nat) : (s.setF d p i v).tally = s.tally := rfl
@[simp] theorem State.setF_mem (s : State) (d : FieldDesc) (p i v : Nat) : (s.setF d p i v).mem = s.mem := rfl
@[simp] theorem State.setF_poisonLine (s : State) (d : FieldDesc) (p i v : Nat) : (s.setF d p i v).poisonLine = s.poisonLine := rfl
@[simp] theorem State.setF_poisonWord (s : State) (d : FieldDesc) (p i v : Nat) : (s.setF d p i v).poisonWord = s.poisonWord := rfl
@[simp] theorem State.setF_counters (s : State) (d : FieldDesc) (p i v : Nat) : (s.setF d p i v).counters = s.counters := rfl
@[simp] theorem State.setF_waits (s : State) (d : FieldDesc) (p i v : Nat) : (s.setF d p i v).waits = s.waits := rfl
@[simp] theorem State.setF_arrived (s : State) (d : FieldDesc) (p i v : Nat) : (s.setF d p i v).arrived = s.arrived := rfl
@[simp] theorem State.setF_flasks (s : State) (d : FieldDesc) (p i v : Nat) : (s.setF d p i v).flasks = s.flasks := rfl
@[simp] theorem State.setF_tiles (s : State) (d : FieldDesc) (p i v : Nat) : (s.setF d p i v).tiles = s.tiles := rfl
@[simp] theorem State.setF_pdWatch (s : State) (d : FieldDesc) (p i v : Nat) : (s.setF d p i v).pdWatch = s.pdWatch := rfl
@[simp] theorem State.setF_hbm (s : State) (d : FieldDesc) (p i v : Nat) : (s.setF d p i v).hbm = s.hbm := rfl
@[simp] theorem State.setF_ecrok (s : State) (d : FieldDesc) (p i v : Nat) : (s.setF d p i v).ecrok = s.ecrok := rfl
@[simp] theorem State.setF_coh (s : State) (d : FieldDesc) (p i v : Nat) : (s.setF d p i v).coh = s.coh := rfl
@[simp] theorem State.setF_coll (s : State) (d : FieldDesc) (p i v : Nat) : (s.setF d p i v).coll = s.coll := rfl
@[simp] theorem State.setF_store (s : State) (d : FieldDesc) (p i v : Nat) : (s.setF d p i v).store = s.store := rfl
@[simp] theorem State.setF_power (s : State) (d : FieldDesc) (p i v : Nat) : (s.setF d p i v).power = s.power := rfl
@[simp] theorem State.setF_ports (s : State) (d : FieldDesc) (p i v : Nat) : (s.setF d p i v).ports = s.ports := rfl
@[simp] theorem State.setF_ftime (s : State) (d : FieldDesc) (p i v : Nat) : (s.setF d p i v).ftime = s.ftime := rfl
@[simp] theorem State.setF_lsa (s : State) (d : FieldDesc) (p i v : Nat) : (s.setF d p i v).lsa = s.lsa := rfl
@[simp] theorem State.setF_repro (s : State) (d : FieldDesc) (p i v : Nat) : (s.setF d p i v).repro = s.repro := rfl
@[simp] theorem State.setF_relPending (s : State) (d : FieldDesc) (p i v : Nat) : (s.setF d p i v).relPending = s.relPending := rfl
@[simp] theorem State.setF_ckpts (s : State) (d : FieldDesc) (p i v : Nat) : (s.setF d p i v).ckpts = s.ckpts := rfl
@[simp] theorem State.setF_promos (s : State) (d : FieldDesc) (p i v : Nat) : (s.setF d p i v).promos = s.promos := rfl
@[simp] theorem State.setF_ckptHeld (s : State) (d : FieldDesc) (p i v : Nat) : (s.setF d p i v).ckptHeld = s.ckptHeld := rfl
@[simp] theorem State.setF_rings (s : State) (d : FieldDesc) (p i v : Nat) : (s.setF d p i v).rings = s.rings := rfl
@[simp] theorem State.setF_log (s : State) (d : FieldDesc) (p i v : Nat) : (s.setF d p i v).log = s.log := rfl
@[simp] theorem State.setF_nodeTrace (s : State) (d : FieldDesc) (p i v : Nat) : (s.setF d p i v).nodeTrace = s.nodeTrace := rfl
@[simp] theorem State.setF_err (s : State) (d : FieldDesc) (p i v : Nat) : (s.setF d p i v).err = s.err := rfl
@[simp] theorem State.setF_traceDrain (s : State) (d : FieldDesc) (p i v : Nat) : (s.setF d p i v).traceDrain = s.traceDrain := rfl
@[simp] theorem State.setF_urgentDue (s : State) (d : FieldDesc) (p i v : Nat) : (s.setF d p i v).urgentDue = s.urgentDue := rfl
@[simp] theorem State.setF_queues (s : State) (d : FieldDesc) (p i v : Nat) : (s.setF d p i v).queues = s.queues := rfl
@[simp] theorem State.setF_keys (s : State) (d : FieldDesc) (p i v : Nat) : (s.setF d p i v).keys = s.keys := rfl
@[simp] theorem State.setF_qps (s : State) (d : FieldDesc) (p i v : Nat) : (s.setF d p i v).qps = s.qps := rfl
@[simp] theorem State.setF_regions (s : State) (d : FieldDesc) (p i v : Nat) : (s.setF d p i v).regions = s.regions := rfl
@[simp] theorem State.setF_pauses (s : State) (d : FieldDesc) (p i v : Nat) : (s.setF d p i v).pauses = s.pauses := rfl
@[simp] theorem State.setF_pairs (s : State) (d : FieldDesc) (p i v : Nat) : (s.setF d p i v).pairs = s.pairs := rfl
@[simp] theorem State.setF_dike (s : State) (d : FieldDesc) (p i v : Nat) : (s.setF d p i v).dike = s.dike := rfl
@[simp] theorem State.setF_spdm (s : State) (d : FieldDesc) (p i v : Nat) : (s.setF d p i v).spdm = s.spdm := rfl
@[simp] theorem State.setF_boot (s : State) (d : FieldDesc) (p i v : Nat) : (s.setF d p i v).boot = s.boot := rfl
@[simp] theorem State.setF_flokan (s : State) (d : FieldDesc) (p i v : Nat) : (s.setF d p i v).flokan = s.flokan := rfl
@[simp] theorem State.setF_snaps (s : State) (d : FieldDesc) (p i v : Nat) : (s.setF d p i v).snaps = s.snaps := rfl
@[simp] theorem State.setF_snapPages (s : State) (d : FieldDesc) (p i v : Nat) : (s.setF d p i v).snapPages = s.snapPages := rfl
@[simp] theorem State.setF_side (s : State) (d : FieldDesc) (p i v : Nat) : (s.setF d p i v).side = s.side := rfl
@[simp] theorem State.setF_ctxs (s : State) (d : FieldDesc) (p i v : Nat) : (s.setF d p i v).ctxs = s.ctxs := rfl
@[simp] theorem State.setF_schedEvents (s : State) (d : FieldDesc) (p i v : Nat) : (s.setF d p i v).schedEvents = s.schedEvents := rfl
@[simp] theorem State.setF_out (s : State) (d : FieldDesc) (p i v : Nat) : (s.setF d p i v).out = s.out := rfl
@[simp] theorem State.setF_freeCount (s : State) (d : FieldDesc) (p i v : Nat) : (s.setF d p i v).freeCount = s.freeCount := rfl
@[simp] theorem State.setF_pending (s : State) (d : FieldDesc) (p i v : Nat) : (s.setF d p i v).pending = s.pending := rfl

/-! `addF` -/
@[simp] theorem State.addF_shadow (s : State) (d : FieldDesc) (p i n : Nat) : (s.addF d p i n).shadow = s.shadow := rfl
@[simp] theorem State.addF_csrs (s : State) (d : FieldDesc) (p i n : Nat) : (s.addF d p i n).csrs = s.csrs := rfl
@[simp] theorem State.addF_xregs (s : State) (d : FieldDesc) (p i n : Nat) : (s.addF d p i n).xregs = s.xregs := rfl
@[simp] theorem State.addF_fregs (s : State) (d : FieldDesc) (p i n : Nat) : (s.addF d p i n).fregs = s.fregs := rfl
@[simp] theorem State.addF_vregs (s : State) (d : FieldDesc) (p i n : Nat) : (s.addF d p i n).vregs = s.vregs := rfl
@[simp] theorem State.addF_cores (s : State) (d : FieldDesc) (p i n : Nat) : (s.addF d p i n).cores = s.cores := rfl
@[simp] theorem State.addF_tally (s : State) (d : FieldDesc) (p i n : Nat) : (s.addF d p i n).tally = s.tally := rfl
@[simp] theorem State.addF_mem (s : State) (d : FieldDesc) (p i n : Nat) : (s.addF d p i n).mem = s.mem := rfl
@[simp] theorem State.addF_poisonLine (s : State) (d : FieldDesc) (p i n : Nat) : (s.addF d p i n).poisonLine = s.poisonLine := rfl
@[simp] theorem State.addF_poisonWord (s : State) (d : FieldDesc) (p i n : Nat) : (s.addF d p i n).poisonWord = s.poisonWord := rfl
@[simp] theorem State.addF_counters (s : State) (d : FieldDesc) (p i n : Nat) : (s.addF d p i n).counters = s.counters := rfl
@[simp] theorem State.addF_waits (s : State) (d : FieldDesc) (p i n : Nat) : (s.addF d p i n).waits = s.waits := rfl
@[simp] theorem State.addF_arrived (s : State) (d : FieldDesc) (p i n : Nat) : (s.addF d p i n).arrived = s.arrived := rfl
@[simp] theorem State.addF_flasks (s : State) (d : FieldDesc) (p i n : Nat) : (s.addF d p i n).flasks = s.flasks := rfl
@[simp] theorem State.addF_tiles (s : State) (d : FieldDesc) (p i n : Nat) : (s.addF d p i n).tiles = s.tiles := rfl
@[simp] theorem State.addF_pdWatch (s : State) (d : FieldDesc) (p i n : Nat) : (s.addF d p i n).pdWatch = s.pdWatch := rfl
@[simp] theorem State.addF_hbm (s : State) (d : FieldDesc) (p i n : Nat) : (s.addF d p i n).hbm = s.hbm := rfl
@[simp] theorem State.addF_ecrok (s : State) (d : FieldDesc) (p i n : Nat) : (s.addF d p i n).ecrok = s.ecrok := rfl
@[simp] theorem State.addF_coh (s : State) (d : FieldDesc) (p i n : Nat) : (s.addF d p i n).coh = s.coh := rfl
@[simp] theorem State.addF_coll (s : State) (d : FieldDesc) (p i n : Nat) : (s.addF d p i n).coll = s.coll := rfl
@[simp] theorem State.addF_store (s : State) (d : FieldDesc) (p i n : Nat) : (s.addF d p i n).store = s.store := rfl
@[simp] theorem State.addF_power (s : State) (d : FieldDesc) (p i n : Nat) : (s.addF d p i n).power = s.power := rfl
@[simp] theorem State.addF_ports (s : State) (d : FieldDesc) (p i n : Nat) : (s.addF d p i n).ports = s.ports := rfl
@[simp] theorem State.addF_ftime (s : State) (d : FieldDesc) (p i n : Nat) : (s.addF d p i n).ftime = s.ftime := rfl
@[simp] theorem State.addF_lsa (s : State) (d : FieldDesc) (p i n : Nat) : (s.addF d p i n).lsa = s.lsa := rfl
@[simp] theorem State.addF_repro (s : State) (d : FieldDesc) (p i n : Nat) : (s.addF d p i n).repro = s.repro := rfl
@[simp] theorem State.addF_relPending (s : State) (d : FieldDesc) (p i n : Nat) : (s.addF d p i n).relPending = s.relPending := rfl
@[simp] theorem State.addF_ckpts (s : State) (d : FieldDesc) (p i n : Nat) : (s.addF d p i n).ckpts = s.ckpts := rfl
@[simp] theorem State.addF_promos (s : State) (d : FieldDesc) (p i n : Nat) : (s.addF d p i n).promos = s.promos := rfl
@[simp] theorem State.addF_ckptHeld (s : State) (d : FieldDesc) (p i n : Nat) : (s.addF d p i n).ckptHeld = s.ckptHeld := rfl
@[simp] theorem State.addF_rings (s : State) (d : FieldDesc) (p i n : Nat) : (s.addF d p i n).rings = s.rings := rfl
@[simp] theorem State.addF_log (s : State) (d : FieldDesc) (p i n : Nat) : (s.addF d p i n).log = s.log := rfl
@[simp] theorem State.addF_nodeTrace (s : State) (d : FieldDesc) (p i n : Nat) : (s.addF d p i n).nodeTrace = s.nodeTrace := rfl
@[simp] theorem State.addF_err (s : State) (d : FieldDesc) (p i n : Nat) : (s.addF d p i n).err = s.err := rfl
@[simp] theorem State.addF_traceDrain (s : State) (d : FieldDesc) (p i n : Nat) : (s.addF d p i n).traceDrain = s.traceDrain := rfl
@[simp] theorem State.addF_urgentDue (s : State) (d : FieldDesc) (p i n : Nat) : (s.addF d p i n).urgentDue = s.urgentDue := rfl
@[simp] theorem State.addF_queues (s : State) (d : FieldDesc) (p i n : Nat) : (s.addF d p i n).queues = s.queues := rfl
@[simp] theorem State.addF_keys (s : State) (d : FieldDesc) (p i n : Nat) : (s.addF d p i n).keys = s.keys := rfl
@[simp] theorem State.addF_qps (s : State) (d : FieldDesc) (p i n : Nat) : (s.addF d p i n).qps = s.qps := rfl
@[simp] theorem State.addF_regions (s : State) (d : FieldDesc) (p i n : Nat) : (s.addF d p i n).regions = s.regions := rfl
@[simp] theorem State.addF_pauses (s : State) (d : FieldDesc) (p i n : Nat) : (s.addF d p i n).pauses = s.pauses := rfl
@[simp] theorem State.addF_pairs (s : State) (d : FieldDesc) (p i n : Nat) : (s.addF d p i n).pairs = s.pairs := rfl
@[simp] theorem State.addF_dike (s : State) (d : FieldDesc) (p i n : Nat) : (s.addF d p i n).dike = s.dike := rfl
@[simp] theorem State.addF_spdm (s : State) (d : FieldDesc) (p i n : Nat) : (s.addF d p i n).spdm = s.spdm := rfl
@[simp] theorem State.addF_boot (s : State) (d : FieldDesc) (p i n : Nat) : (s.addF d p i n).boot = s.boot := rfl
@[simp] theorem State.addF_flokan (s : State) (d : FieldDesc) (p i n : Nat) : (s.addF d p i n).flokan = s.flokan := rfl
@[simp] theorem State.addF_snaps (s : State) (d : FieldDesc) (p i n : Nat) : (s.addF d p i n).snaps = s.snaps := rfl
@[simp] theorem State.addF_snapPages (s : State) (d : FieldDesc) (p i n : Nat) : (s.addF d p i n).snapPages = s.snapPages := rfl
@[simp] theorem State.addF_side (s : State) (d : FieldDesc) (p i n : Nat) : (s.addF d p i n).side = s.side := rfl
@[simp] theorem State.addF_ctxs (s : State) (d : FieldDesc) (p i n : Nat) : (s.addF d p i n).ctxs = s.ctxs := rfl
@[simp] theorem State.addF_schedEvents (s : State) (d : FieldDesc) (p i n : Nat) : (s.addF d p i n).schedEvents = s.schedEvents := rfl
@[simp] theorem State.addF_out (s : State) (d : FieldDesc) (p i n : Nat) : (s.addF d p i n).out = s.out := rfl
@[simp] theorem State.addF_freeCount (s : State) (d : FieldDesc) (p i n : Nat) : (s.addF d p i n).freeCount = s.freeCount := rfl
@[simp] theorem State.addF_pending (s : State) (d : FieldDesc) (p i n : Nat) : (s.addF d p i n).pending = s.pending := rfl

/-! `clearF` -/
@[simp] theorem State.clearF_shadow (s : State) (d : FieldDesc) (p i : Nat) : (s.clearF d p i).shadow = s.shadow := rfl
@[simp] theorem State.clearF_csrs (s : State) (d : FieldDesc) (p i : Nat) : (s.clearF d p i).csrs = s.csrs := rfl
@[simp] theorem State.clearF_xregs (s : State) (d : FieldDesc) (p i : Nat) : (s.clearF d p i).xregs = s.xregs := rfl
@[simp] theorem State.clearF_fregs (s : State) (d : FieldDesc) (p i : Nat) : (s.clearF d p i).fregs = s.fregs := rfl
@[simp] theorem State.clearF_vregs (s : State) (d : FieldDesc) (p i : Nat) : (s.clearF d p i).vregs = s.vregs := rfl
@[simp] theorem State.clearF_cores (s : State) (d : FieldDesc) (p i : Nat) : (s.clearF d p i).cores = s.cores := rfl
@[simp] theorem State.clearF_tally (s : State) (d : FieldDesc) (p i : Nat) : (s.clearF d p i).tally = s.tally := rfl
@[simp] theorem State.clearF_mem (s : State) (d : FieldDesc) (p i : Nat) : (s.clearF d p i).mem = s.mem := rfl
@[simp] theorem State.clearF_poisonLine (s : State) (d : FieldDesc) (p i : Nat) : (s.clearF d p i).poisonLine = s.poisonLine := rfl
@[simp] theorem State.clearF_poisonWord (s : State) (d : FieldDesc) (p i : Nat) : (s.clearF d p i).poisonWord = s.poisonWord := rfl
@[simp] theorem State.clearF_counters (s : State) (d : FieldDesc) (p i : Nat) : (s.clearF d p i).counters = s.counters := rfl
@[simp] theorem State.clearF_waits (s : State) (d : FieldDesc) (p i : Nat) : (s.clearF d p i).waits = s.waits := rfl
@[simp] theorem State.clearF_arrived (s : State) (d : FieldDesc) (p i : Nat) : (s.clearF d p i).arrived = s.arrived := rfl
@[simp] theorem State.clearF_flasks (s : State) (d : FieldDesc) (p i : Nat) : (s.clearF d p i).flasks = s.flasks := rfl
@[simp] theorem State.clearF_tiles (s : State) (d : FieldDesc) (p i : Nat) : (s.clearF d p i).tiles = s.tiles := rfl
@[simp] theorem State.clearF_pdWatch (s : State) (d : FieldDesc) (p i : Nat) : (s.clearF d p i).pdWatch = s.pdWatch := rfl
@[simp] theorem State.clearF_hbm (s : State) (d : FieldDesc) (p i : Nat) : (s.clearF d p i).hbm = s.hbm := rfl
@[simp] theorem State.clearF_ecrok (s : State) (d : FieldDesc) (p i : Nat) : (s.clearF d p i).ecrok = s.ecrok := rfl
@[simp] theorem State.clearF_coh (s : State) (d : FieldDesc) (p i : Nat) : (s.clearF d p i).coh = s.coh := rfl
@[simp] theorem State.clearF_coll (s : State) (d : FieldDesc) (p i : Nat) : (s.clearF d p i).coll = s.coll := rfl
@[simp] theorem State.clearF_store (s : State) (d : FieldDesc) (p i : Nat) : (s.clearF d p i).store = s.store := rfl
@[simp] theorem State.clearF_power (s : State) (d : FieldDesc) (p i : Nat) : (s.clearF d p i).power = s.power := rfl
@[simp] theorem State.clearF_ports (s : State) (d : FieldDesc) (p i : Nat) : (s.clearF d p i).ports = s.ports := rfl
@[simp] theorem State.clearF_ftime (s : State) (d : FieldDesc) (p i : Nat) : (s.clearF d p i).ftime = s.ftime := rfl
@[simp] theorem State.clearF_lsa (s : State) (d : FieldDesc) (p i : Nat) : (s.clearF d p i).lsa = s.lsa := rfl
@[simp] theorem State.clearF_repro (s : State) (d : FieldDesc) (p i : Nat) : (s.clearF d p i).repro = s.repro := rfl
@[simp] theorem State.clearF_relPending (s : State) (d : FieldDesc) (p i : Nat) : (s.clearF d p i).relPending = s.relPending := rfl
@[simp] theorem State.clearF_ckpts (s : State) (d : FieldDesc) (p i : Nat) : (s.clearF d p i).ckpts = s.ckpts := rfl
@[simp] theorem State.clearF_promos (s : State) (d : FieldDesc) (p i : Nat) : (s.clearF d p i).promos = s.promos := rfl
@[simp] theorem State.clearF_ckptHeld (s : State) (d : FieldDesc) (p i : Nat) : (s.clearF d p i).ckptHeld = s.ckptHeld := rfl
@[simp] theorem State.clearF_rings (s : State) (d : FieldDesc) (p i : Nat) : (s.clearF d p i).rings = s.rings := rfl
@[simp] theorem State.clearF_log (s : State) (d : FieldDesc) (p i : Nat) : (s.clearF d p i).log = s.log := rfl
@[simp] theorem State.clearF_nodeTrace (s : State) (d : FieldDesc) (p i : Nat) : (s.clearF d p i).nodeTrace = s.nodeTrace := rfl
@[simp] theorem State.clearF_err (s : State) (d : FieldDesc) (p i : Nat) : (s.clearF d p i).err = s.err := rfl
@[simp] theorem State.clearF_traceDrain (s : State) (d : FieldDesc) (p i : Nat) : (s.clearF d p i).traceDrain = s.traceDrain := rfl
@[simp] theorem State.clearF_urgentDue (s : State) (d : FieldDesc) (p i : Nat) : (s.clearF d p i).urgentDue = s.urgentDue := rfl
@[simp] theorem State.clearF_queues (s : State) (d : FieldDesc) (p i : Nat) : (s.clearF d p i).queues = s.queues := rfl
@[simp] theorem State.clearF_keys (s : State) (d : FieldDesc) (p i : Nat) : (s.clearF d p i).keys = s.keys := rfl
@[simp] theorem State.clearF_qps (s : State) (d : FieldDesc) (p i : Nat) : (s.clearF d p i).qps = s.qps := rfl
@[simp] theorem State.clearF_regions (s : State) (d : FieldDesc) (p i : Nat) : (s.clearF d p i).regions = s.regions := rfl
@[simp] theorem State.clearF_pauses (s : State) (d : FieldDesc) (p i : Nat) : (s.clearF d p i).pauses = s.pauses := rfl
@[simp] theorem State.clearF_pairs (s : State) (d : FieldDesc) (p i : Nat) : (s.clearF d p i).pairs = s.pairs := rfl
@[simp] theorem State.clearF_dike (s : State) (d : FieldDesc) (p i : Nat) : (s.clearF d p i).dike = s.dike := rfl
@[simp] theorem State.clearF_spdm (s : State) (d : FieldDesc) (p i : Nat) : (s.clearF d p i).spdm = s.spdm := rfl
@[simp] theorem State.clearF_boot (s : State) (d : FieldDesc) (p i : Nat) : (s.clearF d p i).boot = s.boot := rfl
@[simp] theorem State.clearF_flokan (s : State) (d : FieldDesc) (p i : Nat) : (s.clearF d p i).flokan = s.flokan := rfl
@[simp] theorem State.clearF_snaps (s : State) (d : FieldDesc) (p i : Nat) : (s.clearF d p i).snaps = s.snaps := rfl
@[simp] theorem State.clearF_snapPages (s : State) (d : FieldDesc) (p i : Nat) : (s.clearF d p i).snapPages = s.snapPages := rfl
@[simp] theorem State.clearF_side (s : State) (d : FieldDesc) (p i : Nat) : (s.clearF d p i).side = s.side := rfl
@[simp] theorem State.clearF_ctxs (s : State) (d : FieldDesc) (p i : Nat) : (s.clearF d p i).ctxs = s.ctxs := rfl
@[simp] theorem State.clearF_schedEvents (s : State) (d : FieldDesc) (p i : Nat) : (s.clearF d p i).schedEvents = s.schedEvents := rfl
@[simp] theorem State.clearF_out (s : State) (d : FieldDesc) (p i : Nat) : (s.clearF d p i).out = s.out := rfl
@[simp] theorem State.clearF_freeCount (s : State) (d : FieldDesc) (p i : Nat) : (s.clearF d p i).freeCount = s.freeCount := rfl
@[simp] theorem State.clearF_pending (s : State) (d : FieldDesc) (p i : Nat) : (s.clearF d p i).pending = s.pending := rfl

/-! `setCore` -/
@[simp] theorem State.setCore_regs (s : State) (c : Nat) (k : CoreState) : (s.setCore c k).regs = s.regs := rfl
@[simp] theorem State.setCore_shadow (s : State) (c : Nat) (k : CoreState) : (s.setCore c k).shadow = s.shadow := rfl
@[simp] theorem State.setCore_csrs (s : State) (c : Nat) (k : CoreState) : (s.setCore c k).csrs = s.csrs := rfl
@[simp] theorem State.setCore_xregs (s : State) (c : Nat) (k : CoreState) : (s.setCore c k).xregs = s.xregs := rfl
@[simp] theorem State.setCore_fregs (s : State) (c : Nat) (k : CoreState) : (s.setCore c k).fregs = s.fregs := rfl
@[simp] theorem State.setCore_vregs (s : State) (c : Nat) (k : CoreState) : (s.setCore c k).vregs = s.vregs := rfl
@[simp] theorem State.setCore_tally (s : State) (c : Nat) (k : CoreState) : (s.setCore c k).tally = s.tally := rfl
@[simp] theorem State.setCore_mem (s : State) (c : Nat) (k : CoreState) : (s.setCore c k).mem = s.mem := rfl
@[simp] theorem State.setCore_poisonLine (s : State) (c : Nat) (k : CoreState) : (s.setCore c k).poisonLine = s.poisonLine := rfl
@[simp] theorem State.setCore_poisonWord (s : State) (c : Nat) (k : CoreState) : (s.setCore c k).poisonWord = s.poisonWord := rfl
@[simp] theorem State.setCore_counters (s : State) (c : Nat) (k : CoreState) : (s.setCore c k).counters = s.counters := rfl
@[simp] theorem State.setCore_waits (s : State) (c : Nat) (k : CoreState) : (s.setCore c k).waits = s.waits := rfl
@[simp] theorem State.setCore_arrived (s : State) (c : Nat) (k : CoreState) : (s.setCore c k).arrived = s.arrived := rfl
@[simp] theorem State.setCore_flasks (s : State) (c : Nat) (k : CoreState) : (s.setCore c k).flasks = s.flasks := rfl
@[simp] theorem State.setCore_tiles (s : State) (c : Nat) (k : CoreState) : (s.setCore c k).tiles = s.tiles := rfl
@[simp] theorem State.setCore_pdWatch (s : State) (c : Nat) (k : CoreState) : (s.setCore c k).pdWatch = s.pdWatch := rfl
@[simp] theorem State.setCore_hbm (s : State) (c : Nat) (k : CoreState) : (s.setCore c k).hbm = s.hbm := rfl
@[simp] theorem State.setCore_ecrok (s : State) (c : Nat) (k : CoreState) : (s.setCore c k).ecrok = s.ecrok := rfl
@[simp] theorem State.setCore_coh (s : State) (c : Nat) (k : CoreState) : (s.setCore c k).coh = s.coh := rfl
@[simp] theorem State.setCore_coll (s : State) (c : Nat) (k : CoreState) : (s.setCore c k).coll = s.coll := rfl
@[simp] theorem State.setCore_store (s : State) (c : Nat) (k : CoreState) : (s.setCore c k).store = s.store := rfl
@[simp] theorem State.setCore_power (s : State) (c : Nat) (k : CoreState) : (s.setCore c k).power = s.power := rfl
@[simp] theorem State.setCore_ports (s : State) (c : Nat) (k : CoreState) : (s.setCore c k).ports = s.ports := rfl
@[simp] theorem State.setCore_ftime (s : State) (c : Nat) (k : CoreState) : (s.setCore c k).ftime = s.ftime := rfl
@[simp] theorem State.setCore_lsa (s : State) (c : Nat) (k : CoreState) : (s.setCore c k).lsa = s.lsa := rfl
@[simp] theorem State.setCore_repro (s : State) (c : Nat) (k : CoreState) : (s.setCore c k).repro = s.repro := rfl
@[simp] theorem State.setCore_relPending (s : State) (c : Nat) (k : CoreState) : (s.setCore c k).relPending = s.relPending := rfl
@[simp] theorem State.setCore_ckpts (s : State) (c : Nat) (k : CoreState) : (s.setCore c k).ckpts = s.ckpts := rfl
@[simp] theorem State.setCore_promos (s : State) (c : Nat) (k : CoreState) : (s.setCore c k).promos = s.promos := rfl
@[simp] theorem State.setCore_ckptHeld (s : State) (c : Nat) (k : CoreState) : (s.setCore c k).ckptHeld = s.ckptHeld := rfl
@[simp] theorem State.setCore_rings (s : State) (c : Nat) (k : CoreState) : (s.setCore c k).rings = s.rings := rfl
@[simp] theorem State.setCore_log (s : State) (c : Nat) (k : CoreState) : (s.setCore c k).log = s.log := rfl
@[simp] theorem State.setCore_nodeTrace (s : State) (c : Nat) (k : CoreState) : (s.setCore c k).nodeTrace = s.nodeTrace := rfl
@[simp] theorem State.setCore_err (s : State) (c : Nat) (k : CoreState) : (s.setCore c k).err = s.err := rfl
@[simp] theorem State.setCore_traceDrain (s : State) (c : Nat) (k : CoreState) : (s.setCore c k).traceDrain = s.traceDrain := rfl
@[simp] theorem State.setCore_urgentDue (s : State) (c : Nat) (k : CoreState) : (s.setCore c k).urgentDue = s.urgentDue := rfl
@[simp] theorem State.setCore_queues (s : State) (c : Nat) (k : CoreState) : (s.setCore c k).queues = s.queues := rfl
@[simp] theorem State.setCore_keys (s : State) (c : Nat) (k : CoreState) : (s.setCore c k).keys = s.keys := rfl
@[simp] theorem State.setCore_qps (s : State) (c : Nat) (k : CoreState) : (s.setCore c k).qps = s.qps := rfl
@[simp] theorem State.setCore_regions (s : State) (c : Nat) (k : CoreState) : (s.setCore c k).regions = s.regions := rfl
@[simp] theorem State.setCore_pauses (s : State) (c : Nat) (k : CoreState) : (s.setCore c k).pauses = s.pauses := rfl
@[simp] theorem State.setCore_pairs (s : State) (c : Nat) (k : CoreState) : (s.setCore c k).pairs = s.pairs := rfl
@[simp] theorem State.setCore_dike (s : State) (c : Nat) (k : CoreState) : (s.setCore c k).dike = s.dike := rfl
@[simp] theorem State.setCore_spdm (s : State) (c : Nat) (k : CoreState) : (s.setCore c k).spdm = s.spdm := rfl
@[simp] theorem State.setCore_boot (s : State) (c : Nat) (k : CoreState) : (s.setCore c k).boot = s.boot := rfl
@[simp] theorem State.setCore_flokan (s : State) (c : Nat) (k : CoreState) : (s.setCore c k).flokan = s.flokan := rfl
@[simp] theorem State.setCore_snaps (s : State) (c : Nat) (k : CoreState) : (s.setCore c k).snaps = s.snaps := rfl
@[simp] theorem State.setCore_snapPages (s : State) (c : Nat) (k : CoreState) : (s.setCore c k).snapPages = s.snapPages := rfl
@[simp] theorem State.setCore_side (s : State) (c : Nat) (k : CoreState) : (s.setCore c k).side = s.side := rfl
@[simp] theorem State.setCore_ctxs (s : State) (c : Nat) (k : CoreState) : (s.setCore c k).ctxs = s.ctxs := rfl
@[simp] theorem State.setCore_schedEvents (s : State) (c : Nat) (k : CoreState) : (s.setCore c k).schedEvents = s.schedEvents := rfl
@[simp] theorem State.setCore_out (s : State) (c : Nat) (k : CoreState) : (s.setCore c k).out = s.out := rfl
@[simp] theorem State.setCore_freeCount (s : State) (c : Nat) (k : CoreState) : (s.setCore c k).freeCount = s.freeCount := rfl
@[simp] theorem State.setCore_pending (s : State) (c : Nat) (k : CoreState) : (s.setCore c k).pending = s.pending := rfl

/-! `trap` -/
@[simp] theorem State.trap_regs (s : State) (c cause tval : Nat) : (s.trap c cause tval).regs = s.regs := rfl
@[simp] theorem State.trap_shadow (s : State) (c cause tval : Nat) : (s.trap c cause tval).shadow = s.shadow := rfl
@[simp] theorem State.trap_csrs (s : State) (c cause tval : Nat) : (s.trap c cause tval).csrs = s.csrs := rfl
@[simp] theorem State.trap_xregs (s : State) (c cause tval : Nat) : (s.trap c cause tval).xregs = s.xregs := rfl
@[simp] theorem State.trap_fregs (s : State) (c cause tval : Nat) : (s.trap c cause tval).fregs = s.fregs := rfl
@[simp] theorem State.trap_vregs (s : State) (c cause tval : Nat) : (s.trap c cause tval).vregs = s.vregs := rfl
@[simp] theorem State.trap_tally (s : State) (c cause tval : Nat) : (s.trap c cause tval).tally = s.tally := rfl
@[simp] theorem State.trap_mem (s : State) (c cause tval : Nat) : (s.trap c cause tval).mem = s.mem := rfl
@[simp] theorem State.trap_poisonLine (s : State) (c cause tval : Nat) : (s.trap c cause tval).poisonLine = s.poisonLine := rfl
@[simp] theorem State.trap_poisonWord (s : State) (c cause tval : Nat) : (s.trap c cause tval).poisonWord = s.poisonWord := rfl
@[simp] theorem State.trap_counters (s : State) (c cause tval : Nat) : (s.trap c cause tval).counters = s.counters := rfl
@[simp] theorem State.trap_waits (s : State) (c cause tval : Nat) : (s.trap c cause tval).waits = s.waits := rfl
@[simp] theorem State.trap_arrived (s : State) (c cause tval : Nat) : (s.trap c cause tval).arrived = s.arrived := rfl
@[simp] theorem State.trap_flasks (s : State) (c cause tval : Nat) : (s.trap c cause tval).flasks = s.flasks := rfl
@[simp] theorem State.trap_tiles (s : State) (c cause tval : Nat) : (s.trap c cause tval).tiles = s.tiles := rfl
@[simp] theorem State.trap_pdWatch (s : State) (c cause tval : Nat) : (s.trap c cause tval).pdWatch = s.pdWatch := rfl
@[simp] theorem State.trap_hbm (s : State) (c cause tval : Nat) : (s.trap c cause tval).hbm = s.hbm := rfl
@[simp] theorem State.trap_ecrok (s : State) (c cause tval : Nat) : (s.trap c cause tval).ecrok = s.ecrok := rfl
@[simp] theorem State.trap_coh (s : State) (c cause tval : Nat) : (s.trap c cause tval).coh = s.coh := rfl
@[simp] theorem State.trap_coll (s : State) (c cause tval : Nat) : (s.trap c cause tval).coll = s.coll := rfl
@[simp] theorem State.trap_store (s : State) (c cause tval : Nat) : (s.trap c cause tval).store = s.store := rfl
@[simp] theorem State.trap_power (s : State) (c cause tval : Nat) : (s.trap c cause tval).power = s.power := rfl
@[simp] theorem State.trap_ports (s : State) (c cause tval : Nat) : (s.trap c cause tval).ports = s.ports := rfl
@[simp] theorem State.trap_ftime (s : State) (c cause tval : Nat) : (s.trap c cause tval).ftime = s.ftime := rfl
@[simp] theorem State.trap_lsa (s : State) (c cause tval : Nat) : (s.trap c cause tval).lsa = s.lsa := rfl
@[simp] theorem State.trap_repro (s : State) (c cause tval : Nat) : (s.trap c cause tval).repro = s.repro := rfl
@[simp] theorem State.trap_relPending (s : State) (c cause tval : Nat) : (s.trap c cause tval).relPending = s.relPending := rfl
@[simp] theorem State.trap_ckpts (s : State) (c cause tval : Nat) : (s.trap c cause tval).ckpts = s.ckpts := rfl
@[simp] theorem State.trap_promos (s : State) (c cause tval : Nat) : (s.trap c cause tval).promos = s.promos := rfl
@[simp] theorem State.trap_ckptHeld (s : State) (c cause tval : Nat) : (s.trap c cause tval).ckptHeld = s.ckptHeld := rfl
@[simp] theorem State.trap_rings (s : State) (c cause tval : Nat) : (s.trap c cause tval).rings = s.rings := rfl
@[simp] theorem State.trap_log (s : State) (c cause tval : Nat) : (s.trap c cause tval).log = s.log := rfl
@[simp] theorem State.trap_nodeTrace (s : State) (c cause tval : Nat) : (s.trap c cause tval).nodeTrace = s.nodeTrace := rfl
@[simp] theorem State.trap_err (s : State) (c cause tval : Nat) : (s.trap c cause tval).err = s.err := rfl
@[simp] theorem State.trap_traceDrain (s : State) (c cause tval : Nat) : (s.trap c cause tval).traceDrain = s.traceDrain := rfl
@[simp] theorem State.trap_urgentDue (s : State) (c cause tval : Nat) : (s.trap c cause tval).urgentDue = s.urgentDue := rfl
@[simp] theorem State.trap_queues (s : State) (c cause tval : Nat) : (s.trap c cause tval).queues = s.queues := rfl
@[simp] theorem State.trap_keys (s : State) (c cause tval : Nat) : (s.trap c cause tval).keys = s.keys := rfl
@[simp] theorem State.trap_qps (s : State) (c cause tval : Nat) : (s.trap c cause tval).qps = s.qps := rfl
@[simp] theorem State.trap_regions (s : State) (c cause tval : Nat) : (s.trap c cause tval).regions = s.regions := rfl
@[simp] theorem State.trap_pauses (s : State) (c cause tval : Nat) : (s.trap c cause tval).pauses = s.pauses := rfl
@[simp] theorem State.trap_pairs (s : State) (c cause tval : Nat) : (s.trap c cause tval).pairs = s.pairs := rfl
@[simp] theorem State.trap_dike (s : State) (c cause tval : Nat) : (s.trap c cause tval).dike = s.dike := rfl
@[simp] theorem State.trap_spdm (s : State) (c cause tval : Nat) : (s.trap c cause tval).spdm = s.spdm := rfl
@[simp] theorem State.trap_boot (s : State) (c cause tval : Nat) : (s.trap c cause tval).boot = s.boot := rfl
@[simp] theorem State.trap_flokan (s : State) (c cause tval : Nat) : (s.trap c cause tval).flokan = s.flokan := rfl
@[simp] theorem State.trap_snaps (s : State) (c cause tval : Nat) : (s.trap c cause tval).snaps = s.snaps := rfl
@[simp] theorem State.trap_snapPages (s : State) (c cause tval : Nat) : (s.trap c cause tval).snapPages = s.snapPages := rfl
@[simp] theorem State.trap_side (s : State) (c cause tval : Nat) : (s.trap c cause tval).side = s.side := rfl
@[simp] theorem State.trap_ctxs (s : State) (c cause tval : Nat) : (s.trap c cause tval).ctxs = s.ctxs := rfl
@[simp] theorem State.trap_schedEvents (s : State) (c cause tval : Nat) : (s.trap c cause tval).schedEvents = s.schedEvents := rfl
@[simp] theorem State.trap_out (s : State) (c cause tval : Nat) : (s.trap c cause tval).out = s.out := rfl
@[simp] theorem State.trap_freeCount (s : State) (c cause tval : Nat) : (s.trap c cause tval).freeCount = s.freeCount := rfl
@[simp] theorem State.trap_pending (s : State) (c cause tval : Nat) : (s.trap c cause tval).pending = s.pending := rfl

/-! `block` -/
@[simp] theorem State.block_regs (s : State) (c : Nat) (b : Blocked) : (s.block c b).regs = s.regs := rfl
@[simp] theorem State.block_shadow (s : State) (c : Nat) (b : Blocked) : (s.block c b).shadow = s.shadow := rfl
@[simp] theorem State.block_csrs (s : State) (c : Nat) (b : Blocked) : (s.block c b).csrs = s.csrs := rfl
@[simp] theorem State.block_xregs (s : State) (c : Nat) (b : Blocked) : (s.block c b).xregs = s.xregs := rfl
@[simp] theorem State.block_fregs (s : State) (c : Nat) (b : Blocked) : (s.block c b).fregs = s.fregs := rfl
@[simp] theorem State.block_vregs (s : State) (c : Nat) (b : Blocked) : (s.block c b).vregs = s.vregs := rfl
@[simp] theorem State.block_tally (s : State) (c : Nat) (b : Blocked) : (s.block c b).tally = s.tally := rfl
@[simp] theorem State.block_mem (s : State) (c : Nat) (b : Blocked) : (s.block c b).mem = s.mem := rfl
@[simp] theorem State.block_poisonLine (s : State) (c : Nat) (b : Blocked) : (s.block c b).poisonLine = s.poisonLine := rfl
@[simp] theorem State.block_poisonWord (s : State) (c : Nat) (b : Blocked) : (s.block c b).poisonWord = s.poisonWord := rfl
@[simp] theorem State.block_counters (s : State) (c : Nat) (b : Blocked) : (s.block c b).counters = s.counters := rfl
@[simp] theorem State.block_waits (s : State) (c : Nat) (b : Blocked) : (s.block c b).waits = s.waits := rfl
@[simp] theorem State.block_arrived (s : State) (c : Nat) (b : Blocked) : (s.block c b).arrived = s.arrived := rfl
@[simp] theorem State.block_flasks (s : State) (c : Nat) (b : Blocked) : (s.block c b).flasks = s.flasks := rfl
@[simp] theorem State.block_tiles (s : State) (c : Nat) (b : Blocked) : (s.block c b).tiles = s.tiles := rfl
@[simp] theorem State.block_pdWatch (s : State) (c : Nat) (b : Blocked) : (s.block c b).pdWatch = s.pdWatch := rfl
@[simp] theorem State.block_hbm (s : State) (c : Nat) (b : Blocked) : (s.block c b).hbm = s.hbm := rfl
@[simp] theorem State.block_ecrok (s : State) (c : Nat) (b : Blocked) : (s.block c b).ecrok = s.ecrok := rfl
@[simp] theorem State.block_coh (s : State) (c : Nat) (b : Blocked) : (s.block c b).coh = s.coh := rfl
@[simp] theorem State.block_coll (s : State) (c : Nat) (b : Blocked) : (s.block c b).coll = s.coll := rfl
@[simp] theorem State.block_store (s : State) (c : Nat) (b : Blocked) : (s.block c b).store = s.store := rfl
@[simp] theorem State.block_power (s : State) (c : Nat) (b : Blocked) : (s.block c b).power = s.power := rfl
@[simp] theorem State.block_ports (s : State) (c : Nat) (b : Blocked) : (s.block c b).ports = s.ports := rfl
@[simp] theorem State.block_ftime (s : State) (c : Nat) (b : Blocked) : (s.block c b).ftime = s.ftime := rfl
@[simp] theorem State.block_lsa (s : State) (c : Nat) (b : Blocked) : (s.block c b).lsa = s.lsa := rfl
@[simp] theorem State.block_repro (s : State) (c : Nat) (b : Blocked) : (s.block c b).repro = s.repro := rfl
@[simp] theorem State.block_relPending (s : State) (c : Nat) (b : Blocked) : (s.block c b).relPending = s.relPending := rfl
@[simp] theorem State.block_ckpts (s : State) (c : Nat) (b : Blocked) : (s.block c b).ckpts = s.ckpts := rfl
@[simp] theorem State.block_promos (s : State) (c : Nat) (b : Blocked) : (s.block c b).promos = s.promos := rfl
@[simp] theorem State.block_ckptHeld (s : State) (c : Nat) (b : Blocked) : (s.block c b).ckptHeld = s.ckptHeld := rfl
@[simp] theorem State.block_rings (s : State) (c : Nat) (b : Blocked) : (s.block c b).rings = s.rings := rfl
@[simp] theorem State.block_log (s : State) (c : Nat) (b : Blocked) : (s.block c b).log = s.log := rfl
@[simp] theorem State.block_nodeTrace (s : State) (c : Nat) (b : Blocked) : (s.block c b).nodeTrace = s.nodeTrace := rfl
@[simp] theorem State.block_err (s : State) (c : Nat) (b : Blocked) : (s.block c b).err = s.err := rfl
@[simp] theorem State.block_traceDrain (s : State) (c : Nat) (b : Blocked) : (s.block c b).traceDrain = s.traceDrain := rfl
@[simp] theorem State.block_urgentDue (s : State) (c : Nat) (b : Blocked) : (s.block c b).urgentDue = s.urgentDue := rfl
@[simp] theorem State.block_queues (s : State) (c : Nat) (b : Blocked) : (s.block c b).queues = s.queues := rfl
@[simp] theorem State.block_keys (s : State) (c : Nat) (b : Blocked) : (s.block c b).keys = s.keys := rfl
@[simp] theorem State.block_qps (s : State) (c : Nat) (b : Blocked) : (s.block c b).qps = s.qps := rfl
@[simp] theorem State.block_regions (s : State) (c : Nat) (b : Blocked) : (s.block c b).regions = s.regions := rfl
@[simp] theorem State.block_pauses (s : State) (c : Nat) (b : Blocked) : (s.block c b).pauses = s.pauses := rfl
@[simp] theorem State.block_pairs (s : State) (c : Nat) (b : Blocked) : (s.block c b).pairs = s.pairs := rfl
@[simp] theorem State.block_dike (s : State) (c : Nat) (b : Blocked) : (s.block c b).dike = s.dike := rfl
@[simp] theorem State.block_spdm (s : State) (c : Nat) (b : Blocked) : (s.block c b).spdm = s.spdm := rfl
@[simp] theorem State.block_boot (s : State) (c : Nat) (b : Blocked) : (s.block c b).boot = s.boot := rfl
@[simp] theorem State.block_flokan (s : State) (c : Nat) (b : Blocked) : (s.block c b).flokan = s.flokan := rfl
@[simp] theorem State.block_snaps (s : State) (c : Nat) (b : Blocked) : (s.block c b).snaps = s.snaps := rfl
@[simp] theorem State.block_snapPages (s : State) (c : Nat) (b : Blocked) : (s.block c b).snapPages = s.snapPages := rfl
@[simp] theorem State.block_side (s : State) (c : Nat) (b : Blocked) : (s.block c b).side = s.side := rfl
@[simp] theorem State.block_ctxs (s : State) (c : Nat) (b : Blocked) : (s.block c b).ctxs = s.ctxs := rfl
@[simp] theorem State.block_schedEvents (s : State) (c : Nat) (b : Blocked) : (s.block c b).schedEvents = s.schedEvents := rfl
@[simp] theorem State.block_out (s : State) (c : Nat) (b : Blocked) : (s.block c b).out = s.out := rfl
@[simp] theorem State.block_freeCount (s : State) (c : Nat) (b : Blocked) : (s.block c b).freeCount = s.freeCount := rfl
@[simp] theorem State.block_pending (s : State) (c : Nat) (b : Blocked) : (s.block c b).pending = s.pending := rfl

/-! `setCsr` -/
@[simp] theorem State.setCsr_regs (s : State) (c n v : Nat) : (s.setCsr c n v).regs = s.regs := rfl
@[simp] theorem State.setCsr_shadow (s : State) (c n v : Nat) : (s.setCsr c n v).shadow = s.shadow := rfl
@[simp] theorem State.setCsr_xregs (s : State) (c n v : Nat) : (s.setCsr c n v).xregs = s.xregs := rfl
@[simp] theorem State.setCsr_fregs (s : State) (c n v : Nat) : (s.setCsr c n v).fregs = s.fregs := rfl
@[simp] theorem State.setCsr_vregs (s : State) (c n v : Nat) : (s.setCsr c n v).vregs = s.vregs := rfl
@[simp] theorem State.setCsr_cores (s : State) (c n v : Nat) : (s.setCsr c n v).cores = s.cores := rfl
@[simp] theorem State.setCsr_tally (s : State) (c n v : Nat) : (s.setCsr c n v).tally = s.tally := rfl
@[simp] theorem State.setCsr_mem (s : State) (c n v : Nat) : (s.setCsr c n v).mem = s.mem := rfl
@[simp] theorem State.setCsr_poisonLine (s : State) (c n v : Nat) : (s.setCsr c n v).poisonLine = s.poisonLine := rfl
@[simp] theorem State.setCsr_poisonWord (s : State) (c n v : Nat) : (s.setCsr c n v).poisonWord = s.poisonWord := rfl
@[simp] theorem State.setCsr_counters (s : State) (c n v : Nat) : (s.setCsr c n v).counters = s.counters := rfl
@[simp] theorem State.setCsr_waits (s : State) (c n v : Nat) : (s.setCsr c n v).waits = s.waits := rfl
@[simp] theorem State.setCsr_arrived (s : State) (c n v : Nat) : (s.setCsr c n v).arrived = s.arrived := rfl
@[simp] theorem State.setCsr_flasks (s : State) (c n v : Nat) : (s.setCsr c n v).flasks = s.flasks := rfl
@[simp] theorem State.setCsr_tiles (s : State) (c n v : Nat) : (s.setCsr c n v).tiles = s.tiles := rfl
@[simp] theorem State.setCsr_pdWatch (s : State) (c n v : Nat) : (s.setCsr c n v).pdWatch = s.pdWatch := rfl
@[simp] theorem State.setCsr_hbm (s : State) (c n v : Nat) : (s.setCsr c n v).hbm = s.hbm := rfl
@[simp] theorem State.setCsr_ecrok (s : State) (c n v : Nat) : (s.setCsr c n v).ecrok = s.ecrok := rfl
@[simp] theorem State.setCsr_coh (s : State) (c n v : Nat) : (s.setCsr c n v).coh = s.coh := rfl
@[simp] theorem State.setCsr_coll (s : State) (c n v : Nat) : (s.setCsr c n v).coll = s.coll := rfl
@[simp] theorem State.setCsr_store (s : State) (c n v : Nat) : (s.setCsr c n v).store = s.store := rfl
@[simp] theorem State.setCsr_power (s : State) (c n v : Nat) : (s.setCsr c n v).power = s.power := rfl
@[simp] theorem State.setCsr_ports (s : State) (c n v : Nat) : (s.setCsr c n v).ports = s.ports := rfl
@[simp] theorem State.setCsr_ftime (s : State) (c n v : Nat) : (s.setCsr c n v).ftime = s.ftime := rfl
@[simp] theorem State.setCsr_lsa (s : State) (c n v : Nat) : (s.setCsr c n v).lsa = s.lsa := rfl
@[simp] theorem State.setCsr_repro (s : State) (c n v : Nat) : (s.setCsr c n v).repro = s.repro := rfl
@[simp] theorem State.setCsr_relPending (s : State) (c n v : Nat) : (s.setCsr c n v).relPending = s.relPending := rfl
@[simp] theorem State.setCsr_ckpts (s : State) (c n v : Nat) : (s.setCsr c n v).ckpts = s.ckpts := rfl
@[simp] theorem State.setCsr_promos (s : State) (c n v : Nat) : (s.setCsr c n v).promos = s.promos := rfl
@[simp] theorem State.setCsr_ckptHeld (s : State) (c n v : Nat) : (s.setCsr c n v).ckptHeld = s.ckptHeld := rfl
@[simp] theorem State.setCsr_rings (s : State) (c n v : Nat) : (s.setCsr c n v).rings = s.rings := rfl
@[simp] theorem State.setCsr_log (s : State) (c n v : Nat) : (s.setCsr c n v).log = s.log := rfl
@[simp] theorem State.setCsr_nodeTrace (s : State) (c n v : Nat) : (s.setCsr c n v).nodeTrace = s.nodeTrace := rfl
@[simp] theorem State.setCsr_err (s : State) (c n v : Nat) : (s.setCsr c n v).err = s.err := rfl
@[simp] theorem State.setCsr_traceDrain (s : State) (c n v : Nat) : (s.setCsr c n v).traceDrain = s.traceDrain := rfl
@[simp] theorem State.setCsr_urgentDue (s : State) (c n v : Nat) : (s.setCsr c n v).urgentDue = s.urgentDue := rfl
@[simp] theorem State.setCsr_queues (s : State) (c n v : Nat) : (s.setCsr c n v).queues = s.queues := rfl
@[simp] theorem State.setCsr_keys (s : State) (c n v : Nat) : (s.setCsr c n v).keys = s.keys := rfl
@[simp] theorem State.setCsr_qps (s : State) (c n v : Nat) : (s.setCsr c n v).qps = s.qps := rfl
@[simp] theorem State.setCsr_regions (s : State) (c n v : Nat) : (s.setCsr c n v).regions = s.regions := rfl
@[simp] theorem State.setCsr_pauses (s : State) (c n v : Nat) : (s.setCsr c n v).pauses = s.pauses := rfl
@[simp] theorem State.setCsr_pairs (s : State) (c n v : Nat) : (s.setCsr c n v).pairs = s.pairs := rfl
@[simp] theorem State.setCsr_dike (s : State) (c n v : Nat) : (s.setCsr c n v).dike = s.dike := rfl
@[simp] theorem State.setCsr_spdm (s : State) (c n v : Nat) : (s.setCsr c n v).spdm = s.spdm := rfl
@[simp] theorem State.setCsr_boot (s : State) (c n v : Nat) : (s.setCsr c n v).boot = s.boot := rfl
@[simp] theorem State.setCsr_flokan (s : State) (c n v : Nat) : (s.setCsr c n v).flokan = s.flokan := rfl
@[simp] theorem State.setCsr_snaps (s : State) (c n v : Nat) : (s.setCsr c n v).snaps = s.snaps := rfl
@[simp] theorem State.setCsr_snapPages (s : State) (c n v : Nat) : (s.setCsr c n v).snapPages = s.snapPages := rfl
@[simp] theorem State.setCsr_side (s : State) (c n v : Nat) : (s.setCsr c n v).side = s.side := rfl
@[simp] theorem State.setCsr_ctxs (s : State) (c n v : Nat) : (s.setCsr c n v).ctxs = s.ctxs := rfl
@[simp] theorem State.setCsr_schedEvents (s : State) (c n v : Nat) : (s.setCsr c n v).schedEvents = s.schedEvents := rfl
@[simp] theorem State.setCsr_out (s : State) (c n v : Nat) : (s.setCsr c n v).out = s.out := rfl
@[simp] theorem State.setCsr_freeCount (s : State) (c n v : Nat) : (s.setCsr c n v).freeCount = s.freeCount := rfl
@[simp] theorem State.setCsr_pending (s : State) (c n v : Nat) : (s.setCsr c n v).pending = s.pending := rfl

/-! `setCtx` -/
@[simp] theorem State.setCtx_regs (s : State) (c : Nat) (x : Ctx) : (s.setCtx c x).regs = s.regs := rfl
@[simp] theorem State.setCtx_shadow (s : State) (c : Nat) (x : Ctx) : (s.setCtx c x).shadow = s.shadow := rfl
@[simp] theorem State.setCtx_csrs (s : State) (c : Nat) (x : Ctx) : (s.setCtx c x).csrs = s.csrs := rfl
@[simp] theorem State.setCtx_xregs (s : State) (c : Nat) (x : Ctx) : (s.setCtx c x).xregs = s.xregs := rfl
@[simp] theorem State.setCtx_fregs (s : State) (c : Nat) (x : Ctx) : (s.setCtx c x).fregs = s.fregs := rfl
@[simp] theorem State.setCtx_vregs (s : State) (c : Nat) (x : Ctx) : (s.setCtx c x).vregs = s.vregs := rfl
@[simp] theorem State.setCtx_cores (s : State) (c : Nat) (x : Ctx) : (s.setCtx c x).cores = s.cores := rfl
@[simp] theorem State.setCtx_tally (s : State) (c : Nat) (x : Ctx) : (s.setCtx c x).tally = s.tally := rfl
@[simp] theorem State.setCtx_mem (s : State) (c : Nat) (x : Ctx) : (s.setCtx c x).mem = s.mem := rfl
@[simp] theorem State.setCtx_poisonLine (s : State) (c : Nat) (x : Ctx) : (s.setCtx c x).poisonLine = s.poisonLine := rfl
@[simp] theorem State.setCtx_poisonWord (s : State) (c : Nat) (x : Ctx) : (s.setCtx c x).poisonWord = s.poisonWord := rfl
@[simp] theorem State.setCtx_counters (s : State) (c : Nat) (x : Ctx) : (s.setCtx c x).counters = s.counters := rfl
@[simp] theorem State.setCtx_waits (s : State) (c : Nat) (x : Ctx) : (s.setCtx c x).waits = s.waits := rfl
@[simp] theorem State.setCtx_arrived (s : State) (c : Nat) (x : Ctx) : (s.setCtx c x).arrived = s.arrived := rfl
@[simp] theorem State.setCtx_flasks (s : State) (c : Nat) (x : Ctx) : (s.setCtx c x).flasks = s.flasks := rfl
@[simp] theorem State.setCtx_tiles (s : State) (c : Nat) (x : Ctx) : (s.setCtx c x).tiles = s.tiles := rfl
@[simp] theorem State.setCtx_pdWatch (s : State) (c : Nat) (x : Ctx) : (s.setCtx c x).pdWatch = s.pdWatch := rfl
@[simp] theorem State.setCtx_hbm (s : State) (c : Nat) (x : Ctx) : (s.setCtx c x).hbm = s.hbm := rfl
@[simp] theorem State.setCtx_ecrok (s : State) (c : Nat) (x : Ctx) : (s.setCtx c x).ecrok = s.ecrok := rfl
@[simp] theorem State.setCtx_coh (s : State) (c : Nat) (x : Ctx) : (s.setCtx c x).coh = s.coh := rfl
@[simp] theorem State.setCtx_coll (s : State) (c : Nat) (x : Ctx) : (s.setCtx c x).coll = s.coll := rfl
@[simp] theorem State.setCtx_store (s : State) (c : Nat) (x : Ctx) : (s.setCtx c x).store = s.store := rfl
@[simp] theorem State.setCtx_power (s : State) (c : Nat) (x : Ctx) : (s.setCtx c x).power = s.power := rfl
@[simp] theorem State.setCtx_ports (s : State) (c : Nat) (x : Ctx) : (s.setCtx c x).ports = s.ports := rfl
@[simp] theorem State.setCtx_ftime (s : State) (c : Nat) (x : Ctx) : (s.setCtx c x).ftime = s.ftime := rfl
@[simp] theorem State.setCtx_lsa (s : State) (c : Nat) (x : Ctx) : (s.setCtx c x).lsa = s.lsa := rfl
@[simp] theorem State.setCtx_repro (s : State) (c : Nat) (x : Ctx) : (s.setCtx c x).repro = s.repro := rfl
@[simp] theorem State.setCtx_relPending (s : State) (c : Nat) (x : Ctx) : (s.setCtx c x).relPending = s.relPending := rfl
@[simp] theorem State.setCtx_ckpts (s : State) (c : Nat) (x : Ctx) : (s.setCtx c x).ckpts = s.ckpts := rfl
@[simp] theorem State.setCtx_promos (s : State) (c : Nat) (x : Ctx) : (s.setCtx c x).promos = s.promos := rfl
@[simp] theorem State.setCtx_ckptHeld (s : State) (c : Nat) (x : Ctx) : (s.setCtx c x).ckptHeld = s.ckptHeld := rfl
@[simp] theorem State.setCtx_rings (s : State) (c : Nat) (x : Ctx) : (s.setCtx c x).rings = s.rings := rfl
@[simp] theorem State.setCtx_log (s : State) (c : Nat) (x : Ctx) : (s.setCtx c x).log = s.log := rfl
@[simp] theorem State.setCtx_nodeTrace (s : State) (c : Nat) (x : Ctx) : (s.setCtx c x).nodeTrace = s.nodeTrace := rfl
@[simp] theorem State.setCtx_err (s : State) (c : Nat) (x : Ctx) : (s.setCtx c x).err = s.err := rfl
@[simp] theorem State.setCtx_traceDrain (s : State) (c : Nat) (x : Ctx) : (s.setCtx c x).traceDrain = s.traceDrain := rfl
@[simp] theorem State.setCtx_urgentDue (s : State) (c : Nat) (x : Ctx) : (s.setCtx c x).urgentDue = s.urgentDue := rfl
@[simp] theorem State.setCtx_queues (s : State) (c : Nat) (x : Ctx) : (s.setCtx c x).queues = s.queues := rfl
@[simp] theorem State.setCtx_keys (s : State) (c : Nat) (x : Ctx) : (s.setCtx c x).keys = s.keys := rfl
@[simp] theorem State.setCtx_qps (s : State) (c : Nat) (x : Ctx) : (s.setCtx c x).qps = s.qps := rfl
@[simp] theorem State.setCtx_regions (s : State) (c : Nat) (x : Ctx) : (s.setCtx c x).regions = s.regions := rfl
@[simp] theorem State.setCtx_pauses (s : State) (c : Nat) (x : Ctx) : (s.setCtx c x).pauses = s.pauses := rfl
@[simp] theorem State.setCtx_pairs (s : State) (c : Nat) (x : Ctx) : (s.setCtx c x).pairs = s.pairs := rfl
@[simp] theorem State.setCtx_dike (s : State) (c : Nat) (x : Ctx) : (s.setCtx c x).dike = s.dike := rfl
@[simp] theorem State.setCtx_spdm (s : State) (c : Nat) (x : Ctx) : (s.setCtx c x).spdm = s.spdm := rfl
@[simp] theorem State.setCtx_boot (s : State) (c : Nat) (x : Ctx) : (s.setCtx c x).boot = s.boot := rfl
@[simp] theorem State.setCtx_flokan (s : State) (c : Nat) (x : Ctx) : (s.setCtx c x).flokan = s.flokan := rfl
@[simp] theorem State.setCtx_snaps (s : State) (c : Nat) (x : Ctx) : (s.setCtx c x).snaps = s.snaps := rfl
@[simp] theorem State.setCtx_snapPages (s : State) (c : Nat) (x : Ctx) : (s.setCtx c x).snapPages = s.snapPages := rfl
@[simp] theorem State.setCtx_side (s : State) (c : Nat) (x : Ctx) : (s.setCtx c x).side = s.side := rfl
@[simp] theorem State.setCtx_schedEvents (s : State) (c : Nat) (x : Ctx) : (s.setCtx c x).schedEvents = s.schedEvents := rfl
@[simp] theorem State.setCtx_out (s : State) (c : Nat) (x : Ctx) : (s.setCtx c x).out = s.out := rfl
@[simp] theorem State.setCtx_freeCount (s : State) (c : Nat) (x : Ctx) : (s.setCtx c x).freeCount = s.freeCount := rfl
@[simp] theorem State.setCtx_pending (s : State) (c : Nat) (x : Ctx) : (s.setCtx c x).pending = s.pending := rfl

/-! `putBytes` -/
@[simp] theorem State.putBytes_regs (s : State) (a : Nat) (bs : List Byte) : (s.putBytes a bs).regs = s.regs := rfl
@[simp] theorem State.putBytes_shadow (s : State) (a : Nat) (bs : List Byte) : (s.putBytes a bs).shadow = s.shadow := rfl
@[simp] theorem State.putBytes_csrs (s : State) (a : Nat) (bs : List Byte) : (s.putBytes a bs).csrs = s.csrs := rfl
@[simp] theorem State.putBytes_xregs (s : State) (a : Nat) (bs : List Byte) : (s.putBytes a bs).xregs = s.xregs := rfl
@[simp] theorem State.putBytes_fregs (s : State) (a : Nat) (bs : List Byte) : (s.putBytes a bs).fregs = s.fregs := rfl
@[simp] theorem State.putBytes_vregs (s : State) (a : Nat) (bs : List Byte) : (s.putBytes a bs).vregs = s.vregs := rfl
@[simp] theorem State.putBytes_cores (s : State) (a : Nat) (bs : List Byte) : (s.putBytes a bs).cores = s.cores := rfl
@[simp] theorem State.putBytes_tally (s : State) (a : Nat) (bs : List Byte) : (s.putBytes a bs).tally = s.tally := rfl
@[simp] theorem State.putBytes_poisonLine (s : State) (a : Nat) (bs : List Byte) : (s.putBytes a bs).poisonLine = s.poisonLine := rfl
@[simp] theorem State.putBytes_poisonWord (s : State) (a : Nat) (bs : List Byte) : (s.putBytes a bs).poisonWord = s.poisonWord := rfl
@[simp] theorem State.putBytes_counters (s : State) (a : Nat) (bs : List Byte) : (s.putBytes a bs).counters = s.counters := rfl
@[simp] theorem State.putBytes_waits (s : State) (a : Nat) (bs : List Byte) : (s.putBytes a bs).waits = s.waits := rfl
@[simp] theorem State.putBytes_arrived (s : State) (a : Nat) (bs : List Byte) : (s.putBytes a bs).arrived = s.arrived := rfl
@[simp] theorem State.putBytes_flasks (s : State) (a : Nat) (bs : List Byte) : (s.putBytes a bs).flasks = s.flasks := rfl
@[simp] theorem State.putBytes_tiles (s : State) (a : Nat) (bs : List Byte) : (s.putBytes a bs).tiles = s.tiles := rfl
@[simp] theorem State.putBytes_pdWatch (s : State) (a : Nat) (bs : List Byte) : (s.putBytes a bs).pdWatch = s.pdWatch := rfl
@[simp] theorem State.putBytes_hbm (s : State) (a : Nat) (bs : List Byte) : (s.putBytes a bs).hbm = s.hbm := rfl
@[simp] theorem State.putBytes_ecrok (s : State) (a : Nat) (bs : List Byte) : (s.putBytes a bs).ecrok = s.ecrok := rfl
@[simp] theorem State.putBytes_coh (s : State) (a : Nat) (bs : List Byte) : (s.putBytes a bs).coh = s.coh := rfl
@[simp] theorem State.putBytes_coll (s : State) (a : Nat) (bs : List Byte) : (s.putBytes a bs).coll = s.coll := rfl
@[simp] theorem State.putBytes_store (s : State) (a : Nat) (bs : List Byte) : (s.putBytes a bs).store = s.store := rfl
@[simp] theorem State.putBytes_power (s : State) (a : Nat) (bs : List Byte) : (s.putBytes a bs).power = s.power := rfl
@[simp] theorem State.putBytes_ports (s : State) (a : Nat) (bs : List Byte) : (s.putBytes a bs).ports = s.ports := rfl
@[simp] theorem State.putBytes_ftime (s : State) (a : Nat) (bs : List Byte) : (s.putBytes a bs).ftime = s.ftime := rfl
@[simp] theorem State.putBytes_lsa (s : State) (a : Nat) (bs : List Byte) : (s.putBytes a bs).lsa = s.lsa := rfl
@[simp] theorem State.putBytes_repro (s : State) (a : Nat) (bs : List Byte) : (s.putBytes a bs).repro = s.repro := rfl
@[simp] theorem State.putBytes_relPending (s : State) (a : Nat) (bs : List Byte) : (s.putBytes a bs).relPending = s.relPending := rfl
@[simp] theorem State.putBytes_ckpts (s : State) (a : Nat) (bs : List Byte) : (s.putBytes a bs).ckpts = s.ckpts := rfl
@[simp] theorem State.putBytes_promos (s : State) (a : Nat) (bs : List Byte) : (s.putBytes a bs).promos = s.promos := rfl
@[simp] theorem State.putBytes_ckptHeld (s : State) (a : Nat) (bs : List Byte) : (s.putBytes a bs).ckptHeld = s.ckptHeld := rfl
@[simp] theorem State.putBytes_rings (s : State) (a : Nat) (bs : List Byte) : (s.putBytes a bs).rings = s.rings := rfl
@[simp] theorem State.putBytes_log (s : State) (a : Nat) (bs : List Byte) : (s.putBytes a bs).log = s.log := rfl
@[simp] theorem State.putBytes_nodeTrace (s : State) (a : Nat) (bs : List Byte) : (s.putBytes a bs).nodeTrace = s.nodeTrace := rfl
@[simp] theorem State.putBytes_err (s : State) (a : Nat) (bs : List Byte) : (s.putBytes a bs).err = s.err := rfl
@[simp] theorem State.putBytes_traceDrain (s : State) (a : Nat) (bs : List Byte) : (s.putBytes a bs).traceDrain = s.traceDrain := rfl
@[simp] theorem State.putBytes_urgentDue (s : State) (a : Nat) (bs : List Byte) : (s.putBytes a bs).urgentDue = s.urgentDue := rfl
@[simp] theorem State.putBytes_queues (s : State) (a : Nat) (bs : List Byte) : (s.putBytes a bs).queues = s.queues := rfl
@[simp] theorem State.putBytes_keys (s : State) (a : Nat) (bs : List Byte) : (s.putBytes a bs).keys = s.keys := rfl
@[simp] theorem State.putBytes_qps (s : State) (a : Nat) (bs : List Byte) : (s.putBytes a bs).qps = s.qps := rfl
@[simp] theorem State.putBytes_regions (s : State) (a : Nat) (bs : List Byte) : (s.putBytes a bs).regions = s.regions := rfl
@[simp] theorem State.putBytes_pauses (s : State) (a : Nat) (bs : List Byte) : (s.putBytes a bs).pauses = s.pauses := rfl
@[simp] theorem State.putBytes_pairs (s : State) (a : Nat) (bs : List Byte) : (s.putBytes a bs).pairs = s.pairs := rfl
@[simp] theorem State.putBytes_dike (s : State) (a : Nat) (bs : List Byte) : (s.putBytes a bs).dike = s.dike := rfl
@[simp] theorem State.putBytes_spdm (s : State) (a : Nat) (bs : List Byte) : (s.putBytes a bs).spdm = s.spdm := rfl
@[simp] theorem State.putBytes_boot (s : State) (a : Nat) (bs : List Byte) : (s.putBytes a bs).boot = s.boot := rfl
@[simp] theorem State.putBytes_flokan (s : State) (a : Nat) (bs : List Byte) : (s.putBytes a bs).flokan = s.flokan := rfl
@[simp] theorem State.putBytes_snaps (s : State) (a : Nat) (bs : List Byte) : (s.putBytes a bs).snaps = s.snaps := rfl
@[simp] theorem State.putBytes_snapPages (s : State) (a : Nat) (bs : List Byte) : (s.putBytes a bs).snapPages = s.snapPages := rfl
@[simp] theorem State.putBytes_side (s : State) (a : Nat) (bs : List Byte) : (s.putBytes a bs).side = s.side := rfl
@[simp] theorem State.putBytes_ctxs (s : State) (a : Nat) (bs : List Byte) : (s.putBytes a bs).ctxs = s.ctxs := rfl
@[simp] theorem State.putBytes_schedEvents (s : State) (a : Nat) (bs : List Byte) : (s.putBytes a bs).schedEvents = s.schedEvents := rfl
@[simp] theorem State.putBytes_out (s : State) (a : Nat) (bs : List Byte) : (s.putBytes a bs).out = s.out := rfl
@[simp] theorem State.putBytes_freeCount (s : State) (a : Nat) (bs : List Byte) : (s.putBytes a bs).freeCount = s.freeCount := rfl
@[simp] theorem State.putBytes_pending (s : State) (a : Nat) (bs : List Byte) : (s.putBytes a bs).pending = s.pending := rfl

/-! `storeBytes` -/
@[simp] theorem State.storeBytes_regs (s : State) (a : Nat) (bs : List Byte) (p : Bool) : (s.storeBytes a bs p).regs = s.regs := rfl
@[simp] theorem State.storeBytes_shadow (s : State) (a : Nat) (bs : List Byte) (p : Bool) : (s.storeBytes a bs p).shadow = s.shadow := rfl
@[simp] theorem State.storeBytes_csrs (s : State) (a : Nat) (bs : List Byte) (p : Bool) : (s.storeBytes a bs p).csrs = s.csrs := rfl
@[simp] theorem State.storeBytes_xregs (s : State) (a : Nat) (bs : List Byte) (p : Bool) : (s.storeBytes a bs p).xregs = s.xregs := rfl
@[simp] theorem State.storeBytes_fregs (s : State) (a : Nat) (bs : List Byte) (p : Bool) : (s.storeBytes a bs p).fregs = s.fregs := rfl
@[simp] theorem State.storeBytes_vregs (s : State) (a : Nat) (bs : List Byte) (p : Bool) : (s.storeBytes a bs p).vregs = s.vregs := rfl
@[simp] theorem State.storeBytes_cores (s : State) (a : Nat) (bs : List Byte) (p : Bool) : (s.storeBytes a bs p).cores = s.cores := rfl
@[simp] theorem State.storeBytes_tally (s : State) (a : Nat) (bs : List Byte) (p : Bool) : (s.storeBytes a bs p).tally = s.tally := rfl
@[simp] theorem State.storeBytes_poisonLine (s : State) (a : Nat) (bs : List Byte) (p : Bool) : (s.storeBytes a bs p).poisonLine = s.poisonLine := rfl
@[simp] theorem State.storeBytes_counters (s : State) (a : Nat) (bs : List Byte) (p : Bool) : (s.storeBytes a bs p).counters = s.counters := rfl
@[simp] theorem State.storeBytes_waits (s : State) (a : Nat) (bs : List Byte) (p : Bool) : (s.storeBytes a bs p).waits = s.waits := rfl
@[simp] theorem State.storeBytes_arrived (s : State) (a : Nat) (bs : List Byte) (p : Bool) : (s.storeBytes a bs p).arrived = s.arrived := rfl
@[simp] theorem State.storeBytes_flasks (s : State) (a : Nat) (bs : List Byte) (p : Bool) : (s.storeBytes a bs p).flasks = s.flasks := rfl
@[simp] theorem State.storeBytes_tiles (s : State) (a : Nat) (bs : List Byte) (p : Bool) : (s.storeBytes a bs p).tiles = s.tiles := rfl
@[simp] theorem State.storeBytes_pdWatch (s : State) (a : Nat) (bs : List Byte) (p : Bool) : (s.storeBytes a bs p).pdWatch = s.pdWatch := rfl
@[simp] theorem State.storeBytes_hbm (s : State) (a : Nat) (bs : List Byte) (p : Bool) : (s.storeBytes a bs p).hbm = s.hbm := rfl
@[simp] theorem State.storeBytes_ecrok (s : State) (a : Nat) (bs : List Byte) (p : Bool) : (s.storeBytes a bs p).ecrok = s.ecrok := rfl
@[simp] theorem State.storeBytes_coh (s : State) (a : Nat) (bs : List Byte) (p : Bool) : (s.storeBytes a bs p).coh = s.coh := rfl
@[simp] theorem State.storeBytes_coll (s : State) (a : Nat) (bs : List Byte) (p : Bool) : (s.storeBytes a bs p).coll = s.coll := rfl
@[simp] theorem State.storeBytes_store (s : State) (a : Nat) (bs : List Byte) (p : Bool) : (s.storeBytes a bs p).store = s.store := rfl
@[simp] theorem State.storeBytes_power (s : State) (a : Nat) (bs : List Byte) (p : Bool) : (s.storeBytes a bs p).power = s.power := rfl
@[simp] theorem State.storeBytes_ports (s : State) (a : Nat) (bs : List Byte) (p : Bool) : (s.storeBytes a bs p).ports = s.ports := rfl
@[simp] theorem State.storeBytes_ftime (s : State) (a : Nat) (bs : List Byte) (p : Bool) : (s.storeBytes a bs p).ftime = s.ftime := rfl
@[simp] theorem State.storeBytes_lsa (s : State) (a : Nat) (bs : List Byte) (p : Bool) : (s.storeBytes a bs p).lsa = s.lsa := rfl
@[simp] theorem State.storeBytes_repro (s : State) (a : Nat) (bs : List Byte) (p : Bool) : (s.storeBytes a bs p).repro = s.repro := rfl
@[simp] theorem State.storeBytes_relPending (s : State) (a : Nat) (bs : List Byte) (p : Bool) : (s.storeBytes a bs p).relPending = s.relPending := rfl
@[simp] theorem State.storeBytes_ckpts (s : State) (a : Nat) (bs : List Byte) (p : Bool) : (s.storeBytes a bs p).ckpts = s.ckpts := rfl
@[simp] theorem State.storeBytes_promos (s : State) (a : Nat) (bs : List Byte) (p : Bool) : (s.storeBytes a bs p).promos = s.promos := rfl
@[simp] theorem State.storeBytes_ckptHeld (s : State) (a : Nat) (bs : List Byte) (p : Bool) : (s.storeBytes a bs p).ckptHeld = s.ckptHeld := rfl
@[simp] theorem State.storeBytes_rings (s : State) (a : Nat) (bs : List Byte) (p : Bool) : (s.storeBytes a bs p).rings = s.rings := rfl
@[simp] theorem State.storeBytes_log (s : State) (a : Nat) (bs : List Byte) (p : Bool) : (s.storeBytes a bs p).log = s.log := rfl
@[simp] theorem State.storeBytes_nodeTrace (s : State) (a : Nat) (bs : List Byte) (p : Bool) : (s.storeBytes a bs p).nodeTrace = s.nodeTrace := rfl
@[simp] theorem State.storeBytes_err (s : State) (a : Nat) (bs : List Byte) (p : Bool) : (s.storeBytes a bs p).err = s.err := rfl
@[simp] theorem State.storeBytes_traceDrain (s : State) (a : Nat) (bs : List Byte) (p : Bool) : (s.storeBytes a bs p).traceDrain = s.traceDrain := rfl
@[simp] theorem State.storeBytes_urgentDue (s : State) (a : Nat) (bs : List Byte) (p : Bool) : (s.storeBytes a bs p).urgentDue = s.urgentDue := rfl
@[simp] theorem State.storeBytes_queues (s : State) (a : Nat) (bs : List Byte) (p : Bool) : (s.storeBytes a bs p).queues = s.queues := rfl
@[simp] theorem State.storeBytes_keys (s : State) (a : Nat) (bs : List Byte) (p : Bool) : (s.storeBytes a bs p).keys = s.keys := rfl
@[simp] theorem State.storeBytes_qps (s : State) (a : Nat) (bs : List Byte) (p : Bool) : (s.storeBytes a bs p).qps = s.qps := rfl
@[simp] theorem State.storeBytes_regions (s : State) (a : Nat) (bs : List Byte) (p : Bool) : (s.storeBytes a bs p).regions = s.regions := rfl
@[simp] theorem State.storeBytes_pauses (s : State) (a : Nat) (bs : List Byte) (p : Bool) : (s.storeBytes a bs p).pauses = s.pauses := rfl
@[simp] theorem State.storeBytes_pairs (s : State) (a : Nat) (bs : List Byte) (p : Bool) : (s.storeBytes a bs p).pairs = s.pairs := rfl
@[simp] theorem State.storeBytes_dike (s : State) (a : Nat) (bs : List Byte) (p : Bool) : (s.storeBytes a bs p).dike = s.dike := rfl
@[simp] theorem State.storeBytes_spdm (s : State) (a : Nat) (bs : List Byte) (p : Bool) : (s.storeBytes a bs p).spdm = s.spdm := rfl
@[simp] theorem State.storeBytes_boot (s : State) (a : Nat) (bs : List Byte) (p : Bool) : (s.storeBytes a bs p).boot = s.boot := rfl
@[simp] theorem State.storeBytes_flokan (s : State) (a : Nat) (bs : List Byte) (p : Bool) : (s.storeBytes a bs p).flokan = s.flokan := rfl
@[simp] theorem State.storeBytes_snaps (s : State) (a : Nat) (bs : List Byte) (p : Bool) : (s.storeBytes a bs p).snaps = s.snaps := rfl
@[simp] theorem State.storeBytes_snapPages (s : State) (a : Nat) (bs : List Byte) (p : Bool) : (s.storeBytes a bs p).snapPages = s.snapPages := rfl
@[simp] theorem State.storeBytes_side (s : State) (a : Nat) (bs : List Byte) (p : Bool) : (s.storeBytes a bs p).side = s.side := rfl
@[simp] theorem State.storeBytes_ctxs (s : State) (a : Nat) (bs : List Byte) (p : Bool) : (s.storeBytes a bs p).ctxs = s.ctxs := rfl
@[simp] theorem State.storeBytes_schedEvents (s : State) (a : Nat) (bs : List Byte) (p : Bool) : (s.storeBytes a bs p).schedEvents = s.schedEvents := rfl
@[simp] theorem State.storeBytes_out (s : State) (a : Nat) (bs : List Byte) (p : Bool) : (s.storeBytes a bs p).out = s.out := rfl
@[simp] theorem State.storeBytes_freeCount (s : State) (a : Nat) (bs : List Byte) (p : Bool) : (s.storeBytes a bs p).freeCount = s.freeCount := rfl
@[simp] theorem State.storeBytes_pending (s : State) (a : Nat) (bs : List Byte) (p : Bool) : (s.storeBytes a bs p).pending = s.pending := rfl

/-! `hbmBytes` -/
@[simp] theorem State.hbmBytes_regs (s : State) (a : Nat) (bs : List Byte) (p : Bool) : (s.hbmBytes a bs p).regs = s.regs := rfl
@[simp] theorem State.hbmBytes_shadow (s : State) (a : Nat) (bs : List Byte) (p : Bool) : (s.hbmBytes a bs p).shadow = s.shadow := rfl
@[simp] theorem State.hbmBytes_csrs (s : State) (a : Nat) (bs : List Byte) (p : Bool) : (s.hbmBytes a bs p).csrs = s.csrs := rfl
@[simp] theorem State.hbmBytes_xregs (s : State) (a : Nat) (bs : List Byte) (p : Bool) : (s.hbmBytes a bs p).xregs = s.xregs := rfl
@[simp] theorem State.hbmBytes_fregs (s : State) (a : Nat) (bs : List Byte) (p : Bool) : (s.hbmBytes a bs p).fregs = s.fregs := rfl
@[simp] theorem State.hbmBytes_vregs (s : State) (a : Nat) (bs : List Byte) (p : Bool) : (s.hbmBytes a bs p).vregs = s.vregs := rfl
@[simp] theorem State.hbmBytes_cores (s : State) (a : Nat) (bs : List Byte) (p : Bool) : (s.hbmBytes a bs p).cores = s.cores := rfl
@[simp] theorem State.hbmBytes_tally (s : State) (a : Nat) (bs : List Byte) (p : Bool) : (s.hbmBytes a bs p).tally = s.tally := rfl
@[simp] theorem State.hbmBytes_poisonWord (s : State) (a : Nat) (bs : List Byte) (p : Bool) : (s.hbmBytes a bs p).poisonWord = s.poisonWord := rfl
@[simp] theorem State.hbmBytes_counters (s : State) (a : Nat) (bs : List Byte) (p : Bool) : (s.hbmBytes a bs p).counters = s.counters := rfl
@[simp] theorem State.hbmBytes_waits (s : State) (a : Nat) (bs : List Byte) (p : Bool) : (s.hbmBytes a bs p).waits = s.waits := rfl
@[simp] theorem State.hbmBytes_arrived (s : State) (a : Nat) (bs : List Byte) (p : Bool) : (s.hbmBytes a bs p).arrived = s.arrived := rfl
@[simp] theorem State.hbmBytes_flasks (s : State) (a : Nat) (bs : List Byte) (p : Bool) : (s.hbmBytes a bs p).flasks = s.flasks := rfl
@[simp] theorem State.hbmBytes_tiles (s : State) (a : Nat) (bs : List Byte) (p : Bool) : (s.hbmBytes a bs p).tiles = s.tiles := rfl
@[simp] theorem State.hbmBytes_pdWatch (s : State) (a : Nat) (bs : List Byte) (p : Bool) : (s.hbmBytes a bs p).pdWatch = s.pdWatch := rfl
@[simp] theorem State.hbmBytes_hbm (s : State) (a : Nat) (bs : List Byte) (p : Bool) : (s.hbmBytes a bs p).hbm = s.hbm := rfl
@[simp] theorem State.hbmBytes_ecrok (s : State) (a : Nat) (bs : List Byte) (p : Bool) : (s.hbmBytes a bs p).ecrok = s.ecrok := rfl
@[simp] theorem State.hbmBytes_coh (s : State) (a : Nat) (bs : List Byte) (p : Bool) : (s.hbmBytes a bs p).coh = s.coh := rfl
@[simp] theorem State.hbmBytes_coll (s : State) (a : Nat) (bs : List Byte) (p : Bool) : (s.hbmBytes a bs p).coll = s.coll := rfl
@[simp] theorem State.hbmBytes_store (s : State) (a : Nat) (bs : List Byte) (p : Bool) : (s.hbmBytes a bs p).store = s.store := rfl
@[simp] theorem State.hbmBytes_power (s : State) (a : Nat) (bs : List Byte) (p : Bool) : (s.hbmBytes a bs p).power = s.power := rfl
@[simp] theorem State.hbmBytes_ports (s : State) (a : Nat) (bs : List Byte) (p : Bool) : (s.hbmBytes a bs p).ports = s.ports := rfl
@[simp] theorem State.hbmBytes_ftime (s : State) (a : Nat) (bs : List Byte) (p : Bool) : (s.hbmBytes a bs p).ftime = s.ftime := rfl
@[simp] theorem State.hbmBytes_lsa (s : State) (a : Nat) (bs : List Byte) (p : Bool) : (s.hbmBytes a bs p).lsa = s.lsa := rfl
@[simp] theorem State.hbmBytes_repro (s : State) (a : Nat) (bs : List Byte) (p : Bool) : (s.hbmBytes a bs p).repro = s.repro := rfl
@[simp] theorem State.hbmBytes_relPending (s : State) (a : Nat) (bs : List Byte) (p : Bool) : (s.hbmBytes a bs p).relPending = s.relPending := rfl
@[simp] theorem State.hbmBytes_ckpts (s : State) (a : Nat) (bs : List Byte) (p : Bool) : (s.hbmBytes a bs p).ckpts = s.ckpts := rfl
@[simp] theorem State.hbmBytes_promos (s : State) (a : Nat) (bs : List Byte) (p : Bool) : (s.hbmBytes a bs p).promos = s.promos := rfl
@[simp] theorem State.hbmBytes_ckptHeld (s : State) (a : Nat) (bs : List Byte) (p : Bool) : (s.hbmBytes a bs p).ckptHeld = s.ckptHeld := rfl
@[simp] theorem State.hbmBytes_rings (s : State) (a : Nat) (bs : List Byte) (p : Bool) : (s.hbmBytes a bs p).rings = s.rings := rfl
@[simp] theorem State.hbmBytes_log (s : State) (a : Nat) (bs : List Byte) (p : Bool) : (s.hbmBytes a bs p).log = s.log := rfl
@[simp] theorem State.hbmBytes_nodeTrace (s : State) (a : Nat) (bs : List Byte) (p : Bool) : (s.hbmBytes a bs p).nodeTrace = s.nodeTrace := rfl
@[simp] theorem State.hbmBytes_err (s : State) (a : Nat) (bs : List Byte) (p : Bool) : (s.hbmBytes a bs p).err = s.err := rfl
@[simp] theorem State.hbmBytes_traceDrain (s : State) (a : Nat) (bs : List Byte) (p : Bool) : (s.hbmBytes a bs p).traceDrain = s.traceDrain := rfl
@[simp] theorem State.hbmBytes_urgentDue (s : State) (a : Nat) (bs : List Byte) (p : Bool) : (s.hbmBytes a bs p).urgentDue = s.urgentDue := rfl
@[simp] theorem State.hbmBytes_queues (s : State) (a : Nat) (bs : List Byte) (p : Bool) : (s.hbmBytes a bs p).queues = s.queues := rfl
@[simp] theorem State.hbmBytes_keys (s : State) (a : Nat) (bs : List Byte) (p : Bool) : (s.hbmBytes a bs p).keys = s.keys := rfl
@[simp] theorem State.hbmBytes_qps (s : State) (a : Nat) (bs : List Byte) (p : Bool) : (s.hbmBytes a bs p).qps = s.qps := rfl
@[simp] theorem State.hbmBytes_regions (s : State) (a : Nat) (bs : List Byte) (p : Bool) : (s.hbmBytes a bs p).regions = s.regions := rfl
@[simp] theorem State.hbmBytes_pauses (s : State) (a : Nat) (bs : List Byte) (p : Bool) : (s.hbmBytes a bs p).pauses = s.pauses := rfl
@[simp] theorem State.hbmBytes_pairs (s : State) (a : Nat) (bs : List Byte) (p : Bool) : (s.hbmBytes a bs p).pairs = s.pairs := rfl
@[simp] theorem State.hbmBytes_dike (s : State) (a : Nat) (bs : List Byte) (p : Bool) : (s.hbmBytes a bs p).dike = s.dike := rfl
@[simp] theorem State.hbmBytes_spdm (s : State) (a : Nat) (bs : List Byte) (p : Bool) : (s.hbmBytes a bs p).spdm = s.spdm := rfl
@[simp] theorem State.hbmBytes_boot (s : State) (a : Nat) (bs : List Byte) (p : Bool) : (s.hbmBytes a bs p).boot = s.boot := rfl
@[simp] theorem State.hbmBytes_flokan (s : State) (a : Nat) (bs : List Byte) (p : Bool) : (s.hbmBytes a bs p).flokan = s.flokan := rfl
@[simp] theorem State.hbmBytes_snaps (s : State) (a : Nat) (bs : List Byte) (p : Bool) : (s.hbmBytes a bs p).snaps = s.snaps := rfl
@[simp] theorem State.hbmBytes_snapPages (s : State) (a : Nat) (bs : List Byte) (p : Bool) : (s.hbmBytes a bs p).snapPages = s.snapPages := rfl
@[simp] theorem State.hbmBytes_side (s : State) (a : Nat) (bs : List Byte) (p : Bool) : (s.hbmBytes a bs p).side = s.side := rfl
@[simp] theorem State.hbmBytes_ctxs (s : State) (a : Nat) (bs : List Byte) (p : Bool) : (s.hbmBytes a bs p).ctxs = s.ctxs := rfl
@[simp] theorem State.hbmBytes_schedEvents (s : State) (a : Nat) (bs : List Byte) (p : Bool) : (s.hbmBytes a bs p).schedEvents = s.schedEvents := rfl
@[simp] theorem State.hbmBytes_out (s : State) (a : Nat) (bs : List Byte) (p : Bool) : (s.hbmBytes a bs p).out = s.out := rfl
@[simp] theorem State.hbmBytes_freeCount (s : State) (a : Nat) (bs : List Byte) (p : Bool) : (s.hbmBytes a bs p).freeCount = s.freeCount := rfl
@[simp] theorem State.hbmBytes_pending (s : State) (a : Nat) (bs : List Byte) (p : Bool) : (s.hbmBytes a bs p).pending = s.pending := rfl

/-! `zeroRange` -/
@[simp] theorem State.zeroRange_regs (s : State) (lo hi : Nat) : (s.zeroRange lo hi).regs = s.regs := rfl
@[simp] theorem State.zeroRange_shadow (s : State) (lo hi : Nat) : (s.zeroRange lo hi).shadow = s.shadow := rfl
@[simp] theorem State.zeroRange_csrs (s : State) (lo hi : Nat) : (s.zeroRange lo hi).csrs = s.csrs := rfl
@[simp] theorem State.zeroRange_xregs (s : State) (lo hi : Nat) : (s.zeroRange lo hi).xregs = s.xregs := rfl
@[simp] theorem State.zeroRange_fregs (s : State) (lo hi : Nat) : (s.zeroRange lo hi).fregs = s.fregs := rfl
@[simp] theorem State.zeroRange_vregs (s : State) (lo hi : Nat) : (s.zeroRange lo hi).vregs = s.vregs := rfl
@[simp] theorem State.zeroRange_cores (s : State) (lo hi : Nat) : (s.zeroRange lo hi).cores = s.cores := rfl
@[simp] theorem State.zeroRange_tally (s : State) (lo hi : Nat) : (s.zeroRange lo hi).tally = s.tally := rfl
@[simp] theorem State.zeroRange_counters (s : State) (lo hi : Nat) : (s.zeroRange lo hi).counters = s.counters := rfl
@[simp] theorem State.zeroRange_waits (s : State) (lo hi : Nat) : (s.zeroRange lo hi).waits = s.waits := rfl
@[simp] theorem State.zeroRange_arrived (s : State) (lo hi : Nat) : (s.zeroRange lo hi).arrived = s.arrived := rfl
@[simp] theorem State.zeroRange_flasks (s : State) (lo hi : Nat) : (s.zeroRange lo hi).flasks = s.flasks := rfl
@[simp] theorem State.zeroRange_tiles (s : State) (lo hi : Nat) : (s.zeroRange lo hi).tiles = s.tiles := rfl
@[simp] theorem State.zeroRange_pdWatch (s : State) (lo hi : Nat) : (s.zeroRange lo hi).pdWatch = s.pdWatch := rfl
@[simp] theorem State.zeroRange_hbm (s : State) (lo hi : Nat) : (s.zeroRange lo hi).hbm = s.hbm := rfl
@[simp] theorem State.zeroRange_ecrok (s : State) (lo hi : Nat) : (s.zeroRange lo hi).ecrok = s.ecrok := rfl
@[simp] theorem State.zeroRange_coh (s : State) (lo hi : Nat) : (s.zeroRange lo hi).coh = s.coh := rfl
@[simp] theorem State.zeroRange_coll (s : State) (lo hi : Nat) : (s.zeroRange lo hi).coll = s.coll := rfl
@[simp] theorem State.zeroRange_store (s : State) (lo hi : Nat) : (s.zeroRange lo hi).store = s.store := rfl
@[simp] theorem State.zeroRange_power (s : State) (lo hi : Nat) : (s.zeroRange lo hi).power = s.power := rfl
@[simp] theorem State.zeroRange_ports (s : State) (lo hi : Nat) : (s.zeroRange lo hi).ports = s.ports := rfl
@[simp] theorem State.zeroRange_ftime (s : State) (lo hi : Nat) : (s.zeroRange lo hi).ftime = s.ftime := rfl
@[simp] theorem State.zeroRange_lsa (s : State) (lo hi : Nat) : (s.zeroRange lo hi).lsa = s.lsa := rfl
@[simp] theorem State.zeroRange_repro (s : State) (lo hi : Nat) : (s.zeroRange lo hi).repro = s.repro := rfl
@[simp] theorem State.zeroRange_relPending (s : State) (lo hi : Nat) : (s.zeroRange lo hi).relPending = s.relPending := rfl
@[simp] theorem State.zeroRange_ckpts (s : State) (lo hi : Nat) : (s.zeroRange lo hi).ckpts = s.ckpts := rfl
@[simp] theorem State.zeroRange_promos (s : State) (lo hi : Nat) : (s.zeroRange lo hi).promos = s.promos := rfl
@[simp] theorem State.zeroRange_ckptHeld (s : State) (lo hi : Nat) : (s.zeroRange lo hi).ckptHeld = s.ckptHeld := rfl
@[simp] theorem State.zeroRange_rings (s : State) (lo hi : Nat) : (s.zeroRange lo hi).rings = s.rings := rfl
@[simp] theorem State.zeroRange_log (s : State) (lo hi : Nat) : (s.zeroRange lo hi).log = s.log := rfl
@[simp] theorem State.zeroRange_nodeTrace (s : State) (lo hi : Nat) : (s.zeroRange lo hi).nodeTrace = s.nodeTrace := rfl
@[simp] theorem State.zeroRange_err (s : State) (lo hi : Nat) : (s.zeroRange lo hi).err = s.err := rfl
@[simp] theorem State.zeroRange_traceDrain (s : State) (lo hi : Nat) : (s.zeroRange lo hi).traceDrain = s.traceDrain := rfl
@[simp] theorem State.zeroRange_urgentDue (s : State) (lo hi : Nat) : (s.zeroRange lo hi).urgentDue = s.urgentDue := rfl
@[simp] theorem State.zeroRange_queues (s : State) (lo hi : Nat) : (s.zeroRange lo hi).queues = s.queues := rfl
@[simp] theorem State.zeroRange_keys (s : State) (lo hi : Nat) : (s.zeroRange lo hi).keys = s.keys := rfl
@[simp] theorem State.zeroRange_qps (s : State) (lo hi : Nat) : (s.zeroRange lo hi).qps = s.qps := rfl
@[simp] theorem State.zeroRange_regions (s : State) (lo hi : Nat) : (s.zeroRange lo hi).regions = s.regions := rfl
@[simp] theorem State.zeroRange_pauses (s : State) (lo hi : Nat) : (s.zeroRange lo hi).pauses = s.pauses := rfl
@[simp] theorem State.zeroRange_pairs (s : State) (lo hi : Nat) : (s.zeroRange lo hi).pairs = s.pairs := rfl
@[simp] theorem State.zeroRange_dike (s : State) (lo hi : Nat) : (s.zeroRange lo hi).dike = s.dike := rfl
@[simp] theorem State.zeroRange_spdm (s : State) (lo hi : Nat) : (s.zeroRange lo hi).spdm = s.spdm := rfl
@[simp] theorem State.zeroRange_boot (s : State) (lo hi : Nat) : (s.zeroRange lo hi).boot = s.boot := rfl
@[simp] theorem State.zeroRange_flokan (s : State) (lo hi : Nat) : (s.zeroRange lo hi).flokan = s.flokan := rfl
@[simp] theorem State.zeroRange_snaps (s : State) (lo hi : Nat) : (s.zeroRange lo hi).snaps = s.snaps := rfl
@[simp] theorem State.zeroRange_snapPages (s : State) (lo hi : Nat) : (s.zeroRange lo hi).snapPages = s.snapPages := rfl
@[simp] theorem State.zeroRange_side (s : State) (lo hi : Nat) : (s.zeroRange lo hi).side = s.side := rfl
@[simp] theorem State.zeroRange_ctxs (s : State) (lo hi : Nat) : (s.zeroRange lo hi).ctxs = s.ctxs := rfl
@[simp] theorem State.zeroRange_schedEvents (s : State) (lo hi : Nat) : (s.zeroRange lo hi).schedEvents = s.schedEvents := rfl
@[simp] theorem State.zeroRange_out (s : State) (lo hi : Nat) : (s.zeroRange lo hi).out = s.out := rfl
@[simp] theorem State.zeroRange_freeCount (s : State) (lo hi : Nat) : (s.zeroRange lo hi).freeCount = s.freeCount := rfl
@[simp] theorem State.zeroRange_pending (s : State) (lo hi : Nat) : (s.zeroRange lo hi).pending = s.pending := rfl

/-! `emit` -/
@[simp] theorem State.emit_regs (s : State) (o : Output) : (s.emit o).regs = s.regs := rfl
@[simp] theorem State.emit_shadow (s : State) (o : Output) : (s.emit o).shadow = s.shadow := rfl
@[simp] theorem State.emit_csrs (s : State) (o : Output) : (s.emit o).csrs = s.csrs := rfl
@[simp] theorem State.emit_xregs (s : State) (o : Output) : (s.emit o).xregs = s.xregs := rfl
@[simp] theorem State.emit_fregs (s : State) (o : Output) : (s.emit o).fregs = s.fregs := rfl
@[simp] theorem State.emit_vregs (s : State) (o : Output) : (s.emit o).vregs = s.vregs := rfl
@[simp] theorem State.emit_cores (s : State) (o : Output) : (s.emit o).cores = s.cores := rfl
@[simp] theorem State.emit_tally (s : State) (o : Output) : (s.emit o).tally = s.tally := rfl
@[simp] theorem State.emit_mem (s : State) (o : Output) : (s.emit o).mem = s.mem := rfl
@[simp] theorem State.emit_poisonLine (s : State) (o : Output) : (s.emit o).poisonLine = s.poisonLine := rfl
@[simp] theorem State.emit_poisonWord (s : State) (o : Output) : (s.emit o).poisonWord = s.poisonWord := rfl
@[simp] theorem State.emit_counters (s : State) (o : Output) : (s.emit o).counters = s.counters := rfl
@[simp] theorem State.emit_waits (s : State) (o : Output) : (s.emit o).waits = s.waits := rfl
@[simp] theorem State.emit_arrived (s : State) (o : Output) : (s.emit o).arrived = s.arrived := rfl
@[simp] theorem State.emit_flasks (s : State) (o : Output) : (s.emit o).flasks = s.flasks := rfl
@[simp] theorem State.emit_tiles (s : State) (o : Output) : (s.emit o).tiles = s.tiles := rfl
@[simp] theorem State.emit_pdWatch (s : State) (o : Output) : (s.emit o).pdWatch = s.pdWatch := rfl
@[simp] theorem State.emit_hbm (s : State) (o : Output) : (s.emit o).hbm = s.hbm := rfl
@[simp] theorem State.emit_ecrok (s : State) (o : Output) : (s.emit o).ecrok = s.ecrok := rfl
@[simp] theorem State.emit_coh (s : State) (o : Output) : (s.emit o).coh = s.coh := rfl
@[simp] theorem State.emit_coll (s : State) (o : Output) : (s.emit o).coll = s.coll := rfl
@[simp] theorem State.emit_store (s : State) (o : Output) : (s.emit o).store = s.store := rfl
@[simp] theorem State.emit_power (s : State) (o : Output) : (s.emit o).power = s.power := rfl
@[simp] theorem State.emit_ports (s : State) (o : Output) : (s.emit o).ports = s.ports := rfl
@[simp] theorem State.emit_ftime (s : State) (o : Output) : (s.emit o).ftime = s.ftime := rfl
@[simp] theorem State.emit_lsa (s : State) (o : Output) : (s.emit o).lsa = s.lsa := rfl
@[simp] theorem State.emit_repro (s : State) (o : Output) : (s.emit o).repro = s.repro := rfl
@[simp] theorem State.emit_relPending (s : State) (o : Output) : (s.emit o).relPending = s.relPending := rfl
@[simp] theorem State.emit_ckpts (s : State) (o : Output) : (s.emit o).ckpts = s.ckpts := rfl
@[simp] theorem State.emit_promos (s : State) (o : Output) : (s.emit o).promos = s.promos := rfl
@[simp] theorem State.emit_ckptHeld (s : State) (o : Output) : (s.emit o).ckptHeld = s.ckptHeld := rfl
@[simp] theorem State.emit_rings (s : State) (o : Output) : (s.emit o).rings = s.rings := rfl
@[simp] theorem State.emit_log (s : State) (o : Output) : (s.emit o).log = s.log := rfl
@[simp] theorem State.emit_nodeTrace (s : State) (o : Output) : (s.emit o).nodeTrace = s.nodeTrace := rfl
@[simp] theorem State.emit_err (s : State) (o : Output) : (s.emit o).err = s.err := rfl
@[simp] theorem State.emit_traceDrain (s : State) (o : Output) : (s.emit o).traceDrain = s.traceDrain := rfl
@[simp] theorem State.emit_urgentDue (s : State) (o : Output) : (s.emit o).urgentDue = s.urgentDue := rfl
@[simp] theorem State.emit_queues (s : State) (o : Output) : (s.emit o).queues = s.queues := rfl
@[simp] theorem State.emit_keys (s : State) (o : Output) : (s.emit o).keys = s.keys := rfl
@[simp] theorem State.emit_qps (s : State) (o : Output) : (s.emit o).qps = s.qps := rfl
@[simp] theorem State.emit_regions (s : State) (o : Output) : (s.emit o).regions = s.regions := rfl
@[simp] theorem State.emit_pauses (s : State) (o : Output) : (s.emit o).pauses = s.pauses := rfl
@[simp] theorem State.emit_pairs (s : State) (o : Output) : (s.emit o).pairs = s.pairs := rfl
@[simp] theorem State.emit_dike (s : State) (o : Output) : (s.emit o).dike = s.dike := rfl
@[simp] theorem State.emit_spdm (s : State) (o : Output) : (s.emit o).spdm = s.spdm := rfl
@[simp] theorem State.emit_boot (s : State) (o : Output) : (s.emit o).boot = s.boot := rfl
@[simp] theorem State.emit_flokan (s : State) (o : Output) : (s.emit o).flokan = s.flokan := rfl
@[simp] theorem State.emit_snaps (s : State) (o : Output) : (s.emit o).snaps = s.snaps := rfl
@[simp] theorem State.emit_snapPages (s : State) (o : Output) : (s.emit o).snapPages = s.snapPages := rfl
@[simp] theorem State.emit_side (s : State) (o : Output) : (s.emit o).side = s.side := rfl
@[simp] theorem State.emit_ctxs (s : State) (o : Output) : (s.emit o).ctxs = s.ctxs := rfl
@[simp] theorem State.emit_schedEvents (s : State) (o : Output) : (s.emit o).schedEvents = s.schedEvents := rfl
@[simp] theorem State.emit_freeCount (s : State) (o : Output) : (s.emit o).freeCount = s.freeCount := rfl
@[simp] theorem State.emit_pending (s : State) (o : Output) : (s.emit o).pending = s.pending := rfl

/-! `emitAll` -/
@[simp] theorem State.emitAll_regs (s : State) (os : List Output) : (s.emitAll os).regs = s.regs := rfl
@[simp] theorem State.emitAll_shadow (s : State) (os : List Output) : (s.emitAll os).shadow = s.shadow := rfl
@[simp] theorem State.emitAll_csrs (s : State) (os : List Output) : (s.emitAll os).csrs = s.csrs := rfl
@[simp] theorem State.emitAll_xregs (s : State) (os : List Output) : (s.emitAll os).xregs = s.xregs := rfl
@[simp] theorem State.emitAll_fregs (s : State) (os : List Output) : (s.emitAll os).fregs = s.fregs := rfl
@[simp] theorem State.emitAll_vregs (s : State) (os : List Output) : (s.emitAll os).vregs = s.vregs := rfl
@[simp] theorem State.emitAll_cores (s : State) (os : List Output) : (s.emitAll os).cores = s.cores := rfl
@[simp] theorem State.emitAll_tally (s : State) (os : List Output) : (s.emitAll os).tally = s.tally := rfl
@[simp] theorem State.emitAll_mem (s : State) (os : List Output) : (s.emitAll os).mem = s.mem := rfl
@[simp] theorem State.emitAll_poisonLine (s : State) (os : List Output) : (s.emitAll os).poisonLine = s.poisonLine := rfl
@[simp] theorem State.emitAll_poisonWord (s : State) (os : List Output) : (s.emitAll os).poisonWord = s.poisonWord := rfl
@[simp] theorem State.emitAll_counters (s : State) (os : List Output) : (s.emitAll os).counters = s.counters := rfl
@[simp] theorem State.emitAll_waits (s : State) (os : List Output) : (s.emitAll os).waits = s.waits := rfl
@[simp] theorem State.emitAll_arrived (s : State) (os : List Output) : (s.emitAll os).arrived = s.arrived := rfl
@[simp] theorem State.emitAll_flasks (s : State) (os : List Output) : (s.emitAll os).flasks = s.flasks := rfl
@[simp] theorem State.emitAll_tiles (s : State) (os : List Output) : (s.emitAll os).tiles = s.tiles := rfl
@[simp] theorem State.emitAll_pdWatch (s : State) (os : List Output) : (s.emitAll os).pdWatch = s.pdWatch := rfl
@[simp] theorem State.emitAll_hbm (s : State) (os : List Output) : (s.emitAll os).hbm = s.hbm := rfl
@[simp] theorem State.emitAll_ecrok (s : State) (os : List Output) : (s.emitAll os).ecrok = s.ecrok := rfl
@[simp] theorem State.emitAll_coh (s : State) (os : List Output) : (s.emitAll os).coh = s.coh := rfl
@[simp] theorem State.emitAll_coll (s : State) (os : List Output) : (s.emitAll os).coll = s.coll := rfl
@[simp] theorem State.emitAll_store (s : State) (os : List Output) : (s.emitAll os).store = s.store := rfl
@[simp] theorem State.emitAll_power (s : State) (os : List Output) : (s.emitAll os).power = s.power := rfl
@[simp] theorem State.emitAll_ports (s : State) (os : List Output) : (s.emitAll os).ports = s.ports := rfl
@[simp] theorem State.emitAll_ftime (s : State) (os : List Output) : (s.emitAll os).ftime = s.ftime := rfl
@[simp] theorem State.emitAll_lsa (s : State) (os : List Output) : (s.emitAll os).lsa = s.lsa := rfl
@[simp] theorem State.emitAll_repro (s : State) (os : List Output) : (s.emitAll os).repro = s.repro := rfl
@[simp] theorem State.emitAll_relPending (s : State) (os : List Output) : (s.emitAll os).relPending = s.relPending := rfl
@[simp] theorem State.emitAll_ckpts (s : State) (os : List Output) : (s.emitAll os).ckpts = s.ckpts := rfl
@[simp] theorem State.emitAll_promos (s : State) (os : List Output) : (s.emitAll os).promos = s.promos := rfl
@[simp] theorem State.emitAll_ckptHeld (s : State) (os : List Output) : (s.emitAll os).ckptHeld = s.ckptHeld := rfl
@[simp] theorem State.emitAll_rings (s : State) (os : List Output) : (s.emitAll os).rings = s.rings := rfl
@[simp] theorem State.emitAll_log (s : State) (os : List Output) : (s.emitAll os).log = s.log := rfl
@[simp] theorem State.emitAll_nodeTrace (s : State) (os : List Output) : (s.emitAll os).nodeTrace = s.nodeTrace := rfl
@[simp] theorem State.emitAll_err (s : State) (os : List Output) : (s.emitAll os).err = s.err := rfl
@[simp] theorem State.emitAll_traceDrain (s : State) (os : List Output) : (s.emitAll os).traceDrain = s.traceDrain := rfl
@[simp] theorem State.emitAll_urgentDue (s : State) (os : List Output) : (s.emitAll os).urgentDue = s.urgentDue := rfl
@[simp] theorem State.emitAll_queues (s : State) (os : List Output) : (s.emitAll os).queues = s.queues := rfl
@[simp] theorem State.emitAll_keys (s : State) (os : List Output) : (s.emitAll os).keys = s.keys := rfl
@[simp] theorem State.emitAll_qps (s : State) (os : List Output) : (s.emitAll os).qps = s.qps := rfl
@[simp] theorem State.emitAll_regions (s : State) (os : List Output) : (s.emitAll os).regions = s.regions := rfl
@[simp] theorem State.emitAll_pauses (s : State) (os : List Output) : (s.emitAll os).pauses = s.pauses := rfl
@[simp] theorem State.emitAll_pairs (s : State) (os : List Output) : (s.emitAll os).pairs = s.pairs := rfl
@[simp] theorem State.emitAll_dike (s : State) (os : List Output) : (s.emitAll os).dike = s.dike := rfl
@[simp] theorem State.emitAll_spdm (s : State) (os : List Output) : (s.emitAll os).spdm = s.spdm := rfl
@[simp] theorem State.emitAll_boot (s : State) (os : List Output) : (s.emitAll os).boot = s.boot := rfl
@[simp] theorem State.emitAll_flokan (s : State) (os : List Output) : (s.emitAll os).flokan = s.flokan := rfl
@[simp] theorem State.emitAll_snaps (s : State) (os : List Output) : (s.emitAll os).snaps = s.snaps := rfl
@[simp] theorem State.emitAll_snapPages (s : State) (os : List Output) : (s.emitAll os).snapPages = s.snapPages := rfl
@[simp] theorem State.emitAll_side (s : State) (os : List Output) : (s.emitAll os).side = s.side := rfl
@[simp] theorem State.emitAll_ctxs (s : State) (os : List Output) : (s.emitAll os).ctxs = s.ctxs := rfl
@[simp] theorem State.emitAll_schedEvents (s : State) (os : List Output) : (s.emitAll os).schedEvents = s.schedEvents := rfl
@[simp] theorem State.emitAll_freeCount (s : State) (os : List Output) : (s.emitAll os).freeCount = s.freeCount := rfl
@[simp] theorem State.emitAll_pending (s : State) (os : List Output) : (s.emitAll os).pending = s.pending := rfl

/-! `setQp` -/
@[simp] theorem State.setQp_regs (s : State) (i : Nat) (x : QueuePair) : (s.setQp i x).regs = s.regs := rfl
@[simp] theorem State.setQp_shadow (s : State) (i : Nat) (x : QueuePair) : (s.setQp i x).shadow = s.shadow := rfl
@[simp] theorem State.setQp_csrs (s : State) (i : Nat) (x : QueuePair) : (s.setQp i x).csrs = s.csrs := rfl
@[simp] theorem State.setQp_xregs (s : State) (i : Nat) (x : QueuePair) : (s.setQp i x).xregs = s.xregs := rfl
@[simp] theorem State.setQp_fregs (s : State) (i : Nat) (x : QueuePair) : (s.setQp i x).fregs = s.fregs := rfl
@[simp] theorem State.setQp_vregs (s : State) (i : Nat) (x : QueuePair) : (s.setQp i x).vregs = s.vregs := rfl
@[simp] theorem State.setQp_cores (s : State) (i : Nat) (x : QueuePair) : (s.setQp i x).cores = s.cores := rfl
@[simp] theorem State.setQp_tally (s : State) (i : Nat) (x : QueuePair) : (s.setQp i x).tally = s.tally := rfl
@[simp] theorem State.setQp_mem (s : State) (i : Nat) (x : QueuePair) : (s.setQp i x).mem = s.mem := rfl
@[simp] theorem State.setQp_poisonLine (s : State) (i : Nat) (x : QueuePair) : (s.setQp i x).poisonLine = s.poisonLine := rfl
@[simp] theorem State.setQp_poisonWord (s : State) (i : Nat) (x : QueuePair) : (s.setQp i x).poisonWord = s.poisonWord := rfl
@[simp] theorem State.setQp_counters (s : State) (i : Nat) (x : QueuePair) : (s.setQp i x).counters = s.counters := rfl
@[simp] theorem State.setQp_waits (s : State) (i : Nat) (x : QueuePair) : (s.setQp i x).waits = s.waits := rfl
@[simp] theorem State.setQp_arrived (s : State) (i : Nat) (x : QueuePair) : (s.setQp i x).arrived = s.arrived := rfl
@[simp] theorem State.setQp_flasks (s : State) (i : Nat) (x : QueuePair) : (s.setQp i x).flasks = s.flasks := rfl
@[simp] theorem State.setQp_tiles (s : State) (i : Nat) (x : QueuePair) : (s.setQp i x).tiles = s.tiles := rfl
@[simp] theorem State.setQp_pdWatch (s : State) (i : Nat) (x : QueuePair) : (s.setQp i x).pdWatch = s.pdWatch := rfl
@[simp] theorem State.setQp_hbm (s : State) (i : Nat) (x : QueuePair) : (s.setQp i x).hbm = s.hbm := rfl
@[simp] theorem State.setQp_ecrok (s : State) (i : Nat) (x : QueuePair) : (s.setQp i x).ecrok = s.ecrok := rfl
@[simp] theorem State.setQp_coh (s : State) (i : Nat) (x : QueuePair) : (s.setQp i x).coh = s.coh := rfl
@[simp] theorem State.setQp_coll (s : State) (i : Nat) (x : QueuePair) : (s.setQp i x).coll = s.coll := rfl
@[simp] theorem State.setQp_store (s : State) (i : Nat) (x : QueuePair) : (s.setQp i x).store = s.store := rfl
@[simp] theorem State.setQp_power (s : State) (i : Nat) (x : QueuePair) : (s.setQp i x).power = s.power := rfl
@[simp] theorem State.setQp_ports (s : State) (i : Nat) (x : QueuePair) : (s.setQp i x).ports = s.ports := rfl
@[simp] theorem State.setQp_ftime (s : State) (i : Nat) (x : QueuePair) : (s.setQp i x).ftime = s.ftime := rfl
@[simp] theorem State.setQp_lsa (s : State) (i : Nat) (x : QueuePair) : (s.setQp i x).lsa = s.lsa := rfl
@[simp] theorem State.setQp_repro (s : State) (i : Nat) (x : QueuePair) : (s.setQp i x).repro = s.repro := rfl
@[simp] theorem State.setQp_relPending (s : State) (i : Nat) (x : QueuePair) : (s.setQp i x).relPending = s.relPending := rfl
@[simp] theorem State.setQp_ckpts (s : State) (i : Nat) (x : QueuePair) : (s.setQp i x).ckpts = s.ckpts := rfl
@[simp] theorem State.setQp_promos (s : State) (i : Nat) (x : QueuePair) : (s.setQp i x).promos = s.promos := rfl
@[simp] theorem State.setQp_ckptHeld (s : State) (i : Nat) (x : QueuePair) : (s.setQp i x).ckptHeld = s.ckptHeld := rfl
@[simp] theorem State.setQp_rings (s : State) (i : Nat) (x : QueuePair) : (s.setQp i x).rings = s.rings := rfl
@[simp] theorem State.setQp_log (s : State) (i : Nat) (x : QueuePair) : (s.setQp i x).log = s.log := rfl
@[simp] theorem State.setQp_nodeTrace (s : State) (i : Nat) (x : QueuePair) : (s.setQp i x).nodeTrace = s.nodeTrace := rfl
@[simp] theorem State.setQp_err (s : State) (i : Nat) (x : QueuePair) : (s.setQp i x).err = s.err := rfl
@[simp] theorem State.setQp_traceDrain (s : State) (i : Nat) (x : QueuePair) : (s.setQp i x).traceDrain = s.traceDrain := rfl
@[simp] theorem State.setQp_urgentDue (s : State) (i : Nat) (x : QueuePair) : (s.setQp i x).urgentDue = s.urgentDue := rfl
@[simp] theorem State.setQp_queues (s : State) (i : Nat) (x : QueuePair) : (s.setQp i x).queues = s.queues := rfl
@[simp] theorem State.setQp_keys (s : State) (i : Nat) (x : QueuePair) : (s.setQp i x).keys = s.keys := rfl
@[simp] theorem State.setQp_regions (s : State) (i : Nat) (x : QueuePair) : (s.setQp i x).regions = s.regions := rfl
@[simp] theorem State.setQp_pauses (s : State) (i : Nat) (x : QueuePair) : (s.setQp i x).pauses = s.pauses := rfl
@[simp] theorem State.setQp_pairs (s : State) (i : Nat) (x : QueuePair) : (s.setQp i x).pairs = s.pairs := rfl
@[simp] theorem State.setQp_dike (s : State) (i : Nat) (x : QueuePair) : (s.setQp i x).dike = s.dike := rfl
@[simp] theorem State.setQp_spdm (s : State) (i : Nat) (x : QueuePair) : (s.setQp i x).spdm = s.spdm := rfl
@[simp] theorem State.setQp_boot (s : State) (i : Nat) (x : QueuePair) : (s.setQp i x).boot = s.boot := rfl
@[simp] theorem State.setQp_flokan (s : State) (i : Nat) (x : QueuePair) : (s.setQp i x).flokan = s.flokan := rfl
@[simp] theorem State.setQp_snaps (s : State) (i : Nat) (x : QueuePair) : (s.setQp i x).snaps = s.snaps := rfl
@[simp] theorem State.setQp_snapPages (s : State) (i : Nat) (x : QueuePair) : (s.setQp i x).snapPages = s.snapPages := rfl
@[simp] theorem State.setQp_side (s : State) (i : Nat) (x : QueuePair) : (s.setQp i x).side = s.side := rfl
@[simp] theorem State.setQp_ctxs (s : State) (i : Nat) (x : QueuePair) : (s.setQp i x).ctxs = s.ctxs := rfl
@[simp] theorem State.setQp_schedEvents (s : State) (i : Nat) (x : QueuePair) : (s.setQp i x).schedEvents = s.schedEvents := rfl
@[simp] theorem State.setQp_out (s : State) (i : Nat) (x : QueuePair) : (s.setQp i x).out = s.out := rfl
@[simp] theorem State.setQp_freeCount (s : State) (i : Nat) (x : QueuePair) : (s.setQp i x).freeCount = s.freeCount := rfl
@[simp] theorem State.setQp_pending (s : State) (i : Nat) (x : QueuePair) : (s.setQp i x).pending = s.pending := rfl

/-! `setPause` -/
@[simp] theorem State.setPause_regs (s : State) (k : Nat) (x : PauseState) : (s.setPause k x).regs = s.regs := rfl
@[simp] theorem State.setPause_shadow (s : State) (k : Nat) (x : PauseState) : (s.setPause k x).shadow = s.shadow := rfl
@[simp] theorem State.setPause_csrs (s : State) (k : Nat) (x : PauseState) : (s.setPause k x).csrs = s.csrs := rfl
@[simp] theorem State.setPause_xregs (s : State) (k : Nat) (x : PauseState) : (s.setPause k x).xregs = s.xregs := rfl
@[simp] theorem State.setPause_fregs (s : State) (k : Nat) (x : PauseState) : (s.setPause k x).fregs = s.fregs := rfl
@[simp] theorem State.setPause_vregs (s : State) (k : Nat) (x : PauseState) : (s.setPause k x).vregs = s.vregs := rfl
@[simp] theorem State.setPause_cores (s : State) (k : Nat) (x : PauseState) : (s.setPause k x).cores = s.cores := rfl
@[simp] theorem State.setPause_tally (s : State) (k : Nat) (x : PauseState) : (s.setPause k x).tally = s.tally := rfl
@[simp] theorem State.setPause_mem (s : State) (k : Nat) (x : PauseState) : (s.setPause k x).mem = s.mem := rfl
@[simp] theorem State.setPause_poisonLine (s : State) (k : Nat) (x : PauseState) : (s.setPause k x).poisonLine = s.poisonLine := rfl
@[simp] theorem State.setPause_poisonWord (s : State) (k : Nat) (x : PauseState) : (s.setPause k x).poisonWord = s.poisonWord := rfl
@[simp] theorem State.setPause_counters (s : State) (k : Nat) (x : PauseState) : (s.setPause k x).counters = s.counters := rfl
@[simp] theorem State.setPause_waits (s : State) (k : Nat) (x : PauseState) : (s.setPause k x).waits = s.waits := rfl
@[simp] theorem State.setPause_arrived (s : State) (k : Nat) (x : PauseState) : (s.setPause k x).arrived = s.arrived := rfl
@[simp] theorem State.setPause_flasks (s : State) (k : Nat) (x : PauseState) : (s.setPause k x).flasks = s.flasks := rfl
@[simp] theorem State.setPause_tiles (s : State) (k : Nat) (x : PauseState) : (s.setPause k x).tiles = s.tiles := rfl
@[simp] theorem State.setPause_pdWatch (s : State) (k : Nat) (x : PauseState) : (s.setPause k x).pdWatch = s.pdWatch := rfl
@[simp] theorem State.setPause_hbm (s : State) (k : Nat) (x : PauseState) : (s.setPause k x).hbm = s.hbm := rfl
@[simp] theorem State.setPause_ecrok (s : State) (k : Nat) (x : PauseState) : (s.setPause k x).ecrok = s.ecrok := rfl
@[simp] theorem State.setPause_coh (s : State) (k : Nat) (x : PauseState) : (s.setPause k x).coh = s.coh := rfl
@[simp] theorem State.setPause_coll (s : State) (k : Nat) (x : PauseState) : (s.setPause k x).coll = s.coll := rfl
@[simp] theorem State.setPause_store (s : State) (k : Nat) (x : PauseState) : (s.setPause k x).store = s.store := rfl
@[simp] theorem State.setPause_power (s : State) (k : Nat) (x : PauseState) : (s.setPause k x).power = s.power := rfl
@[simp] theorem State.setPause_ports (s : State) (k : Nat) (x : PauseState) : (s.setPause k x).ports = s.ports := rfl
@[simp] theorem State.setPause_ftime (s : State) (k : Nat) (x : PauseState) : (s.setPause k x).ftime = s.ftime := rfl
@[simp] theorem State.setPause_lsa (s : State) (k : Nat) (x : PauseState) : (s.setPause k x).lsa = s.lsa := rfl
@[simp] theorem State.setPause_repro (s : State) (k : Nat) (x : PauseState) : (s.setPause k x).repro = s.repro := rfl
@[simp] theorem State.setPause_relPending (s : State) (k : Nat) (x : PauseState) : (s.setPause k x).relPending = s.relPending := rfl
@[simp] theorem State.setPause_ckpts (s : State) (k : Nat) (x : PauseState) : (s.setPause k x).ckpts = s.ckpts := rfl
@[simp] theorem State.setPause_promos (s : State) (k : Nat) (x : PauseState) : (s.setPause k x).promos = s.promos := rfl
@[simp] theorem State.setPause_ckptHeld (s : State) (k : Nat) (x : PauseState) : (s.setPause k x).ckptHeld = s.ckptHeld := rfl
@[simp] theorem State.setPause_rings (s : State) (k : Nat) (x : PauseState) : (s.setPause k x).rings = s.rings := rfl
@[simp] theorem State.setPause_log (s : State) (k : Nat) (x : PauseState) : (s.setPause k x).log = s.log := rfl
@[simp] theorem State.setPause_nodeTrace (s : State) (k : Nat) (x : PauseState) : (s.setPause k x).nodeTrace = s.nodeTrace := rfl
@[simp] theorem State.setPause_err (s : State) (k : Nat) (x : PauseState) : (s.setPause k x).err = s.err := rfl
@[simp] theorem State.setPause_traceDrain (s : State) (k : Nat) (x : PauseState) : (s.setPause k x).traceDrain = s.traceDrain := rfl
@[simp] theorem State.setPause_urgentDue (s : State) (k : Nat) (x : PauseState) : (s.setPause k x).urgentDue = s.urgentDue := rfl
@[simp] theorem State.setPause_queues (s : State) (k : Nat) (x : PauseState) : (s.setPause k x).queues = s.queues := rfl
@[simp] theorem State.setPause_keys (s : State) (k : Nat) (x : PauseState) : (s.setPause k x).keys = s.keys := rfl
@[simp] theorem State.setPause_qps (s : State) (k : Nat) (x : PauseState) : (s.setPause k x).qps = s.qps := rfl
@[simp] theorem State.setPause_regions (s : State) (k : Nat) (x : PauseState) : (s.setPause k x).regions = s.regions := rfl
@[simp] theorem State.setPause_pairs (s : State) (k : Nat) (x : PauseState) : (s.setPause k x).pairs = s.pairs := rfl
@[simp] theorem State.setPause_dike (s : State) (k : Nat) (x : PauseState) : (s.setPause k x).dike = s.dike := rfl
@[simp] theorem State.setPause_spdm (s : State) (k : Nat) (x : PauseState) : (s.setPause k x).spdm = s.spdm := rfl
@[simp] theorem State.setPause_boot (s : State) (k : Nat) (x : PauseState) : (s.setPause k x).boot = s.boot := rfl
@[simp] theorem State.setPause_flokan (s : State) (k : Nat) (x : PauseState) : (s.setPause k x).flokan = s.flokan := rfl
@[simp] theorem State.setPause_snaps (s : State) (k : Nat) (x : PauseState) : (s.setPause k x).snaps = s.snaps := rfl
@[simp] theorem State.setPause_snapPages (s : State) (k : Nat) (x : PauseState) : (s.setPause k x).snapPages = s.snapPages := rfl
@[simp] theorem State.setPause_side (s : State) (k : Nat) (x : PauseState) : (s.setPause k x).side = s.side := rfl
@[simp] theorem State.setPause_ctxs (s : State) (k : Nat) (x : PauseState) : (s.setPause k x).ctxs = s.ctxs := rfl
@[simp] theorem State.setPause_schedEvents (s : State) (k : Nat) (x : PauseState) : (s.setPause k x).schedEvents = s.schedEvents := rfl
@[simp] theorem State.setPause_out (s : State) (k : Nat) (x : PauseState) : (s.setPause k x).out = s.out := rfl
@[simp] theorem State.setPause_freeCount (s : State) (k : Nat) (x : PauseState) : (s.setPause k x).freeCount = s.freeCount := rfl
@[simp] theorem State.setPause_pending (s : State) (k : Nat) (x : PauseState) : (s.setPause k x).pending = s.pending := rfl

/-! `setQueue` -/
@[simp] theorem State.setQueue_regs (s : State) (q : Nat) (x : Queue) : (s.setQueue q x).regs = s.regs := rfl
@[simp] theorem State.setQueue_shadow (s : State) (q : Nat) (x : Queue) : (s.setQueue q x).shadow = s.shadow := rfl
@[simp] theorem State.setQueue_csrs (s : State) (q : Nat) (x : Queue) : (s.setQueue q x).csrs = s.csrs := rfl
@[simp] theorem State.setQueue_xregs (s : State) (q : Nat) (x : Queue) : (s.setQueue q x).xregs = s.xregs := rfl
@[simp] theorem State.setQueue_fregs (s : State) (q : Nat) (x : Queue) : (s.setQueue q x).fregs = s.fregs := rfl
@[simp] theorem State.setQueue_vregs (s : State) (q : Nat) (x : Queue) : (s.setQueue q x).vregs = s.vregs := rfl
@[simp] theorem State.setQueue_cores (s : State) (q : Nat) (x : Queue) : (s.setQueue q x).cores = s.cores := rfl
@[simp] theorem State.setQueue_tally (s : State) (q : Nat) (x : Queue) : (s.setQueue q x).tally = s.tally := rfl
@[simp] theorem State.setQueue_mem (s : State) (q : Nat) (x : Queue) : (s.setQueue q x).mem = s.mem := rfl
@[simp] theorem State.setQueue_poisonLine (s : State) (q : Nat) (x : Queue) : (s.setQueue q x).poisonLine = s.poisonLine := rfl
@[simp] theorem State.setQueue_poisonWord (s : State) (q : Nat) (x : Queue) : (s.setQueue q x).poisonWord = s.poisonWord := rfl
@[simp] theorem State.setQueue_counters (s : State) (q : Nat) (x : Queue) : (s.setQueue q x).counters = s.counters := rfl
@[simp] theorem State.setQueue_waits (s : State) (q : Nat) (x : Queue) : (s.setQueue q x).waits = s.waits := rfl
@[simp] theorem State.setQueue_arrived (s : State) (q : Nat) (x : Queue) : (s.setQueue q x).arrived = s.arrived := rfl
@[simp] theorem State.setQueue_flasks (s : State) (q : Nat) (x : Queue) : (s.setQueue q x).flasks = s.flasks := rfl
@[simp] theorem State.setQueue_tiles (s : State) (q : Nat) (x : Queue) : (s.setQueue q x).tiles = s.tiles := rfl
@[simp] theorem State.setQueue_pdWatch (s : State) (q : Nat) (x : Queue) : (s.setQueue q x).pdWatch = s.pdWatch := rfl
@[simp] theorem State.setQueue_hbm (s : State) (q : Nat) (x : Queue) : (s.setQueue q x).hbm = s.hbm := rfl
@[simp] theorem State.setQueue_ecrok (s : State) (q : Nat) (x : Queue) : (s.setQueue q x).ecrok = s.ecrok := rfl
@[simp] theorem State.setQueue_coh (s : State) (q : Nat) (x : Queue) : (s.setQueue q x).coh = s.coh := rfl
@[simp] theorem State.setQueue_coll (s : State) (q : Nat) (x : Queue) : (s.setQueue q x).coll = s.coll := rfl
@[simp] theorem State.setQueue_store (s : State) (q : Nat) (x : Queue) : (s.setQueue q x).store = s.store := rfl
@[simp] theorem State.setQueue_power (s : State) (q : Nat) (x : Queue) : (s.setQueue q x).power = s.power := rfl
@[simp] theorem State.setQueue_ports (s : State) (q : Nat) (x : Queue) : (s.setQueue q x).ports = s.ports := rfl
@[simp] theorem State.setQueue_ftime (s : State) (q : Nat) (x : Queue) : (s.setQueue q x).ftime = s.ftime := rfl
@[simp] theorem State.setQueue_lsa (s : State) (q : Nat) (x : Queue) : (s.setQueue q x).lsa = s.lsa := rfl
@[simp] theorem State.setQueue_repro (s : State) (q : Nat) (x : Queue) : (s.setQueue q x).repro = s.repro := rfl
@[simp] theorem State.setQueue_relPending (s : State) (q : Nat) (x : Queue) : (s.setQueue q x).relPending = s.relPending := rfl
@[simp] theorem State.setQueue_ckpts (s : State) (q : Nat) (x : Queue) : (s.setQueue q x).ckpts = s.ckpts := rfl
@[simp] theorem State.setQueue_promos (s : State) (q : Nat) (x : Queue) : (s.setQueue q x).promos = s.promos := rfl
@[simp] theorem State.setQueue_ckptHeld (s : State) (q : Nat) (x : Queue) : (s.setQueue q x).ckptHeld = s.ckptHeld := rfl
@[simp] theorem State.setQueue_rings (s : State) (q : Nat) (x : Queue) : (s.setQueue q x).rings = s.rings := rfl
@[simp] theorem State.setQueue_log (s : State) (q : Nat) (x : Queue) : (s.setQueue q x).log = s.log := rfl
@[simp] theorem State.setQueue_nodeTrace (s : State) (q : Nat) (x : Queue) : (s.setQueue q x).nodeTrace = s.nodeTrace := rfl
@[simp] theorem State.setQueue_err (s : State) (q : Nat) (x : Queue) : (s.setQueue q x).err = s.err := rfl
@[simp] theorem State.setQueue_traceDrain (s : State) (q : Nat) (x : Queue) : (s.setQueue q x).traceDrain = s.traceDrain := rfl
@[simp] theorem State.setQueue_urgentDue (s : State) (q : Nat) (x : Queue) : (s.setQueue q x).urgentDue = s.urgentDue := rfl
@[simp] theorem State.setQueue_keys (s : State) (q : Nat) (x : Queue) : (s.setQueue q x).keys = s.keys := rfl
@[simp] theorem State.setQueue_qps (s : State) (q : Nat) (x : Queue) : (s.setQueue q x).qps = s.qps := rfl
@[simp] theorem State.setQueue_regions (s : State) (q : Nat) (x : Queue) : (s.setQueue q x).regions = s.regions := rfl
@[simp] theorem State.setQueue_pauses (s : State) (q : Nat) (x : Queue) : (s.setQueue q x).pauses = s.pauses := rfl
@[simp] theorem State.setQueue_pairs (s : State) (q : Nat) (x : Queue) : (s.setQueue q x).pairs = s.pairs := rfl
@[simp] theorem State.setQueue_dike (s : State) (q : Nat) (x : Queue) : (s.setQueue q x).dike = s.dike := rfl
@[simp] theorem State.setQueue_spdm (s : State) (q : Nat) (x : Queue) : (s.setQueue q x).spdm = s.spdm := rfl
@[simp] theorem State.setQueue_boot (s : State) (q : Nat) (x : Queue) : (s.setQueue q x).boot = s.boot := rfl
@[simp] theorem State.setQueue_flokan (s : State) (q : Nat) (x : Queue) : (s.setQueue q x).flokan = s.flokan := rfl
@[simp] theorem State.setQueue_snaps (s : State) (q : Nat) (x : Queue) : (s.setQueue q x).snaps = s.snaps := rfl
@[simp] theorem State.setQueue_snapPages (s : State) (q : Nat) (x : Queue) : (s.setQueue q x).snapPages = s.snapPages := rfl
@[simp] theorem State.setQueue_side (s : State) (q : Nat) (x : Queue) : (s.setQueue q x).side = s.side := rfl
@[simp] theorem State.setQueue_ctxs (s : State) (q : Nat) (x : Queue) : (s.setQueue q x).ctxs = s.ctxs := rfl
@[simp] theorem State.setQueue_schedEvents (s : State) (q : Nat) (x : Queue) : (s.setQueue q x).schedEvents = s.schedEvents := rfl
@[simp] theorem State.setQueue_out (s : State) (q : Nat) (x : Queue) : (s.setQueue q x).out = s.out := rfl
@[simp] theorem State.setQueue_freeCount (s : State) (q : Nat) (x : Queue) : (s.setQueue q x).freeCount = s.freeCount := rfl
@[simp] theorem State.setQueue_pending (s : State) (q : Nat) (x : Queue) : (s.setQueue q x).pending = s.pending := rfl

/-! `pushRing` -/
@[simp] theorem State.pushRing_regs (s : State) (p u : Nat) (e : EvEntry) : (s.pushRing p u e).regs = s.regs := rfl
@[simp] theorem State.pushRing_shadow (s : State) (p u : Nat) (e : EvEntry) : (s.pushRing p u e).shadow = s.shadow := rfl
@[simp] theorem State.pushRing_csrs (s : State) (p u : Nat) (e : EvEntry) : (s.pushRing p u e).csrs = s.csrs := rfl
@[simp] theorem State.pushRing_xregs (s : State) (p u : Nat) (e : EvEntry) : (s.pushRing p u e).xregs = s.xregs := rfl
@[simp] theorem State.pushRing_fregs (s : State) (p u : Nat) (e : EvEntry) : (s.pushRing p u e).fregs = s.fregs := rfl
@[simp] theorem State.pushRing_vregs (s : State) (p u : Nat) (e : EvEntry) : (s.pushRing p u e).vregs = s.vregs := rfl
@[simp] theorem State.pushRing_cores (s : State) (p u : Nat) (e : EvEntry) : (s.pushRing p u e).cores = s.cores := rfl
@[simp] theorem State.pushRing_tally (s : State) (p u : Nat) (e : EvEntry) : (s.pushRing p u e).tally = s.tally := rfl
@[simp] theorem State.pushRing_mem (s : State) (p u : Nat) (e : EvEntry) : (s.pushRing p u e).mem = s.mem := rfl
@[simp] theorem State.pushRing_poisonLine (s : State) (p u : Nat) (e : EvEntry) : (s.pushRing p u e).poisonLine = s.poisonLine := rfl
@[simp] theorem State.pushRing_poisonWord (s : State) (p u : Nat) (e : EvEntry) : (s.pushRing p u e).poisonWord = s.poisonWord := rfl
@[simp] theorem State.pushRing_counters (s : State) (p u : Nat) (e : EvEntry) : (s.pushRing p u e).counters = s.counters := rfl
@[simp] theorem State.pushRing_waits (s : State) (p u : Nat) (e : EvEntry) : (s.pushRing p u e).waits = s.waits := rfl
@[simp] theorem State.pushRing_arrived (s : State) (p u : Nat) (e : EvEntry) : (s.pushRing p u e).arrived = s.arrived := rfl
@[simp] theorem State.pushRing_flasks (s : State) (p u : Nat) (e : EvEntry) : (s.pushRing p u e).flasks = s.flasks := rfl
@[simp] theorem State.pushRing_tiles (s : State) (p u : Nat) (e : EvEntry) : (s.pushRing p u e).tiles = s.tiles := rfl
@[simp] theorem State.pushRing_pdWatch (s : State) (p u : Nat) (e : EvEntry) : (s.pushRing p u e).pdWatch = s.pdWatch := rfl
@[simp] theorem State.pushRing_hbm (s : State) (p u : Nat) (e : EvEntry) : (s.pushRing p u e).hbm = s.hbm := rfl
@[simp] theorem State.pushRing_ecrok (s : State) (p u : Nat) (e : EvEntry) : (s.pushRing p u e).ecrok = s.ecrok := rfl
@[simp] theorem State.pushRing_coh (s : State) (p u : Nat) (e : EvEntry) : (s.pushRing p u e).coh = s.coh := rfl
@[simp] theorem State.pushRing_coll (s : State) (p u : Nat) (e : EvEntry) : (s.pushRing p u e).coll = s.coll := rfl
@[simp] theorem State.pushRing_store (s : State) (p u : Nat) (e : EvEntry) : (s.pushRing p u e).store = s.store := rfl
@[simp] theorem State.pushRing_power (s : State) (p u : Nat) (e : EvEntry) : (s.pushRing p u e).power = s.power := rfl
@[simp] theorem State.pushRing_ports (s : State) (p u : Nat) (e : EvEntry) : (s.pushRing p u e).ports = s.ports := rfl
@[simp] theorem State.pushRing_ftime (s : State) (p u : Nat) (e : EvEntry) : (s.pushRing p u e).ftime = s.ftime := rfl
@[simp] theorem State.pushRing_lsa (s : State) (p u : Nat) (e : EvEntry) : (s.pushRing p u e).lsa = s.lsa := rfl
@[simp] theorem State.pushRing_repro (s : State) (p u : Nat) (e : EvEntry) : (s.pushRing p u e).repro = s.repro := rfl
@[simp] theorem State.pushRing_relPending (s : State) (p u : Nat) (e : EvEntry) : (s.pushRing p u e).relPending = s.relPending := rfl
@[simp] theorem State.pushRing_ckpts (s : State) (p u : Nat) (e : EvEntry) : (s.pushRing p u e).ckpts = s.ckpts := rfl
@[simp] theorem State.pushRing_promos (s : State) (p u : Nat) (e : EvEntry) : (s.pushRing p u e).promos = s.promos := rfl
@[simp] theorem State.pushRing_ckptHeld (s : State) (p u : Nat) (e : EvEntry) : (s.pushRing p u e).ckptHeld = s.ckptHeld := rfl
@[simp] theorem State.pushRing_log (s : State) (p u : Nat) (e : EvEntry) : (s.pushRing p u e).log = s.log := rfl
@[simp] theorem State.pushRing_nodeTrace (s : State) (p u : Nat) (e : EvEntry) : (s.pushRing p u e).nodeTrace = s.nodeTrace := rfl
@[simp] theorem State.pushRing_err (s : State) (p u : Nat) (e : EvEntry) : (s.pushRing p u e).err = s.err := rfl
@[simp] theorem State.pushRing_traceDrain (s : State) (p u : Nat) (e : EvEntry) : (s.pushRing p u e).traceDrain = s.traceDrain := rfl
@[simp] theorem State.pushRing_urgentDue (s : State) (p u : Nat) (e : EvEntry) : (s.pushRing p u e).urgentDue = s.urgentDue := rfl
@[simp] theorem State.pushRing_queues (s : State) (p u : Nat) (e : EvEntry) : (s.pushRing p u e).queues = s.queues := rfl
@[simp] theorem State.pushRing_keys (s : State) (p u : Nat) (e : EvEntry) : (s.pushRing p u e).keys = s.keys := rfl
@[simp] theorem State.pushRing_qps (s : State) (p u : Nat) (e : EvEntry) : (s.pushRing p u e).qps = s.qps := rfl
@[simp] theorem State.pushRing_regions (s : State) (p u : Nat) (e : EvEntry) : (s.pushRing p u e).regions = s.regions := rfl
@[simp] theorem State.pushRing_pauses (s : State) (p u : Nat) (e : EvEntry) : (s.pushRing p u e).pauses = s.pauses := rfl
@[simp] theorem State.pushRing_pairs (s : State) (p u : Nat) (e : EvEntry) : (s.pushRing p u e).pairs = s.pairs := rfl
@[simp] theorem State.pushRing_dike (s : State) (p u : Nat) (e : EvEntry) : (s.pushRing p u e).dike = s.dike := rfl
@[simp] theorem State.pushRing_spdm (s : State) (p u : Nat) (e : EvEntry) : (s.pushRing p u e).spdm = s.spdm := rfl
@[simp] theorem State.pushRing_boot (s : State) (p u : Nat) (e : EvEntry) : (s.pushRing p u e).boot = s.boot := rfl
@[simp] theorem State.pushRing_flokan (s : State) (p u : Nat) (e : EvEntry) : (s.pushRing p u e).flokan = s.flokan := rfl
@[simp] theorem State.pushRing_snaps (s : State) (p u : Nat) (e : EvEntry) : (s.pushRing p u e).snaps = s.snaps := rfl
@[simp] theorem State.pushRing_snapPages (s : State) (p u : Nat) (e : EvEntry) : (s.pushRing p u e).snapPages = s.snapPages := rfl
@[simp] theorem State.pushRing_side (s : State) (p u : Nat) (e : EvEntry) : (s.pushRing p u e).side = s.side := rfl
@[simp] theorem State.pushRing_ctxs (s : State) (p u : Nat) (e : EvEntry) : (s.pushRing p u e).ctxs = s.ctxs := rfl
@[simp] theorem State.pushRing_schedEvents (s : State) (p u : Nat) (e : EvEntry) : (s.pushRing p u e).schedEvents = s.schedEvents := rfl
@[simp] theorem State.pushRing_out (s : State) (p u : Nat) (e : EvEntry) : (s.pushRing p u e).out = s.out := rfl
@[simp] theorem State.pushRing_freeCount (s : State) (p u : Nat) (e : EvEntry) : (s.pushRing p u e).freeCount = s.freeCount := rfl
@[simp] theorem State.pushRing_pending (s : State) (p u : Nat) (e : EvEntry) : (s.pushRing p u e).pending = s.pending := rfl

/-! `setFlask` -/
@[simp] theorem State.setFlask_regs (s : State) (f : Nat) (x : FlaskState) : (s.setFlask f x).regs = s.regs := rfl
@[simp] theorem State.setFlask_shadow (s : State) (f : Nat) (x : FlaskState) : (s.setFlask f x).shadow = s.shadow := rfl
@[simp] theorem State.setFlask_csrs (s : State) (f : Nat) (x : FlaskState) : (s.setFlask f x).csrs = s.csrs := rfl
@[simp] theorem State.setFlask_xregs (s : State) (f : Nat) (x : FlaskState) : (s.setFlask f x).xregs = s.xregs := rfl
@[simp] theorem State.setFlask_fregs (s : State) (f : Nat) (x : FlaskState) : (s.setFlask f x).fregs = s.fregs := rfl
@[simp] theorem State.setFlask_vregs (s : State) (f : Nat) (x : FlaskState) : (s.setFlask f x).vregs = s.vregs := rfl
@[simp] theorem State.setFlask_cores (s : State) (f : Nat) (x : FlaskState) : (s.setFlask f x).cores = s.cores := rfl
@[simp] theorem State.setFlask_tally (s : State) (f : Nat) (x : FlaskState) : (s.setFlask f x).tally = s.tally := rfl
@[simp] theorem State.setFlask_mem (s : State) (f : Nat) (x : FlaskState) : (s.setFlask f x).mem = s.mem := rfl
@[simp] theorem State.setFlask_poisonLine (s : State) (f : Nat) (x : FlaskState) : (s.setFlask f x).poisonLine = s.poisonLine := rfl
@[simp] theorem State.setFlask_poisonWord (s : State) (f : Nat) (x : FlaskState) : (s.setFlask f x).poisonWord = s.poisonWord := rfl
@[simp] theorem State.setFlask_counters (s : State) (f : Nat) (x : FlaskState) : (s.setFlask f x).counters = s.counters := rfl
@[simp] theorem State.setFlask_waits (s : State) (f : Nat) (x : FlaskState) : (s.setFlask f x).waits = s.waits := rfl
@[simp] theorem State.setFlask_arrived (s : State) (f : Nat) (x : FlaskState) : (s.setFlask f x).arrived = s.arrived := rfl
@[simp] theorem State.setFlask_tiles (s : State) (f : Nat) (x : FlaskState) : (s.setFlask f x).tiles = s.tiles := rfl
@[simp] theorem State.setFlask_pdWatch (s : State) (f : Nat) (x : FlaskState) : (s.setFlask f x).pdWatch = s.pdWatch := rfl
@[simp] theorem State.setFlask_hbm (s : State) (f : Nat) (x : FlaskState) : (s.setFlask f x).hbm = s.hbm := rfl
@[simp] theorem State.setFlask_ecrok (s : State) (f : Nat) (x : FlaskState) : (s.setFlask f x).ecrok = s.ecrok := rfl
@[simp] theorem State.setFlask_coh (s : State) (f : Nat) (x : FlaskState) : (s.setFlask f x).coh = s.coh := rfl
@[simp] theorem State.setFlask_coll (s : State) (f : Nat) (x : FlaskState) : (s.setFlask f x).coll = s.coll := rfl
@[simp] theorem State.setFlask_store (s : State) (f : Nat) (x : FlaskState) : (s.setFlask f x).store = s.store := rfl
@[simp] theorem State.setFlask_power (s : State) (f : Nat) (x : FlaskState) : (s.setFlask f x).power = s.power := rfl
@[simp] theorem State.setFlask_ports (s : State) (f : Nat) (x : FlaskState) : (s.setFlask f x).ports = s.ports := rfl
@[simp] theorem State.setFlask_ftime (s : State) (f : Nat) (x : FlaskState) : (s.setFlask f x).ftime = s.ftime := rfl
@[simp] theorem State.setFlask_lsa (s : State) (f : Nat) (x : FlaskState) : (s.setFlask f x).lsa = s.lsa := rfl
@[simp] theorem State.setFlask_repro (s : State) (f : Nat) (x : FlaskState) : (s.setFlask f x).repro = s.repro := rfl
@[simp] theorem State.setFlask_relPending (s : State) (f : Nat) (x : FlaskState) : (s.setFlask f x).relPending = s.relPending := rfl
@[simp] theorem State.setFlask_ckpts (s : State) (f : Nat) (x : FlaskState) : (s.setFlask f x).ckpts = s.ckpts := rfl
@[simp] theorem State.setFlask_promos (s : State) (f : Nat) (x : FlaskState) : (s.setFlask f x).promos = s.promos := rfl
@[simp] theorem State.setFlask_ckptHeld (s : State) (f : Nat) (x : FlaskState) : (s.setFlask f x).ckptHeld = s.ckptHeld := rfl
@[simp] theorem State.setFlask_rings (s : State) (f : Nat) (x : FlaskState) : (s.setFlask f x).rings = s.rings := rfl
@[simp] theorem State.setFlask_log (s : State) (f : Nat) (x : FlaskState) : (s.setFlask f x).log = s.log := rfl
@[simp] theorem State.setFlask_nodeTrace (s : State) (f : Nat) (x : FlaskState) : (s.setFlask f x).nodeTrace = s.nodeTrace := rfl
@[simp] theorem State.setFlask_err (s : State) (f : Nat) (x : FlaskState) : (s.setFlask f x).err = s.err := rfl
@[simp] theorem State.setFlask_traceDrain (s : State) (f : Nat) (x : FlaskState) : (s.setFlask f x).traceDrain = s.traceDrain := rfl
@[simp] theorem State.setFlask_urgentDue (s : State) (f : Nat) (x : FlaskState) : (s.setFlask f x).urgentDue = s.urgentDue := rfl
@[simp] theorem State.setFlask_queues (s : State) (f : Nat) (x : FlaskState) : (s.setFlask f x).queues = s.queues := rfl
@[simp] theorem State.setFlask_keys (s : State) (f : Nat) (x : FlaskState) : (s.setFlask f x).keys = s.keys := rfl
@[simp] theorem State.setFlask_qps (s : State) (f : Nat) (x : FlaskState) : (s.setFlask f x).qps = s.qps := rfl
@[simp] theorem State.setFlask_regions (s : State) (f : Nat) (x : FlaskState) : (s.setFlask f x).regions = s.regions := rfl
@[simp] theorem State.setFlask_pauses (s : State) (f : Nat) (x : FlaskState) : (s.setFlask f x).pauses = s.pauses := rfl
@[simp] theorem State.setFlask_pairs (s : State) (f : Nat) (x : FlaskState) : (s.setFlask f x).pairs = s.pairs := rfl
@[simp] theorem State.setFlask_dike (s : State) (f : Nat) (x : FlaskState) : (s.setFlask f x).dike = s.dike := rfl
@[simp] theorem State.setFlask_spdm (s : State) (f : Nat) (x : FlaskState) : (s.setFlask f x).spdm = s.spdm := rfl
@[simp] theorem State.setFlask_boot (s : State) (f : Nat) (x : FlaskState) : (s.setFlask f x).boot = s.boot := rfl
@[simp] theorem State.setFlask_flokan (s : State) (f : Nat) (x : FlaskState) : (s.setFlask f x).flokan = s.flokan := rfl
@[simp] theorem State.setFlask_snaps (s : State) (f : Nat) (x : FlaskState) : (s.setFlask f x).snaps = s.snaps := rfl
@[simp] theorem State.setFlask_snapPages (s : State) (f : Nat) (x : FlaskState) : (s.setFlask f x).snapPages = s.snapPages := rfl
@[simp] theorem State.setFlask_side (s : State) (f : Nat) (x : FlaskState) : (s.setFlask f x).side = s.side := rfl
@[simp] theorem State.setFlask_ctxs (s : State) (f : Nat) (x : FlaskState) : (s.setFlask f x).ctxs = s.ctxs := rfl
@[simp] theorem State.setFlask_schedEvents (s : State) (f : Nat) (x : FlaskState) : (s.setFlask f x).schedEvents = s.schedEvents := rfl
@[simp] theorem State.setFlask_out (s : State) (f : Nat) (x : FlaskState) : (s.setFlask f x).out = s.out := rfl
@[simp] theorem State.setFlask_freeCount (s : State) (f : Nat) (x : FlaskState) : (s.setFlask f x).freeCount = s.freeCount := rfl
@[simp] theorem State.setFlask_pending (s : State) (f : Nat) (x : FlaskState) : (s.setFlask f x).pending = s.pending := rfl

/-! `setCounter` -/
@[simp] theorem State.setCounter_regs (s : State) (id : Nat) (c : Counter) : (s.setCounter id c).regs = s.regs := rfl
@[simp] theorem State.setCounter_shadow (s : State) (id : Nat) (c : Counter) : (s.setCounter id c).shadow = s.shadow := rfl
@[simp] theorem State.setCounter_csrs (s : State) (id : Nat) (c : Counter) : (s.setCounter id c).csrs = s.csrs := rfl
@[simp] theorem State.setCounter_xregs (s : State) (id : Nat) (c : Counter) : (s.setCounter id c).xregs = s.xregs := rfl
@[simp] theorem State.setCounter_fregs (s : State) (id : Nat) (c : Counter) : (s.setCounter id c).fregs = s.fregs := rfl
@[simp] theorem State.setCounter_vregs (s : State) (id : Nat) (c : Counter) : (s.setCounter id c).vregs = s.vregs := rfl
@[simp] theorem State.setCounter_cores (s : State) (id : Nat) (c : Counter) : (s.setCounter id c).cores = s.cores := rfl
@[simp] theorem State.setCounter_tally (s : State) (id : Nat) (c : Counter) : (s.setCounter id c).tally = s.tally := rfl
@[simp] theorem State.setCounter_mem (s : State) (id : Nat) (c : Counter) : (s.setCounter id c).mem = s.mem := rfl
@[simp] theorem State.setCounter_poisonLine (s : State) (id : Nat) (c : Counter) : (s.setCounter id c).poisonLine = s.poisonLine := rfl
@[simp] theorem State.setCounter_poisonWord (s : State) (id : Nat) (c : Counter) : (s.setCounter id c).poisonWord = s.poisonWord := rfl
@[simp] theorem State.setCounter_waits (s : State) (id : Nat) (c : Counter) : (s.setCounter id c).waits = s.waits := rfl
@[simp] theorem State.setCounter_arrived (s : State) (id : Nat) (c : Counter) : (s.setCounter id c).arrived = s.arrived := rfl
@[simp] theorem State.setCounter_flasks (s : State) (id : Nat) (c : Counter) : (s.setCounter id c).flasks = s.flasks := rfl
@[simp] theorem State.setCounter_tiles (s : State) (id : Nat) (c : Counter) : (s.setCounter id c).tiles = s.tiles := rfl
@[simp] theorem State.setCounter_pdWatch (s : State) (id : Nat) (c : Counter) : (s.setCounter id c).pdWatch = s.pdWatch := rfl
@[simp] theorem State.setCounter_hbm (s : State) (id : Nat) (c : Counter) : (s.setCounter id c).hbm = s.hbm := rfl
@[simp] theorem State.setCounter_ecrok (s : State) (id : Nat) (c : Counter) : (s.setCounter id c).ecrok = s.ecrok := rfl
@[simp] theorem State.setCounter_coh (s : State) (id : Nat) (c : Counter) : (s.setCounter id c).coh = s.coh := rfl
@[simp] theorem State.setCounter_coll (s : State) (id : Nat) (c : Counter) : (s.setCounter id c).coll = s.coll := rfl
@[simp] theorem State.setCounter_store (s : State) (id : Nat) (c : Counter) : (s.setCounter id c).store = s.store := rfl
@[simp] theorem State.setCounter_power (s : State) (id : Nat) (c : Counter) : (s.setCounter id c).power = s.power := rfl
@[simp] theorem State.setCounter_ports (s : State) (id : Nat) (c : Counter) : (s.setCounter id c).ports = s.ports := rfl
@[simp] theorem State.setCounter_ftime (s : State) (id : Nat) (c : Counter) : (s.setCounter id c).ftime = s.ftime := rfl
@[simp] theorem State.setCounter_lsa (s : State) (id : Nat) (c : Counter) : (s.setCounter id c).lsa = s.lsa := rfl
@[simp] theorem State.setCounter_repro (s : State) (id : Nat) (c : Counter) : (s.setCounter id c).repro = s.repro := rfl
@[simp] theorem State.setCounter_relPending (s : State) (id : Nat) (c : Counter) : (s.setCounter id c).relPending = s.relPending := rfl
@[simp] theorem State.setCounter_ckpts (s : State) (id : Nat) (c : Counter) : (s.setCounter id c).ckpts = s.ckpts := rfl
@[simp] theorem State.setCounter_promos (s : State) (id : Nat) (c : Counter) : (s.setCounter id c).promos = s.promos := rfl
@[simp] theorem State.setCounter_ckptHeld (s : State) (id : Nat) (c : Counter) : (s.setCounter id c).ckptHeld = s.ckptHeld := rfl
@[simp] theorem State.setCounter_rings (s : State) (id : Nat) (c : Counter) : (s.setCounter id c).rings = s.rings := rfl
@[simp] theorem State.setCounter_log (s : State) (id : Nat) (c : Counter) : (s.setCounter id c).log = s.log := rfl
@[simp] theorem State.setCounter_nodeTrace (s : State) (id : Nat) (c : Counter) : (s.setCounter id c).nodeTrace = s.nodeTrace := rfl
@[simp] theorem State.setCounter_err (s : State) (id : Nat) (c : Counter) : (s.setCounter id c).err = s.err := rfl
@[simp] theorem State.setCounter_traceDrain (s : State) (id : Nat) (c : Counter) : (s.setCounter id c).traceDrain = s.traceDrain := rfl
@[simp] theorem State.setCounter_urgentDue (s : State) (id : Nat) (c : Counter) : (s.setCounter id c).urgentDue = s.urgentDue := rfl
@[simp] theorem State.setCounter_queues (s : State) (id : Nat) (c : Counter) : (s.setCounter id c).queues = s.queues := rfl
@[simp] theorem State.setCounter_keys (s : State) (id : Nat) (c : Counter) : (s.setCounter id c).keys = s.keys := rfl
@[simp] theorem State.setCounter_qps (s : State) (id : Nat) (c : Counter) : (s.setCounter id c).qps = s.qps := rfl
@[simp] theorem State.setCounter_regions (s : State) (id : Nat) (c : Counter) : (s.setCounter id c).regions = s.regions := rfl
@[simp] theorem State.setCounter_pauses (s : State) (id : Nat) (c : Counter) : (s.setCounter id c).pauses = s.pauses := rfl
@[simp] theorem State.setCounter_pairs (s : State) (id : Nat) (c : Counter) : (s.setCounter id c).pairs = s.pairs := rfl
@[simp] theorem State.setCounter_dike (s : State) (id : Nat) (c : Counter) : (s.setCounter id c).dike = s.dike := rfl
@[simp] theorem State.setCounter_spdm (s : State) (id : Nat) (c : Counter) : (s.setCounter id c).spdm = s.spdm := rfl
@[simp] theorem State.setCounter_boot (s : State) (id : Nat) (c : Counter) : (s.setCounter id c).boot = s.boot := rfl
@[simp] theorem State.setCounter_flokan (s : State) (id : Nat) (c : Counter) : (s.setCounter id c).flokan = s.flokan := rfl
@[simp] theorem State.setCounter_snaps (s : State) (id : Nat) (c : Counter) : (s.setCounter id c).snaps = s.snaps := rfl
@[simp] theorem State.setCounter_snapPages (s : State) (id : Nat) (c : Counter) : (s.setCounter id c).snapPages = s.snapPages := rfl
@[simp] theorem State.setCounter_side (s : State) (id : Nat) (c : Counter) : (s.setCounter id c).side = s.side := rfl
@[simp] theorem State.setCounter_ctxs (s : State) (id : Nat) (c : Counter) : (s.setCounter id c).ctxs = s.ctxs := rfl
@[simp] theorem State.setCounter_schedEvents (s : State) (id : Nat) (c : Counter) : (s.setCounter id c).schedEvents = s.schedEvents := rfl
@[simp] theorem State.setCounter_out (s : State) (id : Nat) (c : Counter) : (s.setCounter id c).out = s.out := rfl
@[simp] theorem State.setCounter_freeCount (s : State) (id : Nat) (c : Counter) : (s.setCounter id c).freeCount = s.freeCount := rfl
@[simp] theorem State.setCounter_pending (s : State) (id : Nat) (c : Counter) : (s.setCounter id c).pending = s.pending := rfl

/-! `setTile` -/
@[simp] theorem State.setTile_regs (s : State) (t : Nat) (x : Tile) : (s.setTile t x).regs = s.regs := rfl
@[simp] theorem State.setTile_shadow (s : State) (t : Nat) (x : Tile) : (s.setTile t x).shadow = s.shadow := rfl
@[simp] theorem State.setTile_csrs (s : State) (t : Nat) (x : Tile) : (s.setTile t x).csrs = s.csrs := rfl
@[simp] theorem State.setTile_xregs (s : State) (t : Nat) (x : Tile) : (s.setTile t x).xregs = s.xregs := rfl
@[simp] theorem State.setTile_fregs (s : State) (t : Nat) (x : Tile) : (s.setTile t x).fregs = s.fregs := rfl
@[simp] theorem State.setTile_vregs (s : State) (t : Nat) (x : Tile) : (s.setTile t x).vregs = s.vregs := rfl
@[simp] theorem State.setTile_cores (s : State) (t : Nat) (x : Tile) : (s.setTile t x).cores = s.cores := rfl
@[simp] theorem State.setTile_tally (s : State) (t : Nat) (x : Tile) : (s.setTile t x).tally = s.tally := rfl
@[simp] theorem State.setTile_mem (s : State) (t : Nat) (x : Tile) : (s.setTile t x).mem = s.mem := rfl
@[simp] theorem State.setTile_poisonLine (s : State) (t : Nat) (x : Tile) : (s.setTile t x).poisonLine = s.poisonLine := rfl
@[simp] theorem State.setTile_poisonWord (s : State) (t : Nat) (x : Tile) : (s.setTile t x).poisonWord = s.poisonWord := rfl
@[simp] theorem State.setTile_counters (s : State) (t : Nat) (x : Tile) : (s.setTile t x).counters = s.counters := rfl
@[simp] theorem State.setTile_waits (s : State) (t : Nat) (x : Tile) : (s.setTile t x).waits = s.waits := rfl
@[simp] theorem State.setTile_arrived (s : State) (t : Nat) (x : Tile) : (s.setTile t x).arrived = s.arrived := rfl
@[simp] theorem State.setTile_flasks (s : State) (t : Nat) (x : Tile) : (s.setTile t x).flasks = s.flasks := rfl
@[simp] theorem State.setTile_pdWatch (s : State) (t : Nat) (x : Tile) : (s.setTile t x).pdWatch = s.pdWatch := rfl
@[simp] theorem State.setTile_hbm (s : State) (t : Nat) (x : Tile) : (s.setTile t x).hbm = s.hbm := rfl
@[simp] theorem State.setTile_ecrok (s : State) (t : Nat) (x : Tile) : (s.setTile t x).ecrok = s.ecrok := rfl
@[simp] theorem State.setTile_coh (s : State) (t : Nat) (x : Tile) : (s.setTile t x).coh = s.coh := rfl
@[simp] theorem State.setTile_coll (s : State) (t : Nat) (x : Tile) : (s.setTile t x).coll = s.coll := rfl
@[simp] theorem State.setTile_store (s : State) (t : Nat) (x : Tile) : (s.setTile t x).store = s.store := rfl
@[simp] theorem State.setTile_power (s : State) (t : Nat) (x : Tile) : (s.setTile t x).power = s.power := rfl
@[simp] theorem State.setTile_ports (s : State) (t : Nat) (x : Tile) : (s.setTile t x).ports = s.ports := rfl
@[simp] theorem State.setTile_ftime (s : State) (t : Nat) (x : Tile) : (s.setTile t x).ftime = s.ftime := rfl
@[simp] theorem State.setTile_lsa (s : State) (t : Nat) (x : Tile) : (s.setTile t x).lsa = s.lsa := rfl
@[simp] theorem State.setTile_repro (s : State) (t : Nat) (x : Tile) : (s.setTile t x).repro = s.repro := rfl
@[simp] theorem State.setTile_relPending (s : State) (t : Nat) (x : Tile) : (s.setTile t x).relPending = s.relPending := rfl
@[simp] theorem State.setTile_ckpts (s : State) (t : Nat) (x : Tile) : (s.setTile t x).ckpts = s.ckpts := rfl
@[simp] theorem State.setTile_promos (s : State) (t : Nat) (x : Tile) : (s.setTile t x).promos = s.promos := rfl
@[simp] theorem State.setTile_ckptHeld (s : State) (t : Nat) (x : Tile) : (s.setTile t x).ckptHeld = s.ckptHeld := rfl
@[simp] theorem State.setTile_rings (s : State) (t : Nat) (x : Tile) : (s.setTile t x).rings = s.rings := rfl
@[simp] theorem State.setTile_log (s : State) (t : Nat) (x : Tile) : (s.setTile t x).log = s.log := rfl
@[simp] theorem State.setTile_nodeTrace (s : State) (t : Nat) (x : Tile) : (s.setTile t x).nodeTrace = s.nodeTrace := rfl
@[simp] theorem State.setTile_err (s : State) (t : Nat) (x : Tile) : (s.setTile t x).err = s.err := rfl
@[simp] theorem State.setTile_traceDrain (s : State) (t : Nat) (x : Tile) : (s.setTile t x).traceDrain = s.traceDrain := rfl
@[simp] theorem State.setTile_urgentDue (s : State) (t : Nat) (x : Tile) : (s.setTile t x).urgentDue = s.urgentDue := rfl
@[simp] theorem State.setTile_queues (s : State) (t : Nat) (x : Tile) : (s.setTile t x).queues = s.queues := rfl
@[simp] theorem State.setTile_keys (s : State) (t : Nat) (x : Tile) : (s.setTile t x).keys = s.keys := rfl
@[simp] theorem State.setTile_qps (s : State) (t : Nat) (x : Tile) : (s.setTile t x).qps = s.qps := rfl
@[simp] theorem State.setTile_regions (s : State) (t : Nat) (x : Tile) : (s.setTile t x).regions = s.regions := rfl
@[simp] theorem State.setTile_pauses (s : State) (t : Nat) (x : Tile) : (s.setTile t x).pauses = s.pauses := rfl
@[simp] theorem State.setTile_pairs (s : State) (t : Nat) (x : Tile) : (s.setTile t x).pairs = s.pairs := rfl
@[simp] theorem State.setTile_dike (s : State) (t : Nat) (x : Tile) : (s.setTile t x).dike = s.dike := rfl
@[simp] theorem State.setTile_spdm (s : State) (t : Nat) (x : Tile) : (s.setTile t x).spdm = s.spdm := rfl
@[simp] theorem State.setTile_boot (s : State) (t : Nat) (x : Tile) : (s.setTile t x).boot = s.boot := rfl
@[simp] theorem State.setTile_flokan (s : State) (t : Nat) (x : Tile) : (s.setTile t x).flokan = s.flokan := rfl
@[simp] theorem State.setTile_snaps (s : State) (t : Nat) (x : Tile) : (s.setTile t x).snaps = s.snaps := rfl
@[simp] theorem State.setTile_snapPages (s : State) (t : Nat) (x : Tile) : (s.setTile t x).snapPages = s.snapPages := rfl
@[simp] theorem State.setTile_side (s : State) (t : Nat) (x : Tile) : (s.setTile t x).side = s.side := rfl
@[simp] theorem State.setTile_ctxs (s : State) (t : Nat) (x : Tile) : (s.setTile t x).ctxs = s.ctxs := rfl
@[simp] theorem State.setTile_schedEvents (s : State) (t : Nat) (x : Tile) : (s.setTile t x).schedEvents = s.schedEvents := rfl
@[simp] theorem State.setTile_out (s : State) (t : Nat) (x : Tile) : (s.setTile t x).out = s.out := rfl
@[simp] theorem State.setTile_freeCount (s : State) (t : Nat) (x : Tile) : (s.setTile t x).freeCount = s.freeCount := rfl
@[simp] theorem State.setTile_pending (s : State) (t : Nat) (x : Tile) : (s.setTile t x).pending = s.pending := rfl

/-! `setPort` -/
@[simp] theorem State.setPort_regs (s : State) (p : Nat) (l : PortLink) : (s.setPort p l).regs = s.regs := rfl
@[simp] theorem State.setPort_shadow (s : State) (p : Nat) (l : PortLink) : (s.setPort p l).shadow = s.shadow := rfl
@[simp] theorem State.setPort_csrs (s : State) (p : Nat) (l : PortLink) : (s.setPort p l).csrs = s.csrs := rfl
@[simp] theorem State.setPort_xregs (s : State) (p : Nat) (l : PortLink) : (s.setPort p l).xregs = s.xregs := rfl
@[simp] theorem State.setPort_fregs (s : State) (p : Nat) (l : PortLink) : (s.setPort p l).fregs = s.fregs := rfl
@[simp] theorem State.setPort_vregs (s : State) (p : Nat) (l : PortLink) : (s.setPort p l).vregs = s.vregs := rfl
@[simp] theorem State.setPort_cores (s : State) (p : Nat) (l : PortLink) : (s.setPort p l).cores = s.cores := rfl
@[simp] theorem State.setPort_tally (s : State) (p : Nat) (l : PortLink) : (s.setPort p l).tally = s.tally := rfl
@[simp] theorem State.setPort_mem (s : State) (p : Nat) (l : PortLink) : (s.setPort p l).mem = s.mem := rfl
@[simp] theorem State.setPort_poisonLine (s : State) (p : Nat) (l : PortLink) : (s.setPort p l).poisonLine = s.poisonLine := rfl
@[simp] theorem State.setPort_poisonWord (s : State) (p : Nat) (l : PortLink) : (s.setPort p l).poisonWord = s.poisonWord := rfl
@[simp] theorem State.setPort_counters (s : State) (p : Nat) (l : PortLink) : (s.setPort p l).counters = s.counters := rfl
@[simp] theorem State.setPort_waits (s : State) (p : Nat) (l : PortLink) : (s.setPort p l).waits = s.waits := rfl
@[simp] theorem State.setPort_arrived (s : State) (p : Nat) (l : PortLink) : (s.setPort p l).arrived = s.arrived := rfl
@[simp] theorem State.setPort_flasks (s : State) (p : Nat) (l : PortLink) : (s.setPort p l).flasks = s.flasks := rfl
@[simp] theorem State.setPort_tiles (s : State) (p : Nat) (l : PortLink) : (s.setPort p l).tiles = s.tiles := rfl
@[simp] theorem State.setPort_pdWatch (s : State) (p : Nat) (l : PortLink) : (s.setPort p l).pdWatch = s.pdWatch := rfl
@[simp] theorem State.setPort_hbm (s : State) (p : Nat) (l : PortLink) : (s.setPort p l).hbm = s.hbm := rfl
@[simp] theorem State.setPort_ecrok (s : State) (p : Nat) (l : PortLink) : (s.setPort p l).ecrok = s.ecrok := rfl
@[simp] theorem State.setPort_coh (s : State) (p : Nat) (l : PortLink) : (s.setPort p l).coh = s.coh := rfl
@[simp] theorem State.setPort_coll (s : State) (p : Nat) (l : PortLink) : (s.setPort p l).coll = s.coll := rfl
@[simp] theorem State.setPort_store (s : State) (p : Nat) (l : PortLink) : (s.setPort p l).store = s.store := rfl
@[simp] theorem State.setPort_power (s : State) (p : Nat) (l : PortLink) : (s.setPort p l).power = s.power := rfl
@[simp] theorem State.setPort_ftime (s : State) (p : Nat) (l : PortLink) : (s.setPort p l).ftime = s.ftime := rfl
@[simp] theorem State.setPort_lsa (s : State) (p : Nat) (l : PortLink) : (s.setPort p l).lsa = s.lsa := rfl
@[simp] theorem State.setPort_repro (s : State) (p : Nat) (l : PortLink) : (s.setPort p l).repro = s.repro := rfl
@[simp] theorem State.setPort_relPending (s : State) (p : Nat) (l : PortLink) : (s.setPort p l).relPending = s.relPending := rfl
@[simp] theorem State.setPort_ckpts (s : State) (p : Nat) (l : PortLink) : (s.setPort p l).ckpts = s.ckpts := rfl
@[simp] theorem State.setPort_promos (s : State) (p : Nat) (l : PortLink) : (s.setPort p l).promos = s.promos := rfl
@[simp] theorem State.setPort_ckptHeld (s : State) (p : Nat) (l : PortLink) : (s.setPort p l).ckptHeld = s.ckptHeld := rfl
@[simp] theorem State.setPort_rings (s : State) (p : Nat) (l : PortLink) : (s.setPort p l).rings = s.rings := rfl
@[simp] theorem State.setPort_log (s : State) (p : Nat) (l : PortLink) : (s.setPort p l).log = s.log := rfl
@[simp] theorem State.setPort_nodeTrace (s : State) (p : Nat) (l : PortLink) : (s.setPort p l).nodeTrace = s.nodeTrace := rfl
@[simp] theorem State.setPort_err (s : State) (p : Nat) (l : PortLink) : (s.setPort p l).err = s.err := rfl
@[simp] theorem State.setPort_traceDrain (s : State) (p : Nat) (l : PortLink) : (s.setPort p l).traceDrain = s.traceDrain := rfl
@[simp] theorem State.setPort_urgentDue (s : State) (p : Nat) (l : PortLink) : (s.setPort p l).urgentDue = s.urgentDue := rfl
@[simp] theorem State.setPort_queues (s : State) (p : Nat) (l : PortLink) : (s.setPort p l).queues = s.queues := rfl
@[simp] theorem State.setPort_keys (s : State) (p : Nat) (l : PortLink) : (s.setPort p l).keys = s.keys := rfl
@[simp] theorem State.setPort_qps (s : State) (p : Nat) (l : PortLink) : (s.setPort p l).qps = s.qps := rfl
@[simp] theorem State.setPort_regions (s : State) (p : Nat) (l : PortLink) : (s.setPort p l).regions = s.regions := rfl
@[simp] theorem State.setPort_pauses (s : State) (p : Nat) (l : PortLink) : (s.setPort p l).pauses = s.pauses := rfl
@[simp] theorem State.setPort_pairs (s : State) (p : Nat) (l : PortLink) : (s.setPort p l).pairs = s.pairs := rfl
@[simp] theorem State.setPort_dike (s : State) (p : Nat) (l : PortLink) : (s.setPort p l).dike = s.dike := rfl
@[simp] theorem State.setPort_spdm (s : State) (p : Nat) (l : PortLink) : (s.setPort p l).spdm = s.spdm := rfl
@[simp] theorem State.setPort_boot (s : State) (p : Nat) (l : PortLink) : (s.setPort p l).boot = s.boot := rfl
@[simp] theorem State.setPort_flokan (s : State) (p : Nat) (l : PortLink) : (s.setPort p l).flokan = s.flokan := rfl
@[simp] theorem State.setPort_snaps (s : State) (p : Nat) (l : PortLink) : (s.setPort p l).snaps = s.snaps := rfl
@[simp] theorem State.setPort_snapPages (s : State) (p : Nat) (l : PortLink) : (s.setPort p l).snapPages = s.snapPages := rfl
@[simp] theorem State.setPort_side (s : State) (p : Nat) (l : PortLink) : (s.setPort p l).side = s.side := rfl
@[simp] theorem State.setPort_ctxs (s : State) (p : Nat) (l : PortLink) : (s.setPort p l).ctxs = s.ctxs := rfl
@[simp] theorem State.setPort_schedEvents (s : State) (p : Nat) (l : PortLink) : (s.setPort p l).schedEvents = s.schedEvents := rfl
@[simp] theorem State.setPort_out (s : State) (p : Nat) (l : PortLink) : (s.setPort p l).out = s.out := rfl
@[simp] theorem State.setPort_freeCount (s : State) (p : Nat) (l : PortLink) : (s.setPort p l).freeCount = s.freeCount := rfl
@[simp] theorem State.setPort_pending (s : State) (p : Nat) (l : PortLink) : (s.setPort p l).pending = s.pending := rfl

/-! `setX` -/
@[simp] theorem State.setX_regs (s : State) (c r v : Nat) : (s.setX c r v).regs = s.regs := by unfold State.setX; split <;> rfl
@[simp] theorem State.setX_shadow (s : State) (c r v : Nat) : (s.setX c r v).shadow = s.shadow := by unfold State.setX; split <;> rfl
@[simp] theorem State.setX_csrs (s : State) (c r v : Nat) : (s.setX c r v).csrs = s.csrs := by unfold State.setX; split <;> rfl
@[simp] theorem State.setX_fregs (s : State) (c r v : Nat) : (s.setX c r v).fregs = s.fregs := by unfold State.setX; split <;> rfl
@[simp] theorem State.setX_vregs (s : State) (c r v : Nat) : (s.setX c r v).vregs = s.vregs := by unfold State.setX; split <;> rfl
@[simp] theorem State.setX_cores (s : State) (c r v : Nat) : (s.setX c r v).cores = s.cores := by unfold State.setX; split <;> rfl
@[simp] theorem State.setX_tally (s : State) (c r v : Nat) : (s.setX c r v).tally = s.tally := by unfold State.setX; split <;> rfl
@[simp] theorem State.setX_mem (s : State) (c r v : Nat) : (s.setX c r v).mem = s.mem := by unfold State.setX; split <;> rfl
@[simp] theorem State.setX_poisonLine (s : State) (c r v : Nat) : (s.setX c r v).poisonLine = s.poisonLine := by unfold State.setX; split <;> rfl
@[simp] theorem State.setX_poisonWord (s : State) (c r v : Nat) : (s.setX c r v).poisonWord = s.poisonWord := by unfold State.setX; split <;> rfl
@[simp] theorem State.setX_counters (s : State) (c r v : Nat) : (s.setX c r v).counters = s.counters := by unfold State.setX; split <;> rfl
@[simp] theorem State.setX_waits (s : State) (c r v : Nat) : (s.setX c r v).waits = s.waits := by unfold State.setX; split <;> rfl
@[simp] theorem State.setX_arrived (s : State) (c r v : Nat) : (s.setX c r v).arrived = s.arrived := by unfold State.setX; split <;> rfl
@[simp] theorem State.setX_flasks (s : State) (c r v : Nat) : (s.setX c r v).flasks = s.flasks := by unfold State.setX; split <;> rfl
@[simp] theorem State.setX_tiles (s : State) (c r v : Nat) : (s.setX c r v).tiles = s.tiles := by unfold State.setX; split <;> rfl
@[simp] theorem State.setX_pdWatch (s : State) (c r v : Nat) : (s.setX c r v).pdWatch = s.pdWatch := by unfold State.setX; split <;> rfl
@[simp] theorem State.setX_hbm (s : State) (c r v : Nat) : (s.setX c r v).hbm = s.hbm := by unfold State.setX; split <;> rfl
@[simp] theorem State.setX_ecrok (s : State) (c r v : Nat) : (s.setX c r v).ecrok = s.ecrok := by unfold State.setX; split <;> rfl
@[simp] theorem State.setX_coh (s : State) (c r v : Nat) : (s.setX c r v).coh = s.coh := by unfold State.setX; split <;> rfl
@[simp] theorem State.setX_coll (s : State) (c r v : Nat) : (s.setX c r v).coll = s.coll := by unfold State.setX; split <;> rfl
@[simp] theorem State.setX_store (s : State) (c r v : Nat) : (s.setX c r v).store = s.store := by unfold State.setX; split <;> rfl
@[simp] theorem State.setX_power (s : State) (c r v : Nat) : (s.setX c r v).power = s.power := by unfold State.setX; split <;> rfl
@[simp] theorem State.setX_ports (s : State) (c r v : Nat) : (s.setX c r v).ports = s.ports := by unfold State.setX; split <;> rfl
@[simp] theorem State.setX_ftime (s : State) (c r v : Nat) : (s.setX c r v).ftime = s.ftime := by unfold State.setX; split <;> rfl
@[simp] theorem State.setX_lsa (s : State) (c r v : Nat) : (s.setX c r v).lsa = s.lsa := by unfold State.setX; split <;> rfl
@[simp] theorem State.setX_repro (s : State) (c r v : Nat) : (s.setX c r v).repro = s.repro := by unfold State.setX; split <;> rfl
@[simp] theorem State.setX_relPending (s : State) (c r v : Nat) : (s.setX c r v).relPending = s.relPending := by unfold State.setX; split <;> rfl
@[simp] theorem State.setX_ckpts (s : State) (c r v : Nat) : (s.setX c r v).ckpts = s.ckpts := by unfold State.setX; split <;> rfl
@[simp] theorem State.setX_promos (s : State) (c r v : Nat) : (s.setX c r v).promos = s.promos := by unfold State.setX; split <;> rfl
@[simp] theorem State.setX_ckptHeld (s : State) (c r v : Nat) : (s.setX c r v).ckptHeld = s.ckptHeld := by unfold State.setX; split <;> rfl
@[simp] theorem State.setX_rings (s : State) (c r v : Nat) : (s.setX c r v).rings = s.rings := by unfold State.setX; split <;> rfl
@[simp] theorem State.setX_log (s : State) (c r v : Nat) : (s.setX c r v).log = s.log := by unfold State.setX; split <;> rfl
@[simp] theorem State.setX_nodeTrace (s : State) (c r v : Nat) : (s.setX c r v).nodeTrace = s.nodeTrace := by unfold State.setX; split <;> rfl
@[simp] theorem State.setX_err (s : State) (c r v : Nat) : (s.setX c r v).err = s.err := by unfold State.setX; split <;> rfl
@[simp] theorem State.setX_traceDrain (s : State) (c r v : Nat) : (s.setX c r v).traceDrain = s.traceDrain := by unfold State.setX; split <;> rfl
@[simp] theorem State.setX_urgentDue (s : State) (c r v : Nat) : (s.setX c r v).urgentDue = s.urgentDue := by unfold State.setX; split <;> rfl
@[simp] theorem State.setX_queues (s : State) (c r v : Nat) : (s.setX c r v).queues = s.queues := by unfold State.setX; split <;> rfl
@[simp] theorem State.setX_keys (s : State) (c r v : Nat) : (s.setX c r v).keys = s.keys := by unfold State.setX; split <;> rfl
@[simp] theorem State.setX_qps (s : State) (c r v : Nat) : (s.setX c r v).qps = s.qps := by unfold State.setX; split <;> rfl
@[simp] theorem State.setX_regions (s : State) (c r v : Nat) : (s.setX c r v).regions = s.regions := by unfold State.setX; split <;> rfl
@[simp] theorem State.setX_pauses (s : State) (c r v : Nat) : (s.setX c r v).pauses = s.pauses := by unfold State.setX; split <;> rfl
@[simp] theorem State.setX_pairs (s : State) (c r v : Nat) : (s.setX c r v).pairs = s.pairs := by unfold State.setX; split <;> rfl
@[simp] theorem State.setX_dike (s : State) (c r v : Nat) : (s.setX c r v).dike = s.dike := by unfold State.setX; split <;> rfl
@[simp] theorem State.setX_spdm (s : State) (c r v : Nat) : (s.setX c r v).spdm = s.spdm := by unfold State.setX; split <;> rfl
@[simp] theorem State.setX_boot (s : State) (c r v : Nat) : (s.setX c r v).boot = s.boot := by unfold State.setX; split <;> rfl
@[simp] theorem State.setX_flokan (s : State) (c r v : Nat) : (s.setX c r v).flokan = s.flokan := by unfold State.setX; split <;> rfl
@[simp] theorem State.setX_snaps (s : State) (c r v : Nat) : (s.setX c r v).snaps = s.snaps := by unfold State.setX; split <;> rfl
@[simp] theorem State.setX_snapPages (s : State) (c r v : Nat) : (s.setX c r v).snapPages = s.snapPages := by unfold State.setX; split <;> rfl
@[simp] theorem State.setX_side (s : State) (c r v : Nat) : (s.setX c r v).side = s.side := by unfold State.setX; split <;> rfl
@[simp] theorem State.setX_ctxs (s : State) (c r v : Nat) : (s.setX c r v).ctxs = s.ctxs := by unfold State.setX; split <;> rfl
@[simp] theorem State.setX_schedEvents (s : State) (c r v : Nat) : (s.setX c r v).schedEvents = s.schedEvents := by unfold State.setX; split <;> rfl
@[simp] theorem State.setX_out (s : State) (c r v : Nat) : (s.setX c r v).out = s.out := by unfold State.setX; split <;> rfl
@[simp] theorem State.setX_freeCount (s : State) (c r v : Nat) : (s.setX c r v).freeCount = s.freeCount := by unfold State.setX; split <;> rfl
@[simp] theorem State.setX_pending (s : State) (c r v : Nat) : (s.setX c r v).pending = s.pending := by unfold State.setX; split <;> rfl

end Sys2Proof.Machine
end

