-- ==== Sys2Proof/Laws/Read.lean ====
section
/-! SUPPORT. What reading a part of the state gives after each plain update: the value just written, and the old value
everywhere else. -/
namespace Sys2Proof.Machine
@[simp] theorem State.core_setF (s : State) (d : FieldDesc) (p i v : Nat) (z : Nat) : (s.setF d p i v).core z = s.core z := rfl
@[simp] theorem State.csr_setF (s : State) (d : FieldDesc) (p i v : Nat) (z y : Nat) : (s.setF d p i v).csr z y = s.csr z y := rfl
@[simp] theorem State.xreg_setF (s : State) (d : FieldDesc) (p i v : Nat) (z y : Nat) : (s.setF d p i v).xreg z y = s.xreg z y := rfl
@[simp] theorem State.ctx_setF (s : State) (d : FieldDesc) (p i v : Nat) (z : Nat) : (s.setF d p i v).ctx z = s.ctx z := rfl
@[simp] theorem State.flask_setF (s : State) (d : FieldDesc) (p i v : Nat) (z : Nat) : (s.setF d p i v).flask z = s.flask z := rfl
@[simp] theorem State.tile_setF (s : State) (d : FieldDesc) (p i v : Nat) (z : Nat) : (s.setF d p i v).tile z = s.tile z := rfl
@[simp] theorem State.counter_setF (s : State) (d : FieldDesc) (p i v : Nat) (z : Nat) : (s.setF d p i v).counter z = s.counter z := rfl
@[simp] theorem State.qp_setF (s : State) (d : FieldDesc) (p i v : Nat) (z : Nat) : (s.setF d p i v).qp z = s.qp z := rfl
@[simp] theorem State.queue_setF (s : State) (d : FieldDesc) (p i v : Nat) (z : Nat) : (s.setF d p i v).queue z = s.queue z := rfl
@[simp] theorem State.pause_setF (s : State) (d : FieldDesc) (p i v : Nat) (z : Nat) : (s.setF d p i v).pause z = s.pause z := rfl
@[simp] theorem State.port_setF (s : State) (d : FieldDesc) (p i v : Nat) (z : Nat) : (s.setF d p i v).port z = s.port z := rfl
@[simp] theorem State.ring_setF (s : State) (d : FieldDesc) (p i v : Nat) (z y : Nat) : (s.setF d p i v).ring z y = s.ring z y := rfl
@[simp] theorem State.desc_setF (s : State) (d : FieldDesc) (p i v : Nat) (z y : Nat) : (s.setF d p i v).desc z y = s.desc z y := rfl
@[simp] theorem State.bytes_setF (s : State) (d : FieldDesc) (p i v : Nat) (z y : Nat) : (s.setF d p i v).bytes z y = s.bytes z y := rfl
@[simp] theorem State.loadNat_setF (s : State) (d : FieldDesc) (p i v : Nat) (z y : Nat) : (s.setF d p i v).loadNat z y = s.loadNat z y := rfl
@[simp] theorem State.core_addF (s : State) (d : FieldDesc) (p i n : Nat) (z : Nat) : (s.addF d p i n).core z = s.core z := rfl
@[simp] theorem State.csr_addF (s : State) (d : FieldDesc) (p i n : Nat) (z y : Nat) : (s.addF d p i n).csr z y = s.csr z y := rfl
@[simp] theorem State.xreg_addF (s : State) (d : FieldDesc) (p i n : Nat) (z y : Nat) : (s.addF d p i n).xreg z y = s.xreg z y := rfl
@[simp] theorem State.ctx_addF (s : State) (d : FieldDesc) (p i n : Nat) (z : Nat) : (s.addF d p i n).ctx z = s.ctx z := rfl
@[simp] theorem State.flask_addF (s : State) (d : FieldDesc) (p i n : Nat) (z : Nat) : (s.addF d p i n).flask z = s.flask z := rfl
@[simp] theorem State.tile_addF (s : State) (d : FieldDesc) (p i n : Nat) (z : Nat) : (s.addF d p i n).tile z = s.tile z := rfl
@[simp] theorem State.counter_addF (s : State) (d : FieldDesc) (p i n : Nat) (z : Nat) : (s.addF d p i n).counter z = s.counter z := rfl
@[simp] theorem State.qp_addF (s : State) (d : FieldDesc) (p i n : Nat) (z : Nat) : (s.addF d p i n).qp z = s.qp z := rfl
@[simp] theorem State.queue_addF (s : State) (d : FieldDesc) (p i n : Nat) (z : Nat) : (s.addF d p i n).queue z = s.queue z := rfl
@[simp] theorem State.pause_addF (s : State) (d : FieldDesc) (p i n : Nat) (z : Nat) : (s.addF d p i n).pause z = s.pause z := rfl
@[simp] theorem State.port_addF (s : State) (d : FieldDesc) (p i n : Nat) (z : Nat) : (s.addF d p i n).port z = s.port z := rfl
@[simp] theorem State.ring_addF (s : State) (d : FieldDesc) (p i n : Nat) (z y : Nat) : (s.addF d p i n).ring z y = s.ring z y := rfl
@[simp] theorem State.desc_addF (s : State) (d : FieldDesc) (p i n : Nat) (z y : Nat) : (s.addF d p i n).desc z y = s.desc z y := rfl
@[simp] theorem State.bytes_addF (s : State) (d : FieldDesc) (p i n : Nat) (z y : Nat) : (s.addF d p i n).bytes z y = s.bytes z y := rfl
@[simp] theorem State.loadNat_addF (s : State) (d : FieldDesc) (p i n : Nat) (z y : Nat) : (s.addF d p i n).loadNat z y = s.loadNat z y := rfl
@[simp] theorem State.core_clearF (s : State) (d : FieldDesc) (p i : Nat) (z : Nat) : (s.clearF d p i).core z = s.core z := rfl
@[simp] theorem State.csr_clearF (s : State) (d : FieldDesc) (p i : Nat) (z y : Nat) : (s.clearF d p i).csr z y = s.csr z y := rfl
@[simp] theorem State.xreg_clearF (s : State) (d : FieldDesc) (p i : Nat) (z y : Nat) : (s.clearF d p i).xreg z y = s.xreg z y := rfl
@[simp] theorem State.ctx_clearF (s : State) (d : FieldDesc) (p i : Nat) (z : Nat) : (s.clearF d p i).ctx z = s.ctx z := rfl
@[simp] theorem State.flask_clearF (s : State) (d : FieldDesc) (p i : Nat) (z : Nat) : (s.clearF d p i).flask z = s.flask z := rfl
@[simp] theorem State.tile_clearF (s : State) (d : FieldDesc) (p i : Nat) (z : Nat) : (s.clearF d p i).tile z = s.tile z := rfl
@[simp] theorem State.counter_clearF (s : State) (d : FieldDesc) (p i : Nat) (z : Nat) : (s.clearF d p i).counter z = s.counter z := rfl
@[simp] theorem State.qp_clearF (s : State) (d : FieldDesc) (p i : Nat) (z : Nat) : (s.clearF d p i).qp z = s.qp z := rfl
@[simp] theorem State.queue_clearF (s : State) (d : FieldDesc) (p i : Nat) (z : Nat) : (s.clearF d p i).queue z = s.queue z := rfl
@[simp] theorem State.pause_clearF (s : State) (d : FieldDesc) (p i : Nat) (z : Nat) : (s.clearF d p i).pause z = s.pause z := rfl
@[simp] theorem State.port_clearF (s : State) (d : FieldDesc) (p i : Nat) (z : Nat) : (s.clearF d p i).port z = s.port z := rfl
@[simp] theorem State.ring_clearF (s : State) (d : FieldDesc) (p i : Nat) (z y : Nat) : (s.clearF d p i).ring z y = s.ring z y := rfl
@[simp] theorem State.desc_clearF (s : State) (d : FieldDesc) (p i : Nat) (z y : Nat) : (s.clearF d p i).desc z y = s.desc z y := rfl
@[simp] theorem State.bytes_clearF (s : State) (d : FieldDesc) (p i : Nat) (z y : Nat) : (s.clearF d p i).bytes z y = s.bytes z y := rfl
@[simp] theorem State.loadNat_clearF (s : State) (d : FieldDesc) (p i : Nat) (z y : Nat) : (s.clearF d p i).loadNat z y = s.loadNat z y := rfl
@[simp] theorem State.getF_setCore (s : State) (c : Nat) (k : CoreState) (fd : FieldDesc) (pg ix : Nat) : (s.setCore c k).getF fd pg ix = s.getF fd pg ix := rfl
@[simp] theorem State.csr_setCore (s : State) (c : Nat) (k : CoreState) (z y : Nat) : (s.setCore c k).csr z y = s.csr z y := rfl
@[simp] theorem State.xreg_setCore (s : State) (c : Nat) (k : CoreState) (z y : Nat) : (s.setCore c k).xreg z y = s.xreg z y := rfl
@[simp] theorem State.ctx_setCore (s : State) (c : Nat) (k : CoreState) (z : Nat) : (s.setCore c k).ctx z = s.ctx z := rfl
@[simp] theorem State.flask_setCore (s : State) (c : Nat) (k : CoreState) (z : Nat) : (s.setCore c k).flask z = s.flask z := rfl
@[simp] theorem State.tile_setCore (s : State) (c : Nat) (k : CoreState) (z : Nat) : (s.setCore c k).tile z = s.tile z := rfl
@[simp] theorem State.counter_setCore (s : State) (c : Nat) (k : CoreState) (z : Nat) : (s.setCore c k).counter z = s.counter z := rfl
@[simp] theorem State.qp_setCore (s : State) (c : Nat) (k : CoreState) (z : Nat) : (s.setCore c k).qp z = s.qp z := rfl
@[simp] theorem State.queue_setCore (s : State) (c : Nat) (k : CoreState) (z : Nat) : (s.setCore c k).queue z = s.queue z := rfl
@[simp] theorem State.pause_setCore (s : State) (c : Nat) (k : CoreState) (z : Nat) : (s.setCore c k).pause z = s.pause z := rfl
@[simp] theorem State.port_setCore (s : State) (c : Nat) (k : CoreState) (z : Nat) : (s.setCore c k).port z = s.port z := rfl
@[simp] theorem State.ring_setCore (s : State) (c : Nat) (k : CoreState) (z y : Nat) : (s.setCore c k).ring z y = s.ring z y := rfl
@[simp] theorem State.now_setCore (s : State) (c : Nat) (k : CoreState)  : (s.setCore c k).now = s.now := rfl
@[simp] theorem State.desc_setCore (s : State) (c : Nat) (k : CoreState) (z y : Nat) : (s.setCore c k).desc z y = s.desc z y := rfl
@[simp] theorem State.ctxState_setCore (s : State) (c : Nat) (k : CoreState) (z : Nat) : (s.setCore c k).ctxState z = s.ctxState z := rfl
@[simp] theorem State.pstate_setCore (s : State) (c : Nat) (k : CoreState) (z : Nat) : (s.setCore c k).pstate z = s.pstate z := rfl
@[simp] theorem State.bytes_setCore (s : State) (c : Nat) (k : CoreState) (z y : Nat) : (s.setCore c k).bytes z y = s.bytes z y := rfl
@[simp] theorem State.loadNat_setCore (s : State) (c : Nat) (k : CoreState) (z y : Nat) : (s.setCore c k).loadNat z y = s.loadNat z y := rfl
@[simp] theorem State.getF_trap (s : State) (c cause tval : Nat) (fd : FieldDesc) (pg ix : Nat) : (s.trap c cause tval).getF fd pg ix = s.getF fd pg ix := rfl
@[simp] theorem State.csr_trap (s : State) (c cause tval : Nat) (z y : Nat) : (s.trap c cause tval).csr z y = s.csr z y := rfl
@[simp] theorem State.xreg_trap (s : State) (c cause tval : Nat) (z y : Nat) : (s.trap c cause tval).xreg z y = s.xreg z y := rfl
@[simp] theorem State.ctx_trap (s : State) (c cause tval : Nat) (z : Nat) : (s.trap c cause tval).ctx z = s.ctx z := rfl
@[simp] theorem State.flask_trap (s : State) (c cause tval : Nat) (z : Nat) : (s.trap c cause tval).flask z = s.flask z := rfl
@[simp] theorem State.tile_trap (s : State) (c cause tval : Nat) (z : Nat) : (s.trap c cause tval).tile z = s.tile z := rfl
@[simp] theorem State.counter_trap (s : State) (c cause tval : Nat) (z : Nat) : (s.trap c cause tval).counter z = s.counter z := rfl
@[simp] theorem State.qp_trap (s : State) (c cause tval : Nat) (z : Nat) : (s.trap c cause tval).qp z = s.qp z := rfl
@[simp] theorem State.queue_trap (s : State) (c cause tval : Nat) (z : Nat) : (s.trap c cause tval).queue z = s.queue z := rfl
@[simp] theorem State.pause_trap (s : State) (c cause tval : Nat) (z : Nat) : (s.trap c cause tval).pause z = s.pause z := rfl
@[simp] theorem State.port_trap (s : State) (c cause tval : Nat) (z : Nat) : (s.trap c cause tval).port z = s.port z := rfl
@[simp] theorem State.ring_trap (s : State) (c cause tval : Nat) (z y : Nat) : (s.trap c cause tval).ring z y = s.ring z y := rfl
@[simp] theorem State.now_trap (s : State) (c cause tval : Nat)  : (s.trap c cause tval).now = s.now := rfl
@[simp] theorem State.desc_trap (s : State) (c cause tval : Nat) (z y : Nat) : (s.trap c cause tval).desc z y = s.desc z y := rfl
@[simp] theorem State.ctxState_trap (s : State) (c cause tval : Nat) (z : Nat) : (s.trap c cause tval).ctxState z = s.ctxState z := rfl
@[simp] theorem State.pstate_trap (s : State) (c cause tval : Nat) (z : Nat) : (s.trap c cause tval).pstate z = s.pstate z := rfl
@[simp] theorem State.bytes_trap (s : State) (c cause tval : Nat) (z y : Nat) : (s.trap c cause tval).bytes z y = s.bytes z y := rfl
@[simp] theorem State.loadNat_trap (s : State) (c cause tval : Nat) (z y : Nat) : (s.trap c cause tval).loadNat z y = s.loadNat z y := rfl
@[simp] theorem State.getF_block (s : State) (c : Nat) (b : Blocked) (fd : FieldDesc) (pg ix : Nat) : (s.block c b).getF fd pg ix = s.getF fd pg ix := rfl
@[simp] theorem State.csr_block (s : State) (c : Nat) (b : Blocked) (z y : Nat) : (s.block c b).csr z y = s.csr z y := rfl
@[simp] theorem State.xreg_block (s : State) (c : Nat) (b : Blocked) (z y : Nat) : (s.block c b).xreg z y = s.xreg z y := rfl
@[simp] theorem State.ctx_block (s : State) (c : Nat) (b : Blocked) (z : Nat) : (s.block c b).ctx z = s.ctx z := rfl
@[simp] theorem State.flask_block (s : State) (c : Nat) (b : Blocked) (z : Nat) : (s.block c b).flask z = s.flask z := rfl
@[simp] theorem State.tile_block (s : State) (c : Nat) (b : Blocked) (z : Nat) : (s.block c b).tile z = s.tile z := rfl
@[simp] theorem State.counter_block (s : State) (c : Nat) (b : Blocked) (z : Nat) : (s.block c b).counter z = s.counter z := rfl
@[simp] theorem State.qp_block (s : State) (c : Nat) (b : Blocked) (z : Nat) : (s.block c b).qp z = s.qp z := rfl
@[simp] theorem State.queue_block (s : State) (c : Nat) (b : Blocked) (z : Nat) : (s.block c b).queue z = s.queue z := rfl
@[simp] theorem State.pause_block (s : State) (c : Nat) (b : Blocked) (z : Nat) : (s.block c b).pause z = s.pause z := rfl
@[simp] theorem State.port_block (s : State) (c : Nat) (b : Blocked) (z : Nat) : (s.block c b).port z = s.port z := rfl
@[simp] theorem State.ring_block (s : State) (c : Nat) (b : Blocked) (z y : Nat) : (s.block c b).ring z y = s.ring z y := rfl
@[simp] theorem State.now_block (s : State) (c : Nat) (b : Blocked)  : (s.block c b).now = s.now := rfl
@[simp] theorem State.desc_block (s : State) (c : Nat) (b : Blocked) (z y : Nat) : (s.block c b).desc z y = s.desc z y := rfl
@[simp] theorem State.ctxState_block (s : State) (c : Nat) (b : Blocked) (z : Nat) : (s.block c b).ctxState z = s.ctxState z := rfl
@[simp] theorem State.pstate_block (s : State) (c : Nat) (b : Blocked) (z : Nat) : (s.block c b).pstate z = s.pstate z := rfl
@[simp] theorem State.bytes_block (s : State) (c : Nat) (b : Blocked) (z y : Nat) : (s.block c b).bytes z y = s.bytes z y := rfl
@[simp] theorem State.loadNat_block (s : State) (c : Nat) (b : Blocked) (z y : Nat) : (s.block c b).loadNat z y = s.loadNat z y := rfl
@[simp] theorem State.getF_setCsr (s : State) (c n v : Nat) (fd : FieldDesc) (pg ix : Nat) : (s.setCsr c n v).getF fd pg ix = s.getF fd pg ix := rfl
@[simp] theorem State.core_setCsr (s : State) (c n v : Nat) (z : Nat) : (s.setCsr c n v).core z = s.core z := rfl
@[simp] theorem State.xreg_setCsr (s : State) (c n v : Nat) (z y : Nat) : (s.setCsr c n v).xreg z y = s.xreg z y := rfl
@[simp] theorem State.ctx_setCsr (s : State) (c n v : Nat) (z : Nat) : (s.setCsr c n v).ctx z = s.ctx z := rfl
@[simp] theorem State.flask_setCsr (s : State) (c n v : Nat) (z : Nat) : (s.setCsr c n v).flask z = s.flask z := rfl
@[simp] theorem State.tile_setCsr (s : State) (c n v : Nat) (z : Nat) : (s.setCsr c n v).tile z = s.tile z := rfl
@[simp] theorem State.counter_setCsr (s : State) (c n v : Nat) (z : Nat) : (s.setCsr c n v).counter z = s.counter z := rfl
@[simp] theorem State.qp_setCsr (s : State) (c n v : Nat) (z : Nat) : (s.setCsr c n v).qp z = s.qp z := rfl
@[simp] theorem State.queue_setCsr (s : State) (c n v : Nat) (z : Nat) : (s.setCsr c n v).queue z = s.queue z := rfl
@[simp] theorem State.pause_setCsr (s : State) (c n v : Nat) (z : Nat) : (s.setCsr c n v).pause z = s.pause z := rfl
@[simp] theorem State.port_setCsr (s : State) (c n v : Nat) (z : Nat) : (s.setCsr c n v).port z = s.port z := rfl
@[simp] theorem State.ring_setCsr (s : State) (c n v : Nat) (z y : Nat) : (s.setCsr c n v).ring z y = s.ring z y := rfl
@[simp] theorem State.now_setCsr (s : State) (c n v : Nat)  : (s.setCsr c n v).now = s.now := rfl
@[simp] theorem State.ctxState_setCsr (s : State) (c n v : Nat) (z : Nat) : (s.setCsr c n v).ctxState z = s.ctxState z := rfl
@[simp] theorem State.pstate_setCsr (s : State) (c n v : Nat) (z : Nat) : (s.setCsr c n v).pstate z = s.pstate z := rfl
@[simp] theorem State.bytes_setCsr (s : State) (c n v : Nat) (z y : Nat) : (s.setCsr c n v).bytes z y = s.bytes z y := rfl
@[simp] theorem State.loadNat_setCsr (s : State) (c n v : Nat) (z y : Nat) : (s.setCsr c n v).loadNat z y = s.loadNat z y := rfl
@[simp] theorem State.getF_setCtx (s : State) (c : Nat) (x : Ctx) (fd : FieldDesc) (pg ix : Nat) : (s.setCtx c x).getF fd pg ix = s.getF fd pg ix := rfl
@[simp] theorem State.core_setCtx (s : State) (c : Nat) (x : Ctx) (z : Nat) : (s.setCtx c x).core z = s.core z := rfl
@[simp] theorem State.csr_setCtx (s : State) (c : Nat) (x : Ctx) (z y : Nat) : (s.setCtx c x).csr z y = s.csr z y := rfl
@[simp] theorem State.xreg_setCtx (s : State) (c : Nat) (x : Ctx) (z y : Nat) : (s.setCtx c x).xreg z y = s.xreg z y := rfl
@[simp] theorem State.flask_setCtx (s : State) (c : Nat) (x : Ctx) (z : Nat) : (s.setCtx c x).flask z = s.flask z := rfl
@[simp] theorem State.tile_setCtx (s : State) (c : Nat) (x : Ctx) (z : Nat) : (s.setCtx c x).tile z = s.tile z := rfl
@[simp] theorem State.counter_setCtx (s : State) (c : Nat) (x : Ctx) (z : Nat) : (s.setCtx c x).counter z = s.counter z := rfl
@[simp] theorem State.qp_setCtx (s : State) (c : Nat) (x : Ctx) (z : Nat) : (s.setCtx c x).qp z = s.qp z := rfl
@[simp] theorem State.queue_setCtx (s : State) (c : Nat) (x : Ctx) (z : Nat) : (s.setCtx c x).queue z = s.queue z := rfl
@[simp] theorem State.pause_setCtx (s : State) (c : Nat) (x : Ctx) (z : Nat) : (s.setCtx c x).pause z = s.pause z := rfl
@[simp] theorem State.port_setCtx (s : State) (c : Nat) (x : Ctx) (z : Nat) : (s.setCtx c x).port z = s.port z := rfl
@[simp] theorem State.ring_setCtx (s : State) (c : Nat) (x : Ctx) (z y : Nat) : (s.setCtx c x).ring z y = s.ring z y := rfl
@[simp] theorem State.now_setCtx (s : State) (c : Nat) (x : Ctx)  : (s.setCtx c x).now = s.now := rfl
@[simp] theorem State.desc_setCtx (s : State) (c : Nat) (x : Ctx) (z y : Nat) : (s.setCtx c x).desc z y = s.desc z y := rfl
@[simp] theorem State.ctxState_setCtx (s : State) (c : Nat) (x : Ctx) (z : Nat) : (s.setCtx c x).ctxState z = s.ctxState z := rfl
@[simp] theorem State.pstate_setCtx (s : State) (c : Nat) (x : Ctx) (z : Nat) : (s.setCtx c x).pstate z = s.pstate z := rfl
@[simp] theorem State.bytes_setCtx (s : State) (c : Nat) (x : Ctx) (z y : Nat) : (s.setCtx c x).bytes z y = s.bytes z y := rfl
@[simp] theorem State.loadNat_setCtx (s : State) (c : Nat) (x : Ctx) (z y : Nat) : (s.setCtx c x).loadNat z y = s.loadNat z y := rfl
@[simp] theorem State.getF_putBytes (s : State) (a : Nat) (bs : List Byte) (fd : FieldDesc) (pg ix : Nat) : (s.putBytes a bs).getF fd pg ix = s.getF fd pg ix := rfl
@[simp] theorem State.core_putBytes (s : State) (a : Nat) (bs : List Byte) (z : Nat) : (s.putBytes a bs).core z = s.core z := rfl
@[simp] theorem State.csr_putBytes (s : State) (a : Nat) (bs : List Byte) (z y : Nat) : (s.putBytes a bs).csr z y = s.csr z y := rfl
@[simp] theorem State.xreg_putBytes (s : State) (a : Nat) (bs : List Byte) (z y : Nat) : (s.putBytes a bs).xreg z y = s.xreg z y := rfl
@[simp] theorem State.ctx_putBytes (s : State) (a : Nat) (bs : List Byte) (z : Nat) : (s.putBytes a bs).ctx z = s.ctx z := rfl
@[simp] theorem State.flask_putBytes (s : State) (a : Nat) (bs : List Byte) (z : Nat) : (s.putBytes a bs).flask z = s.flask z := rfl
@[simp] theorem State.tile_putBytes (s : State) (a : Nat) (bs : List Byte) (z : Nat) : (s.putBytes a bs).tile z = s.tile z := rfl
@[simp] theorem State.counter_putBytes (s : State) (a : Nat) (bs : List Byte) (z : Nat) : (s.putBytes a bs).counter z = s.counter z := rfl
@[simp] theorem State.qp_putBytes (s : State) (a : Nat) (bs : List Byte) (z : Nat) : (s.putBytes a bs).qp z = s.qp z := rfl
@[simp] theorem State.queue_putBytes (s : State) (a : Nat) (bs : List Byte) (z : Nat) : (s.putBytes a bs).queue z = s.queue z := rfl
@[simp] theorem State.pause_putBytes (s : State) (a : Nat) (bs : List Byte) (z : Nat) : (s.putBytes a bs).pause z = s.pause z := rfl
@[simp] theorem State.port_putBytes (s : State) (a : Nat) (bs : List Byte) (z : Nat) : (s.putBytes a bs).port z = s.port z := rfl
@[simp] theorem State.ring_putBytes (s : State) (a : Nat) (bs : List Byte) (z y : Nat) : (s.putBytes a bs).ring z y = s.ring z y := rfl
@[simp] theorem State.now_putBytes (s : State) (a : Nat) (bs : List Byte)  : (s.putBytes a bs).now = s.now := rfl
@[simp] theorem State.desc_putBytes (s : State) (a : Nat) (bs : List Byte) (z y : Nat) : (s.putBytes a bs).desc z y = s.desc z y := rfl
@[simp] theorem State.ctxState_putBytes (s : State) (a : Nat) (bs : List Byte) (z : Nat) : (s.putBytes a bs).ctxState z = s.ctxState z := rfl
@[simp] theorem State.pstate_putBytes (s : State) (a : Nat) (bs : List Byte) (z : Nat) : (s.putBytes a bs).pstate z = s.pstate z := rfl
@[simp] theorem State.getF_storeBytes (s : State) (a : Nat) (bs : List Byte) (p : Bool) (fd : FieldDesc) (pg ix : Nat) : (s.storeBytes a bs p).getF fd pg ix = s.getF fd pg ix := rfl
@[simp] theorem State.core_storeBytes (s : State) (a : Nat) (bs : List Byte) (p : Bool) (z : Nat) : (s.storeBytes a bs p).core z = s.core z := rfl
@[simp] theorem State.csr_storeBytes (s : State) (a : Nat) (bs : List Byte) (p : Bool) (z y : Nat) : (s.storeBytes a bs p).csr z y = s.csr z y := rfl
@[simp] theorem State.xreg_storeBytes (s : State) (a : Nat) (bs : List Byte) (p : Bool) (z y : Nat) : (s.storeBytes a bs p).xreg z y = s.xreg z y := rfl
@[simp] theorem State.ctx_storeBytes (s : State) (a : Nat) (bs : List Byte) (p : Bool) (z : Nat) : (s.storeBytes a bs p).ctx z = s.ctx z := rfl
@[simp] theorem State.flask_storeBytes (s : State) (a : Nat) (bs : List Byte) (p : Bool) (z : Nat) : (s.storeBytes a bs p).flask z = s.flask z := rfl
@[simp] theorem State.tile_storeBytes (s : State) (a : Nat) (bs : List Byte) (p : Bool) (z : Nat) : (s.storeBytes a bs p).tile z = s.tile z := rfl
@[simp] theorem State.counter_storeBytes (s : State) (a : Nat) (bs : List Byte) (p : Bool) (z : Nat) : (s.storeBytes a bs p).counter z = s.counter z := rfl
@[simp] theorem State.qp_storeBytes (s : State) (a : Nat) (bs : List Byte) (p : Bool) (z : Nat) : (s.storeBytes a bs p).qp z = s.qp z := rfl
@[simp] theorem State.queue_storeBytes (s : State) (a : Nat) (bs : List Byte) (p : Bool) (z : Nat) : (s.storeBytes a bs p).queue z = s.queue z := rfl
@[simp] theorem State.pause_storeBytes (s : State) (a : Nat) (bs : List Byte) (p : Bool) (z : Nat) : (s.storeBytes a bs p).pause z = s.pause z := rfl
@[simp] theorem State.port_storeBytes (s : State) (a : Nat) (bs : List Byte) (p : Bool) (z : Nat) : (s.storeBytes a bs p).port z = s.port z := rfl
@[simp] theorem State.ring_storeBytes (s : State) (a : Nat) (bs : List Byte) (p : Bool) (z y : Nat) : (s.storeBytes a bs p).ring z y = s.ring z y := rfl
@[simp] theorem State.now_storeBytes (s : State) (a : Nat) (bs : List Byte) (p : Bool)  : (s.storeBytes a bs p).now = s.now := rfl
@[simp] theorem State.desc_storeBytes (s : State) (a : Nat) (bs : List Byte) (p : Bool) (z y : Nat) : (s.storeBytes a bs p).desc z y = s.desc z y := rfl
@[simp] theorem State.ctxState_storeBytes (s : State) (a : Nat) (bs : List Byte) (p : Bool) (z : Nat) : (s.storeBytes a bs p).ctxState z = s.ctxState z := rfl
@[simp] theorem State.pstate_storeBytes (s : State) (a : Nat) (bs : List Byte) (p : Bool) (z : Nat) : (s.storeBytes a bs p).pstate z = s.pstate z := rfl
@[simp] theorem State.getF_hbmBytes (s : State) (a : Nat) (bs : List Byte) (p : Bool) (fd : FieldDesc) (pg ix : Nat) : (s.hbmBytes a bs p).getF fd pg ix = s.getF fd pg ix := rfl
@[simp] theorem State.core_hbmBytes (s : State) (a : Nat) (bs : List Byte) (p : Bool) (z : Nat) : (s.hbmBytes a bs p).core z = s.core z := rfl
@[simp] theorem State.csr_hbmBytes (s : State) (a : Nat) (bs : List Byte) (p : Bool) (z y : Nat) : (s.hbmBytes a bs p).csr z y = s.csr z y := rfl
@[simp] theorem State.xreg_hbmBytes (s : State) (a : Nat) (bs : List Byte) (p : Bool) (z y : Nat) : (s.hbmBytes a bs p).xreg z y = s.xreg z y := rfl
@[simp] theorem State.ctx_hbmBytes (s : State) (a : Nat) (bs : List Byte) (p : Bool) (z : Nat) : (s.hbmBytes a bs p).ctx z = s.ctx z := rfl
@[simp] theorem State.flask_hbmBytes (s : State) (a : Nat) (bs : List Byte) (p : Bool) (z : Nat) : (s.hbmBytes a bs p).flask z = s.flask z := rfl
@[simp] theorem State.tile_hbmBytes (s : State) (a : Nat) (bs : List Byte) (p : Bool) (z : Nat) : (s.hbmBytes a bs p).tile z = s.tile z := rfl
@[simp] theorem State.counter_hbmBytes (s : State) (a : Nat) (bs : List Byte) (p : Bool) (z : Nat) : (s.hbmBytes a bs p).counter z = s.counter z := rfl
@[simp] theorem State.qp_hbmBytes (s : State) (a : Nat) (bs : List Byte) (p : Bool) (z : Nat) : (s.hbmBytes a bs p).qp z = s.qp z := rfl
@[simp] theorem State.queue_hbmBytes (s : State) (a : Nat) (bs : List Byte) (p : Bool) (z : Nat) : (s.hbmBytes a bs p).queue z = s.queue z := rfl
@[simp] theorem State.pause_hbmBytes (s : State) (a : Nat) (bs : List Byte) (p : Bool) (z : Nat) : (s.hbmBytes a bs p).pause z = s.pause z := rfl
@[simp] theorem State.port_hbmBytes (s : State) (a : Nat) (bs : List Byte) (p : Bool) (z : Nat) : (s.hbmBytes a bs p).port z = s.port z := rfl
@[simp] theorem State.ring_hbmBytes (s : State) (a : Nat) (bs : List Byte) (p : Bool) (z y : Nat) : (s.hbmBytes a bs p).ring z y = s.ring z y := rfl
@[simp] theorem State.now_hbmBytes (s : State) (a : Nat) (bs : List Byte) (p : Bool)  : (s.hbmBytes a bs p).now = s.now := rfl
@[simp] theorem State.desc_hbmBytes (s : State) (a : Nat) (bs : List Byte) (p : Bool) (z y : Nat) : (s.hbmBytes a bs p).desc z y = s.desc z y := rfl
@[simp] theorem State.ctxState_hbmBytes (s : State) (a : Nat) (bs : List Byte) (p : Bool) (z : Nat) : (s.hbmBytes a bs p).ctxState z = s.ctxState z := rfl
@[simp] theorem State.pstate_hbmBytes (s : State) (a : Nat) (bs : List Byte) (p : Bool) (z : Nat) : (s.hbmBytes a bs p).pstate z = s.pstate z := rfl
@[simp] theorem State.getF_zeroRange (s : State) (lo hi : Nat) (fd : FieldDesc) (pg ix : Nat) : (s.zeroRange lo hi).getF fd pg ix = s.getF fd pg ix := rfl
@[simp] theorem State.core_zeroRange (s : State) (lo hi : Nat) (z : Nat) : (s.zeroRange lo hi).core z = s.core z := rfl
@[simp] theorem State.csr_zeroRange (s : State) (lo hi : Nat) (z y : Nat) : (s.zeroRange lo hi).csr z y = s.csr z y := rfl
@[simp] theorem State.xreg_zeroRange (s : State) (lo hi : Nat) (z y : Nat) : (s.zeroRange lo hi).xreg z y = s.xreg z y := rfl
@[simp] theorem State.ctx_zeroRange (s : State) (lo hi : Nat) (z : Nat) : (s.zeroRange lo hi).ctx z = s.ctx z := rfl
@[simp] theorem State.flask_zeroRange (s : State) (lo hi : Nat) (z : Nat) : (s.zeroRange lo hi).flask z = s.flask z := rfl
@[simp] theorem State.tile_zeroRange (s : State) (lo hi : Nat) (z : Nat) : (s.zeroRange lo hi).tile z = s.tile z := rfl
@[simp] theorem State.counter_zeroRange (s : State) (lo hi : Nat) (z : Nat) : (s.zeroRange lo hi).counter z = s.counter z := rfl
@[simp] theorem State.qp_zeroRange (s : State) (lo hi : Nat) (z : Nat) : (s.zeroRange lo hi).qp z = s.qp z := rfl
@[simp] theorem State.queue_zeroRange (s : State) (lo hi : Nat) (z : Nat) : (s.zeroRange lo hi).queue z = s.queue z := rfl
@[simp] theorem State.pause_zeroRange (s : State) (lo hi : Nat) (z : Nat) : (s.zeroRange lo hi).pause z = s.pause z := rfl
@[simp] theorem State.port_zeroRange (s : State) (lo hi : Nat) (z : Nat) : (s.zeroRange lo hi).port z = s.port z := rfl
@[simp] theorem State.ring_zeroRange (s : State) (lo hi : Nat) (z y : Nat) : (s.zeroRange lo hi).ring z y = s.ring z y := rfl
@[simp] theorem State.now_zeroRange (s : State) (lo hi : Nat)  : (s.zeroRange lo hi).now = s.now := rfl
@[simp] theorem State.desc_zeroRange (s : State) (lo hi : Nat) (z y : Nat) : (s.zeroRange lo hi).desc z y = s.desc z y := rfl
@[simp] theorem State.ctxState_zeroRange (s : State) (lo hi : Nat) (z : Nat) : (s.zeroRange lo hi).ctxState z = s.ctxState z := rfl
@[simp] theorem State.pstate_zeroRange (s : State) (lo hi : Nat) (z : Nat) : (s.zeroRange lo hi).pstate z = s.pstate z := rfl
@[simp] theorem State.getF_emit (s : State) (o : Output) (fd : FieldDesc) (pg ix : Nat) : (s.emit o).getF fd pg ix = s.getF fd pg ix := rfl
@[simp] theorem State.core_emit (s : State) (o : Output) (z : Nat) : (s.emit o).core z = s.core z := rfl
@[simp] theorem State.csr_emit (s : State) (o : Output) (z y : Nat) : (s.emit o).csr z y = s.csr z y := rfl
@[simp] theorem State.xreg_emit (s : State) (o : Output) (z y : Nat) : (s.emit o).xreg z y = s.xreg z y := rfl
@[simp] theorem State.ctx_emit (s : State) (o : Output) (z : Nat) : (s.emit o).ctx z = s.ctx z := rfl
@[simp] theorem State.flask_emit (s : State) (o : Output) (z : Nat) : (s.emit o).flask z = s.flask z := rfl
@[simp] theorem State.tile_emit (s : State) (o : Output) (z : Nat) : (s.emit o).tile z = s.tile z := rfl
@[simp] theorem State.counter_emit (s : State) (o : Output) (z : Nat) : (s.emit o).counter z = s.counter z := rfl
@[simp] theorem State.qp_emit (s : State) (o : Output) (z : Nat) : (s.emit o).qp z = s.qp z := rfl
@[simp] theorem State.queue_emit (s : State) (o : Output) (z : Nat) : (s.emit o).queue z = s.queue z := rfl
@[simp] theorem State.pause_emit (s : State) (o : Output) (z : Nat) : (s.emit o).pause z = s.pause z := rfl
@[simp] theorem State.port_emit (s : State) (o : Output) (z : Nat) : (s.emit o).port z = s.port z := rfl
@[simp] theorem State.ring_emit (s : State) (o : Output) (z y : Nat) : (s.emit o).ring z y = s.ring z y := rfl
@[simp] theorem State.now_emit (s : State) (o : Output)  : (s.emit o).now = s.now := rfl
@[simp] theorem State.desc_emit (s : State) (o : Output) (z y : Nat) : (s.emit o).desc z y = s.desc z y := rfl
@[simp] theorem State.ctxState_emit (s : State) (o : Output) (z : Nat) : (s.emit o).ctxState z = s.ctxState z := rfl
@[simp] theorem State.pstate_emit (s : State) (o : Output) (z : Nat) : (s.emit o).pstate z = s.pstate z := rfl
@[simp] theorem State.bytes_emit (s : State) (o : Output) (z y : Nat) : (s.emit o).bytes z y = s.bytes z y := rfl
@[simp] theorem State.loadNat_emit (s : State) (o : Output) (z y : Nat) : (s.emit o).loadNat z y = s.loadNat z y := rfl
@[simp] theorem State.getF_emitAll (s : State) (os : List Output) (fd : FieldDesc) (pg ix : Nat) : (s.emitAll os).getF fd pg ix = s.getF fd pg ix := rfl
@[simp] theorem State.core_emitAll (s : State) (os : List Output) (z : Nat) : (s.emitAll os).core z = s.core z := rfl
@[simp] theorem State.csr_emitAll (s : State) (os : List Output) (z y : Nat) : (s.emitAll os).csr z y = s.csr z y := rfl
@[simp] theorem State.xreg_emitAll (s : State) (os : List Output) (z y : Nat) : (s.emitAll os).xreg z y = s.xreg z y := rfl
@[simp] theorem State.ctx_emitAll (s : State) (os : List Output) (z : Nat) : (s.emitAll os).ctx z = s.ctx z := rfl
@[simp] theorem State.flask_emitAll (s : State) (os : List Output) (z : Nat) : (s.emitAll os).flask z = s.flask z := rfl
@[simp] theorem State.tile_emitAll (s : State) (os : List Output) (z : Nat) : (s.emitAll os).tile z = s.tile z := rfl
@[simp] theorem State.counter_emitAll (s : State) (os : List Output) (z : Nat) : (s.emitAll os).counter z = s.counter z := rfl
@[simp] theorem State.qp_emitAll (s : State) (os : List Output) (z : Nat) : (s.emitAll os).qp z = s.qp z := rfl
@[simp] theorem State.queue_emitAll (s : State) (os : List Output) (z : Nat) : (s.emitAll os).queue z = s.queue z := rfl
@[simp] theorem State.pause_emitAll (s : State) (os : List Output) (z : Nat) : (s.emitAll os).pause z = s.pause z := rfl
@[simp] theorem State.port_emitAll (s : State) (os : List Output) (z : Nat) : (s.emitAll os).port z = s.port z := rfl
@[simp] theorem State.ring_emitAll (s : State) (os : List Output) (z y : Nat) : (s.emitAll os).ring z y = s.ring z y := rfl
@[simp] theorem State.now_emitAll (s : State) (os : List Output)  : (s.emitAll os).now = s.now := rfl
@[simp] theorem State.desc_emitAll (s : State) (os : List Output) (z y : Nat) : (s.emitAll os).desc z y = s.desc z y := rfl
@[simp] theorem State.ctxState_emitAll (s : State) (os : List Output) (z : Nat) : (s.emitAll os).ctxState z = s.ctxState z := rfl
@[simp] theorem State.pstate_emitAll (s : State) (os : List Output) (z : Nat) : (s.emitAll os).pstate z = s.pstate z := rfl
@[simp] theorem State.bytes_emitAll (s : State) (os : List Output) (z y : Nat) : (s.emitAll os).bytes z y = s.bytes z y := rfl
@[simp] theorem State.loadNat_emitAll (s : State) (os : List Output) (z y : Nat) : (s.emitAll os).loadNat z y = s.loadNat z y := rfl
@[simp] theorem State.getF_setQp (s : State) (i : Nat) (x : QueuePair) (fd : FieldDesc) (pg ix : Nat) : (s.setQp i x).getF fd pg ix = s.getF fd pg ix := rfl
@[simp] theorem State.core_setQp (s : State) (i : Nat) (x : QueuePair) (z : Nat) : (s.setQp i x).core z = s.core z := rfl
@[simp] theorem State.csr_setQp (s : State) (i : Nat) (x : QueuePair) (z y : Nat) : (s.setQp i x).csr z y = s.csr z y := rfl
@[simp] theorem State.xreg_setQp (s : State) (i : Nat) (x : QueuePair) (z y : Nat) : (s.setQp i x).xreg z y = s.xreg z y := rfl
@[simp] theorem State.ctx_setQp (s : State) (i : Nat) (x : QueuePair) (z : Nat) : (s.setQp i x).ctx z = s.ctx z := rfl
@[simp] theorem State.flask_setQp (s : State) (i : Nat) (x : QueuePair) (z : Nat) : (s.setQp i x).flask z = s.flask z := rfl
@[simp] theorem State.tile_setQp (s : State) (i : Nat) (x : QueuePair) (z : Nat) : (s.setQp i x).tile z = s.tile z := rfl
@[simp] theorem State.counter_setQp (s : State) (i : Nat) (x : QueuePair) (z : Nat) : (s.setQp i x).counter z = s.counter z := rfl
@[simp] theorem State.queue_setQp (s : State) (i : Nat) (x : QueuePair) (z : Nat) : (s.setQp i x).queue z = s.queue z := rfl
@[simp] theorem State.pause_setQp (s : State) (i : Nat) (x : QueuePair) (z : Nat) : (s.setQp i x).pause z = s.pause z := rfl
@[simp] theorem State.port_setQp (s : State) (i : Nat) (x : QueuePair) (z : Nat) : (s.setQp i x).port z = s.port z := rfl
@[simp] theorem State.ring_setQp (s : State) (i : Nat) (x : QueuePair) (z y : Nat) : (s.setQp i x).ring z y = s.ring z y := rfl
@[simp] theorem State.now_setQp (s : State) (i : Nat) (x : QueuePair)  : (s.setQp i x).now = s.now := rfl
@[simp] theorem State.desc_setQp (s : State) (i : Nat) (x : QueuePair) (z y : Nat) : (s.setQp i x).desc z y = s.desc z y := rfl
@[simp] theorem State.ctxState_setQp (s : State) (i : Nat) (x : QueuePair) (z : Nat) : (s.setQp i x).ctxState z = s.ctxState z := rfl
@[simp] theorem State.pstate_setQp (s : State) (i : Nat) (x : QueuePair) (z : Nat) : (s.setQp i x).pstate z = s.pstate z := rfl
@[simp] theorem State.bytes_setQp (s : State) (i : Nat) (x : QueuePair) (z y : Nat) : (s.setQp i x).bytes z y = s.bytes z y := rfl
@[simp] theorem State.loadNat_setQp (s : State) (i : Nat) (x : QueuePair) (z y : Nat) : (s.setQp i x).loadNat z y = s.loadNat z y := rfl
@[simp] theorem State.getF_setPause (s : State) (k : Nat) (x : PauseState) (fd : FieldDesc) (pg ix : Nat) : (s.setPause k x).getF fd pg ix = s.getF fd pg ix := rfl
@[simp] theorem State.core_setPause (s : State) (k : Nat) (x : PauseState) (z : Nat) : (s.setPause k x).core z = s.core z := rfl
@[simp] theorem State.csr_setPause (s : State) (k : Nat) (x : PauseState) (z y : Nat) : (s.setPause k x).csr z y = s.csr z y := rfl
@[simp] theorem State.xreg_setPause (s : State) (k : Nat) (x : PauseState) (z y : Nat) : (s.setPause k x).xreg z y = s.xreg z y := rfl
@[simp] theorem State.ctx_setPause (s : State) (k : Nat) (x : PauseState) (z : Nat) : (s.setPause k x).ctx z = s.ctx z := rfl
@[simp] theorem State.flask_setPause (s : State) (k : Nat) (x : PauseState) (z : Nat) : (s.setPause k x).flask z = s.flask z := rfl
@[simp] theorem State.tile_setPause (s : State) (k : Nat) (x : PauseState) (z : Nat) : (s.setPause k x).tile z = s.tile z := rfl
@[simp] theorem State.counter_setPause (s : State) (k : Nat) (x : PauseState) (z : Nat) : (s.setPause k x).counter z = s.counter z := rfl
@[simp] theorem State.qp_setPause (s : State) (k : Nat) (x : PauseState) (z : Nat) : (s.setPause k x).qp z = s.qp z := rfl
@[simp] theorem State.queue_setPause (s : State) (k : Nat) (x : PauseState) (z : Nat) : (s.setPause k x).queue z = s.queue z := rfl
@[simp] theorem State.port_setPause (s : State) (k : Nat) (x : PauseState) (z : Nat) : (s.setPause k x).port z = s.port z := rfl
@[simp] theorem State.ring_setPause (s : State) (k : Nat) (x : PauseState) (z y : Nat) : (s.setPause k x).ring z y = s.ring z y := rfl
@[simp] theorem State.now_setPause (s : State) (k : Nat) (x : PauseState)  : (s.setPause k x).now = s.now := rfl
@[simp] theorem State.desc_setPause (s : State) (k : Nat) (x : PauseState) (z y : Nat) : (s.setPause k x).desc z y = s.desc z y := rfl
@[simp] theorem State.ctxState_setPause (s : State) (k : Nat) (x : PauseState) (z : Nat) : (s.setPause k x).ctxState z = s.ctxState z := rfl
@[simp] theorem State.pstate_setPause (s : State) (k : Nat) (x : PauseState) (z : Nat) : (s.setPause k x).pstate z = s.pstate z := rfl
@[simp] theorem State.bytes_setPause (s : State) (k : Nat) (x : PauseState) (z y : Nat) : (s.setPause k x).bytes z y = s.bytes z y := rfl
@[simp] theorem State.loadNat_setPause (s : State) (k : Nat) (x : PauseState) (z y : Nat) : (s.setPause k x).loadNat z y = s.loadNat z y := rfl
@[simp] theorem State.getF_setQueue (s : State) (q : Nat) (x : Queue) (fd : FieldDesc) (pg ix : Nat) : (s.setQueue q x).getF fd pg ix = s.getF fd pg ix := rfl
@[simp] theorem State.core_setQueue (s : State) (q : Nat) (x : Queue) (z : Nat) : (s.setQueue q x).core z = s.core z := rfl
@[simp] theorem State.csr_setQueue (s : State) (q : Nat) (x : Queue) (z y : Nat) : (s.setQueue q x).csr z y = s.csr z y := rfl
@[simp] theorem State.xreg_setQueue (s : State) (q : Nat) (x : Queue) (z y : Nat) : (s.setQueue q x).xreg z y = s.xreg z y := rfl
@[simp] theorem State.ctx_setQueue (s : State) (q : Nat) (x : Queue) (z : Nat) : (s.setQueue q x).ctx z = s.ctx z := rfl
@[simp] theorem State.flask_setQueue (s : State) (q : Nat) (x : Queue) (z : Nat) : (s.setQueue q x).flask z = s.flask z := rfl
@[simp] theorem State.tile_setQueue (s : State) (q : Nat) (x : Queue) (z : Nat) : (s.setQueue q x).tile z = s.tile z := rfl
@[simp] theorem State.counter_setQueue (s : State) (q : Nat) (x : Queue) (z : Nat) : (s.setQueue q x).counter z = s.counter z := rfl
@[simp] theorem State.qp_setQueue (s : State) (q : Nat) (x : Queue) (z : Nat) : (s.setQueue q x).qp z = s.qp z := rfl
@[simp] theorem State.pause_setQueue (s : State) (q : Nat) (x : Queue) (z : Nat) : (s.setQueue q x).pause z = s.pause z := rfl
@[simp] theorem State.port_setQueue (s : State) (q : Nat) (x : Queue) (z : Nat) : (s.setQueue q x).port z = s.port z := rfl
@[simp] theorem State.ring_setQueue (s : State) (q : Nat) (x : Queue) (z y : Nat) : (s.setQueue q x).ring z y = s.ring z y := rfl
@[simp] theorem State.now_setQueue (s : State) (q : Nat) (x : Queue)  : (s.setQueue q x).now = s.now := rfl
@[simp] theorem State.desc_setQueue (s : State) (q : Nat) (x : Queue) (z y : Nat) : (s.setQueue q x).desc z y = s.desc z y := rfl
@[simp] theorem State.ctxState_setQueue (s : State) (q : Nat) (x : Queue) (z : Nat) : (s.setQueue q x).ctxState z = s.ctxState z := rfl
@[simp] theorem State.pstate_setQueue (s : State) (q : Nat) (x : Queue) (z : Nat) : (s.setQueue q x).pstate z = s.pstate z := rfl
@[simp] theorem State.bytes_setQueue (s : State) (q : Nat) (x : Queue) (z y : Nat) : (s.setQueue q x).bytes z y = s.bytes z y := rfl
@[simp] theorem State.loadNat_setQueue (s : State) (q : Nat) (x : Queue) (z y : Nat) : (s.setQueue q x).loadNat z y = s.loadNat z y := rfl
@[simp] theorem State.getF_pushRing (s : State) (p u : Nat) (e : EvEntry) (fd : FieldDesc) (pg ix : Nat) : (s.pushRing p u e).getF fd pg ix = s.getF fd pg ix := rfl
@[simp] theorem State.core_pushRing (s : State) (p u : Nat) (e : EvEntry) (z : Nat) : (s.pushRing p u e).core z = s.core z := rfl
@[simp] theorem State.csr_pushRing (s : State) (p u : Nat) (e : EvEntry) (z y : Nat) : (s.pushRing p u e).csr z y = s.csr z y := rfl
@[simp] theorem State.xreg_pushRing (s : State) (p u : Nat) (e : EvEntry) (z y : Nat) : (s.pushRing p u e).xreg z y = s.xreg z y := rfl
@[simp] theorem State.ctx_pushRing (s : State) (p u : Nat) (e : EvEntry) (z : Nat) : (s.pushRing p u e).ctx z = s.ctx z := rfl
@[simp] theorem State.flask_pushRing (s : State) (p u : Nat) (e : EvEntry) (z : Nat) : (s.pushRing p u e).flask z = s.flask z := rfl
@[simp] theorem State.tile_pushRing (s : State) (p u : Nat) (e : EvEntry) (z : Nat) : (s.pushRing p u e).tile z = s.tile z := rfl
@[simp] theorem State.counter_pushRing (s : State) (p u : Nat) (e : EvEntry) (z : Nat) : (s.pushRing p u e).counter z = s.counter z := rfl
@[simp] theorem State.qp_pushRing (s : State) (p u : Nat) (e : EvEntry) (z : Nat) : (s.pushRing p u e).qp z = s.qp z := rfl
@[simp] theorem State.queue_pushRing (s : State) (p u : Nat) (e : EvEntry) (z : Nat) : (s.pushRing p u e).queue z = s.queue z := rfl
@[simp] theorem State.pause_pushRing (s : State) (p u : Nat) (e : EvEntry) (z : Nat) : (s.pushRing p u e).pause z = s.pause z := rfl
@[simp] theorem State.port_pushRing (s : State) (p u : Nat) (e : EvEntry) (z : Nat) : (s.pushRing p u e).port z = s.port z := rfl
@[simp] theorem State.now_pushRing (s : State) (p u : Nat) (e : EvEntry)  : (s.pushRing p u e).now = s.now := rfl
@[simp] theorem State.desc_pushRing (s : State) (p u : Nat) (e : EvEntry) (z y : Nat) : (s.pushRing p u e).desc z y = s.desc z y := rfl
@[simp] theorem State.ctxState_pushRing (s : State) (p u : Nat) (e : EvEntry) (z : Nat) : (s.pushRing p u e).ctxState z = s.ctxState z := rfl
@[simp] theorem State.pstate_pushRing (s : State) (p u : Nat) (e : EvEntry) (z : Nat) : (s.pushRing p u e).pstate z = s.pstate z := rfl
@[simp] theorem State.bytes_pushRing (s : State) (p u : Nat) (e : EvEntry) (z y : Nat) : (s.pushRing p u e).bytes z y = s.bytes z y := rfl
@[simp] theorem State.loadNat_pushRing (s : State) (p u : Nat) (e : EvEntry) (z y : Nat) : (s.pushRing p u e).loadNat z y = s.loadNat z y := rfl
@[simp] theorem State.getF_setFlask (s : State) (f : Nat) (x : FlaskState) (fd : FieldDesc) (pg ix : Nat) : (s.setFlask f x).getF fd pg ix = s.getF fd pg ix := rfl
@[simp] theorem State.core_setFlask (s : State) (f : Nat) (x : FlaskState) (z : Nat) : (s.setFlask f x).core z = s.core z := rfl
@[simp] theorem State.csr_setFlask (s : State) (f : Nat) (x : FlaskState) (z y : Nat) : (s.setFlask f x).csr z y = s.csr z y := rfl
@[simp] theorem State.xreg_setFlask (s : State) (f : Nat) (x : FlaskState) (z y : Nat) : (s.setFlask f x).xreg z y = s.xreg z y := rfl
@[simp] theorem State.ctx_setFlask (s : State) (f : Nat) (x : FlaskState) (z : Nat) : (s.setFlask f x).ctx z = s.ctx z := rfl
@[simp] theorem State.tile_setFlask (s : State) (f : Nat) (x : FlaskState) (z : Nat) : (s.setFlask f x).tile z = s.tile z := rfl
@[simp] theorem State.counter_setFlask (s : State) (f : Nat) (x : FlaskState) (z : Nat) : (s.setFlask f x).counter z = s.counter z := rfl
@[simp] theorem State.qp_setFlask (s : State) (f : Nat) (x : FlaskState) (z : Nat) : (s.setFlask f x).qp z = s.qp z := rfl
@[simp] theorem State.queue_setFlask (s : State) (f : Nat) (x : FlaskState) (z : Nat) : (s.setFlask f x).queue z = s.queue z := rfl
@[simp] theorem State.pause_setFlask (s : State) (f : Nat) (x : FlaskState) (z : Nat) : (s.setFlask f x).pause z = s.pause z := rfl
@[simp] theorem State.port_setFlask (s : State) (f : Nat) (x : FlaskState) (z : Nat) : (s.setFlask f x).port z = s.port z := rfl
@[simp] theorem State.ring_setFlask (s : State) (f : Nat) (x : FlaskState) (z y : Nat) : (s.setFlask f x).ring z y = s.ring z y := rfl
@[simp] theorem State.now_setFlask (s : State) (f : Nat) (x : FlaskState)  : (s.setFlask f x).now = s.now := rfl
@[simp] theorem State.desc_setFlask (s : State) (f : Nat) (x : FlaskState) (z y : Nat) : (s.setFlask f x).desc z y = s.desc z y := rfl
@[simp] theorem State.ctxState_setFlask (s : State) (f : Nat) (x : FlaskState) (z : Nat) : (s.setFlask f x).ctxState z = s.ctxState z := rfl
@[simp] theorem State.pstate_setFlask (s : State) (f : Nat) (x : FlaskState) (z : Nat) : (s.setFlask f x).pstate z = s.pstate z := rfl
@[simp] theorem State.bytes_setFlask (s : State) (f : Nat) (x : FlaskState) (z y : Nat) : (s.setFlask f x).bytes z y = s.bytes z y := rfl
@[simp] theorem State.loadNat_setFlask (s : State) (f : Nat) (x : FlaskState) (z y : Nat) : (s.setFlask f x).loadNat z y = s.loadNat z y := rfl
@[simp] theorem State.getF_setCounter (s : State) (id : Nat) (c : Counter) (fd : FieldDesc) (pg ix : Nat) : (s.setCounter id c).getF fd pg ix = s.getF fd pg ix := rfl
@[simp] theorem State.core_setCounter (s : State) (id : Nat) (c : Counter) (z : Nat) : (s.setCounter id c).core z = s.core z := rfl
@[simp] theorem State.csr_setCounter (s : State) (id : Nat) (c : Counter) (z y : Nat) : (s.setCounter id c).csr z y = s.csr z y := rfl
@[simp] theorem State.xreg_setCounter (s : State) (id : Nat) (c : Counter) (z y : Nat) : (s.setCounter id c).xreg z y = s.xreg z y := rfl
@[simp] theorem State.ctx_setCounter (s : State) (id : Nat) (c : Counter) (z : Nat) : (s.setCounter id c).ctx z = s.ctx z := rfl
@[simp] theorem State.flask_setCounter (s : State) (id : Nat) (c : Counter) (z : Nat) : (s.setCounter id c).flask z = s.flask z := rfl
@[simp] theorem State.tile_setCounter (s : State) (id : Nat) (c : Counter) (z : Nat) : (s.setCounter id c).tile z = s.tile z := rfl
@[simp] theorem State.qp_setCounter (s : State) (id : Nat) (c : Counter) (z : Nat) : (s.setCounter id c).qp z = s.qp z := rfl
@[simp] theorem State.queue_setCounter (s : State) (id : Nat) (c : Counter) (z : Nat) : (s.setCounter id c).queue z = s.queue z := rfl
@[simp] theorem State.pause_setCounter (s : State) (id : Nat) (c : Counter) (z : Nat) : (s.setCounter id c).pause z = s.pause z := rfl
@[simp] theorem State.port_setCounter (s : State) (id : Nat) (c : Counter) (z : Nat) : (s.setCounter id c).port z = s.port z := rfl
@[simp] theorem State.ring_setCounter (s : State) (id : Nat) (c : Counter) (z y : Nat) : (s.setCounter id c).ring z y = s.ring z y := rfl
@[simp] theorem State.now_setCounter (s : State) (id : Nat) (c : Counter)  : (s.setCounter id c).now = s.now := rfl
@[simp] theorem State.desc_setCounter (s : State) (id : Nat) (c : Counter) (z y : Nat) : (s.setCounter id c).desc z y = s.desc z y := rfl
@[simp] theorem State.ctxState_setCounter (s : State) (id : Nat) (c : Counter) (z : Nat) : (s.setCounter id c).ctxState z = s.ctxState z := rfl
@[simp] theorem State.pstate_setCounter (s : State) (id : Nat) (c : Counter) (z : Nat) : (s.setCounter id c).pstate z = s.pstate z := rfl
@[simp] theorem State.bytes_setCounter (s : State) (id : Nat) (c : Counter) (z y : Nat) : (s.setCounter id c).bytes z y = s.bytes z y := rfl
@[simp] theorem State.loadNat_setCounter (s : State) (id : Nat) (c : Counter) (z y : Nat) : (s.setCounter id c).loadNat z y = s.loadNat z y := rfl
@[simp] theorem State.getF_setTile (s : State) (t : Nat) (x : Tile) (fd : FieldDesc) (pg ix : Nat) : (s.setTile t x).getF fd pg ix = s.getF fd pg ix := rfl
@[simp] theorem State.core_setTile (s : State) (t : Nat) (x : Tile) (z : Nat) : (s.setTile t x).core z = s.core z := rfl
@[simp] theorem State.csr_setTile (s : State) (t : Nat) (x : Tile) (z y : Nat) : (s.setTile t x).csr z y = s.csr z y := rfl
@[simp] theorem State.xreg_setTile (s : State) (t : Nat) (x : Tile) (z y : Nat) : (s.setTile t x).xreg z y = s.xreg z y := rfl
@[simp] theorem State.ctx_setTile (s : State) (t : Nat) (x : Tile) (z : Nat) : (s.setTile t x).ctx z = s.ctx z := rfl
@[simp] theorem State.flask_setTile (s : State) (t : Nat) (x : Tile) (z : Nat) : (s.setTile t x).flask z = s.flask z := rfl
@[simp] theorem State.counter_setTile (s : State) (t : Nat) (x : Tile) (z : Nat) : (s.setTile t x).counter z = s.counter z := rfl
@[simp] theorem State.qp_setTile (s : State) (t : Nat) (x : Tile) (z : Nat) : (s.setTile t x).qp z = s.qp z := rfl
@[simp] theorem State.queue_setTile (s : State) (t : Nat) (x : Tile) (z : Nat) : (s.setTile t x).queue z = s.queue z := rfl
@[simp] theorem State.pause_setTile (s : State) (t : Nat) (x : Tile) (z : Nat) : (s.setTile t x).pause z = s.pause z := rfl
@[simp] theorem State.port_setTile (s : State) (t : Nat) (x : Tile) (z : Nat) : (s.setTile t x).port z = s.port z := rfl
@[simp] theorem State.ring_setTile (s : State) (t : Nat) (x : Tile) (z y : Nat) : (s.setTile t x).ring z y = s.ring z y := rfl
@[simp] theorem State.now_setTile (s : State) (t : Nat) (x : Tile)  : (s.setTile t x).now = s.now := rfl
@[simp] theorem State.desc_setTile (s : State) (t : Nat) (x : Tile) (z y : Nat) : (s.setTile t x).desc z y = s.desc z y := rfl
@[simp] theorem State.ctxState_setTile (s : State) (t : Nat) (x : Tile) (z : Nat) : (s.setTile t x).ctxState z = s.ctxState z := rfl
@[simp] theorem State.pstate_setTile (s : State) (t : Nat) (x : Tile) (z : Nat) : (s.setTile t x).pstate z = s.pstate z := rfl
@[simp] theorem State.bytes_setTile (s : State) (t : Nat) (x : Tile) (z y : Nat) : (s.setTile t x).bytes z y = s.bytes z y := rfl
@[simp] theorem State.loadNat_setTile (s : State) (t : Nat) (x : Tile) (z y : Nat) : (s.setTile t x).loadNat z y = s.loadNat z y := rfl
@[simp] theorem State.getF_setPort (s : State) (p : Nat) (l : PortLink) (fd : FieldDesc) (pg ix : Nat) : (s.setPort p l).getF fd pg ix = s.getF fd pg ix := rfl
@[simp] theorem State.core_setPort (s : State) (p : Nat) (l : PortLink) (z : Nat) : (s.setPort p l).core z = s.core z := rfl
@[simp] theorem State.csr_setPort (s : State) (p : Nat) (l : PortLink) (z y : Nat) : (s.setPort p l).csr z y = s.csr z y := rfl
@[simp] theorem State.xreg_setPort (s : State) (p : Nat) (l : PortLink) (z y : Nat) : (s.setPort p l).xreg z y = s.xreg z y := rfl
@[simp] theorem State.ctx_setPort (s : State) (p : Nat) (l : PortLink) (z : Nat) : (s.setPort p l).ctx z = s.ctx z := rfl
@[simp] theorem State.flask_setPort (s : State) (p : Nat) (l : PortLink) (z : Nat) : (s.setPort p l).flask z = s.flask z := rfl
@[simp] theorem State.tile_setPort (s : State) (p : Nat) (l : PortLink) (z : Nat) : (s.setPort p l).tile z = s.tile z := rfl
@[simp] theorem State.counter_setPort (s : State) (p : Nat) (l : PortLink) (z : Nat) : (s.setPort p l).counter z = s.counter z := rfl
@[simp] theorem State.qp_setPort (s : State) (p : Nat) (l : PortLink) (z : Nat) : (s.setPort p l).qp z = s.qp z := rfl
@[simp] theorem State.queue_setPort (s : State) (p : Nat) (l : PortLink) (z : Nat) : (s.setPort p l).queue z = s.queue z := rfl
@[simp] theorem State.pause_setPort (s : State) (p : Nat) (l : PortLink) (z : Nat) : (s.setPort p l).pause z = s.pause z := rfl
@[simp] theorem State.ring_setPort (s : State) (p : Nat) (l : PortLink) (z y : Nat) : (s.setPort p l).ring z y = s.ring z y := rfl
@[simp] theorem State.now_setPort (s : State) (p : Nat) (l : PortLink)  : (s.setPort p l).now = s.now := rfl
@[simp] theorem State.desc_setPort (s : State) (p : Nat) (l : PortLink) (z y : Nat) : (s.setPort p l).desc z y = s.desc z y := rfl
@[simp] theorem State.ctxState_setPort (s : State) (p : Nat) (l : PortLink) (z : Nat) : (s.setPort p l).ctxState z = s.ctxState z := rfl
@[simp] theorem State.pstate_setPort (s : State) (p : Nat) (l : PortLink) (z : Nat) : (s.setPort p l).pstate z = s.pstate z := rfl
@[simp] theorem State.bytes_setPort (s : State) (p : Nat) (l : PortLink) (z y : Nat) : (s.setPort p l).bytes z y = s.bytes z y := rfl
@[simp] theorem State.loadNat_setPort (s : State) (p : Nat) (l : PortLink) (z y : Nat) : (s.setPort p l).loadNat z y = s.loadNat z y := rfl
@[simp] theorem State.getF_setX (s : State) (c r v : Nat) (fd : FieldDesc) (pg ix : Nat) : (s.setX c r v).getF fd pg ix = s.getF fd pg ix := by unfold State.setX; split <;> rfl
@[simp] theorem State.core_setX (s : State) (c r v : Nat) (z : Nat) : (s.setX c r v).core z = s.core z := by unfold State.setX; split <;> rfl
@[simp] theorem State.csr_setX (s : State) (c r v : Nat) (z y : Nat) : (s.setX c r v).csr z y = s.csr z y := by unfold State.setX; split <;> rfl
@[simp] theorem State.ctx_setX (s : State) (c r v : Nat) (z : Nat) : (s.setX c r v).ctx z = s.ctx z := by unfold State.setX; split <;> rfl
@[simp] theorem State.flask_setX (s : State) (c r v : Nat) (z : Nat) : (s.setX c r v).flask z = s.flask z := by unfold State.setX; split <;> rfl
@[simp] theorem State.tile_setX (s : State) (c r v : Nat) (z : Nat) : (s.setX c r v).tile z = s.tile z := by unfold State.setX; split <;> rfl
@[simp] theorem State.counter_setX (s : State) (c r v : Nat) (z : Nat) : (s.setX c r v).counter z = s.counter z := by unfold State.setX; split <;> rfl
@[simp] theorem State.qp_setX (s : State) (c r v : Nat) (z : Nat) : (s.setX c r v).qp z = s.qp z := by unfold State.setX; split <;> rfl
@[simp] theorem State.queue_setX (s : State) (c r v : Nat) (z : Nat) : (s.setX c r v).queue z = s.queue z := by unfold State.setX; split <;> rfl
@[simp] theorem State.pause_setX (s : State) (c r v : Nat) (z : Nat) : (s.setX c r v).pause z = s.pause z := by unfold State.setX; split <;> rfl
@[simp] theorem State.port_setX (s : State) (c r v : Nat) (z : Nat) : (s.setX c r v).port z = s.port z := by unfold State.setX; split <;> rfl
@[simp] theorem State.ring_setX (s : State) (c r v : Nat) (z y : Nat) : (s.setX c r v).ring z y = s.ring z y := by unfold State.setX; split <;> rfl
@[simp] theorem State.now_setX (s : State) (c r v : Nat)  : (s.setX c r v).now = s.now := by unfold State.setX; split <;> rfl
@[simp] theorem State.desc_setX (s : State) (c r v : Nat) (z y : Nat) : (s.setX c r v).desc z y = s.desc z y := by unfold State.setX; split <;> rfl
@[simp] theorem State.ctxState_setX (s : State) (c r v : Nat) (z : Nat) : (s.setX c r v).ctxState z = s.ctxState z := by unfold State.setX; split <;> rfl
@[simp] theorem State.pstate_setX (s : State) (c r v : Nat) (z : Nat) : (s.setX c r v).pstate z = s.pstate z := by unfold State.setX; split <;> rfl
@[simp] theorem State.bytes_setX (s : State) (c r v : Nat) (z y : Nat) : (s.setX c r v).bytes z y = s.bytes z y := by unfold State.setX; split <;> rfl
@[simp] theorem State.loadNat_setX (s : State) (c r v : Nat) (z y : Nat) : (s.setX c r v).loadNat z y = s.loadNat z y := by unfold State.setX; split <;> rfl

/-! ### Register fields -/

/-- A field just set reads as the value, cut to its width. -/
@[simp] theorem State.getF_setF_self (s : State) (d : FieldDesc) (p i v : Nat) :
    (s.setF d p i v).getF d p i = v % 2 ^ d.width := by
  simp [State.getF, State.setF]

/-- A field at another place reads as before. -/
theorem State.getF_setF_ne (s : State) (d e : FieldDesc) (p i v q j : Nat) (h : descKey d p i ≠ descKey e q j) :
    (s.setF d p i v).getF e q j = s.getF e q j := by
  simp only [State.getF, State.setF]
  exact mapGet_put_ne _ _ _ _ h

/-- A counting field just raised. -/
theorem State.getF_addF_self (s : State) (d : FieldDesc) (p i n : Nat) :
    (s.addF d p i n).getF d p i = min (s.getF d p i + n) (2 ^ d.width - 1) := by
  have : 0 < 2 ^ d.width := Nat.two_pow_pos _
  rw [State.addF, State.getF_setF_self, Nat.mod_eq_of_lt (by omega)]

/-- Fields of two pages differ in place. -/
theorem descKey_page_ne {d e : FieldDesc} {p q i j : Nat} (hp : p ≠ q) (hd : d.off + d.stride * i < 4096) (hl : d.lsb < 64)
    (he : e.off + e.stride * j < 4096) (hm : e.lsb < 64) : descKey d p i ≠ descKey e q j := by
  simp only [descKey, fieldKey]; omega

/-! ### Cores, control registers and contexts -/

@[simp] theorem State.core_setCore_self (s : State) (c : Nat) (k : CoreState) : (s.setCore c k).core c = k := by
  simp [State.core, State.setCore]

theorem State.core_setCore_ne (s : State) (c : Nat) (k : CoreState) {z : Nat} (h : c ≠ z) : (s.setCore c k).core z = s.core z :=
  mapGet_put_ne _ _ _ _ h

@[simp] theorem State.csr_setCsr_self (s : State) (c n v : Nat) : (s.setCsr c n v).csr c n = v % 2 ^ 64 := by
  simp [State.csr, State.setCsr]

theorem State.csr_setCsr_ne (s : State) (c n v : Nat) {z y : Nat} (h : c * 4096 + n ≠ z * 4096 + y) :
    (s.setCsr c n v).csr z y = s.csr z y := mapGet_put_ne _ _ _ _ h

@[simp] theorem State.ctx_setCtx_self (s : State) (c : Nat) (x : Ctx) : (s.setCtx c x).ctx c = x := by
  simp [State.ctx, State.setCtx]

theorem State.ctx_setCtx_ne (s : State) (c : Nat) (x : Ctx) {z : Nat} (h : c ≠ z) : (s.setCtx c x).ctx z = s.ctx z :=
  mapGet_put_ne _ _ _ _ h

/-- x0 reads 0 whatever was written (R33). -/
@[simp] theorem State.xreg_zero (s : State) (c : Nat) : s.xreg c 0 = 0 := rfl

theorem State.xreg_setX_self (s : State) (c r v : Nat) (h : r ≠ 0) : (s.setX c r v).xreg c r = v % 2 ^ 64 := by
  simp [State.xreg, State.setX, h]

theorem State.xreg_setX_ne (s : State) (c r v : Nat) {z y : Nat} (h : c * 32 + r ≠ z * 32 + y) :
    (s.setX c r v).xreg z y = s.xreg z y := by
  unfold State.setX
  split
  · rfl
  · simp only [State.xreg]
    split
    · rfl
    · exact mapGet_put_ne _ _ _ _ h

@[simp] theorem State.flask_setFlask_self (s : State) (f : Nat) (x : FlaskState) : (s.setFlask f x).flask f = x := by
  simp [State.flask, State.setFlask]

theorem State.flask_setFlask_ne (s : State) (f : Nat) (x : FlaskState) {z : Nat} (h : f ≠ z) :
    (s.setFlask f x).flask z = s.flask z := mapGet_put_ne _ _ _ _ h

@[simp] theorem State.tile_setTile_self (s : State) (t : Nat) (x : Tile) : (s.setTile t x).tile t = x := by
  simp [State.tile, State.setTile]

@[simp] theorem State.counter_setCounter_self (s : State) (id : Nat) (c : Counter) : (s.setCounter id c).counter id = c := by
  simp [State.counter, State.setCounter]

@[simp] theorem State.qp_setQp_self (s : State) (i : Nat) (x : QueuePair) : (s.setQp i x).qp i = x := by
  simp [State.qp, State.setQp]

@[simp] theorem State.pause_setPause_self (s : State) (k : Nat) (x : PauseState) : (s.setPause k x).pause k = x := by
  simp [State.pause, State.setPause]

@[simp] theorem State.queue_setQueue_self (s : State) (q : Nat) (x : Queue) : (s.setQueue q x).queue q = x := by
  simp [State.queue, State.setQueue]

@[simp] theorem State.port_setPort_self (s : State) (p : Nat) (l : PortLink) : (s.setPort p l).port p = l := by
  simp [State.port, State.setPort]

end Sys2Proof.Machine
end

