-- ==== Sys2Proof/Laws/Records.lean ====
section
/-! SUPPORT. What the recording of events and log records changes (R244, R531, R540): the rings, the log, the traces and four counting
fields; nothing else. -/
namespace Sys2Proof.Machine

/-- The parts that trace export changes. -/
theorem State.traceOut_frame (s : State) (o : Option Nat) (r : TraceRec) :
    ∃ rg m pl td nt, s.traceOut o r =
      { s with regs := rg, mem := m, poisonLine := pl, traceDrain := td, nodeTrace := nt } := by
  unfold State.traceOut State.traceToCtx State.traceToNode
  cases o with
  | some c =>
    dsimp only
    split <;> exact ⟨_, _, _, _, _, rfl⟩
  | none =>
    dsimp only
    split <;> exact ⟨_, _, _, _, _, rfl⟩

/-- The parts that an event changes. -/
theorem State.event_frame (s : State) (page unit : Nat) (cls : Option Nat) (code subject value : Nat) :
    ∃ rg m pl td nt rn, s.event page unit cls code subject value =
      { s with regs := rg, mem := m, poisonLine := pl, traceDrain := td, nodeTrace := nt, rings := rn } := by
  unfold State.event
  cases cls <;> dsimp only <;> split
  all_goals first | exact ⟨_, _, _, _, _, _, rfl⟩ | skip
  all_goals
    split
    · exact ⟨_, _, _, _, _, _, rfl⟩
    · obtain ⟨rg, m, pl, td, nt, h⟩ := State.traceOut_frame (s.pushRing page unit
        { time := s.now, code := code, subject := subject % 2 ^ 16, value := value % 2 ^ 32 }) (s.unitOwner page unit)
        { time := s.now, page := page, unit := unit, code := code, subject := subject % 2 ^ 16, value := value % 2 ^ 32,
          node := s.getF fdEcrokNodeId pgEcrok, ptp := 0 }
      exact ⟨rg, m, pl, td, nt, _, h⟩

theorem State.traceOut_log_frame (s : State) (lg : SMap LogRec) (v : Nat) (o : Option Nat) (r : TraceRec) :
    ∃ rg m pl td nt lg', ((State.setF { s with log := lg } fdSchedLogSeq pgSched 0 v).traceOut o r) =
      { s with regs := rg, mem := m, poisonLine := pl, traceDrain := td, nodeTrace := nt, log := lg' } := by
  obtain ⟨rg, m, pl, td, nt, h⟩ := State.traceOut_frame (State.setF { s with log := lg } fdSchedLogSeq pgSched 0 v) o r
  exact ⟨rg, m, pl, td, nt, lg, h⟩

/-- The parts that a log record changes. -/
theorem State.trace_frame (s : State) (p ctx arg0 arg1 : Nat) :
    ∃ rg m pl td nt lg, s.trace p ctx arg0 arg1 =
      { s with regs := rg, mem := m, poisonLine := pl, traceDrain := td, nodeTrace := nt, log := lg } := by
  unfold State.trace
  split
  · exact State.traceOut_log_frame s _ _ _ _
  · exact ⟨_, _, _, _, _, _, rfl⟩

/-- A field that no record counts in: not `EVR_LOST` of the page, `LOG_SEQ`, or a trace's `HEAD`. -/
def offRecords (page : Nat) (d : FieldDesc) (p i : Nat) : Prop :=
  descKey fdEvrEvrLost page 0 ≠ descKey d p i ∧ descKey fdSchedLogSeq pgSched 0 ≠ descKey d p i ∧
    (∀ c, c < 16 → descKey fdObsCtrHead pgObs c ≠ descKey d p i) ∧ descKey fdObsNtraceHead pgObs 0 ≠ descKey d p i

theorem State.getF_traceOut (s : State) (o : Option Nat) (r : TraceRec) (d : FieldDesc) (p i : Nat) (ho : ∀ c, o = some c → c < 16)
    (h1 : ∀ c, c < 16 → descKey fdObsCtrHead pgObs c ≠ descKey d p i) (h2 : descKey fdObsNtraceHead pgObs 0 ≠ descKey d p i) :
    (s.traceOut o r).getF d p i = s.getF d p i := by
  unfold State.traceOut
  cases o with
  | some c =>
    unfold State.traceToCtx
    dsimp only
    split
    · rw [State.getF_setF_ne _ _ _ _ _ _ _ _ (h1 c (ho c rfl))]; rfl
    · rfl
    · rfl
  | none =>
    unfold State.traceToNode
    dsimp only
    split
    · show (s.addF fdObsNtraceHead pgObs 0 1).getF d p i = _
      rw [State.addF, State.getF_setF_ne _ _ _ _ _ _ _ _ h2]
    · rfl

theorem State.unitOwner_lt (s : State) (page unit c : Nat) (h : s.unitOwner page unit = some c) : c < 16 := by
  have key : ∀ q : Nat → Bool, allCtxs.find? q = some c → c < 16 := fun q hq => by
    have := List.mem_of_find?_eq_some hq
    simpa [allCtxs] using this
  unfold State.unitOwner at h
  dsimp only at h
  split at h
  · exact key _ h
  · split at h
    · exact key _ h
    · cases h

/-- A field outside the records reads as before an event. -/
theorem State.getF_event (s : State) (page unit : Nat) (cls : Option Nat) (code subject value : Nat) (d : FieldDesc) (p i : Nat)
    (h : offRecords page d p i) : (s.event page unit cls code subject value).getF d p i = s.getF d p i := by
  obtain ⟨h0, _, h2, h3⟩ := h
  unfold State.event
  cases cls <;> dsimp only <;> split
  all_goals first | rfl | skip
  all_goals
    split
    · rw [State.addF]; exact State.getF_setF_ne _ _ _ _ _ _ _ _ h0
    · rw [State.getF_traceOut _ _ _ _ _ _ (fun c hc => s.unitOwner_lt page unit c hc) h2 h3]
      rfl

/-- A field outside the records reads as before a log record. -/
theorem State.getF_trace (s : State) (n ctx arg0 arg1 : Nat) (d : FieldDesc) (p i : Nat) (page : Nat) (h : offRecords page d p i) :
    (s.trace n ctx arg0 arg1).getF d p i = s.getF d p i := by
  obtain ⟨_, h1, h2, h3⟩ := h
  unfold State.trace
  split
  · dsimp only
    rw [State.getF_traceOut _ _ _ _ _ _ (fun c hc => by split at hc <;> simp_all) h2 h3, State.getF_setF_ne _ _ _ _ _ _ _ _ h1]
    rfl
  · rfl

/-- With no context's trace in memory, trace export writes none. -/
theorem State.traceOut_mem (s : State) (o : Option Nat) (r : TraceRec) (ho : ∀ c, o = some c → c < 16)
    (h : ∀ c, c < 16 → s.getF fdObsCtrMode pgObs c ≠ 1) : (s.traceOut o r).mem = s.mem := by
  unfold State.traceOut
  cases o with
  | some c =>
    unfold State.traceToCtx
    dsimp only
    split
    · next hm => exact absurd hm (h c (ho c rfl))
    · rfl
    · rfl
  | none =>
    unfold State.traceToNode
    dsimp only
    split <;> rfl

/-- With no context's trace in memory, an event writes none. -/
theorem State.event_mem (s : State) (page unit : Nat) (cls : Option Nat) (code subject value : Nat)
    (h : ∀ c, c < 16 → s.getF fdObsCtrMode pgObs c ≠ 1) : (s.event page unit cls code subject value).mem = s.mem := by
  unfold State.event
  cases cls <;> dsimp only <;> split
  all_goals first | rfl | skip
  all_goals
    split
    · rfl
    · exact State.traceOut_mem _ _ _ (fun c hc => s.unitOwner_lt page unit c hc) h

/-- With no context's trace in memory, a log record writes none. -/
theorem State.trace_mem (s : State) (n ctx arg0 arg1 : Nat) (h : ∀ c, c < 16 → s.getF fdObsCtrMode pgObs c ≠ 1) :
    (s.trace n ctx arg0 arg1).mem = s.mem := by
  unfold State.trace
  split
  · dsimp only
    rw [State.traceOut_mem]
    · rfl
    · intro c hc; split at hc <;> simp_all
    · intro c hc
      rw [State.getF_setF_ne _ _ _ _ _ _ _ _ (by simp only [descKey, fieldKey, fdSchedLogSeq, fdObsCtrMode, pgSched, pgObs]; omega)]
      exact h c hc
  · rfl

/-! ### The other parts of the state -/

@[simp] theorem State.event_shadow (s : State) (page unit : Nat) (cls : Option Nat) (code subject value : Nat) : (s.event page unit cls code subject value).shadow = s.shadow := by
  obtain ⟨_, _, _, _, _, _, h⟩ := State.event_frame s page unit cls code subject value; rw [h]
@[simp] theorem State.event_csrs (s : State) (page unit : Nat) (cls : Option Nat) (code subject value : Nat) : (s.event page unit cls code subject value).csrs = s.csrs := by
  obtain ⟨_, _, _, _, _, _, h⟩ := State.event_frame s page unit cls code subject value; rw [h]
@[simp] theorem State.event_xregs (s : State) (page unit : Nat) (cls : Option Nat) (code subject value : Nat) : (s.event page unit cls code subject value).xregs = s.xregs := by
  obtain ⟨_, _, _, _, _, _, h⟩ := State.event_frame s page unit cls code subject value; rw [h]
@[simp] theorem State.event_fregs (s : State) (page unit : Nat) (cls : Option Nat) (code subject value : Nat) : (s.event page unit cls code subject value).fregs = s.fregs := by
  obtain ⟨_, _, _, _, _, _, h⟩ := State.event_frame s page unit cls code subject value; rw [h]
@[simp] theorem State.event_vregs (s : State) (page unit : Nat) (cls : Option Nat) (code subject value : Nat) : (s.event page unit cls code subject value).vregs = s.vregs := by
  obtain ⟨_, _, _, _, _, _, h⟩ := State.event_frame s page unit cls code subject value; rw [h]
@[simp] theorem State.event_cores (s : State) (page unit : Nat) (cls : Option Nat) (code subject value : Nat) : (s.event page unit cls code subject value).cores = s.cores := by
  obtain ⟨_, _, _, _, _, _, h⟩ := State.event_frame s page unit cls code subject value; rw [h]
@[simp] theorem State.event_tally (s : State) (page unit : Nat) (cls : Option Nat) (code subject value : Nat) : (s.event page unit cls code subject value).tally = s.tally := by
  obtain ⟨_, _, _, _, _, _, h⟩ := State.event_frame s page unit cls code subject value; rw [h]
@[simp] theorem State.event_poisonWord (s : State) (page unit : Nat) (cls : Option Nat) (code subject value : Nat) : (s.event page unit cls code subject value).poisonWord = s.poisonWord := by
  obtain ⟨_, _, _, _, _, _, h⟩ := State.event_frame s page unit cls code subject value; rw [h]
@[simp] theorem State.event_counters (s : State) (page unit : Nat) (cls : Option Nat) (code subject value : Nat) : (s.event page unit cls code subject value).counters = s.counters := by
  obtain ⟨_, _, _, _, _, _, h⟩ := State.event_frame s page unit cls code subject value; rw [h]
@[simp] theorem State.event_waits (s : State) (page unit : Nat) (cls : Option Nat) (code subject value : Nat) : (s.event page unit cls code subject value).waits = s.waits := by
  obtain ⟨_, _, _, _, _, _, h⟩ := State.event_frame s page unit cls code subject value; rw [h]
@[simp] theorem State.event_arrived (s : State) (page unit : Nat) (cls : Option Nat) (code subject value : Nat) : (s.event page unit cls code subject value).arrived = s.arrived := by
  obtain ⟨_, _, _, _, _, _, h⟩ := State.event_frame s page unit cls code subject value; rw [h]
@[simp] theorem State.event_flasks (s : State) (page unit : Nat) (cls : Option Nat) (code subject value : Nat) : (s.event page unit cls code subject value).flasks = s.flasks := by
  obtain ⟨_, _, _, _, _, _, h⟩ := State.event_frame s page unit cls code subject value; rw [h]
@[simp] theorem State.event_tiles (s : State) (page unit : Nat) (cls : Option Nat) (code subject value : Nat) : (s.event page unit cls code subject value).tiles = s.tiles := by
  obtain ⟨_, _, _, _, _, _, h⟩ := State.event_frame s page unit cls code subject value; rw [h]
@[simp] theorem State.event_pdWatch (s : State) (page unit : Nat) (cls : Option Nat) (code subject value : Nat) : (s.event page unit cls code subject value).pdWatch = s.pdWatch := by
  obtain ⟨_, _, _, _, _, _, h⟩ := State.event_frame s page unit cls code subject value; rw [h]
@[simp] theorem State.event_hbm (s : State) (page unit : Nat) (cls : Option Nat) (code subject value : Nat) : (s.event page unit cls code subject value).hbm = s.hbm := by
  obtain ⟨_, _, _, _, _, _, h⟩ := State.event_frame s page unit cls code subject value; rw [h]
@[simp] theorem State.event_ecrok (s : State) (page unit : Nat) (cls : Option Nat) (code subject value : Nat) : (s.event page unit cls code subject value).ecrok = s.ecrok := by
  obtain ⟨_, _, _, _, _, _, h⟩ := State.event_frame s page unit cls code subject value; rw [h]
@[simp] theorem State.event_coh (s : State) (page unit : Nat) (cls : Option Nat) (code subject value : Nat) : (s.event page unit cls code subject value).coh = s.coh := by
  obtain ⟨_, _, _, _, _, _, h⟩ := State.event_frame s page unit cls code subject value; rw [h]
@[simp] theorem State.event_coll (s : State) (page unit : Nat) (cls : Option Nat) (code subject value : Nat) : (s.event page unit cls code subject value).coll = s.coll := by
  obtain ⟨_, _, _, _, _, _, h⟩ := State.event_frame s page unit cls code subject value; rw [h]
@[simp] theorem State.event_store (s : State) (page unit : Nat) (cls : Option Nat) (code subject value : Nat) : (s.event page unit cls code subject value).store = s.store := by
  obtain ⟨_, _, _, _, _, _, h⟩ := State.event_frame s page unit cls code subject value; rw [h]
@[simp] theorem State.event_power (s : State) (page unit : Nat) (cls : Option Nat) (code subject value : Nat) : (s.event page unit cls code subject value).power = s.power := by
  obtain ⟨_, _, _, _, _, _, h⟩ := State.event_frame s page unit cls code subject value; rw [h]
@[simp] theorem State.event_ports (s : State) (page unit : Nat) (cls : Option Nat) (code subject value : Nat) : (s.event page unit cls code subject value).ports = s.ports := by
  obtain ⟨_, _, _, _, _, _, h⟩ := State.event_frame s page unit cls code subject value; rw [h]
@[simp] theorem State.event_ftime (s : State) (page unit : Nat) (cls : Option Nat) (code subject value : Nat) : (s.event page unit cls code subject value).ftime = s.ftime := by
  obtain ⟨_, _, _, _, _, _, h⟩ := State.event_frame s page unit cls code subject value; rw [h]
@[simp] theorem State.event_lsa (s : State) (page unit : Nat) (cls : Option Nat) (code subject value : Nat) : (s.event page unit cls code subject value).lsa = s.lsa := by
  obtain ⟨_, _, _, _, _, _, h⟩ := State.event_frame s page unit cls code subject value; rw [h]
@[simp] theorem State.event_repro (s : State) (page unit : Nat) (cls : Option Nat) (code subject value : Nat) : (s.event page unit cls code subject value).repro = s.repro := by
  obtain ⟨_, _, _, _, _, _, h⟩ := State.event_frame s page unit cls code subject value; rw [h]
@[simp] theorem State.event_relPending (s : State) (page unit : Nat) (cls : Option Nat) (code subject value : Nat) : (s.event page unit cls code subject value).relPending = s.relPending := by
  obtain ⟨_, _, _, _, _, _, h⟩ := State.event_frame s page unit cls code subject value; rw [h]
@[simp] theorem State.event_ckpts (s : State) (page unit : Nat) (cls : Option Nat) (code subject value : Nat) : (s.event page unit cls code subject value).ckpts = s.ckpts := by
  obtain ⟨_, _, _, _, _, _, h⟩ := State.event_frame s page unit cls code subject value; rw [h]
@[simp] theorem State.event_promos (s : State) (page unit : Nat) (cls : Option Nat) (code subject value : Nat) : (s.event page unit cls code subject value).promos = s.promos := by
  obtain ⟨_, _, _, _, _, _, h⟩ := State.event_frame s page unit cls code subject value; rw [h]
@[simp] theorem State.event_ckptHeld (s : State) (page unit : Nat) (cls : Option Nat) (code subject value : Nat) : (s.event page unit cls code subject value).ckptHeld = s.ckptHeld := by
  obtain ⟨_, _, _, _, _, _, h⟩ := State.event_frame s page unit cls code subject value; rw [h]
@[simp] theorem State.event_log (s : State) (page unit : Nat) (cls : Option Nat) (code subject value : Nat) : (s.event page unit cls code subject value).log = s.log := by
  obtain ⟨_, _, _, _, _, _, h⟩ := State.event_frame s page unit cls code subject value; rw [h]
@[simp] theorem State.event_err (s : State) (page unit : Nat) (cls : Option Nat) (code subject value : Nat) : (s.event page unit cls code subject value).err = s.err := by
  obtain ⟨_, _, _, _, _, _, h⟩ := State.event_frame s page unit cls code subject value; rw [h]
@[simp] theorem State.event_urgentDue (s : State) (page unit : Nat) (cls : Option Nat) (code subject value : Nat) : (s.event page unit cls code subject value).urgentDue = s.urgentDue := by
  obtain ⟨_, _, _, _, _, _, h⟩ := State.event_frame s page unit cls code subject value; rw [h]
@[simp] theorem State.event_queues (s : State) (page unit : Nat) (cls : Option Nat) (code subject value : Nat) : (s.event page unit cls code subject value).queues = s.queues := by
  obtain ⟨_, _, _, _, _, _, h⟩ := State.event_frame s page unit cls code subject value; rw [h]
@[simp] theorem State.event_keys (s : State) (page unit : Nat) (cls : Option Nat) (code subject value : Nat) : (s.event page unit cls code subject value).keys = s.keys := by
  obtain ⟨_, _, _, _, _, _, h⟩ := State.event_frame s page unit cls code subject value; rw [h]
@[simp] theorem State.event_qps (s : State) (page unit : Nat) (cls : Option Nat) (code subject value : Nat) : (s.event page unit cls code subject value).qps = s.qps := by
  obtain ⟨_, _, _, _, _, _, h⟩ := State.event_frame s page unit cls code subject value; rw [h]
@[simp] theorem State.event_regions (s : State) (page unit : Nat) (cls : Option Nat) (code subject value : Nat) : (s.event page unit cls code subject value).regions = s.regions := by
  obtain ⟨_, _, _, _, _, _, h⟩ := State.event_frame s page unit cls code subject value; rw [h]
@[simp] theorem State.event_pauses (s : State) (page unit : Nat) (cls : Option Nat) (code subject value : Nat) : (s.event page unit cls code subject value).pauses = s.pauses := by
  obtain ⟨_, _, _, _, _, _, h⟩ := State.event_frame s page unit cls code subject value; rw [h]
@[simp] theorem State.event_pairs (s : State) (page unit : Nat) (cls : Option Nat) (code subject value : Nat) : (s.event page unit cls code subject value).pairs = s.pairs := by
  obtain ⟨_, _, _, _, _, _, h⟩ := State.event_frame s page unit cls code subject value; rw [h]
@[simp] theorem State.event_dike (s : State) (page unit : Nat) (cls : Option Nat) (code subject value : Nat) : (s.event page unit cls code subject value).dike = s.dike := by
  obtain ⟨_, _, _, _, _, _, h⟩ := State.event_frame s page unit cls code subject value; rw [h]
@[simp] theorem State.event_spdm (s : State) (page unit : Nat) (cls : Option Nat) (code subject value : Nat) : (s.event page unit cls code subject value).spdm = s.spdm := by
  obtain ⟨_, _, _, _, _, _, h⟩ := State.event_frame s page unit cls code subject value; rw [h]
@[simp] theorem State.event_boot (s : State) (page unit : Nat) (cls : Option Nat) (code subject value : Nat) : (s.event page unit cls code subject value).boot = s.boot := by
  obtain ⟨_, _, _, _, _, _, h⟩ := State.event_frame s page unit cls code subject value; rw [h]
@[simp] theorem State.event_flokan (s : State) (page unit : Nat) (cls : Option Nat) (code subject value : Nat) : (s.event page unit cls code subject value).flokan = s.flokan := by
  obtain ⟨_, _, _, _, _, _, h⟩ := State.event_frame s page unit cls code subject value; rw [h]
@[simp] theorem State.event_snaps (s : State) (page unit : Nat) (cls : Option Nat) (code subject value : Nat) : (s.event page unit cls code subject value).snaps = s.snaps := by
  obtain ⟨_, _, _, _, _, _, h⟩ := State.event_frame s page unit cls code subject value; rw [h]
@[simp] theorem State.event_snapPages (s : State) (page unit : Nat) (cls : Option Nat) (code subject value : Nat) : (s.event page unit cls code subject value).snapPages = s.snapPages := by
  obtain ⟨_, _, _, _, _, _, h⟩ := State.event_frame s page unit cls code subject value; rw [h]
@[simp] theorem State.event_side (s : State) (page unit : Nat) (cls : Option Nat) (code subject value : Nat) : (s.event page unit cls code subject value).side = s.side := by
  obtain ⟨_, _, _, _, _, _, h⟩ := State.event_frame s page unit cls code subject value; rw [h]
@[simp] theorem State.event_ctxs (s : State) (page unit : Nat) (cls : Option Nat) (code subject value : Nat) : (s.event page unit cls code subject value).ctxs = s.ctxs := by
  obtain ⟨_, _, _, _, _, _, h⟩ := State.event_frame s page unit cls code subject value; rw [h]
@[simp] theorem State.event_schedEvents (s : State) (page unit : Nat) (cls : Option Nat) (code subject value : Nat) : (s.event page unit cls code subject value).schedEvents = s.schedEvents := by
  obtain ⟨_, _, _, _, _, _, h⟩ := State.event_frame s page unit cls code subject value; rw [h]
@[simp] theorem State.event_out (s : State) (page unit : Nat) (cls : Option Nat) (code subject value : Nat) : (s.event page unit cls code subject value).out = s.out := by
  obtain ⟨_, _, _, _, _, _, h⟩ := State.event_frame s page unit cls code subject value; rw [h]
@[simp] theorem State.event_freeCount (s : State) (page unit : Nat) (cls : Option Nat) (code subject value : Nat) : (s.event page unit cls code subject value).freeCount = s.freeCount := by
  obtain ⟨_, _, _, _, _, _, h⟩ := State.event_frame s page unit cls code subject value; rw [h]
@[simp] theorem State.event_pending (s : State) (page unit : Nat) (cls : Option Nat) (code subject value : Nat) : (s.event page unit cls code subject value).pending = s.pending := by
  obtain ⟨_, _, _, _, _, _, h⟩ := State.event_frame s page unit cls code subject value; rw [h]
@[simp] theorem State.core_event (s : State) (page unit : Nat) (cls : Option Nat) (code subject value : Nat) (z : Nat) : (s.event page unit cls code subject value).core z = s.core z := by
  obtain ⟨_, _, _, _, _, _, h⟩ := State.event_frame s page unit cls code subject value; rw [h]; rfl
@[simp] theorem State.csr_event (s : State) (page unit : Nat) (cls : Option Nat) (code subject value : Nat) (z y : Nat) : (s.event page unit cls code subject value).csr z y = s.csr z y := by
  obtain ⟨_, _, _, _, _, _, h⟩ := State.event_frame s page unit cls code subject value; rw [h]; rfl
@[simp] theorem State.xreg_event (s : State) (page unit : Nat) (cls : Option Nat) (code subject value : Nat) (z y : Nat) : (s.event page unit cls code subject value).xreg z y = s.xreg z y := by
  obtain ⟨_, _, _, _, _, _, h⟩ := State.event_frame s page unit cls code subject value; rw [h]; rfl
@[simp] theorem State.ctx_event (s : State) (page unit : Nat) (cls : Option Nat) (code subject value : Nat) (z : Nat) : (s.event page unit cls code subject value).ctx z = s.ctx z := by
  obtain ⟨_, _, _, _, _, _, h⟩ := State.event_frame s page unit cls code subject value; rw [h]; rfl
@[simp] theorem State.flask_event (s : State) (page unit : Nat) (cls : Option Nat) (code subject value : Nat) (z : Nat) : (s.event page unit cls code subject value).flask z = s.flask z := by
  obtain ⟨_, _, _, _, _, _, h⟩ := State.event_frame s page unit cls code subject value; rw [h]; rfl
@[simp] theorem State.tile_event (s : State) (page unit : Nat) (cls : Option Nat) (code subject value : Nat) (z : Nat) : (s.event page unit cls code subject value).tile z = s.tile z := by
  obtain ⟨_, _, _, _, _, _, h⟩ := State.event_frame s page unit cls code subject value; rw [h]; rfl
@[simp] theorem State.counter_event (s : State) (page unit : Nat) (cls : Option Nat) (code subject value : Nat) (z : Nat) : (s.event page unit cls code subject value).counter z = s.counter z := by
  obtain ⟨_, _, _, _, _, _, h⟩ := State.event_frame s page unit cls code subject value; rw [h]; rfl
@[simp] theorem State.qp_event (s : State) (page unit : Nat) (cls : Option Nat) (code subject value : Nat) (z : Nat) : (s.event page unit cls code subject value).qp z = s.qp z := by
  obtain ⟨_, _, _, _, _, _, h⟩ := State.event_frame s page unit cls code subject value; rw [h]; rfl
@[simp] theorem State.queue_event (s : State) (page unit : Nat) (cls : Option Nat) (code subject value : Nat) (z : Nat) : (s.event page unit cls code subject value).queue z = s.queue z := by
  obtain ⟨_, _, _, _, _, _, h⟩ := State.event_frame s page unit cls code subject value; rw [h]; rfl
@[simp] theorem State.pause_event (s : State) (page unit : Nat) (cls : Option Nat) (code subject value : Nat) (z : Nat) : (s.event page unit cls code subject value).pause z = s.pause z := by
  obtain ⟨_, _, _, _, _, _, h⟩ := State.event_frame s page unit cls code subject value; rw [h]; rfl
@[simp] theorem State.port_event (s : State) (page unit : Nat) (cls : Option Nat) (code subject value : Nat) (z : Nat) : (s.event page unit cls code subject value).port z = s.port z := by
  obtain ⟨_, _, _, _, _, _, h⟩ := State.event_frame s page unit cls code subject value; rw [h]; rfl
@[simp] theorem State.desc_event (s : State) (page unit : Nat) (cls : Option Nat) (code subject value : Nat) (z y : Nat) : (s.event page unit cls code subject value).desc z y = s.desc z y := by
  obtain ⟨_, _, _, _, _, _, h⟩ := State.event_frame s page unit cls code subject value; rw [h]; rfl
@[simp] theorem State.trace_shadow (s : State) (p ctx arg0 arg1 : Nat) : (s.trace p ctx arg0 arg1).shadow = s.shadow := by
  obtain ⟨_, _, _, _, _, _, h⟩ := State.trace_frame s p ctx arg0 arg1; rw [h]
@[simp] theorem State.trace_csrs (s : State) (p ctx arg0 arg1 : Nat) : (s.trace p ctx arg0 arg1).csrs = s.csrs := by
  obtain ⟨_, _, _, _, _, _, h⟩ := State.trace_frame s p ctx arg0 arg1; rw [h]
@[simp] theorem State.trace_xregs (s : State) (p ctx arg0 arg1 : Nat) : (s.trace p ctx arg0 arg1).xregs = s.xregs := by
  obtain ⟨_, _, _, _, _, _, h⟩ := State.trace_frame s p ctx arg0 arg1; rw [h]
@[simp] theorem State.trace_fregs (s : State) (p ctx arg0 arg1 : Nat) : (s.trace p ctx arg0 arg1).fregs = s.fregs := by
  obtain ⟨_, _, _, _, _, _, h⟩ := State.trace_frame s p ctx arg0 arg1; rw [h]
@[simp] theorem State.trace_vregs (s : State) (p ctx arg0 arg1 : Nat) : (s.trace p ctx arg0 arg1).vregs = s.vregs := by
  obtain ⟨_, _, _, _, _, _, h⟩ := State.trace_frame s p ctx arg0 arg1; rw [h]
@[simp] theorem State.trace_cores (s : State) (p ctx arg0 arg1 : Nat) : (s.trace p ctx arg0 arg1).cores = s.cores := by
  obtain ⟨_, _, _, _, _, _, h⟩ := State.trace_frame s p ctx arg0 arg1; rw [h]
@[simp] theorem State.trace_tally (s : State) (p ctx arg0 arg1 : Nat) : (s.trace p ctx arg0 arg1).tally = s.tally := by
  obtain ⟨_, _, _, _, _, _, h⟩ := State.trace_frame s p ctx arg0 arg1; rw [h]
@[simp] theorem State.trace_poisonWord (s : State) (p ctx arg0 arg1 : Nat) : (s.trace p ctx arg0 arg1).poisonWord = s.poisonWord := by
  obtain ⟨_, _, _, _, _, _, h⟩ := State.trace_frame s p ctx arg0 arg1; rw [h]
@[simp] theorem State.trace_counters (s : State) (p ctx arg0 arg1 : Nat) : (s.trace p ctx arg0 arg1).counters = s.counters := by
  obtain ⟨_, _, _, _, _, _, h⟩ := State.trace_frame s p ctx arg0 arg1; rw [h]
@[simp] theorem State.trace_waits (s : State) (p ctx arg0 arg1 : Nat) : (s.trace p ctx arg0 arg1).waits = s.waits := by
  obtain ⟨_, _, _, _, _, _, h⟩ := State.trace_frame s p ctx arg0 arg1; rw [h]
@[simp] theorem State.trace_arrived (s : State) (p ctx arg0 arg1 : Nat) : (s.trace p ctx arg0 arg1).arrived = s.arrived := by
  obtain ⟨_, _, _, _, _, _, h⟩ := State.trace_frame s p ctx arg0 arg1; rw [h]
@[simp] theorem State.trace_flasks (s : State) (p ctx arg0 arg1 : Nat) : (s.trace p ctx arg0 arg1).flasks = s.flasks := by
  obtain ⟨_, _, _, _, _, _, h⟩ := State.trace_frame s p ctx arg0 arg1; rw [h]
@[simp] theorem State.trace_tiles (s : State) (p ctx arg0 arg1 : Nat) : (s.trace p ctx arg0 arg1).tiles = s.tiles := by
  obtain ⟨_, _, _, _, _, _, h⟩ := State.trace_frame s p ctx arg0 arg1; rw [h]
@[simp] theorem State.trace_pdWatch (s : State) (p ctx arg0 arg1 : Nat) : (s.trace p ctx arg0 arg1).pdWatch = s.pdWatch := by
  obtain ⟨_, _, _, _, _, _, h⟩ := State.trace_frame s p ctx arg0 arg1; rw [h]
@[simp] theorem State.trace_hbm (s : State) (p ctx arg0 arg1 : Nat) : (s.trace p ctx arg0 arg1).hbm = s.hbm := by
  obtain ⟨_, _, _, _, _, _, h⟩ := State.trace_frame s p ctx arg0 arg1; rw [h]
@[simp] theorem State.trace_ecrok (s : State) (p ctx arg0 arg1 : Nat) : (s.trace p ctx arg0 arg1).ecrok = s.ecrok := by
  obtain ⟨_, _, _, _, _, _, h⟩ := State.trace_frame s p ctx arg0 arg1; rw [h]
@[simp] theorem State.trace_coh (s : State) (p ctx arg0 arg1 : Nat) : (s.trace p ctx arg0 arg1).coh = s.coh := by
  obtain ⟨_, _, _, _, _, _, h⟩ := State.trace_frame s p ctx arg0 arg1; rw [h]
@[simp] theorem State.trace_coll (s : State) (p ctx arg0 arg1 : Nat) : (s.trace p ctx arg0 arg1).coll = s.coll := by
  obtain ⟨_, _, _, _, _, _, h⟩ := State.trace_frame s p ctx arg0 arg1; rw [h]
@[simp] theorem State.trace_store (s : State) (p ctx arg0 arg1 : Nat) : (s.trace p ctx arg0 arg1).store = s.store := by
  obtain ⟨_, _, _, _, _, _, h⟩ := State.trace_frame s p ctx arg0 arg1; rw [h]
@[simp] theorem State.trace_power (s : State) (p ctx arg0 arg1 : Nat) : (s.trace p ctx arg0 arg1).power = s.power := by
  obtain ⟨_, _, _, _, _, _, h⟩ := State.trace_frame s p ctx arg0 arg1; rw [h]
@[simp] theorem State.trace_ports (s : State) (p ctx arg0 arg1 : Nat) : (s.trace p ctx arg0 arg1).ports = s.ports := by
  obtain ⟨_, _, _, _, _, _, h⟩ := State.trace_frame s p ctx arg0 arg1; rw [h]
@[simp] theorem State.trace_ftime (s : State) (p ctx arg0 arg1 : Nat) : (s.trace p ctx arg0 arg1).ftime = s.ftime := by
  obtain ⟨_, _, _, _, _, _, h⟩ := State.trace_frame s p ctx arg0 arg1; rw [h]
@[simp] theorem State.trace_lsa (s : State) (p ctx arg0 arg1 : Nat) : (s.trace p ctx arg0 arg1).lsa = s.lsa := by
  obtain ⟨_, _, _, _, _, _, h⟩ := State.trace_frame s p ctx arg0 arg1; rw [h]
@[simp] theorem State.trace_repro (s : State) (p ctx arg0 arg1 : Nat) : (s.trace p ctx arg0 arg1).repro = s.repro := by
  obtain ⟨_, _, _, _, _, _, h⟩ := State.trace_frame s p ctx arg0 arg1; rw [h]
@[simp] theorem State.trace_relPending (s : State) (p ctx arg0 arg1 : Nat) : (s.trace p ctx arg0 arg1).relPending = s.relPending := by
  obtain ⟨_, _, _, _, _, _, h⟩ := State.trace_frame s p ctx arg0 arg1; rw [h]
@[simp] theorem State.trace_ckpts (s : State) (p ctx arg0 arg1 : Nat) : (s.trace p ctx arg0 arg1).ckpts = s.ckpts := by
  obtain ⟨_, _, _, _, _, _, h⟩ := State.trace_frame s p ctx arg0 arg1; rw [h]
@[simp] theorem State.trace_promos (s : State) (p ctx arg0 arg1 : Nat) : (s.trace p ctx arg0 arg1).promos = s.promos := by
  obtain ⟨_, _, _, _, _, _, h⟩ := State.trace_frame s p ctx arg0 arg1; rw [h]
@[simp] theorem State.trace_ckptHeld (s : State) (p ctx arg0 arg1 : Nat) : (s.trace p ctx arg0 arg1).ckptHeld = s.ckptHeld := by
  obtain ⟨_, _, _, _, _, _, h⟩ := State.trace_frame s p ctx arg0 arg1; rw [h]
@[simp] theorem State.trace_rings (s : State) (p ctx arg0 arg1 : Nat) : (s.trace p ctx arg0 arg1).rings = s.rings := by
  obtain ⟨_, _, _, _, _, _, h⟩ := State.trace_frame s p ctx arg0 arg1; rw [h]
@[simp] theorem State.trace_err (s : State) (p ctx arg0 arg1 : Nat) : (s.trace p ctx arg0 arg1).err = s.err := by
  obtain ⟨_, _, _, _, _, _, h⟩ := State.trace_frame s p ctx arg0 arg1; rw [h]
@[simp] theorem State.trace_urgentDue (s : State) (p ctx arg0 arg1 : Nat) : (s.trace p ctx arg0 arg1).urgentDue = s.urgentDue := by
  obtain ⟨_, _, _, _, _, _, h⟩ := State.trace_frame s p ctx arg0 arg1; rw [h]
@[simp] theorem State.trace_queues (s : State) (p ctx arg0 arg1 : Nat) : (s.trace p ctx arg0 arg1).queues = s.queues := by
  obtain ⟨_, _, _, _, _, _, h⟩ := State.trace_frame s p ctx arg0 arg1; rw [h]
@[simp] theorem State.trace_keys (s : State) (p ctx arg0 arg1 : Nat) : (s.trace p ctx arg0 arg1).keys = s.keys := by
  obtain ⟨_, _, _, _, _, _, h⟩ := State.trace_frame s p ctx arg0 arg1; rw [h]
@[simp] theorem State.trace_qps (s : State) (p ctx arg0 arg1 : Nat) : (s.trace p ctx arg0 arg1).qps = s.qps := by
  obtain ⟨_, _, _, _, _, _, h⟩ := State.trace_frame s p ctx arg0 arg1; rw [h]
@[simp] theorem State.trace_regions (s : State) (p ctx arg0 arg1 : Nat) : (s.trace p ctx arg0 arg1).regions = s.regions := by
  obtain ⟨_, _, _, _, _, _, h⟩ := State.trace_frame s p ctx arg0 arg1; rw [h]
@[simp] theorem State.trace_pauses (s : State) (p ctx arg0 arg1 : Nat) : (s.trace p ctx arg0 arg1).pauses = s.pauses := by
  obtain ⟨_, _, _, _, _, _, h⟩ := State.trace_frame s p ctx arg0 arg1; rw [h]
@[simp] theorem State.trace_pairs (s : State) (p ctx arg0 arg1 : Nat) : (s.trace p ctx arg0 arg1).pairs = s.pairs := by
  obtain ⟨_, _, _, _, _, _, h⟩ := State.trace_frame s p ctx arg0 arg1; rw [h]
@[simp] theorem State.trace_dike (s : State) (p ctx arg0 arg1 : Nat) : (s.trace p ctx arg0 arg1).dike = s.dike := by
  obtain ⟨_, _, _, _, _, _, h⟩ := State.trace_frame s p ctx arg0 arg1; rw [h]
@[simp] theorem State.trace_spdm (s : State) (p ctx arg0 arg1 : Nat) : (s.trace p ctx arg0 arg1).spdm = s.spdm := by
  obtain ⟨_, _, _, _, _, _, h⟩ := State.trace_frame s p ctx arg0 arg1; rw [h]
@[simp] theorem State.trace_boot (s : State) (p ctx arg0 arg1 : Nat) : (s.trace p ctx arg0 arg1).boot = s.boot := by
  obtain ⟨_, _, _, _, _, _, h⟩ := State.trace_frame s p ctx arg0 arg1; rw [h]
@[simp] theorem State.trace_flokan (s : State) (p ctx arg0 arg1 : Nat) : (s.trace p ctx arg0 arg1).flokan = s.flokan := by
  obtain ⟨_, _, _, _, _, _, h⟩ := State.trace_frame s p ctx arg0 arg1; rw [h]
@[simp] theorem State.trace_snaps (s : State) (p ctx arg0 arg1 : Nat) : (s.trace p ctx arg0 arg1).snaps = s.snaps := by
  obtain ⟨_, _, _, _, _, _, h⟩ := State.trace_frame s p ctx arg0 arg1; rw [h]
@[simp] theorem State.trace_snapPages (s : State) (p ctx arg0 arg1 : Nat) : (s.trace p ctx arg0 arg1).snapPages = s.snapPages := by
  obtain ⟨_, _, _, _, _, _, h⟩ := State.trace_frame s p ctx arg0 arg1; rw [h]
@[simp] theorem State.trace_side (s : State) (p ctx arg0 arg1 : Nat) : (s.trace p ctx arg0 arg1).side = s.side := by
  obtain ⟨_, _, _, _, _, _, h⟩ := State.trace_frame s p ctx arg0 arg1; rw [h]
@[simp] theorem State.trace_ctxs (s : State) (p ctx arg0 arg1 : Nat) : (s.trace p ctx arg0 arg1).ctxs = s.ctxs := by
  obtain ⟨_, _, _, _, _, _, h⟩ := State.trace_frame s p ctx arg0 arg1; rw [h]
@[simp] theorem State.trace_schedEvents (s : State) (p ctx arg0 arg1 : Nat) : (s.trace p ctx arg0 arg1).schedEvents = s.schedEvents := by
  obtain ⟨_, _, _, _, _, _, h⟩ := State.trace_frame s p ctx arg0 arg1; rw [h]
@[simp] theorem State.trace_out (s : State) (p ctx arg0 arg1 : Nat) : (s.trace p ctx arg0 arg1).out = s.out := by
  obtain ⟨_, _, _, _, _, _, h⟩ := State.trace_frame s p ctx arg0 arg1; rw [h]
@[simp] theorem State.trace_freeCount (s : State) (p ctx arg0 arg1 : Nat) : (s.trace p ctx arg0 arg1).freeCount = s.freeCount := by
  obtain ⟨_, _, _, _, _, _, h⟩ := State.trace_frame s p ctx arg0 arg1; rw [h]
@[simp] theorem State.trace_pending (s : State) (p ctx arg0 arg1 : Nat) : (s.trace p ctx arg0 arg1).pending = s.pending := by
  obtain ⟨_, _, _, _, _, _, h⟩ := State.trace_frame s p ctx arg0 arg1; rw [h]
@[simp] theorem State.core_trace (s : State) (p ctx arg0 arg1 : Nat) (z : Nat) : (s.trace p ctx arg0 arg1).core z = s.core z := by
  obtain ⟨_, _, _, _, _, _, h⟩ := State.trace_frame s p ctx arg0 arg1; rw [h]; rfl
@[simp] theorem State.csr_trace (s : State) (p ctx arg0 arg1 : Nat) (z y : Nat) : (s.trace p ctx arg0 arg1).csr z y = s.csr z y := by
  obtain ⟨_, _, _, _, _, _, h⟩ := State.trace_frame s p ctx arg0 arg1; rw [h]; rfl
@[simp] theorem State.xreg_trace (s : State) (p ctx arg0 arg1 : Nat) (z y : Nat) : (s.trace p ctx arg0 arg1).xreg z y = s.xreg z y := by
  obtain ⟨_, _, _, _, _, _, h⟩ := State.trace_frame s p ctx arg0 arg1; rw [h]; rfl
@[simp] theorem State.ctx_trace (s : State) (p ctx arg0 arg1 : Nat) (z : Nat) : (s.trace p ctx arg0 arg1).ctx z = s.ctx z := by
  obtain ⟨_, _, _, _, _, _, h⟩ := State.trace_frame s p ctx arg0 arg1; rw [h]; rfl
@[simp] theorem State.flask_trace (s : State) (p ctx arg0 arg1 : Nat) (z : Nat) : (s.trace p ctx arg0 arg1).flask z = s.flask z := by
  obtain ⟨_, _, _, _, _, _, h⟩ := State.trace_frame s p ctx arg0 arg1; rw [h]; rfl
@[simp] theorem State.tile_trace (s : State) (p ctx arg0 arg1 : Nat) (z : Nat) : (s.trace p ctx arg0 arg1).tile z = s.tile z := by
  obtain ⟨_, _, _, _, _, _, h⟩ := State.trace_frame s p ctx arg0 arg1; rw [h]; rfl
@[simp] theorem State.counter_trace (s : State) (p ctx arg0 arg1 : Nat) (z : Nat) : (s.trace p ctx arg0 arg1).counter z = s.counter z := by
  obtain ⟨_, _, _, _, _, _, h⟩ := State.trace_frame s p ctx arg0 arg1; rw [h]; rfl
@[simp] theorem State.qp_trace (s : State) (p ctx arg0 arg1 : Nat) (z : Nat) : (s.trace p ctx arg0 arg1).qp z = s.qp z := by
  obtain ⟨_, _, _, _, _, _, h⟩ := State.trace_frame s p ctx arg0 arg1; rw [h]; rfl
@[simp] theorem State.queue_trace (s : State) (p ctx arg0 arg1 : Nat) (z : Nat) : (s.trace p ctx arg0 arg1).queue z = s.queue z := by
  obtain ⟨_, _, _, _, _, _, h⟩ := State.trace_frame s p ctx arg0 arg1; rw [h]; rfl
@[simp] theorem State.pause_trace (s : State) (p ctx arg0 arg1 : Nat) (z : Nat) : (s.trace p ctx arg0 arg1).pause z = s.pause z := by
  obtain ⟨_, _, _, _, _, _, h⟩ := State.trace_frame s p ctx arg0 arg1; rw [h]; rfl
@[simp] theorem State.port_trace (s : State) (p ctx arg0 arg1 : Nat) (z : Nat) : (s.trace p ctx arg0 arg1).port z = s.port z := by
  obtain ⟨_, _, _, _, _, _, h⟩ := State.trace_frame s p ctx arg0 arg1; rw [h]; rfl
@[simp] theorem State.ring_trace (s : State) (p ctx arg0 arg1 : Nat) (z y : Nat) : (s.trace p ctx arg0 arg1).ring z y = s.ring z y := by
  obtain ⟨_, _, _, _, _, _, h⟩ := State.trace_frame s p ctx arg0 arg1; rw [h]; rfl
@[simp] theorem State.desc_trace (s : State) (p ctx arg0 arg1 : Nat) (z y : Nat) : (s.trace p ctx arg0 arg1).desc z y = s.desc z y := by
  obtain ⟨_, _, _, _, _, _, h⟩ := State.trace_frame s p ctx arg0 arg1; rw [h]; rfl

end Sys2Proof.Machine
end

