-- ==== Sys2Proof/WellFormed.lean ====
section
/-! DEFINITION. Which commands are well formed: lengths that the operands' own rules fix. -/
namespace Sys2Proof

/-- A core access is of 1, 2, 4 or 8 bytes. -/
def sizeWf (n : Nat) : Bool := n = 1 || n = 2 || n = 4 || n = 8

/-- A packet's payload is at most 256 bytes (R307). -/
def packetWf (pk : Packet) : Bool := pk.payload.length ≤ 256

/-- A capsule or a chain's join holds the body it declares (R380, R381). -/
def capsuleWf (c : Capsule) : Bool := c.body.length = c.bodyLen

/-- The checks of a command's operands. -/
def Instr.wf : Instr → Bool
  | .coreLoad _ _ n _ _ => sizeWf n
  | .coreStore _ _ n _ => sizeWf n
  | .hbmRead _ _ n => 1 ≤ n
  | .hbmWrite _ _ d _ => 1 ≤ d.length
  | .hbmAtomic _ _ _ _ _ d _ => d.length ≤ 128
  | .flitReceive _ f => f.length = 256
  | .laneErrorWindow _ l => l.length = 18
  | .read _ pk | .write _ pk | .atomic _ pk | .atomicF _ pk | .msg _ pk | .rupdate _ pk => packetWf pk
  | .respData _ pk | .respAck _ pk => packetWf pk
  | .packetForward _ pk => packetWf pk
  | .collUp _ pk | .collDown _ pk | .quickUp _ pk | .quickDown _ pk => packetWf pk
  | .graphLoad _ c | .ctxOpen _ c | .sessionOpen _ c | .regWrite _ c => capsuleWf c
  | .stage _ p | .launch _ p | .count _ p | .commit _ p | .abort _ p => p.length ≤ 256
  | _ => true

end Sys2Proof
end

