-- ==== Sys2Proof/Tests/Slice0.lean ====
section
/-! SUPPORT. Tests: a term that each well-formedness check refuses, values that the spec works out, and for every statement with hypotheses
a state and operands that meet them (`witness_<the statement's name>`). A hypothesis that names an opaque constant of `Config` (a
signature that verifies, an address that is the node's own) has no concrete witness and is left out of these; NOTES.md lists them. -/
open Sys2Proof Sys2Proof.Machine

section

set_option Elab.async false

/-- The state after reset. -/
abbrev w0 : State := State.reset

/-- Flask 0 in a state of R38. -/
abbrev wFlask (v : Nat) : State := w0.setF fdFlaskPstateState (pgFlask 0) 0 v

/-- A flask in service. -/
abbrev wAwake : State := wFlask psAwake

/-! ### Terms that the well-formedness checks refuse, one for each check -/

theorem test_wf_load_size : (Instr.coreLoad (.sched 0) 0 3 false 1).wf = false := by decide
theorem test_wf_store_size : (Instr.coreStore (.sched 0) 0 16 0).wf = false := by decide
theorem test_wf_read_length : (Instr.hbmRead .firmware 0 0).wf = false := by decide
theorem test_wf_write_length : (Instr.hbmWrite .firmware 0 [] false).wf = false := by decide
theorem test_wf_flit_length : (Instr.flitReceive 0 (List.replicate 255 0)).wf = false := by decide +kernel
theorem test_wf_lanes : (Instr.laneErrorWindow 0 (List.replicate 17 0)).wf = false := by decide
theorem test_wf_packet : (Instr.write 0 { kind := 2, dst := 0, src := 0, payload := List.replicate 257 0 }).wf = false := by decide +kernel
theorem test_wf_capsule : (Instr.graphLoad 0 { bodyLen := 16, body := [] }).wf = false := by decide
theorem test_wf_message : (Instr.launch 0 (List.replicate 257 0)).wf = false := by decide +kernel

/-! ### Values that the spec states -/

/-- The worked example under R553: the store to offset 0x4C8 dropped as BUSY for a scheduler core. -/
theorem test_field_reject_example : (w0.reject pgFtime 0x4C8 2 1).getF fdComFieldReject pgFtime = 0x809404C8 := by decide +kernel
/-- The same example from the comparator's word on: 0x302 stands, 0x303 is stored by scheduler core 1. -/
theorem test_comparator_example :
    let s := ((w0.setF fdFtimeRelArm pgFtime 3 1).setF fdFtimeRelSlot pgFtime 3 2).setF fdFtimeRelLate pgFtime 3 1
    s.pageValue pgFtime 0x4C8 8 = 0x302 ∧ s.judge pgFtime 8 (s.written pgFtime 0x4C8 8 0x202) = 0 ∧
      ((s.tryStore 1 pgFtime 0x4C8 8 0x202).1).pageValue pgFtime 0x4C8 8 = 0x102 ∧
      ((s.tryStore 1 pgFtime 0x4C8 8 0x303).1).getF fdComFieldReject pgFtime = 0x809404C8 := by decide +kernel
/-- The text under R304: Z = 0, Y = 1, X = 3 and W = 2 are node field 0x8E. -/
theorem test_position_example :
    (match exec (.i3cPositionWrite 3 1 0 (3 ^^^ 1 ^^^ 0xA5)) (w0.setF fdNodectlPosStraps pgNodectl 0 2) with
      | .next t => t.nodeId
      | _ => 0) = 0x8E := by decide +kernel
/-- R62: 1 + 2⁻⁵³ is a tie and stays the even 1, inexactly. -/
theorem test_tie_to_even : fmtFP64.addV (fmtFP64.decode 0x3FF0000000000000) (fmtFP64.decode 0x3CA0000000000000) = (0x3FF0000000000000, flNX) := by
  decide +kernel
/-- R66: the largest E4M3 value is 448, and E2M1's is 6. -/
theorem test_largest_e4m3 : fmtE4M3.convert (fmtFP32.decode 0x43E00000) false = (0x7E, 0) ∧ fmtE2M1.convert (fmtFP32.decode 0x40C00000) false = (0x7, 0) := by
  decide +kernel
/-- R69: a value above FP32's range becomes infinity with OF and NX, whatever SAT says. -/
theorem test_fp32_overflow : fmtFP32.round false 7 140 = (0x7F800000, flOF + flNX) := by decide +kernel
/-- R76: 127 × 4 + 2, scaled by 2⁻², is a tie that rounds to 128 and clamps to 127. -/
theorem test_narrow_clamps : narrowInt 8 true 510 2 = (127, flSAT + flNX) := by decide +kernel
/-- R69: 3.5 rounds to the even 4. -/
theorem test_to_int_even : toInt 8 true (fmtFP32.decode 0x40600000) = (4, flNX) := by decide +kernel
/-- R293: the field's polynomial 0x11D, and an inverse. -/
theorem test_field_polynomial : gfMul 0x80 2 = 0x1D ∧ gfMul 7 (gfInv 7) = 1 := by decide +kernel
/-- R473: HARD at 105 °C, held at 104, left at 103. -/
theorem test_hard_hysteresis : dieStateOf 0 105 = 2 ∧ dieStateOf 2 104 = 2 ∧ dieStateOf 2 103 = 1 ∧ dieStateOf 0 94 = 0 := by decide
/-- R460: 48 V is NOMINAL; 39 V is LOW; 61 V is HIGH. -/
theorem test_supply_levels : supplyOf 4800 2 = 0 ∧ supplyOf 3900 0 = 1 ∧ supplyOf 6100 0 = 2 := by decide
/-- R582: a position with a wrong check byte changes nothing. -/
theorem test_position_check : exec (.i3cPositionWrite 3 1 0 0) w0 = .next w0 := by rfl

/-! ### The statements' hypotheses -/

theorem witness_QuietStateStays : w0.quiet := by unfold State.quiet; decide +kernel

theorem witness_StepKeepsMemoryCanonical : memWf w0.mem = true ∧ ∃ t, step w0 = .next t := ⟨by decide +kernel, _, rfl⟩

theorem witness_StepKeepsQueueOrder : ∃ t, step { w0 with pending := [.traceSync] } = .next t := ⟨_, rfl⟩

theorem witness_RegisterWriteStoresField : writerCode .reeve = some 0 ∧ pageAccessOk 0x12C 4 = true ∧ blockCode pgErragg ≠ 0 ∧
    w0.absentPage pgErragg = false ∧ w0.written pgErragg 0x12C 4 255 = [⟨fdErraggThrRowRepair, 0, 255⟩] ∧
    w0.judge pgErragg 4 [⟨fdErraggThrRowRepair, 0, 255⟩] = 0 ∧ plainField fdErraggThrRowRepair = true := by decide +kernel

theorem witness_DroppedStoreOnlyRecorded : writerCode (.sched 3) = some 1 ∧ pageAccessOk 0x12C 4 = true ∧ blockCode pgErragg ≠ 0 ∧
    w0.absentPage pgErragg = false ∧ w0.written pgErragg 0x12C 4 0 ≠ [] ∧
    w0.judge pgErragg 4 (w0.written pgErragg 0x12C 4 0) = 1 ∧
    (w0.written pgErragg 0x12C 4 0).all (fun w => !w0.listed pgErragg (w0.written pgErragg 0x12C 4 0) w) = true := by decide +kernel

theorem witness_EmptyStoreChangesNothing : writerCode .reeve = some 0 ∧ pageAccessOk 0xFFC 4 = true ∧ blockCode 0xFFFFF = 0 ∧
    (w0.setF fdNodectlIdentOrderCode pgNodectl 0 0x1908).absentPage (pgHbmc 2) = true ∧ w0.written pgErragg 0xFFC 4 1 = [] := by decide +kernel

/-- Port 17 UP. -/
abbrev wPort : State := w0.setF fdPortState (pgPort 17) 0 psUp

theorem witness_ControlStores :
    w0.storeTaken .reeve 0 0x010 4 (w0.bitWord 0 0x010 1 true) [⟨fdComCtrlQuiesce, 0, 1⟩] ∧
    (w0.setF fdComCtrlEnable 255 0 0).storeTaken .reeve 255 0x010 4 ((w0.setF fdComCtrlEnable 255 0 0).bitWord 255 0x010 0 true)
      [⟨fdComCtrlEnable, 0, 1⟩] ∧
    w0.storeTaken .reeve (pgFlask 255) 0x010 4 (w0.bitWord (pgFlask 255) 0x010 0 false) [⟨fdComCtrlEnable, 0, 0⟩] ∧
    w0.storeTaken .reeve 0 0x010 4 (w0.bitWord 0 0x010 2 true) [⟨fdComCtrlReset, 0, 1⟩] ∧
    w0.storeTaken (.sched 0) 0 0x018 4 1 [⟨fdComCommitGo, 0, 1⟩] ∧ fdFlaskGateIdleCycles ∈ shadowedFields ∧
    fdFlaskGateIdleCycles.code = blockCode 0 ∧ w0.blockIdle 0 = true ∧ (wAwake.setFlask 0 { imem := some ⟨1, 0, 256⟩ }).blockIdle 0 = false := by
  unfold State.storeTaken; and_intros <;> decide +kernel

theorem witness_FlaskStores :
    wAwake.storeTaken .reeve (pgFlask 0) 0x104 4 1 [⟨fdFlaskPcmdCmd, 0, 1⟩] ∧ wAwake.pstate 0 = psAwake ∧
    w0.storeTaken .reeve (pgFlask 255) 0x104 4 2 [⟨fdFlaskPcmdCmd, 0, 2⟩] ∧ w0.pstate 255 = psAsleep ∧
    (wFlask psEntering).storeTaken .reeve (pgFlask 0) 0x104 4 2 [⟨fdFlaskPcmdCmd, 0, 2⟩] ∧ (wFlask psEntering).pstate 0 = psEntering ∧
    wAwake.storeTaken .reeve (pgFlask 0) 0x128 4 0x8100FFFF ([⟨fdFlaskImemCtrlTiles, 0, 0xFFFF⟩, ⟨fdFlaskImemCtrlLen, 0, 256⟩] ++
      [⟨fdFlaskImemCtrlGo, 0, 1⟩]) ∧
    w0.storeTaken .reeve (pgFlask 0) 0x10C 4 0xFFFFFFFF [⟨fdFlaskGateHoldMx, 0, 0xFFFF⟩, ⟨fdFlaskGateHoldSv, 0, 0xFFFF⟩] := by
  unfold State.storeTaken; and_intros <;> decide +kernel

theorem witness_CommandStores :
    wPort.storeTaken .reeve (pgPort 17) 0x124 4 (15 + 2 ^ 31) ([⟨fdPortSwapCircuit, 0, 15⟩] ++ [⟨fdPortSwapGo, 0, 1⟩]) ∧
    (wPort.putAll (pgPort 17) [⟨fdPortSwapCircuit, 0, 15⟩]).portUp 17 = true ∧
    w0.storeTaken .reeve pgFtime (0x408 + 64 * 31) 8 0x10F ([⟨fdFtimeRelSlot, 31, 7⟩, ⟨fdFtimeRelAction, 31, 1⟩] ++ [⟨fdFtimeRelArm, 31, 1⟩]) ∧
    w0.now ≤ w0.getF fdFtimeRelTime pgFtime 31 ∧
    w0.storeTaken .reeve 0 0x02C 4 (2 ^ 8 + 15) ([⟨fdErrErrInjectSource, 0, 15⟩] ++ [⟨fdErrErrInjectGo, 0, 1⟩]) ∧
    w0.storeTaken .reeve pgPower 0x13C 4 1 [⟨fdPowerIdleCmd, 0, 1⟩] ∧ w0.getF fdPowerIdleState pgPower < 2 ∧
    (w0.setF fdPowerIdleState pgPower 0 3).storeTaken .reeve pgPower 0x13C 4 2 [⟨fdPowerIdleCmd, 0, 2⟩] ∧
    (w0.setF fdPowerIdleState pgPower 0 2).storeTaken .reeve pgPower 0x13C 4 2 [⟨fdPowerIdleCmd, 0, 2⟩] ∧
    w0.storeTaken .reeve 0 0x080 4 (w0.bitWord 0 0x080 16 true) [⟨fdEvrEvrFreeze, 0, 1⟩] ∧
    (w0.setF fdObsSnapTime pgObs 0 (2 ^ 64 - 1)).storeTaken .reeve pgObs 0x118 4 0x17F ([] ++ [⟨fdObsSnapArm, 0, 1⟩]) ∧
    (w0.setF fdObsSnapTime pgObs 0 (2 ^ 64 - 1)).now < (w0.setF fdObsSnapTime pgObs 0 (2 ^ 64 - 1)).getF fdObsSnapTime pgObs ∧
    (w0.setF fdObsSnapHeld pgObs 0 1).storeTaken .reeve pgObs 0x118 4 ((w0.setF fdObsSnapHeld pgObs 0 1).bitWord pgObs 0x118 10 true)
      [⟨fdObsSnapRelease, 0, 1⟩] := by
  unfold State.storeTaken; and_intros <;> decide +kernel

theorem witness_FlaskEvents :
    (wFlask psEntering).pstate 0 = psEntering ∧ w0.pstate 255 = psAsleep ∧ (wFlask psWaking).pstate 0 = psWaking ∧
    ((wFlask psWaking).flask 0).held = [] ∧ w0.relPending = [] ∧
    (wAwake.setUnit 15 .sv true).serves (flaskOf 15) = true ∧ (wAwake.setUnit 15 .sv true).unitOn 15 .sv = true ∧
    (wAwake.setUnit 15 .sv true).unitHeld 15 .sv = false ∧ (wAwake.setUnit 15 .sv true).unitIdle 15 .sv = true ∧
    (wAwake.setUnit 15 .sv true).getF fdFlaskGateIdleCycles (pgFlask (flaskOf 15)) ≠ 0 ∧
    bitAt ((wAwake.startUnitWake 15 .sv).flask (flaskOf 15)).waking (unitBit 15 .sv) = true ∧
    (wAwake.startUnitWake 15 .sv).serves (flaskOf 15) = true ∧
    wAwake.anyMoving = false ∧ wAwake.getF fdFlaskSpareInUse (pgFlask 0) ≠ 1 ∧ wAwake.getF fdFlaskSpareFenced (pgFlask 0) ≠ 1 ∧
    wAwake.pstate 0 = psAwake ∧ ((wAwake.setFlask 0 { moving := some 15 }).flask 0).moving = some 15 ∧
    ((wAwake.setFlask 0 { moving := some 15 }).flask 0).held = [] ∧ (wAwake.setFlask 0 { moving := some 15 }).flaskOwner 0 = none := by
  and_intros <;> decide +kernel

theorem witness_ImemLoads : ((wAwake.setFlask 0 { imem := some ⟨0x8001, storeBase, 256⟩ }).flask 0).imem = some ⟨0x8001, storeBase, 256⟩ ∧
    (wAwake.setFlask 0 { imem := some ⟨0x8001, storeBase, 256⟩ }).serves 0 = true ∧
    ((wAwake.setFlask 0 { imem := some ⟨0x8001, storeBase, 256⟩ }).imemSource ⟨0x8001, storeBase, 256⟩).2.2 = 256 ∧
    (State.imemSource { wAwake with poisonWord := mapPut false [] (storeBase / 8 + 31) true } ⟨0x8001, storeBase, 256⟩).2.2 < 256 := by
  and_intros <;> decide +kernel

theorem witness_TileAccesses : wAwake.ownReach 15 (storeSize - 8) 8 false ∧ wAwake.wordsPoisoned (storeAt 15 + (storeSize - 8)) 8 = false ∧
    wAwake.ownReach 15 (storeSize - 8) 8 true ∧ wAwake.unwatched ∧
    ((wAwake.setCore 15 { reservation := some (storeAt 15 + 8) }).core 15).reservation = some (storeAt 15 + 8) ∧
    (wAwake.setCore 15 { reservation := some (storeAt 15 + 8) }).ownReach 15 8 4 true ∧
    (wAwake.core 15).reservation ≠ some (storeAt 15 + 8) := by
  unfold State.ownReach State.unwatched State.ready; and_intros <;> decide +kernel

theorem witness_CoreCommands : w0.ready (coreIx (.tile 4095)) ∧ csrAbsent 4095 0xB00 = false ∧ csrPrivileged 0xB00 (w0.core 4095).user = false ∧
    csrCustom 0xB00 = false ∧ 0xB00 ∉ [0x001, 0x002, 0x003, 0x008, 0x009, 0x00A, 0x00F] ∧
    csrCustom 0x800 = true ∧ csrFields.filter (fun f => f.csr = 0x800) ≠ [] ∧
    (∀ f ∈ csrFields.filter (fun f => f.csr = 0x800), f.ok (bits 65536 (f.lsb + f.width - 1) f.lsb) = true) ∧ csrAbsent 0 0x800 = false ∧
    w0.ready (coreIx (.pd 63)) ∧ w0.storesOpen (coreIx (.pd 63)) = false ∧ mapGet 0 w0.ecrok.lateFaults (coreIx (.pd 63)) = 0 ∧
    (w0.setCore 7 { running := true, user := true }).ready 7 ∧ (w0.setCore 7 { running := true, user := true }).coreQuiet 7 = true ∧
    ((w0.setCore 4160 { paused := true }).core (coreIx (.sched 0))).paused = true ∧
    w0.wordsPoisoned (imemAt 4095 + (imemView + 0xFFFE - imemView)) 2 = false := by
  unfold State.ready; and_intros <;> decide +kernel

theorem witness_VectorAndRepair : w0.ready (4096 + 63) ∧ vecWord 0x57 = true ∧ vecTruncating 0x57 = false ∧ vecWord 0x27 = true ∧
    (w0.setVec 63 true).vecOn 63 = true ∧ bitAt ((w0.setVec 63 true).getF fdPdVstate pgPd) 63 = true ∧
    bitAt ((w0.setVec 63 true).getF fdPdVgateHold pgPd) 63 = false ∧ (w0.setVec 63 true).getF fdPdVgateIdleCycles pgPd ≠ 0 ∧
    ((w0.setVec 63 true).core (4096 + 63)).vectorWaits = false ∧ ((w0.setCore 4159 { vwaking := true }).core (4096 + 63)).vwaking = true ∧
    w0.anyMoving = false ∧ (∀ x ∈ w0.cores, 4096 ≤ x.1 → x.2.paused = false) ∧ w0.getF fdPdSpareInUse pgPd < 4 ∧
    bitAt (w0.getF fdPdCoresFenced pgPd) 63 = false ∧ ((w0.setCore 4159 { paused := true }).core (4096 + 63)).paused = true := by
  unfold State.ready; and_intros <;> decide +kernel

/-- Tile 0 with its units powered, `vl` 1, and descriptors 0–3 of these element types at four places of its store. -/
def wTile (e0 e1 e2 e3 : Nat) : State :=
  let s := ((wAwake.setUnit 0 .sv true).setUnit 0 .mx true).setCsr 0 0x800 1
  [e0, e1, e2, e3].zipIdx.foldl (fun s x => (s.setCsr 0 (0x810 + 2 * x.2) (x.2 * 4096 + 16 * 2 ^ 24)).setCsr 0 (0x811 + 2 * x.2) (2 + x.1 * 2 ^ 32)) s

/-- A stream word of a code that names d = SD0, s1 = SD1, s2 = SD2 and s3 = SD3, as many of the sources as `k`. -/
def wWord (code k : Nat) : Nat :=
  code * 2 ^ 23 + 0x2B + (if k > 0 then 2 ^ 10 else 0) + (if k > 1 then 2 * 2 ^ 13 else 0) + (if k > 2 then 3 * 2 ^ 16 else 0)

theorem witness_StreamElements : (∀ x ∈ [(0x00, 2, 1), (0x01, 2, 1), (0x02, 2, 1), (0x03, 3, 1), (0x04, 2, 1), (0x05, 1, 1), (0x06, 2, 1), (0x07, 2, 1),
      (0x08, 1, 1), (0x09, 1, 1), (0x30, 1, 1), (0x31, 1, 1), (0x32, 1, 1), (0x33, 1, 1), (0x0A, 1, 1),
      (0x00, 2, 10), (0x01, 2, 10), (0x02, 2, 10), (0x03, 3, 10), (0x06, 2, 10), (0x07, 2, 10), (0x08, 1, 10), (0x09, 1, 10),
      (0x10, 2, 10), (0x11, 2, 10), (0x12, 2, 10), (0x13, 2, 10), (0x14, 1, 10), (0x15, 2, 10), (0x16, 2, 10), (0x17, 2, 10)],
      (wTile x.2.2 x.2.2 x.2.2 x.2.2).svRuns 0 (wWord x.1 x.2.1) x.1 ∧ (wTile x.2.2 x.2.2 x.2.2 x.2.2).svPlain 0 (wWord x.1 x.2.1)) ∧
    (∀ c ∈ [0x20, 0x21, 0x22, 0x23, 0x24], (wTile 16 1 1 1).svRuns 0 (wWord c 2) c ∧ (wTile 16 1 1 1).svPlain 0 (wWord c 2)) ∧
    (wTile 1 1 1 16).svRuns 0 (wWord 0x28 3) 0x28 ∧ (wTile 1 1 1 16).svPlain 0 (wWord 0x28 3) ∧ tyFlt 1 = true ∧ tyFlt 10 = false := by
  unfold State.svRuns State.svPlain State.unwatched State.ready; and_intros <;> decide +kernel

theorem witness_StreamShapes : (∀ x ∈ [(0x40, 2, 1, 1, 1), (0x41, 2, 1, 1, 1), (0x42, 2, 10, 10, 10), (0x43, 2, 11, 0, 11), (0x60, 0, 16, 1, 1), (0x61, 0, 16, 1, 1),
      (0x62, 0, 16, 1, 1), (0x63, 0, 10, 1, 1), (0x70, 2, 1, 1, 10), (0x71, 1, 1, 1, 1), (0x72, 2, 1, 1, 1), (0x73, 1, 1, 1, 1), (0x74, 1, 1, 1, 1),
      (0x80, 1, 1, 10, 1)],
      (wTile x.2.2.1 x.2.2.2.1 x.2.2.2.2 0).svRuns 0 (wWord x.1 x.2.1) x.1 ∧ (wTile x.2.2.1 x.2.2.2.1 x.2.2.2.2 0).svPlain 0 (wWord x.1 x.2.1)) ∧
    (wTile 1 1 1 1).svRuns 0 (wWord 0x50 3) 0x50 ∧ (wTile 1 1 1 1).svPlain 0 (wWord 0x50 3) ∧
    (∀ i, i < ((wTile 1 1 10 1).svOp 0 (wWord 0x70 2)).vl →
      0 ≤ signedOf 32 ((wTile 1 1 10 1).elem 0 ((wTile 1 1 10 1).svOp 0 (wWord 0x70 2)).s2 i).1 ∧
      signedOf 32 ((wTile 1 1 10 1).elem 0 ((wTile 1 1 10 1).svOp 0 (wWord 0x70 2)).s2 i).1 <
        ((wTile 1 1 10 1).svOp 0 (wWord 0x70 2)).s1.count) ∧
    (∀ i, i < ((wTile 1 1 1 1).svOp 0 (wWord 0x71 1)).vl → shufIndex ((wTile 1 1 1 1).svOp 0 (wWord 0x71 1)).shuf i <
      ((wTile 1 1 1 1).svOp 0 (wWord 0x71 1)).vl) := by
  unfold State.svRuns State.svPlain State.unwatched State.ready; and_intros <;> decide +kernel

/-- An Xzmx word of funct3 `f`. -/
def mxWord (f : Nat) : BitVec 32 := BitVec.ofNat 32 (0x0B + f * 4096)

/-- Tile 0 with a wide bank. -/
abbrev wWide : State := (wTile 1 1 1 1).setBank 0 0 { tag := 3, k := 32 }

/-- Tile 0 with an instruction in its queue, running or not. -/
def wQueued (s : State) (f : Nat) (running : Bool) : State :=
  s.setTile 0 { s.tile 0 with mxq := [{ s.mxReq 0 (mxWord f).toNat 0x1000 0x40000 with running := running }] }

theorem witness_MatrixIssue : (∀ f ∈ [0, 1, 2, 3, 4, 6], (wTile 1 1 1 1).ready 0 ∧ mxOp (mxWord f).toNat = f ∧ mxReserved (mxWord f).toNat = false ∧
      ((wTile 1 1 1 1).mxReq 0 (mxWord f).toNat 0x1000 0x40000).trap (((wTile 1 1 1 1).tile 0).issueTag (bits (mxWord f).toNat 7 7))
        ((wTile 1 1 1 1).dqEn 0) = none ∧ ((wTile 1 1 1 1).tile 0).mxq.length < 8 ∧ (wTile 1 1 1 1).serves (flaskOf 0) = true) ∧
    wWide.ready 0 ∧ mxOp (mxWord 5).toNat = 5 ∧ mxReserved (mxWord 5).toNat = false ∧
      (wWide.mxReq 0 (mxWord 5).toNat 0x1000 0x40000).trap ((wWide.tile 0).issueTag (bits (mxWord 5).toNat 7 7)) (wWide.dqEn 0) = none ∧
    mxOp (mxWord 7).toNat = 7 ∧ mxReserved (mxWord 7).toNat = false ∧ ((wTile 1 1 1 1).tile 0).mxq = [] := by
  unfold State.ready; and_intros <;> decide +kernel

theorem witness_MatrixEngines : (∀ x ∈ [(0, Engine.array), (1, .array), (3, .array), (4, .array), (5, .recomb), (6, .fcu)],
      (wQueued wWide x.1 false).engineUp 0 = true ∧
      ((wQueued wWide x.1 false).tile 0).nextFor x.2 = some (wWide.mxReq 0 (mxWord x.1).toNat 0x1000 0x40000) ∧
      (wQueued wWide x.1 false).enginePower 0 x.2 = true ∧
      ((wQueued wWide x.1 false).tile 0).mxHeld (wWide.mxReq 0 (mxWord x.1).toNat 0x1000 0x40000) = false ∧
      (((wQueued wWide x.1 true).tile 0).mxq.find? fun q => mxEngine q.w = x.2 && q.running) =
        some { wWide.mxReq 0 (mxWord x.1).toNat 0x1000 0x40000 with running := true }) ∧
    (wQueued wWide 3 true).unwatched ∧ ((wWide.tile 0).bank 0).poison = [] ∧ ((wWide.tile 0).bank 0).tag ≠ 0 ∧
    (wWide.mxReq 0 (mxWord 0).toNat 0x1000 0x40000).kind = 1 ∧
    ((wWide.setCsr 0 0x840 0x399).mxReq 0 (mxWord 0).toNat 0x1000 0x40000).kind = 2 := by
  unfold State.unwatched; and_intros <;> decide +kernel

theorem witness_StreamControl : (wTile 1 1 1 1).ready 0 ∧ svControlOk 0xF800002B 0 = true ∧ svControlOk 0xF800102B 1 = true ∧
    svControlOk 0xF808202B 2 = true ∧ svControlOk 0xF808302B 3 = true ∧ bits 0xF808202B 22 15 = 2 ^ 4 ∧ bits 0xF808302B 22 15 = 2 ^ 4 ∧
    tyPacked ((((wTile 1 1 1 1).setCsr 0 0x818 (2 ^ 24)).desc 0 4).ety) = false ∧ (((wTile 1 1 1 1).setCsr 0 0x818 (2 ^ 24)).desc 0 4).stride ≠ 0 ∧
    svControlOk 0xF800402B 4 = true ∧ ((wTile 1 1 1 1).tile 0).fcuq = [] ∧
    (∀ x ∈ [(0x90, 1, 0, 1, 0, 0), (0x91, 2, 8, 1, 18, 0), (0x92, 2, 1, 8, 18, 0), (0x93, 3, 17, 17, 11, 11)],
      svCode (wWord x.1 x.2.1) = x.1 ∧ bits (wWord x.1 x.2.1) 6 0 = 0x2B ∧
      ((wTile x.2.2.1 x.2.2.2.1 x.2.2.2.2.1 x.2.2.2.2.2).svOp 0 (wWord x.1 x.2.1)).check
        ((wTile x.2.2.1 x.2.2.2.1 x.2.2.2.2.1 x.2.2.2.2.2).dqEn 0) = none) ∧
    ((((wTile 0 1 1 1).setTile 0 { fcuq := [((wTile 0 1 1 1).svOp 0 (wWord 0x90 1)).request 0] }).tile 0).fcuReady).isSome = true ∧
    ((wTile 0 1 1 1).setTile 0 { fcuq := [((wTile 0 1 1 1).svOp 0 (wWord 0x90 1)).request 0] }).engineUp 0 = true := by
  unfold State.ready; and_intros <;> decide +kernel

/-- Flask 0 in service, counter 5 holding 3 of 8. -/
abbrev wCount : State := wAwake.setCounter 5 ⟨3, 8⟩

/-- The word of a counter, barrier, deque or watch row with rd = x`rd`. -/
def syWord (code rd : Nat) : Nat := 0x5B + code / 8 * 4096 + code % 8 * 2 ^ 25 + rd * 128

/-- Tile 0 runs a kernel of context 2 in user mode. -/
abbrev wKernel (s : State) : State := s.setCore 0 { user := true, running := true, ctx := some 2 }

/-- HBM of 4 GiB, all of it in polder 3. -/
abbrev wMem : State := (w0.setF fdMemmapTop pgMemmap 0 (2 ^ 32)).setF fdMemmapPolderSize pgMemmap 3 4

theorem siteOf_lt (s : State) (off : Nat) (h : s.small = false) : s.siteOf off < 12 := by
  unfold State.siteOf; simp only [h]; simp; omega

theorem hbmClear_of (s : State) (rq : HbmReq) (p : Nat) (h : s.polderOf rq.off = some p) (h' : s.bucketRate p rq.charge.2 = 1024 ∧
    s.hbmRefusal rq = none ∧ s.hbm.selfRefresh = 0 ∧ s.hbm.waiting = [] ∧ s.hbm.merge = [] ∧
    ((unitsOf 128 rq.off rq.len).find? fun l => s.cohBusy l (rq.kind ≠ 0)) = none ∧ (rq.kind ≠ 0 → s.unreachedBy rq.off rq.len = [])) :
    s.hbmClear rq := by
  obtain ⟨a, b, c, d, e, f, g⟩ := h'
  exact ⟨b, c, d, e, fun q hq => by rw [h] at hq; cases hq; exact a, f, g⟩

theorem witness_CounterRows :
    (∀ x ∈ [(0, 0), (1, 31), (2, 31), (3, 31)], wCount.counterReach (coreIx (.tile 15)) x.1 (syWord x.1 x.2) 5) ∧
    wCount.counterReach (coreIx (.tile 15)) 4 (syWord 4 0) 5 ∧ (wCount.counter 5).cap ≠ 0 ∧ (wCount.counter 5).value + 5 ≤ (wCount.counter 5).cap ∧
    3 ≤ (wCount.counter 5).value ∧ (wCount.counter 5).value < 4 ∧ 4 ≤ (wCount.counter 5).cap ∧ wCount.unwaited 5 ∧ wCount.waitsOn (counterTile 5) < 64 := by
  unfold State.counterReach State.unwaited State.ready; and_intros <;> decide +kernel

theorem witness_WaitsAndBarriers :
    (∀ b ∈ [Blocked.waitHeld 5 3 31 none, .wait 5 3 31 (some 0), .waitHeld 5 3 31 (some 0)], ((wCount.setCore 0 { blocked := b }).core 0).blocked = b) ∧
    wCount.waitsOn (counterTile 5) < 64 ∧ 3 ≤ (wCount.counter 5).value ∧ wCount.waits.any (fun e => e.id = 5) = false ∧
    (∀ m ∈ [0x8001, 0x8000], (((wAwake.setF fdFlaskBarMembers 0 7 m).ready 15 ∧ syOk 15 8 (syWord 8 1) = true ∧
      (wAwake.setF fdFlaskBarMembers 0 7 m).coreQuiet 15 = true ∧ mapGet 0 wAwake.ecrok.lateFaults 15 = 0 ∧
      (wAwake.setF fdFlaskBarMembers 0 7 m).slotMisuse 15 7 true = 0))) ∧
    State.slotFull { wAwake.setF fdFlaskBarMembers 0 7 0x8001 with arrived := mapPut 0 [] 7 0x8000 }
      ((wAwake.setF fdFlaskBarMembers 0 7 0x8001).slotFlasks 0 7) 7 = false ∧ wAwake.slotLevel 0 7 = 0 ∧
    putBits ((wAwake.setF fdFlaskBarMembers 0 7 0x8000).slotArrived 0 7) 15 15 1 = (wAwake.setF fdFlaskBarMembers 0 7 0x8000).slotMembers 0 7 ∧
    syOk 15 9 (syWord 9 0) = true ∧ (wAwake.setF fdFlaskBarMembers 0 7 0x8001).slotMisuse 15 7 false = 0 ∧ wAwake.slotGen 0 7 = 0 := by
  unfold State.ready; and_intros <;> decide +kernel

theorem witness_DequesAndRanges : dqOffset 0x7BFC0 = none ∧ syOk 0 16 (syWord 16 1) = true ∧ syOk 0 17 (syWord 17 1) = true ∧
    syOk 0 18 (syWord 18 1) = true ∧ syOk 0 24 (syWord 24 0) = true ∧ syOk 0 25 (syWord 25 0) = true ∧
    wAwake.unitsBlock 0 [(0x7BFC0, 0x7C000)] [(0x7BFC0, 0x7C000)] = false ∧ wAwake.unitsBlock 0 [(0x7BFC0, 0x7C000)] [] = false ∧
    wAwake.unitsBlock 0 [] [(0x7BFC0, 0x7C000)] = false ∧
    (wAwake.setCsr 0 0x861 1).dqEn 0 = true ∧ ((wAwake.setCsr 0 0x861 1).setDq 0 1 256).dqCount 0 < 256 ∧
    ((wAwake.setCsr 0 0x861 1).setDq 0 1 257).dqCount 0 = 256 ∧ ((wAwake.setCsr 0 0x861 1).setDq 0 1 256).dqCount 0 ≠ 0 ∧ wAwake.dqCount 0 = 0 ∧
    bitAt ((wAwake.setCsr 0 0x861 3).csr 0 0x861) 1 = true ∧ (wKernel (wAwake.setCore 9 { ctx := some 2 })).core 9 = { ctx := some 2 } ∧
    ((wKernel (wAwake.setCore 9 { ctx := some 2 })).core 0).ctx = some 2 ∧ ((wAwake.setCsr 9 0x861 1).setDq 9 1 256).dqEn 9 = true ∧
    wAwake.serves (flaskOf 9) = true ∧ wAwake.moving 9 = false ∧
    bitAt ((wAwake.setF fdFlaskWatchAllot 0 0 (2 ^ 32 - 1)).getF fdFlaskWatchAllot (pgFlask (flaskOf 0))) (bits 0x1F00010000 36 32) = true ∧
    wAwake.watchGrant 0 storeBase ((bits 0x1F00010000 7 0 + 1) * 256) = true ∧
    (∀ i, i < 16 → bitAt (bits 0x1F00010000 23 8) i = true →
        wAwake.counterGrant 0 ((flaskOf 0 * 16 + i) * 64 + bits 0x1F00010000 29 24) = true) := by
  and_intros <;> decide +kernel

theorem witness_HbmAccesses : wMem.hbmClear { kind := 0, src := .firmware, off := 2 ^ 32 - 1, len := 1 } ∧
    wMem.hbmClear { kind := 1, src := .firmware, off := 2 ^ 32 - 128, len := 128, data := List.replicate 128 7 } ∧
    wMem.hbmClear { kind := 2, src := .firmware, off := 2 ^ 32 - 64, len := 64, data := List.replicate 64 7, mask := 1, fetch := true } ∧
    wMem.hbmClear { kind := 2, src := .firmware, off := 2 ^ 32 - 64, len := 64, data := List.replicate 64 7, mask := 1, fetch := false } ∧
    atomicOk 0 0 1 = true ∧ mapGet false wMem.poisonLine (2 ^ 25 - 1) = false ∧ wMem.unwatched ∧
    (∃ site : SiteId, wMem.siteOf (2 ^ 32 - 128) = site.val) ∧
    State.mergeFor { wMem with hbm := { wMem.hbm with merge := [{ line := 2 ^ 25 - 1, mask := 1, data := [7], arrivals := [(2 ^ 32 - 128, 1, Reply.none)] }] } } (2 ^ 25 - 1) =
      some { line := 2 ^ 25 - 1, mask := 1, data := [7], arrivals := [(2 ^ 32 - 128, 1, Reply.none)] } ∧ plainReply .none = true := by
  have h : wMem.small = false := by decide +kernel
  refine ⟨hbmClear_of _ _ 3 ?_ ?_, hbmClear_of _ _ 3 ?_ ?_, hbmClear_of _ _ 3 ?_ ?_, hbmClear_of _ _ 3 ?_ ?_, ?_, ?_, ?_,
    ⟨⟨_, siteOf_lt wMem _ h⟩, rfl⟩, ?_, ?_⟩
  all_goals (try unfold State.unwatched); decide +kernel

/-- A read of firmware that waits at the sluices of polder 3. -/
abbrev wWaiting : HbmReq := { kind := 0, src := .firmware, off := 2 ^ 32 - 128, len := 128 }

/-- A state in which it waits. -/
abbrev wSluice : State := { wMem with hbm := { wMem.hbm with waiting := [wWaiting] } }

/-- Context 3 open with flask 0 and one graph of a node of each kind that a step starts. -/
abbrev wGraph : Graph := { flags := 1, nodes := [{ kind := 1, nslot := 1, tmask := 1, p0 := storeBase, p1 := 1 }, { kind := 2, p1 := 64 }, { kind := 3 }] }

/-- A state with that context, its step running. -/
abbrev wStep (r : StepRun) : State := (wAwake.setCtx 3 { isOpen := true, flasks := [0], graphs := [some wGraph, none, none, none], run := r, nextRelease := 1 }).setF
  fdSchedCtxState pgSched 3 csRunning

/-- The stack of the waiting request's line. -/
def wSite : Nat := wMem.siteOf (2 ^ 32 - 128)

theorem polder_w : wSluice.polderOf wWaiting.off = some 3 := by decide +kernel

theorem servable_w : wSluice.servable wSite 3 false = some (wWaiting, false) := by
  have h1 : wSluice.waitsAt wSite 3 false wWaiting = true := by
    unfold State.waitsAt; rw [polder_w]; simp [HbmReq.charge]; rfl
  have h2 : wSluice.waitsAt wSite 3 true wWaiting = false := by
    unfold State.waitsAt; rw [polder_w]; simp [HbmReq.charge]
  have h3 : wSluice.bucketPays wSite 3 wWaiting.charge.1 wWaiting.charge.2 = true := by
    unfold State.bucketPays State.bucketShort State.bucketDepth
    simp [HbmReq.charge]; decide +kernel
  unfold State.servable
  simp only [List.find?, h1, h2]
  simp [h3]

theorem turn_w : wSluice.turnOf wSite 3 wWaiting false = true := by
  unfold State.turnOf; rw [List.all_eq_true]; intro q hq
  split
  · rename_i x b h
    by_cases e : q = 3
    · simp [e]
    · exfalso
      have h1 : ∀ w, wSluice.waitsAt wSite q w wWaiting = false := by
        intro w; unfold State.waitsAt; rw [polder_w]; simp; intro h; exact absurd h.symm e
      unfold State.servable at h
      simp only [List.find?, h1] at h
      simp at h
  · rfl

theorem witness_SluicesAndRefresh : (∃ (site : SiteId) (r : HbmReq), wSluice.servable site.val 3 false = some (r, false) ∧
      wSluice.turnOf site.val 3 r false = true) ∧
    State.idleForRefresh { w0.setF fdFtimeNow pgFtime 0 (10 * 200000) with hbm := { w0.hbm with lastRequest := 0 } } = true ∧ w0.idleForRefresh = false ∧
    ({ w0 with hbm := { w0.hbm with selfRefresh := 2 } } : State).hbm.selfRefresh = 2 := by
  refine ⟨⟨⟨_, siteOf_lt wMem (2 ^ 32 - 128) (by decide +kernel)⟩, _, servable_w, turn_w⟩, ?_, ?_, ?_⟩ <;> decide +kernel

theorem witness_StackUpkeep : mapGet false w0.poisonLine (2 ^ 33 - 1) = false ∧ mapGet false (mapPut false w0.poisonLine (2 ^ 33 - 1) true) (2 ^ 33 - 1) = true ∧
    w0.absentPage (pgHbmc 11) = false ∧ (w0.setF fdPowerDieState pgPower 6 2).getF fdPowerDieState pgPower 6 = 2 ∧ w0.getF fdPowerDieState pgPower 6 ≠ 2 ∧
    (w0.setF fdHbmcThermState (pgHbmc 11) 0 3).getF fdHbmcThermState (pgHbmc 11) = 3 ∧ w0.getF fdHbmcThermState (pgHbmc 11) ≠ 3 ∧
    bitAt (w0.getF fdHbmcChInService (pgHbmc 11)) 31 = true ∧ w0.hbm.evacQueue.contains 383 = false ∧
    ¬(w0.getF fdMemmapEvacBusy pgMemmap = 1 ∧ w0.getF fdMemmapEvacCh pgMemmap = 383) ∧
    w0.getF fdMemmapMapouts pgMemmap + w0.hbm.evacQueue.length + w0.getF fdMemmapEvacBusy pgMemmap < 8 ∧
    8 ≤ (w0.setF fdMemmapMapouts pgMemmap 0 8).getF fdMemmapMapouts pgMemmap ∧
    ({ wMem with hbm := { wMem.hbm with evacQueue := [383] } } : State).hbm.evacQueue.contains 383 = true ∧ wMem.getF fdMemmapEvacBusy pgMemmap = 0 ∧
    wMem.rangeFree (wMem.getF fdMemmapTop pgMemmap - 0x80000000) = true ∧
    ((w0.setF fdMemmapEvacBusy pgMemmap 0 1).setF fdMemmapEvacCh pgMemmap 0 383).getF fdMemmapEvacBusy pgMemmap = 1 ∧
    ((w0.setF fdMemmapEvacBusy pgMemmap 0 1).setF fdMemmapEvacCh pgMemmap 0 383).getF fdMemmapEvacCh pgMemmap = 383 := by
  and_intros <;> decide +kernel

/-- A batch of one contact problem in queue 2, on engine 63 or not yet. -/
abbrev wBatch (soft : Nat) (r : Option LsaRun) : State := { wMem with lsa := { wMem.lsa with
  batches := [{ q := 2, k := 0, op := 4, count := 1, maxIter := 2, soft := soft, prob := 4096, model := 8192, next := if r.isSome then 1 else 0 }], engines := mapPut none [] 31 r } }

theorem witness_LinkageArray : (wMem.setF fdLsaQPidx pgLsa 15 (2 ^ 32 - 8)).getF fdLsaQPidx pgLsa 15 % 128 ≤ 120 ∧
    (wMem.setF fdLsaQPidx pgLsa 15 (2 ^ 32 - 8)).hbmClear { kind := 1, src := .firmware, off := 2 ^ 32 - 8, len := 8, data := leBytes 8 (2 ^ 64 - 1) } ∧
    (wBatch 0 none).lsa.gated = false ∧ 31 < (wBatch 0 none).getF fdLsaEngInService pgLsa ∧ (wBatch 0 none).lsaEngine 31 = none ∧
    (wBatch 0 none).lsaNext.isSome = true ∧
    (wBatch 0 (some { q := 2, op := 4, nc := 1 })).lsaEngine 31 = some { q := 2, op := 4, nc := 1 } ∧
    ((wBatch 0 (some { q := 2, op := 4, nc := 1 })).lsaBatch 2 0).isSome = true ∧
    (wBatch 0 (some { q := 2, op := 1, nc := 0, code := 8 })).lsaEngine 31 = some { q := 2, op := 1, nc := 0, code := 8 } ∧
    (wBatch 0 (some { q := 2, op := 4, nc := 1, code := 2 })).lsaEngine 31 = some { q := 2, op := 4, nc := 1, code := 2 } ∧
    (∃ b : LsaBatch, ({ w0 with lsa := { w0.lsa with batches := [b] } } : State).lsa.batches.find? (fun b => b.q = 15 && (b.refused || b.codes.length = b.count)) = some b) ∧
    (∃ b : LsaBatch, ({ w0 with lsa := { w0.lsa with batches := [b] } } : State).lsa.batches.find? (fun b => b.q = 15 && b.hard ≠ 0 && !b.refused && b.codes.length ≠ b.count) = some b) ∧
    w0.getF fdLsaGateIdleUs pgLsa ≠ 0 ∧ w0.lsa.batches = [] ∧ w0.lsa.poked = [] ∧ w0.lsa.gated = false ∧
    ({ w0 with lsa := { w0.lsa with waking := true } } : State).lsa.waking = true ∧ w0.getF fdLsaEngSparesUsed pgLsa < 2 := by
  refine ⟨?_, hbmClear_of _ _ 3 ?_ ?_, ?_, ?_, ?_, ?_, ?_, ?_, ?_, ?_, ⟨{ q := 15, k := 0 }, ?_⟩, ⟨{ q := 15, k := 0, hard := 1, count := 1 }, ?_⟩, ?_, ?_, ?_, ?_, ?_, ?_⟩
  all_goals decide +kernel

theorem witness_GraphSteps : ((wStep {}).ctx 3).isOpen = true ∧ (wStep {}).ctxState 3 = csRunning ∧ ((wStep {}).ctx 3).run.active = false ∧
    ((wStep {}).ctx 3).uncorrected = false ∧ ((wStep {}).ctx 3).nextRelease ≠ 0 ∧ ((wStep {}).applyAllot 3).isSome = true ∧ (wStep {}).graph 3 = some wGraph ∧
    ((wStep {}).gnode 3 2).kind = 3 ∧ ({ wStep {} with lsa := { w0.lsa with gated := true } } : State).lsa.gated = true ∧ ((wStep {}).gnode 3 0).kind = 1 ∧
    ((wStep {}).nodeFlasks 3 0).any (fun f => (wStep {}).getF fdComCtrlQuiesce (pgFlask f) = 1) = false ∧
    (∀ r ∈ [({ active := true, nstat := [nsPending] } : StepRun)], ((wStep r).ctx 3).run.active = true ∧ (wStep r).nodeReady 3 0 = true ∧
      (∀ f ∈ (wStep r).nodeFlasks 3 0, (wStep r).relReady f = true) ∧ (wStep r).tilesFree 3 0 = true ∧ (wStep r).firstInLine 3 0 = true ∧
      ((wStep r).bindNode 3 0 false).1.isSome = true) ∧
    ((wStep {}).gnode 3 1).kind = 2 ∧ (wStep { active := true, nstat := [nsRunning] }).nodeCode 3 0 = nsRunning ∧
    ((wStep { active := true, nstat := [nsRunning] }).endCode 3 0).2 = some nsDone ∧
    ((wStep { active := true, nstat := [nsRunning], tilesLeft := [(0, 0)] }).endCode 3 0).2 = none ∧
    ((wStep { active := true, voted := true, voteWord := 2 ^ 63 }).ctx 3).run.voted = true ∧
    ((wStep { active := true, voted := true, voteWord := 2 ^ 63 }).graph 3).elim true (fun g => g.group = 0xFFFF) = true ∧
    bitAt (BitVec.ofNat 64 (2 ^ 63)).toNat 63 = true ∧ bitAt (BitVec.ofNat 64 (2 ^ 63 - 1)).toNat 63 = false ∧
    ((wStep { hard := 1 }).ctx 3).run.hard ≠ 0 ∧ ((wStep {}).graph 3).elim false (fun g => bitAt g.flags 0) = true := by
  and_intros <;> decide +kernel

/-- Port 17 in a state of R294. -/
abbrev wPort17 (v : Nat) : State := w0.setF fdPortState (pgPort 17) 0 v

theorem witness_PortFlits : (wPort17 psUp).portUp 17 = true ∧ (List.replicate 256 (0 : Byte)).length = 256 ∧
    (((wPort17 psUp).setPort 17 { swapTx := true }).port 17).swapTx = true ∧ ((wPort17 psUp).port 17).swapTx = false ∧
    (((wPort17 psUp).setPort 17 { unacked := [{}] }).port 17).unacked.drop 0 = [{}] ∧
    (((wPort17 psUp).setPort 17 { carry := [{}] }).port 17).carry = [{}] ∧
    (((wPort17 psUp).setPort 17 { carry := [{}] }).port 17).unacked.length < 256 ∧
    (((wPort17 psUp).setPort 17 { carry := [{}] }).port 17).hasCredit 0 = true ∧
    (((wPort17 psUp).setPort 17 { carry := [{}] }).port 17).queue.any (fun w => w.begun && w.vc = 0 && w.home ≠ 0) = false ∧
    ((wPort17 psUp).setPort 17 { queue := [{ home := 17, left := [1] }] }).grant 17 = some 0 ∧
    (wPort17 psUp).grant 17 = none ∧ ((wPort17 psUp).newRound 17).grant 17 = none := by
  and_intros <;> decide +kernel

theorem witness_PortLife : (∀ dir : Direction, (circuitsOf (2 ^ 17)).filter (fun c => !bitAt ((wPort17 psUp).getF (fdFailed dir) (pgPort 17)) c) = [17] ∧
      1 ≤ (wPort17 psUp).getF (fdSpares dir) (pgPort 17) ∧ ((wPort17 psUp).setF (fdSpares dir) (pgPort 17) 0 0).getF (fdSpares dir) (pgPort 17) < 1 ∧
      circuitCount (2 ^ 17) = 1 ∧ 1 ≤ (((wPort17 psUp).addF fdPortRetryEscalations (pgPort 17) 0 1).detect (pgPort 17) 6 { code := 0x0020 }).getF (fdSpares dir) (pgPort 17) ∧
      (((wPort17 psUp).addF fdPortRetryEscalations (pgPort 17) 0 1).detect (pgPort 17) 6 { code := 0x0020 }).getF (fdSpares dir) (pgPort 17) < circuitCount (2 ^ 18 - 1)) ∧
    (wPort17 psSwapping).portState 17 = psSwapping ∧
    (wPort17 psUp).getF fdPortSwapThresh (pgPort 17) ≠ 0 ∧ ((wPort17 psUp).setF fdPortSwapThresh (pgPort 17) 0 0).getF fdPortSwapThresh (pgPort 17) = 0 ∧
    (∀ c, c < 18 → mapGet 0 ((wPort17 psUp).port 17).corrected c + ([] : List Nat).getD c 0 ≤ (wPort17 psUp).getF fdPortSwapThresh (pgPort 17)) ∧
    (wPort17 psRetrain).portState 17 = psRetrain ∧ (wPort17 psUp).portState 17 ≠ psOff ∧ (wPort17 psUp).getF fdPortCombSpare (pgPort 17) = 0 ∧
    ((wPort17 psUp).setF fdPortCombSpare (pgPort 17) 0 1).getF fdPortCombSpare (pgPort 17) = 1 ∧ (wPort17 psLaser).portState 17 = psLaser ∧
    (wPort17 psTraining).portState 17 = psTraining ∧ (((wPort17 psTraining).setPort 17 { trained := true, identified := true }).port 17).trained = true ∧
    peerFits 0 8 4 16 7 = true ∧ peerFits 0 0 0 0 0 = false ∧ (wPort17 psMiscabled).portState 17 = psMiscabled := by
  refine ⟨?_, ?_, ?_, ?_, ?_, ?_, ?_, ?_, ?_, ?_, ?_, ?_, ?_, ?_, ?_⟩
  · intro dir; cases dir <;> decide +kernel
  all_goals decide +kernel

/-- Node 4 of a tray, with job 1 committed and context 1 of that job open on polder 3. -/
abbrev wNode : State := ((({ wMem with pairs := [(0, { state := 2, job := 1 })] } : State).setF fdEcrokNodeId pgEcrok 0 4).setF fdEcrokNodeIdValid pgEcrok 0 1).setCtx 1
  { isOpen := true, job := 1, polders := 8 }

/-- A packet of node 5 for node 4 under job 1. -/
abbrev wPk (kind len : Nat) (payload : List Byte) (off : Nat) : Packet :=
  { kind := BitVec.ofNat 5 kind, dst := 4, src := 5, job := 1, len := BitVec.ofNat 9 len, payload := payload, offset := BitVec.ofNat 40 off }

/-- Port 17 of node 4 as a locked child's parent port. -/
abbrev wChild : State := ((((wNode.setF fdPortState (pgPort 17) 0 psUp).setPort 17 { published := true }).setF fdFtimeParent pgFtime 0 8).setF fdFtimeState pgFtime 0 ftLocked)

theorem witness_FabricTime : wChild.ftState ≠ ftOff ∧ wChild.ftState ≠ ftAcquire ∧ wChild.nodeIdValid = true ∧ wChild.getF fdFtimeParent pgFtime ≤ 8 ∧
    17 = wChild.timePort (wChild.getF fdFtimeParent pgFtime) ∧ wChild.portState 17 = psUp ∧ (wChild.port 17).published = true ∧ wChild.ftState = ftLocked ∧
    -(50 * ns1) ≤ (((0 : Nat) - (0 : Nat) : Int) * 500 + wChild.getF fdPortDelay (pgPort 17) * 256) ∧
    (((0 : Nat) - (0 : Nat) : Int) * 500 + wChild.getF fdPortDelay (pgPort 17) * 256) ≤ 50 * ns1 ∧
    w0.ftime.lastPps = 0 ∧ (w0.setF fdFtimeRelArm pgFtime 31 1).getF fdFtimeRelArm pgFtime 31 = 1 ∧
    (∀ f, f < 256 → ((w0.setF fdFtimeRelArm pgFtime 30 1).setF fdFtimeRelFlasks3 pgFtime 30 (2 ^ 63)).relNames 30 f = true →
      ((w0.setF fdFtimeRelArm pgFtime 30 1).setF fdFtimeRelFlasks3 pgFtime 30 (2 ^ 63)).relReady f = false) ∧
    wChild.getF fdClkRefState pgClk ≠ 2 := by
  and_intros <;> decide +kernel

theorem witness_FabricRequests :
    (∀ pk ∈ [wPk kREAD 256 [] (2 ^ 32 - 256), wPk kREAD 8 [] storeBase, wPk kWRITE 8 (leBytes 8 1) storeBase, wPk kWRITE 1 [1] (2 ^ 32 - 1),
        { wPk kATOMIC 64 (List.replicate 64 1) 0 with mask := 1 }, { wPk kATOMICF 64 (List.replicate 64 1) 0 with mask := 1 },
        wPk kMSG 254 (List.replicate 254 1) 1, wPk kRUPDATE 256 (List.replicate 256 1) 256], wNode.admits pk) ∧
    (wNode.admitted (wPk kREAD 8 [] storeBase)).repliesFull 1 = false ∧ (wNode.admitted (wPk kREAD 8 [] storeBase)).fabricPlace (wPk kREAD 8 [] storeBase) = .store 0 0 ∧
    ((wNode.setF fdFlaskPstateState 0 0 psAwake).admitted (wPk kREAD 8 [] storeBase)).serves (flaskOf 0) = true ∧
    (wNode.admitted (wPk kREAD 8 [] storeBase)).moving 0 = false ∧ (wNode.admitted (wPk kREAD 8 [] storeBase)).dequeOwns 0 0 8 = false ∧
    (wNode.admitted (wPk kWRITE 1 [1] (2 ^ 32 - 1))).fabricPlace (wPk kWRITE 1 [1] (2 ^ 32 - 1)) = .hbm (2 ^ 32 - 1) ∧
    atomicOk 0 0 1 = true ∧ (wNode.ctx 1).isOpen = true ∧ (wNode.ctx 1).job = 1 ∧
    (wNode.setF fdEcrokMringEn pgEcrok 1 1).getF fdEcrokMringEn pgEcrok 1 = 1 ∧
    ((wNode.setF fdEcrokMringTail pgEcrok 1 (2 ^ 32 - 1)).getF fdEcrokMringTail pgEcrok 1 + 2 ^ 32 - wNode.loadNat 0 8 % 2 ^ 32) % 2 ^ 32 = 2 ^ 32 - 1 ∧
    (wNode.getF fdEcrokMringTail pgEcrok 1 + 2 ^ 32 - wNode.loadNat 0 8 % 2 ^ 32) % 2 ^ 32 < 2 ^ wNode.getF fdEcrokMringLog2 pgEcrok 1 ∧
    leField (leBytes 8 6) 0 8 < (wNode.putBytes 256 (leBytes 8 7)).loadNat 256 8 ∧ wNode.loadNat 256 8 ≤ leField (leBytes 8 0) 0 8 ∧
    wNode.hbmRefusal { kind := 1, src := .fabric 1, off := 256, len := 248, data := List.replicate 248 1 } = none ∧
    seqBehind (wNode.expected (wPk kWRITE 1 [1] 0)) (2 ^ 32 - 4096) = 4096 ∧
    wNode.tagCheck { wPk kWRITE 1 [1] 0 with gen := 1 } = .stale ∧ wNode.tagCheck { wPk kWRITE 1 [1] 0 with job := 2 } = .foreign := by
  unfold State.admits; and_intros <;> decide +kernel

theorem witness_FabricAnswers : (State.answers (wNode.setTag (65536 + 65535) { active := true, pk := { kind := 1, dst := 5, src := 4 } }) 1
      { wPk kRESPACK 0 [] 0 with tagSlot := 65535 }) ∧ packetBad (wPk kRESPACK 0 [] 0) = false ∧ (wNode.tag 65536).active = false ∧
    wNode.jobCommitted 1 = true ∧ bits (0xF0 : Nat) (4 * 0 + 3) (4 * 0) ≠ 0xF ∧ routeLen 0xF0 24 ≠ 24 ∧
    wNode.getF fdPortRole (pgPort (2 * codePair 0)) ≠ 0xF ∧ (wNode.setF fdPortState (pgPort (2 * codePair 0)) 0 psUp).portState (2 * codePair 0) ≠ 3 ∧
    mapGet 0 wNode.ecrok.outLow (flowKey 5 0) = wNode.flowLow 5 0 ∧
    mapGet 0 ({ wNode.ecrok with outNext := mapPut 0 [] (flowKey 5 0) 1 } : EcrokState).outLow (flowKey 5 0) ≠
      State.flowLow { wNode with ecrok := { wNode.ecrok with outNext := mapPut 0 [] (flowKey 5 0) 1 } } 5 0 ∧
    0 < wNode.getF fdEcrokTmoRetries pgEcrok 1 ∧
    State.laterTags (wNode.setTag 65536 { active := true, pk := { kind := 1, dst := 5, src := 4 } }) { active := true, pk := { kind := 1, dst := 5, src := 4 } } =
      [(65536, { active := true, pk := { kind := 1, dst := 5, src := 4 } })] := by
  unfold State.answers; and_intros <;> decide +kernel

theorem witness_IdleStepIsOneTick : w0.pending = [] := by decide +kernel

/-- A coherence message of node 5 on the last line of an address. -/
abbrev wCoh (op : Nat) (payload : List Byte) (off : Nat) : Packet :=
  { wPk kCOH payload.length payload off with op := BitVec.ofNat 4 op, tagSlot := 65535, tagGen := 3 }

/-- 128 bytes of ones. -/
abbrev wLine : List Byte := List.replicate 128 255

/-- Node 4 with a line of node 5 in a state and a request of its own outstanding in slot 65535. -/
abbrev wHeld (st : Nat) : State := State.setCached { wNode with coh := { wNode.coh with
  reqs := [(65535, { active := true, pk := { wCoh 0 [] 0 with dst := 5, src := 4 }, ctx := 1 })],
  active := [{ line := 0, kind := 0, waiting := 2, tag := 65535 + 3 * 65536 }], dir := [(8, { owner := some 1 })] } } 1 0 { state := st, data := wLine }

theorem witness_CoherenceRequests :
    wNode.cohTakes 0 (wCoh 0 [] (2 ^ 32 - 128)) ∧ wNode.cohTakes 1 (wCoh 1 [] (2 ^ 32 - 128)) ∧ wNode.cohTakes 2 (wCoh 2 [] (2 ^ 32 - 128)) ∧
    cohLine (wCoh 0 [] (2 ^ 32 - 128)) * 128 < wNode.getF fdMemmapTop pgMemmap ∧
    wNode.mayReach (.fabric 1) (cohLine (wCoh 0 [] (2 ^ 32 - 128)) * 128) = true ∧
    (wNode.coh.active.any fun t => t.line = cohLine (wCoh 0 [] (2 ^ 32 - 128))) = false ∧ wNode.hbm.merge = [] ∧
    (wNode.dirLine (cohLine (wCoh 0 [] (2 ^ 32 - 128)))).owner = none ∧
    ((wHeld 0).coh.active.any fun t => t.line = 0) = true ∧ (wHeld 0).cohQueueFull 0 = false ∧ (wHeld 0).cohTakes 2 (wCoh 2 [] 0) ∧
    (wHeld 0).cohTakes 3 (wCoh 3 wLine 1024) ∧ ((wHeld 0).dirLine 8).owner = some 1 ∧ (wHeld 0).cohTakes 4 (wCoh 4 [] 1024) ∧
    (wHeld 1).cohTakes 5 (wCoh 5 [] 0) ∧ (wHeld 3).cohTakes 6 (wCoh 6 [] 0) ∧ (wHeld 3).cohTakes 7 (wCoh 7 [] 0) ∧
    ((wHeld 3).cached 1 0).state = 3 ∧ ((wHeld 2).cached 1 0).state = 2 ∧ ((wHeld 0).cached 1 0).state = 0 := by
  unfold State.cohTakes; and_intros <;> decide +kernel

theorem witness_CoherenceAnswers :
    ((wHeld 1).cohMine (wCoh 8 wLine 0)).isSome = true ∧ (wHeld 1).cohTakes 8 (wCoh 8 wLine 0) ∧ (wHeld 1).cohTakes 9 (wCoh 9 wLine 0) ∧
    (wHeld 1).cohTakes 10 (wCoh 10 [] 0) ∧ ((wHeld 1).cached 1 0).state ≠ 0 ∧ (wHeld 1).cohTakes 11 (wCoh 11 [] 0) ∧
    (wHeld 1).cohTakes 14 (wCoh 14 [] 0) ∧ (wHeld 1).cohTakes 12 (wCoh 12 [] 0) ∧ (wHeld 1).cohTakes 13 (wCoh 13 wLine 0) ∧
    ((wHeld 1).coh.active.find? fun t => t.line = 0 && t.tag = cohTag (wCoh 12 [] 0) && bitAt t.waiting 1).isSome = true ∧
    (mapGet {} (wHeld 1).coh.reqs 65535).active = true := by
  unfold State.cohTakes; and_intros <;> decide +kernel

/-- A group entry of context 1: group 0 of two members, with node 5 as the one child of tree 0 (`root`) or its parent. -/
abbrev wGrp (root : Bool) : Nat := 2 ^ 23 + 2 ^ 16 + 2 * 2 ^ 32 +
  (if root then 2 ^ (treeAt 0 + 31) + 2 ^ (treeAt 0 + 24) + 5 * 2 ^ (treeAt 0 + 32) else 5 * 2 ^ treeAt 0)

/-- A collective's run of that group. -/
abbrev wRun : CollRun := { ctx := 1, kind := 0, node := 3, group := 0, inst := 7 }

/-- Node 4 with that group and these runs. -/
abbrev wColl (root : Bool) (rs : List CollRun) : State := { wNode with coll := { wNode.coll with groups := [(0, wGrp root)], runs := rs } }

theorem witness_Collectives :
    ((wStep { active := true, nstat := [0, 0, 0, nsPending] }).setCtx 3 { (wStep { active := true, nstat := [0, 0, 0, nsPending] }).ctx 3 with
        graphs := [some { flags := 0, nodes := [{}, {}, {}, { kind := 4 }] }, none, none, none] }).nodeReady 3 3 = true ∧
    (∀ k ∈ [0x19, 0x1B], State.collReaches (wColl true [wRun]) { wPk k 64 (List.replicate 64 0) 0 with seq := 7 } 1 (wGrp true) wRun ∧
      ((grpChildren (wGrp true) 0).findIdx? fun x => x = 5) = some 0) ∧
    (∀ k ∈ [0x1A, 0x1C], State.collReaches (wColl false [wRun]) { wPk k 64 (List.replicate 64 0) 0 with seq := 7 } 1 (wGrp false) wRun) ∧
    grpRoot (wGrp false) 0 = false ∧ grpParent (wGrp false) 0 = 5 ∧ wRun.seen.contains (1, 0, 0, 0) = false ∧
    (allCtxs.find? fun c => ((wColl true []).ctx c).isOpen && ((wColl true []).ctx c).job = 1 && ((wColl true []).groupOf c 0).isSome) = some 1 ∧
    (wColl true []).collFate 1 0 (2 ^ 12) = 0 ∧ (wColl true [wRun]).coll.runs.find? (fun r => r.ctx = 1 && r.kind = 0 && r.node = 3) = some wRun := by
  unfold State.collReaches; and_intros <;> decide +kernel

/-- A state with one Ethernet field set. -/
abbrev wEth (d : FieldDesc) (v : Nat) : State := wNode.setF d (pgEth 0) 0 v

theorem witness_EthernetPorts : (wNode.setF fdEthMode (pgEth 1) 0 1).getF fdEthMode (pgEth 1) = 1 ∧ wNode.getF fdEthMode (pgEth 1) ≠ 1 ∧
    (wEth fdEthPtpEn 1).getF fdEthPtpEn (pgEth 0) ≠ 0 ∧ (wEth fdEthPtpEn 1).ftState ≠ ftRoot ∧ wNode.getF fdEthPtpEn (pgEth 0) = 0 ∧
    ((wEth fdEthPtpEn 1).setF fdFtimeState pgFtime 0 ftRoot).ftState = ftRoot ∧
    (((wEth fdEthPtpEn 1).setF fdFtimeState pgFtime 0 ftRoot).setF fdEthPtpSteer (pgEth 0) 0 1).getF fdEthPtpSteer (pgEth 0) = 1 ∧
    (((wEth fdEthPtpEn 1).setF fdFtimeState pgFtime 0 ftRoot).setF fdEthPtpSteer (pgEth 0) 0 1).getF fdFtimePpsEn pgFtime = 0 ∧
    bitAt ((wEth fdEthPfcEnable 127).getF fdEthPfcEnable (pgEth 0)) 7 = false ∧ bitAt ((wEth fdEthPfcEnable 128).getF fdEthPfcEnable (pgEth 0)) 7 = true ∧
    BitVec.ofNat 16 65535 ≠ 0 := by
  and_intros <;> decide +kernel

/-- Node 4 with one queue pair, the last, and a region of context 1 over the first 256 bytes. -/
abbrev wQp (x : QueuePair) : State := { wNode with qps := [(4095, x)], regions := [(4095, { valid := true, gen := 1, ctx := 1, base := 0, len := 256, perm := 3 })] }

theorem witness_QueuePairResponder :
    ((wQp {}).qp 4095).state ≠ 2 ∧ (∀ ce, (((wQp { kind := 1, state := 2, owner := 4 }).noteCe 4095 ce).qp 4095).kind = 1 ∧
      (((wQp { kind := 2, state := 2, owner := 1 }).noteCe 4095 ce).qp 4095).kind = 2) ∧
    ((wQp { kind := 1, state := 2, owner := 4 }).qp 4095).state = 2 ∧ (List.replicate 256 (0 : Byte)).length = 256 ∧
    (((wQp { kind := 1, state := 2, owner := 4 }).queue 4).ring.filter fun r => !r.broken).length < 64 ∧
    64 ≤ ((({ wQp { kind := 1, state := 2, owner := 4 } with queues := [(4, { ring := List.replicate 64 {} })] } : State).queue 4).ring.filter fun r => !r.broken).length ∧
    (wQp { kind := 2, state := 2, owner := 1 }).regionAdmits 4095 255 8191 1 1 = true ∧
    (wQp { kind := 2, state := 2, owner := 1 }).regionAdmits 4095 255 8191 2 1 = false ∧
    bitAt ((wQp { kind := 2, state := 2, owner := 1 }).getF fdEthPfcEnable (pgEth 0)) 0 = false ∧
    4194304 < (wQp { kind := 2, state := 2, owner := 1 }).ethBuffered (prioKey 0 0 0) + 4194305 ∧
    (wQp { kind := 2, state := 2, owner := 1 }).ethBuffered (prioKey 0 0 0) + 1 ≤ 4194304 ∧
    (wQp { kind := 2, state := 2, owner := 1 }).hbmRefusal { kind := 1, src := .qp 4095, off := 255, len := 1, data := [1], reply := .quiet } = none ∧
    ((wQp { kind := 2, state := 2, owner := 1, immLog := 4 }).immFull 4095).1 = false ∧
    (wQp { kind := 2, state := 2, owner := 1 }).regionAdmits 4095 0 8191 256 0 = true ∧
    (wQp { kind := 2, state := 2, owner := 1 }).hbmRefusal { kind := 0, src := .qp 4095, off := 0, len := 256 } = none ∧
    ((wQp { kind := 2, state := 2, owner := 1 }).drainRange 0 256).linesPoisoned 0 256 = false ∧
    (({ wQp { kind := 2, state := 2, owner := 1 } with poisonLine := mapPut false [] 1 true } : State).drainRange 0 256).linesPoisoned 0 256 = true ∧
    w0.cmAccepts 255 0 = false ∧ State.cmAccepts { wNode with queues := [(255, { ctx := some 1, gid := 9 })] } 255 9 = true ∧ wNode.freeQp = some 0 ∧
    ((wQp { kind := 1, state := 1 }).qp 4095).state = 1 := by
  and_intros <;> decide +kernel

theorem witness_QueuePairRequester : (∃ only : State → State → Prop,
      ∀ a b, only a b ↔ (∀ j, j ≠ 4095 → b.qp j = a.qp j) ∧ { b with qps := a.qps, pauses := a.pauses, out := a.out } = a) ∧
    ((wQp { kind := 1, state := 1 }).qp 4095).kind ≠ 0 ∧ ((wQp { kind := 1, state := 1 }).qp 4095).state ≠ 2 ∧
    (∀ x ∈ [({ kind := 1, state := 2 } : QueuePair), { kind := 1, state := 2, sends := [(0, 0, 0, [])], tries := 6 },
      { kind := 1, state := 2, sends := [(0, 0, 0, [])], tries := 7 }, { kind := 2, state := 2, rnrWait := true, rnr := 6 },
      { kind := 2, state := 2, rnrWait := true, rnr := 7 }, { kind := 2, state := 2, lastDec := 1 }], ((wQp x).qp 4095) = x ∧ x.kind ≠ 0 ∧ x.state = 2) ∧
    ((wQp {}).pause (prioKey 0 0 0)).paused = 0 ∧ (wQp {}).now + 1 - 1 < (wQp {}).getF fdEthCcPeriodUs (pgEth 0) * 2000 ∧
    ({ wQp {} with ftime := (wQp {}).ftime } : State).getF fdEthCcQuiet (pgEth 0) < 65535 + 1 ∧ 0 + 1 ≤ (wQp {}).getF fdEthCcQuiet (pgEth 0) := by
  refine ⟨⟨_, fun _ _ => Iff.rfl⟩, ?_⟩
  and_intros <;> decide +kernel

/-- Node 4, ready, with a session of every feature on queue 3. -/
abbrev wSess : State := { (wNode.setF fdNodectlStatusReady pgNodectl 0 1).setF fdMemmapPolderJob pgMemmap 3 1 with queues := [(3, { session := some { features := 0xFFFF } }), (255, { session := some { features := 0xFFFF }, ctx := some 1 })] }

/-- A capsule for a context with a body. -/
abbrev wCap (ctx : Byte) (body : List Byte) : Capsule := { tag := 0xFFFFFFFF, ctx := ctx, bodyLen := body.length, body := body }

/-- A body of zeros with bytes at offsets. -/
abbrev wBody (n : Nat) (xs : List (Nat × Nat)) : List Byte := (List.range n).map fun i => BitVec.ofNat 8 (mapGet 0 xs i)

theorem capTakes_of (s : State) (q : QueueId) (cap : Capsule) (o : Opcode) (h : s.capReaches q o)
    (h' : ((s.capWake o).popRing q.val o.code cap.tag.toNat).capsuleCheck q.val o cap = none) :
    s.capTakes q cap o ((s.capWake o).popRing q.val o.code cap.tag.toNat) := ⟨h, rfl, h'⟩

/-- The state in which a capsule's own part starts. -/
abbrev wStart (s : State) (o : Opcode) : State := (s.capWake o).popRing 3 o.code 0xFFFFFFFF

theorem witness_CapsuleChecks : (∀ r ∈ capRows, wSess.capReaches 3 r.2 ∧ wSess.capReaches 254 r.2 ∧
      ((wStart wSess r.2).queue 254).session = none ∧ ((wStart wSess r.2).queue 3).session = some { features := 0xFFFF } ∧
      bitAt (1 : Nat) r.2.feature = decide (r.2.feature = 0) ∧ bitAt (0xFFFF : Nat) r.2.feature = true) ∧
    (({ wSess with queues := [(3, { busy := some 1 })] } : State).queue 3).busy.isSome = true ∧ ((3 : QueueId).val < 4) ∧ 4 ≤ (254 : QueueId).val := by
  unfold State.capReaches; and_intros <;> decide +kernel

theorem witness_SessionCapsules :
    (∃ z, State.capTakes { wSess with queues := [] } 3 (wCap 255 (wBody 36 [(0, 1), (4, 255)])) { code := 0x0001 } z ∧
      z.getF fdNodectlStatusReady pgNodectl ≠ 0 ∧ (z.queue 3).session = none) ∧ bodyOk (wCap 255 (wBody 36 [(0, 1), (4, 255)])) 36 [(0, 36)] = true ∧
    (∃ z, wSess.capTakes 3 (wCap 255 []) { code := 0x0002 } z) ∧ (∃ z, wSess.capTakes 3 (wCap 255 []) { code := 0x0003 } z) ∧ bodyOk (wCap 255 []) 0 [] = true ∧
    (∃ z, wSess.capTakes 3 (wCap 255 (wBody 100 [(0, 15), (2, 8), (4, 1), (16, 1), (51, 128), (83, 64)])) { code := 0x0010, mgmt := true, bodyCtx := true } z ∧
      z.ctxState 15 = csClosed ∧ z.committedGen 1 = some 0 ∧ (∀ p ∈ maskList 8 16, (z.jobPolders 1).contains p = true) ∧
      z.allotConflict 15 [255] 0 = false ∧ z.queueTaken 15 [254] = false) ∧
    bodyOk (wCap 255 (wBody 100 [(0, 15), (2, 8), (4, 1), (16, 1), (51, 128), (83, 64)])) 100 [(0, 18), (20, 80)] = true ∧
    maskList (2 ^ 255) 256 = [255] ∧ maskList (2 ^ 254) 256 = [254] ∧
    (∃ z, wSess.capTakes 3 (wCap 1 [1]) { code := 0x0011, mgmt := true, bodyCtx := true } z ∧ (z.ctx 1).isOpen = true) ∧ bodyOk (wCap 1 [1]) 1 [(0, 1)] = true ∧
    (∃ z, wSess.capTakes 3 (wCap 1 (wBody 48 [(0, 1), (47, 128)])) { code := 0x0012, mgmt := true, bodyCtx := true } z ∧ (z.ctx 1).isOpen = true ∧
      z.allotConflict 1 [255] 0 = false ∧ z.ctxBusy 1 = false) ∧ bodyOk (wCap 1 (wBody 48 [(0, 1), (47, 128)])) 48 [(0, 1), (8, 40)] = true ∧
    (∃ z, wSess.capTakes 3 (wCap 1 (wBody 52 [(0, 1), (35, 128)])) { code := 0x0013, mgmt := true, bodyCtx := true } z ∧ (z.ctx 1).isOpen = true ∧
      z.queueTaken 1 [255] = false) ∧ bodyOk (wCap 1 (wBody 52 [(0, 1), (35, 128)])) 52 [(0, 1), (4, 48)] = true ∧
    (∃ z, wSess.capTakes 3 (wCap 1 [1]) { code := 0x0014, bodyCtx := true } z) := by
  refine ⟨⟨_, capTakes_of _ _ _ _ ?_ ?_, ?_, ?_⟩, ?_, ⟨_, capTakes_of _ _ _ _ ?_ ?_⟩, ⟨_, capTakes_of _ _ _ _ ?_ ?_⟩, ?_,
    ⟨_, capTakes_of _ _ _ _ ?_ ?_, ?_⟩, ?_, ?_, ?_, ⟨_, capTakes_of _ _ _ _ ?_ ?_, ?_⟩, ?_, ⟨_, capTakes_of _ _ _ _ ?_ ?_, ?_⟩, ?_,
    ⟨_, capTakes_of _ _ _ _ ?_ ?_, ?_⟩, ?_, ⟨_, capTakes_of _ _ _ _ ?_ ?_⟩⟩
  all_goals (try unfold State.capReaches); (try and_intros) <;> decide +kernel

/-- That state with a graph in a slot of context 1, in this state. -/
abbrev wReplay (st : Nat) (run : StepRun) : State := (wSess.setCtx 1 { isOpen := true, job := 1, polders := 8, flasks := [0], graphs := [none, none, none, some wGraph], run := run }).setF
  fdSchedCtxState pgSched 1 st

theorem witness_StepCapsules :
    (∃ z, wSess.capTakes 3 (wCap 1 (wBody 16 [(0, 3), (8, 128)])) { code := 0x0020, feature := 1, ctxOp := true } z) ∧
    bodyOk (wCap 1 (wBody 16 [(0, 3), (8, 128)])) 16 [(0, 1), (8, 8)] = true ∧
    (∃ z, (wReplay csIdle {}).capTakes 3 (wCap 1 (wBody 8 [(0, 3), (4, 1)])) { code := 0x0021, feature := 1, ctxOp := true } z ∧
      (z.ctx 1).isOpen = true ∧ z.ctxState 1 = csIdle ∧ (z.ctx 1).uncorrected = false ∧ (z.ckpt 1).restore = none ∧
      (z.ctx 1).graphs.getD 3 none = some wGraph ∧ wGraph.fits (z.ctx 1).flasks.length = true) ∧
    bodyOk (wCap 1 (wBody 8 [(0, 3), (4, 1)])) 8 [(0, 1), (4, 4)] = true ∧ wGraph.fits 0 = false ∧
    (∃ z, (wReplay csRunning {}).capTakes 3 (wCap 1 []) { code := 0x0022, feature := 1, ctxOp := true } z ∧ z.ctxState 1 = csRunning ∧ (z.ctx 1).run.active = false) ∧
    (∃ z, (wReplay csRunning { active := true }).capTakes 3 (wCap 1 []) { code := 0x0022, feature := 1, ctxOp := true } z ∧ z.ctxState 1 = csRunning ∧
      (z.ctx 1).run.active = true) ∧ bodyOk (wCap 1 []) 0 [] = true ∧
    (∃ z, wSess.capTakes 3 (wCap 1 (wBody 16 [(8, 1)])) { code := 0x0030, feature := 5, ctxOp := true } z ∧ (z.ctx 1).isOpen = true) ∧
    bodyOk (wCap 1 (wBody 16 [(8, 1)])) 16 [(0, 16)] = true ∧
    (∃ z, wSess.capTakes 3 (wCap 1 (wBody 10 [])) { code := 0x0031, feature := 5, ctxOp := true } z ∧ (z.ctx 1).isOpen = true) ∧
    bodyOk (wCap 1 (wBody 10 [])) 10 [(0, 10), (16, 0)] = true ∧ bodyOk (wCap 1 (wBody 208 [(8, 1), (9, 8)])) (16 + 24 * 8) [(0, 10), (16, 24 * 8)] = true := by
  refine ⟨⟨_, capTakes_of _ _ _ _ ?_ ?_⟩, ?_, ⟨_, capTakes_of _ _ _ _ ?_ ?_, ?_⟩, ?_, ?_, ⟨_, capTakes_of _ _ _ _ ?_ ?_, ?_⟩,
    ⟨_, capTakes_of _ _ _ _ ?_ ?_, ?_⟩, ?_, ⟨_, capTakes_of _ _ _ _ ?_ ?_, ?_⟩, ?_, ⟨_, capTakes_of _ _ _ _ ?_ ?_, ?_⟩, ?_, ?_⟩
  all_goals (try unfold State.capReaches); (try and_intros) <;> decide +kernel

/-- The body of a QP_CONNECT for QPN 0x1001. -/
abbrev wConn : List Byte := wBody 48 [(0, 1), (1, 16), (4, 255), (5, 255), (6, 255), (32, 4), (33, 7), (34, 12), (35, 3)]

/-- That state with a data queue pair of context 1 and a region. -/
abbrev wPairs : State := { wSess with qps := [(4095, { kind := 2, state := 2, owner := 1 })], regions := [(4095, { valid := true, gen := 2 ^ 20 - 1, ctx := 1 })] }

theorem witness_RegionCapsules :
    (∃ z, wSess.capTakes 3 (wCap 1 wConn) { code := 0x0040, ctxOp := true } z ∧ (z.ctx 1).isOpen = true ∧ z.freeQp ≠ none ∧ (z.qp 4095).kind = 0) ∧
    bodyOk (wCap 1 wConn) 48 [(0, 27), (28, 3), (32, 4), (40, 8)] = true ∧ qpIx (capF (wCap 1 wConn) 0 4) = some 4095 ∧
    capF (wCap 1 wConn) 4 4 < 2 ^ 24 ∧ capF (wCap 1 wConn) 32 1 ≤ 4 ∧ capF (wCap 1 wConn) 33 1 < 8 ∧ 4 ≤ capF (wCap 1 wConn) 34 1 ∧
    capF (wCap 1 wConn) 34 1 ≤ 12 ∧ capF (wCap 1 wConn) 35 1 < 4 ∧
    (∃ z, wSess.capTakes 3 (wCap 0 wConn) { code := 0x0040, ctxOp := true } z ∧ (z.ctx 0).isOpen = false) ∧
    (∃ z, wPairs.capTakes 3 (wCap 1 [1, 16, 0, 0]) { code := 0x0041, ctxOp := true } z ∧ (z.qp 4095).kind = 2 ∧ (z.qp 4095).owner = 1) ∧
    bodyOk (wCap 1 [1, 16, 0, 0]) 4 [(0, 4)] = true ∧ qpIx (capF (wCap 1 [1, 16, 0, 0]) 0 4) = some 4095 ∧
    (∃ z, wPairs.capTakes 3 (wCap 1 (wBody 17 [(15, 255), (16, 3)])) { code := 0x0042, ctxOp := true } z ∧ (z.ctx 1).isOpen = true ∧ z.freeRegion.isSome = true) ∧
    bodyOk (wCap 1 (wBody 17 [(15, 255), (16, 3)])) 17 [(0, 17)] = true ∧ capF (wCap 1 (wBody 17 [(15, 255), (16, 3)])) 16 1 < 4 ∧
    (∃ z, wPairs.capTakes 3 (wCap 1 [255, 255, 255, 255]) { code := 0x0043, ctxOp := true } z ∧ (mapGet {} z.regions 4095).valid = true ∧
      (mapGet {} z.regions 4095).gen = capF (wCap 1 [255, 255, 255, 255]) 0 4 / 4096 ∧ (mapGet {} z.regions 4095).ctx = 1) ∧
    bodyOk (wCap 1 [255, 255, 255, 255]) 4 [(0, 4)] = true := by
  refine ⟨⟨_, capTakes_of _ _ _ _ ?_ ?_, ?_⟩, ?_, ?_, ?_, ?_, ?_, ?_, ?_, ?_, ⟨_, capTakes_of _ _ _ _ ?_ ?_, ?_⟩,
    ⟨_, capTakes_of _ _ _ _ ?_ ?_, ?_⟩, ?_, ?_, ⟨_, capTakes_of _ _ _ _ ?_ ?_, ?_⟩, ?_, ?_, ⟨_, capTakes_of _ _ _ _ ?_ ?_, ?_⟩, ?_⟩
  all_goals (try unfold State.capReaches); (try and_intros) <;> decide +kernel

/-- A part of a token of 13 bytes. -/
abbrev wPart : List Byte := wBody 13 [(0, 0x5A), (4, 1)]

theorem witness_RegisterCapsules :
    (∃ z, wSess.capTakes 3 (wCap 255 (wBody 16 [(8, 255)])) { code := 0x0050, feature := 7 } z) ∧ bodyOk (wCap 255 (wBody 16 [(8, 255)])) 16 [(0, 16)] = true ∧
    (∃ z, wSess.capTakes 3 (wCap 255 (wBody 5 [(4, 6)])) { code := 0x0051, feature := 8 } z) ∧ bodyOk (wCap 255 (wBody 5 [(4, 6)])) 5 [(0, 5)] = true ∧
    (∃ z, wSess.capTakes 3 (wCap 255 (wBody 7 [(4, 0x40), (5, 15), (6, 48)])) { code := 0x0060, feature := 9 } z ∧ z.mayRead 3 0 = true) ∧
    bodyOk (wCap 255 (wBody 7 [(4, 0x40), (5, 15), (6, 48)])) 7 [(0, 7)] = true ∧ 0xF40 + 4 * 48 ≤ 4096 ∧
    (∃ z, wSess.capTakes 255 (wCap 1 (wBody 7 [(0, 255), (1, 255), (2, 15), (4, 0xFC), (5, 15), (6, 1)])) { code := 0x0060, feature := 9 } z ∧ z.mayRead 255 0xFFFFF = false) ∧
    (∃ z, wSess.capTakes 3 (wCap 255 (wBody 16 [(4, 0x10), (6, 4), (8, 1)])) { code := 0x0061, feature := 9, mgmt := true } z ∧ z.heldByOpen 0 = false ∧
      z.reproUnsupported 3 0 0x010 4 1 = false) ∧ bodyOk (wCap 255 (wBody 16 [(4, 0x10), (6, 4), (8, 1)])) 16 [(0, 7), (8, 8)] = true ∧
    pageAccessOk 0x010 4 = true ∧ (0 : Nat) ≠ pgReeve ∧
    (∃ z, wSess.capTakes 3 (wCap 255 [1]) { code := 0x0070, feature := 11, mgmt := true } z ∧ z.dike.tokens.length < 8) ∧
    (∃ z, wSess.capTakes 3 (wCap 255 wPart) { code := 0x0070, feature := 11, mgmt := true } z ∧ z.stagingRoom (capF (wCap 255 wPart) 4 4) = true) ∧
    capF (wCap 255 wPart) 8 4 + (13 - 12) ≤ capF (wCap 255 wPart) 4 4 ∧ capF (wCap 255 wPart) 1 3 = 0 ∧
    (∃ z, wSess.capTakes 3 (wCap 255 []) { code := 0x0080, mgmt := true } z) := by
  refine ⟨⟨_, capTakes_of _ _ _ _ ?_ ?_⟩, ?_, ⟨_, capTakes_of _ _ _ _ ?_ ?_⟩, ?_, ⟨_, capTakes_of _ _ _ _ ?_ ?_, ?_⟩, ?_, ?_, ⟨_, capTakes_of _ _ _ _ ?_ ?_, ?_⟩,
    ⟨_, capTakes_of _ _ _ _ ?_ ?_, ?_⟩, ?_, ?_, ?_, ⟨_, capTakes_of _ _ _ _ ?_ ?_, ?_⟩, ⟨_, capTakes_of _ _ _ _ ?_ ?_, ?_⟩, ?_, ?_,
    ⟨_, capTakes_of _ _ _ _ ?_ ?_⟩⟩
  all_goals (try unfold State.capReaches); (try and_intros) <;> decide +kernel

/-- A session whose SPDM state stands at a stage. -/
abbrev wSpdm (x : SpdmState) : State := { wSess with spdm := [(3, x)] }

theorem spdmTakes_of (s : State) (q : QueueId) (code : Nat) (msg : List Byte) (h : s.capReaches q spdmOpcode)
    (h' : ((s.capWake spdmOpcode).popRing q.val spdmOpcode.code (s.spdmCap q msg).tag.toNat).capsuleCheck q.val spdmOpcode (s.spdmCap q msg) = none)
    (h'' : 4 ≤ msg.length ∧ leField msg 1 1 = code ∧ (code ≠ 0x84 → leField msg 0 1 = 0x13)) :
    s.spdmTakes q code msg ((s.capWake spdmOpcode).popRing q.val spdmOpcode.code (s.spdmCap q msg).tag.toNat) := ⟨⟨h, rfl, h'⟩, h''⟩

/-- A request of version 1.3 with its parameters and the rest of its bytes 0. -/
abbrev wMsg (code p1 p2 n : Nat) : List Byte := [0x13, BitVec.ofNat 8 code, BitVec.ofNat 8 p1, BitVec.ofNat 8 p2] ++ List.replicate n 0

theorem witness_Attestation : (∃ ans : State → SpdmState → List Byte → State → Prop,
      ∀ y x' out u, ans y x' out u ↔ spdmAnswers (wSpdm {}) 3 (wMsg 0x84 0 0 0) y x' out u) ∧
    (∃ z, (wSpdm {}).spdmTakes 3 0x84 (wMsg 0x84 0 0 0) z ∧ (z.spdmOf 3).stage = 0) ∧
    (∃ z, (wSpdm { stage := 1 }).spdmTakes 3 0xE1 (wMsg 0xE1 0 0 0) z ∧ (z.spdmOf 3).stage ≠ 0) ∧
    (∃ z, (wSpdm { stage := 2 }).spdmTakes 3 0xE3 (wMsg 0xE3 0 0 0) z ∧ 2 ≤ (z.spdmOf 3).stage) ∧
    (∃ z, (wSpdm { stage := 2 }).spdmTakes 3 0x81 (wMsg 0x81 0 0 0) z ∧ (z.spdmOf 3).stage < 3) ∧
    (∃ z, (wSpdm { stage := 3 }).spdmTakes 3 0x81 (wMsg 0x81 0 0 0) z ∧ 3 ≤ (z.spdmOf 3).stage) ∧
    (∃ z, (wSpdm { stage := 3 }).spdmTakes 3 0x82 (wMsg 0x82 1 0 4) z ∧ 3 ≤ (z.spdmOf 3).stage) ∧ 8 ≤ (wMsg 0x82 1 0 4).length ∧
    leField (wMsg 0x82 1 0 4) 2 1 % 16 < 2 ∧
    (∃ z, (wSpdm { stage := 3 }).spdmTakes 3 0x83 (wMsg 0x83 1 255 40) z ∧ 3 ≤ (z.spdmOf 3).stage) ∧ 44 ≤ (wMsg 0x83 1 255 40).length ∧
    (∃ z, (wSpdm { stage := 3 }).spdmTakes 3 0xE0 (wMsg 0xE0 1 255 33) z ∧ 3 ≤ (z.spdmOf 3).stage) ∧ 37 ≤ (wMsg 0xE0 1 255 33).length ∧
    (∀ k ∈ measureList, measureList.contains k = true) ∧ measureList.contains 254 = false := by
  refine ⟨⟨_, fun _ _ _ _ => Iff.rfl⟩, ⟨_, spdmTakes_of _ _ _ _ ?_ ?_ ?_, ?_⟩, ⟨_, spdmTakes_of _ _ _ _ ?_ ?_ ?_, ?_⟩, ⟨_, spdmTakes_of _ _ _ _ ?_ ?_ ?_, ?_⟩,
    ⟨_, spdmTakes_of _ _ _ _ ?_ ?_ ?_, ?_⟩, ⟨_, spdmTakes_of _ _ _ _ ?_ ?_ ?_, ?_⟩, ⟨_, spdmTakes_of _ _ _ _ ?_ ?_ ?_, ?_⟩, ?_, ?_,
    ⟨_, spdmTakes_of _ _ _ _ ?_ ?_ ?_, ?_⟩, ?_, ⟨_, spdmTakes_of _ _ _ _ ?_ ?_ ?_, ?_⟩, ?_, ?_, ?_⟩
  all_goals (try unfold State.capReaches); (try and_intros) <;> decide +kernel

theorem pen_field (v : Nat) (rest : List Byte) (h : v < 2 ^ 32) :
    leField (([0x13, 0xFE, 0, 0, 4, 0, 4] ++ leBytes 4 v ++ [24, 0]) ++ rest) 7 4 = v := by
  simp [leField, leBytes, leNat]; omega

theorem witness_SecuredSessions :
    (∃ z, (wSpdm { stage := 3 }).spdmTakes 3 0xE4 (wMsg 0xE4 0 0 0) z ∧ 3 ≤ (z.spdmOf 3).stage ∧ (z.spdmOf 3).session = 0) ∧
    (∃ z, (wSpdm { stage := 3, session := 1 }).spdmTakes 3 0xE4 (wMsg 0xE4 0 0 0) z ∧ 3 ≤ (z.spdmOf 3).stage ∧ (z.spdmOf 3).session ≠ 0) ∧
    (∃ z, (wSpdm { stage := 3, session := 1 }).spdmTakes 3 0xE5 (wMsg 0xE5 1 0 0) z ∧ (z.spdmOf 3).session = 1) ∧
    (∃ z, (wSpdm { stage := 3, session := 2 }).spdmTakes 3 0xE5 (wMsg 0xE5 1 0 0) z ∧ (z.spdmOf 3).session ≠ 1) ∧
    (∃ z, (wSpdm { stage := 3, session := 2 }).spdmTakes 3 0xE8 (wMsg 0xE8 0 0 0) z ∧ (z.spdmOf 3).session = 2) ∧
    (∃ z, (wSpdm { stage := 3, session := 2 }).spdmTakes 3 0xE9 (wMsg 0xE9 3 255 0) z ∧ (z.spdmOf 3).session = 2) ∧
    (∃ z, (wSpdm { stage := 3, session := 2 }).spdmTakes 3 0xEC (wMsg 0xEC 0 0 0) z ∧ (z.spdmOf 3).session = 2) ∧
    (∃ z, (wSpdm { stage := 3, session := 1 }).spdmTakes 3 0xE8 (wMsg 0xE8 0 0 0) z ∧ (z.spdmOf 3).session ≠ 2) ∧
    (∃ msg : List Byte, (∃ z, (wSpdm { stage := 3, session := 2 }).spdmTakes 3 0xFE msg z) ∧ leField msg 4 2 = 4 ∧ leField msg 6 1 = 4 ∧
      leField msg 7 4 = Config.vendorPen % 2 ^ 32 ∧ leField msg 11 2 = (msg.drop 13).length) := by
  refine ⟨⟨_, spdmTakes_of _ _ _ _ ?_ ?_ ?_, ?_⟩, ⟨_, spdmTakes_of _ _ _ _ ?_ ?_ ?_, ?_⟩, ⟨_, spdmTakes_of _ _ _ _ ?_ ?_ ?_, ?_⟩, ⟨_, spdmTakes_of _ _ _ _ ?_ ?_ ?_, ?_⟩,
    ⟨_, spdmTakes_of _ _ _ _ ?_ ?_ ?_, ?_⟩, ⟨_, spdmTakes_of _ _ _ _ ?_ ?_ ?_, ?_⟩, ⟨_, spdmTakes_of _ _ _ _ ?_ ?_ ?_, ?_⟩, ⟨_, spdmTakes_of _ _ _ _ ?_ ?_ ?_, ?_⟩,
    ⟨[0x13, 0xFE, 0, 0, 4, 0, 4] ++ leBytes 4 (Config.vendorPen % 2 ^ 32) ++ [24, 0] ++ List.replicate 24 0, ⟨_, spdmTakes_of _ _ _ _ ?_ ?_ ?_⟩, ?_, ?_, pen_field _ _ (Nat.mod_lt _ (by decide)), ?_⟩⟩
  all_goals (try unfold State.capReaches); (try and_intros) <;> decide +kernel

/-- Node 4 with a group of two members and a checkpoint run of context 1. -/
abbrev wCkpt (r : CkptRun) : State := (wColl true []).setCkpt 1 r

/-- A descriptor that drains. -/
abbrev wDesc : CkptDesc := { drain := true, qpn := 0x1001 }

/-- A candidate record with one heat. -/
abbrev wRec (h : Nat) : List Byte := leBytes 8 (h + 1) ++ List.replicate 56 0

theorem witness_Checkpoints :
    (∀ r ∈ [({} : CkptRun), { active := true }, { active := true, unreached := [(7, 65536, 4096)] }, { active := true, failed := true }, { active := true, handed := true },
      { active := true, handed := true, outstanding := 1 }, { desc := wDesc }, { draining := [1, 0], desc := wDesc },
      { restore := some {} }, { restore := some { heat := 1 } }, { restore := some { heat := 1 }, failed := true }, { restore := some { heat := 1 }, outstanding := 1 },
      { restore := some { heat := 1, storage := true } }], (wCkpt r).ckpt 1 = r) ∧
    ((wCkpt {}).promos.take 16).contains (1, 7) = false ∧
    (({ wCkpt { active := true, unreached := [(7, 65536, 4096)] } with promos := [(1, 7)] } : State).promos.take 16).contains (1, 7) = true ∧
    (([(7, 65536, 4096)] : List (Nat × Nat × Nat)).find? fun u => u.1 = 7) = some (7, 65536, 4096) ∧
    (wCkpt {}).getF fdCkptHoldUsed pgCkpt ≠ 16384 ∧ ((wCkpt {}).setF fdCkptHoldUsed pgCkpt 0 16384).getF fdCkptHoldUsed pgCkpt = 16384 ∧
    (wCkpt {}).slotComplete wDesc 1 = true ∧ (wCkpt {}).slotComplete { wDesc with k := 1 } 1 = false ∧ (wCkpt {}).keyFor 1 15 = none ∧
    (({ wCkpt {} with keys := [(15, { full := true, job := 1 })] } : State).keyFor 1 15).isSome = true ∧
    ((wCkpt {}).qp (0x1001 - 2)).sends = [] ∧ ((wQp { state := 3, sends := [(0, 0, 0, [])] }).qp (0x1001 - 2)).state = 3 ∧
    2 = grpMembers (((wCkpt {}).groupOf 1 0).getD 0) ∧ candidateHeats true [wRec 5, wRec 6] = [6, 5] ∧
    (∀ h ∈ [6, 5], CkptDesc.complete {} true [wRec 5, wRec 6] 2 h = false) ∧ candidateHeats true [wRec 5, wRec 5] = [5] ∧
    ((candidateHeats true [wRec 5, wRec 5]).find? fun h => CkptDesc.complete {} true [wRec 5, wRec 5] 2 h) = some 5 := by
  and_intros <;> decide +kernel

/-- Errors queued and running. -/
abbrev wErr (e : ErrState) : State := { wNode with err := e }

theorem witness_ErrorHandling :
    (blockSources 0xFFFFF).contains 1 = false ∧ (blockSources (pgReeve)).contains 12 = true ∧ (blockSources (pgHbmc 0)).contains 3 = true ∧
    (blockSources (pgHbmc 0)).contains 4 = true ∧ (blockSources (pgFlask 0)).contains 13 = true ∧ blockCode (pgFlask 0) ≠ 0x04 ∧
    (wErr { queued := [{ seq := 1, cls := 1 }, { seq := 2, cls := 3 }] }).nextQueued = some { seq := 2, cls := 3 } ∧
    (wErr { queued := [{ seq := 1, cls := 1 }] }).err.running = none ∧
    (wErr { queued := [{ seq := 2, cls := 3 }], running := some { seq := 1, cls := 1 } }).nextQueued = some { seq := 2, cls := 3 } ∧
    (wErr { queued := [{ seq := 2, cls := 1 }], running := some { seq := 1, cls := 1 } }).nextQueued = some { seq := 2, cls := 1 } ∧
    (wErr { queued := [{ seq := 2, cls := 2 }], running := some { seq := 1, cls := 1 } }).nextQueued = some { seq := 2, cls := 2 } ∧
    (∀ c ∈ [1, 2, 3], ((wErr { running := some { cls := c } }).outcomeOf { cls := c }).1 ≠ 9) ∧
    (wErr { repairs := [(pgFlask 0, 15)] }).repairGap (pgFlask 0) 15 = true ∧ blockCode (pgFlask 0) = 0x01 ∧
    (wErr { repairs := [(pgPd, 63)] }).repairGap pgPd 63 = true ∧ blockCode pgPd ≠ 0x01 ∧ (wErr {}).err.repairing = false := by
  and_intros <;> decide +kernel

/-- Node 4 in a supply state. -/
abbrev wPower (v : Nat) : State := wNode.setF fdPowerSupplyState pgPower 0 v

theorem witness_Supply : 10000 < 10001 ∧ (wPower 0).supply < 3 ∧ (wPower 3).supply = 3 ∧
    32 ≤ State.runOf { w0 with power := { w0.power with samples := List.replicate 32 3399 } } (· < 3400) ∧
    State.runOf { w0 with power := { w0.power with samples := List.replicate 32 3400 } } (· < 3400) < 32 ∧
    102 ≤ State.runOf { w0 with power := { w0.power with samples := List.replicate 102 6601 } } (6600 < ·) ∧
    7 ≤ State.runOf { w0 with power := { w0.power with samples := List.replicate 7 3799 } } (· < 3800) ∧
    ({ w0 with power := { w0.power with stopping := 1 } } : State).power.stopping ≠ 0 ∧ w0.power.stopping = 0 := by
  and_intros <;> decide +kernel

theorem witness_PowerAndHeat : (wNode.ctx 1).nextRelease = 0 ∧ ((wNode.setCtx 1 { nextRelease := 5 }).ctx 1).nextRelease ≠ 0 ∧
    (wNode.setF fdPowerIdleState pgPower 0 2).getF fdPowerIdleState pgPower = 2 ∧ (wNode.setF fdPowerIdleState pgPower 0 3).inDeep = true ∧
    dieStateOf 2 103 ≠ 2 ∧ dieStateOf 0 255 = 2 ∧ w0.getF fdPowerIdleState pgPower ≠ 2 := by
  and_intros <;> decide +kernel

/-- The node once its firmware runs. -/
abbrev wBoot (b : BootState) : State := { wNode with boot := b }

theorem witness_BootAndReset : wNode.power.good = false ∧ (999 < 1000 ∧ 1000 ≤ 1000) ∧ (wBoot { held := true }).boot.held = true ∧
    (wBoot { held := true }).getF fdNodectlStatusStage pgNodectl = 0 ∧ ((wBoot { held := true }).setF fdNodectlStatusStage pgNodectl 0 1).getF fdNodectlStatusStage pgNodectl = 1 ∧
    w0.getF fdNodectlPosI3cOk pgNodectl ≠ 1 ∧ (wBoot { firmware := true }).boot.firmware = true ∧ (wBoot { firmware := true }).boot.trained = false ∧
    (State.forEach (wBoot { firmware := true }) [((11 : SiteId), (31 : Fin 32))] (fun x t => t.mapOut x.1.val x.2.val)).boot.trainingFailed = false ∧
    (wBoot { firmware := true }).boot.selfTested = false ∧ w0.readyOk = false ∧
    (wNode.setF fdDikeStateTrial pgDike 0 1).getF fdDikeStateTrial pgDike = 1 ∧ wNode.getF fdNodectlStatusReady pgNodectl = 0 ∧
    (wNode.setF fdComCtrlReset (pgFlask 255) 0 1).getF fdComCtrlReset (pgFlask 255) ≠ 0 ∧ wNode.getF fdComCtrlReset (pgFlask 255) = 0 := by
  and_intros <;> decide +kernel

theorem witness_LoadClearsCoveredRcFields : (∀ t, Agent.reeve ≠ .kernel t) ∧ (∀ k, Agent.reeve ≠ .pd k) ∧ pageAccessOk 0x114 4 = true ∧
    w0.loadFields (pgHbmc 0) 0x114 4 = [(fdHbmcMergeCombined, 0)] ∧ fdHbmcMergeCombined.acc = .rc ∧ wholeIn fdHbmcMergeCombined 0 0x114 4 = true := by
  refine ⟨nofun, nofun, ?_⟩; decide +kernel

/-- A token of one tray and no records. -/
abbrev wToken : List Byte := leBytes 4 0x4E544B44 ++ leBytes 2 1 ++ [1, 0] ++ List.replicate 34 0 ++ leBytes 2 1 ++ leBytes 4 2 ++
  List.replicate 80 0 ++ [0, 0] ++ List.replicate 200 0

/-- Node 4 with a dike state. -/
abbrev wDike (d : DikeState) : State := { wNode with dike := d }

theorem witness_Reeve : (wDike {}).dike.tokens = [] ∧ takeToken [] = none ∧ (takeToken wToken).isSome = true ∧
    ((takeToken wToken).bind fun v => (wDike {}).tokenChecks (.capsule 3 1 0xFF) v).isSome = true ∧
    (wDike { tokens := [(.capsule 3 1 0xFF, wToken)] }).dike.tokens = [(.capsule 3 1 0xFF, wToken)] ∧
    (mapGet {} (wDike { shadows := [(1, { used := true, apply := 5 })] }).dike.shadows 1).used = true ∧
    (mapGet {} (wDike { shadows := [(1, { used := true, apply := 5 })] }).dike.shadows 1).apply ≠ 0 ∧
    (mapGet {} (wDike {}).dike.shadows 1).used = false ∧
    ((List.range 16).find? fun i => (mapGet {} ({ wNode with pairs := [(15, { job := 2 ^ 20 - 1, state := 3 })] } : State).pairs i).job = 2 ^ 20 - 1 &&
      (mapGet {} ({ wNode with pairs := [(15, { job := 2 ^ 20 - 1, state := 3 })] } : State).pairs i).state = 3) = some 15 ∧
    (∀ j, j < 16 → (mapGet {} ({ wNode with pairs := [(15, { job := 2 ^ 20 - 1, state := 3 })] } : State).pairs j).job ≠ 2 ^ 20 - 1 ∨
      (mapGet {} ({ wNode with pairs := [(15, { job := 2 ^ 20 - 1, state := 3 })] } : State).pairs j).state ≠ 5) ∧
    State.jobPolders { wNode with pairs := [(15, { job := 2 ^ 20 - 1, state := 3 })] } (2 ^ 20 - 1) = [] := by
  and_intros <;> decide +kernel

/-- A message of a length, of one part, with bytes at offsets. -/
abbrev wMgmt (sub n : Nat) (xs : List (Nat × Nat)) : List Byte := wBody n ([(0, sub), (2, 1)] ++ xs)

theorem witness_LaunchMessages : (wNode.setF fdPowerIdleState pgPower 0 3).inDeep = true ∧ wNode.inDeep = false ∧ wNode.getF fdPowerIdleState pgPower ≠ 2 ∧
    leField (wMgmt 2 8 []) 0 1 = 2 ∧ leField (wMgmt 3 8 []) 0 1 ≠ 2 ∧
    mgmtForm (wBody 256 [(0, 1), (8, 4), (12, 224)]) 1 = true ∧ leField (wBody 256 [(0, 1), (8, 4), (12, 224)]) 8 4 = wNode.nodeId ∧
    leField (wBody 256 [(0, 1), (8, 4), (12, 224)]) 16 4 + (256 - 32) ≤ leField (wBody 256 [(0, 1), (8, 4), (12, 224)]) 12 4 ∧
    leField (wBody 256 [(0, 1), (8, 4), (12, 224)]) 20 12 = 0 ∧ mgmtForm [2] 2 = false ∧
    mgmtSingle (wMgmt 3 48 [(40, 1), (41, 1), (47, 255)]) 3 48 [(8, 40)] = true ∧ mgmtSingle (wMgmt 4 48 [(47, 255)]) 4 48 [(8, 40)] = true ∧
    mgmtSingle (wMgmt 5 41 [(40, 2)]) 5 41 [(8, 33)] = true ∧ mgmtSingle (wMgmt 6 24 [(8, 5), (23, 1)]) 6 24 [(8, 6), (16, 8)] = true ∧
    mgmtSingle (wMgmt 7 40 [(8, 5), (39, 1)]) 7 40 [(8, 6), (16, 24)] = true ∧ mgmtSingle (wMgmt 4 47 []) 4 48 [(8, 40)] = false ∧
    ((wDike { launches := [{ known := true, shadow := true, outcome := 1, isRoot := [false, true] }] }).dike.launches.find?
      fun l => l.known && l.shadow && !l.decided && l.outcome = 1 && l.isRoot.contains true).isSome = true ∧
    ((wDike {}).dike.launches.find? fun l => l.known && l.shadow && !l.decided && l.outcome = 1 && l.isRoot.contains true) = none := by
  and_intros <;> decide +kernel

/-- Node 4 with a Flokan state. -/
abbrev wLine' (f : FlokanState) : State := { wNode with flokan := f }

theorem witness_FlokanInspect : (∃ z, (wLine' {}).lineRuns z ∧ z.pageDark 0 = false ∧ z.inspects 0 0x040 0x044 = true ∧ z.boot.firmware = false ∧
      z.inspects (pgFlask 255) 0x080 0x100 = true ∧ z.pageDark (pgFlask 255) = false) ∧ (∃ z, (wLine' { fresh := true }).lineRuns z ∧ z.flokan.fresh = false) ∧
    (wLine' { awaiting := true }).flokan.awaiting = true ∧ (wLine' { content := 2 }).flokan.content ≠ 0 ∧
    ({ wNode with power := { wNode.power with off := true } } : State).power.off = true ∧ baudRates.contains 921600 = true ∧ baudRates.contains 0 = false ∧
    0xF00 + 4 * 64 ≤ 4096 ∧ (∃ z, State.lineRuns { wNode with boot := { wNode.boot with firmware := true } } z ∧ z.boot.firmware = true) := by
  unfold State.lineRuns
  refine ⟨⟨_, ⟨?_, ?_, ?_, rfl⟩, ?_⟩, ⟨_, ⟨?_, ?_, ?_, rfl⟩, ?_⟩, ?_, ?_, ?_, ?_, ?_, ?_, ⟨_, ⟨?_, ?_, ?_, rfl⟩, ?_⟩⟩
  all_goals decide +kernel

/-- Node 4 without a job, with the control tier open to the unbound island. -/
abbrev wOpen (f : FlokanState) : State := { wLine' f with pairs := [], dike := { controlUnbound := true } }

theorem witness_FlokanControl : (∃ z, (wLine' {}).lineRuns z ∧ z.controlOpen = false ∧ z.inRecovery = false) ∧
    (∃ z, State.lineRuns (wNode.setF fdDikeStateRecovery pgDike 0 1) z ∧ z.inRecovery = true) ∧
    (∃ z, (wOpen {}).lineRuns z ∧ z.controlOpen = true ∧ z.jobBound = false ∧ z.fwBarred = false ∧ z.pageDark 0 = false) ∧
    (∃ z, State.lineRuns { wOpen {} with boot := { wNode.boot with trained := true } } z ∧ z.controlOpen = true ∧ z.boot.trained = true) ∧
    pageAccessOk 0xFF8 8 = true ∧ 2 ^ 64 - 1 < 2 ^ (8 * 8) ∧ (wOpen { content := 1 }).flokan.content ≠ 0 ∧ (wOpen { awaiting := true }).flokan.awaiting = true ∧
    (wOpen { content := 1, aborted := true }).flokan.aborted = true ∧ (wOpen { fresh := true }).flokan.fresh = true ∧
    hexBytes [0x30, 0x46] = some [0x0F] ∧ hexBytes [0x30] = none ∧ [0x30, 0x46] ≠ endLine ∧ (wOpen {}).power.off = false := by
  unfold State.lineRuns
  refine ⟨⟨_, ⟨?_, ?_, ?_, rfl⟩, ?_⟩, ⟨_, ⟨?_, ?_, ?_, rfl⟩, ?_⟩, ⟨_, ⟨?_, ?_, ?_, rfl⟩, ?_⟩, ⟨_, ⟨?_, ?_, ?_, rfl⟩, ?_⟩, ?_⟩
  all_goals (try and_intros) <;> decide +kernel

theorem witness_Observation : w0.getF fdObsSnapArm pgObs = 0 ∧ (w0.setF fdObsSnapArm pgObs 0 1).getF fdObsSnapArm pgObs ≠ 0 ∧ w0.urgentDue = false ∧
    ({ w0 with urgentDue := true } : State).urgentDue = true ∧ w0.side.summary = [] ∧ (31 : Byte) ^^^ 0 ^^^ 31 ^^^ 0xA5 = 0xA5 ∧ (31 : Byte).toNat < 32 ∧
    32 ≤ (32 : Byte).toNat ∧ w0.getF fdNodectlPosI3cOk pgNodectl ≠ 1 ∧
    (w0.setF fdNodectlPosI3cOk pgNodectl 0 1).getF fdNodectlPosI3cOk pgNodectl = 1 ∧
    (w0.getF fdNodectlPosStraps pgNodectl + 31 * 4 + 0 * 128 + 31 * 4096) ≠ (w0.setF fdNodectlPosI3cOk pgNodectl 0 1).getF fdNodectlPosNode pgNodectl ∧
    ({ w0 with side := { w0.side with summary := [1] } } : State).side.summary ≠ [] := by
  and_intros <;> decide +kernel

/-- Node 4 with every condition of READY met. -/
abbrev wUp : State := { (wNode.setF fdFtimeState pgFtime 0 ftLocked).setF fdEthLinkL0 (pgEth 0) 0 2 with
  boot := { firmware := true, trained := true, selfTested := true } }

theorem witness_BootAndReset_ready : wUp.readyOk = true ∧ wUp.getF fdNodectlStatusReady pgNodectl ≠ 1 := by and_intros <;> decide +kernel

end
end

section
/-! SUPPORT. Rules of the block pages: what setting one field changes, what a store answers when it is ignored, dropped or taken (R553),
and what a load clears (R13). -/
namespace Sys2Proof.Machine

/-! ### One field set -/

theorem regsOnly_setF (s : State) (d : FieldDesc) (page i v : Nat) : regsOnly s (s.setF d page i v) := rfl

theorem regsOnly.trans {s t u : State} (hst : regsOnly s t) (htu : regsOnly t u) : regsOnly s u := by
  unfold regsOnly at *
  rw [← hst, ← htu]

theorem regsOnly.out_eq {s u : State} (h : regsOnly s u) : u.out = s.out := by
  rw [← h]

theorem fieldOnly_setF (s : State) (d : FieldDesc) (page i v : Nat) :
    fieldOnly s (s.setF d page i v) d page i (v % 2 ^ d.width) :=
  ⟨s.getF_setF_self d page i v, fun e q j h => s.getF_setF_ne d e page i v q j h⟩

/-! ### What a store answers (R553) -/

section
variable {s : State} {a : Agent} {g page off size v : Nat}

theorem State.storePage_of_writer (hg : writerCode a = some g) (hok : pageAccessOk off size = true) :
    s.storePage a page off size v = (s.tryStore g page off size v).1 := by
  simp [State.storePage, hg, hok]

/-- No check of R553 fails for a store that writes no field. -/
@[simp] theorem State.judge_nil (s : State) (page size : Nat) : s.judge page size [] = 0 := by
  simp [State.judge]

/-- The cause codes of R552. -/
theorem State.judge_le (s : State) (page size : Nat) (ws : List FieldWrite) : s.judge page size ws ≤ 5 := by
  unfold State.judge
  repeat' split
  all_goals omega

/-- A value that its field's map does not list is cause RESERVED, unless the store is too narrow for one of its fields (R553). -/
theorem State.judge_of_unlisted {ws : List FieldWrite} {w : FieldWrite} (hw : w ∈ ws) (hl : s.listed page ws w = false) :
    s.judge page size ws = if ws.any fun x => 32 < x.d.width && size = 4 then 5 else 1 := by
  have hall : (!ws.all (s.listed page ws)) = true := by
    simp only [Bool.not_eq_true', List.all_eq_false]
    exact ⟨w, hw, by simp [hl]⟩
  rw [State.judge, if_pos hall]

/-- A page that the directory does not list or the part does not populate ignores a store (R547), and so does every page where the store
writes no field. -/
theorem State.tryStore_ignored (h : blockCode page = 0 ∨ s.absentPage page = true ∨ s.written page off size v = []) :
    s.tryStore g page off size v = (s, 0) := by
  obtain hb | ha | hw := h
  · simp [State.tryStore, hb]
  · simp [State.tryStore, ha]
  · simp [State.tryStore, hw, State.forEach]

section
variable (hb : blockCode page ≠ 0) (ha : s.absentPage page = false)
include hb ha

theorem State.tryStore_dropped (hj : s.judge page size (s.written page off size v) ≠ 0) :
    s.tryStore g page off size v =
      (s.reject page off (s.judge page size (s.written page off size v)) g, s.judge page size (s.written page off size v)) := by
  have hw : s.written page off size v ≠ [] := fun h => hj (by rw [h, State.judge_nil])
  simp [State.tryStore, hb, ha, hw, hj]

theorem State.tryStore_taken (hj : s.judge page size (s.written page off size v) = 0) :
    s.tryStore g page off size v =
      (((s.forEach (s.written page off size v) fun w t => t.putField page w).forEach (s.written page off size v)
        fun w t => t.act s page w), 0) := by
  simp [State.tryStore, hb, ha, hj]

end
end

/-! ### A dropped store's record (R552) -/

/-- The word that `FIELD_REJECT` holds after a page store dropped at an offset: cause, agent and count in their places. -/
def dropRecord (off cause agent n : Nat) : Nat := off + cause * 2 ^ 17 + agent * 2 ^ 20 + n * 2 ^ 23 + 2 ^ 31

theorem State.reject_eq_setF (s : State) (page cause agent : Nat) {off : Nat} (ho : off < 4096) :
    s.reject page off cause agent = s.setF fdComFieldReject page 0
      (dropRecord off cause agent (min (bits (s.getF fdComFieldReject page) 30 23 + 1) 255)) := by
  simp [State.reject, dropRecord, Nat.mod_eq_of_lt ho]

/-- Each part of the record reads back from its place, and the record fits the field. -/
theorem dropRecord_parts {off cause agent n : Nat} (ho : off < 4096) (hc : cause < 8) (hg : agent < 8) (hn : n < 256) :
    dropRecord off cause agent n < 2 ^ 32 ∧ bits (dropRecord off cause agent n) 11 0 = off ∧
      bits (dropRecord off cause agent n) 12 12 = 0 ∧ bits (dropRecord off cause agent n) 16 13 = 0 ∧
      bits (dropRecord off cause agent n) 19 17 = cause ∧ bits (dropRecord off cause agent n) 22 20 = agent ∧
      bits (dropRecord off cause agent n) 30 23 = n ∧ bits (dropRecord off cause agent n) 31 31 = 1 := by
  simp only [bits, dropRecord]
  omega

/-- A dropped page store changes `FIELD_REJECT` alone, which then holds the store's offset, cause and agent, the raised count and its
valid bit, and no tile. -/
theorem State.reject_records (s : State) (page : Nat) {off cause agent : Nat} (ho : off < 4096) (hc : cause < 8) (hg : agent < 8) :
    (∃ r, fieldOnly s (s.reject page off cause agent) fdComFieldReject page 0 r ∧ bits r 11 0 = off ∧ bits r 12 12 = 0 ∧
      bits r 16 13 = 0 ∧ bits r 19 17 = cause ∧ bits r 22 20 = agent ∧
      bits r 30 23 = min (bits (s.getF fdComFieldReject page) 30 23 + 1) 255 ∧ bits r 31 31 = 1) ∧
      regsOnly s (s.reject page off cause agent) := by
  have hn : min (bits (s.getF fdComFieldReject page) 30 23 + 1) 255 < 256 := by omega
  obtain ⟨hfit, hparts⟩ := dropRecord_parts ho hc hg hn
  rw [State.reject_eq_setF s page cause agent ho]
  refine ⟨⟨_, ?_, hparts⟩, regsOnly_setF _ _ _ _ _⟩
  have hset := fieldOnly_setF s fdComFieldReject page 0 (dropRecord off cause agent (min (bits (s.getF fdComFieldReject page) 30 23 + 1) 255))
  rwa [show fdComFieldReject.width = 32 from rfl, Nat.mod_eq_of_lt hfit] at hset

theorem writerCode_lt {a : Agent} {g : Nat} (h : writerCode a = some g) : g < 2 := by
  cases a <;> simp [writerCode] at h <;> omega

/-! ### A plain field's store -/

theorem State.commonAct_of_not_acting (s : State) (page : Nat) (w : FieldWrite) (h : (0, w.d.off) ∉ actingPlaces) :
    s.commonAct page w = s := by
  unfold State.commonAct
  split <;> simp_all [actingPlaces]

/-- A field outside the acting places holds its value and does nothing else. -/
theorem State.act_of_not_acting (s old : State) (page : Nat) (w : FieldWrite) (h : (w.d.code, w.d.off) ∉ actingPlaces) :
    s.act old page w = s := by
  unfold State.act
  split <;> simp_all [actingPlaces, State.commonAct_of_not_acting]

theorem plainField_parts {d : FieldDesc} (h : plainField d = true) :
    d.acc = .rw ∧ d.cls ≠ .shadowed ∧ commandField d = false ∧ (d.code, d.off) ∉ actingPlaces := by
  simp only [plainField, Bool.and_eq_true, decide_eq_true_eq, Bool.not_eq_true', List.contains_eq_mem, decide_eq_false_iff_not] at h
  tauto

theorem State.putField_of_plain (s : State) (page : Nat) (w : FieldWrite) (h : plainField w.d = true) :
    s.putField page w = s.setF w.d page w.i w.v := by
  obtain ⟨hacc, hcls, hcmd, -⟩ := plainField_parts h
  simp [State.putField, hacc, hcls, hcmd]

/-! ### What a load clears (R13) -/

/-- Fields of a page given the value 0, in order: what a load does to the RC fields that it covers whole. -/
def State.zeroFields (s : State) (page : Nat) (l : List (FieldDesc × Nat)) : State := s.forEach l fun x t => t.setF x.1 page x.2 0

/-- The RC fields that a load covers whole. -/
def State.rcCovered (s : State) (page off size : Nat) : List (FieldDesc × Nat) :=
  (s.loadFields page off size).filter fun x => x.1.acc = .rc && wholeIn x.1 x.2 off size

theorem State.pageLoad_eq (s : State) (page off size : Nat) :
    s.pageLoad page off size = (s.zeroFields page (s.rcCovered page off size), s.pageValue page off size) := rfl

theorem State.mem_rcCovered {s : State} {page off size : Nat} {x : FieldDesc × Nat} :
    x ∈ s.rcCovered page off size ↔ x ∈ s.loadFields page off size ∧ x.1.acc = .rc ∧ wholeIn x.1 x.2 off size = true := by
  simp [State.rcCovered]

@[simp] theorem State.zeroFields_nil (s : State) (page : Nat) : s.zeroFields page [] = s := rfl

@[simp] theorem State.zeroFields_cons (s : State) (page : Nat) (x : FieldDesc × Nat) (l : List (FieldDesc × Nat)) :
    s.zeroFields page (x :: l) = (s.setF x.1 page x.2 0).zeroFields page l := rfl

theorem regsOnly_zeroFields (page : Nat) (l : List (FieldDesc × Nat)) : ∀ s : State, regsOnly s (s.zeroFields page l) := by
  induction l with
  | nil => intro s; rfl
  | cons x l ih => intro s; exact (regsOnly_setF s x.1 page x.2 0).trans (ih _)

theorem State.getF_zeroFields_ne {page : Nat} {e : FieldDesc} {q j : Nat} (l : List (FieldDesc × Nat)) :
    ∀ s : State, (∀ x ∈ l, descKey x.1 page x.2 ≠ descKey e q j) → (s.zeroFields page l).getF e q j = s.getF e q j := by
  induction l with
  | nil => intro s _; rfl
  | cons x l ih =>
    intro s h
    obtain ⟨hx, hl⟩ := List.forall_mem_cons.mp h
    rw [State.zeroFields_cons, ih _ hl, State.getF_setF_ne _ _ _ _ _ _ _ _ hx]

/-- Zero stays zero where another field whose reset value is 0 too is set to 0, even one at the same place. -/
theorem State.getF_setF_zero {s : State} {d e : FieldDesc} {page i j : Nat} (hd : regReset page d i = 0)
    (he : regReset page e j = 0) (h0 : s.getF e page j = 0) : (s.setF d page i 0).getF e page j = 0 := by
  by_cases hk : descKey d page i = descKey e page j
  · simp [State.getF, State.setF, hd, he, hk]
  · rw [State.getF_setF_ne _ _ _ _ _ _ _ _ hk, h0]

theorem State.getF_zeroFields_of_zero {page : Nat} {e : FieldDesc} {j : Nat} (he : regReset page e j = 0)
    (l : List (FieldDesc × Nat)) : ∀ s : State, (∀ x ∈ l, regReset page x.1 x.2 = 0) → s.getF e page j = 0 →
      (s.zeroFields page l).getF e page j = 0 := by
  induction l with
  | nil => intro s _ h0; exact h0
  | cons x l ih =>
    intro s h h0
    obtain ⟨hx, hl⟩ := List.forall_mem_cons.mp h
    exact ih _ hl (State.getF_setF_zero hx he h0)

theorem State.getF_zeroFields_mem {page : Nat} {x : FieldDesc × Nat} (l : List (FieldDesc × Nat)) :
    ∀ s : State, (∀ y ∈ l, regReset page y.1 y.2 = 0) → x ∈ l → (s.zeroFields page l).getF x.1 page x.2 = 0 := by
  induction l with
  | nil => intro s _ hx; cases hx
  | cons y l ih =>
    intro s h hx
    obtain ⟨hy, hl⟩ := List.forall_mem_cons.mp h
    obtain rfl | hx := List.mem_cons.mp hx
    · exact State.getF_zeroFields_of_zero hy l _ hl (by simp)
    · exact ih _ hl hx

/-! ### The reset value of RC fields -/

/-- Places where a field's reset value depends on its page or element, as block code and offset (R439, R280, R287, R249). -/
def pageResetPlaces : List (Nat × Nat) := [(0x00, 0x028), (0x07, 0x200), (0x1F, 0x100), (0x0E, 0x140)]

/-- The field's table says 0 and its place is none of those whose reset value depends on the page. -/
def resetsToZero (d : FieldDesc) : Bool := d.reset = 0 && !pageResetPlaces.contains (d.code, d.off)

theorem regReset_of_resetsToZero {d : FieldDesc} (h : resetsToZero d = true) (page i : Nat) : regReset page d i = 0 := by
  simp only [resetsToZero, Bool.and_eq_true, decide_eq_true_eq, Bool.not_eq_true', List.contains_eq_mem, decide_eq_false_iff_not] at h
  obtain ⟨hzero, hplace⟩ := h
  unfold regReset
  repeat' split
  all_goals simp_all [pageResetPlaces]

/-- Every RC field of a list resets to 0. -/
def rcResetToZero (l : List FieldDesc) : Bool := l.all fun d => d.acc ≠ .rc || resetsToZero d

theorem rcResetToZero_blockFields (code : Nat) : rcResetToZero (blockFields code) = true := by
  unfold blockFields
  split <;> decide

theorem rcResetToZero_pageFields (code : Nat) : rcResetToZero (pageFields code) = true := by
  have hcommon : rcResetToZero (fieldsCom ++ [fdComCounter] ++ fieldsErr ++ fieldsEvr) = true := by decide
  have hblock := rcResetToZero_blockFields code
  unfold pageFields
  split
  · rfl
  · simp only [rcResetToZero, List.all_append, Bool.and_eq_true] at hcommon hblock ⊢
    exact ⟨hcommon, hblock⟩

theorem State.mem_pageFields_of_mem_loadFields {s : State} {page off size : Nat} {x : FieldDesc × Nat}
    (h : x ∈ s.loadFields page off size) : x.1 ∈ pageFields (blockCode page) := by
  have hall : x ∈ (pageFields (blockCode page)).flatMap fun d => (elemsAt d off size).map fun i => (d, i) := by
    unfold State.loadFields at h
    split at h
    · exact List.mem_of_mem_filter h
    · exact h
  obtain ⟨d, hd, hx⟩ := List.mem_flatMap.mp hall
  obtain ⟨i, -, rfl⟩ := List.mem_map.mp hx
  exact hd

theorem State.regReset_of_mem_rcCovered {s : State} {page off size : Nat} {x : FieldDesc × Nat}
    (h : x ∈ s.rcCovered page off size) : regReset page x.1 x.2 = 0 := by
  obtain ⟨hload, hrc, -⟩ := State.mem_rcCovered.mp h
  have hall := List.all_eq_true.mp (rcResetToZero_pageFields (blockCode page)) x.1 (State.mem_pageFields_of_mem_loadFields hload)
  exact regReset_of_resetsToZero (by simpa [hrc] using hall) page x.2

end Sys2Proof.Machine
end

section
/-! PROOFS. What the register pages do under stores and loads, and the state after reset (spec/00_scope.md). -/
namespace Sys2Proof.Machine

theorem exec_registerWrite_of_writer {a : Agent} {g size : Nat} {page : BitVec 20} {off : BitVec 12} {v : Word} (s : State)
    (hg : writerCode a = some g) (hok : pageAccessOk off.toNat size = true) :
    exec (.registerWrite a page off size v) s = .next (s.tryStore g page.toNat off.toNat size v.toNat).1.finish := by
  rw [← State.storePage_of_writer hg hok]
  rfl

theorem exec_rcRead_of_reaches {a : Agent} {page : BitVec 20} {off : BitVec 12} {size : Nat} (s : State)
    (hkernel : ∀ t, a ≠ .kernel t) (hpd : ∀ k, a ≠ .pd k) (hok : pageAccessOk off.toNat size = true) :
    exec (.rcRead a page off size) s =
      .next ((s.zeroFields page.toNat (s.rcCovered page.toNat off.toNat size)).emit
        (.readValue a (s.pageValue page.toNat off.toNat size))) := by
  change execRcRead a page off size s = _
  cases a with
  | kernel t => exact absurd rfl (hkernel t)
  | pd k => exact absurd rfl (hpd k)
  | reeve | sched k | monitor t => simp [execRcRead, hok, State.pageLoad_eq]

/-- Settles O7: the one field written is outside the acting places, so that the store is a single `setF`. -/
theorem registerWriteStoresField : Obligations.RegisterWriteStoresField := by
  unfold Obligations.RegisterWriteStoresField
  intro a g page off size v s w hg hok hb ha hw hj hp
  refine ⟨s.setF w.d page.toNat w.i w.v, ?_, fieldOnly_setF _ _ _ _ _, regsOnly_setF _ _ _ _ _⟩
  obtain ⟨-, -, -, hact⟩ := plainField_parts hp
  rw [exec_registerWrite_of_writer s hg hok, State.tryStore_taken hb ha (by rw [hw, hj]), hw]
  simp [State.forEach, State.putField_of_plain _ _ _ hp, State.act_of_not_acting _ _ _ _ hact]

/-- Settles O8: an unlisted value fails the check of R10 at the latest, and a failed check leaves `State.reject` alone of the store. -/
theorem droppedStoreOnlyRecorded : Obligations.DroppedStoreOnlyRecorded := by
  unfold Obligations.DroppedStoreOnlyRecorded
  intro a g page off size v s ws hg hok hb ha hws
  subst hws
  refine ⟨fun w hw hl => State.judge_of_unlisted hw hl, fun hj => ?_⟩
  have hcause := s.judge_le page.toNat size (s.written page.toNat off.toNat size v.toNat)
  have hagent := writerCode_lt hg
  refine ⟨_, ?_, s.reject_records page.toNat off.isLt (Nat.lt_of_le_of_lt hcause (by decide)) (Nat.lt_trans hagent (by decide))⟩
  rw [exec_registerWrite_of_writer s hg hok, State.tryStore_dropped hb ha hj]

/-- Settles O10: the load is `zeroFields` of the RC fields it covers, all of which reset to 0, and one output. -/
theorem loadClearsCoveredRcFields : Obligations.LoadClearsCoveredRcFields := by
  unfold Obligations.LoadClearsCoveredRcFields
  intro a page off size s hkernel hpd hok
  have hregs := regsOnly_zeroFields page.toNat (s.rcCovered page.toNat off.toNat size) s
  refine ⟨_, exec_rcRead_of_reaches s hkernel hpd hok, ?_, ?_, ?_, ?_⟩
  · rw [State.emit, hregs.out_eq]
  · intro x hx hrc hwhole
    exact State.getF_zeroFields_mem _ s (fun y hy => State.regReset_of_mem_rcCovered hy) (State.mem_rcCovered.mpr ⟨hx, hrc, hwhole⟩)
  · intro e q j h
    refine State.getF_zeroFields_ne _ s fun x hx => ?_
    obtain ⟨hload, hrc, hwhole⟩ := State.mem_rcCovered.mp hx
    exact h x hload hrc hwhole
  · exact congrArg (fun t : State => { t with out := s.out }) hregs

/-- Settles O6: nothing is listed at reset, so every read answers its default. -/
theorem resetState : Obligations.ResetState := by
  unfold Obligations.ResetState
  refine ⟨fun d page i => ⟨rfl, rfl⟩, fun f _ => rfl, rfl, rfl, rfl, fun c r => ?_, fun c n => rfl⟩
  exact ite_self 0

/-- Settles O9: the page ignores the store, so that only what waited goes on. -/
theorem emptyStoreChangesNothing : Obligations.EmptyStoreChangesNothing := by
  unfold Obligations.EmptyStoreChangesNothing
  intro a g page off size v s hg hok h
  rw [exec_registerWrite_of_writer s hg hok, State.tryStore_ignored h]

end Sys2Proof.Machine
end

section
/-! SUPPORT. Rules of the flask pages: where a field stands among the others of its page, which fields the records leave alone, what a
taken store does field by field, and what a change of a flask's state holds (spec/02_tiles_and_flasks.md). -/
namespace Sys2Proof.Machine

/-! ### Places of fields -/

/-- The bit of a page at which an element of a field begins. -/
def fieldPlace (d : FieldDesc) (i : Nat) : Nat := (d.off + d.stride * i) * 64 + d.lsb

/-- An element stands inside its page, and is not the one in which a frozen block counts the events it loses. -/
def unrecorded (d : FieldDesc) (i : Nat) : Bool :=
  d.off + d.stride * i < 4096 && d.lsb < 64 && fieldPlace d i ≠ fieldPlace fdEvrEvrLost 0

theorem descKey_place_ne {d e : FieldDesc} {i j : Nat} (p : Nat) (h : fieldPlace d i ≠ fieldPlace e j) :
    descKey d p i ≠ descKey e p j := by
  simp only [fieldPlace] at h
  simp only [descKey, fieldKey]
  omega

section
variable {d e : FieldDesc} {i j : Nat}

theorem State.getF_setF_place (s : State) (p v : Nat) (h : fieldPlace d i ≠ fieldPlace e j) :
    (s.setF d p i v).getF e p j = s.getF e p j :=
  State.getF_setF_ne _ _ _ _ _ _ _ _ (descKey_place_ne p h)

theorem State.getF_addF_place (s : State) (p n : Nat) (h : fieldPlace d i ≠ fieldPlace e j) :
    (s.addF d p i n).getF e p j = s.getF e p j :=
  State.getF_setF_place _ _ _ h

/-- The records count in fields of SCHED and OBS and in `EVR_LOST`, so that no other field of a flask's page is among them. -/
theorem offRecords_of_unrecorded (page : Nat) (f : FlaskId) (h : unrecorded d i = true) : offRecords page d (pgFlask f.val) i := by
  simp only [unrecorded, Bool.and_eq_true, decide_eq_true_eq] at h
  obtain ⟨⟨hoff, hlsb⟩, hlost⟩ := h
  have hf := f.isLt
  simp only [fieldPlace, fdEvrEvrLost] at hlost
  simp only [offRecords, descKey, fieldKey, fdEvrEvrLost, fdSchedLogSeq, fdObsCtrHead, fdObsNtraceHead, pgSched, pgObs, pgFlask]
  refine ⟨?_, ?_, fun c hc => ?_, ?_⟩ <;> omega

theorem State.getF_event_flask (s : State) (page unit : Nat) (cls : Option Nat) (code subject value : Nat) (f : FlaskId)
    (h : unrecorded d i = true) :
    (s.event page unit cls code subject value).getF d (pgFlask f.val) i = s.getF d (pgFlask f.val) i :=
  s.getF_event _ _ _ _ _ _ _ _ _ (offRecords_of_unrecorded page f h)

theorem State.getF_trace_flask (s : State) (n ctx arg0 arg1 : Nat) (f : FlaskId) (h : unrecorded d i = true) :
    (s.trace n ctx arg0 arg1).getF d (pgFlask f.val) i = s.getF d (pgFlask f.val) i :=
  s.getF_trace _ _ _ _ _ _ _ 0 (offRecords_of_unrecorded 0 f h)

end

/-! ### States that differ in records only -/

theorem recordsOnly_setF (s : State) (d : FieldDesc) (p i v : Nat) : recordsOnly s (s.setF d p i v) := rfl

theorem recordsOnly_event (s : State) (page unit : Nat) (cls : Option Nat) (code subject value : Nat) :
    recordsOnly s (s.event page unit cls code subject value) := by
  obtain ⟨_, _, _, _, _, _, h⟩ := s.event_frame page unit cls code subject value
  rw [h]
  rfl

theorem recordsOnly_trace (s : State) (n ctx arg0 arg1 : Nat) : recordsOnly s (s.trace n ctx arg0 arg1) := by
  obtain ⟨_, _, _, _, _, _, h⟩ := s.trace_frame n ctx arg0 arg1
  rw [h]
  rfl

theorem recordsOnly.trans {s t u : State} (hst : recordsOnly s t) (htu : recordsOnly t u) : recordsOnly s u := by
  unfold recordsOnly at *
  rw [← hst, ← htu]

/-! ### Bits of a word -/

theorem bitAt_eq_testBit (n i : Nat) : bitAt n i = n.testBit i := by
  rw [Nat.testBit_eq_decide_div_mod_eq, bitAt, beq_eq_decide]

theorem putBits_bit (w k b : Nat) : putBits w k k b / 2 ^ k % 2 = b % 2 := by
  simp only [putBits, bits, Nat.add_sub_cancel_left, pow_one]
  rw [Nat.add_mul_div_right _ _ (Nat.two_pow_pos k), Nat.mul_comm _ (2 ^ k), Nat.sub_mul_div]
  omega

/-- A bit just put reads back, in a field wide enough to hold it. -/
theorem bitAt_putBits_mod {k n : Nat} (w : Nat) (b : Bool) (h : k < n) : bitAt (putBits w k k b.toNat % 2 ^ n) k = b := by
  rw [bitAt_eq_testBit, Nat.testBit_mod_two_pow, ← bitAt_eq_testBit]
  simp only [h, decide_true, Bool.true_and, bitAt, putBits_bit]
  cases b <;> rfl

/-! ### Taken stores (R553) -/

@[simp] theorem State.forEach_nil {α : Type} (s : State) (g : α → State → State) : s.forEach [] g = s := rfl

@[simp] theorem State.forEach_cons {α : Type} (s : State) (x : α) (l : List α) (g : α → State → State) :
    s.forEach (x :: l) g = (g x s).forEach l g := rfl

theorem State.forEach_append {α : Type} (s : State) (l m : List α) (g : α → State → State) :
    s.forEach (l ++ m) g = (s.forEach l g).forEach m g := List.foldl_append

theorem State.forEach_congr {α : Type} {l : List α} {g h : α → State → State} (hgh : ∀ x ∈ l, ∀ s, g x s = h x s) :
    ∀ s : State, s.forEach l g = s.forEach l h := by
  induction l with
  | nil => intro s; rfl
  | cons x l ih =>
    intro s
    obtain ⟨hx, hl⟩ := List.forall_mem_cons.mp hgh
    rw [State.forEach_cons, State.forEach_cons, hx, ih hl]

theorem State.forEach_id {α : Type} (s : State) (l : List α) : s.forEach l (fun _ t => t) = s := by
  induction l with
  | nil => rfl
  | cons x l ih => exact ih

/-- What every operation keeps, the operation for each element of a list keeps. -/
theorem State.forEach_keeps {α : Type} {P : State → Prop} {l : List α} {g : α → State → State} (h : ∀ x ∈ l, ∀ s, P s → P (g x s)) :
    ∀ s : State, P s → P (s.forEach l g) := by
  induction l with
  | nil => intro s hs; exact hs
  | cons x l ih =>
    intro s hs
    obtain ⟨hx, hl⟩ := List.forall_mem_cons.mp h
    exact ih hl _ (hx s hs)

section
variable {s : State} {a : Agent} {page off size v : Nat}

theorem State.storePage_taken {ws : List FieldWrite} (h : s.storeTaken a page off size v ws) :
    s.storePage a page off size v = (s.forEach ws fun w t => t.putField page w).forEach ws fun w t => t.act s page w := by
  obtain ⟨hwriter, hok, hblock, habsent, hws, hjudge⟩ := h
  obtain ⟨g, hg⟩ := Option.isSome_iff_exists.mp hwriter
  subst hws
  rw [State.storePage_of_writer hg hok, State.tryStore_taken hblock habsent hjudge]

theorem State.storePage_taken_one {w : FieldWrite} (h : s.storeTaken a page off size v [w]) :
    s.storePage a page off size v = (s.putField page w).act s page w :=
  State.storePage_taken h

/-- A command that stores one bit of a word takes effect as that bit's field. -/
theorem State.storeBit_taken_one {b : Nat} {on : Bool} {w : FieldWrite} (h : s.storeTaken a page off 4 (s.bitWord page off b on) [w]) :
    s.storeBit a page off b on = (s.putField page w).act s page w :=
  State.storePage_taken_one h

end

/-- A field whose writes set it (R13): RW, not class S, and no command. -/
def valueField (d : FieldDesc) : Bool := d.acc = .rw && d.cls ≠ .shadowed && !commandField d

theorem State.putField_of_value (s : State) (page : Nat) (w : FieldWrite) (h : valueField w.d = true) :
    s.putField page w = s.setF w.d page w.i w.v := by
  simp only [valueField, Bool.and_eq_true, decide_eq_true_eq, Bool.not_eq_true'] at h
  obtain ⟨⟨hacc, hcls⟩, hcmd⟩ := h
  simp [State.putField, hacc, hcls, hcmd]

/-- A store sets no W1S field by itself (R13): what is written acts. -/
theorem State.putField_of_w1s (s : State) (page : Nat) (w : FieldWrite) (h : w.d.acc = .w1s) : s.putField page w = s := by
  simp [State.putField, h]

/-- A store sets no command field by itself. -/
theorem State.putField_of_command (s : State) (page : Nat) (w : FieldWrite)
    (h : (w.d.acc = .rw && w.d.cls ≠ .shadowed && commandField w.d) = true) : s.putField page w = s := by
  simp only [Bool.and_eq_true, decide_eq_true_eq] at h
  obtain ⟨⟨hacc, hcls⟩, hcmd⟩ := h
  simp [State.putField, hacc, hcls, hcmd]

/-- Fields that hold the value stored are all set. -/
theorem State.forEach_putField_of_value (s : State) (page : Nat) {ws : List FieldWrite} (h : ∀ w ∈ ws, valueField w.d = true) :
    (s.forEach ws fun w t => t.putField page w) = s.putAll page ws :=
  State.forEach_congr (fun w hw t => t.putField_of_value page w (h w hw)) s

theorem regsOnly_putAll (page : Nat) (ws : List FieldWrite) (s : State) : regsOnly s (s.putAll page ws) :=
  State.forEach_keeps (fun w _ t ht => ht.trans (regsOnly_setF t w.d page w.i w.v)) s rfl

/-! ### Class S fields (R11, R550) -/

theorem State.applyField_of_other (s : State) {page : Nat} {d : FieldDesc} (h : d.code ≠ blockCode page) : s.applyField page d = s := by
  simp [State.applyField, h]

/-- A page has at most one class S field, so that it alone takes effect. -/
theorem State.applyShadow_eq (s : State) {page : Nat} {d : FieldDesc} (hd : d ∈ shadowedFields) (hc : d.code = blockCode page) :
    s.applyShadow page = s.applyField page d := by
  have hother : ∀ (e : FieldDesc) (t : State), e.code ≠ d.code → t.applyField page e = t :=
    fun e t he => t.applyField_of_other (hc ▸ he)
  simp only [shadowedFields, List.mem_cons, List.not_mem_nil, or_false] at hd
  simp only [State.applyShadow, shadowedFields, List.foldl_cons, List.foldl_nil]
  obtain rfl | rfl | rfl := hd <;> simp (disch := decide) only [hother]

/-- A class S field takes the value last written, or keeps its own where none is pending. -/
theorem State.getF_applyField (s : State) {page : Nat} {d : FieldDesc} (hc : d.code = blockCode page) :
    (s.applyField page d).getF d page = s.lastF d page % 2 ^ d.width ∨
      ((s.applyField page d).getF d page = s.getF d page ∧ mapGet 0 s.shadow (descKey d page 0) = 0) := by
  simp only [State.applyField, State.lastF, hc, if_true]
  cases h : mapGet 0 s.shadow (descKey d page 0) with
  | zero => exact .inr ⟨rfl, rfl⟩
  | succ v => exact .inl (State.getF_setF_self _ _ _ _ _)

end Sys2Proof.Machine
end

section
/-! SUPPORT. What flask states and unit power hold after each change (R55–R59), and what the pages' commands leave. -/
namespace Sys2Proof.Machine

/-! ### A change of a flask's state -/

section
variable (s : State) (f : FlaskId)

theorem recordsOnly_setPstate (p v : Nat) : recordsOnly s (s.setPstate p v) :=
  (recordsOnly_setF s _ _ _ _).trans (recordsOnly_event _ _ _ _ _ _ _)

theorem recordsOnly_startWake (p : Nat) (demand : Bool) : recordsOnly s (s.startWake p demand) := by
  unfold State.startWake
  have hcount : recordsOnly s ((s.setPstate p psWaking).count (pgFlask p) (if demand then 5 else 6) 1) :=
    (recordsOnly_setPstate s p _).trans (recordsOnly_setF _ _ _ _ _)
  split
  · cases demand
    · exact hcount
    · exact hcount.trans (recordsOnly_trace _ _ _ _ _)
  · rfl

@[simp] theorem State.pstate_setPstate (v : Nat) : (s.setPstate f.val v).pstate f.val = v % 4 := by
  simp (disch := decide) [State.setPstate, State.pstate, State.getF_event_flask, fdFlaskPstateState]

theorem State.getF_setPstate {d : FieldDesc} {i : Nat} (v : Nat) (hrec : unrecorded d i = true)
    (hplace : fieldPlace fdFlaskPstateState 0 ≠ fieldPlace d i) :
    (s.setPstate f.val v).getF d (pgFlask f.val) i = s.getF d (pgFlask f.val) i := by
  rw [State.setPstate, State.getF_event_flask _ _ _ _ _ _ _ _ hrec, State.getF_setF_place _ _ _ hplace]

@[simp] theorem State.flask_setPstate (p v z : Nat) : (s.setPstate p v).flask z = s.flask z := by simp [State.setPstate]

@[simp] theorem State.relPending_setPstate (p v : Nat) : (s.setPstate p v).relPending = s.relPending := by simp [State.setPstate]

end

/-! ### Traces in memory (R540) -/

theorem State.getF_ctrMode_setF_flask (s : State) {d : FieldDesc} {i : Nat} (f : FlaskId) (v c : Nat) (h : unrecorded d i = true) :
    (s.setF d (pgFlask f.val) i v).getF fdObsCtrMode pgObs c = s.getF fdObsCtrMode pgObs c := by
  simp only [unrecorded, Bool.and_eq_true, decide_eq_true_eq] at h
  obtain ⟨⟨hoff, hlsb⟩, -⟩ := h
  have hf := f.isLt
  refine State.getF_setF_ne _ _ _ _ _ _ _ _ ?_
  simp only [descKey, fieldKey, fdObsCtrMode, pgFlask, pgObs]
  omega

theorem tracesOff_setF_flask {s : State} {d : FieldDesc} {i : Nat} (f : FlaskId) (v : Nat) (hd : unrecorded d i = true) (h : s.tracesOff) :
    (s.setF d (pgFlask f.val) i v).tracesOff := fun c hc => by
  rw [State.getF_ctrMode_setF_flask s f v c hd]
  exact h c hc

theorem tracesOff_event_flask {s : State} (f : FlaskId) (unit : Nat) (cls : Option Nat) (code subject value : Nat) (h : s.tracesOff) :
    (s.event (pgFlask f.val) unit cls code subject value).tracesOff := fun c hc => by
  have hoff : offRecords (pgFlask f.val) fdObsCtrMode pgObs c := by
    have hf := f.isLt
    simp only [offRecords, descKey, fieldKey, fdEvrEvrLost, fdSchedLogSeq, fdObsCtrHead, fdObsCtrMode, fdObsNtraceHead, pgSched, pgObs,
      pgFlask]
    refine ⟨?_, ?_, fun b hb => ?_, ?_⟩ <;> omega
  rw [s.getF_event _ _ _ _ _ _ _ _ _ hoff]
  exact h c hc

theorem tracesOff_setPstate {s : State} (f : FlaskId) (v : Nat) (h : s.tracesOff) : (s.setPstate f.val v).tracesOff :=
  tracesOff_event_flask f _ _ _ _ _ (tracesOff_setF_flask f v (by decide) h)

theorem State.mem_setPstate {s : State} (f : FlaskId) (v : Nat) (h : s.tracesOff) : (s.setPstate f.val v).mem = s.mem :=
  State.event_mem _ _ _ _ _ _ _ (tracesOff_setF_flask f v (by decide) h)

/-! ### Sleep and wake (R56, R57) -/

section
variable (s : State) (f : FlaskId)

/-- Sleep entry keeps every field of the flask's page but its state and its units' power. -/
theorem State.getF_sleepStart {d : FieldDesc} {i : Nat} (hrec : unrecorded d i = true)
    (hstate : fieldPlace fdFlaskPstateState 0 ≠ fieldPlace d i) (hmx : fieldPlace fdFlaskUnitStateMx 0 ≠ fieldPlace d i)
    (hsv : fieldPlace fdFlaskUnitStateSv 0 ≠ fieldPlace d i) :
    (s.sleepStart f.val).getF d (pgFlask f.val) i = s.getF d (pgFlask f.val) i := by
  rw [State.sleepStart, State.getF_trace_flask _ _ _ _ _ _ hrec, State.unitsOff, State.getF_setFlask, State.getF_setF_place _ _ _ hsv,
    State.getF_setF_place _ _ _ hmx, s.getF_setPstate f _ hrec hstate]

theorem State.pstate_sleepStart : (s.sleepStart f.val).pstate f.val = psEntering := by
  rw [State.pstate, State.sleepStart, State.getF_trace_flask _ _ _ _ _ _ (by decide), State.unitsOff, State.getF_setFlask,
    State.getF_setF_place _ _ _ (by decide), State.getF_setF_place _ _ _ (by decide)]
  exact s.pstate_setPstate f _

/-- Sleep entry unpowers every unit (R59). -/
theorem State.unitOn_sleepStart {k : Nat} (hk : k < 16) (x : TileUnit) : (s.sleepStart f.val).unitOn (16 * f.val + k) x = false := by
  have hflask : flaskOf (16 * f.val + k) = f.val := by unfold flaskOf; omega
  cases x <;>
    simp (disch := decide) [State.unitOn, hflask, State.sleepStart, State.unitsOff, State.getF_trace_flask, State.getF_setF_place, bitAt]

theorem State.mem_sleepStart (h : s.tracesOff) : (s.sleepStart f.val).mem = s.mem := by
  have hoff : ((s.setPstate f.val psEntering).unitsOff f.val).tracesOff :=
    tracesOff_setF_flask (d := fdFlaskUnitStateSv) f 0 (by decide)
      (tracesOff_setF_flask (d := fdFlaskUnitStateMx) f 0 (by decide) (tracesOff_setPstate f _ h))
  rw [State.sleepStart, State.trace_mem _ _ _ _ _ hoff]
  exact State.mem_setPstate f _ h

/-- The slot of the always-on counters in which a wake is counted (R537). -/
def wakeSlot (demand : Bool) : Nat := if demand then 5 else 6

/-- A wake of an ASLEEP flask changes its state and its count of wakes. -/
theorem State.getF_startWake {d : FieldDesc} {i : Nat} (demand : Bool) (h : s.pstate f.val = psAsleep) (hrec : unrecorded d i = true) :
    (s.startWake f.val demand).getF d (pgFlask f.val) i =
      ((s.setPstate f.val psWaking).addF fdComCounter (pgFlask f.val) (wakeSlot demand) 1).getF d (pgFlask f.val) i := by
  rw [State.startWake, if_pos h]
  cases demand
  · rfl
  · exact State.getF_trace_flask _ _ _ _ _ _ hrec

theorem State.pstate_startWake (demand : Bool) (h : s.pstate f.val = psAsleep) : (s.startWake f.val demand).pstate f.val = psWaking := by
  have hslot : fieldPlace fdComCounter (wakeSlot demand) ≠ fieldPlace fdFlaskPstateState 0 := by revert demand; decide
  rw [State.pstate, s.getF_startWake f demand h (by decide), State.getF_addF_place _ _ _ hslot]
  exact s.pstate_setPstate f _

theorem State.getF_counter_startWake (demand : Bool) (h : s.pstate f.val = psAsleep) :
    (s.startWake f.val demand).getF fdComCounter (pgFlask f.val) (wakeSlot demand) =
      min (s.getF fdComCounter (pgFlask f.val) (wakeSlot demand) + 1) (2 ^ 64 - 1) := by
  have hrec : unrecorded fdComCounter (wakeSlot demand) = true := by revert demand; decide
  have hplace : fieldPlace fdFlaskPstateState 0 ≠ fieldPlace fdComCounter (wakeSlot demand) := by revert demand; decide
  rw [s.getF_startWake f demand h hrec, State.getF_addF_self, s.getF_setPstate f _ hrec hplace]
  rfl

/-- An abort of a sleep entry changes the flask's state and sets `SLEEP_ABORT`. -/
theorem State.getF_abortSleep {d : FieldDesc} {i : Nat} (hrec : unrecorded d i = true) :
    (s.abortSleep f.val).getF d (pgFlask f.val) i =
      ((s.setPstate f.val psAwake).setF fdFlaskPstateSleepAbort (pgFlask f.val) 0 1).getF d (pgFlask f.val) i :=
  State.getF_trace_flask _ _ _ _ _ _ hrec

theorem State.pstate_abortSleep : (s.abortSleep f.val).pstate f.val = psAwake := by
  rw [State.pstate, s.getF_abortSleep f (by decide), State.getF_setF_place _ _ _ (by decide)]
  exact s.pstate_setPstate f _

theorem State.getF_sleepAbort_abortSleep : (s.abortSleep f.val).getF fdFlaskPstateSleepAbort (pgFlask f.val) = 1 := by
  rw [s.getF_abortSleep f (by decide), State.getF_setF_self]
  rfl

end

/-! ### Hold bits (R59) -/

/-- Nothing but the states of flasks beside their pages differs. -/
def flasksOnly (s u : State) : Prop := { u with flasks := s.flasks } = s

theorem flasksOnly.trans {s t u : State} (hst : flasksOnly s t) (htu : flasksOnly t u) : flasksOnly s u := by
  unfold flasksOnly at *
  rw [← hst, ← htu]

theorem flasksOnly.regs_eq {s u : State} (h : flasksOnly s u) : u.regs = s.regs := by
  rw [← h]

theorem flasksOnly_startUnitWake (s : State) (t : Nat) (x : TileUnit) : flasksOnly s (s.startUnitWake t x) := by
  unfold State.startUnitWake
  dsimp only
  split <;> rfl

/-- Hold bits just written start wakes of units, which no page shows. -/
theorem flasksOnly_holdWrite (s : State) (f : Nat) : flasksOnly s (s.holdWrite f) := by
  refine State.forEach_keeps (P := flasksOnly s) (fun t _ u hu => ?_) s rfl
  have hstep (v : State) (b : Bool) (x : TileUnit) (hv : flasksOnly s v) : flasksOnly s (if b then v.startUnitWake t x else v) := by
    cases b
    · exact hv
    · exact hv.trans (flasksOnly_startUnitWake v t x)
  exact hstep _ _ _ (hstep _ _ _ hu)

end Sys2Proof.Machine
end

section
/-! PROOFS. What stores to the CTRL, COMMIT and flask command words do (spec/02_tiles_and_flasks.md, spec/22_register_pages.md). -/
namespace Sys2Proof.Machine

/-! ### CTRL and COMMIT (R549, R550) -/

theorem exec_ctrlQuiesce_of_taken {a : Agent} {page : BitVec 20} {on : Bool} {s : State}
    (h : s.storeTaken a page.toNat 0x010 4 (s.bitWord page.toNat 0x010 1 on) [⟨fdComCtrlQuiesce, 0, on.toNat⟩]) :
    exec (.ctrlQuiesce a page on) s = .next (s.setF fdComCtrlQuiesce page.toNat 0 on.toNat).finish := by
  have hstore : s.storeBit a page.toNat 0x010 1 on = s.setF fdComCtrlQuiesce page.toNat 0 on.toNat := by
    rw [State.storeBit_taken_one h, State.putField_of_value _ _ _ rfl]
    rfl
  rw [← hstore]
  rfl

/-- A store of ENABLE sets it, and clearing it starts the flask's sleep (R549). -/
theorem exec_ctrlEnable_of_taken {a : Agent} {page : BitVec 20} {on : Bool} {s : State}
    (h : s.storeTaken a page.toNat 0x010 4 (s.bitWord page.toNat 0x010 0 on) [⟨fdComCtrlEnable, 0, on.toNat⟩]) :
    exec (.ctrlEnable a page on) s = .next (if on then s.setF fdComCtrlEnable page.toNat 0 1
      else (s.setF fdComCtrlEnable page.toNat 0 0).flaskDisabled page.toNat).finish := by
  have hstore : s.storeBit a page.toNat 0x010 0 on = if on then s.setF fdComCtrlEnable page.toNat 0 1
      else (s.setF fdComCtrlEnable page.toNat 0 0).flaskDisabled page.toNat := by
    rw [State.storeBit_taken_one h, State.putField_of_value _ _ _ rfl]
    cases on <;> rfl
  rw [← hstore]
  rfl

theorem exec_blockReset_of_taken {a : Agent} {page : BitVec 20} {s : State}
    (h : s.storeTaken a page.toNat 0x010 4 (s.bitWord page.toNat 0x010 2 true) [⟨fdComCtrlReset, 0, 1⟩]) :
    exec (.blockReset a page) s = .next (s.resetStart page.toNat).finish := by
  have hstore : s.storeBit a page.toNat 0x010 2 true = s.resetStart page.toNat := by
    rw [State.storeBit_taken_one h, State.putField_of_w1s _ _ _ rfl]
    rfl
  rw [← hstore]
  rfl

theorem exec_commitGo_of_taken {a : Agent} {page : BitVec 20} {s : State} (h : s.storeTaken a page.toNat 0x018 4 1 [⟨fdComCommitGo, 0, 1⟩]) :
    exec (.commitGo a page) s = .next (if s.blockIdle page.toNat then s.applyShadow page.toNat else s).finish := by
  have hstore : s.storePage a page.toNat 0x018 4 1 = if s.blockIdle page.toNat then s.applyShadow page.toNat else s := by
    rw [State.storePage_taken_one h, State.putField_of_w1s _ _ _ rfl]
    rfl
  rw [← hstore]
  rfl

/-- A flask disabled while AWAKE enters sleep, and one that sleeps stays asleep (R549). -/
theorem State.flaskDisabled_spec (s : State) (f : FlaskId) :
    (s.flaskDisabled f.val).getF fdComCtrlEnable (pgFlask f.val) = s.getF fdComCtrlEnable (pgFlask f.val) ∧
      (s.pstate f.val = psAwake → (s.flaskDisabled f.val).pstate f.val = psEntering) ∧
      (s.pstate f.val = psAsleep → (s.flaskDisabled f.val).pstate f.val = psAsleep) := by
  unfold State.flaskDisabled
  split
  · next hawake =>
    refine ⟨s.getF_sleepStart f (by decide) (by decide) (by decide) (by decide), fun _ => s.pstate_sleepStart f, fun hasleep => ?_⟩
    exact absurd (hawake.symm.trans hasleep) (by decide)
  · next hawake =>
    split
    · exact ⟨s.getF_setPstate f _ (by decide) (by decide), fun h => absurd h hawake, fun _ => s.pstate_setPstate f _⟩
    · exact ⟨rfl, fun h => absurd h hawake, id⟩

/-- Settles O11: every CTRL and COMMIT store is the field it writes and that field's act. -/
theorem controlStores : Obligations.ControlStores := by
  unfold Obligations.ControlStores
  refine ⟨fun a page on s h => ?_, fun a page s h => ?_, fun a f s h => ?_, fun a page s h => ?_, fun a page s d hd hcode h => ?_⟩
  · refine ⟨_, exec_ctrlQuiesce_of_taken h, ?_, regsOnly_setF _ _ _ _ _⟩
    have hset := fieldOnly_setF s fdComCtrlQuiesce page.toNat 0 on.toNat
    rwa [show on.toNat % 2 ^ fdComCtrlQuiesce.width = on.toNat from by cases on <;> rfl] at hset
  · exact ⟨_, exec_ctrlEnable_of_taken h, fieldOnly_setF s fdComCtrlEnable page.toNat 0 1, regsOnly_setF _ _ _ _ _⟩
  · have hpage : (BitVec.ofNat 20 f.val).toNat = pgFlask f.val := Nat.mod_eq_of_lt (Nat.lt_trans f.isLt (by decide))
    rw [← hpage] at h
    obtain ⟨henable, hawake, hasleep⟩ := (s.setF fdComCtrlEnable (pgFlask f.val) 0 0).flaskDisabled_spec f
    have hstate : (s.setF fdComCtrlEnable (pgFlask f.val) 0 0).pstate f.val = s.pstate f.val :=
      State.getF_setF_place _ _ _ (by decide)
    rw [hstate] at hawake hasleep
    rw [State.getF_setF_self] at henable
    refine ⟨_, exec_ctrlEnable_of_taken h, ?_⟩
    rw [hpage]
    exact ⟨henable, hawake, hasleep⟩
  · exact exec_blockReset_of_taken h
  · have hexec := exec_commitGo_of_taken h
    refine ⟨fun hidle => ⟨_, by rw [hexec, if_pos hidle], ?_⟩, fun hbusy => by simp [hexec, hbusy]⟩
    rw [s.applyShadow_eq hd hcode]
    exact s.getF_applyField hcode

/-! ### Flask commands (R38, R56, R57, R59) -/

/-- No block refuses a write of an accepted store (R553). -/
theorem State.refusesWrite_of_judge {s : State} {page size : Nat} {ws : List FieldWrite} {w : FieldWrite} (h : s.judge page size ws = 0)
    (hw : w ∈ ws) : s.refusesWrite page ws w = false := by
  unfold State.judge at h
  split_ifs at h with _ _ _ _ hany
  simp only [List.any_eq_true, not_exists, not_and, Bool.not_eq_true] at hany
  exact hany w hw

/-- A SLEEP command that an AWAKE flask does not refuse starts sleep entry (R56). -/
theorem State.sleepCmd_of_awake {s : State} {f : Nat} (hawake : s.pstate f = psAwake) (h : (s.sleepCmd f).isNone = false) :
    s.sleepCmd f = some (s.sleepStart f) := by
  have hcmd : s.sleepCmd f = if s.sleepOk f then some (s.sleepStart f) else none := by
    simp [State.sleepCmd, hawake, psAwake, psAsleep, psEntering]
  rw [hcmd] at h ⊢
  cases hok : s.sleepOk f
  · simp [hok] at h
  · rfl

theorem exec_flaskSleep_of_taken {a : Agent} {f : FlaskId} {s : State} (h : s.storeTaken a (pgFlask f.val) 0x104 4 1 [⟨fdFlaskPcmdCmd, 0, 1⟩])
    (hawake : s.pstate f.val = psAwake) : exec (.flaskSleep a f) s = .next (s.sleepStart f.val).finish := by
  obtain ⟨-, -, -, -, -, hjudge⟩ := id h
  have hcmd : s.sleepCmd f.val = some (s.sleepStart f.val) :=
    State.sleepCmd_of_awake hawake (State.refusesWrite_of_judge hjudge (List.mem_singleton.mpr rfl))
  have hstore : s.storePage a (pgFlask f.val) 0x104 4 1 = s.sleepStart f.val := by
    rw [State.storePage_taken_one h, State.putField_of_command _ _ _ (by decide)]
    exact congrArg (·.getD s) hcmd
  rw [← hstore]
  rfl

theorem exec_flaskWake_of_taken {a : Agent} {f : FlaskId} {s : State} (h : s.storeTaken a (pgFlask f.val) 0x104 4 2 [⟨fdFlaskPcmdCmd, 0, 2⟩]) :
    exec (.flaskWake a f) s = .next (s.wakeCmd f.val).finish := by
  have hstore : s.storePage a (pgFlask f.val) 0x104 4 2 = s.wakeCmd f.val := by
    rw [State.storePage_taken_one h, State.putField_of_command _ _ _ (by decide)]
    rfl
  rw [← hstore]
  rfl

/-- The state in which an IMEM load starts from its page's operands. -/
def State.imemGo (s : State) (f : FlaskId) : State :=
  s.imemStart f.val (s.getF fdFlaskImemCtrlTiles (pgFlask f.val)) (s.getF fdFlaskImemCtrlLen (pgFlask f.val))
    (s.getF fdFlaskImemSrc (pgFlask f.val))

/-- GO and the operands of its word: the operands are set, and the load starts from them (R38). -/
theorem exec_imemLoadGo_of_taken {a : Agent} {f : FlaskId} {v : BitVec 32} {pre : List FieldWrite} {s : State}
    (h : s.storeTaken a (pgFlask f.val) 0x128 4 v.toNat (pre ++ [⟨fdFlaskImemCtrlGo, 0, 1⟩]))
    (hpre : ∀ w ∈ pre, w.d = fdFlaskImemCtrlTiles ∨ w.d = fdFlaskImemCtrlLen) :
    exec (.imemLoadGo a f v) s = .next ((s.putAll (pgFlask f.val) pre).imemGo f).finish := by
  have hvalue : ∀ w ∈ pre, valueField w.d = true := fun w hw => by
    obtain hd | hd := hpre w hw <;> rw [hd] <;> decide
  have hact : ∀ w ∈ pre, ∀ t : State, t.act s (pgFlask f.val) w = t := fun w hw t => by
    obtain ⟨d, i, x⟩ := w
    obtain hd | hd := hpre _ hw <;> cases hd <;> rfl
  have hstore : s.storePage a (pgFlask f.val) 0x128 4 v.toNat = (s.putAll (pgFlask f.val) pre).imemGo f := by
    simp only [State.storePage_taken h, State.forEach_append]
    rw [State.forEach_putField_of_value _ _ hvalue, State.forEach_congr hact, State.forEach_id]
    rfl
  rw [← hstore]
  rfl

/-- Hold bits take their values, and each write starts the wakes they ask for (R59). -/
theorem exec_gateHoldWrite_of_taken {a : Agent} {f : FlaskId} {v : BitVec 32} {ws : List FieldWrite} {s : State}
    (h : s.storeTaken a (pgFlask f.val) 0x10C 4 v.toNat ws) (hws : ∀ w ∈ ws, w.d = fdFlaskGateHoldMx ∨ w.d = fdFlaskGateHoldSv) :
    exec (.gateHoldWrite a f v) s =
      .next ((s.putAll (pgFlask f.val) ws).forEach ws fun _ t => t.holdWrite f.val).finish := by
  have hvalue : ∀ w ∈ ws, valueField w.d = true := fun w hw => by
    obtain hd | hd := hws w hw <;> rw [hd] <;> decide
  have hact : ∀ w ∈ ws, ∀ t : State, t.act s (pgFlask f.val) w = t.holdWrite f.val := fun w hw t => by
    obtain ⟨d, i, x⟩ := w
    obtain hd | hd := hws _ hw <;> cases hd <;> rfl
  have hstore : s.storePage a (pgFlask f.val) 0x10C 4 v.toNat =
      (s.putAll (pgFlask f.val) ws).forEach ws fun _ t => t.holdWrite f.val := by
    rw [State.storePage_taken h, State.forEach_putField_of_value _ _ hvalue, State.forEach_congr hact]
  rw [← hstore]
  rfl

/-- Settles O12: each command's store is what the command's field does, SLEEP, WAKE, the start of an IMEM load, and the hold bits. -/
theorem flaskStores : Obligations.FlaskStores := by
  unfold Obligations.FlaskStores
  intro a f s
  refine ⟨fun h hawake => ?_, fun h => ⟨fun hasleep => ?_, fun hentering => ?_⟩, fun v pre s' h hpre hs' => ?_, fun v ws h hws => ?_⟩
  · exact ⟨_, exec_flaskSleep_of_taken h hawake, s.pstate_sleepStart f, fun k hk x => s.unitOn_sleepStart f hk x, s.mem_sleepStart f⟩
  · have hcmd : s.wakeCmd f.val = s.startWake f.val false := by simp [State.wakeCmd, hasleep, psAsleep, psEntering]
    refine ⟨_, exec_flaskWake_of_taken h, ?_⟩
    rw [hcmd]
    exact ⟨s.pstate_startWake f false hasleep, s.getF_counter_startWake f false hasleep⟩
  · have hcmd : s.wakeCmd f.val = s.abortSleep f.val := by simp [State.wakeCmd, hentering]
    refine ⟨_, exec_flaskWake_of_taken h, ?_⟩
    rw [hcmd]
    exact ⟨s.pstate_abortSleep f, s.getF_sleepAbort_abortSleep f⟩
  · subst hs'
    have hregs := regsOnly_putAll (pgFlask f.val) pre s
    refine ⟨_, exec_imemLoadGo_of_taken h hpre, ?_, ?_, ?_⟩
    · exact (s.putAll (pgFlask f.val) pre).getF_setF_self fdFlaskImemCtrlGo (pgFlask f.val) 0 1
    · exact congrArg FlaskState.imem (State.flask_setFlask_self _ _ _)
    · exact congrArg (fun t : State => { t with flasks := s.flasks }) hregs
  · have hregs := regsOnly_putAll (pgFlask f.val) ws s
    have hholds : flasksOnly (s.putAll (pgFlask f.val) ws) ((s.putAll (pgFlask f.val) ws).forEach ws fun _ t => t.holdWrite f.val) :=
      State.forEach_keeps (fun _ _ t ht => ht.trans (flasksOnly_holdWrite t f.val)) _ rfl
    refine ⟨_, exec_gateHoldWrite_of_taken h hws, hholds.regs_eq, ?_⟩
    calc _ = { s.putAll (pgFlask f.val) ws with regs := s.regs, flasks := s.flasks } :=
          congrArg (fun t : State => { t with regs := s.regs, flasks := s.flasks }) hholds
      _ = s := congrArg (fun t : State => { t with flasks := s.flasks }) hregs

end Sys2Proof.Machine
end

section
/-! SUPPORT. Rules of IMEM fills, of remaps and of unit power: what an operation for each tile of a flask establishes in every one of
them (R38, R50–R59). -/
namespace Sys2Proof.Machine

/-- What one element's operation establishes and every element's keeps holds after the operations of all. -/
theorem State.forEach_establishes {α : Type} {P : State → Prop} {g : α → State → State} {x : α} (hset : ∀ s, P (g x s))
    (hkeep : ∀ y, ∀ s, P s → P (g y s)) : ∀ (l : List α), x ∈ l → ∀ s : State, P (s.forEach l g) := by
  intro l
  induction l with
  | nil => intro hx; cases hx
  | cons y l ih =>
    intro hx s
    rw [State.forEach_cons]
    obtain rfl | hx := List.mem_cons.mp hx
    · exact State.forEach_keeps (fun y _ => hkeep y) (g x s) (hset s)
    · exact ih hx _

/-! ### Memory -/

theorem memRead_length (m : List Host.Cell) (n : Nat) : ∀ a, (memRead m a n).length = n := by
  induction n with
  | zero => intro a; rfl
  | succ n ih => intro a; simp [memRead, ih]

/-- A write of bytes leaves every range apart from it as it was. -/
theorem memRead_write_out (m : List Host.Cell) (a : Nat) (bs : List Byte) (n : Nat) :
    ∀ b, b + n ≤ a ∨ a + bs.length ≤ b → memRead (memWrite m a bs) b n = memRead m b n := by
  induction n with
  | zero => intro b _; rfl
  | succ n ih =>
    intro b h
    rw [memRead, memRead, memByte_write_out _ _ _ _ (by omega), ih _ (by omega)]

/-! ### IMEM fills (R38) -/

/-- A tile's IMEM holds bytes from its beginning, and the tile is marked with an image. -/
def State.holdsImage (s : State) (k : Nat) (bs : List Byte) (image : Option ImemImage) : Prop :=
  s.bytes (imemAt k) bs.length = bs ∧ (s.core k).image = image

/-- One tile's part of a fill. -/
theorem State.holdsImage_fill_same (s : State) (k : Nat) (bs : List Byte) (image : Option ImemImage) :
    ((s.storeBytes (imemAt k) bs).setCore k { s.core k with image := image }).holdsImage k bs image :=
  ⟨memRead_write _ _ _, congrArg CoreState.image (State.core_setCore_self _ _ _)⟩

theorem State.holdsImage_fill_other {s : State} {j k : Nat} {bs : List Byte} {image : Option ImemImage} (c : CoreState) (hjk : j ≠ k)
    (hlen : bs.length ≤ 0x10000) (h : s.holdsImage k bs image) :
    ((s.storeBytes (imemAt j) bs).setCore j c).holdsImage k bs image := by
  obtain ⟨hbytes, himage⟩ := h
  refine ⟨?_, ?_⟩
  · have hapart : imemAt k + bs.length ≤ imemAt j ∨ imemAt j + bs.length ≤ imemAt k := by
      simp only [imemAt]
      omega
    exact (memRead_write_out _ _ _ _ _ hapart).trans hbytes
  · rw [State.core_setCore_ne _ _ _ hjk]
    exact himage

/-- A fill leaves every named tile with the image: the IMEMs lie apart. -/
theorem State.holdsImage_imemFill (s : State) (f : Nat) {tiles t : Nat} {bs : List Byte} (image : Option ImemImage) (ht : t < 16)
    (hnamed : bitAt tiles t = true) (hlen : bs.length ≤ 0x10000) :
    (s.imemFill f tiles bs image).holdsImage (f * 16 + t) bs image := by
  refine State.forEach_establishes (P := fun u => u.holdsImage (f * 16 + t) bs image) (x := t) (fun u => u.holdsImage_fill_same _ _ _)
    (fun j u hu => ?_) _ (by simp [ht, hnamed]) s
  by_cases hj : j = t
  · subst hj
    exact u.holdsImage_fill_same _ _ _
  · exact State.holdsImage_fill_other _ (by omega) hlen hu

/-- The engine reads a source in the tile stores as it stands. -/
theorem State.imemSource_of_store (s : State) {l : ImemLoad} (h : storeBase ≤ l.src) :
    ∃ good, s.imemSource l = (s, s.bytes l.src l.len, good) := by
  have hsrc : ¬ l.src < storeBase := Nat.not_lt.mpr h
  exact ⟨_, by simp only [State.imemSource, hsrc]; rfl⟩

theorem State.imemDone_of_good {s : State} {f : Nat} {l : ImemLoad} (hl : (s.flask f).imem = some l) (hsrc : storeBase ≤ l.src)
    (hserves : s.serves f = true) (hgood : (s.imemSource l).2.2 = l.len) :
    s.imemDone f = (s.imemFill f l.tiles (s.bytes l.src l.len) (some { src := l.src, len := l.len })).imemStop f := by
  obtain ⟨good, hsource⟩ := s.imemSource_of_store hsrc
  rw [hsource] at hgood
  simp only at hgood
  simp [State.imemDone, hl, hsource, hserves, hgood]

theorem State.imemPoison_of_bad {s : State} {f : Nat} {l : ImemLoad} (hl : (s.flask f).imem = some l) (hsrc : storeBase ≤ l.src)
    (hbad : (s.imemSource l).2.2 < l.len) :
    let u := (s.imemFill f l.tiles ((s.bytes l.src l.len).take (s.imemSource l).2.2) none).imemStop f
    s.imemPoison f = u.controlPoison pgSched (u.flaskOwner f) (l.src + (s.imemSource l).2.2) := by
  obtain ⟨good, hsource⟩ := s.imemSource_of_store hsrc
  rw [hsource] at hbad
  simp only at hbad
  simp [State.imemPoison, hl, hsource, hbad, Nat.not_lt.mpr hsrc]

/-! ### Unit power (R59) -/

/-- The flask of a tile, as its page names it. -/
def tileFlask (t : TileId) : FlaskId := ⟨flaskOf t.val, by have := t.isLt; unfold flaskOf; omega⟩

theorem recordsOnly_setUnit (s : State) (t : Nat) (x : TileUnit) (on : Bool) : recordsOnly s (s.setUnit t x on) := by
  cases x <;> rfl

theorem State.unitOn_setUnit (s : State) (t : Nat) (x : TileUnit) (on : Bool) : (s.setUnit t x on).unitOn t x = on := by
  have hbit : t % 16 < 16 := Nat.mod_lt _ (by decide)
  cases x
  · exact (congrArg (bitAt · (t % 16)) (State.getF_setF_self _ fdFlaskUnitStateMx _ 0 _)).trans (bitAt_putBits_mod _ on hbit)
  · exact (congrArg (bitAt · (t % 16)) (State.getF_setF_self _ fdFlaskUnitStateSv _ 0 _)).trans (bitAt_putBits_mod _ on hbit)

theorem State.unitOn_event (s : State) (page unit : Nat) (cls : Option Nat) (code subject value : Nat) (t : TileId) (x : TileUnit) :
    (s.event page unit cls code subject value).unitOn t.val x = s.unitOn t.val x := by
  cases x
  · exact congrArg (bitAt · (t.val % 16)) (s.getF_event_flask page unit cls code subject value (tileFlask t) (by decide))
  · exact congrArg (bitAt · (t.val % 16)) (s.getF_event_flask page unit cls code subject value (tileFlask t) (by decide))

/-! ### Remaps (R49–R54) -/

theorem State.paused_pauseFlask (s : State) {f k : Nat} (on : Bool) (hk : k < 16) :
    ((s.pauseFlask f on).core (f * 16 + k)).paused = on := by
  refine State.forEach_establishes (P := fun u => (u.core (f * 16 + k)).paused = on) (x := f * 16 + k) (fun u => ?_) (fun j u hu => ?_) _
    (List.mem_map.mpr ⟨k, List.mem_range.mpr hk, rfl⟩) s
  · rw [State.core_setCore_self]
  · by_cases hj : j = f * 16 + k
    · rw [hj, State.core_setCore_self]
    · rwa [State.core_setCore_ne _ _ _ hj]

/-- Nothing but the states of cores differs. -/
def coresOnly (s u : State) : Prop := { u with cores := s.cores } = s

theorem coresOnly.trans {s t u : State} (hst : coresOnly s t) (htu : coresOnly t u) : coresOnly s u := by
  unfold coresOnly at *
  rw [← hst, ← htu]

theorem coresOnly_setCore (s : State) (c : Nat) (k : CoreState) : coresOnly s (s.setCore c k) := rfl

theorem coresOnly_pauseFlask (s : State) (f : Nat) (on : Bool) : coresOnly s (s.pauseFlask f on) :=
  State.forEach_keeps (P := coresOnly s) (fun _ _ _ hu => hu.trans (coresOnly_setCore _ _ _)) s rfl

section
variable {s u : State} (h : coresOnly s u)
include h

theorem coresOnly.flask_eq (f : Nat) : u.flask f = s.flask f := by rw [← h]; rfl

theorem coresOnly.relPending_eq : u.relPending = s.relPending := by rw [← h]

theorem coresOnly.err_eq : u.err = s.err := by rw [← h]

theorem coresOnly.getF_eq (d : FieldDesc) (p i : Nat) : u.getF d p i = s.getF d p i := by rw [← h]; rfl

end

/-- With no comparator's action pending, a flask has none to catch up with (R362). -/
theorem State.relCatchUp_of_none {s : State} (f : Nat) (h : s.relPending = []) : s.relCatchUp f = s := by
  rw [State.relCatchUp, h]
  exact congrArg (fun l => { s with relPending := l }) h.symm

/-- A mesh port that holds nothing serves nothing. -/
theorem State.releaseMesh_of_none {s : State} {f : Nat} (h : (s.flask f).held = []) : s.releaseMesh f = s.setFlask f (s.flask f) := by
  have hsame : { s.flask f with held := [] } = s.flask f := by rw [← h]
  simp [State.releaseMesh, h, hsame]

theorem State.raiseSpare_frame (s : State) (v : Nat) : ∃ r d, s.raiseSpare v = { s with regs := r, urgentDue := d } := by
  unfold State.raiseSpare
  split
  · exact ⟨_, _, rfl⟩
  · exact ⟨_, _, rfl⟩

/-- ERRAGG's page is no flask's. -/
theorem State.getF_setF_erragg (s : State) {d e : FieldDesc} {j : Nat} (i v : Nat) (f : FlaskId) (hd : d.off + d.stride * i < 4096 ∧ d.lsb < 64)
    (he : unrecorded e j = true) : (s.setF d pgErragg i v).getF e (pgFlask f.val) j = s.getF e (pgFlask f.val) j := by
  simp only [unrecorded, Bool.and_eq_true, decide_eq_true_eq] at he
  obtain ⟨⟨hoff, hlsb⟩, -⟩ := he
  have hpage : pgErragg ≠ pgFlask f.val := by have := f.isLt; simp only [pgErragg, pgFlask]; omega
  exact State.getF_setF_ne _ _ _ _ _ _ _ _ (descKey_page_ne hpage hd.1 hd.2 hoff hlsb)

theorem State.getF_raiseSpare_flask (s : State) {e : FieldDesc} {j : Nat} (v : Nat) (f : FlaskId) (he : unrecorded e j = true) :
    (s.raiseSpare v).getF e (pgFlask f.val) j = s.getF e (pgFlask f.val) j := by
  unfold State.raiseSpare
  split
  · exact s.getF_setF_erragg 0 v f (by decide) he
  · rfl

theorem State.flaskOwner_of_ctxs {s u : State} (f : Nat) (h : u.ctxs = s.ctxs) : u.flaskOwner f = s.flaskOwner f := by
  simp only [State.flaskOwner, State.ctx, h]

/-- The mark of a repair in progress (R454). -/
def State.setRepairing (s : State) (on : Bool) : State := { s with err := { s.err with repairing := on } }

@[simp] theorem State.flask_setRepairing (s : State) (on : Bool) (z : Nat) : (s.setRepairing on).flask z = s.flask z := rfl

@[simp] theorem State.core_setRepairing (s : State) (on : Bool) (z : Nat) : (s.setRepairing on).core z = s.core z := rfl

@[simp] theorem State.getF_setRepairing (s : State) (on : Bool) (d : FieldDesc) (p i : Nat) :
    (s.setRepairing on).getF d p i = s.getF d p i := rfl

/-- The state of the flask and its cores while a remap moves tile t (R51, R52), before the repair is noted. -/
def State.remapPaused (s : State) (f t : Nat) : State :=
  let w := s.pauseFlask f true
  let v := w.setTile (f * 16 + t)
    { w.tile (f * 16 + t) with mxq := (w.tile (f * 16 + t)).mxq.map fun q => { q with running := false } }
  v.setFlask f { v.flask f with moving := some t, since := v.now }

theorem State.flask_remapPaused (s : State) (f t : Nat) : ((s.remapPaused f t).flask f).moving = some t := by
  rw [State.remapPaused, State.flask_setFlask_self]

theorem State.core_remapPaused (s : State) (f t z : Nat) : (s.remapPaused f t).core z = (s.pauseFlask f true).core z := by
  rw [State.remapPaused, State.core_setFlask, State.core_setTile]

theorem State.remapStart_of_allowed {s : State} {f : Nat} (t : Nat) (hmoving : s.anyMoving = false)
    (huse : s.getF fdFlaskSpareInUse (pgFlask f) ≠ 1) (hfence : s.getF fdFlaskSpareFenced (pgFlask f) ≠ 1)
    (hawake : s.pstate f = psAwake) :
    s.remapStart f t = ((s.remapPaused f t).setRepairing true).trace 109 0xFF (f * 16 + t) 0 := by
  have hgo : ¬ ((s.anyMoving || s.getF fdFlaskSpareInUse (pgFlask f) = 1 || s.getF fdFlaskSpareFenced (pgFlask f) = 1 ||
      s.pstate f ≠ psAwake) = true) := by
    simp [hmoving, huse, hfence, hawake]
  exact if_neg hgo

/-- A remap that nothing rules out stops the flask's cores while the tile moves (R51, R454). -/
theorem State.remapStart_spec {s : State} {f : Nat} (t : Nat) (hmoving : s.anyMoving = false)
    (huse : s.getF fdFlaskSpareInUse (pgFlask f) ≠ 1) (hfence : s.getF fdFlaskSpareFenced (pgFlask f) ≠ 1)
    (hawake : s.pstate f = psAwake) :
    ((s.remapStart f t).flask f).moving = some t ∧ (∀ k, k < 16 → ((s.remapStart f t).core (f * 16 + k)).paused = true) ∧
      (s.remapStart f t).err.repairing = true := by
  rw [State.remapStart_of_allowed t hmoving huse hfence hawake, State.flask_trace, State.trace_err, State.flask_setRepairing]
  refine ⟨s.flask_remapPaused f t, fun k hk => ?_, rfl⟩
  rw [State.core_trace, State.core_setRepairing, State.core_remapPaused]
  exact s.paused_pauseFlask true hk

/-- The state in which a remap has switched the map and the spare's use is shown, before it is reported (R53). -/
def State.remapMapped (s : State) (f : Nat) : State :=
  let map := (s.setF fdFlaskSpareInUse (pgFlask f) 0 1).addF fdFlaskSpareRemaps (pgFlask f) 0 1
  let moved := map.setFlask f { map.flask f with moving := none, since := 0 }
  (moved.setRepairing false).addF fdErraggSpareFlasksUsed pgErragg 0 1

/-- The state in which a remap of tile t is reported, before the flask's owner is told and its cores resume (R54). -/
def State.remapSwitched (s : State) (f t : Nat) : State :=
  (((s.remapMapped f).raiseSpare 1).trace 110 0xFF (f * 16 + t) 0).event (pgFlask f) 0 (some 6) 0x0104 t
    ((s.now - (s.flask f).since) / 2000)

/-- Reports of a remap change registers and records only. -/
theorem State.remapSwitched_frame (s : State) (f t : Nat) :
    (s.remapSwitched f t).flasks = (s.remapMapped f).flasks ∧ (s.remapSwitched f t).err = (s.remapMapped f).err ∧
      (s.remapSwitched f t).relPending = s.relPending ∧ (s.remapSwitched f t).ctxs = s.ctxs := by
  obtain ⟨r, d, hspare⟩ := (s.remapMapped f).raiseSpare_frame 1
  simp only [State.remapSwitched, State.event_flasks, State.event_err, State.event_relPending, State.event_ctxs, State.trace_flasks,
    State.trace_err, State.trace_relPending, State.trace_ctxs, hspare, true_and]
  exact ⟨rfl, rfl⟩

theorem State.flask_remapSwitched (s : State) (f t : Nat) :
    (s.remapSwitched f t).flask f = { s.flask f with moving := none, since := 0 } := by
  obtain ⟨hflasks, -⟩ := s.remapSwitched_frame f t
  rw [State.flask, hflasks]
  exact mapGet_put_self _ _ _ _

theorem State.getF_spareInUse_remapSwitched (s : State) (f : FlaskId) (t : Nat) :
    (s.remapSwitched f.val t).getF fdFlaskSpareInUse (pgFlask f.val) = 1 := by
  rw [State.remapSwitched, State.getF_event_flask _ _ _ _ _ _ _ _ (by decide), State.getF_trace_flask _ _ _ _ _ _ (by decide),
    State.getF_raiseSpare_flask _ _ _ (by decide), State.remapMapped, State.addF,
    State.getF_setF_erragg _ _ _ _ (by decide) (by decide), State.getF_setRepairing, State.getF_setFlask,
    State.getF_addF_place _ _ _ (by decide), State.getF_setF_self]
  rfl

theorem State.remapEnd_of_unowned {s : State} {f : FlaskId} {t : Nat} (hmoving : (s.flask f.val).moving = some t)
    (howner : s.flaskOwner f.val = none) :
    s.remapEnd f.val = (((s.remapSwitched f.val t).pauseFlask f.val false).relCatchUp f.val).releaseMesh f.val := by
  obtain ⟨-, -, -, hctxs⟩ := s.remapSwitched_frame f.val t
  have hnone : (s.remapSwitched f.val t).flaskOwner f.val = none := (State.flaskOwner_of_ctxs _ hctxs).trans howner
  unfold State.remapEnd
  rw [hmoving]
  change (((match (s.remapSwitched f.val t).flaskOwner f.val with
    | some c => (s.remapSwitched f.val t).reproChange c
    | none => s.remapSwitched f.val t).pauseFlask f.val false).relCatchUp f.val).releaseMesh f.val = _
  rw [hnone]

end Sys2Proof.Machine
end

section
/-! PROOFS. IMEM loads and the events of flasks (spec/02_tiles_and_flasks.md). -/
namespace Sys2Proof.Machine

/-! ### Events of a flask (R51–R59) -/

/-- A flask that a wake ends on is AWAKE with its held units powered, where nothing waits for it (R57, R59). -/
theorem State.wakeDone_spec {s : State} {f : FlaskId} (hwaking : s.pstate f.val = psWaking) (hheld : (s.flask f.val).held = [])
    (hrel : s.relPending = []) :
    (s.wakeDone f.val).pstate f.val = psAwake ∧
      (s.wakeDone f.val).getF fdFlaskUnitStateMx (pgFlask f.val) = s.getF fdFlaskGateHoldMx (pgFlask f.val) % 2 ^ 16 ∧
      (s.wakeDone f.val).getF fdFlaskUnitStateSv (pgFlask f.val) = s.getF fdFlaskGateHoldSv (pgFlask f.val) % 2 ^ 16 := by
  have hwake : s.wakeDone f.val = ((s.setPstate f.val psAwake).holdUnitsOn f.val).setFlask f.val (s.flask f.val) := by
    have hflask : ((s.setPstate f.val psAwake).holdUnitsOn f.val).flask f.val = s.flask f.val := s.flask_setPstate _ _ _
    have hpending : ((s.setPstate f.val psAwake).holdUnitsOn f.val).relPending = [] := (s.relPending_setPstate _ _).trans hrel
    rw [State.wakeDone, if_pos hwaking, State.relCatchUp_of_none _ hpending, State.releaseMesh_of_none (hflask ▸ hheld), hflask]
  rw [hwake, State.pstate_setFlask, State.getF_setFlask, State.getF_setFlask, State.holdUnitsOn]
  refine ⟨?_, ?_, ?_⟩
  · rw [State.pstate, State.getF_setF_place _ _ _ (by decide), State.getF_setF_place _ _ _ (by decide)]
    exact s.pstate_setPstate f _
  · rw [State.getF_setF_place _ _ _ (by decide), State.getF_setF_self, s.getF_setPstate f _ (by decide) (by decide)]
    rfl
  · rw [State.getF_setF_self, s.getF_setPstate f _ (by decide) (by decide)]
    rfl

theorem State.gateUnit_of_idle {s : State} {t : Nat} {x : TileUnit} (hserves : s.serves (flaskOf t) = true) (hon : s.unitOn t x = true)
    (hhold : s.unitHeld t x = false) (hidle : s.unitIdle t x = true)
    (hcycles : s.getF fdFlaskGateIdleCycles (pgFlask (flaskOf t)) ≠ 0) :
    s.gateUnit t x = (s.setUnit t x false).event (pgFlask (flaskOf t)) (1 + t % 16) (some 3) 0x0007 (unitBit t x) 0 := by
  simp [State.gateUnit, hserves, hon, hhold, hidle, hcycles]

theorem State.unitOn_unitWoken {s : State} {t : TileId} {x : TileUnit}
    (hwaking : bitAt (s.flask (flaskOf t.val)).waking (unitBit t.val x) = true) (hserves : s.serves (flaskOf t.val) = true) :
    (s.unitWoken t.val x).unitOn t.val x = true := by
  unfold State.unitWoken
  dsimp only
  rw [if_pos (by rw [hwaking, hserves]; rfl), State.unitOn_event, State.unitOn_setUnit]

/-- A remap of a flask that no context holds ends with its cores running and the spare in use, where nothing waits for it (R54). -/
theorem State.remapEnd_spec {s : State} {f : FlaskId} {t : Nat} (hmoving : (s.flask f.val).moving = some t)
    (hheld : (s.flask f.val).held = []) (hrel : s.relPending = []) (howner : s.flaskOwner f.val = none) :
    ((s.remapEnd f.val).flask f.val).moving = none ∧ (∀ k, k < 16 → ((s.remapEnd f.val).core (f.val * 16 + k)).paused = false) ∧
      (s.remapEnd f.val).err.repairing = false ∧ (s.remapEnd f.val).getF fdFlaskSpareInUse (pgFlask f.val) = 1 := by
  obtain ⟨-, herr, hpending, -⟩ := s.remapSwitched_frame f.val t
  have hresume := coresOnly_pauseFlask (s.remapSwitched f.val t) f.val false
  have hflask := (hresume.flask_eq f.val).trans (s.flask_remapSwitched f.val t)
  have hnone : (((s.remapSwitched f.val t).pauseFlask f.val false).flask f.val).held = [] := by rw [hflask]; exact hheld
  rw [State.remapEnd_of_unowned hmoving howner, State.relCatchUp_of_none _ (hresume.relPending_eq.trans (hpending.trans hrel)),
    State.releaseMesh_of_none hnone, State.flask_setFlask_self, hflask]
  refine ⟨rfl, fun k hk => ?_, ?_, ?_⟩
  · rw [State.core_setFlask]
    exact State.paused_pauseFlask _ false hk
  · rw [State.setFlask_err, hresume.err_eq, herr]
    rfl
  · rw [State.getF_setFlask, hresume.getF_eq]
    exact s.getF_spareInUse_remapSwitched f t

/-- Settles O14: an event changes the flask's state, its units or its cores as its rule says, through records that touch nothing else. -/
theorem flaskEvents : Obligations.FlaskEvents := by
  unfold Obligations.FlaskEvents
  intro f s
  refine ⟨fun hentering => ?_, fun hasleep => ?_, fun hwaking hheld hrel => ?_, fun t x hserves hon hhold hidle hcycles => ?_,
    fun t x hwaking hserves => ?_, fun t w => rfl, fun t hmoving huse hfence hawake => ?_, fun t hmoving hheld hrel howner => ?_⟩
  · have hdone : s.sleepDone f.val = s.setPstate f.val psAsleep := if_pos hentering
    exact ⟨s.setPstate f.val psAsleep, by rw [← hdone]; rfl, s.pstate_setPstate f _, recordsOnly_setPstate s _ _⟩
  · have harrive : s.arrive f.val = s.startWake f.val true := by simp [State.arrive, hasleep, psAsleep, psEntering]
    exact ⟨s.startWake f.val true, by rw [← harrive]; rfl, s.pstate_startWake f true hasleep, recordsOnly_startWake s _ _,
      s.getF_counter_startWake f true hasleep⟩
  · exact ⟨s.wakeDone f.val, rfl, State.wakeDone_spec hwaking hheld hrel⟩
  · refine ⟨_, congrArg Host.Outcome.next (State.gateUnit_of_idle hserves hon hhold hidle hcycles), ?_, ?_⟩
    · rw [State.unitOn_event, State.unitOn_setUnit]
    · exact (recordsOnly_setUnit s _ _ _).trans (recordsOnly_event _ _ _ _ _ _ _)
  · exact ⟨s.unitWoken t.val x, rfl, State.unitOn_unitWoken hwaking hserves⟩
  · exact ⟨s.remapStart f.val t.val, rfl, State.remapStart_spec t.val hmoving huse hfence hawake⟩
  · exact ⟨s.remapEnd f.val, rfl, State.remapEnd_spec hmoving hheld hrel howner⟩

/-! ### IMEM loads (R38) -/

theorem exec_imemLoadDone_of_good {s : State} {f : FlaskId} {l : ImemLoad} (hl : (s.flask f.val).imem = some l)
    (hsrc : storeBase ≤ l.src) (hserves : s.serves f.val = true) (hgood : (s.imemSource l).2.2 = l.len) :
    exec (.imemLoadDone f) s =
      .next ((s.imemFill f.val l.tiles (s.bytes l.src l.len) (some { src := l.src, len := l.len })).imemStop f.val).finish := by
  rw [← State.imemDone_of_good hl hsrc hserves hgood]
  rfl

/-- Settles O15: a good source fills every named tile, and a poisoned word ends the load with the words before it. -/
theorem imemLoads : Obligations.ImemLoads := by
  unfold Obligations.ImemLoads
  intro f s l hl hsrc hlen
  refine ⟨fun hserves hgood => ?_, fun hbad => ?_⟩
  · have hcount : (s.bytes l.src l.len).length = l.len := memRead_length _ _ _
    refine ⟨_, exec_imemLoadDone_of_good hl hsrc hserves hgood, fun t ht hnamed => ?_, ?_, ?_⟩
    · obtain ⟨hbytes, himage⟩ := s.holdsImage_imemFill f.val (some { src := l.src, len := l.len }) ht hnamed (hcount.trans_le hlen)
      rw [hcount] at hbytes
      exact ⟨hbytes, himage⟩
    · exact State.getF_setF_self _ fdFlaskImemCtrlGo (pgFlask f.val) 0 0
    · exact congrArg FlaskState.imem (State.flask_setFlask_self _ _ _)
  · have hpoison := State.imemPoison_of_bad hl hsrc hbad
    simp only at hpoison
    rw [← hpoison]
    rfl

end Sys2Proof.Machine
end

section
/-! SUPPORT. Rules of core operations (R33–R43, log entries 3, 32, 84): what an operation issued at once answers, where the SELF window
leads, what an access of a pilot core to its own store does, and what CSR writes, exits and interrupts change. -/
namespace Sys2Proof.Machine

/-! ### Issue -/

/-- A core that nothing holds carries its operation out at once. -/
theorem State.issue'_of_ready {s u : State} {c : Nat} {op : CoreOp} (h : s.ready c) (hrun : s.runCore c op = some u) :
    s.issue' c op = u.finish := by
  obtain ⟨hfree, hstalled⟩ := h
  simp [State.issue', State.issueOp, hfree, hstalled, hrun]

/-! ### The SELF window (R43) -/

theorem toNat_selfAddr {off : Nat} (h : off < storeSize) : (selfAddr off).toNat = selfBase + off := by
  simp only [storeSize] at h
  simp only [selfAddr, selfBase, BitVec.toNat_ofNat]
  omega

theorem State.target_self (s : State) {t off : Nat} (ht : t < 4096) (h : off < storeSize) :
    s.target t (selfBase + off) = .store t off := by
  have hlow : bits (selfBase + off) 59 57 = 0 ∧ (selfBase + off) / 2 ^ 60 = 0 := by
    simp only [storeSize] at h
    simp only [bits, selfBase]
    omega
  have hplace : s.place (some t) (selfBase + off) = .store t off := by
    have hbelow : ¬ selfBase + off < storeBase ∧ ¬ selfBase + off < selfBase := by simp only [selfBase, storeBase]; omega
    simp [State.place, hbelow, h]
  have hbus : s.busTarget t (selfBase + off) = .store t off := by
    obtain ⟨hpad, hclass⟩ := hlow
    unfold State.busTarget
    dsimp only
    rw [if_neg (not_not.mpr hpad), if_pos hclass, if_pos ht, hplace]
    rfl
  simp [State.target, hbus, Nat.not_le.mpr ht]

/-- The window begins at a multiple of every access size. -/
theorem selfBase_add_mod {off size : Nat} (hsize : size = 1 ∨ size = 2 ∨ size = 4 ∨ size = 8) (h : off % size = 0) :
    (selfBase + off) % size = 0 := by
  simp only [selfBase]
  obtain rfl | rfl | rfl | rfl := hsize <;> omega

/-! ### Integer registers (R33) -/

theorem xregWrite_setX {s w : State} (c v : Nat) (rd : Reg) (h : w.xregs = s.xregs) : xregWrite s (w.setX c rd.val v) c rd.val v := by
  have hsame : ∀ z y, w.xreg z y = s.xreg z y := fun z y => by simp only [State.xreg, h]
  refine ⟨fun hrd => State.xreg_setX_self _ _ _ _ hrd, fun z y hy hother => ?_⟩
  have hrd := rd.isLt
  by_cases hzero : rd.val = 0
  · simp [State.setX, hzero, hsame]
  · rw [State.xreg_setX_ne _ _ _ _ (by omega), hsame]

theorem State.xregsOnly_setX (s : State) (c r v : Nat) : { s.setX c r v with xregs := s.xregs } = s := by
  unfold State.setX
  split
  · rfl
  · rfl

/-! ### What watches a write (R36, R167, R169, R204) -/

theorem coresOnly_breakReservations (s : State) (a len : Nat) : coresOnly s (s.breakReservations a len) :=
  State.forEach_keeps (P := coresOnly s) (fun _ _ _ hu => hu.trans (coresOnly_setCore _ _ _)) s rfl

/-- With no watch range armed, a write's watchers change cores, counts of scheduler events and linkage queues only. -/
theorem State.watchWrite_frame {s : State} (h : s.unwatched) (a len : Nat) :
    { s.watchWrite a len with cores := s.cores, schedEvents := s.schedEvents, lsa := s.lsa } = s := by
  have hcores := coresOnly_breakReservations (s.schedPosts a len) a len
  rw [State.watchWrite, show s.armedRanges = [] from h, State.forEach_nil]
  exact congrArg (fun t : State => { t with schedEvents := s.schedEvents, lsa := s.lsa }) hcores

/-- A watched write leaves the bytes written in memory, and no register changed. -/
theorem State.storeBytes_watchWrite {s : State} (h : s.unwatched) (p : Nat) (bs : List Byte) (len : Nat) :
    ((s.storeBytes p bs).watchWrite p len).mem = memWrite s.mem p bs ∧ ((s.storeBytes p bs).watchWrite p len).regs = s.regs ∧
      ((s.storeBytes p bs).watchWrite p len).xregs = s.xregs ∧ ((s.storeBytes p bs).watchWrite p len).csrs = s.csrs := by
  have hframe := State.watchWrite_frame (s := s.storeBytes p bs) h p len
  exact ⟨(congrArg State.mem hframe :), (congrArg State.regs hframe :), (congrArg State.xregs hframe :), (congrArg State.csrs hframe :)⟩

/-! ### A pilot core's own store -/

theorem State.arrive_of_serves {s : State} {f : Nat} (h : s.serves f = true) : s.arrive f = s := by
  have hawake : s.pstate f = psAwake := of_decide_eq_true h
  simp [State.arrive, hawake, psAwake, psEntering, psAsleep]

section
variable {s : State} {t off size : Nat} {write : Bool}

/-- An access that reaches the core's own store is served. -/
theorem State.coreStore_own (h : s.ownReach t off size write) (a : Nat) (op : CoreOp) (blocks : Bool) (g : State → State) :
    s.coreStore t t off size a op (!write) blocks g = some (g s) := by
  obtain ⟨-, -, -, hserves, hmoving, hclear, hdeque⟩ := h
  simp [State.coreStore, hclear, State.arrive_of_serves hserves, hserves, hmoving, hdeque]

theorem State.ownReach.ready (h : s.ownReach t off size write) : s.ready t := by
  obtain ⟨hready, -⟩ := h
  exact hready

theorem State.ownReach.lt (h : s.ownReach t off size write) (hsize : size = 1 ∨ size = 2 ∨ size = 4 ∨ size = 8) : off < storeSize := by
  obtain ⟨-, -, hfit, -⟩ := h
  omega

variable (ht : t < 4096) (hsize : size = 1 ∨ size = 2 ∨ size = 4 ∨ size = 8)
include ht hsize

theorem State.runLoad_own (h : s.ownReach t off size false) (hgood : s.wordsPoisoned (storeAt t + off) size = false) (sgn : Bool) (rd : Nat)
    (op : CoreOp) :
    s.runLoad t (selfBase + off) size sgn rd op = some ((s.block t .none).setX t rd
      (if sgn then wrapTo 64 (signedOf (8 * size) (s.loadNat (storeAt t + off) size)) else s.loadNat (storeAt t + off) size)) := by
  obtain ⟨-, halign, -⟩ := id h
  rw [State.runLoad, if_neg (by simp [selfBase_add_mod hsize halign]), State.target_self s ht (h.lt hsize)]
  refine (State.coreStore_own h _ _ _ _).trans ?_
  rw [State.loadReg, hgood]
  rfl

theorem State.runStore_own (h : s.ownReach t off size true) (v : Nat) (op : CoreOp) :
    s.runStore t (selfBase + off) size v op =
      some ((s.storeBytes (storeAt t + off) (leBytes size v)).watchWrite (storeAt t + off) size) := by
  obtain ⟨-, halign, -⟩ := id h
  rw [State.runStore, if_neg (by simp [selfBase_add_mod hsize halign]), State.target_self s ht (h.lt hsize)]
  exact State.coreStore_own h _ _ _ _

end

/-- AMO, LR and SC access 4 or 8 bytes. -/
theorem accessSize_of_wide {size : Nat} {wide : Bool} (h : size = if wide then 8 else 4) :
    size = 1 ∨ size = 2 ∨ size = 4 ∨ size = 8 := by
  cases wide
  · exact .inr (.inr (.inl h))
  · exact .inr (.inr (.inr h))

/-- A core's reservation replaced (R36). -/
def State.reserve (s : State) (c : Nat) (r : Option Nat) : State := s.setCore c { s.core c with reservation := r }

theorem State.reservation_reserve (s : State) (c : Nat) (r : Option Nat) : ((s.reserve c r).core c).reservation = r := by
  rw [State.reserve, State.core_setCore_self]

/-- A reservation is in no access's way. -/
theorem State.ownReach_reserve {s : State} {t off size : Nat} {write : Bool} (r : Option Nat) (h : s.ownReach t off size write) :
    (s.reserve t r).ownReach t off size write := by
  obtain ⟨⟨hfree, hstalled⟩, hrest⟩ := h
  refine ⟨⟨?_, ?_⟩, hrest⟩
  · rw [State.reserve, State.core_setCore_self]
    exact hfree
  · rw [State.reserve, State.core_setCore_self]
    exact hstalled

/-- A pilot core reserves a place of its own store by its address. -/
theorem State.lrKey_own (s : State) {t : Nat} (ht : t < 4096) (off : Nat) : s.lrKey t (.store t off) = some (storeAt t + off) := by
  simp [State.lrKey, ht]

section
variable {s : State} {t off size : Nat} {wide : Bool} (ht : t < 4096) (hwide : size = if wide then 8 else 4)
include ht hwide

theorem State.runAmo_own (h : s.ownReach t off size true) (hgood : s.wordsPoisoned (storeAt t + off) size = false) (o : AmoOp) (v rd : Nat)
    (op : CoreOp) :
    s.runAmo t (selfBase + off) o wide v rd op =
      some ((((s.storeBytes (storeAt t + off) (leBytes size (atomLane (amoCode o wide).1 (amoCode o wide).2
        (s.loadNat (storeAt t + off) size) (v % 2 ^ (8 * size)) 0).1)).watchWrite (storeAt t + off) size).block t .none).setX t rd
          (wrapTo 64 (signedOf (8 * size) (s.loadNat (storeAt t + off) size)))) := by
  obtain ⟨-, halign, -⟩ := id h
  have hsize := accessSize_of_wide hwide
  unfold State.runAmo
  dsimp only
  rw [← hwide, if_neg (by simp [selfBase_add_mod hsize halign]), State.target_self s ht (h.lt hsize)]
  refine (State.coreStore_own h _ _ _ _).trans ?_
  rw [hgood]
  rfl

theorem State.runLr_own (h : s.ownReach t off size false) (hgood : s.wordsPoisoned (storeAt t + off) size = false) (rd : Nat)
    (op : CoreOp) :
    s.runLr t (selfBase + off) wide rd op =
      some (((s.reserve t (some (storeAt t + off))).block t .none).setX t rd
        (wrapTo 64 (signedOf (8 * size) (s.loadNat (storeAt t + off) size)))) := by
  obtain ⟨-, halign, -⟩ := id h
  have hsize := accessSize_of_wide hwide
  unfold State.runLr
  dsimp only
  rw [← hwide, if_neg (by simp [selfBase_add_mod hsize halign]), State.target_self s ht (h.lt hsize)]
  dsimp only
  rw [s.lrKey_own ht]
  exact State.runLoad_own ht hsize (State.ownReach_reserve (some (storeAt t + off)) h) hgood true rd op

/-- An SC without the reservation stores nothing. -/
theorem State.runSc_own_lost (h : s.ownReach t off size true) (hlost : (s.core t).reservation ≠ some (storeAt t + off)) (v rd : Nat)
    (op : CoreOp) : s.runSc t (selfBase + off) wide v rd op = some ((s.reserve t none).setX t rd 1) := by
  obtain ⟨-, halign, -⟩ := id h
  have hsize := accessSize_of_wide hwide
  unfold State.runSc
  dsimp only
  rw [← hwide, if_neg (by simp [selfBase_add_mod hsize halign]), State.target_self s ht (h.lt hsize)]
  dsimp only
  rw [s.lrKey_own ht]
  exact if_pos (by simp [hlost])

theorem State.runSc_own_held (h : s.ownReach t off size true) (hheld : (s.core t).reservation = some (storeAt t + off)) (v rd : Nat)
    (op : CoreOp) :
    s.runSc t (selfBase + off) wide v rd op =
      some (((((s.reserve t none).storeBytes (storeAt t + off) (leBytes size v)).watchWrite (storeAt t + off) size).block t
        .none).setX t rd 0) := by
  obtain ⟨-, halign, -⟩ := id h
  have hsize := accessSize_of_wide hwide
  unfold State.runSc
  dsimp only
  rw [← hwide, if_neg (by simp [selfBase_add_mod hsize halign]), State.target_self s ht (h.lt hsize)]
  dsimp only
  rw [s.lrKey_own ht]
  refine (if_neg (by simp [hheld])).trans ?_
  exact State.coreStore_own h _ _ _ _

end

/-! ### CSR writes (R100, R177) -/

/-- No CSR of the custom groups asks for machine mode. -/
theorem csrPrivileged_of_custom {n : Nat} (h : csrCustom n = true) (user : Bool) : csrPrivileged n user = false := by
  have hmode : bits n 9 8 ≠ 3 := by
    simp only [csrCustom, Bool.or_eq_true, Bool.and_eq_true, decide_eq_true_eq] at h
    simp only [bits]
    omega
  simp [csrPrivileged, hmode]

/-- A standard CSR that no rule of its own narrows takes the value. -/
theorem State.runCsr_of_standard {s : State} {c n : Nat} (v : Nat) (habsent : csrAbsent c n = false)
    (hmode : csrPrivileged n (s.core c).user = false) (hcustom : csrCustom n = false)
    (hplain : n ∉ [0x001, 0x002, 0x003, 0x008, 0x009, 0x00A, 0x00F]) : s.runCsr c n v = s.setCsr c n v := by
  have hlimit : n ≠ 0x860 := by
    rintro rfl
    exact absurd hcustom (by decide)
  simp only [List.mem_cons, List.not_mem_nil, or_false, not_or] at hplain
  unfold State.runCsr
  rw [habsent, hmode, hcustom, if_neg (by simp), if_neg (by simp)]
  split <;> simp_all

/-- What a write of a tile CSR does to one of its fields: it takes its bits, and a write-1-to-clear field loses the bits written 1. -/
def State.putCsrField (s : State) (t n v : Nat) (f : CsrField) : State :=
  s.setCsr t n (putBits (s.csr t n) (f.lsb + f.width - 1) f.lsb (if f.w1c then s.csrBits t n (f.lsb + f.width - 1) f.lsb -
    (s.csrBits t n (f.lsb + f.width - 1) f.lsb &&& bits v (f.lsb + f.width - 1) f.lsb) else bits v (f.lsb + f.width - 1) f.lsb))

theorem State.tileCsr_of_ok {s : State} {t n v : Nat} {fs : List CsrField} (hfs : fs = csrFields.filter fun f => f.csr = n)
    (hok : ∀ f ∈ fs, f.ok (bits v (f.lsb + f.width - 1) f.lsb) = true)
    (hdeque : ¬(n = 0x861 ∧ v % 2 = 0 ∧ s.dqEn t = true ∧ s.dqCount t ≠ 0)) :
    s.tileCsr t n v = fs.foldl (fun s f => s.putCsrField t n v f) s := by
  subst hfs
  unfold State.tileCsr
  dsimp only
  rw [if_neg, if_neg]
  · rfl
  · simpa only [Bool.and_eq_true, decide_eq_true_eq, and_assoc] using hdeque
  · simpa using hok

theorem State.runCsr_of_tile {s : State} {t n : Nat} (v : Nat) (ht : t < 4096) (habsent : csrAbsent t n = false)
    (hcustom : csrCustom n = true) (hlisted : (csrFields.filter fun f => f.csr = n) ≠ []) : s.runCsr t n v = s.tileCsr t n v := by
  have hlist : csrListed n = true := by
    obtain ⟨f, hf⟩ := List.exists_mem_of_ne_nil _ hlisted
    obtain ⟨hmem, hcsr⟩ := List.mem_filter.mp hf
    simp only [csrListed, Bool.or_eq_true]
    exact .inl (.inl (List.any_eq_true.mpr ⟨f, hmem, hcsr⟩))
  unfold State.runCsr
  rw [habsent, csrPrivileged_of_custom hcustom, hcustom, hlist, if_neg (by simp), if_pos (by simpa using ht)]

/-! ### Fences and exits (R188, R231) -/

theorem State.lateFault_of_none {s : State} {c : Nat} (h : mapGet 0 s.ecrok.lateFaults c = 0) : s.lateFault c = none := by
  simp [State.lateFault, h]

@[simp] theorem State.core_failNode (s : State) (c n z : Nat) : (s.failNode c n).core z = s.core z := by
  unfold State.failNode
  dsimp only
  split <;> rfl

@[simp] theorem State.failNode_xregs (s : State) (c n : Nat) : (s.failNode c n).xregs = s.xregs := by
  unfold State.failNode
  dsimp only
  split <;> rfl

@[simp] theorem State.core_withRun (s : State) (c : Nat) (g : StepRun → StepRun) (z : Nat) : (s.withRun c g).core z = s.core z := rfl

@[simp] theorem State.withRun_xregs (s : State) (c : Nat) (g : StepRun → StepRun) : (s.withRun c g).xregs = s.xregs := rfl

/-- A bound kernel's exit is its environment call, after which its core runs no kernel. -/
theorem State.kernelExit_spec {s : State} {t : Nat} (a0 : Nat) (hrunning : (s.core t).running = true) (huser : (s.core t).user = true) :
    ((s.kernelExit t a0).core t).running = false ∧ ((s.kernelExit t a0).core t).user = false ∧
      ((s.kernelExit t a0).core t).trap = some ⟨8, 0⟩ ∧ (s.kernelExit t a0).xregs = s.xregs := by
  unfold State.kernelExit
  dsimp only
  rw [if_neg (by simp [hrunning, huser])]
  split <;> simp [State.trap]

/-! ### Interrupts (R179) -/

theorem State.interruptCore_of_ready {s : State} {c : Nat} (cause : Nat) (h : s.ready c) :
    s.interruptCore c cause = s.setCore c { s.core c with interrupt := some cause } := by
  obtain ⟨hfree, hstalled⟩ := h
  simp only [CoreState.free, Bool.and_eq_true, decide_eq_true_eq, Bool.not_eq_true'] at hfree
  obtain ⟨hblocked, hpaused⟩ := hfree
  simp [State.interruptCore, hpaused, hblocked, CoreState.vectorWaits, hstalled, State.takeInterrupt]

theorem State.interruptCore_of_paused {s : State} {c : Nat} (cause : Nat) (h : (s.core c).paused = true) :
    s.interruptCore c cause = s.setCore c { s.core c with heldInterrupts := (s.core c).heldInterrupts ++ [cause] } :=
  if_pos h

end Sys2Proof.Machine
end

section
/-! PROOFS. Accesses of pilot cores to their own stores, and the commands of cores (spec/02_tiles_and_flasks.md). -/
namespace Sys2Proof.Machine

/-! ### Accesses to a core's own store (R34, R36, R43) -/

section
variable {s : State} {t : TileId} {off size : Nat}

theorem exec_coreLoad_own (hsize : size = 1 ∨ size = 2 ∨ size = 4 ∨ size = 8) (h : s.ownReach t.val off size false)
    (hgood : s.wordsPoisoned (storeAt t.val + off) size = false) (sgn : Bool) (rd : Reg) :
    exec (.coreLoad (.tile t) (selfAddr off) size sgn rd) s = .next ((s.block t.val .none).setX t.val rd.val
      (if sgn then wrapTo 64 (signedOf (8 * size) (s.loadNat (storeAt t.val + off) size))
        else s.loadNat (storeAt t.val + off) size)).finish := by
  change Host.Outcome.next (s.issue' t.val (.load (selfAddr off).toNat size sgn rd.val)) = _
  rw [toNat_selfAddr (h.lt hsize)]
  exact congrArg Host.Outcome.next (State.issue'_of_ready h.ready (State.runLoad_own t.isLt hsize h hgood sgn rd.val _))

theorem exec_coreStore_own (hsize : size = 1 ∨ size = 2 ∨ size = 4 ∨ size = 8) (h : s.ownReach t.val off size true) (v : Word) :
    exec (.coreStore (.tile t) (selfAddr off) size v) s =
      .next ((s.storeBytes (storeAt t.val + off) (leBytes size v.toNat)).watchWrite (storeAt t.val + off) size).finish := by
  change Host.Outcome.next (s.issue' t.val (.store (selfAddr off).toNat size v.toNat)) = _
  rw [toNat_selfAddr (h.lt hsize)]
  exact congrArg Host.Outcome.next (State.issue'_of_ready h.ready (State.runStore_own t.isLt hsize h v.toNat _))

variable {wide : Bool} (hwide : size = if wide then 8 else 4)
include hwide

theorem exec_coreAmo_own (h : s.ownReach t.val off size true) (hgood : s.wordsPoisoned (storeAt t.val + off) size = false) (op : AmoOp)
    (v : Word) (rd : Reg) :
    exec (.coreAmo (.tile t) (selfAddr off) op wide v rd) s =
      .next ((((s.storeBytes (storeAt t.val + off) (leBytes size (atomLane (amoCode op wide).1 (amoCode op wide).2
        (s.loadNat (storeAt t.val + off) size) (v.toNat % 2 ^ (8 * size)) 0).1)).watchWrite (storeAt t.val + off) size).block t.val
          .none).setX t.val rd.val (wrapTo 64 (signedOf (8 * size) (s.loadNat (storeAt t.val + off) size)))).finish := by
  change Host.Outcome.next (s.issue' t.val (.amo (selfAddr off).toNat op wide v.toNat rd.val)) = _
  rw [toNat_selfAddr (h.lt (accessSize_of_wide hwide))]
  exact congrArg Host.Outcome.next (State.issue'_of_ready h.ready (State.runAmo_own t.isLt hwide h hgood op v.toNat rd.val _))

theorem exec_lr_own (h : s.ownReach t.val off size false) (hgood : s.wordsPoisoned (storeAt t.val + off) size = false) (rd : Reg) :
    exec (.lr (.tile t) (selfAddr off) wide rd) s =
      .next (((s.reserve t.val (some (storeAt t.val + off))).block t.val .none).setX t.val rd.val
        (wrapTo 64 (signedOf (8 * size) (s.loadNat (storeAt t.val + off) size)))).finish := by
  change Host.Outcome.next (s.issue' t.val (.lr (selfAddr off).toNat wide rd.val)) = _
  rw [toNat_selfAddr (h.lt (accessSize_of_wide hwide))]
  exact congrArg Host.Outcome.next (State.issue'_of_ready h.ready (State.runLr_own t.isLt hwide h hgood rd.val _))

theorem exec_sc_own_held (h : s.ownReach t.val off size true) (hheld : (s.core t.val).reservation = some (storeAt t.val + off)) (v : Word)
    (rd : Reg) :
    exec (.sc (.tile t) (selfAddr off) wide v rd) s =
      .next (((((s.reserve t.val none).storeBytes (storeAt t.val + off) (leBytes size v.toNat)).watchWrite (storeAt t.val + off)
        size).block t.val .none).setX t.val rd.val 0).finish := by
  change Host.Outcome.next (s.issue' t.val (.sc (selfAddr off).toNat wide v.toNat rd.val)) = _
  rw [toNat_selfAddr (h.lt (accessSize_of_wide hwide))]
  exact congrArg Host.Outcome.next (State.issue'_of_ready h.ready (State.runSc_own_held t.isLt hwide h hheld v.toNat rd.val _))

theorem exec_sc_own_lost (h : s.ownReach t.val off size true) (hlost : (s.core t.val).reservation ≠ some (storeAt t.val + off)) (v : Word)
    (rd : Reg) :
    exec (.sc (.tile t) (selfAddr off) wide v rd) s = .next ((s.reserve t.val none).setX t.val rd.val 1).finish := by
  change Host.Outcome.next (s.issue' t.val (.sc (selfAddr off).toNat wide v.toNat rd.val)) = _
  rw [toNat_selfAddr (h.lt (accessSize_of_wide hwide))]
  exact congrArg Host.Outcome.next (State.issue'_of_ready h.ready (State.runSc_own_lost t.isLt hwide h hlost v.toNat rd.val _))

end

/-- Settles O16: each access is served at once, and what watches a store changes neither memory nor registers. -/
theorem tileAccesses : Obligations.TileAccesses := by
  unfold Obligations.TileAccesses
  intro t off size rd s hsize
  refine ⟨fun sgn h hgood => ?_, fun v h hwatch => ?_, fun op wide v hwide h hwatch hgood => ?_, fun wide hwide h hgood => ?_,
    fun wide v hwide h hwatch => ⟨fun hheld => ?_, fun hlost => ?_⟩⟩
  · refine ⟨_, exec_coreLoad_own hsize h hgood sgn rd, xregWrite_setX _ _ _ rfl, ?_⟩
    exact congrArg (fun u : State => { u with cores := s.cores }) (State.xregsOnly_setX (s.block t.val .none) t.val rd.val _)
  · exact ⟨_, exec_coreStore_own hsize h v, State.storeBytes_watchWrite hwatch _ _ _⟩
  · refine ⟨_, exec_coreAmo_own hwide h hgood op v rd, ?_⟩
    obtain ⟨hmem, hregs, hxregs, -⟩ := State.storeBytes_watchWrite hwatch (storeAt t.val + off) (leBytes size (atomLane (amoCode op wide).1
      (amoCode op wide).2 (s.loadNat (storeAt t.val + off) size) (v.toNat % 2 ^ (8 * size)) 0).1) size
    refine ⟨xregWrite_setX _ _ _ hxregs, ?_, ?_⟩
    · rw [State.setX_mem, State.block_mem, hmem]
    · rw [State.setX_regs, State.block_regs, hregs]
  · refine ⟨_, exec_lr_own hwide h hgood rd, xregWrite_setX _ _ _ rfl, ?_, State.setX_mem _ _ _ _⟩
    rw [State.core_setX, State.block, State.core_setCore_self]
    exact s.reservation_reserve t.val _
  · refine ⟨_, exec_sc_own_held hwide h hheld v rd, ?_⟩
    obtain ⟨hmem, -, hxregs, -⟩ :=
      State.storeBytes_watchWrite (s := s.reserve t.val none) hwatch (storeAt t.val + off) (leBytes size v.toNat) size
    refine ⟨xregWrite_setX _ _ _ hxregs, ?_⟩
    rw [State.setX_mem, State.block_mem, hmem]
    rfl
  · refine ⟨_, exec_sc_own_lost hwide h hlost v rd, xregWrite_setX _ _ _ rfl, State.setX_mem _ _ _ _, ?_⟩
    rw [State.core_setX]
    exact s.reservation_reserve t.val none

/-- Settles O17: each command is its operation, carried out at once by a core that nothing holds. -/
theorem coreCommands : Obligations.CoreCommands := by
  unfold Obligations.CoreCommands
  refine ⟨fun c n v s hready habsent hmode hcustom hplain => ?_, fun t n v s fs hready hfs hcustom hne hok hdeque habsent => ?_,
    fun k s hready hopen hlate => ?_, fun t a0 s hready hquiet hlate hrunning huser => ?_, fun c cause s hready => ?_,
    fun c cause s hpaused => ?_, fun t a s hlow hhigh hgood => ?_⟩
  · have hrun := State.runCsr_of_standard v.toNat habsent hmode hcustom hplain
    refine ⟨_, congrArg Host.Outcome.next (State.issue'_of_ready hready (congrArg some hrun)), ?_, fun z m hm hother => ?_, rfl⟩
    · rw [State.csr_setCsr_self, Nat.mod_eq_of_lt v.isLt]
    · have hn := n.isLt
      exact State.csr_setCsr_ne _ _ _ _ (by omega)
  · have hrun := (State.runCsr_of_tile v.toNat t.isLt habsent hcustom (hfs ▸ hne)).trans (State.tileCsr_of_ok hfs hok hdeque)
    exact ⟨_, congrArg Host.Outcome.next (State.issue'_of_ready hready (congrArg some hrun)), rfl⟩
  · have hrun : s.runCore (coreIx (.pd k)) .fence = some s := by simp [State.runCore, hopen, State.lateFault_of_none hlate]
    exact congrArg Host.Outcome.next (State.issue'_of_ready hready hrun)
  · have hrun : s.runCore t.val (.exit a0.toNat) = some (s.kernelExit t.val a0.toNat) := by
      simp [State.runCore, hquiet, State.lateFault_of_none hlate]
    exact ⟨_, congrArg Host.Outcome.next (State.issue'_of_ready hready hrun), State.kernelExit_spec _ hrunning huser⟩
  · exact ⟨s.interruptCore (coreIx c) cause.toNat, rfl, State.interruptCore_of_ready _ hready⟩
  · have hheld := State.interruptCore_of_paused cause.toNat hpaused
    exact ⟨_, congrArg (fun u : State => Host.Outcome.next u.finish) hheld, congrArg CoreState.heldInterrupts (State.core_setCore_self _ _ _),
      rfl⟩
  · have hfetch : s.fetch t.val a.toNat = s := by simp [State.fetch, hlow, hhigh, hgood]
    exact congrArg Host.Outcome.next hfetch

end Sys2Proof.Machine
end

section
/-! PROOFS. Two's-complement readings, and the XP128 pattern that stands for no integer (spec/03_number_formats.md). -/
namespace Sys2Proof

/-! ### The signed reading of `w` bits -/

section
variable {w : Nat} (hw : 0 < w)
include hw

/-- The signed reading is the balanced residue, which the library's lemmas speak of. -/
theorem signedOf_eq_bmod (n : Nat) : signedOf w n = Int.bmod n (2 ^ w) := by
  have hpow := Nat.two_pow_pred_mul_two hw
  rw [signedOf, Int.bmod_def, ← Int.natCast_emod]
  split <;> split <;> omega

theorem neg_half_le_signedOf (n : Nat) : -(2 ^ (w - 1) : Nat) ≤ signedOf w n := by
  have hle := Int.le_bmod (x := n) (Nat.two_pow_pos w)
  rw [signedOf_eq_bmod hw]
  have hpow := Nat.two_pow_pred_mul_two hw
  omega

theorem signedOf_lt_half (n : Nat) : signedOf w n < (2 ^ (w - 1) : Nat) := by
  have hlt := Int.bmod_lt (x := n) (Nat.two_pow_pos w)
  rw [signedOf_eq_bmod hw]
  have hpow := Nat.two_pow_pred_mul_two hw
  omega

/-- Only the pattern of the sign bit alone reads as the least integer. -/
theorem signedOf_eq_neg_half_iff (n : Nat) : signedOf w n = -(2 ^ (w - 1) : Nat) ↔ n % 2 ^ w = 2 ^ (w - 1) := by
  have hpow := Nat.two_pow_pred_mul_two hw
  have hpos := Nat.two_pow_pos (w - 1)
  rw [signedOf]
  split <;> omega

theorem signedOf_wrapTo {z : Int} (hlo : -(2 ^ (w - 1) : Nat) ≤ z) (hhi : z < (2 ^ (w - 1) : Nat)) : signedOf w (wrapTo w z) = z := by
  have hnonneg : 0 ≤ z % (2 ^ w : Nat) := Int.emod_nonneg _ (by exact_mod_cast (Nat.two_pow_pos w).ne')
  have hpow := Nat.two_pow_pred_mul_two hw
  rw [signedOf_eq_bmod hw, wrapTo, Int.toNat_of_nonneg hnonneg, Int.emod_bmod]
  exact Int.bmod_eq_of_le_mul_two (by omega) (by omega)

end

theorem wrapTo_lt (w : Nat) (z : Int) : wrapTo w z < 2 ^ w := by
  have hlt : z % (2 ^ w : Nat) < (2 ^ w : Nat) := Int.emod_lt_of_pos _ (by exact_mod_cast Nat.two_pow_pos w)
  have hpos := Nat.two_pow_pos w
  rw [wrapTo]
  omega

namespace Machine

/-! ### NaR (R78) -/

theorem signedOf_eq_neg_half_iff_xpNaR {a : Nat} (ha : a < 2 ^ 128) : signedOf 128 a = -(2 ^ 127 : Nat) ↔ a = xpNaR := by
  rw [signedOf_eq_neg_half_iff (by decide) a, Nat.mod_eq_of_lt ha, xpNaR]

/-- Two's complement leaves one integer below the range of R78, and its pattern is NaR. -/
theorem signedOf_bounds_of_ne_xpNaR {a : Nat} (ha : a < 2 ^ 128) (hne : a ≠ xpNaR) :
    -(2 ^ 127 - 1) ≤ signedOf 128 a ∧ signedOf 128 a ≤ 2 ^ 127 - 1 := by
  have hlo := neg_half_le_signedOf (w := 128) (by decide) a
  have hhi := signedOf_lt_half (w := 128) (by decide) a
  have hleast := mt (signedOf_eq_neg_half_iff_xpNaR ha).mp hne
  omega

theorem exists_pattern_of_xp_range {z : Int} (hlo : -(2 ^ 127 - 1) ≤ z) (hhi : z ≤ 2 ^ 127 - 1) :
    ∃ a, a < 2 ^ 128 ∧ a ≠ xpNaR ∧ signedOf 128 a = z := by
  have hlt := wrapTo_lt 128 z
  have hread : signedOf 128 (wrapTo 128 z) = z := signedOf_wrapTo (by decide) (by omega) (by omega)
  refine ⟨wrapTo 128 z, hlt, fun hnar => ?_, hread⟩
  have hleast := (signedOf_eq_neg_half_iff_xpNaR hlt).mpr hnar
  omega

@[simp] theorem xpAdd_xpNaR_left (a : Nat) : xpAdd xpNaR a = (xpNaR, 0) := by simp [xpAdd]

@[simp] theorem xpAdd_xpNaR_right (a : Nat) : xpAdd a xpNaR = (xpNaR, 0) := by simp [xpAdd]

@[simp] theorem Fmt.ofXp_xpNaR (f : Fmt) (ex : Int) : f.ofXp xpNaR ex = f.invalid := if_pos rfl

theorem fmtFP64_invalid : fmtFP64.invalid = (0x7FF8000000000000, flNV) := rfl

theorem fmtFP32_invalid : fmtFP32.invalid = (0x7FC00000, flNV) := rfl

/-- Settles O19: NaR is the pattern of the sign bit alone, which a sum keeps without a flag and a conversion answers as an invalid operation. -/
theorem notAResult : Obligations.NotAResult := by
  unfold Obligations.NotAResult
  exact ⟨rfl, fun _ => signedOf_bounds_of_ne_xpNaR, fun _ => exists_pattern_of_xp_range,
    fun a => ⟨xpAdd_xpNaR_left a, xpAdd_xpNaR_right a⟩,
    fun ex => ⟨(Fmt.ofXp_xpNaR _ ex).trans fmtFP64_invalid, (Fmt.ofXp_xpNaR _ ex).trans fmtFP32_invalid⟩⟩

end Machine
end Sys2Proof
end

section
/-! PROOFS. The engines of a tile's matrix array: what they start, and what each instruction leaves in its bank, its queue and the tile
store (spec/04_matrix_arrays.md). -/
namespace Sys2Proof.Machine

/-! ### Banks of a tile -/

@[simp] theorem State.tile_setBank_self (s : State) (t b : Nat) (v : Bank) : (s.setBank t b v).tile t = (s.tile t).setBank b v :=
  State.tile_setTile_self s t _

@[simp] theorem Tile.bank_setBank_self (x : Tile) (b : Nat) (v : Bank) : (x.setBank b v).bank b = v := by
  unfold Tile.setBank Tile.bank
  split <;> rfl

@[simp] theorem Tile.mxq_setBank (x : Tile) (b : Nat) (v : Bank) : (x.setBank b v).mxq = x.mxq := by
  unfold Tile.setBank
  split <;> rfl

/-! ### Cells written one by one -/

/-- After puts in a row, a key holds the value put there, where no put of that key brings another. -/
theorem mapGet_foldl_put_of_mem {α β : Type} [DecidableEq α] (d : α) (key : β → Nat) (val : β → α) {x : β} (m : SMap α) (l : List β) :
    (∀ y ∈ l, key y = key x → val y = val x) → x ∈ l →
      mapGet d (l.foldl (fun m y => mapPut d m (key y) (val y)) m) (key x) = val x := by
  induction l using List.reverseRecOn with
  | nil => intro _ hx; cases hx
  | append_singleton l y ih =>
    intro hsame hx
    simp only [List.forall_mem_append, List.forall_mem_singleton] at hsame
    obtain ⟨hl, hy⟩ := hsame
    rw [List.foldl_append, List.foldl_cons, List.foldl_nil]
    by_cases hkey : key y = key x
    · rw [hkey, mapGet_put_self, hy hkey]
    · rw [mapGet_put_ne _ _ _ _ hkey]
      obtain hx | hx := List.mem_append.mp hx
      · exact ih hl hx
      · exact absurd (congrArg key (List.mem_singleton.mp hx).symm) hkey

theorem mem_cells {i j : Nat} : (i, j) ∈ cells ↔ i < 32 ∧ j < 32 := by simp [cells]

/-- A fold that puts a value for each cell, at the cell's place in the bank spread by an injective map, leaves each cell its own. -/
theorem mapGet_foldl_cells {α : Type} [DecidableEq α] (d : α) {key : Nat → Nat} (hkey : key.Injective) (val : Nat → Nat → α)
    {put : SMap α → Nat × Nat → SMap α} (hput : ∀ m i j, put m (i, j) = mapPut d m (key (i * 32 + j)) (val i j)) (m : SMap α)
    {i j : Nat} (hi : i < 32) (hj : j < 32) : mapGet d (cells.foldl put m) (key (i * 32 + j)) = val i j := by
  obtain rfl : put = fun m x => mapPut d m (key (x.1 * 32 + x.2)) (val x.1 x.2) := funext fun m => funext fun x => hput m x.1 x.2
  refine mapGet_foldl_put_of_mem d (fun x : Nat × Nat => key (x.1 * 32 + x.2)) (fun x => val x.1 x.2) (x := (i, j)) m cells ?_
    (mem_cells.mpr ⟨hi, hj⟩)
  rintro ⟨k, l⟩ hmem hplace
  obtain ⟨hk, hl⟩ := mem_cells.mp hmem
  have hcell : k * 32 + l = i * 32 + j := hkey hplace
  obtain ⟨rfl, rfl⟩ : k = i ∧ l = j := by omega
  rfl

/-! ### What an instruction marks beside memory and banks -/

/-- Nothing but CSRs, cores, scheduler events, linkage queues and tallies differs. -/
def unitMarksOnly (s u : State) : Prop :=
  { u with csrs := s.csrs, cores := s.cores, schedEvents := s.schedEvents, lsa := s.lsa, tally := s.tally } = s

theorem unitMarksOnly.trans {s t u : State} (hst : unitMarksOnly s t) (htu : unitMarksOnly t u) : unitMarksOnly s u := by
  unfold unitMarksOnly at *
  rw [← hst, ← htu]

section
variable {s u : State} (h : unitMarksOnly s u)
include h

theorem unitMarksOnly.mem_eq : u.mem = s.mem := by rw [← h]

theorem unitMarksOnly.tile_eq (t : Nat) : u.tile t = s.tile t := by rw [← h]; rfl

theorem unitMarksOnly.unwatched (hwatch : s.unwatched) : u.unwatched := by
  rw [← h] at hwatch
  exact hwatch

end

theorem unitMarksOnly_orCsr (s : State) (t n v : Nat) : unitMarksOnly s (s.orCsr t n v) := rfl

theorem unitMarksOnly_mxFlags (s : State) (t fl : Nat) : unitMarksOnly s (s.mxFlags t fl) := rfl

theorem unitMarksOnly_digest (s : State) (t w : Nat) (es : List (Nat × Elem)) : unitMarksOnly s (s.digest t w es) := by
  unfold State.digest
  dsimp only
  split <;> rfl

theorem unitMarksOnly_mxDigest (s : State) (t w : Nat) (es : List ((Nat × Nat) × Elem)) : unitMarksOnly s (s.mxDigest t w es) := by
  unfold State.mxDigest
  dsimp only
  split
  · exact unitMarksOnly_digest s t w _
  · rfl

theorem unitMarksOnly_tallyAdd (s : State) (t kind n : Nat) : unitMarksOnly s (s.tallyAdd t kind n) := by
  unfold State.tallyAdd
  split <;> rfl

theorem unitMarksOnly_tallyMx (s : State) (t : Nat) (q : MxReq) : unitMarksOnly s (s.tallyMx t q) := by
  unfold State.tallyMx
  dsimp only
  split
  · exact (unitMarksOnly_tallyAdd s _ _ _).trans (unitMarksOnly_tallyAdd _ _ _ _)
  · exact (unitMarksOnly_tallyAdd s _ _ _).trans (unitMarksOnly_tallyAdd _ _ _ _)
  · exact unitMarksOnly_tallyAdd s _ _ _
  · exact unitMarksOnly_tallyAdd s _ _ _
  · exact unitMarksOnly_tallyAdd s _ _ _
  · exact unitMarksOnly_tallyAdd s _ _ _
  · rfl

theorem unitMarksOnly_watchWrite {s : State} (h : s.unwatched) (a len : Nat) : unitMarksOnly s (s.watchWrite a len) :=
  congrArg (fun u : State => ({ u with csrs := s.csrs, tally := s.tally } : State)) (State.watchWrite_frame h a len)

/-! ### Elements placed in the tile store -/

/-- A state whose memory holds the elements placed in a tile's store, with poison tags of its own. -/
def State.placed (s : State) (t : Nat) (ps : List Put) (tags : SMap Bool) : State :=
  { s with mem := ps.foldl (fun m p => putBitsAt m (storeAt t) p) s.mem, poisonWord := tags }

@[simp] theorem State.tile_placed (s : State) (t : Nat) (ps : List Put) (tags : SMap Bool) (z : Nat) :
    (s.placed t ps tags).tile z = s.tile z := rfl

/-- Where no range is armed, elements written change memory and poison tags, and else only what watches writes. -/
theorem State.putElems_spec {s : State} (h : s.unwatched) (t : Nat) (ps : List Put) :
    ∃ tags, unitMarksOnly (s.placed t ps tags) (s.putElems t ps) :=
  ⟨_, State.forEach_keeps (P := unitMarksOnly (s.placed t ps _))
    (fun _ _ _ hu => hu.trans (unitMarksOnly_watchWrite (hu.unwatched h) _ _)) _ rfl⟩

/-- The elements that `State.putCells` places. -/
def cellPuts (base stride n : Nat) (es : List ((Nat × Nat) × Elem)) : List Put :=
  es.map fun x => { pos := (base + x.1.1 * stride + x.1.2 * n) * 8, w := 8 * n, v := x.2.1, poison := x.2.2 }

theorem State.putCells_spec {s : State} (h : s.unwatched) (t base stride n : Nat) (es : List ((Nat × Nat) × Elem)) :
    ∃ tags, unitMarksOnly (s.placed t (cellPuts base stride n es) tags) (s.putCells t base stride n es) := by
  obtain ⟨tags, hput⟩ := State.putElems_spec h t (cellPuts base stride n es)
  exact ⟨tags, hput.trans (unitMarksOnly_mxDigest _ _ _ _)⟩

/-! ### What each instruction does (R99–R112) -/

/-- A float product gives every cell its value of R102. -/
theorem State.doMma_float (s : State) (t : Nat) {q : MxReq} (hkind : q.kind = 1) :
    ∃ b : Bank, (s.doMma t q).tile t = (s.tile t).setBank q.bank b ∧ b.tag = 1 ∧ ∀ i j, i < 32 → j < 32 →
      mapGet 0 b.acc (i * 32 + j) = (s.mmaFloat t q ((s.tile t).bank q.bank) i j).v := by
  unfold State.doMma
  dsimp only
  rw [if_pos hkind]
  refine ⟨_, ((unitMarksOnly_mxFlags _ _ _).tile_eq t).trans (State.tile_setBank_self _ _ _ _), rfl, fun i j hi hj => ?_⟩
  simp only [List.foldl_map]
  exact mapGet_foldl_cells 0 (key := id) Function.injective_id (fun i j => (s.mmaFloat t q ((s.tile t).bank q.bank) i j).v)
    (fun _ _ _ => rfl) _ hi hj

/-- An integer product gives every cell its value of R104. -/
theorem State.doMma_int (s : State) (t : Nat) {q : MxReq} (hkind : q.kind ≠ 1) :
    ∃ b : Bank, (s.doMma t q).tile t = (s.tile t).setBank q.bank b ∧ b.tag = 2 ∧ ∀ i j, i < 32 → j < 32 →
      mapGet 0 b.ints ((i * 32 + j) * 5) = (s.mmaInt t q ((s.tile t).bank q.bank) i j).1 := by
  unfold State.doMma
  dsimp only
  rw [if_neg hkind]
  refine ⟨_, ((unitMarksOnly_mxFlags _ _ _).tile_eq t).trans (State.tile_setBank_self _ _ _ _), rfl, fun i j hi hj => ?_⟩
  simp only [List.foldl_map]
  exact mapGet_foldl_cells 0 (key := (· * 5)) (mul_left_injective₀ (by decide))
    (fun i j => (s.mmaInt t q ((s.tile t).bank q.bank) i j).1) (fun _ _ _ => rfl) _ hi hj

/-- A wide product tags its bank with its mode and raises its cumulative K (R105, R110). -/
theorem State.doWmma_spec (s : State) (t : Nat) (q : MxReq) :
    ∃ b : Bank, (s.doWmma t q).tile t = (s.tile t).setBank q.bank b ∧ b.tag = q.kind ∧ b.k = ((s.tile t).bank q.bank).k + q.kk :=
  ⟨_, State.tile_setBank_self s t q.bank _, rfl, rfl⟩

theorem State.tile_doLdacc (s : State) (t : Nat) (q : MxReq) : ∃ b : Bank, (s.doLdacc t q).tile t = (s.tile t).setBank q.bank b := by
  unfold State.doLdacc
  dsimp only
  split <;> exact ⟨_, ((unitMarksOnly_mxFlags _ _ _).tile_eq t).trans (State.tile_setBank_self _ _ _ _)⟩

/-- The element of C that mx.stacc writes for a cell: 0 from an EMPTY bank, and 0 with a poison tag from a poisoned cell. -/
def staccOut (cfmt : Nat) (b : Bank) (c : Nat) : Elem :=
  (if mapGet false b.poison c && b.tag ≠ 0 then 0 else (if b.tag = 0 then (0, 0) else staccElem cfmt b c).1,
    mapGet false b.poison c && b.tag ≠ 0)

theorem staccOut_of_good {cfmt : Nat} {b : Bank} (hpoison : b.poison = []) (htag : b.tag ≠ 0) (c : Nat) :
    staccOut cfmt b c = ((staccElem cfmt b c).1, false) := by
  simp [staccOut, hpoison, htag, mapGet]

/-- The elements that mx.stacc places. -/
def MxReq.staccPuts (q : MxReq) (b : Bank) : List Put :=
  cellPuts q.x1 q.ldc (cBytes q.cfmt) (cells.map fun x => (x, staccOut q.cfmt b (x.1 * 32 + x.2)))

theorem MxReq.staccPuts_of_good (q : MxReq) {b : Bank} (hpoison : b.poison = []) (htag : b.tag ≠ 0) :
    q.staccPuts b = cells.map fun x => ⟨(q.x1 + x.1 * q.ldc + x.2 * cBytes q.cfmt) * 8, 8 * cBytes q.cfmt,
      (staccElem q.cfmt b (x.1 * 32 + x.2)).1, false⟩ := by
  simp [MxReq.staccPuts, cellPuts, staccOut_of_good hpoison htag]

/-- mx.stacc places the elements of its bank in the tile store, and changes no bank. -/
theorem State.doStacc_spec {s : State} (h : s.unwatched) (t : Nat) (q : MxReq) :
    ∃ tags, unitMarksOnly (s.placed t (q.staccPuts ((s.tile t).bank q.bank)) tags) (s.doStacc t q) := by
  obtain ⟨tags, hput⟩ := State.putCells_spec h t q.x1 q.ldc (cBytes q.cfmt)
    (cells.map fun x => (x, staccOut q.cfmt ((s.tile t).bank q.bank) (x.1 * 32 + x.2)))
  refine ⟨tags, hput.trans ?_⟩
  unfold State.doStacc
  dsimp only
  rw [List.map_map]
  exact unitMarksOnly_mxFlags _ _ _

/-- mx.recomb clears its bank (R105). -/
theorem State.tile_doRecomb {s : State} (h : s.unwatched) (t : Nat) (q : MxReq) :
    (s.doRecomb t q).tile t = (s.tile t).setBank q.bank {} := by
  unfold State.doRecomb
  dsimp only
  rw [State.tile_setBank_self, (unitMarksOnly_orCsr _ _ _ _).tile_eq, (unitMarksOnly_mxFlags _ _ _).tile_eq]
  obtain ⟨tags, hput⟩ := State.putCells_spec h t q.x2 q.ldc (outBytes q.mode) _
  rw [hput.tile_eq, State.tile_placed]

/-- mx.slice changes no bank and no queue. -/
theorem State.tile_doSlice {s : State} (h : s.unwatched) (t : Nat) (q : MxReq) : (s.doSlice t q).tile t = s.tile t := by
  unfold State.doSlice
  dsimp only
  rw [State.tile_setCsr, (unitMarksOnly_orCsr _ _ _ _).tile_eq, (unitMarksOnly_mxFlags _ _ _).tile_eq]
  obtain ⟨tags, hput⟩ := State.putElems_spec h t _
  rw [hput.tile_eq, State.tile_placed]

/-! ### Completion -/

section
variable (s : State) (t : Nat) {q : MxReq}

theorem State.mxDo_of_mma (h : mxOp q.w = 0) : s.mxDo t q = s.doMma t q := by simp [State.mxDo, h]

theorem State.mxDo_of_wmma (h : mxOp q.w = 1) : s.mxDo t q = s.doWmma t q := by simp [State.mxDo, h]

theorem State.mxDo_of_stacc (h : mxOp q.w = 3) : s.mxDo t q = s.doStacc t q := by simp [State.mxDo, h]

theorem State.mxDo_of_zero (h : mxOp q.w = 4) : s.mxDo t q = s.setBank t q.bank {} := by simp [State.mxDo, h]

theorem State.mxDo_of_recomb (h : mxOp q.w = 5) : s.mxDo t q = s.doRecomb t q := by simp [State.mxDo, h]

end

/-- What an instruction does takes no instruction out of its tile's queue; its completion then does. -/
theorem State.mxq_mxDo {s : State} (h : s.unwatched) (t : Nat) (q : MxReq) : ((s.mxDo t q).tile t).mxq = (s.tile t).mxq := by
  unfold State.mxDo
  split
  · by_cases hkind : q.kind = 1
    · obtain ⟨b, htile, -⟩ := s.doMma_float t hkind
      rw [htile, Tile.mxq_setBank]
    · obtain ⟨b, htile, -⟩ := s.doMma_int t hkind
      rw [htile, Tile.mxq_setBank]
  · obtain ⟨b, htile, -⟩ := s.doWmma_spec t q
    rw [htile, Tile.mxq_setBank]
  · obtain ⟨b, htile⟩ := s.tile_doLdacc t q
    rw [htile, Tile.mxq_setBank]
  · obtain ⟨tags, hstore⟩ := State.doStacc_spec h t q
    rw [hstore.tile_eq, State.tile_placed]
  · rw [State.tile_setBank_self, Tile.mxq_setBank]
  · rw [State.tile_doRecomb h, Tile.mxq_setBank]
  · rw [State.tile_doSlice h]
  · rfl

section
variable {s : State} {t : Nat} {e : Engine} {q : MxReq} (hup : s.engineUp t = true)
include hup

theorem State.startEngine_of_next (hnext : (s.tile t).nextFor e = some q) (hpower : s.enginePower t e = true) (hidle : q.running = false)
    (hheld : (s.tile t).mxHeld q = false) :
    s.startEngine t e =
      s.setTile t { s.tile t with mxq := (s.tile t).mxq.map fun r => if r.seq = q.seq then { r with running := true } else r } := by
  simp [State.startEngine, hnext, hup, hpower, hidle, hheld]

/-- A completed instruction leaves its queue; the rest is what it did. -/
theorem State.endEngine_spec (hrun : ((s.tile t).mxq.find? fun q => mxEngine q.w = e && q.running) = some q) (hwatch : s.unwatched) :
    (s.endEngine t e).tile t = { (s.mxDo t q).tile t with mxq := (s.tile t).mxq.filter fun r => r.seq ≠ q.seq } ∧
      (s.endEngine t e).mem = (s.mxDo t q).mem := by
  have hmarks := unitMarksOnly_tallyMx (s.mxDo t q) t q
  unfold State.endEngine
  rw [hrun]
  dsimp only
  rw [if_pos hup, State.tile_setTile_self, State.setTile_mem, hmarks.tile_eq, hmarks.mem_eq, State.mxq_mxDo hwatch]
  exact ⟨rfl, rfl⟩

end

theorem Tile.bank_withMxq (x : Tile) (l : List MxReq) (b : Nat) : ({ x with mxq := l } : Tile).bank b = x.bank b := rfl

/-- Settles O21: an ended instruction is taken out of its queue, and what it leaves is the rule of its operation. -/
theorem matrixEngines : Obligations.MatrixEngines := by
  unfold Obligations.MatrixEngines
  intro t e s q hup
  refine ⟨fun hnext hpower hidle hheld => ?_, fun hrun hwatch => ?_⟩
  · exact ⟨_, congrArg Host.Outcome.next (State.startEngine_of_next hup hnext hpower hidle hheld), State.tile_setTile_self _ _ _, rfl⟩
  obtain ⟨htile, hmem⟩ := State.endEngine_spec hup hrun hwatch
  refine ⟨s.endEngine t.val e, rfl, ?_⟩
  beta_reduce
  rw [htile, hmem, Tile.bank_withMxq]
  refine ⟨rfl, fun hop => ?_, fun hop hkind => ?_, fun hop hkind => ?_, fun hop => ?_, fun hop hpoison htag => ?_, fun hop => ?_⟩
  · rw [s.mxDo_of_zero t.val hop, State.tile_setBank_self]
    exact ⟨Tile.bank_setBank_self _ _ _, rfl⟩
  · obtain ⟨b, hbank, hspec⟩ := s.doMma_float t.val hkind
    rwa [s.mxDo_of_mma t.val hop, hbank, Tile.bank_setBank_self]
  · obtain ⟨b, hbank, hspec⟩ := s.doMma_int t.val hkind
    rwa [s.mxDo_of_mma t.val hop, hbank, Tile.bank_setBank_self]
  · obtain ⟨b, hbank, hspec⟩ := s.doWmma_spec t.val q
    rwa [s.mxDo_of_wmma t.val hop, hbank, Tile.bank_setBank_self]
  · obtain ⟨tags, hstore⟩ := State.doStacc_spec hwatch t.val q
    rw [s.mxDo_of_stacc t.val hop, hstore.mem_eq, State.placed, MxReq.staccPuts_of_good q hpoison htag]
  · rw [s.mxDo_of_recomb t.val hop, State.tile_doRecomb hwatch, Tile.bank_setBank_self]

end Sys2Proof.Machine
end

section
/-! SUPPORT. The stream unit of a tile (spec/05_stream_unit.md): what writing an instruction's elements changes beside memory, what a
stream instruction that executes at once leaves, and what each writes where no mask is named and no word is poisoned. -/
namespace Sys2Proof.Machine

/-! ### Reads of CSRs -/

theorem State.csr_of_csrs {s u : State} (h : u.csrs = s.csrs) (t n : Nat) : u.csr t n = s.csr t n := by rw [State.csr, h, State.csr]

theorem State.csr_orCsr_self (s : State) (t n v : Nat) : (s.orCsr t n v).csr t n = (s.csr t n ||| v) % 2 ^ 64 :=
  State.csr_setCsr_self _ _ _ _

theorem State.csr_orCsr_ne (s : State) (t v : Nat) {n m : Nat} (h : n ≠ m) : (s.orCsr t n v).csr t m = s.csr t m :=
  State.csr_setCsr_ne _ _ _ _ (by omega)

/-! ### Elements written (R42, R143, R408) -/

theorem State.csrs_watchWrite {s : State} (h : s.unwatched) (a len : Nat) : (s.watchWrite a len).csrs = s.csrs :=
  (congrArg State.csrs (State.watchWrite_frame h a len) :)

theorem State.csrs_putElems {s : State} (h : s.unwatched) (t : Nat) (ps : List Put) : (s.putElems t ps).csrs = s.csrs := by
  have hkeep := State.forEach_keeps (P := fun u => u.unwatched ∧ u.csrs = s.csrs) (l := touched ps)
    (g := fun x u => u.watchWrite (storeAt t + x.1) x.2) fun x _ u ⟨hwatch, hcsrs⟩ =>
      ⟨(unitMarksOnly_watchWrite hwatch _ _).unwatched hwatch, (State.csrs_watchWrite hwatch _ _).trans hcsrs⟩
  obtain ⟨-, hcsrs⟩ := hkeep (s.placed t ps _) ⟨h, rfl⟩
  exact hcsrs

theorem unitMarksOnly_setCsr (s : State) (t n v : Nat) : unitMarksOnly s (s.setCsr t n v) := rfl

theorem unitMarksOnly.withFreeCount {s u : State} (h : unitMarksOnly s u) (n : Nat) :
    unitMarksOnly { s with freeCount := n } { u with freeCount := n } :=
  (congrArg (fun v : State => { v with freeCount := n }) h :)

/-- A digest touches the CSRs of its own group only. -/
theorem State.csr_digest (s : State) (t w : Nat) (es : List (Nat × Elem)) {n : Nat} (hn : n < 0x880) :
    (s.digest t w es).csr t n = s.csr t n := by
  have hsums : ∀ a b, ((s.setCsr t 0x884 a).setCsr t 0x885 b).csr t n = s.csr t n := fun a b => by
    rw [State.csr_setCsr_ne _ _ _ _ (by omega), State.csr_setCsr_ne _ _ _ _ (by omega)]
  unfold State.digest
  dsimp only
  split
  · rw [State.csr_orCsr_ne _ _ _ (by omega), hsums]
  · exact hsums _ _

theorem State.csr_digestStream (s : State) (t dn w positions : Nat) (es : List (Nat × Elem)) {n : Nat} (hn : n < 0x880) :
    (s.digestStream t dn w positions es).csr t n = s.csr t n := by
  unfold State.digestStream
  dsimp only
  split
  · rw [State.csr_setCsr_ne _ _ _ _ (by omega), State.csr_digest _ _ _ _ hn]
  · rfl

theorem unitMarksOnly_digestStream (s : State) (t dn w positions : Nat) (es : List (Nat × Elem)) :
    unitMarksOnly s (s.digestStream t dn w positions es) := by
  unfold State.digestStream
  dsimp only
  split
  · exact (unitMarksOnly_digest s _ _ _).trans (unitMarksOnly_setCsr _ _ _ _)
  · rfl

/-- Where no range is armed, a result written places its elements, and beside that leaves marks only. -/
theorem State.svWrite_spec {s : State} (h : s.unwatched) (t : Nat) (o : SvOp) (r : SvRes) :
    ∃ tags, unitMarksOnly (s.placed t r.puts tags) (s.svWrite t o r) := by
  obtain ⟨tags, hput⟩ := State.putElems_spec h t r.puts
  exact ⟨tags, hput.trans <| (unitMarksOnly_orCsr _ _ _ _).trans <| (unitMarksOnly_orCsr _ _ _ _).trans <|
    unitMarksOnly_digestStream _ _ _ _ _ _⟩

theorem State.csr_svflags_svWrite {s : State} (h : s.unwatched) (t : Nat) (o : SvOp) (r : SvRes) :
    (s.svWrite t o r).csr t 0x802 = (s.csr t 0x802 ||| r.flags) % 2 ^ 64 := by
  unfold State.svWrite
  dsimp only
  rw [State.csr_digestStream _ _ _ _ _ _ (by decide), State.csr_orCsr_ne _ _ _ (by decide), State.csr_orCsr_self,
    State.csr_of_csrs (State.csrs_putElems h t _)]

theorem State.csr_svstat_svWrite {s : State} (h : s.unwatched) (t : Nat) (o : SvOp) (r : SvRes) :
    (s.svWrite t o r).csr t 0x803 = (s.csr t 0x803 ||| (r.idx.toNat + (r.puts.any Put.poison).toNat * 2)) % 2 ^ 64 := by
  unfold State.svWrite
  dsimp only
  rw [State.csr_digestStream _ _ _ _ _ _ (by decide), State.csr_orCsr_self, State.csr_orCsr_ne _ _ _ (by decide),
    State.csr_of_csrs (State.csrs_putElems h t _)]

/-! ### Tallies (R538) -/

theorem State.csrs_tallyAdd (s : State) (t kind n : Nat) : (s.tallyAdd t kind n).csrs = s.csrs := by
  unfold State.tallyAdd
  split <;> rfl

theorem State.csrs_tallySv (s : State) (t : Nat) (o : SvOp) : (s.tallySv t o).csrs = s.csrs := by
  unfold State.tallySv
  dsimp only
  rw [State.csrs_tallyAdd, State.csrs_tallyAdd]

theorem unitMarksOnly_tallySv (s : State) (t : Nat) (o : SvOp) : unitMarksOnly s (s.tallySv t o) :=
  (unitMarksOnly_tallyAdd s _ _ _).trans (unitMarksOnly_tallyAdd _ _ _ _)

theorem unitMarksOnly_tallyFcu (s : State) (t : Nat) (q : FcuReq) : unitMarksOnly s (s.tallyFcu t q) := unitMarksOnly_tallyAdd s _ _ _

/-! ### An instruction that executes -/

/-- A result writes these elements, none of them poisoned, raises these flags, and no index was out of its source. -/
def SvRes.Writes (r : SvRes) (ps : List Put) (fl : Nat) : Prop :=
  r.puts = ps ∧ r.flags = fl ∧ r.idx = false ∧ ∀ p ∈ ps, p.poison = false

/-- An instruction of a length other than 0 writes what it computes; an integer absolute value or negation also draws free values. -/
theorem State.svRun_of_vl (s : State) (t : Nat) {o : SvOp} (h : o.vl ≠ 0) :
    ∃ n, s.svRun t o = { s.svWrite t o (s.svCompute t o) with freeCount := n } := by
  unfold State.svRun
  dsimp only
  rw [if_neg h]
  split
  · exact ⟨_, rfl⟩
  · exact ⟨_, rfl⟩

theorem State.svRun_spec {s : State} (hwatch : s.unwatched) (t : Nat) {o : SvOp} (hvl : o.vl ≠ 0) {ps : List Put} {fl : Nat}
    (hres : (s.svCompute t o).Writes ps fl) : svWrote s ((s.svRun t o).tallySv t o) t ps fl false := by
  obtain ⟨rfl, rfl, hidx, hgood⟩ := hres
  obtain ⟨n, hrun⟩ := s.svRun_of_vl t hvl
  obtain ⟨tags, hwrite⟩ := State.svWrite_spec hwatch t o (s.svCompute t o)
  have hmarks : unitMarksOnly { s.placed t (s.svCompute t o).puts tags with freeCount := n } ((s.svRun t o).tallySv t o) := by
    rw [hrun]
    exact (hwrite.withFreeCount n).trans (unitMarksOnly_tallySv _ _ _)
  have hcsrs : ((s.svRun t o).tallySv t o).csrs = (s.svWrite t o (s.svCompute t o)).csrs := by rw [State.csrs_tallySv, hrun]
  have hclean : (s.svCompute t o).puts.any Put.poison = false := by simpa using hgood
  refine ⟨hmarks.mem_eq, ?_, ?_, (congrArg State.xregs hmarks :),
    (congrArg (fun u : State => { u with mem := s.mem, poisonWord := s.poisonWord, freeCount := s.freeCount }) hmarks :)⟩
  · rw [State.csr_of_csrs hcsrs, State.csr_svflags_svWrite hwatch]
  · rw [State.csr_of_csrs hcsrs, State.csr_svstat_svWrite hwatch, hidx, hclean]
    rfl

/-! ### Issue (R124, R139) -/

/-- The rows of stream instructions and conversion requests that stand in lists. -/
def streamRows : List ((TileId → BitVec 32 → Instr) × Nat) := arithRows ++ bitRows ++ cmpRows ++ transRows ++ reduceRows ++ fcuRows

/-- A row issues the stream operation of its code. -/
theorem exec_streamRow : ∀ r ∈ streamRows, ∀ (t : TileId) (w : BitVec 32) (s : State),
    exec (r.1 t w) s = .next (s.issue' t.val (.sv r.2 w.toNat 0)) := by
  simp only [streamRows, arithRows, bitRows, cmpRows, transRows, reduceRows, fcuRows, List.cons_append, List.nil_append,
    List.forall_mem_cons, List.not_mem_nil, false_imp_iff, implies_true, and_true]
  and_intros <;> exact fun _ _ _ => rfl

/-- A command that issues an operation carries it out at once, where the core is ready. -/
theorem effect_of_issue {i : Instr} {s u : State} {t : Nat} {op : CoreOp} {P : State → Prop}
    (hexec : exec i s = .next (s.issue' t op)) (hready : s.ready t) (hrun : s.runCore t op = some u) (hu : P u) : Effect i s P :=
  ⟨u, hexec.trans (congrArg Host.Outcome.next (State.issue'_of_ready hready hrun)), hu⟩

theorem State.runCore_sv (s : State) (t w : Nat) {code : Nat} (h : code < 0x1F0) : s.runCore t (.sv code w 0) = s.runSv t code w :=
  if_neg (Nat.not_le.mpr h)

theorem State.runCore_sv_of_svRuns {s : State} {t w code : Nat} (h : s.svRuns t w code) (hcode : code < 0x90) :
    s.runCore t (.sv code w 0) = some ((s.svRun t (s.svOp t w)).tallySv t (s.svOp t w)) := by
  obtain ⟨-, hrow, hopcode, hcheck, hserves, hon, hclear, -⟩ := h
  have hfcu : svFcu code = false := by simpa [svFcu] using hcode
  rw [State.runCore_sv s t w (by omega)]
  simp [State.runSv, hrow, hopcode, hcheck, hfcu, hserves, hon, hclear]

/-- An instruction that executes at once and writes clean elements leaves just those. -/
theorem effect_stream {i : Instr} {s : State} {t w code : Nat} {ps : List Put} {fl : Nat}
    (hexec : exec i s = .next (s.issue' t (.sv code w 0))) (hruns : s.svRuns t w code) (hcode : code < 0x90) (hwatch : s.unwatched)
    (hres : (s.svCompute t (s.svOp t w)).Writes ps fl) : Effect i s fun u => svWrote s u t ps fl false := by
  have hrun := State.runCore_sv_of_svRuns hruns hcode
  obtain ⟨hready, -, -, -, -, -, -, hvl⟩ := hruns
  exact effect_of_issue hexec hready hrun (State.svRun_spec hwatch t hvl hres)

theorem State.svRuns.code_eq {s : State} {t w code : Nat} (h : s.svRuns t w code) : (s.svOp t w).code = code := by
  obtain ⟨-, hrow, -⟩ := h
  exact hrow

/-! ### Elements where nothing is masked or poisoned (R128, R142) -/

theorem flagsOf_zero (n : Nat) : flagsOf n (fun _ => 0) = 0 := by
  simp [flagsOf]

theorem State.elem_clean {s : State} (h : s.poisonWord = []) (t : Nat) (d : Desc) (i : Nat) : (s.elem t d i).2 = false := by
  simp [State.elem, State.readBits, State.wordsPoisoned, h, mapGet]

section
variable {s : State} {t : Nat} {o : SvOp}

theorem State.svMask_of_unmasked (h : o.masked = false) (i : Nat) : s.svMask t o i = (1, false) := by simp [State.svMask, h]

/-- Without a mask, and with no poisoned source, every element of d takes its value. -/
theorem State.svEach_writes (hmask : o.masked = false) {n : Nat} {mi : Nat → Nat} {f : Nat → EOut} {v fl : Nat → Nat}
    (hf : ∀ i, i < n → f i = { v := v i, fl := fl i }) : (s.svEach t o n mi f).Writes (o.d.puts n v) (flagsOf n fl) := by
  unfold State.svEach
  rw [List.filterMap_congr (l := List.range n) (g := fun i => some (i, { v := v i, fl := fl i : EOut })) fun i hi => ?item,
    List.filterMap_eq_map']
  case item => simp [State.svMask_of_unmasked hmask, hf i (List.mem_range.mp hi)]
  refine ⟨?_, ?_, ?_, ?_⟩
  · simp [Desc.puts]
  · simp [flagsOf, List.foldl_map]
  · simp
  · simp [Desc.puts, Desc.put]

theorem State.svEach_writes_values (hmask : o.masked = false) {n : Nat} {mi : Nat → Nat} {f : Nat → EOut} {v : Nat → Nat}
    (hf : ∀ i, i < n → f i = { v := v i }) : (s.svEach t o n mi f).Writes (o.d.puts n v) 0 :=
  flagsOf_zero n ▸ State.svEach_writes hmask (fl := fun _ => 0) hf

end

/-! ### What each instruction writes (R127–R138) -/

section
variable {s : State} {t : Nat} {o : SvOp} (hmask : o.masked = false) (hclean : s.poisonWord = [])
include hmask hclean

section
variable {code : Nat} (hcode : o.code = code)
include hcode

theorem State.svCompute_arith_float (hle : code ≤ 0x09) (hty : tyFlt o.s1.ety = true) :
    (s.svCompute t o).Writes
      (o.d.puts o.vl fun i => ((tyFmt o.s1.ety).arith code (s.elem t o.s1 i).1 (if o.uses2 then (s.elem t o.s2 i).1 else 0)
        (if o.uses3 then (s.elem t o.s3 i).1 else 0)).1)
      (flagsOf o.vl fun i => ((tyFmt o.s1.ety).arith code (s.elem t o.s1 i).1 (if o.uses2 then (s.elem t o.s2 i).1 else 0)
        (if o.uses3 then (s.elem t o.s3 i).1 else 0)).2) := by
  unfold State.svCompute
  dsimp only
  rw [hcode, if_neg (by omega), if_pos hle]
  exact State.svEach_writes hmask fun i _ => by simp [hty, apply_ite, State.elem_clean hclean]

theorem State.svCompute_arith_int (hle : code ≤ 0x09) (hty : tyFlt o.s1.ety = false) :
    (s.svCompute t o).Writes
      (o.d.puts o.vl fun i => intArith o.s1.ety code (s.elem t o.s1 i).1 (if o.uses2 then (s.elem t o.s2 i).1 else 0)
        (if o.uses3 then (s.elem t o.s3 i).1 else 0) (Config.freeValue (s.freeCount + i))) 0 := by
  unfold State.svCompute
  dsimp only
  rw [hcode, if_neg (by omega), if_pos hle]
  exact State.svEach_writes_values hmask fun i _ => by simp [hty, apply_ite, State.elem_clean hclean]

theorem State.svCompute_bitwise (hlow : 0x10 ≤ code) (hle : code ≤ 0x17) :
    (s.svCompute t o).Writes
      (o.d.puts o.vl fun i => bitwiseOn o.s1.ety code (s.elem t o.s1 i).1 (if o.uses2 then (s.elem t o.s2 i).1 else 0)) 0 := by
  unfold State.svCompute
  dsimp only
  rw [hcode, if_neg (by omega), if_neg (by omega), if_pos hle]
  exact State.svEach_writes_values hmask fun i _ => by simp [apply_ite, State.elem_clean hclean]

theorem State.svCompute_compare (hlow : 0x20 ≤ code) (hle : code ≤ 0x24) :
    (s.svCompute t o).Writes
      (o.d.puts o.vl fun i => (compareOn o.s1.ety code (s.elem t o.s1 i).1 (s.elem t o.s2 i).1).1)
      (flagsOf o.vl fun i => (compareOn o.s1.ety code (s.elem t o.s1 i).1 (s.elem t o.s2 i).1).2) := by
  unfold State.svCompute
  dsimp only
  rw [hcode, if_neg (by omega), if_neg (by omega), if_neg (by omega), if_pos hle]
  exact State.svEach_writes hmask fun i _ => by simp [State.elem_clean hclean]

theorem State.svCompute_transcend (hlow : 0x30 ≤ code) (hle : code ≤ 0x33) :
    (s.svCompute t o).Writes
      (o.d.puts o.vl fun i => ((tyFmt o.s1.ety).transcend (code - 0x30) (s.elem t o.s1 i).1).1)
      (flagsOf o.vl fun i => ((tyFmt o.s1.ety).transcend (code - 0x30) (s.elem t o.s1 i).1).2) := by
  unfold State.svCompute
  dsimp only
  rw [hcode, if_neg (by omega), if_neg (by omega), if_neg (by omega), if_neg (by omega), if_neg (by omega), if_pos hle]
  exact State.svEach_writes hmask fun i _ => by simp [State.elem_clean hclean]

end

theorem State.svCompute_mov (hcode : o.code = 0x0A) :
    (s.svCompute t o).Writes (o.d.puts o.vl fun i => (s.elem t o.s1 i).1) 0 := by
  simp only [State.svCompute, hcode, reduceIte]
  exact State.svEach_writes_values hmask fun i _ => by rw [State.elem_clean hclean]

theorem State.svCompute_select (hcode : o.code = 0x28) :
    (s.svCompute t o).Writes
      (o.d.puts o.vl fun i => if (s.elem t o.s3 i).1 % 2 = 1 then (s.elem t o.s1 i).1 else (s.elem t o.s2 i).1) 0 := by
  simp only [State.svCompute, hcode, Nat.reduceEqDiff, Nat.reduceLeDiff, reduceIte]
  exact State.svEach_writes_values hmask fun i _ => by simp [apply_ite, State.elem_clean hclean]

/-! Positions compare an index alone, so that no element is read (R131). -/

omit hclean in
theorem State.svCompute_causal (hcode : o.code = 0x60) :
    (s.svCompute t o).Writes (o.d.puts o.vl fun i => (decide (o.kpos + i ≤ o.qpos)).toNat) 0 := by
  simp only [State.svCompute, hcode, Nat.reduceEqDiff, Nat.reduceLeDiff, reduceIte]
  exact State.svEach_writes_values hmask fun i _ => rfl

omit hclean in
theorem State.svCompute_window (hcode : o.code = 0x61) :
    (s.svCompute t o).Writes (o.d.puts o.vl fun i => (decide (o.qpos < o.kpos + i + o.win ∧ o.kpos + i ≤ o.qpos)).toNat) 0 := by
  simp only [State.svCompute, hcode, Nat.reduceEqDiff, Nat.reduceLeDiff, reduceIte]
  exact State.svEach_writes_values hmask fun i _ => by rw [Bool.decide_and]

omit hclean in
theorem State.svCompute_limit (hcode : o.code = 0x62) :
    (s.svCompute t o).Writes (o.d.puts o.vl fun i => (decide (o.kpos + i < o.klim)).toNat) 0 := by
  simp only [State.svCompute, hcode, Nat.reduceEqDiff, Nat.reduceLeDiff, reduceIte]
  exact State.svEach_writes_values hmask fun i _ => rfl

omit hclean in
theorem State.svCompute_posid (hcode : o.code = 0x63) : (s.svCompute t o).Writes (o.d.puts o.vl fun i => o.kpos + i) 0 := by
  simp only [State.svCompute, hcode, Nat.reduceEqDiff, Nat.reduceLeDiff, reduceIte]
  exact State.svEach_writes_values hmask fun i _ => rfl

theorem State.svCompute_perm (hcode : o.code = 0x70)
    (hin : ∀ i, i < o.vl → 0 ≤ signedOf 32 (s.elem t o.s2 i).1 ∧ signedOf 32 (s.elem t o.s2 i).1 < o.s1.count) :
    (s.svCompute t o).Writes (o.d.puts o.vl fun i => (s.elem t o.s1 (signedOf 32 (s.elem t o.s2 i).1).toNat).1) 0 := by
  simp only [State.svCompute, hcode, Nat.reduceEqDiff, Nat.reduceLeDiff, reduceIte]
  exact State.svEach_writes_values hmask fun i hi => by simp [hin i hi, State.elem_clean hclean]

theorem State.svCompute_shuf (hcode : o.code = 0x71) (hin : ∀ i, i < o.vl → shufIndex o.shuf i < o.vl) :
    (s.svCompute t o).Writes (o.d.puts o.vl fun i => (s.elem t o.s1 (shufIndex o.shuf i)).1) 0 := by
  simp only [State.svCompute, hcode, Nat.reduceEqDiff, Nat.reduceLeDiff, reduceIte]
  exact State.svEach_writes_values hmask fun i hi => by simp [hin i hi, State.elem_clean hclean]

theorem State.svCompute_pack (hcode : o.code = 0x72) :
    (s.svCompute t o).Writes
      (o.d.puts (2 * o.vl) fun i => if i % 2 = 0 then (s.elem t o.s1 (i / 2)).1 else (s.elem t o.s2 (i / 2)).1) 0 := by
  simp only [State.svCompute, hcode, Nat.reduceEqDiff, Nat.reduceLeDiff, reduceIte]
  exact State.svEach_writes_values hmask fun i _ => by simp [apply_ite, State.elem_clean hclean]

theorem State.svCompute_unpke (hcode : o.code = 0x73) :
    (s.svCompute t o).Writes (o.d.puts o.vl fun i => (s.elem t o.s1 (2 * i)).1) 0 := by
  simp only [State.svCompute, hcode, Nat.reduceEqDiff, Nat.reduceLeDiff, reduceIte]
  exact State.svEach_writes_values hmask fun i _ => by simp [State.elem_clean hclean]

theorem State.svCompute_unpko (hcode : o.code = 0x74) :
    (s.svCompute t o).Writes (o.d.puts o.vl fun i => (s.elem t o.s1 (2 * i + 1)).1) 0 := by
  simp only [State.svCompute, hcode, Nat.reduceEqDiff, Nat.reduceLeDiff, reduceIte]
  exact State.svEach_writes_values hmask fun i _ => by simp [State.elem_clean hclean]

theorem State.svCompute_cvt (hcode : o.code = 0x80) :
    (s.svCompute t o).Writes
      (o.d.puts o.vl fun i => (convertOn o.s1.ety o.d.ety (s.elem t o.s1 i).1 o.sat (if o.shifts then o.shift else 0)).1)
      (flagsOf o.vl fun i => (convertOn o.s1.ety o.d.ety (s.elem t o.s1 i).1 o.sat (if o.shifts then o.shift else 0)).2) := by
  simp only [State.svCompute, hcode, Nat.reduceEqDiff, Nat.reduceLeDiff, reduceIte]
  exact State.svEach_writes hmask fun i _ => by rw [State.elem_clean hclean]

/-! ### Reductions (R136) and the online-softmax step (R130) -/

theorem State.svLive_clean (t : Nat) : s.svLive t o = (List.range o.vl).map fun i => some (s.elem t o.s1 i).1 := by
  simp [State.svLive, State.svMask_of_unmasked hmask, State.elem_clean hclean]

theorem State.svPoisoned_clean (t : Nat) : s.svPoisoned t o = false := by
  simp [State.svPoisoned, State.svMask_of_unmasked hmask, State.elem_clean hclean]

theorem State.svReduce_writes :
    (s.svReduce t o).Writes
      [o.d.put 0 ((reduceOn o (s.elem t o.s2 0).1 (signedOf 16 (if o.xpSum then (s.elem t o.s3 0).1 else 0))
        ((List.range o.vl).map fun i => some (s.elem t o.s1 i).1)).1, false)]
      (reduceOn o (s.elem t o.s2 0).1 (signedOf 16 (if o.xpSum then (s.elem t o.s3 0).1 else 0))
        ((List.range o.vl).map fun i => some (s.elem t o.s1 i).1)).2 := by
  have hpoison : (s.svPoisoned t o || (s.elem t o.s2 0).2 || (if o.xpSum then s.elem t o.s3 0 else (0, false)).2) = false := by
    simp [State.svPoisoned_clean hmask hclean, State.elem_clean hclean, apply_ite]
  unfold State.svReduce
  dsimp only
  rw [State.svLive_clean hmask hclean, hpoison, apply_ite Prod.fst]
  exact ⟨rfl, rfl, rfl, by simp [Desc.put]⟩

theorem State.svCompute_reduce {code : Nat} (hcode : o.code = code) (hlow : 0x40 ≤ code) (hle : code ≤ 0x43) :
    (s.svCompute t o).Writes
      [o.d.put 0 ((reduceOn o (s.elem t o.s2 0).1 (signedOf 16 (if o.xpSum then (s.elem t o.s3 0).1 else 0))
        ((List.range o.vl).map fun i => some (s.elem t o.s1 i).1)).1, false)]
      (reduceOn o (s.elem t o.s2 0).1 (signedOf 16 (if o.xpSum then (s.elem t o.s3 0).1 else 0))
        ((List.range o.vl).map fun i => some (s.elem t o.s1 i).1)).2 := by
  unfold State.svCompute
  dsimp only
  rw [hcode, if_neg (by omega), if_neg (by omega), if_neg (by omega), if_neg (by omega), if_neg (by omega), if_neg (by omega),
    if_pos hle]
  exact State.svReduce_writes hmask hclean

theorem State.svCompute_smx (hcode : o.code = 0x50) :
    (s.svCompute t o).Writes (s.svSmx t o).puts (s.svSmx t o).flags := by
  simp only [State.svCompute, hcode, Nat.reduceEqDiff, Nat.reduceLeDiff, reduceIte]
  have hpoison : (s.svPoisoned t o || (s.elems t { o.s2 with stride := 4 } 4).any (·.2)) = false := by
    simp [State.svPoisoned_clean hmask hclean, State.elems, State.elem_clean hclean]
  refine ⟨rfl, rfl, rfl, ?_⟩
  unfold State.svSmx
  dsimp only
  rw [hpoison]
  simp only [Desc.put, Bool.false_and, List.forall_mem_append, List.forall_mem_map, List.forall_mem_cons, List.not_mem_nil,
    false_imp_iff, implies_true, and_true]

end

end Sys2Proof.Machine
end

section
/-! PROOFS. Stream instructions: elements one by one, reductions, positions, permutations and conversion (spec/05_stream_unit.md). -/
namespace Sys2Proof.Machine

/-! ### Codes of the rows (R124) -/

theorem arithRows_code : ∀ r ∈ arithRows, r.2 ≤ 0x09 := by decide

theorem bitRows_code : ∀ r ∈ bitRows, 0x10 ≤ r.2 ∧ r.2 ≤ 0x17 := by decide

theorem cmpRows_code : ∀ r ∈ cmpRows, 0x20 ≤ r.2 ∧ r.2 ≤ 0x24 := by decide

theorem transRows_code : ∀ r ∈ transRows, 0x30 ≤ r.2 ∧ r.2 ≤ 0x33 := by decide

theorem reduceRows_code : ∀ r ∈ reduceRows, 0x40 ≤ r.2 ∧ r.2 ≤ 0x43 := by decide

/-! ### What the rows write -/

/-- Settles O22: each row executes at once as its stream operation, which writes its elements one by one. -/
theorem streamElements : Obligations.StreamElements := by
  unfold Obligations.StreamElements
  intro t w s o a b c ho hplain ha hb hc
  subst ho ha hb hc
  obtain ⟨hmask, hclean, hwatch⟩ := hplain
  refine ⟨fun r hr hruns hty => ?_, fun r hr hruns hty => ?_, fun hruns => ?_, fun r hr hruns => ?_, fun r hr hruns => ?_,
    fun hruns => ?_, fun r hr hruns => ?_⟩
  · have hle := arithRows_code r hr
    exact effect_stream (exec_streamRow r (by simp [streamRows, hr]) t w s) hruns (by omega) hwatch
      (State.svCompute_arith_float hmask hclean hruns.code_eq hle hty)
  · have hle := arithRows_code r hr
    exact effect_stream (exec_streamRow r (by simp [streamRows, hr]) t w s) hruns (by omega) hwatch
      (State.svCompute_arith_int hmask hclean hruns.code_eq hle hty)
  · exact effect_stream rfl hruns (by decide) hwatch (State.svCompute_mov hmask hclean hruns.code_eq)
  · obtain ⟨hlow, hle⟩ := bitRows_code r hr
    exact effect_stream (exec_streamRow r (by simp [streamRows, hr]) t w s) hruns (by omega) hwatch
      (State.svCompute_bitwise hmask hclean hruns.code_eq hlow hle)
  · obtain ⟨hlow, hle⟩ := cmpRows_code r hr
    exact effect_stream (exec_streamRow r (by simp [streamRows, hr]) t w s) hruns (by omega) hwatch
      (State.svCompute_compare hmask hclean hruns.code_eq hlow hle)
  · exact effect_stream rfl hruns (by decide) hwatch (State.svCompute_select hmask hclean hruns.code_eq)
  · obtain ⟨hlow, hle⟩ := transRows_code r hr
    exact effect_stream (exec_streamRow r (by simp [streamRows, hr]) t w s) hruns (by omega) hwatch
      (State.svCompute_transcend hmask hclean hruns.code_eq hlow hle)

/-- Settles O23: a reduction and the online-softmax step write their own result, and every other row its elements one by one. -/
theorem streamShapes : Obligations.StreamShapes := by
  unfold Obligations.StreamShapes
  intro t w s o a ho hplain ha
  subst ho ha
  obtain ⟨hmask, hclean, hwatch⟩ := hplain
  refine ⟨fun r hr hruns => ?_, fun hruns => ?_, fun hruns => ?_, fun hruns => ?_, fun hruns => ?_, fun hruns => ?_,
    fun hruns hin => ?_, fun hruns hin => ?_, fun hruns => ?_, fun hruns => ?_, fun hruns => ?_, fun hruns => ?_⟩
  · obtain ⟨hlow, hle⟩ := reduceRows_code r hr
    exact effect_stream (exec_streamRow r (by simp [streamRows, hr]) t w s) hruns (by omega) hwatch
      (State.svCompute_reduce hmask hclean hruns.code_eq hlow hle)
  · exact effect_stream rfl hruns (by decide) hwatch (State.svCompute_smx hmask hclean hruns.code_eq)
  · exact effect_stream rfl hruns (by decide) hwatch (State.svCompute_causal hmask hruns.code_eq)
  · exact effect_stream rfl hruns (by decide) hwatch (State.svCompute_window hmask hruns.code_eq)
  · exact effect_stream rfl hruns (by decide) hwatch (State.svCompute_limit hmask hruns.code_eq)
  · exact effect_stream rfl hruns (by decide) hwatch (State.svCompute_posid hmask hruns.code_eq)
  · exact effect_stream rfl hruns (by decide) hwatch (State.svCompute_perm hmask hclean hruns.code_eq hin)
  · exact effect_stream rfl hruns (by decide) hwatch (State.svCompute_shuf hmask hclean hruns.code_eq hin)
  · exact effect_stream rfl hruns (by decide) hwatch (State.svCompute_pack hmask hclean hruns.code_eq)
  · exact effect_stream rfl hruns (by decide) hwatch (State.svCompute_unpke hmask hclean hruns.code_eq)
  · exact effect_stream rfl hruns (by decide) hwatch (State.svCompute_unpko hmask hclean hruns.code_eq)
  · exact effect_stream rfl hruns (by decide) hwatch (State.svCompute_cvt hmask hclean hruns.code_eq)

end Sys2Proof.Machine
end

section
/-! PROOFS. Stream control and the conversion unit (spec/05_stream_unit.md). -/
namespace Sys2Proof.Machine

/-! ### Control instructions (R120, R121, R123) -/

theorem wRd_lt (w : Nat) : wRd w < 32 := Nat.mod_lt _ (by decide)

/-- `vl` and the destination take the length, cut to VLMAX (R121). -/
theorem State.setVl_spec (s : State) (t w n : Nat) :
    (s.setVl t w n).csr t 0x800 = min n (65536 / 2 ^ bits w 21 20) ∧
      xregWrite s (s.setVl t w n) t (wRd w) (min n (65536 / 2 ^ bits w 21 20)) ∧
      { s.setVl t w n with csrs := s.csrs, xregs := s.xregs } = s := by
  have hmax : 65536 / 2 ^ bits w 21 20 ≤ 65536 := Nat.div_le_self _ _
  refine ⟨?_, xregWrite_setX t _ ⟨wRd w, wRd_lt w⟩ rfl, ?_⟩
  · unfold State.setVl
    rw [State.csr_setX, State.csr_setCsr_self]
    exact Nat.mod_eq_of_lt (((min_le_right _ _).trans hmax).trans_lt (by decide))
  · exact (congrArg (fun u : State => { u with csrs := s.csrs }) (State.xregsOnly_setX (s.setCsr t 0x800 _) t (wRd w) _) :)

/-- The low bits of a word just put read back, in a CSR's 64 bits. -/
theorem bits_putBits_low {hi : Nat} (h : hi < 64) (w v : Nat) : bits (putBits w hi 0 v % 2 ^ 64) hi 0 = v % 2 ^ (hi + 1) := by
  have hdvd : 2 ^ (hi + 1) ∣ 2 ^ 64 := Nat.pow_dvd_pow 2 h
  have hrest : (w - w % 2 ^ (hi + 1)) % 2 ^ (hi + 1) = 0 := Nat.mod_eq_zero_of_dvd (Nat.dvd_sub_mod w)
  simp only [bits, putBits, pow_zero, Nat.div_one, Nat.mul_one, Nat.sub_zero, Nat.mod_mod_of_dvd _ hdvd]
  rw [Nat.add_mod, hrest, Nat.zero_add, Nat.mod_mod, Nat.mod_mod]

/-- A descriptor of unpacked elements and a stride advances by `k` elements (R120). -/
theorem State.advance1_spec {s : State} {t n : Nat} (hpacked : tyPacked (s.desc t n).ety = false) (hstride : (s.desc t n).stride ≠ 0)
    (k : Nat) (packed : Bool) :
    ((s.advance1 t n k packed).desc t n).base = wrapTo 19 (((s.desc t n).base : Int) + k * (s.desc t n).stride) ∧
      ((s.advance1 t n k packed).desc t n).count = (s.desc t n).count - k ∧ { s.advance1 t n k packed with csrs := s.csrs } = s := by
  have hcount : (s.desc t n).count < 2 ^ 17 := Nat.mod_lt _ (by decide)
  have hnext : 0x811 + 2 * n = 0x810 + 2 * n + 1 := by omega
  unfold State.advance1
  dsimp only
  rw [if_neg (by simp [hpacked]), if_neg hstride]
  refine ⟨?_, ?_, rfl⟩
  · simp only [State.desc, State.csrBits]
    rw [State.csr_setCsr_ne _ _ _ _ (by omega), State.csr_setCsr_self, bits_putBits_low (by decide), Nat.mod_eq_of_lt (wrapTo_lt 19 _)]
  · change bits (State.csr _ t (0x811 + 2 * n)) 16 0 = _
    rw [hnext, State.csr_setCsr_self, bits_putBits_low (by decide), Nat.mod_eq_of_lt (by omega)]

/-- A mask of one bit names one descriptor. -/
theorem named_of_two_pow : ∀ n, n < 8 → ((List.range 8).filter fun i => bitAt (2 ^ n) i) = [n] := by decide

section
variable {s : State} {t w : Nat}

theorem State.runSvControl_setvl (h : svControlOk w 0 = true) (x1 : Nat) : s.runSvControl t 0 w x1 = some (s.setVl t w x1) := by
  simp [State.runSvControl, h]

theorem State.runSvControl_setvlc (h : svControlOk w 1 = true) :
    s.runSvControl t 1 w 0 = some (s.setVl t w (s.desc t (bits w 17 15)).count) := by
  simp [State.runSvControl, h]

theorem State.runSvControl_adv {n : Nat} (hn : n < 8) (hmask : bits w 22 15 = 2 ^ n) (h : svControlOk w 2 = true) :
    s.runSvControl t 2 w 0 = some (s.advance1 t n (s.csrBits t 0x800 16 0) true) := by
  simp [State.runSvControl, h, hmask, named_of_two_pow n hn]

theorem State.runSvControl_adv1 {n : Nat} (hn : n < 8) (hmask : bits w 22 15 = 2 ^ n) (h : svControlOk w 3 = true) :
    s.runSvControl t 3 w 0 = some (s.advance1 t n 1 false) := by
  simp [State.runSvControl, h, hmask, named_of_two_pow n hn]

theorem State.runSvControl_fwait (h : svControlOk w 4 = true) (hempty : (s.tile t).fcuq = []) : s.runSvControl t 4 w 0 = some s := by
  simp [State.runSvControl, h, hempty]

end

/-! ### The conversion unit (R134, R135) -/

theorem State.runSv_fcu {s : State} {t code w : Nat} (hfcu : svFcu code = true) (hrow : svCode w = code) (hopcode : bits w 6 0 = 0x2B)
    (hcheck : (s.svOp t w).check (s.dqEn t) = none) (hroom : (s.tile t).fcuq.length < 4) (hserves : s.serves (flaskOf t) = true) :
    s.runSv t code w = some (s.setTile t { s.tile t with
      fcuq := (s.tile t).fcuq ++ [{ (s.svOp t w).request (s.tile t).nextSeq with since := s.now }],
      nextSeq := (s.tile t).nextSeq + 1 }) := by
  have hfull : ¬ 4 ≤ (s.tile t).fcuq.length := by omega
  have harrive := fun x : Tile => State.arrive_of_serves (s := s.setTile t x) (f := flaskOf t) hserves
  simp [State.runSv, hrow, hopcode, hcheck, hfcu, hfull, harrive]

/-- A completed request leaves its queue, and memory holds its result. -/
theorem State.endFcu_spec {s : State} {t : Nat} {q : FcuReq} (hready : (s.tile t).fcuReady = some q) (hup : s.engineUp t = true)
    (hwatch : s.unwatched) :
    ((s.endFcu t).tile t).fcuq = (s.tile t).fcuq.filter (fun r => r.seq ≠ q.seq) ∧
      (s.endFcu t).mem = (s.fcuCompute t q.sv).puts.foldl (fun m p => putBitsAt m (storeAt t) p) s.mem := by
  obtain ⟨tags, hwrite⟩ := State.svWrite_spec hwatch t q.sv (s.fcuCompute t q.sv)
  have hmarks : unitMarksOnly (s.placed t (s.fcuCompute t q.sv).puts tags) ((s.fcuDo t q).tallyFcu t q) :=
    hwrite.trans (unitMarksOnly_tallyFcu _ _ _)
  unfold State.endFcu
  rw [hready]
  dsimp only
  rw [if_pos hup, State.tile_setTile_self, State.setTile_mem, hmarks.tile_eq, hmarks.mem_eq, State.tile_placed]
  exact ⟨rfl, rfl⟩

theorem State.runCore_svStatus {s : State} {t : Nat} (h : (s.tile t).fcuq = []) (stat : Bool) (rd : Nat) :
    s.runCore t (.svStatus stat 0 rd) = some (s.setX t rd (if stat then s.csr t 0x803 else s.csr t 0x802)) := by
  simp [State.runCore, State.runStatus, h]

theorem exec_svStatusRead {s : State} {t : TileId} (h : (s.tile t.val).fcuq = []) (stat : Bool) (rd : Reg) :
    exec (.svStatusRead t stat rd) s = .next (s.issue' t.val (.svStatus stat 0 rd.val)) := by
  change Host.Outcome.next (s.issue' t.val (.svStatus stat (s.tile t.val).fcuq.length rd.val)) = _
  rw [h, List.length_nil]

theorem effect_svStatusRead {s : State} {t : TileId} (hready : s.ready t.val) (h : (s.tile t.val).fcuq = []) (stat : Bool) (rd : Reg) :
    Effect (.svStatusRead t stat rd) s fun u =>
      xregWrite s u t.val rd.val (if stat then s.csr t.val 0x803 else s.csr t.val 0x802) ∧ { u with xregs := s.xregs } = s :=
  effect_of_issue (exec_svStatusRead h stat rd) hready (State.runCore_svStatus h stat rd.val)
    ⟨xregWrite_setX _ _ _ rfl, State.xregsOnly_setX _ _ _ _⟩

theorem fcuRows_fcu : ∀ r ∈ fcuRows, svFcu r.2 = true ∧ r.2 < 0x1F0 := by decide

/-- Settles O24: control instructions change `vl` or a descriptor, and a request joins its tile's queue until its result is written. -/
theorem streamControl : Obligations.StreamControl := by
  unfold Obligations.StreamControl
  intro t w s hready
  refine ⟨fun x1 hok => ?_, fun hok => ?_, fun n hn hmask hpacked hstride => ⟨fun hok => ?_, fun hok => ?_⟩, fun hok hempty => ?_,
    fun r hr hrow hopcode hcheck hroom hserves => ?_, fun q hq hup hwatch => ?_,
    fun rd hempty => ⟨effect_svStatusRead hready hempty false rd, effect_svStatusRead hready hempty true rd⟩⟩
  · exact effect_of_issue rfl hready (State.runSvControl_setvl hok _) (s.setVl_spec _ _ _)
  · exact effect_of_issue rfl hready (State.runSvControl_setvlc hok) (s.setVl_spec _ _ _)
  · exact effect_of_issue rfl hready (State.runSvControl_adv hn hmask hok) (State.advance1_spec hpacked hstride _ _)
  · have hadvance := State.advance1_spec hpacked hstride 1 false
    rw [Nat.cast_one, one_mul] at hadvance
    exact effect_of_issue rfl hready (State.runSvControl_adv1 hn hmask hok) hadvance
  · exact congrArg Host.Outcome.next (State.issue'_of_ready hready (State.runSvControl_fwait hok hempty))
  · obtain ⟨hfcu, hcode⟩ := fcuRows_fcu r hr
    have hrun := (State.runCore_sv s t.val w.toNat hcode).trans (State.runSv_fcu hfcu hrow hopcode hcheck hroom hserves)
    exact effect_of_issue (exec_streamRow r (by simp [streamRows, hr]) t w s) hready hrun ⟨State.tile_setTile_self _ _ _, rfl⟩
  · exact ⟨s.endFcu t.val, rfl, State.endFcu_spec hq hup hwatch⟩

end Sys2Proof.Machine
end

section
/-! SUPPORT. Rules of sync counters and their wait entries (spec/06_counters_stealing_watch.md): what a counter row that reaches its counter
does, and what the end of a wait leaves alone. -/
namespace Sys2Proof.Machine

/-! ### A counter's value and a result register -/

theorem counterOnly_setCounter {s u : State} {id value cap : Nat} (h : u.counters = (s.setCounter id ⟨value, cap⟩).counters) :
    counterOnly s u id value cap := by
  have hget : ∀ z, u.counter z = (s.setCounter id ⟨value, cap⟩).counter z := fun z => by rw [State.counter, h, State.counter]
  exact ⟨(hget id).trans (State.counter_setCounter_self _ _ _),
    fun z hz => (hget z).trans (mapGet_put_ne _ _ _ _ (Ne.symm hz))⟩

theorem xregWrite_setX_of_lt {s w : State} (c v : Nat) {rd : Nat} (hrd : rd < 32) (h : w.xregs = s.xregs) :
    xregWrite s (w.setX c rd v) c rd v :=
  xregWrite_setX c v ⟨rd, hrd⟩ h

theorem xregWrite_event {s u : State} {c rd v : Nat} (h : xregWrite s u c rd v) (page unit : Nat) (cls : Option Nat)
    (code subject value : Nat) : xregWrite s (u.event page unit cls code subject value) c rd v := by
  simp only [xregWrite, State.xreg_event]
  exact h

theorem xregWrite_resume {s w : State} (c v : Nat) {rd : Nat} (hrd : rd < 32) (h : w.xregs = s.xregs) :
    xregWrite s (w.resume c rd v) c rd v :=
  (xregWrite_setX_of_lt c v hrd h :)

theorem State.exists_setX_eq (s : State) (c r v : Nat) : ∃ m, s.setX c r v = { s with xregs := m } := by
  unfold State.setX
  split
  · exact ⟨_, rfl⟩
  · exact ⟨_, rfl⟩

theorem State.blocked_block (s : State) (c : Nat) (b : Blocked) : ((s.block c b).core c).blocked = b := by
  rw [State.block, State.core_setCore_self]

theorem State.xregsCoresOnly_resume (s : State) (c rd v : Nat) : { s.resume c rd v with xregs := s.xregs, cores := s.cores } = s :=
  (congrArg (fun u : State => { u with cores := s.cores }) (State.xregsOnly_setX s c rd v) :)

theorem State.counters_resume (s : State) (c rd v : Nat) : (s.resume c rd v).counters = s.counters :=
  (congrArg State.counters (State.xregsCoresOnly_resume s c rd v) :)

theorem recordsOnly_waitBegin (s : State) (c subject n : Nat) : recordsOnly s (s.waitBegin c subject n) :=
  recordsOnly_event _ _ _ _ _ _ _

/-! ### Entries judged (R152) -/

theorem State.settle_of_unwaited {s : State} {id : Nat} (h : s.unwaited id) : s.settle id = s := by
  rw [State.settle]
  cases s.waits.length with
  | zero => rfl
  | succ fuel => rw [State.satisfy, show s.waits.find? (fun e => e.id = id) = none from h]

theorem State.counterAdd_of_unwaited {s : State} {id : Nat} (h : s.unwaited id) (n : Nat) :
    s.counterAdd id n = s.setCounter id ⟨(s.counter id).value + n, (s.counter id).cap⟩ :=
  State.settle_of_unwaited (s := s.setCounter id _) h

/-- An init finds no entry to withdraw where none waits on its counter. -/
theorem State.counterInit_of_unwaited {s : State} {id : Nat} (h : s.unwaited id) (value cap : Nat) :
    s.counterInit id value cap = s.setCounter id ⟨value, cap⟩ := by
  have hother : ∀ e ∈ s.waits, ¬ e.id = id := by simpa [State.unwaited, List.find?_eq_none] using h
  have hgone : s.waits.filter (fun e => e.id = id && (cap = 0 || cap < e.n)) = [] := by
    simpa using fun e he hid => absurd hid (hother e he)
  have hkept : s.waits.filter (fun e => !(e.id = id && (cap = 0 || cap < e.n))) = s.waits := by
    simpa using fun e he => Or.inl (hother e he)
  unfold State.counterInit
  simp only [State.setCounter_waits, hgone, hkept, State.forEach_nil]
  exact State.settle_of_unwaited (s := s.setCounter id _) h

/-! ### A row that reaches its counter (R146–R149) -/

section
variable {s : State} {c code w id : Nat}

theorem State.runCore_counter (h : s.counterReach c code w id) (hcode : code < 8) (x2 : Nat) :
    s.runCore c (.sync code w id x2) = some (s.counterOp c code (wRd w) id x2) := by
  obtain ⟨-, hok, hid, hgrant, hinit, hpost, hserves, hmoving⟩ := h
  have hlate : (if code = 0 then s.lateFault c else none) = none := by
    split
    next hzero => exact State.lateFault_of_none (hpost hzero).2
    next => rfl
  have hwait : (code = 0 && !s.coreQuiet c) = false := by simpa using fun hzero => (hpost hzero).1
  have hfault : (2 ^ 18 ≤ id || !s.counterGrant c id || (code = 4 && s.limited c && 56 ≤ id % 64)) = false := by
    simpa [hgrant] using And.intro hid fun hfour hlimited => absurd (hinit hfour) (ne_false_of_eq_true hlimited)
  change s.runSync c code w id x2 = _
  unfold State.runSync State.runCounter
  simp only [hok, hcode, hfault, hwait, hlate, hserves, hmoving, State.arrive_of_serves hserves]
  rfl

/-- A counter row answers its operation where it reaches its counter. -/
theorem effect_counter {i : Instr} {x2 : Nat} {P : State → Prop} (hexec : exec i s = .next (s.issue' c (.sync code w id x2)))
    (h : s.counterReach c code w id) (hcode : code < 8) (hP : P (s.counterOp c code (wRd w) id x2)) : Effect i s P :=
  have ⟨hready, _⟩ := h
  effect_of_issue hexec hready (State.runCore_counter h hcode x2) hP

end

/-! ### What each row does (R148, R152–R154) -/

section
variable {s : State} {id x2 : Nat}

/-- A post within the capacity adds, and a tile core's post is recorded. -/
theorem State.counterOp_post (hcap : (s.counter id).cap ≠ 0) (hroom : (s.counter id).value + x2 % 2 ^ 32 ≤ (s.counter id).cap)
    (hfree : s.unwaited id) (c rd : Nat) :
    recordsOnly (s.setCounter id ⟨(s.counter id).value + x2 % 2 ^ 32, (s.counter id).cap⟩) (s.counterOp c 0 rd id x2) := by
  simp only [State.counterOp, hcap, not_lt.mpr hroom, State.counterAdd_of_unwaited hfree, OfNat.zero_ne_ofNat, if_false]
  split
  · exact recordsOnly_event _ _ _ _ _ _ _
  · rfl

theorem State.counterOp_take (hcap : (s.counter id).cap ≠ 0) (henough : x2 % 2 ^ 32 ≤ (s.counter id).value) (c rd : Nat) :
    s.counterOp c 1 rd id x2 =
      (s.setCounter id ⟨(s.counter id).value - x2 % 2 ^ 32, (s.counter id).cap⟩).setX c rd (s.counter id).value := by
  simp [State.counterOp, hcap, henough, -Nat.reducePow]

theorem State.counterOp_read (hcap : (s.counter id).cap ≠ 0) (c rd : Nat) :
    s.counterOp c 3 rd id x2 = s.setX c rd (s.counter id).value := by
  simp [State.counterOp, hcap]

theorem State.counterOp_init (hle : x2 % 2 ^ 32 ≤ x2 / 2 ^ 32) (hfree : s.unwaited id) (c rd : Nat) :
    s.counterOp c 4 rd id x2 = s.setCounter id ⟨x2 % 2 ^ 32, x2 / 2 ^ 32⟩ := by
  simp [State.counterOp, Nat.not_lt.mpr hle, State.counterInit_of_unwaited hfree, -Nat.reducePow]

/-- The ticks after which a core's wait expires (R153); 0: never. -/
def State.waitTicks (s : State) (c : Nat) : Nat := if c < 4096 then s.csr c 0x860 % 2 ^ 48 else 0

theorem State.counterOp_wait (hcap : (s.counter id).cap ≠ 0) (hle : x2 % 2 ^ 32 ≤ (s.counter id).cap) (c rd : Nat) :
    s.counterOp c 2 rd id x2 =
      s.presentWait c id (x2 % 2 ^ 32) rd (if s.waitTicks c = 0 then none else some (s.now + s.waitTicks c)) := by
  unfold State.counterOp
  dsimp only
  rw [if_neg (by decide), if_neg hcap, if_neg (Nat.not_lt.mpr hle)]
  rfl

end

theorem State.unwaited.any_eq_false {s : State} {id : Nat} (h : s.unwaited id) : s.waits.any (fun e => e.id = id) = false := by
  simpa [State.unwaited, List.find?_eq_none] using h

theorem State.presentWait_satisfied {s : State} {id n : Nat} (henough : n ≤ (s.counter id).value)
    (hfree : s.waits.any (fun e => e.id = id) = false) (c rd : Nat) (d : Option Nat) :
    s.presentWait c id n rd d =
      (s.setCounter id ⟨(s.counter id).value - n, (s.counter id).cap⟩).resume c rd (s.counter id).value := by
  simp [State.presentWait, henough, hfree]

/-- A wait that is not satisfied takes an entry while one of the tile's 64 is free, and blocks. -/
theorem State.presentWait_blocked {s : State} {id n : Nat} (hshort : (s.counter id).value < n) (hroom : s.waitsOn (counterTile id) < 64)
    (c rd : Nat) (d : Option Nat) :
    recordsOnly (({ s with waits := s.waits ++ [⟨c, id, n, rd, d, s.now⟩] } : State).block c (.wait id n rd d))
      (s.presentWait c id n rd d) := by
  have htakes : s.presentWait c id n rd d = s.takeEntry c id n rd d := by simp [State.presentWait, Nat.not_le.mpr hshort]
  rw [htakes, State.takeEntry, if_pos hroom]
  exact recordsOnly_waitBegin _ _ _ _

end Sys2Proof.Machine
end

section
/-! PROOFS. Counter rows (spec/06_counters_stealing_watch.md). -/
namespace Sys2Proof.Machine

/-- Settles O25: each row reaches its counter as its operation, and no entry behind it is judged where none waits. -/
theorem counterRows : Obligations.CounterRows := by
  unfold Obligations.CounterRows
  rintro c w x1 x2 s id n k rfl rfl rfl
  refine ⟨fun hreach hcap hroom hfree => ?_, fun hreach hcap henough => ?_, fun hreach hcap hle henough hfree => ?_,
    fun hreach hcap hle hshort hentry => ?_, fun hreach hcap => ?_, fun hreach hle hfree => ?_⟩
  · have hpost := State.counterOp_post hcap hroom hfree (coreIx c) (wRd w.toNat)
    have hcounters := (congrArg State.counters hpost :)
    refine effect_counter rfl hreach (by decide) ⟨counterOnly_setCounter hcounters, ?_⟩
    rw [hcounters]
    exact hpost
  · refine effect_counter rfl hreach (by decide) ?_
    rw [State.counterOp_take hcap henough]
    exact ⟨counterOnly_setCounter (State.setX_counters _ _ _ _), xregWrite_setX_of_lt _ _ (wRd_lt _) rfl,
      (congrArg (fun u : State => { u with counters := s.counters }) (State.xregsOnly_setX (s.setCounter x1.toNat _) _ _ _) :)⟩
  · refine effect_counter rfl hreach (by decide) ?_
    rw [State.counterOp_wait hcap hle, State.presentWait_satisfied henough hfree.any_eq_false]
    exact ⟨counterOnly_setCounter (State.counters_resume _ _ _ _), xregWrite_resume _ _ (wRd_lt _) rfl, State.blocked_block _ _ _,
      (congrArg (fun u : State => { u with counters := s.counters }) (State.xregsCoresOnly_resume (s.setCounter x1.toNat _) _ _ _) :)⟩
  · refine effect_counter rfl hreach (by decide) ?_
    rw [State.counterOp_wait hcap hle]
    have hblock := State.presentWait_blocked hshort hentry (coreIx c) (wRd w.toNat)
      (if s.waitTicks (coreIx c) = 0 then none else some (s.now + s.waitTicks (coreIx c)))
    refine ⟨(congrArg State.counters hblock :), (congrArg State.xregs hblock :), _, ?_, (congrArg State.waits hblock :), ?_⟩
    · have hcores := (congrArg State.cores hblock :)
      rw [State.core, hcores]
      exact State.blocked_block _ _ _
    · rw [← State.waitTicks]
      split <;> simp [*]
  · refine effect_counter rfl hreach (by decide) ?_
    rw [State.counterOp_read hcap]
    exact ⟨xregWrite_setX_of_lt _ _ (wRd_lt _) rfl, State.xregsOnly_setX _ _ _ _⟩
  · refine effect_counter rfl hreach (by decide) ?_
    rw [State.counterOp_init hle hfree]
    exact ⟨counterOnly_setCounter rfl, rfl, rfl⟩

end Sys2Proof.Machine
end

section
/-! PROOFS. Blocked waits and barriers (spec/06_counters_stealing_watch.md). -/
namespace Sys2Proof.Machine

/-! ### Held and expired waits (R152, R153) -/

section
variable {s : State} {c id n rd : Nat}

theorem State.retryWait_of_held {d : Option Nat} (h : (s.core c).blocked = .waitHeld id n rd d)
    (hroom : s.waitsOn (counterTile id) < 64) : s.retryWait c = s.presentWait c id n rd d := by
  simp [State.retryWait, h, hroom]

theorem State.timeoutWait_of_waiting {d : Nat} (h : (s.core c).blocked = .wait id n rd (some d)) :
    s.timeoutWait c = (s.withdraw c).resume c rd (2 ^ 64 - 1) := by
  rw [State.timeoutWait, h]

theorem State.timeoutWait_of_held {d : Nat} (h : (s.core c).blocked = .waitHeld id n rd (some d)) :
    s.timeoutWait c = s.resume c rd (2 ^ 64 - 1) := by
  rw [State.timeoutWait, h]

end

theorem State.waits_resume (s : State) (c rd v : Nat) : (s.resume c rd v).waits = s.waits :=
  (congrArg State.waits (State.xregsCoresOnly_resume s c rd v) :)

theorem State.waits_waitEnd (s : State) (c subject since : Nat) : (s.waitEnd c subject since).waits = s.waits :=
  State.event_waits _ _ _ _ _ _ _

/-- Judging entries takes entries away and adds none. -/
theorem State.waits_satisfy_subset (id fuel : Nat) : ∀ s : State, (s.satisfy id fuel).waits ⊆ s.waits := by
  induction fuel with
  | zero => exact fun s => List.Subset.refl _
  | succ fuel ih =>
    intro s
    rw [State.satisfy]
    split
    · exact List.Subset.refl _
    next e _ =>
      dsimp only
      split
      · refine List.Subset.trans (ih _) ?_
        rw [State.waits_waitEnd, State.waits_resume]
        exact List.erase_subset
      · exact List.Subset.refl _

theorem State.settle_of_no_waits {s : State} (h : s.waits = []) (id : Nat) : s.settle id = s :=
  State.settle_of_unwaited (by rw [State.unwaited, h]; rfl)

/-- A core that withdraws leaves no entry of its own. -/
theorem State.core_ne_of_mem_withdraw {s : State} {c : Nat} : ∀ e ∈ (s.withdraw c).waits, e.core ≠ c := by
  refine State.forEach_keeps (P := fun u => ∀ e ∈ u.waits, e.core ≠ c) (fun x _ u hu e he => hu e ?_) _ fun e he => ?_
  · rw [← State.waits_waitEnd u c (x.id % 64) x.since]
    exact State.waits_satisfy_subset _ _ _ he
  · exact of_decide_eq_true (List.mem_filter.mp he).2

/-- The withdrawal of the only core that waits releases nothing else. -/
theorem State.withdraw_of_alone {s : State} {c : Nat} (h : ∀ e ∈ s.waits, e.core = c) :
    (s.withdraw c).counters = s.counters ∧ (s.withdraw c).xregs = s.xregs := by
  have hempty : s.waits.filter (fun e => e.core ≠ c) = [] := by simpa using h
  have hkeep := State.forEach_keeps (P := fun u => u.waits = [] ∧ u.counters = s.counters ∧ u.xregs = s.xregs)
    (l := s.waits.filter fun e => e.core = c) (g := fun e u => (u.waitEnd c (e.id % 64) e.since).settle e.id)
    fun e _ u ⟨hwaits, hcounters, hxregs⟩ => by
      rw [State.settle_of_no_waits ((State.waits_waitEnd _ _ _ _).trans hwaits)]
      exact ⟨(State.waits_waitEnd _ _ _ _).trans hwaits, (State.event_counters _ _ _ _ _ _ _).trans hcounters,
        (State.event_xregs _ _ _ _ _ _ _).trans hxregs⟩
  obtain ⟨-, hkept⟩ := hkeep { s with waits := s.waits.filter fun e => e.core ≠ c } ⟨hempty, rfl, rfl⟩
  exact hkept

/-! ### Arrivals (R156) -/

/-- The arrival bit of tile t raised in its flask's slot. -/
def State.withArrival (s : State) (t b : Nat) : State :=
  { s with arrived := mapPut 0 s.arrived (flaskOf t * 8 + b) (putBits (s.slotArrived (flaskOf t) b) (t % 16) (t % 16) 1) }

theorem State.slotArrived_withArrival (s : State) (t b : Nat) :
    (s.withArrival t b).slotArrived (flaskOf t) b = putBits (s.slotArrived (flaskOf t) b) (t % 16) (t % 16) 1 :=
  mapGet_put_self _ _ _ _

section
variable {s : State} {t b : Nat}

/-- An arrival that is not the last is counted only. -/
theorem State.countArrival_of_not_full (h : (s.withArrival t b).slotFull (s.slotFlasks (flaskOf t) b) b = false) :
    s.countArrival t b = s.withArrival t b :=
  if_pos (by rw [Bool.not_eq_true']; exact h)

/-- The last arrival of a slot of one flask releases it there. -/
theorem State.countArrival_of_last (hlevel : s.slotLevel (flaskOf t) b = 0)
    (hlast : putBits (s.slotArrived (flaskOf t) b) (t % 16) (t % 16) 1 = s.slotMembers (flaskOf t) b) :
    s.countArrival t b = (s.withArrival t b).advanceSlot (flaskOf t) b := by
  have hflasks : (s.withArrival t b).slotFlasks (flaskOf t) b = [flaskOf t] := if_pos hlevel
  have hfull : (s.withArrival t b).slotFull [flaskOf t] b = true := by
    rw [State.slotFull, List.all_cons, List.all_nil, Bool.and_true, State.slotArrived_withArrival]
    exact decide_eq_true hlast
  have hunfull : ¬(!(s.withArrival t b).slotFull ((s.withArrival t b).slotFlasks (flaskOf t) b) b) = true := by simp [hflasks, hfull]
  have hlocal : (s.withArrival t b).slotLevel (flaskOf t) b ≠ 3 := by
    rw [show (s.withArrival t b).slotLevel (flaskOf t) b = 0 from hlevel]
    decide
  have hrelease : s.countArrival t b = (s.withArrival t b).releaseSlot ((s.withArrival t b).slotFlasks (flaskOf t) b) b :=
    (if_neg hunfull).trans (if_pos hlocal)
  rw [hrelease, hflasks, State.releaseSlot, State.forEach_cons, State.forEach_nil]

end

theorem State.slotArrived_cleared (s : State) (f b : Nat) :
    ({ s with arrived := mapPut 0 s.arrived (f * 8 + b) 0 } : State).slotArrived f b = 0 := by
  rw [State.slotArrived, mapGet_put_self]

theorem unrecorded_barGen : ∀ b, b < 8 → unrecorded fdFlaskBarGen b = true := by decide

/-- A slot that advances starts its next generation with no arrival. -/
theorem State.advanceSlot_spec {s : State} {f : FlaskId} {b : Nat} (hserves : s.serves f.val = true) (hb : b < 8) :
    (s.advanceSlot f.val b).slotArrived f.val b = 0 ∧
      (s.advanceSlot f.val b).slotGen f.val b = (s.slotGen f.val b + 1) % 2 ^ 32 := by
  have hwaitEnd : ∀ (u : State) (c since : Nat), (u.waitEnd c b since).slotArrived f.val b = u.slotArrived f.val b ∧
      (u.waitEnd c b since).slotGen f.val b = u.slotGen f.val b := fun u c since =>
    ⟨by rw [State.slotArrived, State.waitEnd, State.event_arrived, State.slotArrived],
      State.getF_event_flask _ _ _ _ _ _ _ f (unrecorded_barGen b hb)⟩
  unfold State.advanceSlot
  rw [State.arrive_of_serves hserves]
  refine State.forEach_keeps (P := fun u => u.slotArrived f.val b = 0 ∧ u.slotGen f.val b = (s.slotGen f.val b + 1) % 2 ^ 32)
    (fun t _ u hu => ?_) _ ⟨State.slotArrived_cleared (s.setF _ _ _ _) _ _, ?_⟩
  · split
    next old since _ =>
      split
      · obtain ⟨harrived, hgen⟩ := hwaitEnd (u.block (f.val * 16 + t) .none) (f.val * 16 + t) since
        rw [harrived, hgen]
        exact hu
      · exact hu
    · exact hu
  · exact (State.getF_setF_self _ _ _ _ _).trans (Nat.mod_mod _ _)

/-! ### Barrier rows (R156, R157) -/

section
variable {s : State} {t w b : Nat}

theorem State.runCore_arrive (hok : syOk t 8 w = true) (hb : b < 8) (hquiet : s.coreQuiet t = true)
    (hlate : mapGet 0 s.ecrok.lateFaults t = 0) (hgood : s.slotMisuse t b true = 0) (x2 : Nat) :
    s.runCore t (.sync 8 w b x2) = some ((s.setX t (wRd w) (s.slotGen (flaskOf t) b)).countArrival t b) := by
  change s.runSync t 8 w b x2 = _
  simp [State.runSync, State.runBarrier, hok, Nat.not_le.mpr hb, hquiet, State.lateFault_of_none hlate, hgood]

theorem State.runCore_bwait (hok : syOk t 9 w = true) (hb : b < 8) (hgood : s.slotMisuse t b false = 0) (g : Nat) :
    s.runCore t (.sync 9 w b g) =
      some (if s.slotGen (flaskOf t) b ≠ g then s else (s.block t (.bwait b g s.now)).waitBegin t b g) := by
  change s.runSync t 9 w b g = _
  by_cases hgen : s.slotGen (flaskOf t) b = g <;> simp [State.runSync, State.runBarrier, hok, Nat.not_le.mpr hb, hgood, hgen]

end

theorem flaskOf_lt (t : TileId) : flaskOf t.val < 256 := by
  have ht := t.isLt
  simp only [flaskOf]
  omega

/-- Settles O26: a wait that ends leaves its entry and what others hold, and a slot's release counts its arrivals anew. -/
theorem waitsAndBarriers : Obligations.WaitsAndBarriers := by
  unfold Obligations.WaitsAndBarriers
  refine ⟨fun c s id n rd d hrd hheld hroom henough hfirst => ?_, fun c s id n rd d hrd => ⟨fun hwait => ?_, fun hheld => ?_⟩,
    fun t w x1 x2 s f b hf hb hlt hready => ?_⟩
  · refine ⟨s.retryWait (coreIx c), rfl, ?_⟩
    rw [State.retryWait_of_held hheld hroom, State.presentWait_satisfied henough hfirst]
    exact ⟨counterOnly_setCounter (State.counters_resume _ _ _ _), xregWrite_resume _ _ hrd rfl, State.blocked_block _ _ _⟩
  · refine ⟨s.timeoutWait (coreIx c), rfl, ?_⟩
    rw [State.timeoutWait_of_waiting hwait]
    obtain ⟨hresult, -⟩ := xregWrite_resume (coreIx c) (2 ^ 64 - 1) hrd (rfl : (s.withdraw (coreIx c)).xregs = _)
    refine ⟨hresult, State.blocked_block _ _ _, ?_, fun halone => ?_⟩
    · rw [State.waits_resume]
      exact State.core_ne_of_mem_withdraw
    · obtain ⟨hcounters, hxregs⟩ := State.withdraw_of_alone halone
      exact ⟨(State.counters_resume _ _ _ _).trans hcounters, xregWrite_resume _ _ hrd hxregs⟩
  · refine ⟨s.timeoutWait (coreIx c), rfl, ?_⟩
    rw [State.timeoutWait_of_held hheld]
    exact ⟨xregWrite_resume _ _ hrd rfl, State.blocked_block _ _ _, State.xregsCoresOnly_resume _ _ _ _⟩
  · subst hf hb
    refine ⟨fun hok hquiet hlate hgood => ?_, fun hok hgood => ?_⟩
    · have hrun := State.runCore_arrive hok hlt hquiet hlate hgood x2.toNat
      have hresult := xregWrite_setX_of_lt (s := s) t.val (s.slotGen (flaskOf t.val) x1.toNat) (wRd_lt w.toNat) rfl
      obtain ⟨m, hm⟩ := s.exists_setX_eq t.val (wRd w.toNat) (s.slotGen (flaskOf t.val) x1.toNat)
      rw [hm] at hrun hresult
      refine ⟨fun hpart => ?_, fun hlevel hlast hserves => ?_⟩
      · rw [State.countArrival_of_not_full (s := { s with xregs := m }) hpart] at hrun
        exact effect_of_issue rfl hready hrun ⟨hresult, State.slotArrived_withArrival _ _ _, rfl⟩
      · rw [State.countArrival_of_last (s := { s with xregs := m }) hlevel hlast] at hrun
        exact effect_of_issue rfl hready hrun (State.advanceSlot_spec (f := ⟨_, flaskOf_lt t⟩) hserves hlt)
    · have hrun := State.runCore_bwait hok hlt hgood x2.toNat
      refine ⟨fun hpassed => ?_, fun hcurrent => ?_⟩
      · rw [if_pos hpassed] at hrun
        exact congrArg Host.Outcome.next (State.issue'_of_ready hready hrun)
      · rw [if_neg (not_not.mpr hcurrent)] at hrun
        have hblock := recordsOnly_waitBegin (s.block t.val (.bwait x1.toNat x2.toNat s.now)) t.val x1.toNat x2.toNat
        refine effect_of_issue rfl hready hrun ⟨?_, (congrArg State.xregs hblock :)⟩
        rw [State.core, (congrArg State.cores hblock :)]
        exact State.blocked_block _ _ _

end Sys2Proof.Machine
end

section
/-! PROOFS. Deques, steals and watch ranges (spec/06_counters_stealing_watch.md). -/
namespace Sys2Proof.Machine

/-! ### A deque's indices and slots (R159) -/

@[simp] theorem State.csr_setIdle (s : State) (t z n : Nat) : (s.setIdle t).csr z n = s.csr z n := rfl

@[simp] theorem State.setIdle_xregs (s : State) (t : Nat) : (s.setIdle t).xregs = s.xregs := rfl

@[simp] theorem State.setIdle_mem (s : State) (t : Nat) : (s.setIdle t).mem = s.mem := rfl

@[simp] theorem State.csr_setDq_self (s : State) (t top bot : Nat) :
    (s.setDq t top bot).csr t 0x862 = (top % 2 ^ 32 + bot % 2 ^ 32 * 2 ^ 32) % 2 ^ 64 := by
  rw [State.setDq, State.csr_setIdle, State.csr_setCsr_self]

/-- A CSR that holds two indices shows them. -/
theorem State.dq_of_csr {s : State} {t top bot : Nat} (h : s.csr t 0x862 = (top % 2 ^ 32 + bot % 2 ^ 32 * 2 ^ 32) % 2 ^ 64) :
    s.dqTop t = top % 2 ^ 32 ∧ s.dqBot t = bot % 2 ^ 32 := by
  simp only [State.dqTop, State.dqBot, State.csrBits, h, bits]
  omega

theorem State.dqTop_mod (s : State) (t : Nat) : s.dqTop t % 2 ^ 32 = s.dqTop t := Nat.mod_eq_of_lt (Nat.mod_lt _ (by decide))

/-- Where no range is armed, a descriptor copied changes no register. -/
theorem State.copySlot_frame {s : State} (h : s.unwatched) (src dst : Nat) :
    (s.copySlot src dst).csrs = s.csrs ∧ (s.copySlot src dst).xregs = s.xregs := by
  have hstores := State.forEach_keeps (P := fun u => u.unwatched ∧ u.csrs = s.csrs ∧ u.xregs = s.xregs)
    (l := (List.range 8).map fun i => (i, s.bytes (src + 8 * i) 8, s.wordsPoisoned (src + 8 * i) 8))
    (g := fun x u => u.storeBytes (dst + 8 * x.1) x.2.1 x.2.2) (fun _ _ _ hu => hu) s ⟨h, rfl, rfl⟩
  obtain ⟨hwatch, hcsrs, hxregs⟩ := hstores
  have hframe := State.watchWrite_frame hwatch dst 64
  exact ⟨(congrArg State.csrs hframe :).trans hcsrs, (congrArg State.xregs hframe :).trans hxregs⟩

/-! ### Push and pop (R160, R161) -/

@[simp] theorem State.setDq_xregs (s : State) (t top bot : Nat) : (s.setDq t top bot).xregs = s.xregs := by
  rw [State.setDq, State.setIdle_xregs, State.setCsr_xregs]

@[simp] theorem State.setDq_mem (s : State) (t top bot : Nat) : (s.setDq t top bot).mem = s.mem := by
  rw [State.setDq, State.setIdle_mem, State.setCsr_mem]

/-- A descriptor is copied, BOT of tile t's deque moves, and a register takes 1. -/
def State.dequeMove (s : State) (t src dst bot rd : Nat) : State :=
  ((s.copySlot src dst).setDq t (s.dqTop t) bot).setX t rd 1

theorem State.dequeMove_spec {s : State} (h : s.unwatched) (t src dst bot : Nat) {rd : Nat} (hrd : rd < 32) :
    xregWrite s (s.dequeMove t src dst bot rd) t rd 1 ∧ (s.dequeMove t src dst bot rd).dqBot t = bot % 2 ^ 32 ∧
      (s.dequeMove t src dst bot rd).dqTop t = s.dqTop t ∧ (s.dequeMove t src dst bot rd).mem = (s.copySlot src dst).mem := by
  obtain ⟨-, hxregs⟩ := State.copySlot_frame h src dst
  have hcsr : (s.dequeMove t src dst bot rd).csr t 0x862 = (s.dqTop t % 2 ^ 32 + bot % 2 ^ 32 * 2 ^ 32) % 2 ^ 64 := by
    rw [State.dequeMove, State.csr_setX, State.csr_setDq_self]
  obtain ⟨htop, hbot⟩ := State.dq_of_csr hcsr
  refine ⟨xregWrite_setX_of_lt t 1 hrd ?_, hbot, htop.trans (s.dqTop_mod t), ?_⟩
  · rw [State.setDq_xregs, hxregs]
  · rw [State.dequeMove, State.setX_mem, State.setDq_mem]

section
variable {s : State} {t w a : Nat}

theorem State.runCore_push (hok : syOk t 16 w = true) (hoff : dqOffset a = none)
    (hclear : s.unitsBlock t [((a : Int), ((a + 64 : Nat) : Int))] [] = false) (x2 : Nat) :
    s.runCore t (.sync 16 w a x2) = some (if s.dqEn t && s.dqCount t < 256 then
      s.dequeMove t (storeAt t + a) (dqSlot t (s.dqBot t)) (s.dqBot t + 1) (wRd w) else s.setX t (wRd w) 0) := by
  rw [apply_ite some]
  change s.runSync t 16 w a x2 = _
  unfold State.runSync State.runDeque
  simp only [hok, hoff, hclear, Nat.reduceLT, Nat.reduceEqDiff, decide_true, decide_false, if_true, if_false, Bool.not_true,
    Bool.false_eq_true, Bool.true_or]
  rfl

theorem State.runCore_pop (hok : syOk t 17 w = true) (hoff : dqOffset a = none)
    (hclear : s.unitsBlock t [((a : Int), ((a + 64 : Nat) : Int))] [((a : Int), ((a + 64 : Nat) : Int))] = false) (x2 : Nat) :
    s.runCore t (.sync 17 w a x2) = some (if s.dqCount t ≠ 0 then
      s.dequeMove t (dqSlot t ((s.dqBot t + 2 ^ 32 - 1) % 2 ^ 32)) (storeAt t + a) ((s.dqBot t + 2 ^ 32 - 1) % 2 ^ 32) (wRd w)
      else s.setX t (wRd w) 0) := by
  rw [apply_ite some]
  change s.runSync t 17 w a x2 = _
  unfold State.runSync State.runDeque
  simp only [hok, hoff, hclear, Nat.reduceLT, Nat.reduceEqDiff, decide_true, decide_false, if_true, if_false, Bool.not_true,
    Bool.false_eq_true, Bool.or_true]
  rfl

/-! ### Steals (R163) -/

/-- A steal from a tile of the thief's context is served by its deque unit. -/
theorem State.runCore_steal_served {v : Nat} (hv : v < 4096) (hok : syOk t 18 w = true) (hoff : dqOffset a = none)
    (hclear : s.unitsBlock t [] [((a : Int), ((a + 64 : Nat) : Int))] = false) (henabled : bitAt (s.csr t 0x861) 1 = true)
    (hctx : (s.core v).ctx = (s.core t).ctx) (hbound : (s.core t).ctx.isSome = true) (hdeque : s.dqEn v = true)
    (hserves : s.serves (flaskOf v) = true) (hmoving : s.moving v = false) :
    s.runCore t (.sync 18 w a v) = some (s.stealFrom t (wRd w) a v) := by
  have hauto : v ≠ 2 ^ 64 - 1 := by omega
  have hsame : ((s.core v).ctx ≠ (s.core t).ctx || (s.core t).ctx.isNone || !s.dqEn v) = false := by
    simp [hctx, hdeque, hbound]
  change s.runSync t 18 w a v = _
  unfold State.runSync State.runSteal
  simp only [hok, hoff, hclear, henabled, hauto, hsame, Nat.not_le.mpr hv, State.arrive_of_serves hserves, hserves, hmoving]
  rfl

/-- A steal from a tile of another context, or of a disabled deque, misses. -/
theorem State.runCore_steal_refused {v : Nat} (hv : v < 4096) (hok : syOk t 18 w = true) (hoff : dqOffset a = none)
    (hclear : s.unitsBlock t [] [((a : Int), ((a + 64 : Nat) : Int))] = false) (henabled : bitAt (s.csr t 0x861) 1 = true)
    (hother : (s.core v).ctx ≠ (s.core t).ctx ∨ (s.core t).ctx = none ∨ s.dqEn v = false) :
    s.runCore t (.sync 18 w a v) = some (s.stealMiss t (wRd w)) := by
  have hauto : v ≠ 2 ^ 64 - 1 := by omega
  have hrefused : ((s.core v).ctx ≠ (s.core t).ctx || (s.core t).ctx.isNone || !s.dqEn v) = true := by
    simpa [or_assoc] using hother
  change s.runSync t 18 w a v = _
  unfold State.runSync State.runSteal
  simp only [hok, hoff, hclear, henabled, hauto, hrefused, Nat.not_le.mpr hv]
  rfl

end

/-- The victim's oldest descriptor leaves its deque, and the thief's destination takes the victim. -/
theorem State.stealFrom_spec {s : State} {v rd : Nat} (hwatch : s.unwatched) (hwork : s.dqCount v ≠ 0) (hrd : rd < 32) (t a : Nat) :
    xregWrite s (s.stealFrom t rd a v) t rd v ∧ (s.stealFrom t rd a v).dqTop v = (s.dqTop v + 1) % 2 ^ 32 := by
  obtain ⟨-, hxregs⟩ := State.copySlot_frame hwatch (dqSlot v (s.dqTop v)) (storeAt t + a)
  unfold State.stealFrom
  rw [if_neg hwork]
  dsimp only
  constructor
  · have hkept : ∀ n, (((s.copySlot (dqSlot v (s.dqTop v)) (storeAt t + a)).setDq v (s.dqTop v + 1) (s.dqBot v)).setCsr t 0x864 n).xregs =
        s.xregs := fun n => by rw [State.setCsr_xregs, State.setDq_xregs, hxregs]
    exact xregWrite_event (xregWrite_setX_of_lt t v hrd (hkept _)) _ _ _ _ _ _
  · have hcsr := State.csr_setDq_self (s.copySlot (dqSlot v (s.dqTop v)) (storeAt t + a)) v (s.dqTop v + 1) (s.dqBot v)
    refine (State.dq_of_csr (bot := s.dqBot v) ?_).1
    rw [State.csr_event, State.csr_setX, State.csr_setCsr_ne _ _ _ _ (by omega), hcsr]

/-- A miss answers −1, counts, and is recorded. -/
theorem State.stealMiss_spec (s : State) (t : Nat) {rd : Nat} (hrd : rd < 32) :
    xregWrite s (s.stealMiss t rd) t rd (2 ^ 64 - 1) ∧
      recordsOnly { s with xregs := (s.stealMiss t rd).xregs, csrs := (s.stealMiss t rd).csrs } (s.stealMiss t rd) := by
  unfold State.stealMiss
  dsimp only
  generalize putBits (s.csr t 0x864) 63 32 _ = misses
  constructor
  · exact xregWrite_event (xregWrite_setX_of_lt t _ hrd (State.setCsr_xregs _ _ _ _)) _ _ _ _ _ _
  · rw [State.event_xregs, State.event_csrs]
    obtain ⟨csrs, hcsrs⟩ : ∃ csrs, s.setCsr t 0x864 misses = { s with csrs := csrs } := ⟨_, rfl⟩
    obtain ⟨xregs, hxregs⟩ := State.exists_setX_eq { s with csrs := csrs } t rd (2 ^ 64 - 1)
    rw [hcsrs, hxregs]
    exact recordsOnly_event _ _ _ _ _ _ _

/-! ### Watch ranges (R166, R168) -/

/-- A range is named: its base, its configuration, and that it is armed (R168). -/
def State.armRange (s : State) (p r base cfg : Nat) : State :=
  ((s.setF fdFlaskWatchBase p r base).setF fdFlaskWatchCfg p r cfg).setF fdFlaskWatchArmed p r 1

theorem State.armRange_spec (s : State) (p r base cfg : Nat) :
    (s.armRange p r base cfg).getF fdFlaskWatchBase p r = base % 2 ^ fdFlaskWatchBase.width ∧
      (s.armRange p r base cfg).getF fdFlaskWatchCfg p r = cfg % 2 ^ fdFlaskWatchCfg.width ∧
      (s.armRange p r base cfg).getF fdFlaskWatchArmed p r = 1 ∧ regsOnly s (s.armRange p r base cfg) := by
  have hplaces : fieldPlace fdFlaskWatchArmed r ≠ fieldPlace fdFlaskWatchBase r ∧
      fieldPlace fdFlaskWatchArmed r ≠ fieldPlace fdFlaskWatchCfg r ∧ fieldPlace fdFlaskWatchCfg r ≠ fieldPlace fdFlaskWatchBase r := by
    simp only [fieldPlace, fdFlaskWatchArmed, fdFlaskWatchBase, fdFlaskWatchCfg]
    omega
  obtain ⟨harmedBase, harmedCfg, hcfgBase⟩ := hplaces
  unfold State.armRange
  refine ⟨?_, ?_, State.getF_setF_self _ _ _ _ _, rfl⟩
  · rw [State.getF_setF_place _ _ _ harmedBase, State.getF_setF_place _ _ _ hcfgBase, State.getF_setF_self]
  · rw [State.getF_setF_place _ _ _ harmedCfg, State.getF_setF_self]

theorem State.runCore_warm {s : State} {t : TileId} {w a x2 : Nat} (hok : syOk t.val 24 w = true) (hkind : bitAt x2 31 = false)
    (hhigh : bits x2 63 37 = 0) (halign : a % 256 = 0)
    (hallot : bitAt (s.getF fdFlaskWatchAllot (pgFlask (flaskOf t.val))) (bits x2 36 32) = true)
    (hspan : s.watchGrant t a ((bits x2 7 0 + 1) * 256) = true)
    (htargets : ∀ i, i < 16 → bitAt (bits x2 23 8) i = true →
      s.counterGrant t.val ((flaskOf t.val * 16 + i) * 64 + bits x2 29 24) = true) :
    s.runCore t.val (.sync 24 w a x2) =
      some (s.armRange (pgFlask (flaskOf t.val)) (bits x2 36 32) a (bits x2 30 0)) := by
  have hrun : s.runCore t.val (.sync 24 w a x2) = some (s.runWarm t w a x2) := by
    change s.runSync t.val 24 w a x2 = _
    simp [State.runSync, hok]
  have hkinds : (bitAt x2 31 || bits x2 63 37 ≠ 0) = false := by simp [hkind, hhigh]
  have hgranted : (((List.range 16).filter fun i => bitAt (bits x2 23 8) i).map
      fun i => (flaskOf t.val * 16 + i) * 64 + bits x2 29 24).all (fun i => s.counterGrant t.val i) = true := by
    simpa only [List.all_map, List.all_eq_true, List.mem_filter, List.mem_range, Function.comp_apply, and_imp] using htargets
  rw [hrun]
  unfold State.runWarm
  simp only [hkinds, halign, hallot, hspan, hgranted]
  rfl

theorem State.runCore_wdis {s : State} {t : TileId} {w a : Nat} (hok : syOk t.val 25 w = true) (ha : a < 32)
    (hallot : bitAt (s.getF fdFlaskWatchAllot (pgFlask (flaskOf t.val))) a = true) (x2 : Nat) :
    s.runCore t.val (.sync 25 w a x2) = some (s.setF fdFlaskWatchArmed (pgFlask (flaskOf t.val)) a 0) := by
  change s.runSync t.val 25 w a x2 = _
  simp [State.runSync, State.runWdis, hok, Nat.not_le.mpr ha, hallot]

/-- Settles O27: each row is its operation, and a descriptor copied moves the index of one deque. -/
theorem dequesAndRanges : Obligations.DequesAndRanges := by
  unfold Obligations.DequesAndRanges
  rintro t w x1 x2 s a rd r rfl rfl hready rfl
  refine ⟨fun hoff hok hclear => ⟨fun hen hroom hwatch => ?_, fun hfull => ?_⟩,
    fun hoff hok hclear => ⟨fun hwork hwatch => ?_, fun hempty => ?_⟩, ?_,
    fun hok hkind hhigh halign hallot hspan htargets => ?_, fun hok ha hallot => ?_⟩
  · have hrun := State.runCore_push hok hoff hclear x2.toNat
    rw [if_pos (by simp [hen, hroom])] at hrun
    exact effect_of_issue rfl hready hrun (State.dequeMove_spec hwatch _ _ _ _ (wRd_lt _))
  · have hrun := State.runCore_push hok hoff hclear x2.toNat
    rw [if_neg (by simpa using hfull)] at hrun
    exact effect_of_issue rfl hready hrun ⟨xregWrite_setX_of_lt _ _ (wRd_lt _) rfl, State.xregsOnly_setX _ _ _ _⟩
  · have hrun := State.runCore_pop hok hoff hclear x2.toNat
    rw [if_pos hwork] at hrun
    obtain ⟨hresult, hbot, hmoved⟩ := State.dequeMove_spec hwatch t.val (dqSlot t.val ((s.dqBot t.val + 2 ^ 32 - 1) % 2 ^ 32))
      (storeAt t.val + x1.toNat) ((s.dqBot t.val + 2 ^ 32 - 1) % 2 ^ 32) (wRd_lt w.toNat)
    exact effect_of_issue rfl hready hrun ⟨hresult, hbot.trans (Nat.mod_mod _ _), hmoved⟩
  · have hrun := State.runCore_pop hok hoff hclear x2.toNat
    rw [if_neg (not_not.mpr hempty)] at hrun
    exact effect_of_issue rfl hready hrun ⟨xregWrite_setX_of_lt _ _ (wRd_lt _) rfl, State.xregsOnly_setX _ _ _ _⟩
  · rintro v rfl hv hoff hok hclear henabled
    refine ⟨fun hctx hbound hdeque hserves hmoving hwork hwatch => ?_, fun hother => ?_⟩
    · exact effect_of_issue rfl hready (State.runCore_steal_served hv hok hoff hclear henabled hctx hbound hdeque hserves hmoving)
        (State.stealFrom_spec hwatch hwork (wRd_lt _) _ _)
    · exact effect_of_issue rfl hready (State.runCore_steal_refused hv hok hoff hclear henabled hother)
        (State.stealMiss_spec _ _ (wRd_lt _))
  · obtain ⟨hbase, hcfg, harmed⟩ := s.armRange_spec (pgFlask (flaskOf t.val)) (bits x2.toNat 36 32) x1.toNat (bits x2.toNat 30 0)
    exact effect_of_issue rfl hready (State.runCore_warm hok hkind hhigh halign hallot hspan htargets)
      ⟨hbase, hcfg.trans (Nat.mod_mod _ _), harmed⟩
  · exact effect_of_issue rfl hready (State.runCore_wdis hok ha hallot x2.toNat)
      ⟨fieldOnly_setF _ _ _ _ _, regsOnly_setF _ _ _ _ _⟩

end Sys2Proof.Machine
end

section
/-! SUPPORT. Rules of the processor die (R176–R189): which fields of its page the records leave alone, how a vector unit's bit of `VSTATE`
reads once it is set, and what a vector instruction that runs changes. -/
namespace Sys2Proof.Machine

/-! ### Fields of the PD page -/

/-- The records count in fields of SCHED and OBS and in `EVR_LOST`, so that no other field of a page apart from those is among them. -/
theorem offRecords_of_other_page {d : FieldDesc} {i p : Nat} (page : Nat) (hsched : p ≠ pgSched) (hobs : p ≠ pgObs)
    (h : unrecorded d i = true) : offRecords page d p i := by
  simp only [unrecorded, Bool.and_eq_true, decide_eq_true_eq] at h
  obtain ⟨⟨hoff, hlsb⟩, hlost⟩ := h
  simp only [pgSched, pgObs] at hsched hobs
  simp only [fieldPlace, fdEvrEvrLost] at hlost
  simp only [offRecords, descKey, fieldKey, fdEvrEvrLost, fdSchedLogSeq, fdObsCtrHead, fdObsNtraceHead, pgSched, pgObs]
  refine ⟨?_, ?_, fun c hc => ?_, ?_⟩ <;> omega

theorem State.getF_event_pd (s : State) (page unit : Nat) (cls : Option Nat) (code subject value : Nat) {d : FieldDesc} {i : Nat}
    (h : unrecorded d i = true) : (s.event page unit cls code subject value).getF d pgPd i = s.getF d pgPd i :=
  s.getF_event _ _ _ _ _ _ _ _ _ (offRecords_of_other_page page (by decide) (by decide) h)

theorem State.getF_trace_pd (s : State) (n ctx arg0 arg1 : Nat) {d : FieldDesc} {i : Nat} (h : unrecorded d i = true) :
    (s.trace n ctx arg0 arg1).getF d pgPd i = s.getF d pgPd i :=
  s.getF_trace _ _ _ _ _ _ _ 0 (offRecords_of_other_page 0 (by decide) (by decide) h)

/-! ### Power of vector units (R181) -/

theorem recordsOnly_setVec (s : State) (k : Nat) (on : Bool) : recordsOnly s (s.setVec k on) := recordsOnly_setF s _ _ _ _

@[simp] theorem State.core_setVec (s : State) (k : Nat) (on : Bool) (z : Nat) : (s.setVec k on).core z = s.core z := rfl

theorem State.vstate_setVec (s : State) (k : CoreId) (on : Bool) : bitAt ((s.setVec k.val on).getF fdPdVstate pgPd) k.val = on := by
  rw [State.setVec, State.getF_setF_self]
  exact bitAt_putBits_mod _ on k.isLt

/-! ### Vector instructions (R176, R179, log entry 7) -/

/-- Nothing but registers of cores, their control registers and states, register fields and the count of free values differs. -/
def coreRegsOnly (s u : State) : Prop :=
  { u with regs := s.regs, xregs := s.xregs, fregs := s.fregs, vregs := s.vregs, csrs := s.csrs, cores := s.cores,
           freeCount := s.freeCount } = s

theorem coreRegsOnly.trans {s t u : State} (hst : coreRegsOnly s t) (htu : coreRegsOnly t u) : coreRegsOnly s u := by
  unfold coreRegsOnly at *
  rw [← hst, ← htu]

theorem coreRegsOnly_setX (s : State) (c r v : Nat) : coreRegsOnly s (s.setX c r v) := by
  obtain ⟨m, hm⟩ := s.exists_setX_eq c r v
  rw [hm]
  rfl

theorem coreRegsOnly_setVec (s : State) (k : Nat) (on : Bool) : coreRegsOnly s (s.setVec k on) := rfl

theorem coreRegsOnly_setCore (s : State) (c : Nat) (x : CoreState) : coreRegsOnly s (s.setCore c x) := rfl

/-- A vector instruction writes registers of its core, and its flags. -/
theorem coreRegsOnly_vecWrite (s : State) (c w : Nat) : coreRegsOnly s (s.vecWrite c w) := by
  unfold State.vecWrite
  dsimp only
  split
  · rfl
  split
  · exact .trans (t := s.free.2) rfl (coreRegsOnly_setX _ _ _ _)
  split
  · rfl
  have hvregs : coreRegsOnly s ((s.frees 9).2.forEach ((s.frees 9).1.take 8).zipIdx fun x u =>
      { u with vregs := mapPut 0 u.vregs (c * 32 + (bits w 11 7 + x.2) % 32) (x.1 % 2 ^ 512) }) :=
    State.forEach_keeps (fun _ _ _ hu => hu.trans rfl) _ rfl
  split
  · exact hvregs.trans rfl
  · exact hvregs

/-- A vector store writes no register. -/
theorem State.vecWrite_of_store (s : State) (c : Nat) {w : Nat} (h : bits w 6 0 = 0x27) : s.vecWrite c w = s := if_pos h

/-- The state that a vector instruction of PD core k, which is core c, leaves where it meets no exception. -/
def State.vecRun (s : State) (c k w : Nat) : State :=
  ((s.setVec k true).vecWrite c w).setCore c { ((s.setVec k true).vecWrite c w).core c with vstart := 0 }

theorem State.runVector_of_on {s : State} {c k w : Nat} (hk : c - 4096 = k) (hword : vecWord w = true) (htrunc : vecTruncating w = false)
    (hon : s.vecOn k = true) (vl cause : Nat) : s.runVector c w vl none cause = some (s.vecRun c k w) := by
  subst hk
  unfold State.runVector
  simp [hword, htrunc, hon, State.vecRun]

theorem coreRegsOnly_vecRun (s : State) (c k w : Nat) : coreRegsOnly s (s.vecRun c k w) :=
  ((coreRegsOnly_setVec s k true).trans (coreRegsOnly_vecWrite _ c w)).trans (coreRegsOnly_setCore _ _ _)

theorem State.vstart_vecRun (s : State) (c k w : Nat) : ((s.vecRun c k w).core c).vstart = 0 := by
  rw [State.vecRun, State.core_setCore_self]

/-- A vector store leaves the core's registers as they were. -/
theorem State.vecRun_of_store (s : State) (c k : Nat) {w : Nat} (h : bits w 6 0 = 0x27) :
    (s.vecRun c k w).xregs = s.xregs ∧ (s.vecRun c k w).fregs = s.fregs ∧ (s.vecRun c k w).vregs = s.vregs ∧
      (s.vecRun c k w).csrs = s.csrs := by
  rw [State.vecRun, State.vecWrite_of_store _ _ h]
  exact ⟨rfl, rfl, rfl, rfl⟩

end Sys2Proof.Machine
end

section
/-! PROOFS. Vector units and core repair (spec/07_processor_die.md). -/
namespace Sys2Proof.Machine

/-! ### Gating and waking (R181) -/

/-- A powered unit that nothing holds or waits for gates, and but for that only the records change. -/
theorem State.vecGate_spec {s : State} {k : CoreId} (hon : bitAt (s.getF fdPdVstate pgPd) k.val = true)
    (hhold : bitAt (s.getF fdPdVgateHold pgPd) k.val = false) (hcycles : s.getF fdPdVgateIdleCycles pgPd ≠ 0)
    (hidle : (s.core (4096 + k.val)).vectorWaits = false) :
    bitAt ((s.vecGate k.val).getF fdPdVstate pgPd) k.val = false ∧ recordsOnly s (s.vecGate k.val) := by
  rw [State.vecGate, if_pos (by simp [hon, hhold, hcycles, hidle]), State.getF_event_pd _ _ _ _ _ _ _ (by decide)]
  exact ⟨s.vstate_setVec k false, (recordsOnly_setVec s _ _).trans (recordsOnly_event _ _ _ _ _ _ _)⟩

/-- A waking unit is powered and its wake over. -/
theorem State.vecWoken_spec {s : State} {k : CoreId} (hwaking : (s.core (4096 + k.val)).vwaking = true) :
    bitAt ((s.vecWoken k.val).getF fdPdVstate pgPd) k.val = true ∧ ((s.vecWoken k.val).core (4096 + k.val)).vwaking = false := by
  rw [State.vecWoken, if_pos hwaking]
  dsimp only
  refine ⟨?_, by simp [State.count]⟩
  rw [State.getF_event_pd _ _ _ _ _ _ _ (by decide), State.count, State.getF_addF_place _ _ _ (by decide)]
  exact State.vstate_setVec _ k true

/-! ### Core repair (R189) -/

@[simp] theorem State.core_raiseSpare (s : State) (v z : Nat) : (s.raiseSpare v).core z = s.core z := by
  unfold State.raiseSpare
  split <;> rfl

/-- The spare state is no field of the PD page. -/
theorem State.getF_raiseSpare_pd (s : State) (v : Nat) {d : FieldDesc} {i : Nat} (h : unrecorded d i = true) :
    (s.raiseSpare v).getF d pgPd i = s.getF d pgPd i := by
  simp only [unrecorded, Bool.and_eq_true, decide_eq_true_eq] at h
  obtain ⟨⟨hoff, hlsb⟩, -⟩ := h
  unfold State.raiseSpare
  split
  · exact State.getF_setF_ne _ _ _ _ _ _ _ _ (descKey_page_ne (by decide) (by decide) (by decide) hoff hlsb)
  · rfl

theorem State.coreRepairStart_spec {s : State} {k : Nat} (hmoving : s.anyMoving = false)
    (hpaused : ∀ x ∈ s.cores, 4096 ≤ x.1 → x.2.paused = false) (hspare : s.getF fdPdSpareInUse pgPd < 4)
    (hfenced : bitAt (s.getF fdPdCoresFenced pgPd) k = false) :
    ((s.coreRepairStart k).core (4096 + k)).paused = true ∧ (s.coreRepairStart k).err.repairing = true := by
  have hnone : (s.cores.any fun x => 4096 ≤ x.1 && x.2.paused) = false := by simpa using hpaused
  have hrun : ¬ (s.anyMoving || (s.cores.any fun x => 4096 ≤ x.1 && x.2.paused) || 4 ≤ s.getF fdPdSpareInUse pgPd ||
      bitAt (s.getF fdPdCoresFenced pgPd) k) = true := by simp [hmoving, hnone, hspare, hfenced]
  rw [State.coreRepairStart, if_neg hrun, State.core_trace, State.trace_err]
  exact ⟨congrArg CoreState.paused (State.core_setCore_self _ _ _), rfl⟩

/-- The state in which an ended repair's spare is counted: the hart runs, and the spare state follows where none is left. -/
def State.spareTaken (s : State) (k : Nat) : State :=
  let s := ((s.setCore (4096 + k) { s.core (4096 + k) with paused := false }).addF fdPdSpareInUse pgPd 0 1).count pgPd 7 1
  if 4 ≤ s.getF fdPdSpareInUse pgPd then s.raiseSpare 1 else s

/-- The mark of a running repair replaced (R454). -/
def State.markRepair (s : State) (on : Bool) : State := { s with err := { s.err with repairing := on } }

@[simp] theorem State.core_markRepair (s : State) (on : Bool) (z : Nat) : (s.markRepair on).core z = s.core z := rfl

@[simp] theorem State.getF_markRepair (s : State) (on : Bool) (d : FieldDesc) (p i : Nat) :
    (s.markRepair on).getF d p i = s.getF d p i := rfl

@[simp] theorem State.repairing_markRepair (s : State) (on : Bool) : (s.markRepair on).err.repairing = on := rfl

theorem State.coreRepairEnd_of_paused {s : State} {k : Nat} (h : (s.core (4096 + k)).paused = true) :
    s.coreRepairEnd k = ((s.spareTaken k).markRepair false).trace 110 0xFF k 0 :=
  if_pos h

theorem State.paused_spareTaken (s : State) (k : Nat) : ((s.spareTaken k).core (4096 + k)).paused = false := by
  unfold State.spareTaken
  dsimp only
  split <;> simp [State.count]

theorem State.getF_spareInUse_spareTaken (s : State) (k : Nat) :
    (s.spareTaken k).getF fdPdSpareInUse pgPd = min (s.getF fdPdSpareInUse pgPd + 1) (2 ^ fdPdSpareInUse.width - 1) := by
  have hcount : (((s.setCore (4096 + k) { s.core (4096 + k) with paused := false }).addF fdPdSpareInUse pgPd 0 1).count pgPd 7 1).getF
      fdPdSpareInUse pgPd = min (s.getF fdPdSpareInUse pgPd + 1) (2 ^ fdPdSpareInUse.width - 1) := by
    rw [State.count, State.getF_addF_place _ _ _ (by decide), State.getF_addF_self]
    rfl
  unfold State.spareTaken
  dsimp only
  split
  · rw [State.getF_raiseSpare_pd _ _ (by decide), hcount]
  · exact hcount

theorem State.coreRepairEnd_spec {s : State} {k : Nat} (h : (s.core (4096 + k)).paused = true) :
    ((s.coreRepairEnd k).core (4096 + k)).paused = false ∧ (s.coreRepairEnd k).err.repairing = false ∧
      (s.coreRepairEnd k).getF fdPdSpareInUse pgPd = min (s.getF fdPdSpareInUse pgPd + 1) (2 ^ fdPdSpareInUse.width - 1) := by
  rw [State.coreRepairEnd_of_paused h, State.core_trace, State.trace_err, State.getF_trace_pd _ _ _ _ _ (by decide),
    State.core_markRepair, State.repairing_markRepair, State.getF_markRepair]
  exact ⟨s.paused_spareTaken k, rfl, s.getF_spareInUse_spareTaken k⟩

/-- Settles O18: a vector instruction that runs is `State.vecRun`, and the unit's and the hart's other changes are each one rule. -/
theorem vectorAndRepair : Obligations.VectorAndRepair := by
  unfold Obligations.VectorAndRepair
  refine fun k s => ⟨fun w vl cause hready hword htrunc hon => ?_, fun hon hhold hcycles hidle => ?_, fun hwaking => ?_,
    fun hmoving hpaused hspare hfenced => ?_, fun hpaused => ?_⟩
  · have hrun : s.runCore (4096 + k.val) (.vector w.toNat vl none cause.toNat) = some (s.vecRun (4096 + k.val) k.val w.toNat) :=
      State.runVector_of_on (Nat.add_sub_cancel_left _ _) hword htrunc hon vl cause.toNat
    exact effect_of_issue rfl hready hrun ⟨s.vstart_vecRun _ _ _, coreRegsOnly_vecRun s _ _ _, s.vecRun_of_store _ _⟩
  · exact ⟨s.vecGate k.val, rfl, State.vecGate_spec hon hhold hcycles hidle⟩
  · exact ⟨s.vecWoken k.val, rfl, State.vecWoken_spec hwaking⟩
  · exact ⟨s.coreRepairStart k.val, rfl, State.coreRepairStart_spec hmoving hpaused hspare hfenced⟩
  · exact ⟨s.coreRepairEnd k.val, rfl, State.coreRepairEnd_spec hpaused⟩

end Sys2Proof.Machine
end

section
/-! SUPPORT. Rules of the memory system (R253–R274): what a request that nothing holds back reaches, what the line merger does while no
entry is open, and what a drained entry of stores leaves. -/
namespace Sys2Proof.Machine

/-! ### A request that nothing holds back -/

/-- A request that meets no other node's copy and no checkpoint hold is served (R329, R417). -/
theorem State.accept_of_free {s : State} {rq : HbmReq}
    (hcoh : ((unitsOf 128 rq.off rq.len).find? fun l => s.cohBusy l (rq.kind ≠ 0)) = none)
    (hheld : rq.kind ≠ 0 → s.unreachedBy rq.off rq.len = []) : s.accept rq = s.serve rq := by
  have horder : s.order rq = s.serve rq := by rw [State.order, hcoh]
  unfold State.accept
  split
  · exact horder
  · next hkind => rw [hheld hkind, horder]

/-- A request that nothing holds back is served, with the memory system's own counts alone changed before. -/
theorem State.submit_of_clear {s : State} {rq : HbmReq} (h : s.hbmClear rq) :
    ∃ m : HbmState, s.submit rq = ({ s with hbm := m } : State).serve rq ∧ m.merge = [] := by
  obtain ⟨hgood, hrefresh, hwaiting, hmerge, hrate, hcoh, hheld⟩ := h
  have hserve : ∀ m : HbmState, ({ s with hbm := m } : State).accept rq = ({ s with hbm := m } : State).serve rq :=
    fun m => State.accept_of_free hcoh hheld
  unfold State.submit
  rw [hgood]
  dsimp only
  rw [if_neg (not_not.mpr hrefresh)]
  unfold State.sluice
  dsimp only
  split
  · exact ⟨_, hserve _, hmerge⟩
  · next p hp =>
    have hqueue : ∀ site, State.sluiceQueue { s with hbm := { s.hbm with lastRequest := s.now } } site p rq.charge.2 = false := by
      simp [State.sluiceQueue, hwaiting]
    exact ⟨_, ((if_neg (by rw [hqueue]; decide)).trans (if_pos (hrate p hp))).trans (hserve _), hmerge⟩

/-! ### The line merger with no entry open (R272–R274) -/

theorem State.mergeFor_of_empty {s : State} (h : s.hbm.merge = []) (l : Nat) : s.mergeFor l = none := by
  rw [State.mergeFor, h]
  rfl

theorem State.drainLine_of_empty {s : State} (h : s.hbm.merge = []) (l : Nat) : s.drainLine l = s := by
  rw [State.drainLine, State.mergeFor_of_empty h]

theorem State.drainRange_of_empty {s : State} (h : s.hbm.merge = []) (off len : Nat) : s.drainRange off len = s :=
  State.forEach_keeps (P := fun u => u = s) (fun l _ u hu => by rw [hu, State.drainLine_of_empty h]) s rfl

/-- The state with one open entry, opened now. -/
def State.opened (s : State) (e : MergeEntry) : State := { s with hbm := { s.hbm with merge := [{ e with since := s.now }] } }

theorem State.putEntry_of_empty {s : State} (h : s.hbm.merge = []) (e : MergeEntry) : s.putEntry e = s.opened e := by
  have hroom : s.makeRoom e.line = s := if_pos (by rw [h]; decide)
  rw [State.putEntry, State.mergeFor_of_empty h, State.opened]
  dsimp only
  rw [hroom, h, List.nil_append]

theorem State.mergeStore_of_empty {s : State} (h : s.hbm.merge = []) (line pos : Nat) (bs : List Byte) (poisoned : Bool)
    (arr : List (Nat × Nat × Reply)) :
    s.mergeStore line pos bs poisoned arr = s.opened { line := line, mask := (2 ^ bs.length - 1) * 2 ^ pos, data := lineBytes pos bs,
                                                        poisoned := poisoned, arrivals := arr } := by
  rw [State.mergeStore, State.mergeFor_of_empty h]
  exact State.putEntry_of_empty h _

theorem State.mergeAtomic_of_empty {s : State} (h : s.hbm.merge = []) (line op ty mask : Nat) (arg : List Byte)
    (arr : List (Nat × Nat × Reply)) :
    s.mergeAtomic line op ty mask arg arr =
      s.opened { line := line, atomic := some (op, ty), mask := mask, data := arg, arrivals := arr } := by
  rw [State.mergeAtomic, State.mergeFor_of_empty h]
  exact State.putEntry_of_empty h _

/-! ### Serving (R259, R270, R273) -/

theorem State.serve_read {s : State} {rq : HbmReq} (h : rq.kind = 0) : s.serve rq = s.serveRead rq := by simp only [State.serve, h]

theorem State.serve_write {s : State} {rq : HbmReq} (h : rq.kind = 1) : s.serve rq = s.serveWrite rq := by simp only [State.serve, h]

theorem State.serve_atomic {s : State} {rq : HbmReq} (h : rq.kind = 2) : s.serve rq = s.serveAtomic rq := by simp only [State.serve, h]

theorem State.serveRead_of_empty {s : State} (h : s.hbm.merge = []) {rq : HbmReq} (hreply : rq.reply = .none) :
    s.serveRead rq =
      (s.traffic rq.off 0 rq.len).emit (.memData rq.src (s.bytes rq.off rq.len) (s.linesPoisoned rq.off rq.len)) := by
  rw [State.serveRead, State.drainRange_of_empty h, State.replyData, hreply]
  rfl

/-- Bytes that lie within one line are one piece. -/
theorem linePieces_of_one_line {off : Nat} {bs : List Byte} (hne : bs ≠ []) (hfit : off % 128 + bs.length ≤ 128) :
    linePieces off bs = [(off / 128, off % 128, bs)] := by
  have hlen := List.length_pos_iff.mpr hne
  have hunits : unitsOf 128 off bs.length = [off / 128] := by
    rw [unitsOf, if_neg (by omega), show (off + bs.length - 1) / 128 + 1 - off / 128 = 1 by omega]
    rfl
  have hfirst : max off (off / 128 * 128) = off := by omega
  have hlast : min (off + bs.length) (off / 128 * 128 + 128) = off + bs.length := by omega
  have hpos : off - off / 128 * 128 = off % 128 := by omega
  simp [linePieces, hunits, hfirst, hlast, hpos]

theorem State.serveWrite_of_one_line {s : State} (h : s.hbm.merge = []) {rq : HbmReq} (hne : rq.data ≠ [])
    (hfit : rq.off % 128 + rq.data.length ≤ 128) :
    s.serveWrite rq = (s.traffic rq.off 1 rq.data.length).opened
      { line := rq.off / 128, mask := (2 ^ rq.data.length - 1) * 2 ^ (rq.off % 128), data := lineBytes (rq.off % 128) rq.data,
        poisoned := rq.poisoned, arrivals := [(rq.off, rq.data.length, rq.reply)] } := by
  have hlen := List.length_pos_iff.mpr hne
  have hlast : rq.off / 128 = (rq.off + rq.data.length - 1) / 128 := by omega
  rw [State.serveWrite, linePieces_of_one_line hne hfit]
  dsimp only
  rw [State.forEach_cons, State.forEach_nil, if_pos hlast]
  exact State.mergeStore_of_empty (s := s.traffic rq.off 1 rq.data.length) h _ _ _ _ _

/-- An atomic at a clean line operates on it and answers the bytes before. -/
theorem State.applyAtomic_of_clean {s : State} {line : Nat} (h : mapGet false s.poisonLine line = false) (op ty mask : Nat)
    (arg cmp : List Byte) :
    s.applyAtomic line op ty mask arg cmp =
      ((s.putBytes (line * 128) (atomLine op ty (s.bytes (line * 128) 128) arg cmp mask).1).traffic (line * 128) 2 1, true,
        s.bytes (line * 128) 128, (atomLine op ty (s.bytes (line * 128) 128) arg cmp mask).2) := by
  rw [State.applyAtomic, if_neg (by simp [h])]

/-- An aligned half line begins where it is in its line. -/
theorem half_of_aligned {a : Nat} (h : a % 64 = 0) : a % 128 / 64 * 64 = a % 128 := by omega

/-- What follows a watched write, with no range armed, leaves the node's output and the bytes to it. -/
theorem State.emit_watchWrite {s : State} (h : s.unwatched) (a len : Nat) (o : Output) :
    ((s.watchWrite a len).emit o).out = s.out ++ [o] ∧ ((s.watchWrite a len).emit o).mem = s.mem := by
  have hframe := State.watchWrite_frame h a len
  exact ⟨congrArg (· ++ [o]) (congrArg State.out hframe :), (congrArg State.mem hframe :)⟩

section
variable {s : State} {rq : HbmReq} (h : s.hbm.merge = []) (haligned : rq.off % 64 = 0)
include h haligned

/-- A fetching atomic at a clean line, with nothing watching, answers the old half line and leaves the new line. -/
theorem State.serveAtomic_fetch (hfetch : rq.fetch = true) (hreply : rq.reply = .none) (hwatch : s.unwatched)
    (hclean : mapGet false s.poisonLine (rq.off / 128) = false) :
    (s.serveAtomic rq).out = s.out ++ [.memData rq.src (((s.bytes (rq.off / 128 * 128) 128).drop (rq.off % 128)).take 64) false] ∧
      (s.serveAtomic rq).mem = (s.putBytes (rq.off / 128 * 128) (atomLine rq.op rq.ty (s.bytes (rq.off / 128 * 128) 128)
        (lineBytes (rq.off % 128) (rq.data.take 64)) (lineBytes (rq.off % 128) (rq.data.drop 64))
        (rq.mask * 2 ^ (rq.off % 128 / atomSize rq.ty))).1).mem := by
  unfold State.serveAtomic
  dsimp only
  rw [if_pos (by simp [hfetch]), State.drainLine_of_empty h, State.applyAtomic_of_clean hclean, half_of_aligned haligned]
  dsimp only
  rw [if_pos rfl, if_pos hfetch, hreply]
  dsimp only
  rw [State.replyData, hreply]
  exact State.emit_watchWrite (by exact hwatch) _ _ _

/-- An atomic that neither fetches nor swaps opens an entry of its operation. -/
theorem State.serveAtomic_merge (hfetch : rq.fetch = false) (hswap : rq.op ≠ 6) (hcas : rq.op ≠ 7) :
    s.serveAtomic rq = s.opened
      { line := rq.off / 128, atomic := some (rq.op, rq.ty), mask := rq.mask * 2 ^ (rq.off % 128 / atomSize rq.ty),
        data := lineBytes (rq.off % 128) (rq.data.take 64), arrivals := [(rq.off / 128 * 128 + rq.off % 128, 64, rq.reply)] } := by
  unfold State.serveAtomic
  dsimp only
  rw [if_neg (by simp [hfetch, hswap, hcas]), half_of_aligned haligned]
  exact State.mergeAtomic_of_empty h _ _ _ _ _ _

end

/-! ### A drained entry of stores (R259, R274, log entry 35) -/

/-- Nothing but what leaves the node differs. -/
def outOnly (s u : State) : Prop := { u with out := s.out } = s

theorem outOnly_replyDone {r : Reply} (h : plainReply r = true) (s : State) (src : Source) (flags : Nat) (poisoned : Bool) :
    outOnly s (s.replyDone src r flags poisoned) := by
  simp only [plainReply, Bool.or_eq_true, decide_eq_true_eq] at h
  obtain rfl | rfl := h <;> rfl

/-- What every arrival of a drained entry keeps: no range is armed, and the memory system's state and the bytes stay. -/
def drainKeeps (s u : State) : Prop := u.unwatched ∧ u.hbm = s.hbm ∧ u.mem = s.mem

theorem drainKeeps_arrival {s u : State} (h : drainKeeps s u) (a len : Nat) {r : Reply} (hr : plainReply r = true) (flags : Nat)
    (poisoned : Bool) : drainKeeps s ((u.watchWrite a len).replyDone .firmware r flags poisoned) := by
  obtain ⟨hwatch, hhbm, hmem⟩ := h
  have hreply := outOnly_replyDone hr (u.watchWrite a len) .firmware flags poisoned
  have hframe := State.watchWrite_frame hwatch a len
  have hregs : (u.watchWrite a len).regs = u.regs := (congrArg State.regs hframe :)
  refine ⟨?_, ?_, ?_⟩
  · rw [State.unwatched, State.armedRanges, (congrArg State.regs hreply :), hregs]
    exact hwatch
  · exact ((congrArg State.hbm hreply :).trans (congrArg State.hbm hframe :)).trans hhbm
  · exact ((congrArg State.mem hreply :).trans (congrArg State.mem hframe :)).trans hmem

/-- A line's bytes as an entry of stores leaves them, under its mask. -/
def State.lineWritten (s : State) (e : MergeEntry) : State :=
  s.putBytes (e.line * 128) (maskedBytes (s.bytes (e.line * 128) 128) e.data e.mask)

theorem drainKeeps_drainEntry {s : State} {e : MergeEntry} (hstores : e.atomic = none)
    (hplain : ∀ x ∈ e.arrivals, plainReply x.2.2 = true) (hwatch : s.unwatched) : drainKeeps (s.lineWritten e) (s.drainEntry e) := by
  unfold State.drainEntry
  rw [hstores]
  exact State.forEach_keeps (P := drainKeeps (s.lineWritten e)) (fun x hx u hu => drainKeeps_arrival hu _ _ (hplain x hx) _ _) _
    ⟨hwatch, rfl, rfl⟩

/-- A line's drained entry has left the merger. -/
theorem State.drainLine_of_stores {s : State} {line : Nat} {e : MergeEntry} (hopen : s.mergeFor line = some e) (hstores : e.atomic = none)
    (hplain : ∀ x ∈ e.arrivals, plainReply x.2.2 = true) (hwatch : s.unwatched) :
    (s.drainLine line).hbm.merge = s.hbm.merge.erase e ∧
      (s.drainLine line).mem = (s.putBytes (line * 128) (maskedBytes (s.bytes (line * 128) 128) e.data e.mask)).mem := by
  have hline : e.line = line := by simpa using List.find?_some hopen
  subst hline
  rw [State.drainLine, hopen]
  obtain ⟨-, hhbm, hmem⟩ := drainKeeps_drainEntry (s := { s with hbm := { s.hbm with merge := s.hbm.merge.erase e } }) hstores hplain
    hwatch
  exact ⟨congrArg HbmState.merge hhbm, hmem⟩

end Sys2Proof.Machine
end

section
/-! PROOFS. HBM accesses (spec/10_polders_and_memory.md). -/
namespace Sys2Proof.Machine

/-- A request that nothing holds back does what serving it does, with the memory system's own counts changed before. -/
theorem effect_submit {i : Instr} {s : State} {rq : HbmReq} {P : State → Prop} (hexec : exec i s = .next (s.submit rq).finish)
    (hclear : s.hbmClear rq) (hserve : ∀ m : HbmState, m.merge = [] → P (({ s with hbm := m } : State).serve rq)) : Effect i s P := by
  obtain ⟨m, hsubmit, hempty⟩ := State.submit_of_clear hclear
  refine ⟨s.submit rq, hexec, ?_⟩
  rw [hsubmit]
  exact hserve m hempty

/-- The request that HBM_ATOMIC makes, of the 64 B at its address (R270). -/
def atomicReq (src : Source) (off : BitVec 40) (op ty : BitVec 4) (mask : BitVec 16) (operand : List Byte) (fetch : Bool) : HbmReq :=
  { kind := 2, src := src, off := off.toNat / 64 * 64, len := 64, data := operand, op := op.toNat, ty := ty.toNat, mask := mask.toNat,
    fetch := fetch }

theorem atomicReq_aligned (src : Source) (off : BitVec 40) (op ty : BitVec 4) (mask : BitVec 16) (operand : List Byte) (fetch : Bool) :
    (atomicReq src off op ty mask operand fetch).off % 64 = 0 := Nat.mul_mod_left _ _

theorem exec_hbmAtomic_of_listed (src : Source) (off : BitVec 40) {op ty : BitVec 4} {mask : BitVec 16} (operand : List Byte) (fetch : Bool)
    (s : State) (h : atomicOk op.toNat ty.toNat mask.toNat = true) :
    exec (.hbmAtomic src off op ty mask operand fetch) s = .next (s.submit (atomicReq src off op ty mask operand fetch)).finish :=
  if_pos h

theorem exec_mergerDrain_of_site {site : SiteId} {line : BitVec 33} {s : State} (h : s.siteOf (line.toNat * 128) = site.val) :
    exec (.mergerDrain site line) s = .next (s.drainLine line.toNat).finish :=
  if_pos h

/-- Settles O28: a request that nothing holds back is served with no entry open, so that each access is one rule of the merger. -/
theorem hbmAccesses : Obligations.HbmAccesses := by
  unfold Obligations.HbmAccesses
  refine ⟨fun src off len s hclear => ?_, fun src off data poisoned s hne hfit hclear => ?_, ?_,
    fun site line s e hsite hopen hstores hplain hwatch => ?_⟩
  · refine effect_submit rfl hclear fun m hempty => ?_
    rw [State.serve_read rfl, State.serveRead_of_empty hempty rfl]
    exact ⟨rfl, rfl⟩
  · refine effect_submit rfl hclear fun m hempty => ?_
    rw [State.serve_write rfl, State.serveWrite_of_one_line hempty hne hfit]
    exact ⟨rfl, rfl⟩
  · rintro src off op ty mask operand s line half arg cmp m rfl rfl rfl rfl rfl hlisted
    refine ⟨fun hclear hclean hwatch => ?_, fun hclear hswap hcas => ?_⟩
    · refine effect_submit (exec_hbmAtomic_of_listed src off operand true s hlisted) hclear fun m hempty => ?_
      rw [State.serve_atomic rfl]
      exact State.serveAtomic_fetch hempty (atomicReq_aligned _ _ _ _ _ _ _) rfl rfl hwatch hclean
    · refine effect_submit (exec_hbmAtomic_of_listed src off operand false s hlisted) hclear fun m hempty => ?_
      rw [State.serve_atomic rfl, State.serveAtomic_merge hempty (atomicReq_aligned _ _ _ _ _ _ _) rfl hswap hcas]
      exact ⟨rfl, rfl⟩
  · exact ⟨s.drainLine line.toNat, exec_mergerDrain_of_site hsite, State.drainLine_of_stores hopen hstores hplain hwatch⟩

end Sys2Proof.Machine
end

section
/-! SUPPORT. Rules of capsules (R383–R387): what a capsule whose header and body pass does, what the end of a session leaves, and what
binding a set of queues changes (R218). -/
namespace Sys2Proof.Machine

/-! ### The common course of a capsule (R386) -/

/-- A capsule whose header and body pass runs its own part on the state that has taken it, and its status follows. -/
theorem State.capsule_of_takes {s z : State} {q : QueueId} {cap : Capsule} {o : Opcode} {ok : Bool} (h : s.capTakes q cap o z)
    (hok : ok = true) (run : State → State × Answer) :
    s.capsule q cap o ok run = .next ((run z).1.endCapsule q.val o cap (run z).2).finish := by
  obtain ⟨⟨hbusy, hout, hdeep⟩, rfl, hcheck⟩ := h
  have hservice : ((s.queue q.val).busy.isSome || (s.err.out && 4 ≤ q.val)) = false := by
    simp only [hbusy, Option.isSome_none, Bool.false_or, Bool.and_eq_false_imp, decide_eq_false_iff_not, not_le]
    exact hout
  unfold State.capWake at hdeep hcheck ⊢
  unfold State.capsule
  dsimp only
  rw [hservice, if_neg (by decide), hdeep, if_neg (by decide), hcheck, hok]
  rfl

/-- A capsule's effect, from what its own part answers. -/
theorem effect_capsule {i : Instr} {s z y : State} {q : QueueId} {cap : Capsule} {o : Opcode} {ok : Bool} {run : State → State × Answer}
    {a : Answer} {P : State → Prop} (hexec : exec i s = s.capsule q cap o ok run) (htakes : s.capTakes q cap o z) (hok : ok = true)
    (hrun : run z = (y, a)) (hP : P (y.endCapsule q.val o cap a)) : Effect i s P := by
  refine ⟨_, hexec.trans (State.capsule_of_takes htakes hok run), ?_⟩
  rw [hrun]
  exact hP

/-- A status still to come leaves the state as it is. -/
theorem State.endCapsule_later (s : State) (q : Nat) (o : Opcode) (cap : Capsule) : s.endCapsule q o cap { later := true } = s := rfl

/-! ### The end of a session (R387, R389) -/

theorem State.endSession_spec (s : State) (q : Nat) :
    ((s.endSession q).queue q).session = none ∧ mapGet {} (s.endSession q).spdm q = {} := by
  unfold State.endSession
  dsimp only
  split
  · next hnone =>
    rw [State.queue_setQueue_self]
    exact ⟨Option.isNone_iff_eq_none.mp hnone, mapGet_del_self _ _ _⟩
  · rw [State.queue_trace, State.trace_spdm, State.queue_setQueue_self]
    exact ⟨rfl, mapGet_del_self _ _ _⟩

/-! ### Queues bound to a context (R218, R377) -/

/-- A queue as binding it to context c for host `gid` leaves it. -/
def Queue.bound (k : Queue) (c gid : Nat) : Queue := { k with ctx := some c, gid := gid }

theorem State.queue_setQueue_ne (s : State) {q i : Nat} (x : Queue) (h : q ≠ i) : (s.setQueue q x).queue i = s.queue i :=
  mapGet_put_ne _ _ _ _ h

theorem State.queue_bindQueues (c gid i : Nat) (qs : List Nat) :
    ∀ s : State, (s.bindQueues c gid qs).queue i = if i ∈ qs then (s.queue i).bound c gid else s.queue i := by
  induction qs with
  | nil => intro s; rfl
  | cons q qs ih =>
    intro s
    have hrest : (s.bindQueues c gid (q :: qs)).queue i = _ := ih (s.setQueue q ((s.queue q).bound c gid))
    rw [hrest]
    by_cases hq : q = i
    · subst hq
      rw [State.queue_setQueue_self]
      simp [Queue.bound]
    · rw [State.queue_setQueue_ne _ _ hq]
      simp [Ne.symm hq]

/-- Nothing but command queues differs. -/
def queuesOnly (s u : State) : Prop := { u with queues := s.queues } = s

theorem queuesOnly.trans {s t u : State} (hst : queuesOnly s t) (htu : queuesOnly t u) : queuesOnly s u := by
  unfold queuesOnly at *
  rw [← hst, ← htu]

theorem queuesOnly_setQueue (s : State) (q : Nat) (x : Queue) : queuesOnly s (s.setQueue q x) := rfl

theorem queuesOnly_bindQueues (s : State) (c gid : Nat) (qs : List Nat) : queuesOnly s (s.bindQueues c gid qs) :=
  State.forEach_keeps (P := queuesOnly s) (fun i _ u hu => hu.trans (queuesOnly_setQueue u i _)) s rfl

end Sys2Proof.Machine
end

section
/-! PROOFS. Session and context capsules (spec/14_ethernet_and_capsules.md, spec/09_step_graphs_and_scheduling.md). -/
namespace Sys2Proof.Machine

/-! ### Opening a context (R215, R218) -/

/-- What the body of CTX_OPEN has to be. -/
def ctxOpenOk (cap : Capsule) : Bool :=
  bodyOk cap 100 [(0, 18), (20, 80)] && capF cap 1 1 < 8 && capF cap 4 4 < 2 ^ 20 && capF cap 16 2 ≠ 0 &&
    (maskList (capF cap 52 32) 256).all fun i => 4 ≤ i

/-- A context opened IDLE with what the capsule names, before its queues are bound. -/
def State.ctxOpened (s : State) (cap : Capsule) (gen : Nat) : State :=
  ((s.setCtx (capF cap 0 1)
    { isOpen := true, job := capF cap 4 4, gen := gen, polders := capF cap 2 2, flasks := maskList (capF cap 20 32) 256,
      cores := capF cap 8 8, priority := capF cap 1 1 }).setCtxState (capF cap 0 1) csIdle).setF fdPdLlcWays pgPd (capF cap 0 1)
    (capF cap 16 2)

/-- CTX_OPEN's own part for a job of a committed generation. -/
def State.ctxOpenJob (s : State) (q : Nat) (cap : Capsule) (gen : Nat) : State × Answer :=
  if !((maskList (capF cap 2 2) 16).all fun p => (s.jobPolders (capF cap 4 4)).contains p) then just s scAccess
  else if s.allotConflict (capF cap 0 1) (maskList (capF cap 20 32) 256) (capF cap 8 8) ||
      s.queueTaken (capF cap 0 1) (maskList (capF cap 52 32) 256) then just s scConflict
  else
    just ((((s.ctxOpened cap gen).bindQueues (capF cap 0 1) (capF cap 84 16) (maskList (capF cap 52 32) 256)).trace 9 (capF cap 0 1) q
      scOK).reproChange (capF cap 0 1)) scOK

/-- CTX_OPEN's own part. -/
def State.ctxOpenPart (s : State) (q : Nat) (cap : Capsule) : State × Answer :=
  match if s.ctxState (capF cap 0 1) = csClosed then s.committedGen (capF cap 4 4) else none with
  | none => just s scState
  | some gen => s.ctxOpenJob q cap gen

theorem execCtxOpen_eq (q : QueueId) (cap : Capsule) (s : State) :
    execCtxOpen q cap s =
      s.capsule q cap { code := 0x0010, mgmt := true, bodyCtx := true } (ctxOpenOk cap) fun s => s.ctxOpenPart q.val cap := by
  unfold execCtxOpen State.ctxOpenPart
  rfl

theorem effect_ctxOpen {q : QueueId} {cap : Capsule} {s z y : State} {a : Answer} {P : State → Prop}
    (htakes : s.capTakes q cap { code := 0x0010, mgmt := true, bodyCtx := true } z) (hok : ctxOpenOk cap = true)
    (hrun : z.ctxOpenPart q.val cap = (y, a))
    (hP : P (y.endCapsule q.val { code := 0x0010, mgmt := true, bodyCtx := true } cap a)) : Effect (.ctxOpen q cap) s P := by
  have hexec : exec (.ctxOpen q cap) s = execCtxOpen q cap s := rfl
  exact effect_capsule (hexec.trans (execCtxOpen_eq q cap s)) htakes hok hrun hP

theorem State.ctxOpenPart_refused {s : State} {cap : Capsule} (q : Nat)
    (h : s.ctxState (capF cap 0 1) ≠ csClosed ∨ s.committedGen (capF cap 4 4) = none) :
    s.ctxOpenPart q cap = (s, { code := scState }) := by
  have hnone : (if s.ctxState (capF cap 0 1) = csClosed then s.committedGen (capF cap 4 4) else none) = none := by
    simpa [or_iff_not_imp_left] using h
  rw [State.ctxOpenPart, hnone]
  rfl

section
variable {s : State} {cap : Capsule} {gen : Nat} (hclosed : s.ctxState (capF cap 0 1) = csClosed)
  (hgen : s.committedGen (capF cap 4 4) = some gen)
  (hpolders : ∀ p ∈ maskList (capF cap 2 2) 16, (s.jobPolders (capF cap 4 4)).contains p = true)
include hclosed hgen

theorem State.ctxOpenPart_of_job (q : Nat) : s.ctxOpenPart q cap = s.ctxOpenJob q cap gen := by
  rw [State.ctxOpenPart, if_pos hclosed, hgen]

include hpolders

theorem State.ctxOpenPart_conflict (q : Nat)
    (h : s.allotConflict (capF cap 0 1) (maskList (capF cap 20 32) 256) (capF cap 8 8) = true ∨
      s.queueTaken (capF cap 0 1) (maskList (capF cap 52 32) 256) = true) :
    s.ctxOpenPart q cap = (s, { code := scConflict }) := by
  rw [State.ctxOpenPart_of_job hclosed hgen, State.ctxOpenJob, if_neg (by simpa using hpolders), if_pos (by simpa using h)]
  rfl

theorem State.ctxOpenPart_opens (q : Nat)
    (hallot : s.allotConflict (capF cap 0 1) (maskList (capF cap 20 32) 256) (capF cap 8 8) = false)
    (hqueues : s.queueTaken (capF cap 0 1) (maskList (capF cap 52 32) 256) = false) :
    s.ctxOpenPart q cap = ((((s.ctxOpened cap gen).bindQueues (capF cap 0 1) (capF cap 84 16) (maskList (capF cap 52 32) 256)).trace 9
      (capF cap 0 1) q scOK).reproChange (capF cap 0 1), {}) := by
  rw [State.ctxOpenPart_of_job hclosed hgen, State.ctxOpenJob, if_neg (by simpa using hpolders), if_neg (by simp [hallot, hqueues])]
  rfl

end

/-! ### The rows -/

/-- Settles O45: each row's own part, once its header passes, is one of its branches. -/
theorem sessionCapsules : Obligations.SessionCapsules := by
  unfold Obligations.SessionCapsules
  rintro q cap s z c rfl
  refine ⟨?_, fun htakes hok => ?_, ?_, ?_, ?_, ?_, ?_, ?_⟩
  · rintro o rfl htakes hok
    have hexec : exec (.sessionOpen q cap) s = execSessionOpen q cap s := rfl
    refine ⟨fun hready => ?_, fun hready hsession => ?_, fun hready hsession hmajor => ?_, ?_⟩
    · exact effect_capsule hexec htakes hok (if_pos hready) rfl
    · exact effect_capsule hexec htakes hok ((if_neg hready).trans (if_pos (Option.isSome_iff_ne_none.mpr hsession))) rfl
    · exact effect_capsule hexec htakes hok (((if_neg hready).trans (if_neg (by simp [hsession]))).trans (if_pos hmajor)) rfl
    · rintro hready hsession hmajor n rfl
      exact effect_capsule hexec htakes hok (((if_neg hready).trans (if_neg (by simp [hsession]))).trans (if_neg (not_not.mpr hmajor)))
        ⟨_, rfl, (recordsOnly_trace _ _ _ _ _).trans (recordsOnly_trace _ _ _ _ _)⟩
  · have hexec : exec (.sessionClose q cap) s = execSessionClose q cap s := rfl
    refine effect_capsule hexec htakes hok rfl ?_
    rw [State.endCapsule_later]
    exact ⟨rfl, State.endSession_spec _ _⟩
  · rintro o rfl htakes hok
    have hexec : exec (.nop q cap) s = execNop q cap s := rfl
    exact effect_capsule hexec htakes hok rfl rfl
  · rintro o qs fs gen rfl htakes hbody hprio hjob hways rfl rfl hqs
    have hok : ctxOpenOk cap = true := by
      simpa [ctxOpenOk, hbody, hprio, hways] using ⟨hjob, hqs⟩
    refine ⟨fun hno => ?_, fun hclosed hgen hpolders => ⟨fun hconflict => ?_, fun hallot hqueues => ?_⟩⟩
    · exact effect_ctxOpen htakes hok (State.ctxOpenPart_refused _ hno) rfl
    · exact effect_ctxOpen htakes hok (State.ctxOpenPart_conflict hclosed hgen hpolders _ hconflict) rfl
    · refine effect_ctxOpen htakes hok (State.ctxOpenPart_opens hclosed hgen hpolders _ hallot hqueues)
        ⟨_, z.ctxOpened cap gen, rfl, recordsOnly_trace _ _ _ _ _, ?_⟩
      rintro x rfl
      rfl
  · rintro o rfl htakes hok
    have hexec : exec (.ctxClose q cap) s = execCtxClose q cap s := rfl
    unfold execCtxClose at hexec
    refine ⟨fun hopen => ?_, fun hclosed => ?_⟩
    · exact effect_capsule hexec htakes hok (if_neg (by simp [hopen])) rfl
    · exact effect_capsule hexec htakes hok (if_pos (by simp [hclosed])) rfl
  · rintro o fs n rfl htakes hok rfl rfl hopen
    have hexec : exec (.allot q cap) s = execAllot q cap s := rfl
    unfold execAllot at hexec
    refine ⟨fun hconflict => ?_, fun hfree hbusy => ?_, fun hfree hidle => ?_⟩
    · exact effect_capsule hexec htakes hok ((if_neg (by simp [hopen])).trans (if_pos hconflict)) rfl
    · exact effect_capsule hexec htakes hok
        (((if_neg (by simp [hopen])).trans (if_neg (by simp [hfree]))).trans (if_pos hbusy)) rfl
    · exact effect_capsule hexec htakes hok
        (((if_neg (by simp [hopen])).trans (if_neg (by simp [hfree]))).trans (if_neg (by simp [hidle]))) rfl
  · rintro o qs rfl htakes hbody rfl hqs hopen
    have hexec : exec (.queueBind q cap) s = execQueueBind q cap s := rfl
    unfold execQueueBind at hexec
    have hok : (bodyOk cap 52 [(0, 1), (4, 48)] && (maskList (capF cap 4 32) 256).all fun i => 4 ≤ i) = true := by
      simpa [hbody] using hqs
    refine ⟨fun htaken => ?_, fun hfree => ?_⟩
    · exact effect_capsule hexec htakes hok ((if_neg (by simp [hopen])).trans (if_pos htaken)) rfl
    · refine effect_capsule hexec htakes hok ((if_neg (by simp [hopen])).trans (if_neg (by simp [hfree])))
        ⟨_, rfl, fun i hi => ?_, fun i hi => ?_, queuesOnly_bindQueues _ _ _ _⟩
      · rw [State.queue_bindQueues, if_pos hi]
        rfl
      · rw [State.queue_bindQueues, if_neg hi]
  · rintro o rfl htakes hok
    have hexec : exec (.statusQuery q cap) s = execStatusQuery q cap s := rfl
    unfold execStatusQuery at hexec
    exact effect_capsule hexec htakes hok rfl rfl

end Sys2Proof.Machine
end

section
/-! SUPPORT. Rules of the linkage array (R192–R213): what an engine does with the problem handed to it, what an iteration decides, what a
problem's end leaves, and which state gating, waking and repair touch. -/
namespace Sys2Proof.Machine

/-! ### Engines -/

@[simp] theorem State.lsaEngine_setEngine_self (s : State) (e : Nat) (r : Option LsaRun) : (s.setEngine e r).lsaEngine e = r :=
  mapGet_put_self _ _ _ _

/-- Without a soft deadline, or before it, no problem is late (R210). -/
theorem softPassed_eq_false {soft now : Nat} (h : soft = 0 ∨ now < soft) : (soft ≠ 0 && soft ≤ now) = false := by
  simpa [or_iff_not_imp_left] using h

/-! ### A problem's start (R206, R210) -/

/-- The state once the next problem of batch b is handed out. -/
def State.lsaHandOut (s : State) (b : LsaBatch) : State :=
  { s with lsa := { (s.putBatch { b with next := b.next + 1 }).lsa with lastQueue := b.q } }

/-- What engine e does with batch b's next problem once it has read the descriptor d. -/
def State.lsaBegin (z : State) (e : Nat) (b : LsaBatch) (d : List Byte) (bad : Bool) : State :=
  if bad then (z.lsaPoison (z.lsaCtx b.q) (b.prob + 64 * b.next)).lsaEnd (lsaDesc b b.next d) 3 0 0 false
  else if b.soft ≠ 0 && b.soft ≤ z.now then z.lsaEnd (lsaDesc b b.next d) 3 0 0 true
  else
    let (y, r, stop) := z.lsaRead b b.next d
    match stop with
    | some code => y.lsaEnd r code 0 0 true
    | none => y.setEngine e (some r)

section
variable {s z y : State} {e : Nat} {b : LsaBatch} {d : List Byte} {bad : Bool} {r : LsaRun}

/-- A free engine in service of a clocked array begins the problem handed out. -/
theorem State.lsaStart_of_next (hclock : s.lsa.gated = false) (hservice : e < s.getF fdLsaEngInService pgLsa)
    (hfree : s.lsaEngine e = none) (hnext : s.lsaNext = some b)
    (hread : (s.lsaHandOut b).engineRead (b.prob + 64 * b.next) 64 = (z, d, bad)) : s.lsaStart e = z.lsaBegin e b d bad := by
  have htakes : (s.lsa.gated || s.getF fdLsaEngInService pgLsa ≤ e || (s.lsaEngine e).isSome) = false := by
    simp [hclock, hservice, hfree]
  unfold State.lsaStart
  rw [htakes, if_neg (by decide), hnext]
  exact congrArg (fun x : State × List Byte × Bool => x.1.lsaBegin e b x.2.1 x.2.2) hread

theorem State.lsaBegin_poisoned :
    z.lsaBegin e b d true = (z.lsaPoison (z.lsaCtx b.q) (b.prob + 64 * b.next)).lsaEnd (lsaDesc b b.next d) 3 0 0 false := rfl

theorem State.lsaBegin_late (hsoft : b.soft ≠ 0) (hlate : b.soft ≤ z.now) :
    z.lsaBegin e b d false = z.lsaEnd (lsaDesc b b.next d) 3 0 0 true := by
  simp [State.lsaBegin, hsoft, hlate]

section
variable (hintime : b.soft = 0 ∨ z.now < b.soft)
include hintime

theorem State.lsaBegin_starts (hread : z.lsaRead b b.next d = (y, r, none)) : z.lsaBegin e b d false = y.setEngine e (some r) := by
  rw [State.lsaBegin, softPassed_eq_false hintime, hread]
  rfl

theorem State.lsaBegin_stops {code : Nat} (hread : z.lsaRead b b.next d = (y, r, some code)) :
    z.lsaBegin e b d false = y.lsaEnd r code 0 0 true := by
  rw [State.lsaBegin, softPassed_eq_false hintime, hread]
  rfl

end

/-! ### An iteration (R210) -/

/-- The later iterate replaces the best one seen, unless its residual is larger. -/
def LsaRun.improves (r : LsaRun) (resid : Nat) : Bool := r.best = 0 || !((fmtFP64.decode (r.best - 1)).lt (fmtFP64.decode resid))

/-- The code, plus 1, that iteration `it` decides at time `now`; 0 while the problem goes on. -/
def LsaBatch.iterCode (b : LsaBatch) (resid it now : Nat) : Nat :=
  if residualDone resid b.tol then 1 else if b.maxIter ≤ it then 10 else if b.soft ≠ 0 && b.soft ≤ now then 2 else 0

/-- The problem after its next iteration, of residual `resid`. -/
def LsaRun.iterated (r : LsaRun) (resid code : Nat) : LsaRun :=
  { r with iter := r.iter + 1, best := if r.improves resid then resid + 1 else r.best,
           bestIter := if r.improves resid then r.iter + 1 else r.bestIter, code := code }

/-- An undecided contact problem iterates once more. -/
theorem State.lsaIterate_of_contact (hrun : s.lsaEngine e = some r) (hbatch : s.lsaBatch r.q r.k = some b) (hop : r.op = 4)
    (hnc : r.nc ≠ 0) (hcode : r.code = 0) {resid : Nat}
    (hresid : resid = Config.linkageResidual r.operands r.start (r.iter + 1) % 2 ^ 64) :
    s.lsaIterate e = s.setEngine e (some (r.iterated resid (b.iterCode resid (r.iter + 1) s.now))) := by
  have hgoes : ¬ (r.op ≠ 4 || r.nc = 0 || r.code ≠ 0) = true := by simp [hop, hnc, hcode]
  subst hresid
  unfold State.lsaIterate
  rw [hrun]
  dsimp only
  rw [hbatch]
  dsimp only
  rw [if_neg hgoes]
  rfl

theorem LsaRun.iterated_best_first {resid : Nat} (code : Nat) (h : r.best = 0) :
    (r.iterated resid code).best = resid + 1 ∧ (r.iterated resid code).bestIter = r.iter + 1 := by
  simp [LsaRun.iterated, LsaRun.improves, h]

theorem LsaRun.iterated_best_kept {resid : Nat} (code : Nat) (h : r.best ≠ 0)
    (hworse : (fmtFP64.decode (r.best - 1)).lt (fmtFP64.decode resid) = true) :
    (r.iterated resid code).best = r.best ∧ (r.iterated resid code).bestIter = r.bestIter := by
  simp [LsaRun.iterated, LsaRun.improves, h, hworse]

section
variable {resid it now : Nat}

theorem LsaBatch.iterCode_converged (h : residualDone resid b.tol = true) : b.iterCode resid it now = 1 := if_pos h

variable (h : residualDone resid b.tol = false)
include h

theorem LsaBatch.iterCode_spent (hmax : b.maxIter ≤ it) : b.iterCode resid it now = 10 := by
  simp [LsaBatch.iterCode, h, hmax]

variable (hmax : it < b.maxIter)
include hmax

theorem LsaBatch.iterCode_late (hsoft : b.soft ≠ 0) (hlate : b.soft ≤ now) : b.iterCode resid it now = 2 := by
  simp [LsaBatch.iterCode, h, hmax, hsoft, hlate]

theorem LsaBatch.iterCode_open (hintime : b.soft = 0 ∨ now < b.soft) : b.iterCode resid it now = 0 := by
  rw [LsaBatch.iterCode, h, softPassed_eq_false hintime, if_neg (by decide), if_neg (by omega), if_neg (by decide)]

end

/-! ### A problem's end (R193, R202, R203, R213) -/

/-- The saturations of a problem's result. -/
def LsaRun.sat (r : LsaRun) : Nat := Config.linkageSat r.op r.operands r.start r.bestIter % 2 ^ 16

/-- The residual in a problem's status record. -/
def LsaRun.resid (r : LsaRun) : Nat := if r.nc = 0 then 0 else r.best - 1

section
variable (hrun : s.lsaEngine e = some r) (hclean : r.poisoned = false)
include hrun hclean

/-- A singular problem ends with nothing written but its status. -/
theorem State.lsaProblemEnd_singular (hcode : r.code = 8) :
    s.lsaProblemEnd e = (s.setEngine e none).lsaEnd r 7 r.sat r.resid true := by
  simp [State.lsaProblemEnd, hrun, hclean, hcode, LsaRun.sat, LsaRun.resid]

/-- Any other problem with good operands ends with its outputs written, and a warm record in its batch's shadow. -/
theorem State.lsaProblemEnd_written (hdecided : ¬(r.op = 4 ∧ r.nc ≠ 0 ∧ r.code = 0)) (h8 : r.code ≠ 8) (h9 : r.code ≠ 9) :
    s.lsaProblemEnd e = (((s.setEngine e none).engineWrite (engineOf (s.lsaCtx r.q)) r.outAt ((lsaOut r).flatMap (leBytes 8))).lsaShadow
      r (lsaOut r)).lsaEnd r (r.code - 1) r.sat r.resid true := by
  have hgoes : ¬ (r.op = 4 && r.nc ≠ 0 && r.code = 0) = true := by simpa [and_assoc] using hdecided
  unfold State.lsaProblemEnd
  rw [hrun]
  dsimp only
  rw [if_neg hgoes, if_neg (by omega), if_neg (by omega), hclean]
  rfl

end
end

/-! ### Batches (R206, R211) -/

theorem State.lsaComplete_of_ended {s : State} {q : Nat} {b : LsaBatch}
    (h : (s.lsa.batches.find? fun b => b.q = q && (b.refused || b.codes.length = b.count)) = some b) :
    s.lsaComplete q = (s.forEach b.shadow fun x t => t.engineWrite (engineOf (s.lsaCtx q)) x.1 x.2).lsaReport b := by
  rw [State.lsaComplete, h]

/-- The problems of a batch that engines work on, ended at HARD, and then those not handed out, ended as not run. -/
def State.lsaCutShort (s : State) (b : LsaBatch) : State :=
  (s.forEach (s.lsaOn b) fun r s => ((s.setEngine r.1 none).lsaAbort r.2).lsaEnd r.2 2 0 0 true).forEach
    (upFrom b.next (b.count - b.next)) fun i s => (s.engineRead (b.prob + 64 * i) 64).1.lsaEnd
      (lsaDesc b i (s.engineRead (b.prob + 64 * i) 64).2.1) 3 0 0 (!(s.engineRead (b.prob + 64 * i) 64).2.2)

theorem State.lsaHard_of_open {s : State} {q : Nat} {b x : LsaBatch}
    (h : (s.lsa.batches.find? fun b => b.q = q && b.hard ≠ 0 && !b.refused && b.codes.length ≠ b.count) = some b)
    (hleft : (s.lsaCutShort b).lsaBatch b.q b.k = some x) :
    s.lsaHard q = (s.lsaCutShort b).lsaReport
      { x with shadow := [], codes := if x.codes.any fun y => y.2 = 2 then x.codes else mapIns x.codes 4096 2 } := by
  rw [State.lsaHard, h]
  change (match (s.lsaCutShort b).lsaBatch b.q b.k with | some b => _ | none => _) = _
  rw [hleft]
  rfl

/-! ### Gating and waking (R207) -/

theorem recordsOnly_count (s : State) (page slot n : Nat) : recordsOnly s (s.count page slot n) := recordsOnly_setF s _ _ _ _

/-- Gating stops the array's clock and records it. -/
theorem State.lsaGate_of_idle {s : State} (hidle : s.getF fdLsaGateIdleUs pgLsa ≠ 0) (hbatches : s.lsa.batches = [])
    (hpoked : s.lsa.poked = []) (hclock : s.lsa.gated = false) :
    s.lsaGate.lsa = { s.lsa with gated := true } ∧ recordsOnly { s with lsa := s.lsaGate.lsa } s.lsaGate := by
  rw [State.lsaGate, if_pos (by simp [hidle, hbatches, hpoked, hclock]), State.event_lsa]
  exact ⟨rfl, recordsOnly_event _ _ _ _ _ _ _⟩

/-- The end of a wake starts the clock, counts and records it. -/
theorem State.lsaWoken_of_waking {s : State} (hwaking : s.lsa.waking = true) :
    s.lsaWoken.lsa = { s.lsa with gated := false, waking := false } ∧ recordsOnly { s with lsa := s.lsaWoken.lsa } s.lsaWoken := by
  rw [State.lsaWoken, if_pos hwaking, State.event_lsa]
  exact ⟨rfl, (recordsOnly_count _ _ _ _).trans (recordsOnly_event _ _ _ _ _ _ _)⟩

/-! ### Engine repair (R212) -/

@[simp] theorem State.raiseSpare_lsa (s : State) (v : Nat) : (s.raiseSpare v).lsa = s.lsa := by
  unfold State.raiseSpare
  split <;> rfl

/-- The spare state is no field of the array's page. -/
theorem State.getF_raiseSpare_lsa (s : State) (v : Nat) {d : FieldDesc} {i : Nat} (hoff : d.off + d.stride * i < 4096)
    (hlsb : d.lsb < 64) : (s.raiseSpare v).getF d pgLsa i = s.getF d pgLsa i := by
  unfold State.raiseSpare
  split
  · exact State.getF_setF_ne _ _ _ _ _ _ _ _ (descKey_page_ne (by decide) (by decide) (by decide) hoff hlsb)
  · rfl

/-- One more spare of the array in use, with the node's spare state raised when none is left. -/
def State.lsaSpareUsed (s : State) : State :=
  let s := (s.addF fdLsaEngSparesUsed pgLsa 0 1).count pgLsa 7 1
  if 2 ≤ s.getF fdLsaEngSparesUsed pgLsa then s.raiseSpare 1 else s

theorem State.lsaEngine_lsaSpareUsed (s : State) (e : Nat) : s.lsaSpareUsed.lsaEngine e = s.lsaEngine e := by
  unfold State.lsaSpareUsed
  dsimp only
  split
  · rw [State.lsaEngine, State.raiseSpare_lsa]
    rfl
  · rfl

theorem State.getF_sparesUsed_lsaSpareUsed {s : State} (h : s.getF fdLsaEngSparesUsed pgLsa < 2) :
    s.lsaSpareUsed.getF fdLsaEngSparesUsed pgLsa = s.getF fdLsaEngSparesUsed pgLsa + 1 := by
  have hused : ((s.addF fdLsaEngSparesUsed pgLsa 0 1).count pgLsa 7 1).getF fdLsaEngSparesUsed pgLsa =
      s.getF fdLsaEngSparesUsed pgLsa + 1 := by
    rw [State.count, State.getF_addF_place _ _ _ (by decide), State.getF_addF_self]
    simp only [fdLsaEngSparesUsed] at h ⊢
    omega
  unfold State.lsaSpareUsed
  dsimp only
  split
  · rw [State.getF_raiseSpare_lsa _ _ (by decide) (by decide), hused]
  · exact hused

/-- What a repaired engine works on: a contact problem restarts from its beginning. -/
def LsaRun.restarted (r : LsaRun) : LsaRun :=
  if r.op = 4 && (r.code = 1 || r.code = 2 || r.code = 10 || r.code = 0) then
    { r with iter := 0, best := 0, bestIter := 0, code := 0 } else r

section
variable {s : State} (h : s.getF fdLsaEngSparesUsed pgLsa < 2) (e : Nat)
include h

theorem State.lsaRemap_of_spare :
    s.lsaRemap e = (s.lsaEngine e).elim s.lsaSpareUsed fun r => s.lsaSpareUsed.setEngine e (some r.restarted) := by
  rw [← State.lsaEngine_lsaSpareUsed, State.lsaRemap, if_neg (by omega)]
  change (match s.lsaSpareUsed.lsaEngine e with | some r => _ | none => _) = _
  cases s.lsaSpareUsed.lsaEngine e <;> rfl

theorem State.getF_sparesUsed_lsaRemap :
    (s.lsaRemap e).getF fdLsaEngSparesUsed pgLsa = s.getF fdLsaEngSparesUsed pgLsa + 1 := by
  rw [State.lsaRemap_of_spare h, ← State.getF_sparesUsed_lsaSpareUsed h]
  cases s.lsaEngine e <;> rfl

/-- An undecided contact problem restarts on the spare. -/
theorem State.lsaEngine_lsaRemap {r : LsaRun} (hrun : s.lsaEngine e = some r) (hop : r.op = 4) (hcode : r.code = 0) :
    (s.lsaRemap e).lsaEngine e = some { r with iter := 0, best := 0, bestIter := 0, code := 0 } := by
  rw [State.lsaRemap_of_spare h, hrun, Option.elim_some, State.lsaEngine_setEngine_self]
  simp [LsaRun.restarted, hop, hcode]

end

end Sys2Proof.Machine
end

section
/-! PROOFS. The linkage array (spec/08_linkage_solver.md). -/
namespace Sys2Proof.Machine

/-- A contact problem's iteration, as LSA_ITERATION_END leaves its engine. -/
theorem gives_lsaIterationEnd {e : EngineId} {s : State} {r : LsaRun} {b : LsaBatch} {resid : Nat} (hrun : s.lsaEngine e.val = some r)
    (hbatch : s.lsaBatch r.q r.k = some b) (hop : r.op = 4) (hnc : r.nc ≠ 0) (hcode : r.code = 0)
    (hresid : resid = Config.linkageResidual r.operands r.start (r.iter + 1) % 2 ^ 64) :
    Gives (.lsaIterationEnd e) s fun t => { t with lsa := s.lsa } = s ∧
      t.lsaEngine e.val = some (r.iterated resid (b.iterCode resid (r.iter + 1) s.now)) := by
  refine ⟨s.lsaIterate e.val, rfl, ?_⟩
  rw [State.lsaIterate_of_contact hrun hbatch hop hnc hcode hresid]
  exact ⟨rfl, State.lsaEngine_setEngine_self _ _ _⟩

/-- Settles O31: each row is its operation, an engine's work being one of its ends, and gating, waking and repair touch only their parts. -/
theorem linkageArray : Obligations.LinkageArray := by
  unfold Obligations.LinkageArray
  refine ⟨?_, ?_, ?_, ?_, ?_, ?_, ?_⟩
  · rintro src q v s off rfl hfit hclear
    refine effect_submit rfl hclear fun m hempty => ?_
    rw [State.serve_write rfl, State.serveWrite_of_one_line hempty (List.cons_ne_nil _ _) (Nat.add_le_add_right hfit 8)]
    exact ⟨rfl, rfl⟩
  · intro e s z y b d bad r stop hclock hservice hfree hnext hread
    have hexec : exec (.lsaProblemStart e) s = .next (z.lsaBegin e.val b d bad).finish := by
      rw [← State.lsaStart_of_next hclock hservice hfree hnext hread]
      rfl
    refine ⟨?_, ?_, ?_⟩
    · rintro rfl
      exact ⟨_, hexec, State.lsaBegin_poisoned⟩
    · rintro rfl hsoft hlate
      exact ⟨_, hexec, State.lsaBegin_late hsoft hlate⟩
    · rintro rfl hintime hproblem
      refine ⟨_, hexec, ?_, ?_⟩
      · rintro rfl
        rw [State.lsaBegin_starts hintime hproblem]
        exact ⟨State.lsaEngine_setEngine_self _ _ _, rfl⟩
      · rintro code rfl
        exact State.lsaBegin_stops hintime hproblem
  · intro e s r b resid hrun hbatch hop hnc hcode hresid
    obtain ⟨t, hexec, hframe, hengine⟩ := gives_lsaIterationEnd hrun hbatch hop hnc hcode hresid
    exact ⟨t, hexec, hframe, _, hengine, rfl, LsaRun.iterated_best_first _, LsaRun.iterated_best_kept _, LsaBatch.iterCode_converged,
      LsaBatch.iterCode_spent, LsaBatch.iterCode_late, LsaBatch.iterCode_open⟩
  · rintro e s z r hrun hdecided hclean rfl h9
    exact ⟨fun h8 => ⟨_, rfl, State.lsaProblemEnd_singular hrun hclean h8⟩,
      fun h8 => ⟨_, rfl, State.lsaProblemEnd_written hrun hclean hdecided h8 h9⟩⟩
  · intro q s b
    refine ⟨fun hended => ⟨_, rfl, State.lsaComplete_of_ended hended⟩, ?_⟩
    rintro hopen z x rfl hleft
    exact ⟨_, rfl, State.lsaHard_of_open hopen hleft⟩
  · intro s
    exact ⟨fun hidle hbatches hpoked hclock => ⟨_, rfl, State.lsaGate_of_idle hidle hbatches hpoked hclock⟩,
      fun hwaking => ⟨_, rfl, State.lsaWoken_of_waking hwaking⟩⟩
  · intro e s hspare
    exact ⟨_, rfl, State.getF_sparesUsed_lsaRemap hspare _, fun r => State.lsaEngine_lsaRemap hspare _⟩

end Sys2Proof.Machine
end

section
/-! PROOFS. The checks of every capsule (spec/14_ethernet_and_capsules.md). -/
namespace Sys2Proof.Machine

/-! ### What keeps a capsule from its own part (R219, R386, R456) -/

/-- The command of every row is defined as the common course of the row's opcode. -/
theorem exec_capRow : ∀ r ∈ capRows, ∀ (q : QueueId) (cap : Capsule) (s : State),
    ∃ ok run, exec (r.1 q cap) s = s.capsule q cap r.2 ok run := by
  simp only [capRows, List.forall_mem_cons, List.not_mem_nil, false_implies, implies_true, and_true]
  and_intros
  all_goals
    intro q cap s
    delta exec execSessionOpen execSessionClose execNop execCtxOpen execCtxClose execAllot execQueueBind execStatusQuery execGraphLoad
      execStepStart execStepStop execCkptRequest execRestore execQpConnect execQpClose execMrReg execMrDereg execTraceSet execLogRead
      execRegRead execRegWrite execToken execNodeReset
    exact ⟨_, _, rfl⟩

section
variable {s : State} {q : QueueId} {cap : Capsule} {o : Opcode}

/-- Behind an outstanding capsule, or on a tenant queue out of service, a capsule does not run. -/
theorem State.capsule_held (h : (s.queue q.val).busy.isSome = true ∨ (s.err.out = true ∧ 4 ≤ q.val)) (ok : Bool)
    (run : State → State × Answer) : s.capsule q cap o ok run = .next s := by
  have hheld : ((s.queue q.val).busy.isSome || (s.err.out && 4 ≤ q.val)) = true := by simpa using h
  exact if_pos hheld

/-- A capsule whose header fails a check ends with that check's status, whatever its own part. -/
theorem State.capsule_of_refused {c : Nat} (hreach : s.capReaches q o)
    (hcheck : ((s.capWake o).popRing q.val o.code cap.tag.toNat).capsuleCheck q.val o cap = some c) (ok : Bool)
    (run : State → State × Answer) :
    s.capsule q cap o ok run =
      .next (((s.capWake o).popRing q.val o.code cap.tag.toNat).endCapsule q.val o cap { code := c }) := by
  obtain ⟨hbusy, hout, hdeep⟩ := hreach
  have hservice : ((s.queue q.val).busy.isSome || (s.err.out && 4 ≤ q.val)) = false := by
    simpa [hbusy] using hout
  unfold State.capWake at hdeep hcheck ⊢
  unfold State.capsule
  dsimp only
  rw [hservice, if_neg (by decide), hdeep, if_neg (by decide), hcheck]

end

/-! ### The checks of the header, in order (R386) -/

section
variable {s : State} {q : Nat} {cap : Capsule} {o : Opcode}

theorem State.capsuleCheck_noSession (hnone : (s.queue q).session = none) (hcode : o.code ≠ 0x0001) :
    s.capsuleCheck q o cap = some 0x0F :=
  if_pos (by simp [hnone, hcode])

section
variable (hsession : (s.queue q).session = none → o.code = 0x0001)
include hsession

theorem State.capsuleCheck_unsupported (hfeature : bitAt (((s.queue q).session.map (·.features)).getD 1) o.feature = false) :
    s.capsuleCheck q o cap = some 0x01 :=
  (if_neg (by simpa using hsession)).trans (if_pos (by simpa using hfeature))

variable (hfeature : bitAt (((s.queue q).session.map (·.features)).getD 1) o.feature = true)
include hfeature

theorem State.capsuleCheck_privileged (hmgmt : o.mgmt = true) (hq : 4 ≤ q) : s.capsuleCheck q o cap = some 0x02 :=
  (if_neg (by simpa using hsession)).trans ((if_neg (by simpa using hfeature)).trans (if_pos (by simp [hmgmt, hq])))

/-- A management queue passes the third check, and the header's own fields are next. -/
theorem State.capsuleCheck_bad (hq : q < 4) (hbad : cap.reserved = true ∨ (o.ctxOp = true ∧ 15 < cap.ctx.toNat)) :
    s.capsuleCheck q o cap = some 0x0B := by
  refine (if_neg (by simpa using hsession)).trans ((if_neg (by simpa using hfeature)).trans ((if_neg (by simp [hq])).trans (if_pos ?_)))
  obtain hreserved | ⟨hop, hctx⟩ := hbad
  · simp [hreserved]
  · simp [hop, hctx]

end
end

/-- Settles O44: what holds a capsule leaves the state as it is, and the first check that its header fails gives its status. -/
theorem capsuleChecks : Obligations.CapsuleChecks := by
  unfold Obligations.CapsuleChecks
  rintro r hr q cap s z ends rfl hends
  obtain ⟨ok, run, hexec⟩ := exec_capRow r hr q cap s
  refine ⟨fun hheld => ⟨s, hexec.trans (State.capsule_held hheld ok run), rfl⟩, fun hreach => ?_⟩
  have refuses {c : Nat} (hcheck : ((s.capWake r.2).popRing q.val r.2.code cap.tag.toNat).capsuleCheck q.val r.2 cap = some c) :
      Gives (r.1 q cap) s (ends c) :=
    ⟨_, hexec.trans (State.capsule_of_refused hreach hcheck ok run), (hends c _).mpr rfl⟩
  refine ⟨fun hnone hcode => refuses (State.capsuleCheck_noSession hnone hcode), ?_⟩
  rintro f rfl hsession
  refine ⟨fun hfeature => ?_, fun hfeature hmgmt hq => ?_, fun hfeature hq hreserved => ?_, fun hfeature hq _ hop hctx => ?_⟩
  · exact refuses (State.capsuleCheck_unsupported hsession hfeature)
  · exact refuses (State.capsuleCheck_privileged hsession hfeature hmgmt hq)
  · exact refuses (State.capsuleCheck_bad hsession hfeature hq (.inl hreserved))
  · exact refuses (State.capsuleCheck_bad hsession hfeature hq (.inr ⟨hop, hctx⟩))

end Sys2Proof.Machine
end

section
/-! PROOFS. Graph, step, checkpoint and restore capsules (spec/09_step_graphs_and_scheduling.md, spec/16_checkpoint_and_restore.md). -/
namespace Sys2Proof.Machine

/-! ### The start of replay (R221, R243) -/

/-- Where STEP_START may start a context's replay: open, between replays, its errors corrected, and no restore under way. -/
def State.mayStart (s : State) (c : Nat) : Bool :=
  (s.ctx c).isOpen && (s.ctxState c = csIdle || s.ctxState c = csStalled || s.ctxState c = csFaulted) && !(s.ctx c).uncorrected &&
    (s.ckpt c).restore.isNone

/-- A context as a replay of `g` finds it, reporting to a queue every n commits, or not at all where n is 0. -/
def Ctx.replaying (x : Ctx) (features release q tag n : Nat) : Ctx :=
  { x with features := features, commits := 0, history := [], nextRelease := release, report := if n = 0 then none else some (q, tag, n) }

/-- The fields of `CTX` that name a slot and count HARD runs lie apart from fabric time. -/
theorem State.now_setF_ctx {d : FieldDesc} (hd : d.lsb % 64 ≠ 0) (s : State) (c v : Nat) : (s.setF d pgSched c v).now = s.now := by
  refine State.getF_setF_ne _ _ _ _ _ _ _ _ ?_
  simp only [descKey, fieldKey, fdFtimeNow]
  omega

section
variable {s : State} {c : Nat} (q tag slot n : Nat)

theorem State.stepStart_barred (h : s.mayStart c = false) : s.stepStart q tag c slot n = (s, scState) := by
  unfold State.stepStart
  dsimp only
  unfold State.mayStart at h
  rw [h]
  rfl

section
variable {g : Graph} {slot} (hmay : s.mayStart c = true) (hgraph : (s.ctx c).graphs.getD slot none = some g)
include hmay hgraph

theorem State.stepStart_unfit (hfit : g.fits (s.ctx c).flasks.length = false) : s.stepStart q tag c slot n = (s, scPlace) := by
  unfold State.stepStart
  dsimp only
  unfold State.mayStart at hmay
  rw [hmay, if_pos rfl, hgraph]
  simp only [hfit]
  rfl

theorem State.stepStart_starts (hfit : g.fits (s.ctx c).flasks.length = true) :
    s.stepStart q tag c slot n =
      (((((s.setF fdSchedCtxSlot pgSched c slot).setF fdSchedCtxHardRun pgSched c 0).setCtx c
        ((s.ctx c).replaying (s.features q) (s.now + g.leadTicks) q tag n)).setCtxState c csRunning).reproStart c g, scOK) := by
  have hnow : ((s.setF fdSchedCtxSlot pgSched c slot).setF fdSchedCtxHardRun pgSched c 0).now = s.now := by
    rw [State.now_setF_ctx (by decide), State.now_setF_ctx (by decide)]
  unfold State.stepStart
  dsimp only
  unfold State.mayStart at hmay
  rw [hmay, if_pos rfl, hgraph]
  simp only [hfit, hnow]
  rfl

end
end

/-! ### A stop (R243) -/

section
variable {s : State} {c : Nat}

theorem State.stepStop_stopping (h : s.ctxState c = csStopping) : s.stepStop c = (s, scOK) := if_pos h

/-- A running step goes on to its boundary. -/
theorem State.stepStop_in_step (h : s.ctxState c = csRunning) (hrun : (s.ctx c).run.active = true) :
    ∃ y, s.stepStop c = (y, scOK) ∧ recordsOnly (s.setCtxState c csStopping) y :=
  ⟨_, (if_neg (by rw [h]; decide)).trans ((if_pos h).trans (if_pos hrun)), recordsOnly_trace _ _ _ _ _⟩

/-- Between steps, replay stops at once. -/
theorem State.stepStop_between (h : (s.ctxState c = csRunning ∧ (s.ctx c).run.active = false) ∨ s.ctxState c = csStalled ∨
      s.ctxState c = csFaulted) :
    ∃ y, s.stepStop c = (y, scOK) ∧ recordsOnly (s.stopReplay c csIdle) y := by
  obtain ⟨hstate, hrun⟩ | hstopped := h
  · exact ⟨_, (if_neg (by rw [hstate]; decide)).trans ((if_pos hstate).trans (if_neg (by simp [hrun]))), recordsOnly_trace _ _ _ _ _⟩
  · have hapart : s.ctxState c ≠ csStopping ∧ s.ctxState c ≠ csRunning := by
      obtain hstate | hstate := hstopped <;> rw [hstate] <;> decide
    exact ⟨_, (if_neg hapart.1).trans ((if_neg hapart.2).trans (if_pos (by simpa using hstopped))), recordsOnly_trace _ _ _ _ _⟩

theorem State.stepStop_refused (h : s.ctxState c = csIdle ∨ s.ctxState c = csClosed) : s.stepStop c = (s, scState) := by
  unfold State.stepStop
  obtain hstate | hstate := h <;> simp only [hstate] <;> rfl

end

/-! ### A request kept (R413) -/

theorem State.ckptRequest_kept {s : State} {c off heat : Nat} (h : (s.ckptRequest c off heat).2 = 0) :
    ((s.ckptRequest c off heat).1.ckpt c).request = some (off, heat) := by
  unfold State.ckptRequest at h ⊢
  dsimp only at h ⊢
  split_ifs at h ⊢
  simp [State.ckpt, State.setCkpt]

/-! ### The rows -/

/-- STEP_STOP, from what the stop answers. -/
theorem effect_stepStop {q : QueueId} {cap : Capsule} {s z y : State} {code : Nat} {P : State → Prop}
    (htakes : s.capTakes q cap { code := 0x0022, feature := 1, ctxOp := true } z) (hok : bodyOk cap 0 [] = true)
    (hstop : z.stepStop cap.ctx.toNat = (y, code))
    (hP : P (y.endCapsule q.val { code := 0x0022, feature := 1, ctxOp := true } cap { code := code })) : Effect (.stepStop q cap) s P := by
  have hexec : exec (.stepStop q cap) s = execStepStop q cap s := rfl
  refine effect_capsule hexec htakes hok ?_ hP
  rw [hstop]
  rfl

/-- STEP_START, from what the start answers. -/
theorem effect_stepStart {q : QueueId} {cap : Capsule} {s z y : State} {code : Nat} {P : State → Prop}
    (htakes : s.capTakes q cap { code := 0x0021, feature := 1, ctxOp := true } z)
    (hbody : bodyOk cap 8 [(0, 1), (4, 4)] = true) (hslot : capF cap 0 1 < 4)
    (hstart : z.stepStart q.val cap.tag.toNat cap.ctx.toNat (capF cap 0 1) (capF cap 4 4) = (y, code))
    (hP : P (y.endCapsule q.val { code := 0x0021, feature := 1, ctxOp := true } cap { code := code })) : Effect (.stepStart q cap) s P := by
  have hexec : exec (.stepStart q cap) s = execStepStart q cap s := rfl
  refine effect_capsule hexec htakes (by simp [hbody, hslot]) ?_ hP
  rw [hstart]
  rfl

/-- Settles O46: each row's own part, once its header passes, is what its operation answers. -/
theorem stepCapsules : Obligations.StepCapsules := by
  unfold Obligations.StepCapsules
  rintro q cap s z c rfl
  refine ⟨?_, ?_, ?_, ?_, ?_⟩
  · rintro o rfl htakes hbody hslot y code order hload
    have hexec : exec (.graphLoad q cap) s = execGraphLoad q cap s := rfl
    refine effect_capsule (a := { code := code, detail := order }) hexec htakes (by simp [hbody, hslot]) ?_ rfl
    rw [← hload]
  · rintro o g x rfl htakes hbody hslot rfl
    refine ⟨fun hbarred => ?_, fun hopen hstate hcorrected hrestore hgraph => ?_⟩
    · have hmay : z.mayStart cap.ctx.toNat = false := by
        unfold State.mayStart
        obtain h | h | h | h | h := hbarred <;> simp [h, csIdle, csRunning, csStopping, csStalled, csFaulted, csClosed]
      exact effect_stepStart htakes hbody hslot (State.stepStart_barred _ _ _ _ hmay) rfl
    · have hmay : z.mayStart cap.ctx.toNat = true := by simpa [State.mayStart, hopen, hcorrected, hrestore, or_assoc] using hstate
      refine ⟨fun hfit => ?_, fun hfit => ?_⟩
      · exact effect_stepStart htakes hbody hslot (State.stepStart_unfit _ _ _ hmay hgraph hfit) rfl
      · exact effect_stepStart htakes hbody hslot (State.stepStart_starts _ _ _ hmay hgraph hfit) ⟨_, rfl, rfl⟩
  · rintro o rfl htakes hok
    refine ⟨fun hstate => ?_, fun hstate hrun => ?_, fun hstate => ?_, fun hstate => ?_⟩
    · exact effect_stepStop htakes hok (State.stepStop_stopping hstate) rfl
    · obtain ⟨y, hstop, hrecords⟩ := State.stepStop_in_step hstate hrun
      exact effect_stepStop htakes hok hstop ⟨y, rfl, hrecords⟩
    · obtain ⟨y, hstop, hrecords⟩ := State.stepStop_between hstate
      exact effect_stepStop htakes hok hstop ⟨y, rfl, hrecords⟩
    · exact effect_stepStop htakes hok (State.stepStop_refused hstate) rfl
  · rintro o y code rfl htakes hok hopen hrequest
    have hexec : exec (.ckptRequest q cap) s = execCkptRequest q cap s := rfl
    refine effect_capsule (y := y) (a := { code := code }) hexec htakes hok ?_ ⟨rfl, fun hcode => ?_⟩
    · refine (if_neg (by simp [hopen])).trans ?_
      rw [← hrequest]
      rfl
    · have hkept := State.ckptRequest_kept (s := z) (c := cap.ctx.toNat) (off := capF cap 0 8) (heat := capF cap 8 8)
      rw [← hrequest] at hkept
      exact hkept hcode
  · rintro o y d code n st rs rfl htakes rfl rfl hkind hbody hsome hnone hopen hcheck rfl
    have hexec : exec (.restore q cap) s = execRestore q cap s := rfl
    unfold execRestore at hexec
    have hok : (bodyOk cap (if capF cap 9 1 = 0 then 10 else 16 + 24 * capF cap 9 1) [(0, 10), (16, 24 * capF cap 9 1)] &&
        capF cap 8 1 < 2 && (if capF cap 8 1 = 1 then 1 ≤ capF cap 9 1 && capF cap 9 1 ≤ 8 else capF cap 9 1 = 0)) = true := by
      by_cases hstorage : capF cap 8 1 = 1
      · simpa [hbody, hstorage] using hsome
      · simpa [hbody, hstorage, hkind] using hnone
    refine ⟨fun hcode => ?_, fun hcode => ?_⟩
    · refine effect_capsule (a := { code := code }) hexec htakes hok ((if_neg (by simp [hopen])).trans ?_) rfl
      rw [← hcheck]
      exact if_pos hcode
    · refine effect_capsule (a := { later := true }) hexec htakes hok ((if_neg (by simp [hopen])).trans ?_) (State.endCapsule_later _ _ _ _)
      rw [← hcheck]
      exact if_neg (not_not.mpr hcode)

end Sys2Proof.Machine
end

section
/-! PROOFS. Trace, log, register, token and reset capsules (spec/09_step_graphs_and_scheduling.md, spec/14_ethernet_and_capsules.md). -/
namespace Sys2Proof.Machine

/-! ### Trace points (R245) -/

theorem regsOnly_setTraceEn (s : State) (lo hi : Nat) : regsOnly s (s.setTraceEn lo hi) := rfl

theorem State.getF_setTraceEn_lo (s : State) (lo hi : Nat) :
    (s.setTraceEn lo hi).getF fdSchedTraceEnLo pgSched = ((lo &&& namedMask 0 64) ||| 0xFFF) % 2 ^ fdSchedTraceEnLo.width :=
  (State.getF_setF_place _ _ _ (by decide)).trans (State.getF_setF_self _ _ _ _ _)

theorem State.getF_setTraceEn_hi (s : State) (lo hi : Nat) :
    (s.setTraceEn lo hi).getF fdSchedTraceEnHi pgSched = (hi &&& namedMask 64 56) % 2 ^ fdSchedTraceEnHi.width :=
  State.getF_setF_self _ _ _ _ _

/-! ### Words of a page (R390) -/

theorem leBytes_length (n : Nat) : ∀ v, (leBytes n v).length = n := by
  induction n with
  | zero => intro v; rfl
  | succ n ih => intro v; exact congrArg (· + 1) (ih _)

theorem State.pageWords_length (page n : Nat) : ∀ (s : State) (off : Nat), (s.pageWords page n off).2.length = 4 * n := by
  induction n with
  | zero => intro s off; rfl
  | succ n ih =>
    intro s off
    have hrest := ih (s.pageLoad page off 4).1 (off + 4)
    simp only [State.pageWords, List.length_append, leBytes_length, hrest]
    omega

/-! ### The rows -/

/-- Settles O48: each row's own part, once its header passes, is one of its branches. -/
theorem registerCapsules : Obligations.RegisterCapsules := by
  unfold Obligations.RegisterCapsules
  intro q cap s z
  refine ⟨?_, ?_, ?_, ?_, ?_, fun htakes hok => ?_⟩
  · rintro o rfl htakes hok
    have hexec : exec (.traceSet q cap) s = execTraceSet q cap s := rfl
    exact effect_capsule hexec htakes hok rfl
      ⟨_, rfl, regsOnly_setTraceEn _ _ _, State.getF_setTraceEn_lo _ _ _, State.getF_setTraceEn_hi _ _ _⟩
  · rintro o nx rs rfl htakes hbody hleast hmost hlog
    have hexec : exec (.logRead q cap) s = execLogRead q cap s := rfl
    refine effect_capsule hexec htakes (by simp [hbody, hleast, hmost]) ?_ ⟨_, recordsOnly_trace z 106 0xFF q.val scOK, rfl⟩
    rw [← hlog]
  · rintro o page off n rfl htakes rfl rfl rfl hbody hpage hoff hleast hmost hfit
    have hexec : exec (.regRead q cap) s = execRegRead q cap s := rfl
    unfold execRegRead at hexec
    have hok : (bodyOk cap 7 [(0, 7)] && capF cap 0 4 < 2 ^ 20 && capF cap 4 2 % 4 = 0 && 1 ≤ capF cap 6 1 && capF cap 6 1 ≤ 48 &&
        capF cap 4 2 + 4 * capF cap 6 1 ≤ 4096) = true := by
      simpa [hbody, hoff, hleast, hmost, hfit] using hpage
    refine ⟨fun hbarred => ?_, fun hread y bs hwords => ?_⟩
    · exact effect_capsule hexec htakes hok (if_pos (by simp [hbarred])) rfl
    · refine effect_capsule (y := y) (a := { body := bs }) hexec htakes hok ((if_neg (by simp [hread])).trans ?_) ⟨rfl, ?_⟩
      · rw [← hwords]
      · exact (congrArg (fun p => p.2.length) hwords).trans (State.pageWords_length _ _ _ _)
  · rintro o page off size rfl htakes rfl rfl rfl hbody hpage hoff haccess hrepro
    have hexec : exec (.regWrite q cap) s = execRegWrite q cap s := rfl
    unfold execRegWrite at hexec
    have hok : (bodyOk cap 16 [(0, 7), (8, 8)] && capF cap 0 4 < 2 ^ 20 && capF cap 4 2 < 4096 &&
        pageAccessOk (capF cap 4 2) (capF cap 6 1)) = true := by
      simpa [hbody, hoff, haccess] using hpage
    refine ⟨fun hbarred => ?_, fun hheld hreeve w cause hstore => ⟨fun hcause => ?_, fun hcause => ?_⟩⟩
    · exact effect_capsule hexec htakes hok ((if_neg (by simp [hrepro])).trans (if_pos (by simpa using hbarred)))
        ⟨_, recordsOnly_trace _ _ _ _ _, rfl⟩
    · refine effect_capsule hexec htakes hok ((if_neg (by simp [hrepro])).trans ((if_neg (by simp [hheld, hreeve])).trans ?_))
        ⟨_, recordsOnly_trace w 107 0xFF q.val scOK, rfl⟩
      rw [← hstore]
      exact if_pos hcause
    · refine effect_capsule hexec htakes hok ((if_neg (by simp [hrepro])).trans ((if_neg (by simp [hheld, hreeve])).trans ?_))
        ⟨_, recordsOnly_trace w 107 0xFF q.val scRejected, rfl⟩
      rw [← hstore]
      exact if_neg hcause
  · rintro o rfl htakes hbody hlength hshort
    have hexec : exec (.token q cap) s = execToken q cap s := rfl
    unfold execToken at hexec
    refine ⟨fun hwhole hfull => ?_, fun hwhole hroom job gen hpair => ?_, fun hpart hleast hzero hend hlen => ?_⟩
    · exact effect_capsule hexec htakes (by simp [hbody, ← hlength, hshort, hwhole])
        ((if_neg (by simp [hwhole])).trans (if_pos hfull)) ⟨_, recordsOnly_trace z 108 0xFF q.val scBusy, rfl⟩
    · refine effect_capsule (a := { later := true }) hexec htakes (by simp [hbody, ← hlength, hshort, hwhole])
        ((if_neg (by simp [hwhole])).trans ((if_neg (not_le.mpr hroom)).trans ?_))
        ⟨_, recordsOnly_trace _ 108 0xFF q.val scOK, State.endCapsule_later _ _ _ _⟩
      rw [← hpair]
    · have hok : (cap.bodyLen = cap.body.length && cap.bodyLen ≤ 3584 && cap.body ≠ [] &&
          (!(capF cap 0 1 = 0x5A && cap.body ≠ []) || (12 ≤ cap.bodyLen && capF cap 1 3 = 0 &&
            capF cap 8 4 + (cap.bodyLen - 12) ≤ capF cap 4 4 && capF cap 4 4 ≤ 2 ^ 26))) = true := by
        simpa [hbody, ← hlength, hshort, hpart, hleast, hzero, hend] using hlen
      refine ⟨fun hroom => ?_, fun hroom => ?_⟩
      · exact effect_capsule hexec htakes hok ((if_pos (by simp [hpart, hbody])).trans (if_pos (by simp [hroom]))) rfl
      · exact effect_capsule hexec htakes hok ((if_pos (by simp [hpart, hbody])).trans (if_neg (by simp [hroom]))) rfl
  · have hexec : exec (.nodeReset q cap) s = execNodeReset q cap s := rfl
    exact effect_capsule hexec htakes hok rfl (State.endCapsule_later _ _ _ _)

end Sys2Proof.Machine
end

section
/-! SUPPORT. What every operation keeps: memory in its canonical form and the queue of waiting commands. One rule per operation of the
model, each read off its code: the rule of a composition is the composition of the rules, so `h.setF.event` follows `(s.setF …).event …`.
Here the rules of the relation and the shared operations, up to what reaches a port. -/
namespace Sys2Proof.Machine

/-- What a state reached from `r` keeps of it: memory in its canonical form, where `r` has it so, and the queue of waiting commands. -/
structure Keeps (r s : State) : Prop where
  mem : memWf r.mem = true → memWf s.mem = true
  queue : s.pending = r.pending

/-- The same of a state that may be missing. -/
inductive KeepsSome (r : State) : Option State → Prop
  | some {s : State} (h : Keeps r s) : KeepsSome r (.some s)
  | none : KeepsSome r .none

/-- The same of an access that may be refused. -/
inductive KeepsOk (r : State) : Except Refused State → Prop
  | ok {s : State} (h : Keeps r s) : KeepsOk r (.ok s)
  | error {e : Refused} : KeepsOk r (.error e)

/-- The same of what a command answers. -/
inductive KeepsNext (r : State) : Out → Prop
  | next {s : State} (h : Keeps r s) : KeepsNext r (.next s)
  | fault {f : Fault} : KeepsNext r (.fault f)
  | refused {f : Refusal} : KeepsNext r (.refused f)

variable {r s t : State}

theorem Keeps.refl : Keeps s s := ⟨id, rfl⟩

/-- An update of parts other than memory and the queue. -/
theorem Keeps.same
    {regs} {shadow} {csrs} {xregs} {fregs} {vregs} {cores} {tally} {poisonLine} {poisonWord} {counters} {waits} {arrived} {flasks}
    {tiles} {pdWatch} {hbm} {ecrok} {coh} {coll} {store} {power} {ports} {ftime} {lsa} {repro} {relPending} {ckpts} {promos}
    {ckptHeld} {rings} {log} {nodeTrace} {err} {traceDrain} {urgentDue} {queues} {keys} {qps} {regions} {pauses} {pairs} {dike}
    {spdm} {boot} {flokan} {snaps} {snapPages} {side} {ctxs} {schedEvents} {out} {freeCount} (h : Keeps r s) :
    Keeps r ⟨regs, shadow, csrs, xregs, fregs, vregs, cores, tally, s.mem, poisonLine, poisonWord, counters, waits, arrived,
      flasks, tiles, pdWatch, hbm, ecrok, coh, coll, store, power, ports, ftime, lsa, repro, relPending, ckpts, promos, ckptHeld,
      rings, log, nodeTrace, err, traceDrain, urgentDue, queues, keys, qps, regions, pauses, pairs, dike, spdm, boot, flokan,
      snaps, snapPages, side, ctxs, schedEvents, out, freeCount, s.pending⟩ :=
  ⟨h.mem, h.queue⟩

theorem Keeps.ite {c : Prop} {_ : Decidable c} (hs : Keeps r s) (ht : Keeps r t) : Keeps r (if c then s else t) := by
  split
  · exact hs
  · exact ht

theorem Keeps.of_fst {α : Type} {p : State × α} {a : α} (e : p = (t, a)) (h : Keeps r p.1) : Keeps r t := by rwa [e] at h

theorem Keeps.of_snd {α : Type} {p : α × State} {a : α} (e : p = (a, t)) (h : Keeps r p.2) : Keeps r t := by rwa [e] at h

theorem Keeps.foldl {α : Type} {f : State → α → State} {l : List α} (h : Keeps r s) (hf : ∀ s a, Keeps r s → Keeps r (f s a)) :
    Keeps r (l.foldl f s) := by
  induction l generalizing s with
  | nil => exact h
  | cons a l ih => exact ih (hf s a h)

theorem Keeps.forEach {α : Type} {l : List α} {f : α → State → State} (h : Keeps r s) (hf : ∀ a s, Keeps r s → Keeps r (f a s)) :
    Keeps r (s.forEach l f) :=
  h.foldl fun s a => hf a s

theorem KeepsSome.ite {c : Prop} {_ : Decidable c} {o q : Option State} (ho : KeepsSome r o) (hq : KeepsSome r q) :
    KeepsSome r (if c then o else q) := by
  split
  · exact ho
  · exact hq

theorem KeepsSome.dite {c : Prop} {_ : Decidable c} {f : c → Option State} {g : ¬c → Option State} (hf : ∀ hc, KeepsSome r (f hc))
    (hg : ∀ hc, KeepsSome r (g hc)) : KeepsSome r (if hc : c then f hc else g hc) := by
  split
  · exact hf _
  · exact hg _

theorem KeepsSome.get {o : Option State} (h : KeepsSome r o) (e : o = .some t) : Keeps r t := by
  subst e
  cases h with
  | some h => exact h

theorem KeepsSome.getD {o : Option State} (h : KeepsSome r o) (ht : Keeps r t) : Keeps r (o.getD t) := by
  cases h with
  | some h => exact h
  | none => exact ht

theorem KeepsOk.ite {c : Prop} {_ : Decidable c} {o q : Except Refused State} (ho : KeepsOk r o) (hq : KeepsOk r q) :
    KeepsOk r (if c then o else q) := by
  split
  · exact ho
  · exact hq

theorem KeepsOk.get {o : Except Refused State} (h : KeepsOk r o) (e : o = .ok t) : Keeps r t := by
  subst e
  cases h with
  | ok h => exact h

theorem KeepsNext.ite {c : Prop} {_ : Decidable c} {o q : Out} (ho : KeepsNext r o) (hq : KeepsNext r q) :
    KeepsNext r (if c then o else q) := by
  split
  · exact ho
  · exact hq

theorem Keeps.foldl_fst {α β : Type} {f : State × β → α → State × β} {l : List α} {p : State × β} (h : Keeps r p.1)
    (hf : ∀ p a, Keeps r p.1 → Keeps r (f p a).1) : Keeps r (l.foldl f p).1 := by
  induction l generalizing p with
  | nil => exact h
  | cons a l ih => exact ih (hf p a h)

theorem Keeps.ite_fst {c : Prop} {_ : Decidable c} {β : Type} {p q : State × β} (hp : Keeps r p.1) (hq : Keeps r q.1) :
    Keeps r (if c then p else q).1 := by
  split
  · exact hp
  · exact hq

theorem Keeps.ite_snd {c : Prop} {_ : Decidable c} {β : Type} {p q : β × State} (hp : Keeps r p.2) (hq : Keeps r q.2) :
    Keeps r (if c then p else q).2 := by
  split
  · exact hp
  · exact hq

/-- The state of a pair just made. -/
theorem Keeps.pair {α : Type} {a : α} (h : Keeps r s) : Keeps r (s, a).1 := h

/-! ### Registers, cores, contexts and memory contents -/

theorem Keeps.setF {d : FieldDesc} {page i v : Nat} (h : Keeps r s) : Keeps r (s.setF d page i v) := h.same

theorem Keeps.addF {d : FieldDesc} {page i n : Nat} (h : Keeps r s) : Keeps r (s.addF d page i n) := h.setF

theorem Keeps.clearF {d : FieldDesc} {page i : Nat} (h : Keeps r s) : Keeps r (s.clearF d page i) := h.setF

theorem Keeps.applyField {page : Nat} {d : FieldDesc} (h : Keeps r s) : Keeps r (s.applyField page d) := by
  unfold State.applyField
  split
  · exact h
  · exact h.same.setF

theorem Keeps.applyShadow {page : Nat} (h : Keeps r s) : Keeps r (s.applyShadow page) := .foldl h fun _ _ h1 => h1.applyField

theorem Keeps.setCore {c : Nat} {k : CoreState} (h : Keeps r s) : Keeps r (s.setCore c k) := h.same

theorem Keeps.setX {c r0 v : Nat} (h : Keeps r s) : Keeps r (s.setX c r0 v) := .ite h h.same

theorem Keeps.trap {c cause tval : Nat} (h : Keeps r s) : Keeps r (s.trap c cause tval) := h.setCore

theorem Keeps.block {c : Nat} {b : Blocked} (h : Keeps r s) : Keeps r (s.block c b) := h.setCore

theorem Keeps.setCsr {c n v : Nat} (h : Keeps r s) : Keeps r (s.setCsr c n v) := h.same

theorem Keeps.setCtx {c : Nat} {x : Ctx} (h : Keeps r s) : Keeps r (s.setCtx c x) := h.same

theorem Keeps.putBytes {a : Nat} {bs : List Byte} (h : Keeps r s) : Keeps r (s.putBytes a bs) :=
  ⟨fun hr => s.putBytes_wf a bs (h.mem hr), h.queue⟩

theorem Keeps.storeBytes {a : Nat} {bs : List Byte} {poisoned : Bool} (h : Keeps r s) : Keeps r (s.storeBytes a bs poisoned) :=
  ⟨fun hr => s.storeBytes_wf a bs poisoned (h.mem hr), h.queue⟩

theorem Keeps.hbmBytes {off : Nat} {bs : List Byte} {poisoned : Bool} (h : Keeps r s) : Keeps r (s.hbmBytes off bs poisoned) :=
  ⟨fun hr => s.hbmBytes_wf off bs poisoned (h.mem hr), h.queue⟩

theorem Keeps.zeroRange {lo hi : Nat} (h : Keeps r s) : Keeps r (s.zeroRange lo hi) :=
  ⟨fun hr => s.zeroRange_wf lo hi (h.mem hr), h.queue⟩

theorem Keeps.emit {o : Output} (h : Keeps r s) : Keeps r (s.emit o) := h.same

theorem Keeps.emitAll {os : List Output} (h : Keeps r s) : Keeps r (s.emitAll os) := h.same

theorem Keeps.free (h : Keeps r s) : Keeps r (s.free).2 := h.same

/-! ### The Ethernet ports -/

theorem Keeps.setQp {i : Nat} {x : QueuePair} (h : Keeps r s) : Keeps r (s.setQp i x) := h.same

theorem Keeps.setPause {k : Nat} {x : PauseState} (h : Keeps r s) : Keeps r (s.setPause k x) := h.same

theorem Keeps.ethSend {i : Nat} {o : Output} (h : Keeps r s) : Keeps r (s.ethSend i o) := .ite h.emit h.setPause

theorem Keeps.setQueue {q : Nat} {x : Queue} (h : Keeps r s) : Keeps r (s.setQueue q x) := h.same

theorem Keeps.postStatus {q : Nat} {x : StatusCap} (h : Keeps r s) : Keeps r (s.postStatus q x) := by
  unfold State.postStatus
  dsimp only
  split
  · exact h.emit
  · exact h.setQp.ethSend

theorem Keeps.pfcPoll (h : Keeps r s) : Keeps r s.pfcPoll :=
  h.forEach fun _ _ h1 => .ite h1 (.ite h1.setPause.emit.addF (.ite h1.setPause.emit.addF h1))

/-! ### What the node records -/

theorem Keeps.count {page slot n : Nat} (h : Keeps r s) : Keeps r (s.count page slot n) := h.addF

theorem Keeps.traceToCtx {c : Nat} {r0 : TraceRec} (h : Keeps r s) : Keeps r (s.traceToCtx c r0) := by
  unfold State.traceToCtx
  split
  · exact h.hbmBytes.setF
  · exact h.same
  · exact h

theorem Keeps.traceToNode {r0 : TraceRec} (h : Keeps r s) : Keeps r (s.traceToNode r0) := .ite h.addF.same h

theorem Keeps.traceOut {owner : Option Nat} {r0 : TraceRec} (h : Keeps r s) : Keeps r (s.traceOut owner r0) := by
  unfold State.traceOut
  split
  · exact h.traceToCtx
  · exact h.traceToNode

theorem Keeps.pushRing {page unit : Nat} {e : EvEntry} (h : Keeps r s) : Keeps r (s.pushRing page unit e) := h.same

theorem Keeps.event {page unit : Nat} {cls : Option Nat} {code subject value : Nat} (h : Keeps r s) :
    Keeps r (s.event page unit cls code subject value) :=
  .ite h (.ite h.addF h.pushRing.traceOut)

theorem Keeps.freezeRings {page cause : Nat} (h : Keeps r s) : Keeps r (s.freezeRings page cause) := .ite h h.event.setF

theorem Keeps.thawRings {page : Nat} (h : Keeps r s) : Keeps r (s.thawRings page) := .ite h.setF.event h

theorem Keeps.trace {p ctx arg0 arg1 : Nat} (h : Keeps r s) : Keeps r (s.trace p ctx arg0 arg1) := .ite h.same.setF.traceOut h

theorem Keeps.answer {q : Nat} {x : StatusCap} (h : Keeps r s) : Keeps r (s.answer q x) := h.postStatus.trace

theorem Keeps.sendStatus {q : Nat} {x : StatusCap} (h : Keeps r s) : Keeps r (s.sendStatus q x) := .ite h.answer h

theorem Keeps.answerBusy {q : Nat} {x : StatusCap} (h : Keeps r s) : Keeps r (s.answerBusy q x) := .ite h.setQueue.answer h

theorem Keeps.report {job gen : Nat} {payload : List Byte} (h : Keeps r s) : Keeps r (s.report job gen payload) := by
  unfold State.report
  refine .forEach ?_ fun _ _ h1 => h1.sendStatus
  split
  · exact h.emit
  · exact h

theorem Keeps.jobFatal {c cause seq dead : Nat} (h : Keeps r s) : Keeps r (s.jobFatal c cause seq dead) := h.report.addF

theorem Keeps.jobFatalAll {cause seq : Nat} (h : Keeps r s) : Keeps r (s.jobFatalAll cause seq) := h.forEach fun _ _ h1 => h1.jobFatal

theorem Keeps.reject {page off cause agent : Nat} {tile : Option Nat} (h : Keeps r s) : Keeps r (s.reject page off cause agent tile) :=
  h.setF

theorem Keeps.raiseSpare {v : Nat} (h : Keeps r s) : Keeps r (s.raiseSpare v) := .ite h.setF.same h

theorem Keeps.amendRecord {seq : Nat} {f : ErrRecord → ErrRecord} (h : Keeps r s) : Keeps r (s.amendRecord seq f) := by
  unfold State.amendRecord
  split
  · exact h.same
  · exact h

theorem Keeps.addRecord {r0 : ErrRecord} (h : Keeps r s) : Keeps r (s.addRecord r0) := h.same.setF

theorem Keeps.captureError {page src cls seq : Nat} (h : Keeps r s) : Keeps r (s.captureError page src cls seq) :=
  .ite h.setF.setF.setF.setF h.setF

theorem Keeps.holdCtx {c : Nat} (h : Keeps r s) : Keeps r (s.holdCtx c) := h.setCtx

theorem Keeps.leaveService {seq : Nat} (h : Keeps r s) : Keeps r (s.leaveService seq) := h.jobFatalAll.raiseSpare.addF.setF.setF.same

theorem Keeps.contain {r0 : ErrRecord} (h : Keeps r s) : Keeps r (s.contain r0) :=
  .ite h (.ite h.holdCtx.jobFatal (.ite h.leaveService h))

theorem Keeps.detect {page src : Nat} {info : ErrorInfo} {injected escalate : Bool} (h : Keeps r s) :
    Keeps r (s.detect page src info injected escalate) := by
  unfold State.detect
  refine .ite h ?_
  extract_lets cls s1 s2 full s3 n s4 e s5 cls' second key last same s6 s7 seq s8 e' s9 s10 s11
  have h2 : Keeps r s2 := .ite h.setF.addF h.setF.addF
  have h5 : Keeps r s5 := .ite h2.setF.setF.same h2
  have h8 : Keeps r s8 := h5.addRecord.captureError
  have h9 : Keeps r s9 := .ite h8.same h8
  have h11 : Keeps r s11 := .ite h9.event.freezeRings h9.event
  refine .ite h5.amendRecord.captureError (.ite h5.captureError (.ite h5.captureError ?_))
  split
  · exact h11.same.contain
  · exact h11

theorem Keeps.prefail {page unit cause : Nat} (h : Keeps r s) : Keeps r (s.prefail page unit cause) := .ite h h.detect.same

/-! ### Flask states and unit power -/

theorem Keeps.setPstate {f v : Nat} (h : Keeps r s) : Keeps r (s.setPstate f v) := h.setF.event

theorem Keeps.setFlask {f : Nat} {x : FlaskState} (h : Keeps r s) : Keeps r (s.setFlask f x) := h.same

theorem Keeps.setUnit {t : Nat} {u : TileUnit} {on : Bool} (h : Keeps r s) : Keeps r (s.setUnit t u on) := by
  unfold State.setUnit
  dsimp only
  split
  · exact h.setF
  · exact h.setF

theorem Keeps.startUnitWake {t : Nat} {u : TileUnit} (h : Keeps r s) : Keeps r (s.startUnitWake t u) := .ite h.setFlask h

theorem Keeps.unitsOff {f : Nat} (h : Keeps r s) : Keeps r (s.unitsOff f) := h.setF.setF.setFlask

theorem Keeps.holdUnitsOn {f : Nat} (h : Keeps r s) : Keeps r (s.holdUnitsOn f) := h.setF.setF

theorem Keeps.abortSleep {f : Nat} (h : Keeps r s) : Keeps r (s.abortSleep f) := h.setPstate.setF.setFlask.trace

theorem Keeps.startWake {f : Nat} {demand : Bool} (h : Keeps r s) : Keeps r (s.startWake f demand) :=
  .ite (.ite h.setPstate.count.trace h.setPstate.count) h

theorem Keeps.arrive {f : Nat} (h : Keeps r s) : Keeps r (s.arrive f) := .ite h.abortSleep (.ite h.startWake h)

theorem Keeps.hold {f : Nat} {h0 : Held} (h : Keeps r s) : Keeps r (s.hold f h0) := h.setFlask

theorem Keeps.failNode {c n : Nat} (h : Keeps r s) : Keeps r (s.failNode c n) := .ite h.setCtx h

theorem Keeps.coreFault {c cause tval kind : Nat} (h : Keeps r s) : Keeps r (s.coreFault c cause tval kind) :=
  .ite ((Keeps.ite h.trap.event h.trap).trace.failNode.setCore) (.ite h.trap.event h.trap)

theorem Keeps.poisonFault {c addr : Nat} (h : Keeps r s) : Keeps r (s.poisonFault c addr) := h.coreFault.detect

/-! ### Sync counters and watch ranges -/

theorem Keeps.setCounter {id : Nat} {c : Counter} (h : Keeps r s) : Keeps r (s.setCounter id c) := h.same

theorem Keeps.waitBegin {c subject n : Nat} (h : Keeps r s) : Keeps r (s.waitBegin c subject n) := h.event

theorem Keeps.waitEnd {c subject since : Nat} (h : Keeps r s) : Keeps r (s.waitEnd c subject since) := h.event

theorem Keeps.resume {c rd v : Nat} (h : Keeps r s) : Keeps r (s.resume c rd v) := h.setX.block

theorem Keeps.satisfy {id n : Nat} (h : Keeps r s) : Keeps r (s.satisfy id n) := by
  induction n generalizing s with
  | zero => exact h
  | succ n ih =>
    rw [State.satisfy]
    split
    · exact h
    · exact .ite (ih h.same.setCounter.resume.waitEnd) h

theorem Keeps.settle {id : Nat} (h : Keeps r s) : Keeps r (s.settle id) := h.satisfy

theorem Keeps.counterAdd {id n : Nat} (h : Keeps r s) : Keeps r (s.counterAdd id n) := h.setCounter.settle

theorem Keeps.firmwarePost {id n : Nat} (h : Keeps r s) : Keeps r (s.firmwarePost id n) := .ite h.counterAdd h

theorem Keeps.counterInit {id value cap : Nat} (h : Keeps r s) : Keeps r (s.counterInit id value cap) :=
  (h.setCounter.same.forEach fun _ _ h1 => h1.waitEnd.trap).settle

theorem Keeps.withdraw {c : Nat} (h : Keeps r s) : Keeps r (s.withdraw c) := h.same.forEach fun _ _ h1 => h1.waitEnd.settle

theorem Keeps.watchPostAt {f w id : Nat} {level : Bool} (h : Keeps r s) : Keeps r (s.watchPostAt f w id level) :=
  .ite h (.ite h.counterAdd h.setF)

theorem Keeps.watchPost {f w id : Nat} {level : Bool} (h : Keeps r s) : Keeps r (s.watchPost f w id level) :=
  .ite h.arrive.watchPostAt h.arrive.hold

theorem Keeps.rangePosts {f w a len : Nat} (h : Keeps r s) : Keeps r (s.rangePosts f w a len) :=
  h.forEach fun _ _ h1 => h1.forEach fun _ _ h2 => h2.watchPost

theorem Keeps.schedPosts {a len : Nat} (h : Keeps r s) : Keeps r (s.schedPosts a len) := h.same

theorem Keeps.breakReservations {a len : Nat} (h : Keeps r s) : Keeps r (s.breakReservations a len) := h.forEach fun _ _ h1 => h1.setCore

theorem Keeps.lsaPoke {a len : Nat} (h : Keeps r s) : Keeps r (s.lsaPoke a len) := h.same

theorem Keeps.postTo {id n : Nat} (h : Keeps r s) : Keeps r (s.postTo id n) := .ite h.arrive.firmwarePost h.arrive.hold

theorem Keeps.watchWrite {a len : Nat} (h : Keeps r s) : Keeps r (s.watchWrite a len) :=
  (h.forEach fun _ _ h1 => h1.rangePosts).schedPosts.breakReservations.lsaPoke

/-! ### Barrier slots and comparators -/

theorem Keeps.advanceSlot {f slot : Nat} (h : Keeps r s) : Keeps r (s.advanceSlot f slot) := by
  unfold State.advanceSlot
  refine .forEach h.arrive.setF.same fun _ _ h1 => ?_
  split
  · exact .ite h1.block.waitEnd h1
  · exact h1

theorem Keeps.releaseSlot {fs : List Nat} {slot : Nat} (h : Keeps r s) : Keeps r (s.releaseSlot fs slot) :=
  h.forEach fun _ _ h1 => h1.advanceSlot

theorem Keeps.setRelMask {k m : Nat} (h : Keeps r s) : Keeps r (s.setRelMask k m) := h.setF.setF.setF.setF

theorem Keeps.startHeld {f : Nat} (h : Keeps r s) : Keeps r (s.startHeld f) := h.forEach fun _ _ h1 => .ite h1.setCore h1

theorem Keeps.relAct {k f : Nat} (h : Keeps r s) : Keeps r (s.relAct k f) := .ite h.startHeld h.advanceSlot

theorem Keeps.fireRel {k : Nat} {late : Bool} (h : Keeps r s) : Keeps r (s.fireRel k late) :=
  (Keeps.ite h.setF.setF.event.setF.addF h.setF.setF.event).forEach fun _ _ h1 => .ite h1.relAct h1.same

theorem Keeps.relCatchUp {f : Nat} (h : Keeps r s) : Keeps r (s.relCatchUp f) := h.same.forEach fun _ _ h1 => h1.relAct.trace

theorem Keeps.armRel {k : Nat} (h : Keeps r s) : Keeps r (s.armRel k) := .ite h.fireRel h.setF

/-! ### What the fabric die hands to a port -/

theorem Keeps.setPort {p : Nat} {l : PortLink} (h : Keeps r s) : Keeps r (s.setPort p l) := h.same

theorem Keeps.depart {pk : Packet} {hop : Nat} (h : Keeps r s) : Keeps r (s.depart pk hop) := by
  unfold State.depart
  dsimp only
  split
  · exact h.addF
  · exact h.setPort.emit

end Sys2Proof.Machine
end

section
/-! SUPPORT. What the fabric, the memory system, packets and graph nodes keep of a state. -/
namespace Sys2Proof.Machine

variable {r s t : State}

/-! ### Sending on the fabric -/

theorem Keeps.setTag {k : Nat} {t : TagSlot} (h : Keeps r s) : Keeps r (s.setTag k t) := h.same

theorem Keeps.send {pk : Packet} (h : Keeps r s) : Keeps r (s.send pk) := .ite h.same h.depart

theorem Keeps.sendRequest {ctx : Nat} {origin : Origin} {pk : Packet} (h : Keeps r s) : Keeps r (s.sendRequest ctx origin pk) :=
  .ite h.same h.setTag.same.same.setTag.send.count

theorem Keeps.issue {c cls kind node off len : Nat} {origin : Origin} {f : Packet → Packet} (h : Keeps r s) :
    KeepsOk r (s.issue c cls kind node off len origin f) := by
  unfold State.issue
  refine .ite .error ?_
  split
  · exact .error
  · split
    · exact .error
    · exact .ok h.sendRequest

theorem Keeps.respond {rq : Packet} {kind status : Nat} {data : List Byte} (h : Keeps r s) : Keeps r (s.respond rq kind status data) :=
  .ite h.send.count.addF.count h.send.count

theorem Keeps.respondKept {die : Nat} {rq : Packet} {status : Nat} {data : List Byte} (h : Keeps r s) :
    Keeps r (s.respondKept die rq status data) :=
  h.same.respond

/-! ### The memory system -/

theorem Keeps.replyRefused {rq : HbmReq} {r0 : Refused} (h : Keeps r s) : Keeps r (s.replyRefused rq r0) := by
  unfold State.replyRefused
  split
  · exact h.coreFault
  · exact h.coreFault
  · exact h.respond
  · exact h
  · split
    · exact h.coreFault
    · exact h.emit

theorem Keeps.loadReg {c rd size : Nat} {sgn : Bool} {addr : Nat} {data : List Byte} {poisoned : Bool} (h : Keeps r s) :
    Keeps r (s.loadReg c rd size sgn addr data poisoned) :=
  .ite h.block.poisonFault h.block.setX

theorem Keeps.replyData {rq : HbmReq} {data : List Byte} {poisoned : Bool} (h : Keeps r s) : Keeps r (s.replyData rq data poisoned) := by
  unfold State.replyData
  split
  · exact h.loadReg
  · exact h.respondKept
  · exact h.emit

theorem Keeps.replyDone {src : Source} {r0 : Reply} {flags : Nat} {poisoned : Bool} (h : Keeps r s) :
    Keeps r (s.replyDone src r0 flags poisoned) := by
  unfold State.replyDone
  split
  · exact h.respond
  · exact h.block
  · exact h
  · exact h
  · exact h.emit

theorem Keeps.traffic {off slot n : Nat} (h : Keeps r s) : Keeps r (s.traffic off slot n) := h.same

theorem Keeps.applyAtomic {line op ty mask : Nat} {arg cmp : List Byte} (h : Keeps r s) :
    Keeps r (s.applyAtomic line op ty mask arg cmp).1 := by
  unfold State.applyAtomic
  dsimp only
  split
  · exact h
  · exact h.putBytes.traffic

theorem Keeps.drainEntry {e : MergeEntry} (h : Keeps r s) : Keeps r (s.drainEntry e) := by
  unfold State.drainEntry
  split
  next s1 _ _ heq =>
    have h1 : Keeps r s1 := by
      refine .of_fst heq ?_
      split
      · exact h.putBytes.same
      · exact h.applyAtomic
    exact h1.forEach fun _ _ h2 => (Keeps.ite h2.watchWrite h2).replyDone

theorem Keeps.drainLine {line : Nat} (h : Keeps r s) : Keeps r (s.drainLine line) := by
  unfold State.drainLine
  split
  · exact h.same.drainEntry
  · exact h

theorem Keeps.drainRange {off len : Nat} (h : Keeps r s) : Keeps r (s.drainRange off len) := h.forEach fun _ _ h1 => h1.drainLine

theorem Keeps.makeRoom {line : Nat} (h : Keeps r s) : Keeps r (s.makeRoom line) := by
  unfold State.makeRoom
  refine .ite h (.ite h ?_)
  split
  · exact h.drainLine
  · exact h

theorem Keeps.putEntry {e : MergeEntry} (h : Keeps r s) : Keeps r (s.putEntry e) := by
  unfold State.putEntry
  split
  · exact h.same
  · exact h.makeRoom.same

theorem Keeps.combined {line : Nat} (h : Keeps r s) : Keeps r (s.combined line) := h.addF

theorem Keeps.mergeStore {line pos : Nat} {bs : List Byte} {poisoned : Bool} {arr : List (Nat × Nat × Reply)} (h : Keeps r s) :
    Keeps r (s.mergeStore line pos bs poisoned arr) := by
  unfold State.mergeStore
  dsimp only
  split
  · exact .ite h.combined.putEntry h.drainLine.putEntry
  · exact h.putEntry

theorem Keeps.mergeAtomic {line op ty mask : Nat} {arg : List Byte} {arr : List (Nat × Nat × Reply)} (h : Keeps r s) :
    Keeps r (s.mergeAtomic line op ty mask arg arr) := by
  unfold State.mergeAtomic
  dsimp only
  split
  · exact .ite h.combined.putEntry h.drainLine.putEntry
  · exact h.putEntry

theorem Keeps.serveWrite {rq : HbmReq} (h : Keeps r s) : Keeps r (s.serveWrite rq) := h.traffic.forEach fun _ _ h1 => h1.mergeStore

theorem Keeps.serveRead {rq : HbmReq} (h : Keeps r s) : Keeps r (s.serveRead rq) := h.drainRange.traffic.replyData

theorem Keeps.serveAtomic {rq : HbmReq} (h : Keeps r s) : Keeps r (s.serveAtomic rq) := by
  unfold State.serveAtomic
  refine .ite (.ite ?_ ((Keeps.ite h.drainLine.applyAtomic.watchWrite h.drainLine.applyAtomic).replyDone)) h.mergeAtomic
  dsimp only
  split
  · exact (Keeps.ite h.drainLine.applyAtomic.watchWrite h.drainLine.applyAtomic).loadReg
  · exact (Keeps.ite h.drainLine.applyAtomic.watchWrite h.drainLine.applyAtomic).replyData

theorem Keeps.serve {rq : HbmReq} (h : Keeps r s) : Keeps r (s.serve rq) := by
  unfold State.serve
  split
  · exact h.serveRead
  · exact h.serveWrite
  · exact h.serveAtomic

theorem Keeps.setDir {l : Nat} {d : DirLine} (h : Keeps r s) : Keeps r (s.setDir l d) := h.same

theorem Keeps.cohAsk {tx : CohTx} (h : Keeps r s) : Keeps r (s.cohAsk tx).1 :=
  (h.same.forEach fun _ _ h1 => h1.send).forEach fun _ _ h1 => h1.send

theorem Keeps.order {rq : HbmReq} (h : Keeps r s) : Keeps r (s.order rq) := by
  unfold State.order
  split
  · exact h.serve
  · exact .ite h.same h.cohAsk.same

theorem Keeps.accept {rq : HbmReq} (h : Keeps r s) : Keeps r (s.accept rq) := by
  unfold State.accept
  refine .ite h.order ?_
  split
  · exact h.order
  · exact h.addF.setF.same

theorem Keeps.chargeBucket {site p n : Nat} {write : Bool} (h : Keeps r s) : Keeps r (s.chargeBucket site p n write) := h.same

theorem Keeps.chargeWindow {off p n : Nat} {write : Bool} (h : Keeps r s) : Keeps r (s.chargeWindow off p n write) := h.same

theorem Keeps.sluice {rq : HbmReq} (h : Keeps r s) : Keeps r (s.sluice rq) := by
  unfold State.sluice
  split
  · exact h.accept
  · exact .ite h.same (.ite h.chargeWindow.accept (.ite h.chargeWindow.chargeBucket.accept h.count.same))

theorem Keeps.submit {rq : HbmReq} (h : Keeps r s) : Keeps r (s.submit rq) := by
  unfold State.submit
  split
  · exact h.replyRefused
  · exact .ite h.same.same h.same.sluice

theorem Keeps.engineRead {off n : Nat} (h : Keeps r s) : Keeps r (s.engineRead off n).1 := h.drainRange

theorem Keeps.engineWrite {src : Source} {off : Nat} {bs : List Byte} {poisoned : Bool} (h : Keeps r s) :
    Keeps r (s.engineWrite src off bs poisoned) :=
  .ite h h.submit

/-! ### Ecrok packets that reach the node -/

theorem Keeps.dropMalformed (h : Keeps r s) : Keeps r s.dropMalformed := h.addF

theorem Keeps.dropStale (h : Keeps r s) : Keeps r s.dropStale := h.addF.count

theorem Keeps.dropForeign (h : Keeps r s) : Keeps r s.dropForeign := h.addF.count

theorem Keeps.noteLow {pk : Packet} (h : Keeps r s) : Keeps r (s.noteLow pk) := h.same

theorem Keeps.advance {pk : Packet} (h : Keeps r s) : Keeps r (s.advance pk) := h.same

theorem Keeps.answerDup {pk : Packet} (h : Keeps r s) : Keeps r (s.answerDup pk) := by
  unfold State.answerDup
  refine .ite ?_ h.addF.count.respond
  split
  · exact h.addF.count.respond
  · exact h.addF.count

theorem Keeps.letIn {pk : Packet} {f : State → Option State} (h : Keeps r s) (hf : ∀ s, Keeps r s → KeepsSome r (f s)) :
    Keeps r (s.letIn pk f) := by
  unfold State.letIn
  refine .ite h (.ite h.dropMalformed (.ite h.count.respond ?_))
  split
  · exact h.count.dropStale
  · exact h.count.dropForeign
  · refine .ite ?_ (.ite h.count.noteLow.answerDup (.ite h.count.noteLow.addF h.count.noteLow.dropMalformed))
    split
    next heq => exact (hf _ h.count.noteLow.advance).get heq
    · exact h.count.noteLow.respond

theorem Keeps.fabricStore {d : FabricDie} {pk : Packet} {t off len : Nat} {f : State → State} (h : Keeps r s)
    (hf : ∀ s, Keeps r s → Keeps r (f s)) : Keeps r (s.fabricStore d pk t off len f) :=
  .ite h.arrive.hold (.ite h.arrive.respond (hf _ h.arrive))

theorem Keeps.fabricNowhere {pk : Packet} (h : Keeps r s) : Keeps r (s.fabricNowhere pk) := h.respond

theorem Keeps.applyRead {d : FabricDie} {pk : Packet} (h : Keeps r s) : Keeps r (s.applyRead d pk) := by
  unfold State.applyRead
  dsimp only
  split
  · exact h.submit
  · exact h.fabricStore fun _ h1 => h1.respondKept
  · exact h.fabricNowhere

theorem Keeps.applyWrite {d : FabricDie} {pk : Packet} (h : Keeps r s) : Keeps r (s.applyWrite d pk) := by
  unfold State.applyWrite
  dsimp only
  split
  · exact h.submit
  · exact h.fabricStore fun _ h1 => h1.storeBytes.watchWrite.respond
  · exact h.fabricNowhere

theorem Keeps.storeAtomic {a op ty mask : Nat} {arg cmp : List Byte} (h : Keeps r s) :
    Keeps r (s.storeAtomic a op ty mask arg cmp).1 := by
  unfold State.storeAtomic
  dsimp only
  split
  · exact h
  · exact h.putBytes.watchWrite

theorem Keeps.applyAtomicPk {d : FabricDie} {pk : Packet} {fetch : Bool} (h : Keeps r s) : Keeps r (s.applyAtomicPk d pk fetch) := by
  unfold State.applyAtomicPk
  extract_lets op ty
  split
  · exact h.submit
  · refine h.fabricStore fun _ h1 => ?_
    split
    next heq =>
      have h2 := Keeps.of_fst heq h1.storeAtomic
      exact .ite h2.respondKept h2.respond
  · exact h.fabricNowhere

theorem Keeps.recvRead {d : FabricDie} {pk : Packet} (h : Keeps r s) : Keeps r (s.recvRead d pk) :=
  h.letIn fun _ h1 => .ite .none (.some h1.applyRead)

theorem Keeps.recvWrite {d : FabricDie} {pk : Packet} (h : Keeps r s) : Keeps r (s.recvWrite d pk) :=
  h.letIn fun _ h1 => .some h1.applyWrite

theorem Keeps.recvAtomic {d : FabricDie} {pk : Packet} {fetch : Bool} (h : Keeps r s) : Keeps r (s.recvAtomic d pk fetch) :=
  .ite h.dropMalformed (h.letIn fun _ h1 => .ite .none (.some h1.applyAtomicPk))

theorem Keeps.recvMsg {x0 : FabricDie} {pk : Packet} (h : Keeps r s) : Keeps r (s.recvMsg x0 pk) :=
  h.letIn fun _ h1 => .ite (.some h1.respond) (.ite .none (.some h1.drainRange.drainRange.hbmBytes.setF.watchWrite.respond))

theorem Keeps.recvRupdate {d : FabricDie} {pk : Packet} (h : Keeps r s) : Keeps r (s.recvRupdate d pk) := by
  unfold State.recvRupdate
  refine h.letIn fun s1 h1 => ?_
  extract_lets off base epoch s2 data rq
  have h2 : Keeps r s2 := h1.drainRange
  refine .ite (.some h2.respond) ?_
  split
  · exact .some h2.replyRefused
  · exact .some h2.hbmBytes.submit

theorem Keeps.recvLowmark {pk : Packet} (h : Keeps r s) : Keeps r (s.recvLowmark pk) := by
  unfold State.recvLowmark
  refine .ite h (.ite h.dropMalformed ?_)
  split
  · exact h.dropStale
  · exact h.dropForeign
  · exact h.noteLow

theorem Keeps.unstall {dst vc : Nat} (h : Keeps r s) : Keeps r (s.unstall dst vc) := by
  unfold State.unstall
  dsimp only
  split
  · exact .ite h.same.sendRequest h
  · exact h

theorem Keeps.targetDead {c dst : Nat} (h : Keeps r s) : Keeps r (s.targetDead c dst) := h.addF.jobFatal

theorem Keeps.complete {c dst : Nat} {o : Origin} {status : Nat} {data : List Byte} (h : Keeps r s) :
    Keeps r (s.complete c dst o status data) := by
  unfold State.complete
  dsimp only
  split
  · exact .ite ((Keeps.ite h.targetDead h).loadReg) ((Keeps.ite h.targetDead h).block.coreFault)
  · exact .ite ((Keeps.ite h.targetDead h).loadReg) ((Keeps.ite h.targetDead h).block.coreFault)
  · exact .ite (.ite h.targetDead h) ((Keeps.ite h.targetDead h).same)
  · exact (Keeps.ite h.targetDead h).same
  · exact (Keeps.ite h.targetDead h).same
  · exact .ite (.ite h.targetDead h) ((Keeps.ite h.targetDead h).setF.addF)
  · exact .ite (.ite h.targetDead h) ((Keeps.ite h.targetDead h).failNode)
  · exact .ite h.targetDead h
  · exact .ite h.targetDead h

theorem Keeps.recvResponse {die : Nat} {pk : Packet} (h : Keeps r s) : Keeps r (s.recvResponse die pk) :=
  .ite h (.ite h.dropMalformed (.ite h.addF (.ite h.setTag h.setTag.complete.unstall)))

theorem Keeps.resendBusy {k : Nat} (h : Keeps r s) : Keeps r (s.resendBusy k) := .ite h.send h

theorem Keeps.timeoutTag {k : Nat} (h : Keeps r s) : Keeps r (s.timeoutTag k) :=
  .ite h (.ite (h.addF.count.event.forEach fun _ _ h1 => h1.setTag.send) h.addF.count.event.setTag.complete.unstall)

theorem Keeps.forward {pk : Packet} (h : Keeps r s) : Keeps r (s.forward pk) :=
  .ite h (.ite h.dropMalformed (.ite h.dropForeign (.ite h.dropForeign (.ite h.dropMalformed (.ite h.depart.count h.depart)))))

theorem Keeps.recvAny {pk : Packet} (h : Keeps r s) : Keeps r (s.recvAny pk) :=
  .ite h.recvRead (.ite h.recvWrite (.ite h.recvAtomic (.ite h.recvAtomic
    (.ite h.recvMsg (.ite h.recvRupdate (.ite h.recvLowmark (.ite h.recvResponse h)))))))

theorem Keeps.runLoop {n : Nat} (h : Keeps r s) : Keeps r (s.runLoop n) := by
  induction n generalizing s with
  | zero => exact h
  | succ n ih =>
    rw [State.runLoop]
    split
    · exact h
    · exact ih h.same.recvAny

theorem Keeps.settleLoop (h : Keeps r s) : Keeps r s.settleLoop := h.runLoop

/-! ### Nodes of the step in progress -/

theorem Keeps.withRun {c : Nat} {f : StepRun → StepRun} (h : Keeps r s) : Keeps r (s.withRun c f) := h.setCtx

theorem Keeps.setNode {c n code : Nat} (h : Keeps r s) : Keeps r (s.setNode c n code) := by
  unfold State.setNode
  dsimp only
  split
  · exact h.withRun.engineWrite
  · exact h.withRun

theorem Keeps.startNode {c n : Nat} (h : Keeps r s) : Keeps r (s.startNode c n) := h.setNode.withRun.trace

theorem Keeps.readNat {off n : Nat} (h : Keeps r s) : Keeps r (s.readNat off n).1 := h.engineRead

end Sys2Proof.Machine
end

section
/-! SUPPORT. What a tile's units, collectives, firmware between events and the solver's queues keep of a state. -/
namespace Sys2Proof.Machine

variable {r s t : State}

/-! ### The operand forms of a tile's units -/

theorem Keeps.setTile {t : Nat} {x : Tile} (h : Keeps r s) : Keeps r (s.setTile t x) := h.same

theorem Keeps.orCsr {t n v : Nat} (h : Keeps r s) : Keeps r (s.orCsr t n v) := h.setCsr

theorem memWf_foldl_putBitsAt {base : Nat} {ps : List Put} : ∀ {m : List Host.Cell}, memWf m = true →
    memWf (ps.foldl (fun m p => putBitsAt m base p) m) = true := by
  induction ps with
  | nil => exact id
  | cons p ps ih => exact fun h => ih (memWf_write _ _ _ h)

theorem Keeps.putElems {t : Nat} {ps : List Put} (h : Keeps r s) : Keeps r (s.putElems t ps) :=
  .forEach ⟨fun hr => memWf_foldl_putBitsAt (h.mem hr), h.queue⟩ fun _ _ h1 => h1.watchWrite

theorem Keeps.digest {t w : Nat} {es : List (Nat × Elem)} (h : Keeps r s) : Keeps r (s.digest t w es) :=
  .ite h.setCsr.setCsr.orCsr h.setCsr.setCsr

theorem Keeps.digestStream {t dn w positions : Nat} {es : List (Nat × Elem)} (h : Keeps r s) :
    Keeps r (s.digestStream t dn w positions es) :=
  .ite h.digest.setCsr h

/-! ### Stream instructions -/

theorem Keeps.svWrite {t : Nat} {o : SvOp} {r0 : SvRes} (h : Keeps r s) : Keeps r (s.svWrite t o r0) :=
  h.putElems.orCsr.orCsr.digestStream

theorem Keeps.svRun {t : Nat} {o : SvOp} (h : Keeps r s) : Keeps r (s.svRun t o) := .ite h (.ite h.svWrite.same h.svWrite)

/-! ### Collectives -/

theorem Keeps.setRuns {rs : List CollRun} (h : Keeps r s) : Keeps r (s.setRuns rs) := h.same.setF

theorem Keeps.putRun {r0 : CollRun} (h : Keeps r s) : Keeps r (s.putRun r0) := h.setRuns

theorem Keeps.dropRun {r0 : CollRun} (h : Keeps r s) : Keeps r (s.dropRun r0) := h.setRuns

theorem Keeps.collStatus {c : Nat} {d : CollDesc} {code flags : Nat} (h : Keeps r s) : Keeps r (s.collStatus c d code flags) :=
  h.engineWrite

theorem Keeps.collEnded {c n code : Nat} (h : Keeps r s) : Keeps r (s.collEnded c n code) := h.same.trace

theorem Keeps.collCount {r0 : CollRun} {code : Nat} (h : Keeps r s) : Keeps r (s.collCount r0 code) := .ite (.ite h.count.count h.count) h

theorem Keeps.endRun {r0 : CollRun} {code : Nat} (h : Keeps r s) : Keeps r (s.endRun r0 code) := by
  unfold State.endRun
  dsimp only
  split
  · exact h.dropRun.collCount.collStatus.collEnded
  · split
    · exact h.dropRun.collCount.releaseSlot
    · exact h.dropRun.collCount
  · exact h.dropRun.collCount

theorem Keeps.collPacket {r0 : CollRun} {kind dst tree ix : Nat} {mark : Bool} {flags : Nat} {es : List CollElem} {ty : Nat}
    (h : Keeps r s) : Keeps r (s.collPacket r0 kind dst tree ix mark flags es ty) := by
  unfold State.collPacket
  dsimp only
  split
  · exact h
  · exact (Keeps.ite h h.count).send

theorem Keeps.collWrite {c a ty : Nat} {es : List CollElem} (h : Keeps r s) : Keeps r (s.collWrite c a ty es) :=
  .ite h.engineWrite (h.forEach fun _ _ h1 => h1.engineWrite)

theorem Keeps.collKeep {r0 : CollRun} {e phase lo : Nat} {es : List CollElem} (h : Keeps r s) : Keeps r (s.collKeep r0 e phase lo es) :=
  .ite (.ite h.collWrite h) (.ite h (.ite h.collWrite (.ite h h.collWrite)))

theorem Keeps.collDeliver {r0 : CollRun} {e phase tree j : Nat} {es : List CollElem} {mark : Bool} {flags : Nat} (h : Keeps r s) :
    Keeps r (s.collDeliver r0 e phase tree j es mark flags).1 :=
  (h.collKeep.forEach fun _ _ h1 => h1.collPacket).putRun

theorem Keeps.collVertex {x : CollRun} {e phase tree j : Nat} (h : Keeps r s) : Keeps r (s.collVertex x e phase tree j).1 := by
  unfold State.collVertex
  extract_lets n k
  refine .ite_fst h ?_
  split
  · exact h
  · exact .ite_fst h.drainRange.collDeliver (.pair h.drainRange.collPacket.putRun)

theorem Keeps.armTimed {r0 : CollRun} (h : Keeps r s) : Keeps r (s.armTimed r0) := .ite h.putRun h.putRun.setF.setRelMask.setF.setF.armRel

theorem Keeps.collFinish {r0 : CollRun} (h : Keeps r s) : Keeps r (s.collFinish r0) := by
  unfold State.collFinish
  refine .ite ?_ h.endRun
  dsimp only
  split
  · exact .ite h.armTimed.endRun.count h.armTimed
  · exact h.armTimed

theorem Keeps.collPump {x : CollRun} {n : Nat} (h : Keeps r s) : Keeps r (s.collPump x n) := by
  induction n generalizing s x with
  | zero => exact h
  | succ n ih =>
    rw [State.collPump]
    refine .ite h ?_
    split
    · exact h
    · extract_lets k todo
      split
      next s1 _ heq =>
        have h1 : Keeps r s1 := .of_fst heq (.foldl_fst h fun _ _ h2 => h2.collVertex)
        exact .ite h1 (.ite (.ite h1.putRun.endRun (ih h1.putRun)) h1.collFinish)

theorem Keeps.collStale (h : Keeps r s) : Keeps r s.collStale := h.addF.count

theorem Keeps.collDup (h : Keeps r s) : Keeps r s.collDup := h.addF.count

theorem Keeps.collTake {pk : Packet} (h : Keeps r s) : Keeps r (s.collTake pk) := by
  unfold State.collTake
  extract_lets id inst up quick
  split
  · exact h.collStale
  · extract_lets e
    split
    · split
      · exact .ite h.collDup h.same
      · exact h.collStale
      · exact h.collDup
    · refine .ite ?_ (.ite h.collStale (.ite h.collDup ?_))
      · split
        · exact h.collStale
        · exact .ite h.collDup h.putRun.collPump
      · exact h.collDeliver.collPump

theorem Keeps.recvColl {pk : Packet} (h : Keeps r s) : Keeps r (s.recvColl pk) := by
  unfold State.recvColl
  refine .ite h (.ite h.dropMalformed ?_)
  split
  · exact h.dropStale
  · exact h.dropForeign
  · exact h.collTake

theorem Keeps.releaseHeld {c id inst : Nat} (h : Keeps r s) : Keeps r (s.releaseHeld c id inst) :=
  h.same.forEach fun _ _ h1 => h1.collTake

theorem Keeps.startRun {r0 : CollRun} (h : Keeps r s) : Keeps r (s.startRun r0) := h.setRuns.collPump.releaseHeld

theorem Keeps.startCollective {c n : Nat} (h : Keeps r s) : Keeps r (s.startCollective c n) :=
  .ite h.engineRead.collStatus.trace.collStatus.collEnded (.ite h.engineRead.collStatus.trace.collStatus.collEnded
    h.engineRead.collStatus.trace.startRun)

theorem Keeps.collStart {c n : Nat} (h : Keeps r s) : Keeps r (s.collStart c n) :=
  .ite (.ite h.startNode.drainRange.same h.startNode.drainRange.startCollective) h

theorem Keeps.timedFired {c : Nat} (h : Keeps r s) : Keeps r (s.timedFired c) := by
  unfold State.timedFired
  refine .forEach (.same ?_) fun _ _ h1 => h1.startCollective
  split
  · refine .collFinish ?_
    split
    · exact h.endRun.count
    · exact h
  · split
    · exact h.endRun.count
    · exact h

theorem Keeps.startBarrier {c sl gen : Nat} (h : Keeps r s) : Keeps r (s.startBarrier c sl gen) := h.startRun

theorem Keeps.startVote {c id word : Nat} (h : Keeps r s) : Keeps r (s.startVote c id word) := h.startRun

theorem Keeps.collAbandon {c : Nat} (h : Keeps r s) : Keeps r (s.collAbandon c) :=
  (h.setRuns.forEach fun _ _ h1 => .ite h1.collStatus h1).same.addF.count

theorem Keeps.collTimeout {c n : Nat} (h : Keeps r s) : Keeps r (s.collTimeout c n) := by
  unfold State.collTimeout
  split
  · exact h.addF.count.endRun.jobFatal
  · exact h

/-! ### The REPRO descriptors -/

theorem Keeps.setRepro {c : Nat} {d : ReproDesc} (h : Keeps r s) : Keeps r (s.setRepro c d) := h.same

theorem Keeps.reproTake {c : Nat} (h : Keeps r s) : Keeps r (s.reproTake c) := h.setRepro

theorem Keeps.reproChange {c : Nat} (h : Keeps r s) : Keeps r (s.reproChange c) := .ite h h.reproTake

theorem Keeps.reproStart {c : Nat} {g : Graph} (h : Keeps r s) : Keeps r (s.reproStart c g) := h.setRepro.reproTake

/-! ### Firmware between events of a step -/

theorem Keeps.endNode {c n code : Nat} (h : Keeps r s) : Keeps r (s.endNode c n code) := by
  unfold State.endNode
  dsimp only
  split
  · exact h.setNode.trace.withRun
  · refine .forEach h.setNode.trace.withRun fun _ _ h1 => ?_
    split
    · exact h1.postTo
    · exact h1

theorem Keeps.dropOptional {c : Nat} (h : Keeps r s) : Keeps r (s.dropOptional c) := by
  unfold State.dropOptional
  split
  · exact h
  · exact (Keeps.ite h h.withRun.trace).forEach fun _ _ h1 => h1.withRun.trace.endNode

theorem Keeps.startPd {c n : Nat} (h : Keeps r s) : Keeps r (s.startPd c n) := h.startNode.engineWrite.postTo.trace

theorem Keeps.startLinkage {c n : Nat} (h : Keeps r s) : Keeps r (s.startLinkage c n) :=
  h.startNode.engineRead.readNat.engineWrite.engineWrite.withRun.trace

theorem Keeps.readied {c n : Nat} (h : Keeps r s) : Keeps r (s.readied c n) := by
  unfold State.readied
  refine .ite ?_ (.ite h.withRun.trace.dropOptional h.withRun.trace)
  split
  · exact (Keeps.ite h.withRun.trace.dropOptional h.withRun.trace).startPd
  · exact (Keeps.ite h.withRun.trace.dropOptional h.withRun.trace).startLinkage
  · exact (Keeps.ite h.withRun.trace.dropOptional h.withRun.trace).startNode.endNode
  · exact .ite h.withRun.trace.dropOptional h.withRun.trace

theorem Keeps.readyNodes {c n : Nat} (h : Keeps r s) : Keeps r (s.readyNodes c n) := by
  induction n generalizing s with
  | zero => exact h
  | succ n ih =>
    rw [State.readyNodes]
    split
    · exact ih h.readied
    · exact h

theorem Keeps.contribute {c : Nat} {fail : Bool} (h : Keeps r s) : Keeps r (s.contribute c fail) := by
  unfold State.contribute
  split
  · exact h
  · exact .ite h.withRun.trace h.withRun.trace.startVote

theorem Keeps.voteIfEnded {c : Nat} (h : Keeps r s) : Keeps r (s.voteIfEnded c) := .ite h.contribute h

theorem Keeps.graphPoll (h : Keeps r s) : Keeps r s.graphPoll := h.forEach fun _ _ h1 => h1.readyNodes.voteIfEnded

/-! ### The linkage queues -/

theorem Keeps.lsaRefused {c : Nat} {b : LsaBatch} {reserved : Bool} (h : Keeps r s) : Keeps r (s.lsaRefused c b reserved).1 := by
  unfold State.lsaRefused
  split
  · exact h
  · exact h.readNat.engineRead

theorem Keeps.lsaPoison {c addr : Nat} (h : Keeps r s) : Keeps r (s.lsaPoison c addr) := h.detect

theorem Keeps.lsaTakeOne {q k : Nat} (h : Keeps r s) : Keeps r (s.lsaTakeOne q k) :=
  .ite h.applyShadow.engineRead.setF.lsaPoison h.applyShadow.engineRead.lsaRefused.same.engineWrite.free.count.event

theorem Keeps.lsaTake {q pidx n : Nat} (h : Keeps r s) : Keeps r (s.lsaTake q pidx n) := by
  induction n generalizing s with
  | zero => exact h
  | succ n ih => exact .ite (ih h.lsaTakeOne) h

theorem Keeps.lsaLook {q : Nat} (h : Keeps r s) : Keeps r (s.lsaLook q) :=
  .ite h (.ite h (.ite h.engineRead.setF.lsaPoison (.ite h.engineRead.setF.setF h.engineRead.lsaTake)))

theorem Keeps.lsaPoll (h : Keeps r s) : Keeps r s.lsaPoll := .ite h (.ite h.same (.ite h (h.same.forEach fun _ _ h1 => h1.lsaLook)))

/-! ### The matrix array -/

theorem Keeps.mxFlags {t fl : Nat} (h : Keeps r s) : Keeps r (s.mxFlags t fl) := h.orCsr

theorem Keeps.setBank {t b : Nat} {v : Bank} (h : Keeps r s) : Keeps r (s.setBank t b v) := h.setTile

theorem Keeps.doMma {t : Nat} {q : MxReq} (h : Keeps r s) : Keeps r (s.doMma t q) := .ite h.setBank.mxFlags h.setBank.mxFlags

theorem Keeps.doWmma {t : Nat} {q : MxReq} (h : Keeps r s) : Keeps r (s.doWmma t q) := h.setBank

theorem Keeps.doLdacc {t : Nat} {q : MxReq} (h : Keeps r s) : Keeps r (s.doLdacc t q) := .ite h.setBank.mxFlags h.setBank.mxFlags

theorem Keeps.mxDigest {t w : Nat} {es : List ((Nat × Nat) × Elem)} (h : Keeps r s) : Keeps r (s.mxDigest t w es) := .ite h.digest h

theorem Keeps.putCells {t base stride n : Nat} {es : List ((Nat × Nat) × Elem)} (h : Keeps r s) :
    Keeps r (s.putCells t base stride n es) :=
  h.putElems.mxDigest

theorem Keeps.doStacc {t : Nat} {q : MxReq} (h : Keeps r s) : Keeps r (s.doStacc t q) := h.putCells.mxFlags

theorem Keeps.doRecomb {t : Nat} {q : MxReq} (h : Keeps r s) : Keeps r (s.doRecomb t q) := h.putCells.mxFlags.orCsr.setBank

theorem Keeps.doSlice {t : Nat} {q : MxReq} (h : Keeps r s) : Keeps r (s.doSlice t q) := h.putElems.mxFlags.orCsr.setCsr

theorem Keeps.mxDo {t : Nat} {q : MxReq} (h : Keeps r s) : Keeps r (s.mxDo t q) := by
  unfold State.mxDo
  split
  · exact h.doMma
  · exact h.doWmma
  · exact h.doLdacc
  · exact h.doStacc
  · exact h.setBank
  · exact h.doRecomb
  · exact h.doSlice
  · exact h

/-! ### FCU requests and interlocks -/

theorem Keeps.fcuDo {t : Nat} {q : FcuReq} (h : Keeps r s) : Keeps r (s.fcuDo t q) := h.svWrite

theorem Keeps.frees {n : Nat} (h : Keeps r s) : Keeps r (s.frees n).2 := h.same

theorem Keeps.partWritten {after : State} {t : Nat} {ps : List Put} (h : Keeps r s) : Keeps r (s.partWritten after t ps) :=
  h.frees.putElems

theorem Keeps.abandonMx {t : Nat} {q : MxReq} (h : Keeps r s) : Keeps r (s.abandonMx t q) := by
  unfold State.abandonMx
  dsimp only
  split
  · exact h.partWritten
  · exact h.partWritten
  · exact h.partWritten
  · exact h.frees.setBank
  · exact h.frees.setBank
  · exact .ite h.free h.free.setBank
  · exact .ite h.free h.free.setBank
  · exact h

theorem Keeps.abandonFcu {t : Nat} {q : FcuReq} (h : Keeps r s) : Keeps r (s.abandonFcu t q) := h.partWritten.orCsr

theorem Keeps.abandonUnits {t : Nat} (h : Keeps r s) : Keeps r (s.abandonUnits t) := by
  unfold State.abandonUnits
  refine .setTile ?_
  split
  · exact .ite ((h.forEach fun _ _ h1 => h1.abandonMx).free) ((h.forEach fun _ _ h1 => h1.abandonMx).free.abandonFcu)
  · exact h.forEach fun _ _ h1 => h1.abandonMx

/-! ### The tally of operations -/

theorem Keeps.tallyAdd {t kind n : Nat} (h : Keeps r s) : Keeps r (s.tallyAdd t kind n) := .ite h.same h

theorem Keeps.tallyMx {t : Nat} {q : MxReq} (h : Keeps r s) : Keeps r (s.tallyMx t q) := by
  unfold State.tallyMx
  dsimp only
  split
  · exact h.tallyAdd.tallyAdd
  · exact h.tallyAdd.tallyAdd
  · exact h.tallyAdd
  · exact h.tallyAdd
  · exact h.tallyAdd
  · exact h.tallyAdd
  · exact h

theorem Keeps.tallySv {t : Nat} {o : SvOp} (h : Keeps r s) : Keeps r (s.tallySv t o) := h.tallyAdd.tallyAdd

theorem Keeps.tallyFcu {t : Nat} {q : FcuReq} (h : Keeps r s) : Keeps r (s.tallyFcu t q) := h.tallyAdd

theorem Keeps.tallyMesh {c kind n : Nat} (h : Keeps r s) : Keeps r (s.tallyMesh c kind n) := .ite h.tallyAdd h

/-! ### The Xzsy instructions -/

theorem Keeps.lateFault {c : Nat} (h : Keeps r s) : KeepsSome r (s.lateFault c) := by
  unfold State.lateFault
  split
  · exact .none
  · exact .some h.same.coreFault

theorem Keeps.syFault {c code tval : Nat} (h : Keeps r s) : Keeps r (s.syFault c code tval) := h.coreFault

theorem Keeps.counterFault {c cause id op reason n : Nat} (h : Keeps r s) : Keeps r (s.counterFault c cause id op reason n) := h.coreFault

theorem Keeps.takeEntry {c id n rd : Nat} {deadline : Option Nat} (h : Keeps r s) : Keeps r (s.takeEntry c id n rd deadline) :=
  .ite h.same.block.waitBegin h.block

theorem Keeps.presentWait {c id n rd : Nat} {deadline : Option Nat} (h : Keeps r s) : Keeps r (s.presentWait c id n rd deadline) :=
  .ite h.setCounter.resume h.takeEntry

theorem Keeps.counterOp {c code rd id x2 : Nat} (h : Keeps r s) : Keeps r (s.counterOp c code rd id x2) := by
  unfold State.counterOp
  refine .ite (.ite h.counterFault h.counterInit) (.ite h.counterFault ?_)
  split
  · exact .ite h.counterFault (.ite h.counterAdd.event h.counterAdd)
  · exact .ite h.setCounter.setX h.counterFault
  · exact .ite h.counterFault h.presentWait
  · exact h.setX

theorem Keeps.runCounter {c code w x1 x2 : Nat} (h : Keeps r s) : KeepsSome r (s.runCounter c code w x1 x2) := by
  unfold State.runCounter
  refine .ite (.some h.syFault) (.ite .none ?_)
  dsimp only
  split
  next s1 heq =>
    have h1 : Keeps r s1 := KeepsSome.get (.ite h.lateFault .none) heq
    exact .some h1
  · exact .ite (.some h.arrive.counterOp) (.some h.arrive.hold.block)

theorem Keeps.countArrival {t slot : Nat} (h : Keeps r s) : Keeps r (s.countArrival t slot) := by
  unfold State.countArrival
  refine .ite h.same (.ite h.same.releaseSlot ?_)
  split
  · exact h.same.startBarrier
  · exact h.same

theorem Keeps.runBarrier {t code w x1 x2 : Nat} (h : Keeps r s) : KeepsSome r (s.runBarrier t code w x1 x2) := by
  unfold State.runBarrier
  refine .ite (.some h.syFault) (.ite .none ?_)
  dsimp only
  split
  next s1 heq =>
    have h1 : Keeps r s1 := KeepsSome.get (.ite h.lateFault .none) heq
    exact .some h1
  · exact .ite (.some h.coreFault) (.ite (.some h.setX.countArrival) (.ite (.some h) (.some h.block.waitBegin)))

theorem Keeps.setIdle {t : Nat} (h : Keeps r s) : Keeps r (s.setIdle t) := h.setF

theorem Keeps.setDq {t top bot : Nat} (h : Keeps r s) : Keeps r (s.setDq t top bot) := h.setCsr.setIdle

theorem Keeps.copySlot {src dst : Nat} (h : Keeps r s) : Keeps r (s.copySlot src dst) :=
  (h.forEach fun _ _ h1 => h1.storeBytes).watchWrite

theorem Keeps.runDeque {t code w x1 : Nat} (h : Keeps r s) : KeepsSome r (s.runDeque t code w x1) := by
  unfold State.runDeque
  split
  · exact .some h.coreFault
  · exact .ite .none (.ite (.ite (.some h.copySlot.setDq.setX) (.some h.setX)) (.ite (.some h.copySlot.setDq.setX) (.some h.setX)))

theorem Keeps.stealMiss {t rd : Nat} (h : Keeps r s) : Keeps r (s.stealMiss t rd) := by
  unfold State.stealMiss
  exact h.setCsr.setX.event

theorem Keeps.stealFrom {t rd x1 v : Nat} (h : Keeps r s) : Keeps r (s.stealFrom t rd x1 v) :=
  .ite h.stealMiss h.copySlot.setDq.setCsr.setX.event

theorem Keeps.runSteal {t w x1 x2 : Nat} (h : Keeps r s) : KeepsSome r (s.runSteal t w x1 x2) := by
  unfold State.runSteal
  split
  · exact .some h.coreFault
  · refine .ite (.some h.syFault) (.ite .none (.ite (.some h.stealMiss)
      (.ite ?_ (.ite (.some h.stealMiss) (.ite (.some h.arrive.stealFrom) (.some h.arrive.hold.block))))))
    split
    · exact .some h.stealFrom
    · exact .some h.stealMiss

theorem Keeps.runWarm {t : TileId} {w x1 x2 : Nat} (h : Keeps r s) : Keeps r (s.runWarm t w x1 x2) :=
  .ite h.coreFault (.ite h.coreFault (.ite h.syFault h.setF.setF.setF))

theorem Keeps.runWdis {t x1 : Nat} (h : Keeps r s) : Keeps r (s.runWdis t x1) := .ite h.syFault h.setF

theorem Keeps.runSync {c code w x1 x2 : Nat} (h : Keeps r s) : KeepsSome r (s.runSync c code w x1 x2) :=
  .ite (.some h.coreFault) (.ite h.runCounter (.ite h.runBarrier (.ite h.runDeque
    (.ite h.runSteal (.dite (fun _ => .ite (.some h.runWarm) (.some h.runWdis)) fun _ => .some h)))))

theorem Keeps.retryWait {c : Nat} (h : Keeps r s) : Keeps r (s.retryWait c) := by
  unfold State.retryWait
  split
  · exact .ite h.presentWait h
  · exact h

theorem Keeps.timeoutWait {c : Nat} (h : Keeps r s) : Keeps r (s.timeoutWait c) := by
  unfold State.timeoutWait
  split
  · exact h.withdraw.resume
  · exact h.resume
  · exact h

end Sys2Proof.Machine
end

section
/-! SUPPORT. What coherence, page loads and the accesses of a core keep of a state. -/
namespace Sys2Proof.Machine

variable {r s t : State}

/-! ### Coherence within the tray -/

theorem Keeps.cohNote {pk : Packet} {answer : Option Packet} (h : Keeps r s) : Keeps r (s.cohNote pk answer) := h.same

theorem Keeps.cohReply {pk : Packet} {op : Nat} {data : List Byte} {poisoned : Bool} (h : Keeps r s) :
    Keeps r (s.cohReply pk op data poisoned) :=
  h.same.send

theorem Keeps.cohData {l : Nat} (h : Keeps r s) : Keeps r (s.cohData l).1 := h.engineRead

theorem Keeps.cohWriteBack {l : Nat} {data : List Byte} {poisoned : Bool} (h : Keeps r s) : Keeps r (s.cohWriteBack l data poisoned) :=
  h.drainLine.hbmBytes.watchWrite

theorem Keeps.dirDrop {l w : Nat} (h : Keeps r s) : Keeps r (s.dirDrop l w) := h.setDir

theorem Keeps.dirShare {l w : Nat} (h : Keeps r s) : Keeps r (s.dirShare l w) := h.setDir

theorem Keeps.cohGrant {tx : CohTx} (h : Keeps r s) : Keeps r (s.cohGrant tx) := by
  unfold State.cohGrant
  split
  · exact .ite h.setDir.breakReservations.cohReply (.ite h.cohData.setDir.cohReply h.cohData.setDir.breakReservations.cohReply)
  · exact h.order
  · exact h

theorem Keeps.cohBegin {tx : CohTx} (h : Keeps r s) : Keeps r (s.cohBegin tx) := .ite h.cohAsk.cohGrant h.cohAsk.same

theorem Keeps.cohNext {l : Nat} (h : Keeps r s) : Keeps r (s.cohNext l) := by
  unfold State.cohNext
  refine .ite h ?_
  split
  · exact h.same.cohBegin
  · exact h

theorem Keeps.cohDrain {l n : Nat} (h : Keeps r s) : Keeps r (s.cohDrain l n) := by
  induction n generalizing s with
  | zero => exact h
  | succ n ih => exact .ite (ih h.cohNext) h

theorem Keeps.cohArrived {tx : CohTx} {w : Nat} (h : Keeps r s) : Keeps r (s.cohArrived tx w) := .ite h.same.cohGrant.cohDrain h.same

theorem Keeps.cohRequest {pk : Packet} (h : Keeps r s) : Keeps r (s.cohRequest pk) := .ite h (.ite (.ite h.same.send h.same) h.cohBegin)

theorem Keeps.cohPut {pk : Packet} (h : Keeps r s) : Keeps r (s.cohPut pk) := (Keeps.ite h.cohWriteBack h).dirDrop.cohReply

theorem Keeps.cohHomeAck {pk : Packet} (h : Keeps r s) : Keeps r (s.cohHomeAck pk) := by
  unfold State.cohHomeAck
  dsimp only
  split
  · exact h
  · exact (Keeps.ite ((Keeps.ite h.cohWriteBack h).dirShare) ((Keeps.ite h.cohWriteBack h).dirDrop)).cohArrived

theorem Keeps.setCached {w l : Nat} {x : CacheLine} (h : Keeps r s) : Keeps r (s.setCached w l x) := h.same

theorem Keeps.dropCached {w l : Nat} (h : Keeps r s) : Keeps r (s.dropCached w l) := h.setCached.breakReservations

theorem Keeps.cohSnoop {pk : Packet} (h : Keeps r s) : Keeps r (s.cohSnoop pk) := by
  unfold State.cohSnoop
  dsimp only
  split
  · exact h.dropCached.cohReply
  · exact .ite h.dropCached.cohReply h.dropCached.cohReply
  · exact .ite h.setCached.cohReply (.ite h.cohReply h.setCached.cohReply)

theorem Keeps.cohResult {pk : Packet} (h : Keeps r s) : Keeps r (s.cohResult pk) := by
  unfold State.cohResult
  split
  · exact h
  · exact .ite h.same.setCached (.ite h.same.setCached (.ite (.ite h.same h.same.setCached) (.ite h.same h.same)))

theorem Keeps.cohFetch {c w l : Nat} {excl : Bool} {o : Origin} (h : Keeps r s) : Keeps r (s.cohFetch c w l excl o) := .ite h h.same.send

theorem Keeps.recvCoh {op : Nat} {pk : Packet} (h : Keeps r s) : Keeps r (s.recvCoh op pk) := by
  unfold State.recvCoh
  refine .ite h (.ite h.dropMalformed ?_)
  split
  · exact .ite h.send h
  · exact h
  · refine .ite ?_ (.ite ((Keeps.ite h h.cohNote).cohHomeAck) (.ite ((Keeps.ite h h.cohNote).cohHomeAck)
      ((Keeps.ite h h.cohNote).cohResult)))
    split
    · exact h.dropStale
    · exact h.dropForeign
    · exact .ite h.cohNote.cohRequest (.ite h.cohNote.cohPut h.cohNote.cohSnoop)

theorem Keeps.cohResend {slot : Nat} (h : Keeps r s) : Keeps r (s.cohResend slot) := .ite h.send h

theorem Keeps.dropWaiting {o : Origin} (h : Keeps r s) : Keeps r (s.dropWaiting o) := by
  unfold State.dropWaiting
  split
  · exact h.setCore
  · exact h

theorem Keeps.cohTimeout {slot : Nat} (h : Keeps r s) : Keeps r (s.cohTimeout slot) := by
  unfold State.cohTimeout
  refine .ite (h.same.dropWaiting.complete.same.forEach fun _ _ h1 => h1.jobFatal) ?_
  split
  · exact h.forEach fun _ _ h1 => h1.addF.same.forEach fun _ _ h2 => h2.jobFatal
  · exact h

theorem Keeps.cohTeardown {job gen : Nat} {ctxs : List Nat} (h : Keeps r s) : Keeps r (s.cohTeardown job gen ctxs) :=
  (h.forEach fun _ _ h1 => (Keeps.ite h1.same h1).setDir).same.same.forEach fun _ _ h1 => h1.cohBegin.cohDrain

/-! ### Loads from a block page -/

theorem Keeps.pageLoad {page off size : Nat} (h : Keeps r s) : Keeps r (s.pageLoad page off size).1 := h.forEach fun _ _ h1 => h1.setF

/-! ### What a core issues -/

theorem Keeps.refuseCore {c : Nat} {load : Bool} {a kind : Nat} (h : Keeps r s) : Keeps r (s.refuseCore c load a kind) := h.coreFault

theorem Keeps.refusedAt {c x node : Nat} {load : Bool} {a : Nat} {r0 : Refused} (h : Keeps r s) :
    Keeps r (s.refusedAt c x node load a r0) := by
  unfold State.refusedAt
  split
  · exact h.targetDead.refuseCore
  · exact h.refuseCore

theorem Keeps.coreGlobal {c x node off len a kind : Nat} {o : Origin} {load : Bool} {f : Packet → Packet} (h : Keeps r s) :
    Keeps r (s.coreGlobal c x node off len a kind o load f) := by
  unfold State.coreGlobal
  split
  next s1 heq =>
    have h1 : Keeps r s1 := h.issue.get heq
    exact h1
  · exact h.block.refusedAt

theorem Keeps.replicaLoad {c x node off len a : Nat} {o : Origin} (h : Keeps r s) : Keeps r (s.replicaLoad c x node off len a o) := by
  unfold State.replicaLoad
  refine .ite h.block.refusedAt ?_
  split
  · exact h.block.refusedAt
  · refine .ite h.block.refusedAt ?_
    split
    · exact h.block.refusedAt
    · split
      next s1 heq =>
        have h1 : Keeps r s1 := h.issue.get heq
        exact h1
      · exact h.block.refusedAt

theorem Keeps.trayAsk {c x w off len a perm : Nat} {excl : Bool} {o : Origin} (h : Keeps r s) :
    Keeps r (s.trayAsk c x w off len a perm excl o) :=
  .ite h.refuseCore (.ite h.refuseCore (h.forEach fun _ _ h1 => h1.cohFetch))

theorem Keeps.trayWrite {w off : Nat} {bs : List Byte} (h : Keeps r s) : Keeps r (s.trayWrite w off bs) :=
  (h.forEach fun _ _ h1 => h1.setCached).breakReservations

theorem Keeps.coreStore {c k off len a : Nat} {op : CoreOp} {load blocks : Bool} {f : State → State} (h : Keeps r s)
    (hf : ∀ s, Keeps r s → Keeps r (f s)) : KeepsSome r (s.coreStore c k off len a op load blocks f) :=
  .ite .none (.ite (.some (.ite h.arrive.hold.block h.arrive.hold)) (.ite (.some h.arrive.refuseCore) (.some (hf _ h.arrive))))

theorem Keeps.runLoad {c a size : Nat} {sgn : Bool} {rd : Nat} {op : CoreOp} (h : Keeps r s) :
    KeepsSome r (s.runLoad c a size sgn rd op) := by
  unfold State.runLoad
  refine .ite (.some h.coreFault) ?_
  split
  · exact .some h.tallyMesh.block.submit
  · exact h.coreStore fun _ h1 => h1.loadReg
  · exact .some h.loadReg
  · exact .ite (.some h.pageLoad.setX) (.some h.refuseCore)
  · exact .some h.tallyMesh.block.coreGlobal
  · exact .some h.tallyMesh.block.replicaLoad
  · exact .ite (.some h.loadReg) (.ite (.some h.trayAsk.block.setCore) (.some h.trayAsk))
  · exact .some h.refuseCore

theorem Keeps.runStore {c a size v : Nat} {op : CoreOp} (h : Keeps r s) : KeepsSome r (s.runStore c a size v op) := by
  unfold State.runStore
  refine .ite (.some h.coreFault) ?_
  split
  · exact .some h.tallyMesh.submit
  · exact h.coreStore fun _ h1 => h1.storeBytes.watchWrite
  · exact .some h.refuseCore
  · exact .some h.refuseCore
  · exact .some h.tallyMesh.coreGlobal
  · exact .some h.refuseCore
  · exact .ite (.some h.trayWrite) (.ite (.some h.trayAsk.setCore) (.some h.trayAsk))
  · exact .some h.refuseCore

theorem Keeps.runAmo {c a : Nat} {o : AmoOp} {wide : Bool} {v rd : Nat} {op : CoreOp} (h : Keeps r s) :
    KeepsSome r (s.runAmo c a o wide v rd op) := by
  unfold State.runAmo
  refine .ite (.some h.coreFault) ?_
  split
  · exact .some h.tallyMesh.block.submit
  · exact h.coreStore fun _ h1 => .ite h1.block.poisonFault h1.storeBytes.watchWrite.block.setX
  · exact .some h.refuseCore
  · exact .some h.refuseCore
  · exact .some h.tallyMesh.block.coreGlobal
  · exact .some h.refuseCore
  · exact .ite (.ite (.some h.poisonFault) (.some h.trayWrite.setX)) (.ite (.some h.trayAsk.setCore) (.some h.trayAsk))
  · exact .some h.refuseCore

theorem Keeps.runLr {c a : Nat} {wide : Bool} {rd : Nat} {op : CoreOp} (h : Keeps r s) : KeepsSome r (s.runLr c a wide rd op) := by
  unfold State.runLr
  refine .ite (.some h.coreFault) ?_
  split
  · exact .some h.refuseCore
  · split
    · exact .some h.refuseCore
    · exact h.setCore.runLoad

theorem Keeps.runSc {c a : Nat} {wide : Bool} {v rd : Nat} {op : CoreOp} (h : Keeps r s) : KeepsSome r (s.runSc c a wide v rd op) := by
  unfold State.runSc
  refine .ite (.some h.coreFault) ?_
  split
  · exact .some h.refuseCore
  · split
    · exact .some h.refuseCore
    · refine .ite (.some h.setCore.setX) ?_
      split
      · dsimp only
        split
        · exact .some h.setCore.replyRefused
        · exact .some h.setCore.setX.accept
      · exact h.coreStore fun _ h1 => h1.setCore.storeBytes.watchWrite.block.setX
      · exact .ite (.some h.setCore.trayWrite.setX) (.ite (.some h.trayAsk.setCore) (.some h.trayAsk))
      · exact .some h

theorem Keeps.issueTrap {t : Nat} {x : Trap} (h : Keeps r s) : Keeps r (s.issueTrap t x) := h.coreFault

theorem Keeps.runMx {t f3 w x1 x2 : Nat} (h : Keeps r s) : KeepsSome r (s.runMx t f3 w x1 x2) := by
  unfold State.runMx
  refine .ite (.some h.coreFault) (.ite (.ite (.some h) .none) ?_)
  split
  · exact .some ((Keeps.ite h.orCsr h).issueTrap)
  · exact .ite .none (.some (.ite h.setTile.arrive h.setTile.arrive.startUnitWake))

theorem Keeps.setVl {t w n : Nat} (h : Keeps r s) : Keeps r (s.setVl t w n) := h.setCsr.setX

theorem Keeps.advance1 {t n k : Nat} {packed : Bool} (h : Keeps r s) : Keeps r (s.advance1 t n k packed) :=
  .ite (.ite h.setCsr.setCsr h) (.ite h h.setCsr.setCsr)

theorem Keeps.runSvControl {t f3 w x1 : Nat} (h : Keeps r s) : KeepsSome r (s.runSvControl t f3 w x1) := by
  unfold State.runSvControl
  refine .ite (.some h.coreFault) ?_
  dsimp only
  split
  · exact .some h.setVl
  · exact .some h.setVl
  · exact .some (h.forEach fun _ _ h1 => h1.advance1)
  · exact .some (h.forEach fun _ _ h1 => h1.advance1)
  · exact .ite (.some h) .none

theorem Keeps.runSv {t code w : Nat} (h : Keeps r s) : KeepsSome r (s.runSv t code w) := by
  unfold State.runSv
  refine .ite (.some h.coreFault) ?_
  split
  · exact .some h.issueTrap
  · exact .ite (.ite .none (.some h.setTile.arrive)) (.ite (.some h.svRun.tallySv) .none)

theorem Keeps.runStatus {op : CoreOp} {t : Nat} (h : Keeps r s) : KeepsSome r (s.runStatus op t) := by
  unfold State.runStatus
  split
  · exact .ite .none (.ite (.some h.setX.setCsr) (.some h.setX))
  · exact .ite .none (.some h.setX)
  · exact .some h

theorem Keeps.tileCsr {t n v : Nat} (h : Keeps r s) : Keeps r (s.tileCsr t n v) :=
  .ite h.reject (.ite h.reject (h.forEach fun _ _ h1 => h1.setCsr))

theorem Keeps.runCsr {c n v : Nat} (h : Keeps r s) : Keeps r (s.runCsr c n v) := by
  unfold State.runCsr
  refine .ite h.coreFault (.ite h.tileCsr ?_)
  split
  · exact h.setCsr
  · exact h
  · exact h.setCsr
  · exact h.setCore
  · exact h.setCsr
  · exact h
  · exact h.setCsr
  · exact h.setCsr
  · exact h.setCsr

theorem Keeps.setVec {k : Nat} {on : Bool} (h : Keeps r s) : Keeps r (s.setVec k on) := h.setF

theorem Keeps.vecWrite {c w : Nat} (h : Keeps r s) : Keeps r (s.vecWrite c w) :=
  .ite h (.ite h.free.setX (.ite h.free.same (.ite ((h.frees.forEach fun _ _ h1 => h1.same).setCsr.setCsr)
    (h.frees.forEach fun _ _ h1 => h1.same))))

theorem Keeps.runVector {c w vl : Nat} {faultAt : Option Nat} {cause : Nat} (h : Keeps r s) :
    KeepsSome r (s.runVector c w vl faultAt cause) := by
  unfold State.runVector
  refine .ite (.some h.coreFault) (.ite .none ?_)
  dsimp only
  split
  · exact .some h.setVec.free.coreFault.setCore
  · exact .some h.setVec.vecWrite.setCore

theorem Keeps.kernelExit {t a0 : Nat} (h : Keeps r s) : Keeps r (s.kernelExit t a0) :=
  .ite h.coreFault (.ite h.trap.setCore.withRun.trace h.trap.setCore.withRun.trace.trace.failNode)

theorem Keeps.runCore {c : Nat} {op : CoreOp} (h : Keeps r s) : KeepsSome r (s.runCore c op) := by
  unfold State.runCore
  split
  · exact h.runLoad
  · exact h.runStore
  · exact h.runAmo
  · exact h.runLr
  · exact h.runSc
  · exact h.runMx
  · exact .ite h.runSvControl h.runSv
  · exact h.runSync
  · exact h.runStatus
  · exact h.runStatus
  · exact .ite .none (.some (h.lateFault.getD h))
  · exact .some h.runCsr
  · exact h.runVector
  · refine .ite .none ?_
    split
    next s1 heq =>
      have h1 : Keeps r s1 := h.lateFault.get heq
      exact .some h1
    · exact .some h.kernelExit

theorem Keeps.waitFor {c : Nat} {op : CoreOp} (h : Keeps r s) : Keeps r (s.waitFor c op) := by
  unfold State.waitFor
  split
  · exact .ite h.arrive.startUnitWake h
  · exact h.arrive
  · exact .ite h h.setCore
  · exact h

theorem Keeps.drainCore {c n : Nat} (h : Keeps r s) : Keeps r (s.drainCore c n) := by
  induction n generalizing s with
  | zero => exact h
  | succ n ih =>
    rw [State.drainCore]
    split
    · exact h
    · refine .ite h (.ite ?_ (.ite h ?_))
      · extract_lets s1
        split
        next heq => exact ih (h.setCore.runCore.get heq)
        · exact h.setCore.setCore
      · split
        next heq => exact ih (h.setCore.runCore.get heq)
        · exact h.waitFor

theorem Keeps.goOn {n : Nat} (h : Keeps r s) : Keeps r (s.goOn n) := by
  induction n generalizing s with
  | zero => exact h
  | succ n ih =>
    have h1 := h.settleLoop.forEach (l := s.settleLoop.stalledCores)
      (f := fun c s => s.drainCore c (s.core c).stalled.length) fun _ _ h2 => h2.drainCore
    exact .ite h1 (ih h1)

theorem Keeps.deliverInterrupts (h : Keeps r s) : Keeps r s.deliverInterrupts := h.forEach fun _ _ h1 => h1.setCore

theorem Keeps.finish (h : Keeps r s) : Keeps r s.finish := h.goOn.graphPoll.lsaPoll.deliverInterrupts.pfcPoll

theorem Keeps.issueOp {c : Nat} {op : CoreOp} (h : Keeps r s) : Keeps r (s.issueOp c op) := by
  unfold State.issueOp
  refine .ite h.setCore ?_
  split
  next s1 heq =>
    have h1 : Keeps r s1 := h.runCore.get heq
    exact h1
  · exact h.waitFor.setCore

theorem Keeps.serveHeld {h0 : Held} (h : Keeps r s) : Keeps r (s.serveHeld h0) := by
  unfold State.serveHeld
  split
  · dsimp only
    split
    next s1 heq =>
      have h1 : Keeps r s1 := (Keeps.ite h.block h).runCore.get heq
      exact h1
    · exact (Keeps.ite h.block h).setCore
  · exact h.watchPost
  · exact h.postTo
  · exact .ite h.applyRead (.ite h.applyWrite h.applyAtomicPk)

theorem Keeps.releaseMesh {f : Nat} (h : Keeps r s) : Keeps r (s.releaseMesh f) :=
  .ite (h.setFlask.forEach fun _ _ h1 => h1.serveHeld) ((h.setFlask.forEach fun _ _ h1 => h1.serveHeld).setFlask)

end Sys2Proof.Machine
end

section
/-! SUPPORT. What the memory system's commands, checkpoints and the solver keep of a state. -/
namespace Sys2Proof.Machine

variable {r s t : State}

/-! ### The memory system's commands -/

theorem Keeps.requestEvac {site ch : Nat} (h : Keeps r s) : Keeps r (s.requestEvac site ch) :=
  .ite h (.ite h.raiseSpare h.setF.same.event.detect)

theorem Keeps.channelCe {site ch off : Nat} {info : ErrorInfo} (h : Keeps r s) : Keeps r (s.channelCe site ch off info) :=
  .ite ((Keeps.ite h.addF.detect.prefail h.addF.detect).requestEvac) (.ite h.addF.detect.prefail h.addF.detect)

theorem Keeps.channelDe {site ch off : Nat} {info : ErrorInfo} (h : Keeps r s) : Keeps r (s.channelDe site ch off info) :=
  .ite ((Keeps.ite h.same.addF.detect.prefail h.same.addF.detect).requestEvac) (.ite h.same.addF.detect.prefail h.same.addF.detect)

theorem Keeps.refuseAtomic {src : Source} (h : Keeps r s) : Keeps r (s.refuseAtomic src) := by
  unfold State.refuseAtomic
  split
  · exact h.coreFault
  · exact h.emit

theorem Keeps.execHbmAtomic {src : Source} {off : BitVec 40} {op ty : BitVec 4} {mask : BitVec 16} {operand : List Byte} {fetch : Bool}
    (h : Keeps r s) : KeepsNext r (execHbmAtomic src off op ty mask operand fetch s) :=
  .ite (.next h.submit.finish) (.next h.refuseAtomic)

theorem Keeps.execMergerDrain {site : SiteId} {line : BitVec 33} (h : Keeps r s) : KeepsNext r (execMergerDrain site line s) :=
  .ite (.next h.drainLine.finish) (.next h)

theorem Keeps.execSluiceGrant {site : SiteId} {p : PolderId} {idle : Bool} (h : Keeps r s) :
    KeepsNext r (execSluiceGrant site p idle s) := by
  unfold Machine.execSluiceGrant
  split
  · exact .next h
  · exact .ite (.next ((Keeps.ite h.same.chargeWindow h.same.chargeWindow.chargeBucket).accept.finish)) (.next h)

theorem Keeps.execHbmSelfRefresh (h : Keeps r s) : KeepsNext r (execHbmSelfRefresh s) := .ite (.next h.same) (.next h)

theorem Keeps.execSelfRefreshExitDone (h : Keeps r s) : KeepsNext r (execSelfRefreshExitDone s) :=
  .ite (.next ((h.same.forEach fun _ _ h1 => h1.sluice).finish)) (.next h)

theorem Keeps.execHbmPatrolScrub {site : SiteId} {off : BitVec 40} {found : EccFinding} (h : Keeps r s) :
    KeepsNext r (execHbmPatrolScrub site off found s) := by
  unfold Machine.execHbmPatrolScrub
  dsimp only
  split
  · exact .next h
  · exact .next h.channelCe
  · exact .ite (.next h) (.next h.channelDe)

theorem Keeps.execHourlyCountRoll (h : Keeps r s) : KeepsNext r (execHourlyCountRoll s) :=
  .next ((h.forEach fun _ _ h1 => h1.forEach fun _ _ h2 => h2.setF).same)

theorem Keeps.shownCap {quarters : Nat} (h : Keeps r s) : Keeps r (s.shownCap quarters).2 := by
  unfold State.shownCap
  split
  · exact h
  · exact h.free

theorem Keeps.execHbmTempReading {site : SiteId} {reading : Byte} (h : Keeps r s) : KeepsNext r (execHbmTempReading site reading s) :=
  .ite (.next h) (.next (.ite h.setF.setF.setF.shownCap.setF.same h.setF.setF.setF.shownCap.setF.same.event))

theorem Keeps.execEvacRequest {site : SiteId} {ch : Fin 32} (h : Keeps r s) : KeepsNext r (execEvacRequest site ch s) :=
  .ite (.next h) (.next h.requestEvac)

theorem Keeps.lowerTop (h : Keeps r s) : Keeps r s.lowerTop := (h.forEach fun _ _ h1 => h1.setF).setF

theorem Keeps.execEvacStart {site : SiteId} {ch : Fin 32} (h : Keeps r s) : KeepsNext r (execEvacStart site ch s) :=
  .ite (.next h.same.setF.lowerTop.event.setF.setF.event) (.next h)

theorem Keeps.execEvacCopyDone {site : SiteId} {ch : Fin 32} (h : Keeps r s) : KeepsNext r (execEvacCopyDone site ch s) :=
  .ite (.next (.ite h.setF.addF.setF.event.same.raiseSpare h.setF.addF.setF.event.same)) (.next h)

/-! ### Checkpoints -/

theorem Keeps.setCkpt {c : Nat} {r0 : CkptRun} (h : Keeps r s) : Keeps r (s.setCkpt c r0) := h.same

theorem Keeps.ckptDesc {off : Nat} (h : Keeps r s) : Keeps r (s.ckptDesc off).1 := h.readNat.engineRead

theorem Keeps.clog {c : Nat} {d : CkptDesc} {heat outcome stage promos sent : Nat} (h : Keeps r s) :
    Keeps r (s.clog c d heat outcome stage promos sent) :=
  h.readNat.engineWrite.engineWrite.setF

theorem Keeps.ckptShow {c : Nat} (h : Keeps r s) : Keeps r (s.ckptShow c) := h.setF

theorem Keeps.ckptRelease (h : Keeps r s) : Keeps r s.ckptRelease := h.same.forEach fun _ _ h1 => h1.order

theorem Keeps.promoShow (h : Keeps r s) : Keeps r s.promoShow := h.setF

theorem Keeps.ckptDisarm {c : Nat} (h : Keeps r s) : Keeps r (s.ckptDisarm c) := h.setCkpt.setF.same.promoShow.ckptRelease

theorem Keeps.ckptEnd {c outcome : Nat} (h : Keeps r s) : Keeps r (s.ckptEnd c outcome) := h.clog.ckptDisarm.ckptShow

theorem Keeps.ckptMark {c off heat : Nat} (h : Keeps r s) : Keeps r (s.ckptMark c off heat) :=
  .ite h.trace.ckptDesc.detect (.ite h.trace.ckptDesc.clog (.ite h.trace.ckptDesc.clog h.trace.ckptDesc.setCkpt.setF.ckptShow))

theorem Keeps.ckptSend {c node off : Nat} {bs : List Byte} (h : Keeps r s) : Keeps r (s.ckptSend c node off bs) := by
  unfold State.ckptSend
  refine .forEach h fun _ _ h1 => ?_
  dsimp only
  split
  next s2 heq =>
    have h2 : Keeps r s2 := h1.issue.get heq
    exact h2.setCkpt
  · exact h1.setCkpt

theorem Keeps.sendPiece {c e j : Nat} (h : Keeps r s) : Keeps r (s.sendPiece c e j) := h.ckptSend.ckptSend

theorem Keeps.sendManifests {c e : Nat} (h : Keeps r s) : Keeps r (s.sendManifests c e) := h.forEach fun _ _ h1 => h1.ckptSend

theorem Keeps.ckptPush {c : Nat} (h : Keeps r s) : Keeps r (s.ckptPush c) := by
  unfold State.ckptPush
  dsimp only
  split
  · exact h.setCkpt
  · exact .ite (((h.forEach fun _ _ h1 => h1.sendPiece).setCkpt.setF.forEach fun _ _ h1 => h1.sendPiece).sendManifests.setCkpt)
      ((h.forEach fun _ _ h1 => h1.sendPiece).setCkpt.setF)

theorem Keeps.chargeSweep {off : Nat} {write : Bool} (h : Keeps r s) : Keeps r (s.chargeSweep off write) := by
  unfold State.chargeSweep
  split
  · exact h
  · exact .ite h.chargeWindow h.chargeWindow.chargeBucket

theorem Keeps.reachGranule {c g start : Nat} {hold : Bool} (h : Keeps r s) : Keeps r (s.reachGranule c g start hold) :=
  .ite h.chargeSweep.engineRead.setCkpt.same.promoShow.ckptRelease.ckptEnd
    h.chargeSweep.engineRead.setCkpt.same.promoShow.ckptRelease.ckptPush

theorem Keeps.ckptSweep {c : Nat} (h : Keeps r s) : Keeps r (s.ckptSweep c) := by
  unfold State.ckptSweep
  dsimp only
  split
  · exact .ite h.reachGranule h
  · exact h

theorem Keeps.promoDone {c g : Nat} (h : Keeps r s) : Keeps r (s.promoDone c g) := by
  unfold State.promoDone
  refine .ite h ?_
  split
  · exact h
  · exact .ite h.ckptEnd h.addF.addF.setCkpt.chargeSweep.reachGranule

theorem Keeps.stageOneEnd {c : Nat} (h : Keeps r s) : Keeps r (s.stageOneEnd c) := .ite h (.ite h.ckptEnd (.ite h.ckptEnd h))

theorem Keeps.ckptAbandon {c : Nat} (h : Keeps r s) : Keeps r (s.ckptAbandon c) := (Keeps.ite h.ckptEnd h).setCkpt.setF

theorem Keeps.ckptRequest {c off heat : Nat} (h : Keeps r s) : Keeps r (s.ckptRequest c off heat).1 := by
  unfold State.ckptRequest
  split
  next heq =>
    have h1 := Keeps.of_fst heq h.ckptDesc
    exact .ite_fst h1.pair (.ite_fst h1.pair (.ite_fst h1.pair h1.setCkpt.pair))

theorem Keeps.qpSend {qpn op va rkey : Nat} {data : List Byte} (h : Keeps r s) : Keeps r (s.qpSend qpn op va rkey data) := h.setQp.ethSend

theorem Keeps.drainShard {c sl j : Nat} (h : Keeps r s) : Keeps r (s.drainShard c sl j) := by
  unfold State.drainShard
  extract_lets d a
  split
  rename_i heq
  replace h := Keeps.of_fst heq h.engineRead
  split
  rename_i heq
  replace h := Keeps.of_fst heq h.engineRead
  split
  rename_i heq
  replace h := Keeps.of_fst heq h.engineRead
  extract_lets key iv sub head' body' s1 base at' s2 s3
  have h1 : Keeps r s1 := .ite h.same h
  have h2 : Keeps r s2 := h1.qpSend.qpSend
  have h3 : Keeps r s3 := .ite h2.qpSend h2
  exact h3.setCkpt

theorem Keeps.drainRecord {c sl outcome : Nat} (h : Keeps r s) : Keeps r (s.drainRecord c sl outcome) := h.clog.setCkpt.ckptShow

theorem Keeps.drainStart {c sl : Nat} (h : Keeps r s) : Keeps r (s.drainStart c sl) :=
  .ite h (.ite h.setCkpt.ckptShow.drainRecord (h.setCkpt.ckptShow.forEach fun _ _ h1 => h1.drainShard))

theorem Keeps.drainEnd {c : Nat} {ok : Bool} (h : Keeps r s) : Keeps r (s.drainEnd c ok) := by
  unfold State.drainEnd
  dsimp only
  split
  · exact h
  · exact .ite (.ite h.drainRecord h) (.ite h.drainRecord h)

theorem Keeps.restoreCheck {c off : Nat} {storage : Bool} (h : Keeps r s) : Keeps r (s.restoreCheck c off storage).1 := by
  unfold State.restoreCheck
  split
  next heq =>
    have h1 := Keeps.of_fst heq h.ckptDesc
    exact .ite_fst h1.pair (.ite_fst h1.pair (.ite_fst h1.pair h1.pair))

theorem Keeps.restoreStart {c q tag : Nat} {d : CkptDesc} {storage : Bool} {regions : List (Nat × Nat × Nat × Nat)} (h : Keeps r s) :
    Keeps r (s.restoreStart c q tag d storage regions) :=
  .ite (h.setCkpt.ckptShow.forEach fun _ _ h1 => h1.qpSend) h.setCkpt.ckptShow.emit

theorem Keeps.restoreEnd {c code detail : Nat} {body : List Byte} (h : Keeps r s) : Keeps r (s.restoreEnd c code detail body) := by
  unfold State.restoreEnd
  dsimp only
  split
  · exact h
  · exact h.setCkpt.ckptShow.answerBusy

theorem Keeps.fetchRange {c node piece off from' len : Nat} (h : Keeps r s) : Keeps r (s.fetchRange c node piece off from' len) := by
  unfold State.fetchRange
  refine .forEach h fun _ _ h1 => ?_
  split
  next s2 heq =>
    have h2 : Keeps r s2 := h1.issue.get heq
    exact h2.setCkpt
  · exact h1.setCkpt

theorem Keeps.restoreChoose {c : Nat} {records : List (List Byte)} (h : Keeps r s) : Keeps r (s.restoreChoose c records) := by
  unfold State.restoreChoose
  dsimp only
  split
  · exact h
  · refine .ite h (.ite h.restoreEnd.jobFatal ?_)
    split
    · exact .ite h.restoreEnd h.restoreEnd
    · refine .ite h.setCkpt ?_
      split
      · exact (h.setCkpt.forEach fun _ _ h1 => h1.fetchRange).fetchRange
      · exact h.setCkpt.forEach fun _ _ h1 => h1.fetchRange

theorem Keeps.freeBytes {n : Nat} (h : Keeps r s) : Keeps r (s.freeBytes n).1 := by
  induction n generalizing s with
  | zero => exact h
  | succ n ih => exact ih h.free

theorem Keeps.writeImage {d : CkptDesc} {image : List Byte} {poison : List Nat} (h : Keeps r s) : Keeps r (s.writeImage d image poison) :=
  h.forEach fun _ _ h1 => h1.engineWrite.forEach fun _ _ h2 => h2.engineWrite

theorem Keeps.restoreDone {c : Nat} (h : Keeps r s) : Keeps r (s.restoreDone c) := by
  unfold State.restoreDone
  dsimp only
  split
  · exact h
  · refine .ite h (.ite h.restoreEnd.jobFatal (.ite h (.ite h.restoreEnd.jobFatal ?_)))
    split
    · exact h.freeBytes.writeImage.setF.setF.restoreEnd
    · exact h.writeImage.setF.setF.restoreEnd

/-! ### The linkage solver array -/

theorem Keeps.putBatch {b : LsaBatch} (h : Keeps r s) : Keeps r (s.putBatch b) := h.same

theorem Keeps.setEngine {e : Nat} {r0 : Option LsaRun} (h : Keeps r s) : Keeps r (s.setEngine e r0) := h.same

theorem Keeps.lsaEnd {r0 : LsaRun} {code sat resid : Nat} {written : Bool} (h : Keeps r s) :
    Keeps r (s.lsaEnd r0 code sat resid written) := by
  unfold State.lsaEnd
  refine .ite ?_ ?_
  · refine .engineWrite (.count (.count (.count (.count (.setF ?_)))))
    split
    · exact h.putBatch
    · exact h
  · refine .count (.count (.count (.count (.setF ?_))))
    split
    · exact h.putBatch
    · exact h

theorem Keeps.lsaRead {b : LsaBatch} {i : Nat} {d : List Byte} (h : Keeps r s) : Keeps r (s.lsaRead b i d).1 := by
  unfold State.lsaRead
  split
  rename_i heq
  replace h := Keeps.of_fst heq h.readNat
  split
  rename_i heq
  replace h := Keeps.of_fst heq h.engineRead
  refine .ite_fst h (.ite_fst h (.ite_fst h (.ite_fst h ?_)))
  split
  rename_i heq
  replace h := Keeps.of_fst heq h.engineRead
  split
  rename_i heq
  replace h := Keeps.of_fst heq h.engineRead
  split
  rename_i heq
  replace h := Keeps.of_fst heq h.engineRead
  split
  rename_i heq
  replace h := Keeps.of_fst heq (.ite_fst h h.engineRead)
  extract_lets wl useMap fp
  split
  rename_i heq
  replace h := Keeps.of_fst heq (.ite_fst h h.engineRead)
  split
  rename_i heq
  replace h := Keeps.of_fst heq (.ite_fst h.engineRead h)
  split
  exact .ite_fst h (.ite_fst h (.ite_fst h h))

theorem Keeps.lsaStart {e : Nat} (h : Keeps r s) : Keeps r (s.lsaStart e) := by
  unfold State.lsaStart
  refine .ite h ?_
  split
  · exact h
  · refine .ite h.putBatch.same.engineRead.lsaPoison.lsaEnd (.ite h.putBatch.same.engineRead.lsaEnd ?_)
    dsimp only
    split
    · exact h.putBatch.same.engineRead.lsaRead.lsaEnd
    · exact h.putBatch.same.engineRead.lsaRead.setEngine

theorem Keeps.lsaIterate {e : Nat} (h : Keeps r s) : Keeps r (s.lsaIterate e) := by
  unfold State.lsaIterate
  split
  · split
    · exact .ite h h.setEngine
    · exact h
  · exact h

theorem Keeps.lsaShadow {r0 : LsaRun} {ws : List Nat} (h : Keeps r s) : Keeps r (s.lsaShadow r0 ws) := by
  unfold State.lsaShadow
  split
  · exact .ite h h.putBatch
  · exact h

theorem Keeps.lsaProblemEnd {e : Nat} (h : Keeps r s) : Keeps r (s.lsaProblemEnd e) := by
  unfold State.lsaProblemEnd
  split
  · exact h
  · exact .ite h (.ite h.setEngine.engineWrite.lsaEnd (.ite h.setEngine.lsaEnd h.setEngine.engineWrite.lsaShadow.lsaEnd))

theorem Keeps.lsaReport {b : LsaBatch} (h : Keeps r s) : Keeps r (s.lsaReport b) :=
  (Keeps.ite ((Keeps.ite h.engineWrite.postTo h.engineWrite).same.forEach fun _ _ h1 => h1.sendStatus)
    (.ite h.engineWrite.postTo h.engineWrite)).event.free.event.same

theorem Keeps.lsaComplete {q : Nat} (h : Keeps r s) : Keeps r (s.lsaComplete q) := by
  unfold State.lsaComplete
  split
  · exact (h.forEach fun _ _ h1 => h1.engineWrite).lsaReport
  · exact h

theorem Keeps.lsaAbort {r0 : LsaRun} (h : Keeps r s) : Keeps r (s.lsaAbort r0) := .ite h.free h.free.engineWrite.engineWrite

theorem Keeps.lsaHard {q : Nat} (h : Keeps r s) : Keeps r (s.lsaHard q) := by
  unfold State.lsaHard
  split
  · exact h
  · dsimp only
    split
    · exact ((h.forEach fun _ _ h1 => h1.setEngine.lsaAbort.lsaEnd).forEach fun _ _ h1 => h1.engineRead.lsaEnd).lsaReport
    · exact (h.forEach fun _ _ h1 => h1.setEngine.lsaAbort.lsaEnd).forEach fun _ _ h1 => h1.engineRead.lsaEnd

theorem Keeps.lsaAbandon {c : Nat} (h : Keeps r s) : Keeps r (s.lsaAbandon c) :=
  (h.forEach fun _ _ h1 => h1.forEach fun _ _ h2 => h2.setEngine.lsaAbort).same

theorem Keeps.lsaGate (h : Keeps r s) : Keeps r s.lsaGate := .ite h.same.event h

theorem Keeps.lsaWoken (h : Keeps r s) : Keeps r s.lsaWoken := .ite h.same.count.event h

theorem Keeps.lsaRemap {e : Nat} (h : Keeps r s) : Keeps r (s.lsaRemap e) := by
  unfold State.lsaRemap
  refine .ite h ?_
  dsimp only
  split
  · exact (Keeps.ite h.addF.count.raiseSpare h.addF.count).setEngine
  · exact .ite h.addF.count.raiseSpare h.addF.count

end Sys2Proof.Machine
end

section
/-! SUPPORT. What cores, flasks and the steps of a graph keep of a state. -/
namespace Sys2Proof.Machine

variable {r s t : State}

/-! ### The commands of the cores -/

theorem Keeps.issue' {c : Nat} {op : CoreOp} (h : Keeps r s) : Keeps r (s.issue' c op) := h.issueOp.finish

theorem Keeps.fetch {t a : Nat} (h : Keeps r s) : Keeps r (s.fetch t a) := .ite (.ite h.coreFault.detect h) h.coreFault

theorem Keeps.takeInterrupt {c cause : Nat} (h : Keeps r s) : Keeps r (s.takeInterrupt c cause) := h.setCore

theorem Keeps.interruptCore {c cause : Nat} (h : Keeps r s) : Keeps r (s.interruptCore c cause) := by
  unfold State.interruptCore
  refine .ite h.setCore ?_
  split
  · exact h.withdraw.block.takeInterrupt
  · exact h.block.takeInterrupt
  · exact h.waitEnd.block.takeInterrupt
  · exact h.setCore
  · exact .ite h.setCore.takeInterrupt (.ite h.takeInterrupt h.setCore)

theorem Keeps.startEngine {t : Nat} {e : Engine} (h : Keeps r s) : Keeps r (s.startEngine t e) := by
  unfold State.startEngine
  dsimp only
  split
  · exact .ite h.setTile h
  · exact h

theorem Keeps.endEngine {t : Nat} {e : Engine} (h : Keeps r s) : Keeps r (s.endEngine t e) := by
  unfold State.endEngine
  split
  · exact .ite h.mxDo.tallyMx.setTile h
  · exact h

theorem Keeps.endFcu {t : Nat} (h : Keeps r s) : Keeps r (s.endFcu t) := by
  unfold State.endFcu
  split
  · exact .ite h.fcuDo.tallyFcu.setTile h
  · exact h

/-! ### Flasks -/

theorem Keeps.imemStart {f tiles len src : Nat} (h : Keeps r s) : Keeps r (s.imemStart f tiles len src) := h.setF.setFlask

theorem Keeps.imemStop {f : Nat} (h : Keeps r s) : Keeps r (s.imemStop f) := h.setF.setFlask

theorem Keeps.imemSource {l : ImemLoad} (h : Keeps r s) : Keeps r (s.imemSource l).1 := by
  unfold State.imemSource
  dsimp only
  split
  · exact h.engineRead
  · exact h

theorem Keeps.imemFill {f tiles : Nat} {bs : List Byte} {image : Option ImemImage} (h : Keeps r s) :
    Keeps r (s.imemFill f tiles bs image) :=
  h.forEach fun _ _ h1 => h1.storeBytes.setCore

theorem Keeps.imemDone {f : Nat} (h : Keeps r s) : Keeps r (s.imemDone f) := by
  unfold State.imemDone
  split
  · exact .ite h.imemSource.imemFill.imemStop h.imemSource
  · exact h

theorem Keeps.controlPoison {page : Nat} {c : Option Nat} {addr : Nat} (h : Keeps r s) : Keeps r (s.controlPoison page c addr) := h.detect

theorem Keeps.imemPoison {f : Nat} (h : Keeps r s) : Keeps r (s.imemPoison f) := by
  unfold State.imemPoison
  split
  · exact .ite h.imemSource.imemFill.imemStop.controlPoison h.imemSource
  · exact h

theorem Keeps.pauseFlask {f : Nat} {on : Bool} (h : Keeps r s) : Keeps r (s.pauseFlask f on) := h.forEach fun _ _ h1 => h1.setCore

theorem Keeps.remapStart {f t : Nat} (h : Keeps r s) : Keeps r (s.remapStart f t) := .ite h h.pauseFlask.setTile.setFlask.same.trace

theorem Keeps.remapEnd {f : Nat} (h : Keeps r s) : Keeps r (s.remapEnd f) := by
  unfold State.remapEnd
  split
  · refine .releaseMesh (.relCatchUp (.pauseFlask ?_))
    split
    · exact h.setF.addF.setFlask.same.addF.raiseSpare.trace.event.reproChange
    · exact h.setF.addF.setFlask.same.addF.raiseSpare.trace.event
  · exact h

theorem Keeps.sleepStart {f : Nat} (h : Keeps r s) : Keeps r (s.sleepStart f) := h.setPstate.unitsOff.trace

theorem Keeps.sleepCmd {f : Nat} (h : Keeps r s) : KeepsSome r (s.sleepCmd f) := .ite (.some h) (.ite (.some h.sleepStart) .none)

theorem Keeps.wakeCmd {f : Nat} (h : Keeps r s) : Keeps r (s.wakeCmd f) := .ite h.abortSleep h.startWake

theorem Keeps.sleepDone {f : Nat} (h : Keeps r s) : Keeps r (s.sleepDone f) := .ite h.setPstate h

theorem Keeps.wakeDone {f : Nat} (h : Keeps r s) : Keeps r (s.wakeDone f) := .ite h.setPstate.holdUnitsOn.relCatchUp.releaseMesh h

theorem Keeps.gateUnit {t : Nat} {u : TileUnit} (h : Keeps r s) : Keeps r (s.gateUnit t u) := .ite h.setUnit.event h

theorem Keeps.unitWoken {t : Nat} {u : TileUnit} (h : Keeps r s) : Keeps r (s.unitWoken t u) := .ite h.setFlask.setUnit.event h

theorem Keeps.holdWrite {f : Nat} (h : Keeps r s) : Keeps r (s.holdWrite f) :=
  h.forEach fun _ _ h1 => .ite ((Keeps.ite h1.startUnitWake h1).startUnitWake) (.ite h1.startUnitWake h1)

/-! ### Steps of a graph -/

theorem Keeps.protectPrev {c : Nat} {g : Graph} {heat : Nat} (h : Keeps r s) : Keeps r (s.protectPrev c g heat) := h.same

theorem Keeps.zeroDigests {c : Nat} (h : Keeps r s) : Keeps r (s.zeroDigests c) := h.forEach fun _ _ h1 => h1.engineWrite

theorem Keeps.unbindHeld {c : Nat} (h : Keeps r s) : Keeps r (s.unbindHeld c) := (h.forEach fun _ _ h1 => h1.setCore).setCtx

theorem Keeps.setCtxState {c v : Nat} (h : Keeps r s) : Keeps r (s.setCtxState c v) := h.setF

theorem Keeps.stopReplay {c v : Nat} (h : Keeps r s) : Keeps r (s.stopReplay c v) := h.unbindHeld.setCtxState.setCtx

theorem Keeps.tellState {c status : Nat} (h : Keeps r s) : Keeps r (s.tellState c status) := h.forEach fun _ _ h1 => h1.sendStatus

theorem Keeps.applyAllot {c : Nat} (h : Keeps r s) : KeepsSome r (s.applyAllot c) := by
  unfold State.applyAllot
  split
  · exact .some h
  · exact .ite (.some h.setCtx.unbindHeld) .none

theorem Keeps.noteRelease {c at' : Nat} (h : Keeps r s) : Keeps r (s.noteRelease c at') := h.same

theorem Keeps.release {c : Nat} {g : Graph} (h : Keeps r s) : Keeps r (s.release c g) := by
  unfold State.release
  refine .forEach (.setCtx (.reproTake (.trace (.noteRelease (.setCtx (.forEach
    ((Keeps.ite h.setF.applyShadow h.setF).engineWrite.trace.protectPrev.zeroDigests.engineWrite) fun _ _ h1 => ?_)))))) fun _ _ h1 =>
      h1.startNode.withRun
  split
  · exact h1.arrive.counterInit
  · exact h1

theorem Keeps.stepRelease {c : Nat} (h : Keeps r s) : Keeps r (s.stepRelease c) := by
  unfold State.stepRelease
  refine .ite h ?_
  split
  · exact h.setCtx.trace.stopReplay
  next s1 heq =>
    have h1 : Keeps r s1 := h.applyAllot.get heq
    split
    · exact h1.release
    · exact h1

theorem Keeps.prewake {c n : Nat} (h : Keeps r s) : Keeps r (s.prewake c n) :=
  .ite ((Keeps.ite h.same h).trace) (h.forEach fun _ _ h1 => h1.wakeCmd.trace)

theorem Keeps.resetCsrs {t : Nat} (h : Keeps r s) : Keeps r (s.resetCsrs t) := h.same

theorem Keeps.bindImage {c n t : Nat} {image : ImemImage} (h : Keeps r s) : KeepsSome r (s.bindImage c n t image) :=
  .ite (.some h) (.ite (.some h.imemSource.imemFill.trace) .none)

theorem Keeps.bindTile {c n t rank count : Nat} {held : Bool} (h : Keeps r s) : Keeps r (s.bindTile c n t rank count held) :=
  (Keeps.ite h.resetCsrs.setCsr h.resetCsrs).same.setCore.setX.setX.setX.setX.setX.free.event.trace

theorem Keeps.holdNode {c n : Nat} {on : Bool} (h : Keeps r s) : Keeps r (s.holdNode c n on) :=
  .ite h (h.forEach fun _ _ h1 => .ite h1.setF.setF.holdWrite h1.setF.setF)

theorem Keeps.bindImages {c n : Nat} {image : ImemImage} {ts : List Nat} (h : Keeps r s) :
    Keeps r (s.bindImages c n image ts).1 := by
  induction ts generalizing s with
  | nil => exact h
  | cons t ts ih =>
    rw [State.bindImages]
    split
    next heq => exact ih (h.bindImage.get heq)
    · exact h.setCore

theorem Keeps.bindNode {c n : Nat} {held : Bool} (h : Keeps r s) :
    KeepsSome r (s.bindNode c n held).1 ∧ Keeps r (s.bindNode c n held).2 := by
  unfold State.bindNode
  extract_lets x ts image s1
  have h1 : Keeps r s1 := h.forEach fun _ _ h2 => h2.applyShadow
  split
  next s2 heq =>
    have h2 : Keeps r s2 := .of_fst heq h1.bindImages
    have h3 : Keeps r ((s2.holdNode c n true).forEach ts.zipIdx fun (t, i) s => s.bindTile c n t i ts.length held) :=
      h2.holdNode.forEach fun _ _ h4 => h4.bindTile
    exact ⟨.some h3, h3⟩
  next s2 heq =>
    have h2 : Keeps r s2 := .of_fst heq h1.bindImages
    dsimp only
    exact ⟨.none, h2.controlPoison⟩

theorem Keeps.lateWakes {c n : Nat} (h : Keeps r s) : Keeps r (s.lateWakes c n) := by
  unfold State.lateWakes
  exact (h.forEach fun _ _ h1 => h1.trace).withRun

theorem Keeps.awaitFlasks {c n : Nat} {fs : List Nat} (h : Keeps r s) : Keeps r (s.awaitFlasks c n fs) :=
  h.forEach fun _ _ h1 => .ite h1.wakeCmd.withRun h1.wakeCmd

theorem Keeps.putLocal {c base first w : Nat} {es : List Elem} (h : Keeps r s) : Keeps r (s.putLocal c base first w es) :=
  .ite h (h.readNat.engineWrite.forEach fun _ _ h1 => h1.engineRead.engineWrite)

theorem Keeps.putRemote {c n node base first w : Nat} {es : List Elem} (h : Keeps r s) :
    Keeps r (s.putRemote c n node base first w es) := by
  unfold State.putRemote
  refine .forEach h fun _ _ h1 => ?_
  dsimp only
  split
  next s2 heq =>
    have h2 : Keeps r s2 := h1.issue.get heq
    exact h2
  · exact h1.targetDead.failNode
  · exact h1.failNode

theorem Keeps.exchangeOne {c n : Nat} {g : Graph} {x : GExch} (h : Keeps r s) : Keeps r (s.exchangeOne c n g x) :=
  .ite (.ite ((Keeps.ite h.engineRead.free.putRemote h.engineRead.free.putLocal).putRemote)
    ((Keeps.ite h.engineRead.free.putRemote h.engineRead.free.putLocal).putLocal))
      (.ite h.engineRead.free.putRemote h.engineRead.free.putLocal)

theorem Keeps.exchangeNode {c n : Nat} (h : Keeps r s) : Keeps r (s.exchangeNode c n) :=
  (h.forEach fun _ _ h1 => h1.resetCsrs.setCore).trace.forEach fun _ _ h1 => h1.exchangeOne

theorem Keeps.tileNodeStart {c n : Nat} (h : Keeps r s) : Keeps r (s.tileNodeStart c n) := by
  unfold State.tileNodeStart
  refine .ite h (.ite h.awaitFlasks (.ite h (.ite ?_ (.ite h.lateWakes.startNode.exchangeNode ?_))))
  · split
    next heq =>
      have h1 := h.bindNode.1.get (congrArg Prod.fst heq)
      exact h1.setCtx.setRelMask.setF.setF.armRel
    next heq => exact .of_snd heq h.bindNode.2
  · split
    next heq =>
      have h1 := h.bindNode.1.get (congrArg Prod.fst heq)
      exact h1.lateWakes.startNode.withRun
    next heq => exact .of_snd heq h.bindNode.2

theorem Keeps.abandonTile {t : Nat} (h : Keeps r s) : Keeps r (s.abandonTile t) :=
  (h.abandonUnits.withdraw.forEach fun _ _ h1 => .ite h1.setFlask h1).setCore

theorem Keeps.bracket {c n code : Nat} (h : Keeps r s) : Keeps r (s.bracket c n code) := .ite h h.readNat.engineWrite.engineWrite

theorem Keeps.sleepAfter {c f : Nat} (h : Keeps r s) : Keeps r (s.sleepAfter c f) := by
  unfold State.sleepAfter
  refine .ite h ?_
  split
  next s1 heq =>
    have h1 : Keeps r s1 := h.sleepCmd.get heq
    exact h1
  · exact h.reject

theorem Keeps.endCode {c n : Nat} (h : Keeps r s) : Keeps r (s.endCode c n).1 := by
  unfold State.endCode
  extract_lets x g fault
  split
  · exact .ite_fst h (.ite_fst h h)
  · split
    rename_i heq
    exact .of_fst heq h.readNat
  · split
    · exact h
    · split
      · exact h
      · refine .pair (.trace ?_)
        exact h.same
  · split
    · exact h
    · refine .pair (.trace ?_)
      exact h.same
  · exact .ite_fst (.pair h.trace) (.ite_fst (.pair h) (.pair h.trace))
  · exact h

theorem Keeps.writeRecord {c status vote : Nat} (h : Keeps r s) : Keeps r (s.writeRecord c status vote) := by
  unfold State.writeRecord
  split
  · exact h
  · exact h.setCtx.engineWrite

theorem Keeps.logDigests {c heat status : Nat} (h : Keeps r s) : Keeps r (s.logDigests c heat status) :=
  h.forEach fun _ _ h1 => .ite h1.engineRead h1.engineRead.engineWrite.setF

theorem Keeps.markDue {c heat : Nat} (h : Keeps r s) : Keeps r (s.markDue c heat) := by
  unfold State.markDue
  dsimp only
  split
  · exact .ite ((h.forEach fun _ _ h1 => h1.ckptMark).setCkpt.ckptMark) (h.forEach fun _ _ h1 => h1.ckptMark)
  · exact h.forEach fun _ _ h1 => h1.ckptMark

theorem Keeps.closeStep {c : Nat} (h : Keeps r s) : Keeps r (s.closeStep c) := h.withRun

theorem Keeps.scheduleNext {c next : Nat} (h : Keeps r s) : Keeps r (s.scheduleNext c next) := .ite h.stopReplay h.setCtx

theorem Keeps.commitStep {c vote : Nat} (h : Keeps r s) : Keeps r (s.commitStep c vote) := by
  unfold State.commitStep
  refine .scheduleNext (.closeStep ?_)
  split
  · exact .ite h.writeRecord.logDigests.setF.setF.markDue.trace.setCtx.sendStatus h.writeRecord.logDigests.setF.setF.markDue.trace.setCtx
  · exact h.writeRecord.logDigests.setF.setF.markDue.trace.setCtx

theorem Keeps.failStep {c vote : Nat} (h : Keeps r s) : Keeps r (s.failStep c vote) :=
  .ite h.writeRecord.setF.closeStep.stopReplay.tellState h.writeRecord.setF.closeStep.trace.scheduleNext

theorem Keeps.voteResult {c vote : Nat} (h : Keeps r s) : Keeps r (s.voteResult c vote) := by
  unfold State.voteResult
  extract_lets run single vote' s1 s2
  have h2 : Keeps r s2 := h.setRuns.trace.withRun
  exact .ite h (.ite (.ite h2.scheduleNext h2) (.ite h2.failStep (.ite h2.withRun h2.commitStep)))

theorem Keeps.collHard {c : Nat} (h : Keeps r s) : Keeps r (s.collHard c) :=
  (h.setRuns.forEach fun _ _ h1 => h1.collStatus).same.addF.count

theorem Keeps.abandonStep {c : Nat} (h : Keeps r s) : Keeps r (s.abandonStep c) := by
  unfold State.abandonStep
  exact (((h.forEach fun _ _ h1 => (h1.forEach fun _ _ h2 => h2.abandonTile).holdNode).collHard.same.forEach fun _ _ h1 =>
    h1.setNode.trace).forEach fun _ _ h1 => h1.setNode).withRun

theorem Keeps.stepHard {c : Nat} (h : Keeps r s) : Keeps r (s.stepHard c) := by
  unfold State.stepHard
  extract_lets run s1 word s2
  split
  · exact h
  · extract_lets periodic single s3
    have h2 : Keeps r s2 := h.trace.abandonStep.contribute.writeRecord.closeStep.addF
    have h3 : Keeps r s3 := .ite h2.withRun h2
    exact .ite h (.ite h3.stopReplay.trace.tellState (.ite h3.stopReplay (.ite h3.scheduleNext h3)))

theorem Keeps.hardDeadline {c : Nat} (h : Keeps r s) : Keeps r (s.hardDeadline c) := .ite h h.stepHard

theorem Keeps.voteLost {c : Nat} (h : Keeps r s) : Keeps r (s.voteLost c) := by
  unfold State.voteLost
  extract_lets run s1 s2 s3 s4
  have h2 : Keeps r s2 := .ite h.setRuns.writeRecord h.setRuns
  have h4 : Keeps r s4 := h2.withRun.closeStep.trace.jobFatal
  exact .ite h (.ite h4.scheduleNext (.ite h4.stopReplay h4))

theorem Keeps.finishNode {c n code : Nat} (h : Keeps r s) : Keeps r (s.finishNode c n code) := by
  unfold State.finishNode
  extract_lets x s1 s2 s3 s4 s5 s6 s7
  have h1 : Keeps r s1 := .ite (h.forEach fun _ _ h1 => h1.abandonTile) h
  have h4 : Keeps r s4 := .ite (h1.withRun.holdNode.free.forEach fun _ _ h1 => h1.event) h
  have h5 : Keeps r s5 := .ite h4.bracket h4
  have h6 : Keeps r s6 := .ite h5.trace h5
  exact .ite h.stepHard (.ite (h6.endNode.forEach fun _ _ h1 => h1.sleepAfter) h6.endNode)

theorem Keeps.nodeEnd {c n : Nat} (h : Keeps r s) : Keeps r (s.nodeEnd c n) := by
  unfold State.nodeEnd
  refine .ite h ?_
  split
  next s1 _ heq =>
    have h1 : Keeps r s1 := .of_fst heq h.endCode
    exact h1.finishNode
  next s1 heq =>
    have h1 : Keeps r s1 := .of_fst heq h.endCode
    exact h1

theorem Keeps.doneWordWrite {c n v : Nat} (h : Keeps r s) : Keeps r (s.doneWordWrite c n v) := .ite h h.engineWrite.nodeEnd

end Sys2Proof.Machine
end

section
/-! SUPPORT. What the ports, the Ethernet side and the end of a context or a job keep of a state. -/
namespace Sys2Proof.Machine

variable {r s t : State}

/-! ### Fabric time and the life of a port -/

theorem Keeps.syncRecord (h : Keeps r s) : Keeps r s.syncRecord := (h.forEach fun _ _ h1 => h1.traceToCtx).traceToNode

theorem Keeps.setFt {v : Nat} (h : Keeps r s) : Keeps r (s.setFt v) :=
  .ite h ((Keeps.ite ((Keeps.ite h.setF.same h.setF).addF) (.ite h.setF.same h.setF)).same.event.syncRecord)

theorem Keeps.freeRate {lim : Nat} (h : Keeps r s) : Keeps r (s.freeRate lim) := h.free.setF

theorem Keeps.setRate {ppb : Int} (h : Keeps r s) : Keeps r (s.setRate ppb) := h.setF

theorem Keeps.timePorts (h : Keeps r s) : Keeps r s.timePorts := .ite h.setFt h

theorem Keeps.stepTime {e : Int} (h : Keeps r s) : Keeps r (s.stepTime e) := h.setF

theorem Keeps.timeError {e : Int} (h : Keeps r s) : Keeps r (s.timeError e) :=
  .ite (.ite (.ite h.same.setRate.same.setFt h.same.setRate.same) (.ite h.same.same.stepTime (.ite h.same.same.setRate h.same.same.same)))
    (.ite (.ite h.setFt.freeRate h.freeRate) (.ite h.setFt.freeRate (.ite (.ite h.setFt.freeRate h.freeRate) h)))

theorem Keeps.recvTime {p ttx sub depth rxSub : Nat} (h : Keeps r s) : Keeps r (s.recvTime p ttx sub depth rxSub) :=
  .ite h ((Keeps.ite h.setFt h).setF.setF.timeError)

theorem Keeps.setParent {v : Nat} (h : Keeps r s) : Keeps r (s.setParent v) :=
  .ite h.setF.setFt (.ite ((Keeps.ite h.setF.setF h.setF).setF.setFt) (.ite h.setF.setFt h.setF.timePorts))

theorem Keeps.execTimeSend (h : Keeps r s) : KeepsNext r (execTimeSend s) := .ite (.next h) (.next (h.forEach fun _ _ h1 => h1.free.emit))

theorem Keeps.execPpsEdge {highNs : Nat} (h : Keeps r s) : KeepsNext r (execPpsEdge highNs s) :=
  .ite (.next h) (.next (.ite h.setF.same.freeRate h.setF.same))

theorem Keeps.execComparatorFire {k : Fin 32} (h : Keeps r s) : KeepsNext r (execComparatorFire k s) :=
  .ite (.next h) (.next (.ite h.fireRel.timedFired.finish h.fireRel.finish))

theorem Keeps.moveFlows {p : Nat} (h : Keeps r s) : Keeps r (s.moveFlows p) := .ite h.setPort.setPort h.setPort.addF

theorem Keeps.moveBack {p : Nat} (h : Keeps r s) : Keeps r (s.moveBack p) := .ite h.setPort h

theorem Keeps.setPortState {p st cause : Nat} (h : Keeps r s) : Keeps r (s.setPortState p st cause) := by
  unfold State.setPortState
  extract_lets was s1 s2 s3 s4 s5
  have h2 : Keeps r s2 := h.setF.setF.event
  have h3 : Keeps r s3 := .ite h2.moveFlows h2
  have h4 : Keeps r s4 := .ite h3.same h3
  have h5 : Keeps r s5 := .ite h4.moveBack h4
  exact .ite h h5.timePorts

theorem Keeps.portDown {p cause : Nat} (h : Keeps r s) : Keeps r (s.portDown p cause) :=
  .ite h.setPort.setPortState.setF.detect.raiseSpare h.setPort.setPortState.setF.detect

theorem Keeps.swapOut {p : Nat} {dir : Direction} {c : Nat} (h : Keeps r s) : Keeps r (s.swapOut p dir c) := by
  unfold State.swapOut
  refine .ite h ?_
  dsimp only
  split
  · exact h.setF.setF
  · exact h.setF.setF.setF.setPort

theorem Keeps.startSwap {p : Nat} {dir : Direction} {circuits : Nat} (h : Keeps r s) : Keeps r (s.startSwap p dir circuits) :=
  .ite h (.ite h.portDown ((Keeps.ite ((h.forEach fun _ _ h1 => h1.swapOut.detect).raiseSpare)
    (h.forEach fun _ _ h1 => h1.swapOut.detect)).setPort.setPortState))

theorem Keeps.askSwap {p circuits : Nat} (h : Keeps r s) : Keeps r (s.askSwap p circuits) := .ite h.emit.startSwap h

theorem Keeps.swapGo {p : Nat} (h : Keeps r s) : Keeps r (s.swapGo p) := .ite h.setF.emit.startSwap h

theorem Keeps.endSwap {p : Nat} {dir : Direction} (h : Keeps r s) : Keeps r (s.endSwap p dir) := by
  unfold State.endSwap
  dsimp only
  cases dir with
  | tx => exact .ite h (.ite (.ite h.setPort.count.event.setF h.setPort.count.event)
      (Keeps.ite h.setPort.count.event.setF h.setPort.count.event).setPortState)
  | rx => exact .ite h (.ite (.ite h.setPort.count.event.setF h.setPort.count.event)
      (Keeps.ite h.setPort.count.event.setF h.setPort.count.event).setPortState)

theorem Keeps.execLaneErrorWindow {p : PortId} {corrected : List Nat} (h : Keeps r s) : KeepsNext r (execLaneErrorWindow p corrected s) :=
  .next (.ite h.setPort h.setPort.askSwap.finish)

theorem Keeps.retrain {p : Nat} (h : Keeps r s) : Keeps r (s.retrain p) := h.setPort.setF.setPortState

theorem Keeps.execRetryEscalation {p : PortId} {dir : Direction} {circuits : BitVec 18} (h : Keeps r s) :
    KeepsNext r (execRetryEscalation p dir circuits s) :=
  .ite (.next h) (.next ((Keeps.ite h.addF.detect.emit.startSwap h.addF.detect.retrain).finish))

theorem Keeps.execRetrainDone {p : PortId} {ok : Bool} (h : Keeps r s) : KeepsNext r (execRetrainDone p ok s) :=
  .ite (.next h) (.ite (.next h.setPort.setPortState.finish) (.next h.portDown.finish))

theorem Keeps.combFail {p source : Nat} (h : Keeps r s) : Keeps r (s.combFail p source) :=
  .ite h (.ite h.setPort.setF.portDown.detect.raiseSpare h.portDown)

theorem Keeps.execCombSpareLock {p : PortId} (h : Keeps r s) : KeepsNext r (execCombSpareLock p s) :=
  .ite (.next h) (.next h.setF.setPortState.finish)

theorem Keeps.execPortLaserLock {p : PortId} (h : Keeps r s) : KeepsNext r (execPortLaserLock p s) := .next (.ite h.setPortState h)

theorem Keeps.sendIdentity {p : Nat} (h : Keeps r s) : Keeps r (s.sendIdentity p) := h.emit

theorem Keeps.execPortTrained {p : PortId} (h : Keeps r s) : KeepsNext r (execPortTrained p s) :=
  .ite (.next h) (.next h.setPort.sendIdentity)

theorem Keeps.execIdentityExchange {p : PortId} {node : NodeField} {port : BitVec 5} {role : BitVec 4} (h : Keeps r s) :
    KeepsNext r (execIdentityExchange p node port role s) :=
  .ite (.next h) (.ite (.next h.setF.setF.setPort.setPortState) (.next h.setF.setF.setPort.setPortState))

theorem Keeps.execPortRetryTimer {p : PortId} (h : Keeps r s) : KeepsNext r (execPortRetryTimer p s) :=
  .ite (.next h.sendIdentity) (.ite (.next h.setPort) (.next h))

theorem Keeps.execDelayMeasured {p : PortId} {ps : BitVec 24} (h : Keeps r s) : KeepsNext r (execDelayMeasured p ps s) :=
  .ite (.next ((Keeps.ite h.setF.setPort.setPortState h.setF.setPort.timePorts).finish)) (.next h)

/-! ### The Ethernet ports and RoCEv2 -/

theorem Keeps.execEthLinkChange {e : EthId} {lp : Fin 2} {up : Bool} (h : Keeps r s) : KeepsNext r (execEthLinkChange e lp up s) :=
  .next (.ite h.setF (.ite h.setF h))

theorem Keeps.execNeighbourQuery {e : EthId} {lp : Fin 2} {v6 : Bool} {addr : BitVec 128} (h : Keeps r s) :
    KeepsNext r (execNeighbourQuery e lp v6 addr s) :=
  .next (.ite h.emit h)

theorem Keeps.execIcmpEcho {e : EthId} {lp : Fin 2} {addr : BitVec 128} {data : List Byte} (h : Keeps r s) :
    KeepsNext r (execIcmpEcho e lp addr data s) :=
  .next (.ite h.emit h)

theorem Keeps.execPtpEvent {e : EthId} {offset : Word} {rate : BitVec 32} (h : Keeps r s) : KeepsNext r (execPtpEvent e offset rate s) :=
  .ite (.next h) (.next (.ite h.setF.setF.freeRate h.setF.setF))

theorem Keeps.resumePrio {k : Nat} (h : Keeps r s) : Keeps r (s.resumePrio k) := h.setPause.emitAll

theorem Keeps.execPfcPause {e : EthId} {lp : Fin 2} {prio : BitVec 3} {quanta : BitVec 16} (h : Keeps r s) :
    KeepsNext r (execPfcPause e lp prio quanta s) :=
  .ite (.next h.count) (.ite (.next h.count.resumePrio) (.next h.count.setPause))

theorem Keeps.endSession {q : Nat} (h : Keeps r s) : Keeps r (s.endSession q) := .ite h.same.setQueue h.same.setQueue.trace

theorem Keeps.dropQueue {q : Nat} (h : Keeps r s) : Keeps r (s.dropQueue q) := h.endSession.setQueue

theorem Keeps.qpError {i : Nat} (h : Keeps r s) : Keeps r (s.qpError i) :=
  .ite h (.ite ((Keeps.ite h.addF.count.setF h.addF.count).setQp.dropQueue) ((Keeps.ite h.addF.count.setF h.addF.count).setQp))

theorem Keeps.qpClose {i : Nat} (h : Keeps r s) : Keeps r (s.qpClose i) :=
  .ite ((Keeps.ite h.setF h).setQp.dropQueue) ((Keeps.ite h.setF h).setQp)

theorem Keeps.roceAnswer {i kind : Nat} (h : Keeps r s) : Keeps r (s.roceAnswer i kind) := h.ethSend

theorem Keeps.noteCe {i : Nat} {ce : Bool} (h : Keeps r s) : Keeps r (s.noteCe i ce) := .ite h.setQp.roceAnswer.addF h

theorem Keeps.nak {i kind : Nat} (h : Keeps r s) : Keeps r (s.nak i kind) := h.roceAnswer.qpError

theorem Keeps.rnrNak {i : Nat} (h : Keeps r s) : Keeps r (s.rnrNak i) := h.roceAnswer.addF

theorem Keeps.ackRequest {i : Nat} (h : Keeps r s) : Keeps r (s.ackRequest i) := h.setQp.roceAnswer

theorem Keeps.flushBroken {q n : Nat} (h : Keeps r s) : Keeps r (s.flushBroken q n) := by
  induction n generalizing s with
  | zero => exact h
  | succ n ih =>
    rw [State.flushBroken]
    split
    · exact .ite (ih h.setQueue.answer) h
    · exact h

theorem Keeps.recvSend {i : Nat} {data : List Byte} (h : Keeps r s) : Keeps r (s.recvSend i data) :=
  .ite h.count.nak (.ite h.count.rnrNak.trace h.count.setQueue.count.trace.ackRequest.flushBroken)

theorem Keeps.execRoceSend {qp : QpIx} {data : List Byte} {ce : Bool} (h : Keeps r s) : KeepsNext r (execRoceSend qp data ce s) :=
  .ite (.next h) (.next h.noteCe.recvSend)

theorem Keeps.immFull {i : Nat} (h : Keeps r s) : Keeps r (s.immFull i).2 := by
  unfold State.immFull
  dsimp only
  split
  · exact h
  · exact h.free

theorem Keeps.pushImm {i imm n : Nat} {src : Source} (h : Keeps r s) : Keeps r (s.pushImm i imm n src) := h.setQp.engineWrite

theorem Keeps.recvRdmaWrite {qp : QpIx} {va rkey : Nat} {data : List Byte} {imm : Option Nat} (h : Keeps r s) :
    Keeps r (s.recvRdmaWrite qp va rkey data imm) := by
  unfold State.recvRdmaWrite
  refine .ite h.count.nak (.ite h.count.addF.count (.ite h.count.nak ?_))
  split
  · exact h.count.engineWrite.ackRequest
  · split
    next s1 heq =>
      have h1 : Keeps r s1 := .of_snd heq h.count.immFull
      exact h1.rnrNak
    next s1 heq =>
      have h1 : Keeps r s1 := .of_snd heq h.count.immFull
      exact h1.engineWrite.pushImm.ackRequest

theorem Keeps.execRdmaWrite {qp : QpIx} {va : Word} {rkey : BitVec 32} {data : List Byte} {imm : Option (BitVec 32)} {ce : Bool}
    (h : Keeps r s) : KeepsNext r (execRdmaWrite qp va rkey data imm ce s) :=
  .ite (.next h) (.next h.noteCe.recvRdmaWrite.finish)

theorem Keeps.recvRdmaRead {qp : QpIx} {va rkey len : Nat} (h : Keeps r s) : Keeps r (s.recvRdmaRead qp va rkey len) :=
  .ite h.nak (.ite h.nak (.ite h.drainRange.nak h.submit.ackRequest))

theorem Keeps.execRdmaRead {qp : QpIx} {va : Word} {rkey : BitVec 32} {len : Nat} {ce : Bool} (h : Keeps r s) :
    KeepsNext r (execRdmaRead qp va rkey len ce s) :=
  .ite (.next h) (.next h.noteCe.recvRdmaRead.finish)

theorem Keeps.resendAll {i : Nat} (h : Keeps r s) : Keeps r (s.resendAll i) := h.forEach fun _ _ h1 => h1.ethSend

theorem Keeps.retryQp {i : Nat} (h : Keeps r s) : Keeps r (s.retryQp i) := .ite h (.ite h.qpError h.setQp.resendAll)

theorem Keeps.execRoceAck {qp : QpIx} {kind : AckKind} (h : Keeps r s) : KeepsNext r (execRoceAck qp kind s) := by
  unfold Machine.execRoceAck
  refine .ite (.next h) ?_
  split
  · exact .next h.setQp
  · exact .next h.retryQp
  · exact .next h.qpError
  · exact .ite (.next h) (.next h.setQp)

theorem Keeps.execRoceAckTimeout {qp : QpIx} (h : Keeps r s) : KeepsNext r (execRoceAckTimeout qp s) := .ite (.next h) (.next h.retryQp)

theorem Keeps.execRnrRetryTimer {qp : QpIx} (h : Keeps r s) : KeepsNext r (execRnrRetryTimer qp s) :=
  .ite (.next h) (.ite (.next h.qpError) (.next h.setQp.resendAll))

theorem Keeps.execCnpReceive {qp : QpIx} (h : Keeps r s) : KeepsNext r (execCnpReceive qp s) := .ite (.next h) (.next h.addF.count.setQp)

theorem Keeps.execCcPeriod {qp : QpIx} (h : Keeps r s) : KeepsNext r (execCcPeriod qp s) := .ite (.next h) (.next h.setQp)

theorem Keeps.execCmReq {e : EthId} {lp : Fin 2} {gid : BitVec 128} {remote : BitVec 24} {priv : List Byte} (h : Keeps r s) :
    KeepsNext r (execCmReq e lp gid remote priv s) := by
  unfold Machine.execCmReq
  dsimp only
  split
  · exact .next h.emit
  · exact .next h.free.setQp.emit

theorem Keeps.execCmRtu {qp : QpIx} (h : Keeps r s) : KeepsNext r (execCmRtu qp s) := .ite (.next h.setQp.addF) (.next h)

theorem Keeps.execCmDreq {qp : QpIx} (h : Keeps r s) : KeepsNext r (execCmDreq qp s) := .ite (.next h.qpClose.emit) (.next h)

/-! ### The end of a context and the job reset -/

theorem Keeps.stopStep {c : Nat} (h : Keeps r s) : Keeps r (s.stopStep c) := .ite h.abandonStep.writeRecord.closeStep h

theorem Keeps.releaseCore {k : Nat} (h : Keeps r s) : Keeps r (s.releaseCore k) := h.abandonTile.same

theorem Keeps.freeQueues {c : Nat} (h : Keeps r s) : Keeps r (s.freeQueues c) := h.forEach fun _ _ h1 => h1.endSession.setQueue

theorem Keeps.freeRdma {c : Nat} (h : Keeps r s) : Keeps r (s.freeRdma c) := (h.forEach fun _ _ h1 => h1.qpClose).same

theorem Keeps.disarm {c : Nat} (h : Keeps r s) : Keeps r (s.disarm c) := h.setF.setF.same

theorem Keeps.fenceCores {cores : Nat} (h : Keeps r s) : Keeps r (s.fenceCores cores) := .ite h h.same.setF.raiseSpare

theorem Keeps.closeContext {c : Nat} (h : Keeps r s) : Keeps r (s.closeContext c) :=
  ((h.stopStep.unbindHeld.disarm.collAbandon.ckptAbandon.lsaAbandon.forEach fun _ _ h1 => h1.abandonTile).forEach fun _ _ h1 =>
    h1.releaseCore).freeQueues.freeRdma.fenceCores.same.setF.setF.setF.setF.setCtxState.setCtx

theorem Keeps.resetFlaskJob {f : Nat} (h : Keeps r s) : Keeps r (s.resetFlaskJob f) :=
  ((h.forEach fun _ _ h1 => h1.setF.setF.setF).setF.setF.forEach fun _ _ h1 => h1.setF.setF.setF).same

theorem Keeps.resetCtxJob {c : Nat} (h : Keeps r s) : Keeps r (s.resetCtxJob c) :=
  ((h.forEach fun _ _ h1 => h1.setF).clearF.setF.setF.clearF.clearF.clearF.forEach fun _ _ h1 =>
    h1.clearF).setF.setF.clearF.same.setF.setF.setF.same

theorem Keeps.dropJobFlows {job gen : Nat} {cs : List Nat} (h : Keeps r s) : Keeps r (s.dropJobFlows job gen cs) := h.cohTeardown.same

theorem Keeps.clearKeys {job : Nat} (h : Keeps r s) : Keeps r (s.clearKeys job) := h.same

theorem Keeps.jobReset {i retained : Nat} (h : Keeps r s) : Keeps r (s.jobReset i retained) :=
  (((h.same.forEach fun _ _ h1 => h1.closeContext).dropJobFlows.forEach fun _ _ h1 => h1.resetCtxJob).forEach fun _ _ h1 =>
    h1.resetFlaskJob).clearKeys.forEach fun _ _ h1 => h1.setF

theorem Keeps.retired {i : Nat} (h : Keeps r s) : Keeps r (s.retired i) := h.report.same

theorem Keeps.scrubDone {job : Nat} (h : Keeps r s) : Keeps r (s.scrubDone job) := by
  unfold State.scrubDone
  split
  · exact h
  · extract_lets p ps s1 s2 s3 s4 kept waiting
    have h2 : Keeps r s2 := (h.forEach fun _ _ h1 => h1.zeroRange.setF).forEach fun _ _ h1 => h1.forEach fun _ _ h2 => h2.zeroRange
    have h3 : Keeps r s3 := h2.forEach fun _ _ h1 => h1.setF.setF.setF.setF.setF
    have h4 : Keeps r s4 := .ite h3 h3.addF
    exact .ite h4.same (h4.forEach fun _ _ h1 => h1.retired)

end Sys2Proof.Machine
end

section
/-! SUPPORT. What graph loading, capsules, tokens, the launch and attestation keep of a state. -/
namespace Sys2Proof.Machine

variable {r s t : State}

/-! ### Loading a graph -/

theorem Keeps.records {off n w : Nat} (h : Keeps r s) : Keeps r (s.records off n w).1 := h.engineRead

theorem Keeps.readGraph {c off : Nat} (h : Keeps r s) : Keeps r (s.readGraph c off).1 := by
  unfold State.readGraph
  refine .ite_fst h ?_
  split
  rename_i heq
  replace h := Keeps.of_fst heq h.engineRead
  refine .ite_fst h ?_
  split
  rename_i heq
  replace h := Keeps.of_fst heq h.records
  split
  rename_i heq
  replace h := Keeps.of_fst heq h.records
  split
  rename_i heq
  replace h := Keeps.of_fst heq h.records
  refine .ite_fst h ?_
  split
  rename_i heq
  replace h := Keeps.of_fst heq (.foldl_fst h fun _ _ h => h.records)
  split
  rename_i heq
  exact .of_fst heq (.foldl_fst h fun _ _ h => h.records)

theorem Keeps.graphCopy {x : RawGraph} (h : Keeps r s) : Keeps r (s.graphCopy x).1 := by
  unfold State.graphCopy
  extract_lets f nodes
  split
  next heq => exact .of_fst heq (.foldl_fst h fun _ _ h => h.engineRead)

theorem Keeps.loadGraph {c slot off features : Nat} (h : Keeps r s) : Keeps r (s.loadGraph c slot off features).1 := by
  unfold State.loadGraph
  refine .ite_fst h (.ite_fst h (.ite_fst h.readGraph.controlPoison.free (.ite_fst (.pair h.readGraph.trace) ?_)))
  split
  · exact .pair h.readGraph.trace
  · exact h.readGraph.graphCopy.setCtx

/-! ### Command capsules -/

theorem Keeps.leaveDeep (h : Keeps r s) : Keeps r s.leaveDeep := .ite h.same (.ite h.setF h)

theorem Keeps.popRing {q op tag : Nat} (h : Keeps r s) : Keeps r (s.popRing q op tag) := by
  unfold State.popRing
  dsimp only
  split
  · exact h
  · exact .ite h h.setQueue

theorem Keeps.endCapsule {q : Nat} {o : Opcode} {cap : Capsule} {a : Answer} (h : Keeps r s) :
    Keeps r (s.endCapsule q o cap a) := by
  unfold State.endCapsule
  extract_lets ctx who s1 s2 x
  have h1 : Keeps r s1 := .ite h h.trace
  have h2 : Keeps r s2 := .ite h1.trace (.ite h1.trace h1)
  exact .ite h2 h2.trace.answer.flushBroken

theorem Keeps.capsule {q : QueueId} {cap : Capsule} {o : Opcode} {ok : Bool} {run : State → State × Answer} (h : Keeps r s)
    (hrun : ∀ s, Keeps r s → Keeps r (run s).1) : KeepsNext r (s.capsule q cap o ok run) := by
  unfold State.capsule
  extract_lets q' s1 s2
  have h1 : Keeps r s1 := .ite h.leaveDeep h
  have h2 : Keeps r s2 := h1.popRing
  refine .ite (.next h) (.ite (.next h1) ?_)
  split
  · exact .next h2.endCapsule
  · exact .ite (.next h2.endCapsule) (.next (hrun _ h2).endCapsule.finish)

theorem Keeps.just {code : Nat} (h : Keeps r s) : Keeps r (just s code).1 := h

theorem Keeps.execSessionOpen {q : QueueId} {cap : Capsule} (h : Keeps r s) : KeepsNext r (execSessionOpen q cap s) := by
  unfold Machine.execSessionOpen
  refine Keeps.capsule h fun _ h1 => ?_
  split
  · exact h1.just
  · split
    · exact h1.just
    · split
      · exact h1
      · exact h1.setQueue.trace.trace

theorem Keeps.execSessionClose {q : QueueId} {cap : Capsule} (h : Keeps r s) : KeepsNext r (execSessionClose q cap s) :=
  h.capsule fun _ h1 => h1.answer.endSession

theorem Keeps.execNop {q : QueueId} {cap : Capsule} (h : Keeps r s) : KeepsNext r (execNop q cap s) := h.capsule fun _ h1 => h1.just

theorem Keeps.bindQueues {c gid : Nat} {qs : List Nat} (h : Keeps r s) : Keeps r (s.bindQueues c gid qs) :=
  h.forEach fun _ _ h1 => h1.setQueue

theorem Keeps.execCtxOpen {q : QueueId} {cap : Capsule} (h : Keeps r s) : KeepsNext r (execCtxOpen q cap s) := by
  unfold Machine.execCtxOpen
  refine Keeps.capsule h fun _ h1 => ?_
  split
  · exact h1.just
  · dsimp only
    split
    · exact h1.just
    · split
      · exact h1.just
      · exact h1.setCtx.setCtxState.setF.bindQueues.trace.reproChange.just

theorem Keeps.execCtxClose {q : QueueId} {cap : Capsule} (h : Keeps r s) : KeepsNext r (execCtxClose q cap s) := by
  unfold Machine.execCtxClose
  refine Keeps.capsule h fun _ h1 => ?_
  split
  · exact h1.just
  · exact h1.trace.closeContext.just

theorem Keeps.execAllot {q : QueueId} {cap : Capsule} (h : Keeps r s) : KeepsNext r (execAllot q cap s) := by
  unfold Machine.execAllot
  refine Keeps.capsule h fun _ h1 => ?_
  dsimp only
  split
  · exact h1.just
  · split
    · exact h1.just
    · split
      · exact h1.setCtx.just
      · exact h1.setCtx.reproChange.just

theorem Keeps.execQueueBind {q : QueueId} {cap : Capsule} (h : Keeps r s) : KeepsNext r (execQueueBind q cap s) := by
  unfold Machine.execQueueBind
  refine Keeps.capsule h fun _ h1 => ?_
  split
  · exact h1.just
  · split
    · exact h1.just
    · exact h1.bindQueues.just

theorem Keeps.execStatusQuery {q : QueueId} {cap : Capsule} (h : Keeps r s) : KeepsNext r (execStatusQuery q cap s) := by
  unfold Machine.execStatusQuery
  refine Keeps.capsule h fun _ h1 => ?_
  exact .pair h1

theorem Keeps.execGraphLoad {q : QueueId} {cap : Capsule} (h : Keeps r s) : KeepsNext r (execGraphLoad q cap s) :=
  h.capsule fun _ h1 => h1.loadGraph

theorem Keeps.stepStart {q tag c slot n : Nat} (h : Keeps r s) : Keeps r (s.stepStart q tag c slot n).1 := by
  unfold State.stepStart
  dsimp only
  split
  · exact h
  · split
    · exact h
    · exact h.setF.setF.setCtx.setCtxState.reproStart

theorem Keeps.execStepStart {q : QueueId} {cap : Capsule} (h : Keeps r s) : KeepsNext r (execStepStart q cap s) :=
  h.capsule fun _ h1 => h1.stepStart.just

theorem Keeps.stepStop {c : Nat} (h : Keeps r s) : Keeps r (s.stepStop c).1 := by
  unfold State.stepStop
  dsimp only
  split
  · exact h
  · split
    · split
      · exact h.setCtxState.trace
      · exact h.stopReplay.trace
    · split
      · exact h.stopReplay.trace
      · exact h

theorem Keeps.execStepStop {q : QueueId} {cap : Capsule} (h : Keeps r s) : KeepsNext r (execStepStop q cap s) :=
  h.capsule fun _ h1 => h1.stepStop.just

theorem Keeps.execCkptRequest {q : QueueId} {cap : Capsule} (h : Keeps r s) : KeepsNext r (execCkptRequest q cap s) := by
  unfold Machine.execCkptRequest
  refine Keeps.capsule h fun _ h1 => ?_
  dsimp only
  split
  · exact h1.just
  · exact h1.ckptRequest.just

theorem Keeps.execRestore {q : QueueId} {cap : Capsule} (h : Keeps r s) : KeepsNext r (execRestore q cap s) := by
  unfold Machine.execRestore
  refine Keeps.capsule h fun _ h1 => ?_
  dsimp only
  split
  · exact h1.just
  · split
    · exact h1.restoreCheck.just
    · exact h1.restoreCheck.setQueue.restoreStart

theorem Keeps.execQpConnect {q : QueueId} {cap : Capsule} (h : Keeps r s) : KeepsNext r (execQpConnect q cap s) := by
  unfold Machine.execQpConnect
  refine Keeps.capsule h fun _ h1 => ?_
  dsimp only
  split
  · exact h1.just
  · split
    · exact h1.just
    · split
      · exact h1.just
      · exact h1.setQp.addF.just

theorem Keeps.execQpClose {q : QueueId} {cap : Capsule} (h : Keeps r s) : KeepsNext r (execQpClose q cap s) := by
  unfold Machine.execQpClose
  refine Keeps.capsule h fun _ h1 => ?_
  dsimp only
  split
  · exact h1.just
  · exact h1.qpClose.just

theorem Keeps.execMrReg {q : QueueId} {cap : Capsule} (h : Keeps r s) : KeepsNext r (execMrReg q cap s) := by
  unfold Machine.execMrReg
  refine Keeps.capsule h fun _ h1 => ?_
  dsimp only
  split
  · exact h1.just
  · split
    · exact h1.just
    · exact h1.same

theorem Keeps.execMrDereg {q : QueueId} {cap : Capsule} (h : Keeps r s) : KeepsNext r (execMrDereg q cap s) := by
  unfold Machine.execMrDereg
  refine Keeps.capsule h fun _ h1 => ?_
  dsimp only
  split
  · exact h1.same.just
  · exact h1.just

theorem Keeps.setTraceEn {lo hi : Nat} (h : Keeps r s) : Keeps r (s.setTraceEn lo hi) := h.setF.setF

theorem Keeps.execTraceSet {q : QueueId} {cap : Capsule} (h : Keeps r s) : KeepsNext r (execTraceSet q cap s) :=
  h.capsule fun _ h1 => h1.setTraceEn.just

/-- The same where the body's pair is named, which keeps the kernel from evaluating what makes it. -/
theorem Keeps.capsule_of_pair {q : QueueId} {cap : Capsule} {o : Opcode} {ok : Bool} {run : State → State × Answer} (h : Keeps r s)
    (hrun : ∀ s, Keeps r s → ∃ t a, run s = (t, a) ∧ Keeps r t) : KeepsNext r (s.capsule q cap o ok run) := by
  refine h.capsule fun s1 h1 => ?_
  obtain ⟨t, a, heq, ht⟩ := hrun s1 h1
  rw [heq]
  exact ht

theorem Keeps.execLogRead {q : QueueId} {cap : Capsule} (h : Keeps r s) : KeepsNext r (execLogRead q cap s) := by
  refine h.capsule_of_pair fun _ h1 => ?_
  split
  exact ⟨_, _, rfl, h1.trace⟩

/-! ### Tokens -/

theorem Keeps.assemble {src kind len off : Nat} {data : List Byte} (h : Keeps r s) : Keeps r (s.assemble src kind len off data).1 := by
  unfold State.assemble
  dsimp only
  split
  · exact h.same
  · exact h.same

theorem Keeps.stagePart {src len off : Nat} {data : List Byte} (h : Keeps r s) : Keeps r (s.stagePart src len off data) := by
  unfold State.stagePart
  refine .ite h ?_
  split
  next s1 heq =>
    have h1 : Keeps r s1 := .of_fst heq h.assemble
    exact h1
  next s1 _ heq =>
    have h1 : Keeps r s1 := .of_fst heq h.assemble
    split
    · exact h1
    · exact h1.same

theorem Keeps.windowsChanged (h : Keeps r s) : Keeps r s.windowsChanged := h.forEach fun _ _ h1 => .ite h1.setF.reproChange h1.setF

theorem Keeps.dropJobWindows {job : Nat} (h : Keeps r s) : Keeps r (s.dropJobWindows job) := .ite h h.same.addF.windowsChanged

theorem Keeps.applyEntry {owner : Nat} {e : DikeEntry} (h : Keeps r s) : Keeps r (s.applyEntry owner e) := by
  unfold State.applyEntry
  dsimp only
  split
  · exact .ite h.jobReset.dropJobWindows h.same
  · exact h.same
  · exact h.same
  · exact h.same
  · exact h.setF.setF.setF.setF.setF
  · exact h.same
  · exact h.same
  · exact h.setF.setF

theorem Keeps.settleClaim {claims : Bool} (h : Keeps r s) : Keeps r (s.settleClaim claims) := .ite h.setF (.ite h.setF h)

theorem Keeps.applyToken {groups : Nat} {entries : List DikeEntry} {jobs : List Nat} {claims : Bool} (h : Keeps r s) :
    Keeps r (s.applyToken groups entries jobs claims) := by
  unfold State.applyToken
  extract_lets s1 s2 s3 s4 s5
  have h2 : Keeps r s2 := (h.forEach fun _ _ h1 => h1.applyEntry).forEach fun _ _ h1 => h1.addF
  have h3 : Keeps r s3 := .ite h2.windowsChanged h2
  have h4 : Keeps r s4 := .ite h3.settleClaim h3
  have h5 : Keeps r s5 := .ite h4.addF h4
  exact .ite h5.same h5

theorem Keeps.setShadow {k : Nat} {x : Shadow} (h : Keeps r s) : Keeps r (s.setShadow k x) := h.same.setF

theorem Keeps.installShadow {v : TokenView} {es : List DikeEntry} {claim : Bool} (h : Keeps r s) : Keeps r (s.installShadow v es claim) :=
  h.setShadow.forEach fun _ _ h1 => h1.same

theorem Keeps.commitShadow {k : Nat} (h : Keeps r s) : Keeps r (s.commitShadow k) := h.setShadow.applyToken

theorem Keeps.withoutPair {i : Nat} (h : Keeps r s) : Keeps r (s.withoutPair i) := h.same

theorem Keeps.discardShadow {k : Nat} (h : Keeps r s) : Keeps r (s.discardShadow k) :=
  (h.setShadow.forEach fun _ _ h1 => h1.dropJobFlows.withoutPair).same

theorem Keeps.commitDigest {digest t : Nat} (h : Keeps r s) : Keeps r (s.commitDigest digest t) := by
  unfold State.commitDigest
  split
  · exact h.addF
  · exact .ite h.commitShadow h.setShadow

theorem Keeps.abortDigest {digest : Nat} (h : Keeps r s) : Keeps r (s.abortDigest digest) := by
  unfold State.abortDigest
  split
  · exact h.addF
  · exact h.discardShadow

/-! ### Tokens on their way, and the launch -/

theorem Keeps.setLaunch {l : Launch} (h : Keeps r s) : Keeps r (s.setLaunch l) := h.same

theorem Keeps.launchForward {d t : Nat} {bs : List Byte} (h : Keeps r s) : Keeps r (s.launchForward d t bs) :=
  .ite h (h.setLaunch.forEach fun _ _ h1 => h1.emitAll)

theorem Keeps.countUp {d : Nat} (h : Keeps r s) : Keeps r (s.countUp d) := h.forEach fun _ _ h1 => .ite h1.setLaunch.emit h1

theorem Keeps.broadcast {l : Launch} {m : List Byte} (h : Keeps r s) : Keeps r (s.broadcast l m) :=
  h.setLaunch.forEach fun _ _ h1 => h1.emit

theorem Keeps.launchAbort {d cause : Nat} (h : Keeps r s) : Keeps r (s.launchAbort d cause) := by
  unfold State.launchAbort
  extract_lets l s1
  have h1 : Keeps r s1 := h.broadcast
  cases s1.shadowOf d with
  | none => exact h1
  | some i => exact h1.discardShadow

theorem Keeps.launchDecide {d : Nat} (h : Keeps r s) : Keeps r (s.launchDecide d) :=
  .ite h (.ite h.launchAbort (.ite h.broadcast.commitDigest h))

theorem Keeps.flokanDone {code : Nat} (h : Keeps r s) : Keeps r (s.flokanDone code) := .ite h.emit.same h

theorem Keeps.tokenDone {from' : TokenFrom} {d : Nat} {v : Option TokenView} {code : Nat} (h : Keeps r s) :
    Keeps r (s.tokenDone from' d v code) := by
  unfold State.tokenDone
  refine .ite ?_ ?_
  · split
    · exact (Keeps.ite h h.trace).trace.answerBusy.flushBroken
    · exact h
    · exact h.flokanDone
  · refine .launchDecide (.countUp (.setLaunch ?_))
    split
    · exact (Keeps.ite h h.trace).trace.answerBusy.flushBroken
    · exact h
    · exact h.flokanDone

theorem Keeps.refuseToken {v : Option TokenView} {code : Nat} (h : Keeps r s) : Keeps r (s.refuseToken v code) := h.addF.setF.same

theorem Keeps.installToken {from' : TokenFrom} {v : TokenView} (h : Keeps r s) : Keeps r (s.installToken from' v) :=
  .ite h.same.setF.addF.installShadow h.same.setF.addF.applyToken

theorem Keeps.checkToken {from' : TokenFrom} {bs : List Byte} (h : Keeps r s) : Keeps r (s.checkToken from' bs) := by
  unfold State.checkToken
  split
  · exact h.refuseToken.tokenDone
  · split
    · exact h.refuseToken.tokenDone
    · exact h.installToken.tokenDone

theorem Keeps.execShadowApply {slot : Fin 2} (h : Keeps r s) : KeepsNext r (execShadowApply slot s) :=
  .ite (.next h.commitShadow.finish) (.next h)

theorem Keeps.execShadowTtlExpiry {slot : Fin 2} (h : Keeps r s) : KeepsNext r (execShadowTtlExpiry slot s) :=
  .ite (.next h.discardShadow) (.next h)

theorem Keeps.launchCopy {job gen : Nat} {tree : Option Nat} {from' : TokenFrom} {bs : List Byte} (h : Keeps r s) :
    Keeps r (s.launchCopy job gen tree from' bs) := by
  unfold State.launchCopy
  extract_lets d seen l0 l s1 trees s2 held
  have h2 : Keeps r s2 := (Keeps.ite h.setLaunch h).forEach fun _ _ h1 => h1.launchForward
  exact .ite h2.countUp.launchDecide (.ite h2.tokenDone h2.same)

theorem Keeps.execToken {q : QueueId} {cap : Capsule} (h : Keeps r s) : KeepsNext r (execToken q cap s) := by
  unfold Machine.execToken
  refine Keeps.capsule h fun _ h1 => ?_
  split
  · split
    · exact h1.just
    · exact h1.stagePart.just
  · split
    · exact h1.trace.just
    · exact .pair h1.setQueue.trace.launchCopy

theorem Keeps.recvStage {src : Nat} {p : List Byte} (h : Keeps r s) : Keeps r (s.recvStage src p) :=
  .ite h.dropMalformed (.ite h h.stagePart)

theorem Keeps.recvLaunch {src : Nat} {p : List Byte} (h : Keeps r s) : Keeps r (s.recvLaunch src p) := by
  unfold State.recvLaunch
  refine .ite h.dropMalformed ?_
  split
  next s1 heq =>
    have h1 : Keeps r s1 := .of_fst heq h.assemble
    exact h1
  next s1 _ heq =>
    have h1 : Keeps r s1 := .of_fst heq h.assemble
    exact h1.launchCopy

theorem Keeps.recvCount {src : Nat} {p : List Byte} (h : Keeps r s) : Keeps r (s.recvCount src p) :=
  .ite h.dropMalformed h.setLaunch.countUp.launchDecide

theorem Keeps.launchPass {d src : Nat} {p : List Byte} (h : Keeps r s) : Keeps r (s.launchPass d src p) :=
  h.forEach fun _ _ h1 => .ite (h1.setLaunch.forEach fun _ _ h2 => h2.emit) h1

theorem Keeps.recvCommit {src : Nat} {p : List Byte} (h : Keeps r s) : Keeps r (s.recvCommit src p) :=
  .ite h.dropMalformed h.launchPass.commitDigest

theorem Keeps.recvAbort {src : Nat} {p : List Byte} (h : Keeps r s) : Keeps r (s.recvAbort src p) :=
  .ite h.dropMalformed h.launchPass.abortDigest

theorem Keeps.passReport {p : List Byte} (h : Keeps r s) : Keeps r (s.passReport p) := h.forEach fun _ _ h1 => h1.sendStatus

theorem Keeps.recvRetired {p : List Byte} (h : Keeps r s) : Keeps r (s.recvRetired p) := .ite h.dropMalformed h.passReport

theorem Keeps.recvJobFatal {p : List Byte} (h : Keeps r s) : Keeps r (s.recvJobFatal p) := .ite h.dropMalformed h.passReport

theorem Keeps.recvMgmt {src : Nat} {p : List Byte} (h : Keeps r s) : Keeps r (s.recvMgmt src p) := by
  unfold State.recvMgmt
  split
  · exact h.recvStage
  · exact h.recvLaunch
  · exact h.recvCount
  · exact h.recvCommit
  · exact h.recvAbort
  · exact h.recvRetired
  · exact h.recvJobFatal
  · exact h.dropMalformed

theorem Keeps.mgmtRow {src : Nat} {p : List Byte} {run : State → State} (h : Keeps r s) (hrun : ∀ s, Keeps r s → Keeps r (run s)) :
    KeepsNext r (s.mgmtRow src p run) := by
  unfold State.mgmtRow
  extract_lets s1
  have h1 : Keeps r s1 := .ite h.leaveDeep h
  exact .ite (.next h1.same) (.next (hrun _ h1).finish)

theorem Keeps.execStage {src : NodeField} {payload : List Byte} (h : Keeps r s) : KeepsNext r (execStage src payload s) :=
  h.mgmtRow fun _ h1 => h1.recvStage

theorem Keeps.execLaunch {src : NodeField} {payload : List Byte} (h : Keeps r s) : KeepsNext r (execLaunch src payload s) :=
  h.mgmtRow fun _ h1 => h1.recvLaunch

theorem Keeps.execCount {src : NodeField} {payload : List Byte} (h : Keeps r s) : KeepsNext r (execCount src payload s) :=
  h.mgmtRow fun _ h1 => h1.recvCount

theorem Keeps.execCommit {src : NodeField} {payload : List Byte} (h : Keeps r s) : KeepsNext r (execCommit src payload s) :=
  h.mgmtRow fun _ h1 => h1.recvCommit

theorem Keeps.execAbort {src : NodeField} {payload : List Byte} (h : Keeps r s) : KeepsNext r (execAbort src payload s) :=
  h.mgmtRow fun _ h1 => h1.recvAbort

theorem Keeps.execRetired {src : NodeField} {payload : List Byte} (h : Keeps r s) : KeepsNext r (execRetired src payload s) :=
  h.mgmtRow fun _ h1 => h1.recvRetired

theorem Keeps.execJobFatal {src : NodeField} {payload : List Byte} (h : Keeps r s) : KeepsNext r (execJobFatal src payload s) :=
  h.mgmtRow fun _ h1 => h1.recvJobFatal

theorem Keeps.execLaunchAbortTimer (h : Keeps r s) : KeepsNext r (execLaunchAbortTimer s) := by
  unfold Machine.execLaunchAbortTimer
  split
  · exact .next h.launchAbort
  · exact .next h

/-! ### Attestation and key slots -/

theorem Keeps.setSpdm {q : Nat} {x : SpdmState} (h : Keeps r s) : Keeps r (s.setSpdm q x) := h.same

theorem Keeps.spdm' {q : QueueId} {code : Nat} {msg : List Byte} {run : State → SpdmState → State × List Byte} (h : Keeps r s)
    (hrun : ∀ s x, Keeps r s → Keeps r (run s x).1) : KeepsNext r (s.spdm' q code msg run) := by
  unfold State.spdm'
  refine Keeps.capsule h fun _ h1 => ?_
  exact .pair (.setSpdm (.ite_fst h1 (.ite_fst h1 (.ite_fst h1 (.ite_fst h1 (hrun _ _ h1))))))

theorem Keeps.freshBytes {n : Nat} (h : Keeps r s) : Keeps r (s.freshBytes n).2 := h.free

theorem Keeps.execGetVersion {q : QueueId} {msg : List Byte} (h : Keeps r s) : KeepsNext r (execGetVersion q msg s) :=
  h.spdm' fun _ _ h1 => h1.setSpdm

theorem Keeps.execGetCapabilities {q : QueueId} {msg : List Byte} (h : Keeps r s) : KeepsNext r (execGetCapabilities q msg s) := by
  unfold Machine.execGetCapabilities
  refine Keeps.spdm' h fun _ _ h1 => ?_
  split
  · exact h1
  · exact h1.setSpdm

theorem Keeps.execNegotiateAlgorithms {q : QueueId} {msg : List Byte} (h : Keeps r s) :
    KeepsNext r (execNegotiateAlgorithms q msg s) := by
  unfold Machine.execNegotiateAlgorithms
  refine Keeps.spdm' h fun _ _ h1 => ?_
  split
  · exact h1
  · exact h1.setSpdm

theorem Keeps.execGetDigests {q : QueueId} {msg : List Byte} (h : Keeps r s) : KeepsNext r (execGetDigests q msg s) := by
  unfold Machine.execGetDigests
  refine Keeps.spdm' h fun _ _ h1 => ?_
  split
  · exact h1
  · exact h1

theorem Keeps.execGetCertificate {q : QueueId} {msg : List Byte} (h : Keeps r s) : KeepsNext r (execGetCertificate q msg s) := by
  unfold Machine.execGetCertificate
  refine Keeps.spdm' h fun _ _ h1 => ?_
  dsimp only
  split
  · exact h1
  · split
    · exact h1
    · exact h1

theorem Keeps.execChallenge {q : QueueId} {msg : List Byte} (h : Keeps r s) : KeepsNext r (execChallenge q msg s) := by
  refine Keeps.spdm' h fun _ _ h1 => .ite_fst h1 (.ite_fst h1 ?_)
  split
  next heq => exact .of_snd heq h1.freshBytes

theorem Keeps.execGetMeasurements {q : QueueId} {msg : List Byte} (h : Keeps r s) : KeepsNext r (execGetMeasurements q msg s) := by
  refine Keeps.spdm' h fun _ _ h1 => .ite_fst h1 (.ite_fst h1 ?_)
  split
  next heq => exact .of_snd heq h1.freshBytes

theorem Keeps.execKeyExchange {q : QueueId} {msg : List Byte} (h : Keeps r s) : KeepsNext r (execKeyExchange q msg s) := by
  unfold Machine.execKeyExchange
  refine Keeps.spdm' h fun _ _ h1 => ?_
  split
  · exact h1
  · split
    · exact h1
    · exact h1.free.setSpdm

theorem Keeps.execFinish {q : QueueId} {msg : List Byte} (h : Keeps r s) : KeepsNext r (execFinish q msg s) := by
  unfold Machine.execFinish
  refine Keeps.spdm' h fun _ _ h1 => ?_
  split
  · exact h1
  · split
    · exact h1.setSpdm
    · exact h1.setSpdm

theorem Keeps.execHeartbeat {q : QueueId} {msg : List Byte} (h : Keeps r s) : KeepsNext r (execHeartbeat q msg s) := by
  unfold Machine.execHeartbeat
  refine Keeps.spdm' h fun _ _ h1 => ?_
  split
  · exact h1
  · exact h1

theorem Keeps.execKeyUpdate {q : QueueId} {msg : List Byte} (h : Keeps r s) : KeepsNext r (execKeyUpdate q msg s) := by
  unfold Machine.execKeyUpdate
  refine Keeps.spdm' h fun _ _ h1 => ?_
  dsimp only
  split
  · exact h1
  · split
    · exact h1
    · exact h1.setSpdm

theorem Keeps.execEndSession {q : QueueId} {msg : List Byte} (h : Keeps r s) : KeepsNext r (execEndSession q msg s) := by
  unfold Machine.execEndSession
  refine Keeps.spdm' h fun _ _ h1 => ?_
  split
  · exact h1
  · exact h1.setSpdm

theorem Keeps.keyRequest {q : QueueId} {op : Nat} {msg : List Byte} (h : Keeps r s) : KeepsNext r (s.keyRequest q op msg) := by
  unfold State.keyRequest
  refine Keeps.spdm' h fun _ _ h1 => ?_
  dsimp only
  split
  · exact h1
  · exact .ite h1.free.same h1.free

theorem Keeps.execKeyLoad {q : QueueId} {msg : List Byte} (h : Keeps r s) : KeepsNext r (execKeyLoad q msg s) := h.keyRequest

theorem Keeps.execKeyClear {q : QueueId} {msg : List Byte} (h : Keeps r s) : KeepsNext r (execKeyClear q msg s) := h.keyRequest

end Sys2Proof.Machine
end

section
/-! SUPPORT. What resets, power, boot, the processor die and repairs keep of a state. -/
namespace Sys2Proof.Machine

variable {r s t : State}

/-! ### Node reset and loss of power -/

theorem Keeps.copyFields {l : List (FieldDesc × Nat)} {old : State} (h : Keeps r s) : Keeps r (s.copyFields l old) :=
  h.forEach fun _ _ h1 => h1.forEach fun _ _ h2 => h2.setF

theorem Keeps.copyVersions {old : State} (h : Keeps r s) : Keeps r (s.copyVersions old) := h.forEach fun _ _ h1 => h1.setF

theorem Keeps.takeStore (h : Keeps r s) : Keeps r s.takeStore :=
  ((h.forEach fun _ _ h1 => h1.setF.setF).forEach fun _ _ h1 => h1.setF).setF.setF

theorem Keeps.bare (h : Keeps r s) : Keeps r s.bare := by
  unfold State.bare
  extract_lets b
  have hb : Keeps r b := ⟨fun _ => rfl, h.queue⟩
  exact hb.copyFields.copyVersions.takeStore

theorem Keeps.cold (h : Keeps r s) : Keeps r s.cold := by
  unfold State.cold
  extract_lets d b
  have hb : Keeps r b := ⟨fun _ => rfl, h.queue⟩
  exact hb.copyFields.copyVersions.takeStore

theorem Keeps.romStart (h : Keeps r s) : Keeps r s.romStart := .ite h h.setF.setF.emit

theorem Keeps.nodeReset {cause : Nat} (h : Keeps r s) : Keeps r (s.nodeReset cause) := .ite h h.jobFatalAll.bare.addF.setF.event.romStart

/-! ### Power, heat and the reference -/

theorem Keeps.setSupply {v : Nat} (h : Keeps r s) : Keeps r (s.setSupply v) := .ite h h.setF.event.same

theorem Keeps.enterBrownout (h : Keeps r s) : Keeps r s.enterBrownout := .ite h h.setSupply.addF.same.setF

theorem Keeps.orderlyStop {cause : Nat} (h : Keeps r s) : Keeps r (s.orderlyStop cause) := .ite h h.setSupply.jobFatalAll.same.bare

theorem Keeps.vinSample {cv : Nat} (h : Keeps r s) : Keeps r (s.vinSample cv) := by
  unfold State.vinSample
  extract_lets old dip e s1 l s2 s3
  have h2 : Keeps r s2 := h.same.setF
  have h3 : Keeps r s3 := .ite h2.addF h2
  exact .ite h3.orderlyStop (.ite h3.orderlyStop (.ite h3.enterBrownout (.ite h3 h3.setSupply)))

theorem Keeps.execVinSample {centivolts : Nat} (h : Keeps r s) : KeepsNext r (execVinSample centivolts s) :=
  .ite .fault (.next h.vinSample)

theorem Keeps.execVbankLow {centivolts : Nat} (h : Keeps r s) : KeepsNext r (execVbankLow centivolts s) :=
  .next (.ite h.same.orderlyStop (.ite h.same.enterBrownout h.same))

theorem Keeps.execInputOvervoltage {centivolts : Nat} (h : Keeps r s) : KeepsNext r (execInputOvervoltage centivolts s) :=
  .ite .fault (.next (.ite h.same h))

theorem Keeps.execBrownoutExit (h : Keeps r s) : KeepsNext r (execBrownoutExit s) := .ite (.next h.setSupply.same) (.next h)

theorem Keeps.execLastGaspWritten (h : Keeps r s) : KeepsNext r (execLastGaspWritten s) :=
  .ite (.next h) (.next h.same.setF.setF.cold.same)

theorem Keeps.noteDraw {watts c : Nat} (h : Keeps r s) : Keeps r (s.noteDraw watts c) := by
  unfold State.noteDraw
  dsimp only
  split
  · exact .ite h.same h
  · exact h

theorem Keeps.powerSample {watts : Nat} (h : Keeps r s) : Keeps r (s.powerSample watts) := by
  unfold State.powerSample
  extract_lets c f s1 vin s2 s3 was capped
  have h2 : Keeps r s2 := .ite h.setF.addF h.setF.addF.setF
  have h3 : Keeps r s3 := h2.forEach fun _ _ h4 => h4.noteDraw
  clear_value s3
  split
  rename_i v s4 heq
  have h4 : Keeps r s4 := .of_snd heq (.ite_snd h3.free h3)
  extract_lets s5 s6 s7 s8
  have h5 : Keeps r s5 := h4.setF.setF
  have h6 : Keeps r s6 := .ite h5.addF h5
  have h7 : Keeps r s7 := .ite h6.addF h6
  have h8 : Keeps r s8 := .ite h7.event h7
  exact h8.same

theorem Keeps.execPrebankRaise {c : CtxId} (h : Keeps r s) : KeepsNext r (execPrebankRaise c s) := .ite (.next h) (.next h.same.trace)

theorem Keeps.deepCmd (h : Keeps r s) : KeepsSome r s.deepCmd := .ite .none (.ite (.some h) (.some h.setF))

theorem Keeps.execDeepEntryDone (h : Keeps r s) : KeepsNext r (execDeepEntryDone s) :=
  .ite (.next h) (.next ((h.forEach fun _ _ h1 => h1.setPstate.unitsOff).same.setF))

theorem Keeps.execDeepExitDone (h : Keeps r s) : KeepsNext r (execDeepExitDone s) :=
  .ite (.next h) (.next ((h.same.setF.forEach fun _ _ h1 => h1.recvMgmt).finish))

theorem Keeps.execThermalHardTimeout {u : ThermalUnit} (h : Keeps r s) : KeepsNext r (execThermalHardTimeout u s) := by
  unfold Machine.execThermalHardTimeout
  split
  · exact .ite (.next h) (.next h.detect.orderlyStop)

theorem Keeps.execRefCompare {ppb : BitVec 32} (h : Keeps r s) : KeepsNext r (execRefCompare ppb s) := .ite (.next h) (.next h.setF.setF)

/-! ### From 48 V to READY -/

theorem Keeps.execPowerUp {straps : BitVec 2} {vinOk : Bool} (h : Keeps r s) : KeepsNext r (execPowerUp straps vinOk s) :=
  .ite (.next h) (.next h.same.takeStore.romStart)

theorem Keeps.execColdReset {lowUs : Nat} (h : Keeps r s) : KeepsNext r (execColdReset lowUs s) := .ite (.next h) (.next h.cold.same)

theorem Keeps.execResetReqN {lowNs : Nat} (h : Keeps r s) : KeepsNext r (execResetReqN lowNs s) := .ite (.next h) (.next h.same.nodeReset)

theorem Keeps.execResetReqNRelease (h : Keeps r s) : KeepsNext r (execResetReqNRelease s) :=
  .ite (.next h) (.next (.ite h.same.romStart h.same))

theorem Keeps.recovery (h : Keeps r s) : Keeps r s.recovery := h.setF.setF

theorem Keeps.runBank {b : Nat} (h : Keeps r s) : Keeps r (s.runBank b) := h.setF.setF.same.setF.forEach fun _ _ h1 => h1.setPortState

theorem Keeps.execBootVerifyDone (h : Keeps r s) : KeepsNext r (execBootVerifyDone s) :=
  .ite (.next h) (.ite (.next h.setF.recovery) (.ite (.next h.recovery) (.next (.ite h.runBank (.ite h.runBank h.recovery)))))

theorem Keeps.execPositionQueryTimer (h : Keeps r s) : KeepsNext r (execPositionQueryTimer s) := .ite (.next h) (.next h.emit)

theorem Keeps.stageOn (h : Keeps r s) : Keeps r s.stageOn := .ite h h.setF

theorem Keeps.mapOut {site ch : Nat} (h : Keeps r s) : Keeps r (s.mapOut site ch) :=
  .ite h (.ite h.detect.raiseSpare.same.setF (.ite h.setF.addF.setF.same.raiseSpare h.setF.addF.setF.same))

theorem Keeps.execHbmTrainingDone {failed : List (SiteId × Fin 32)} (h : Keeps r s) : KeepsNext r (execHbmTrainingDone failed s) :=
  .ite (.next h) (.ite (.next (h.forEach fun _ _ h1 => h1.mapOut)) (.next ((h.forEach fun _ _ h1 => h1.mapOut).zeroRange.same.stageOn)))

theorem Keeps.bootTile {t : Nat} (h : Keeps r s) : Keeps r (s.bootTile t) := .ite h (.ite h.setF.addF.raiseSpare h.setF.addF.raiseSpare)

theorem Keeps.bootCore {k : Nat} (h : Keeps r s) : Keeps r (s.bootCore k) := .ite (.ite h.addF.raiseSpare h.addF) h.setF.raiseSpare

theorem Keeps.bootEngine (h : Keeps r s) : Keeps r s.bootEngine := .ite (.ite h.addF.raiseSpare h.addF) h.setF.raiseSpare

theorem Keeps.execSelfTestDone {tiles : List TileId} {cores : List CoreId} {engines : Nat} (h : Keeps r s) :
    KeepsNext r (execSelfTestDone tiles cores engines s) :=
  .ite (.next h) (.next ((((h.forEach fun _ _ h1 => h1.bootTile).forEach fun _ _ h1 => h1.bootCore).forEach fun _ _ h1 =>
    h1.bootEngine).same.stageOn))

theorem Keeps.endTrial (h : Keeps r s) : Keeps r s.endTrial := .ite h.same.setF.addF h

theorem Keeps.execNodeReady (h : Keeps r s) : KeepsNext r (execNodeReady s) :=
  .ite (.next h) (.next ((Keeps.ite h.setF.setF.setF.endTrial.setF.same h.setF.setF.setF.endTrial).same))

theorem Keeps.trialFallback (h : Keeps r s) : Keeps r s.trialFallback := h.same.addF.nodeReset

theorem Keeps.execTrialBootTimeout (h : Keeps r s) : KeepsNext r (execTrialBootTimeout s) := .ite (.next h.trialFallback) (.next h)

theorem Keeps.execNodeReset {q : QueueId} {cap : Capsule} (h : Keeps r s) : KeepsNext r (execNodeReset q cap s) :=
  h.capsule fun _ h1 => h1.nodeReset

/-! ### The processor die -/

theorem Keeps.vecGate {k : Nat} (h : Keeps r s) : Keeps r (s.vecGate k) := .ite h.setVec.event h

theorem Keeps.vecWoken {k : Nat} (h : Keeps r s) : Keeps r (s.vecWoken k) := .ite h.setCore.setVec.count.event h

theorem Keeps.vecHoldWrite (h : Keeps r s) : Keeps r s.vecHoldWrite := h.setF

theorem Keeps.coreRepairStart {k : Nat} (h : Keeps r s) : Keeps r (s.coreRepairStart k) := .ite h h.setCore.same.trace

theorem Keeps.coreRepairEnd {k : Nat} (h : Keeps r s) : Keeps r (s.coreRepairEnd k) :=
  .ite ((Keeps.ite h.setCore.addF.count.raiseSpare h.setCore.addF.count).same.trace) h

/-! ### Errors and repairs -/

theorem Keeps.queueRepair {page unit : Nat} {failed : Bool} (h : Keeps r s) : Keeps r (s.queueRepair page unit failed) := h.same

theorem Keeps.countCe {page unit : Nat} (h : Keeps r s) : Keeps r (s.countCe page unit) := by
  unfold State.countCe
  split
  · exact h
  · exact .ite (.ite h.same.prefail h.same) (.ite (.ite ((Keeps.ite h.same.prefail h.same).lsaRemap) (.ite h.same.prefail h.same))
      ((Keeps.ite h.same.prefail h.same).queueRepair))

theorem Keeps.tileLost {page unit : Nat} (h : Keeps r s) : Keeps r (s.tileLost page unit) :=
  .ite h.queueRepair (.ite h h.setF.addF.raiseSpare)

theorem Keeps.coreLost {k : Nat} (h : Keeps r s) : Keeps r (s.coreLost k) := .ite h.queueRepair (.ite h.same h.same.fenceCores)

theorem Keeps.engineLost {e : Nat} (h : Keeps r s) : Keeps r (s.engineLost e) := .ite h.lsaRemap h.setF.raiseSpare

theorem Keeps.errorEffect {page : Nat} {info : ErrorInfo} (h : Keeps r s) : Keeps r (s.errorEffect page info) := by
  unfold State.errorEffect
  dsimp only
  split
  · exact h.countCe
  · exact .ite h.same h
  · exact .ite h.tileLost h
  · exact .ite h.coreLost h
  · exact h.engineLost
  · exact h

theorem Keeps.errorDetect {page src : Nat} {info : ErrorInfo} (h : Keeps r s) : Keeps r (s.errorDetect page src info) :=
  .ite h (.ite h.channelCe (.ite h.channelDe (.ite h.prefail h.detect.errorEffect)))

theorem Keeps.showHandler (h : Keeps r s) : Keeps r s.showHandler := h.setF.setF.setF

theorem Keeps.setOutcome {r0 : ErrRecord} {v : Nat} (h : Keeps r s) : Keeps r (s.setOutcome r0 v) := h.amendRecord

theorem Keeps.handlerStart (h : Keeps r s) : Keeps r s.handlerStart := by
  unfold State.handlerStart
  split
  · exact h
  · dsimp only
    split
    · exact h.same.showHandler
    · exact .ite h (.ite ((h.amendRecord.forEach fun _ _ h1 => h1.setOutcome).same.same.showHandler) h.amendRecord.same.same.showHandler)

theorem Keeps.outcomeOf {r0 : ErrRecord} (h : Keeps r s) : Keeps r (s.outcomeOf r0).2 := by
  unfold State.outcomeOf
  split
  · exact h
  · split
    · exact h
    · exact h
    · exact h
    · split
      · split
        · exact h
        · exact h
      · split
        · exact h
        · split
          · exact h
          · exact h.free

theorem Keeps.afterNf {r0 : ErrRecord} (h : Keeps r s) : Keeps r (s.afterNf r0) := .ite h.trialFallback (.ite h h.nodeReset)

theorem Keeps.handlerEnd {inHandler : Bool} (h : Keeps r s) : Keeps r (s.handlerEnd inHandler) := by
  unfold State.handlerEnd
  split
  · exact h
  · exact .ite h.detect (.ite h.outcomeOf.setOutcome.same.showHandler.afterNf h.outcomeOf.setOutcome.same.showHandler)

theorem Keeps.injectError {page : Nat} (h : Keeps r s) : Keeps r (s.injectError page) := h.detect.setF

theorem Keeps.repairStart {forced : Bool} (h : Keeps r s) : Keeps r (s.repairStart forced) := by
  unfold State.repairStart
  split
  · exact h
  · exact .ite h (.ite (.ite h.same.remapStart h.same) h.same.coreRepairStart)

theorem Keeps.execRowRepair {site : SiteId} {ch : Fin 32} {x2 left : Bool} (h : Keeps r s) :
    KeepsNext r (execRowRepair site ch x2 left s) :=
  .ite (.next h) (.ite (.next h.detect) (.next h.requestEvac))

end Sys2Proof.Machine
end

section
/-! SUPPORT. What the fabric's commands, flits, snapshots, page stores and the serial monitor keep of a state. -/
namespace Sys2Proof.Machine

variable {r s t : State}

/-! ### The Ecrok commands and the collectives -/

theorem Keeps.sendLowmark {dst vc : Nat} (h : Keeps r s) : Keeps r (s.sendLowmark dst vc) := .ite h h.same.send

/-! ### Flits -/

theorem Keeps.mgmtPacket {src : Nat} {p : List Byte} (h : Keeps r s) : Keeps r (s.mgmtPacket src p) :=
  .ite ((Keeps.ite h.leaveDeep h).same) ((Keeps.ite h.leaveDeep h).recvMgmt)

theorem Keeps.recvPacket {p : Nat} {pk : Packet} (h : Keeps r s) : Keeps r (s.recvPacket p pk) :=
  .ite h (.ite h.dropMalformed (.ite h.forward (.ite h.recvRead (.ite h.recvWrite
    (.ite h.recvAtomic (.ite h.recvAtomic (.ite h.recvMsg (.ite h.recvRupdate
      (.ite h.recvLowmark (.ite h.recvResponse (.ite h.recvCoh (.ite (.ite h.dropMalformed h.mgmtPacket) h.recvColl))))))))))))

theorem Keeps.flitAcks {p h0 : Nat} (h : Keeps r s) : Keeps r (s.flitAcks p h0) := h.setPort.moveBack

theorem Keeps.flitData {p h0 : Nat} {payload : List Byte} (h : Keeps r s) : Keeps r (s.flitData p h0 payload) :=
  h.setPort.count.forEach fun _ _ h1 => h1.recvPacket

theorem Keeps.flitNak {p : Nat} (h : Keeps r s) : Keeps r (s.flitNak p) := h.setPort

theorem Keeps.countSymbols {p : Nat} {places : List Nat} (h : Keeps r s) : Keeps r (s.countSymbols p places) := h.setPort.count

theorem Keeps.execFlitReceive {p : PortId} {flit : List Byte} (h : Keeps r s) : KeepsNext r (execFlitReceive p flit s) := by
  unfold Machine.execFlitReceive
  refine .ite (.next h) ?_
  split
  · exact .next h.flitNak
  · exact .ite (.next h.countSymbols.flitNak) (.next (.ite h.countSymbols.flitAcks.finish
      (.ite h.countSymbols.flitAcks.flitData.finish h.countSymbols.flitAcks.flitNak.finish)))

theorem Keeps.putFlit {p : Nat} {f : Option LinkFlit} (h : Keeps r s) : Keeps r (s.putFlit p f) := by
  unfold State.putFlit
  dsimp only
  split
  · exact h.setPort.emit.count.count
  · exact h.setPort.emit

theorem Keeps.resendFlit {p : Nat} {f : LinkFlit} (h : Keeps r s) : Keeps r (s.resendFlit p f) := by
  unfold State.resendFlit
  exact (Keeps.ite h.addF.count h).setPort.putFlit

theorem Keeps.sendFlit {p : Nat} {f : LinkFlit} (h : Keeps r s) : Keeps r (s.sendFlit p f) := h.setPort.putFlit.moveBack

theorem Keeps.newRound {p : Nat} (h : Keeps r s) : Keeps r (s.newRound p) := h.setPort

theorem Keeps.buildFlit {p vc : Nat} (h : Keeps r s) : Keeps r (s.buildFlit p vc) := by
  unfold State.buildFlit
  dsimp only
  split
  · exact h
  · exact h.setPort.sendFlit

theorem Keeps.nextFlit {p : Nat} (h : Keeps r s) : Keeps r (s.nextFlit p) := by
  unfold State.nextFlit
  dsimp only
  split
  · exact h.resendFlit
  · refine .ite h.putFlit ?_
    split
    · exact .ite h.putFlit (.ite h.buildFlit h.setPort.sendFlit)
    · split
      · exact h.buildFlit
      · split
        · exact h.newRound.buildFlit
        · exact h.putFlit

theorem Keeps.execFlitSend {p : PortId} (h : Keeps r s) : KeepsNext r (execFlitSend p s) :=
  .ite (.next h) (.ite (.next h.putFlit) (.next h.nextFlit))

/-! ### Snapshots, summaries and the sideband -/

theorem Keeps.latchDie {d : Nat} (h : Keeps r s) : Keeps r (s.latchDie d) := .ite h.same.setF h.same

theorem Keeps.takeSnapshot (h : Keeps r s) : Keeps r s.takeSnapshot :=
  .ite h (((h.same.setF.forEach fun _ _ h1 => h1.latchDie).forEach fun _ _ h1 => h1.freezeRings).setF.setF.setF.same)

theorem Keeps.releaseSnapshot (h : Keeps r s) : Keeps r s.releaseSnapshot := .ite h ((h.same.forEach fun _ _ h1 => h1.thawRings).setF)

theorem Keeps.writeSummary {urgent : Bool} (h : Keeps r s) : Keeps r (s.writeSummary urgent) := h.addF.setF.same.same.emit

theorem Keeps.execHealthSummary {urgent : Bool} (h : Keeps r s) : KeepsNext r (execHealthSummary urgent s) :=
  .ite (.next (.ite h h.writeSummary)) (.next (.ite h h.writeSummary))

theorem Keeps.execI3cPositionWrite {x y z check : Byte} (h : Keeps r s) : KeepsNext r (execI3cPositionWrite x y z check s) :=
  .ite (.next h) (.ite (.next (.ite h h.same)) (.next h.setF.setF.setF.setF))

theorem Keeps.execI3cSummaryRead (h : Keeps r s) : KeepsNext r (execI3cSummaryRead s) := .ite (.next h.same.emit) (.next h.emit)

/-! ### Stores to the block pages -/

theorem Keeps.holdShadow {page : Nat} {d : FieldDesc} {i v : Nat} (h : Keeps r s) : Keeps r (s.holdShadow page d i v) := h.same

theorem Keeps.putField {page : Nat} {w : FieldWrite} (h : Keeps r s) : Keeps r (s.putField page w) := by
  unfold State.putField
  split
  · exact .ite h.holdShadow (.ite h h.setF)
  · exact h.setF
  · exact h

theorem Keeps.putWp {f : WpEntry → WpEntry} (h : Keeps r s) : Keeps r (s.putWp f) := h.same

theorem Keeps.rebucket {old : State} {p : Nat} (h : Keeps r s) : Keeps r (s.rebucket old p) :=
  h.forEach fun _ _ h1 => h1.forEach fun _ _ h2 => h2.same

theorem Keeps.flaskDisabled {f : Nat} (h : Keeps r s) : Keeps r (s.flaskDisabled f) := .ite h.sleepStart (.ite h.setPstate h)

theorem Keeps.resetStart {page : Nat} (h : Keeps r s) : Keeps r (s.resetStart page) := h.setF.event

theorem Keeps.snapArm (h : Keeps r s) : Keeps r s.snapArm := .ite h.setF.takeSnapshot h.setF

theorem Keeps.commonAct {page : Nat} {w : FieldWrite} (h : Keeps r s) : Keeps r (s.commonAct page w) := by
  unfold State.commonAct
  split
  · exact .ite h.flaskDisabled h
  · exact h.resetStart
  · exact .ite h.applyShadow h
  · exact h.setF.injectError
  · exact .ite h.freezeRings h.thawRings
  · exact h

theorem Keeps.act {old : State} {page : Nat} {w : FieldWrite} (h : Keeps r s) : Keeps r (s.act old page w) := by
  unfold State.act
  split
  · exact h.commonAct
  · exact .ite (h.sleepCmd.getD h) h.wakeCmd
  · exact h.holdWrite
  · exact h.imemStart
  · exact h.putWp
  · exact h.putWp
  · exact h.putWp
  · exact h.putWp
  · exact h.rebucket
  · exact h.rebucket
  · exact h.rebucket
  · exact h.vecHoldWrite
  · exact .ite h.same h
  · exact h.setParent
  · exact h.armRel
  · exact h.swapGo
  · exact .ite (h.deepCmd.getD h) h.leaveDeep
  · exact h.snapArm
  · exact h.releaseSnapshot
  · exact h

theorem Keeps.tryStore {agent page off size v : Nat} (h : Keeps r s) : Keeps r (s.tryStore agent page off size v).1 :=
  .ite_fst (.pair h) (.ite_fst (.pair h.reject) (.pair ((h.forEach fun _ _ h1 => h1.putField).forEach fun _ _ h1 => h1.act)))

theorem Keeps.pageFault {a : Agent} {load : Bool} {page off : Nat} (h : Keeps r s) : Keeps r (s.pageFault a load page off) := by
  unfold State.pageFault
  dsimp only
  split
  · exact h.emit
  · exact h.refuseCore
  · exact h.refuseCore
  · exact h.refuseCore
  · exact h.refuseCore

theorem Keeps.storePage {a : Agent} {page off size v : Nat} (h : Keeps r s) : Keeps r (s.storePage a page off size v) := by
  unfold State.storePage
  split
  · exact h.pageFault
  · exact .ite h.tryStore h.pageFault

theorem Keeps.storeBit {a : Agent} {page off b : Nat} {on : Bool} (h : Keeps r s) : Keeps r (s.storeBit a page off b on) := h.storePage

theorem Keeps.execRcRead {a : Agent} {page : BitVec 20} {off : BitVec 12} {size : Nat} (h : Keeps r s) :
    KeepsNext r (execRcRead a page off size s) :=
  .ite (.next h.pageLoad.emit) (.next h.pageFault)

theorem Keeps.execCoreStore {c : Core} {addr : Word} {size : Nat} {v : Word} (h : Keeps r s) :
    KeepsNext r (execCoreStore c addr size v s) := by
  unfold Machine.execCoreStore
  split
  · exact .next h.storePage.finish
  · exact .next h.issue'

theorem Keeps.clearTiles {f : Nat} (h : Keeps r s) : Keeps r (s.clearTiles f) :=
  (h.forEach fun _ _ h1 => h1.zeroRange.zeroRange).same.resetFlaskJob

theorem Keeps.resetUnit {page : Nat} (h : Keeps r s) : Keeps r (s.resetUnit page) := by
  unfold State.resetUnit
  split
  · exact h.clearTiles
  · exact h.same
  · exact h.same
  · exact h.releaseSnapshot
  · exact h

theorem Keeps.resetDone {page : Nat} (h : Keeps r s) : Keeps r (s.resetDone page) :=
  .ite h ((h.same.forEach fun _ _ h1 => h1.forEach fun _ _ h2 => .ite h2 h2.clearF).resetUnit)

theorem Keeps.pageWords {page n off : Nat} (h : Keeps r s) : Keeps r (s.pageWords page n off).1 := by
  induction n generalizing s off with
  | zero => exact h
  | succ n ih => exact ih h.pageLoad

theorem Keeps.execRegRead {q : QueueId} {cap : Capsule} (h : Keeps r s) : KeepsNext r (execRegRead q cap s) := by
  unfold Machine.execRegRead
  refine Keeps.capsule h fun _ h1 => ?_
  split
  · exact h1.just
  · exact h1.pageWords

theorem Keeps.execRegWrite {q : QueueId} {cap : Capsule} (h : Keeps r s) : KeepsNext r (execRegWrite q cap s) := by
  unfold Machine.execRegWrite
  refine Keeps.capsule h fun _ h1 => ?_
  split
  · exact h1.trace.just
  · split
    · exact h1.trace.just
    · dsimp only
      split
      · exact h1.tryStore.trace.just
      · exact h1.tryStore.trace

/-! ### The serial monitor -/

theorem Keeps.final {name detail : Nat} (h : Keeps r s) : Keeps r (s.final name detail) := h.emit

theorem Keeps.finalFree (h : Keeps r s) : Keeps r s.finalFree := h.free.final

theorem Keeps.show {lines : List (List Nat)} (h : Keeps r s) : Keeps r (s.show lines) := h.emitAll.final

theorem Keeps.control {run : State → State} (h : Keeps r s) (hrun : ∀ s, Keeps r s → Keeps r (run s)) : Keeps r (s.control run) :=
  .ite (hrun _ h) h.final

theorem Keeps.protect {run : State → State} (h : Keeps r s) (hrun : ∀ s, Keeps r s → Keeps r (run s)) : Keeps r (s.protect run) :=
  .ite (hrun _ h) h.final

theorem Keeps.arity {args : List Nat} {lo hi : Nat} {run : State → State} (h : Keeps r s)
    (hrun : ∀ s, Keeps r s → Keeps r (run s)) : Keeps r (s.arity args lo hi run) :=
  .ite (hrun _ h) h.final

theorem Keeps.ranged {ok : Bool} {run : State → State} (h : Keeps r s) (hrun : ∀ s, Keeps r s → Keeps r (run s)) :
    Keeps r (s.ranged ok run) :=
  .ite (hrun _ h) h.final

theorem Keeps.flHelp {args : List Nat} (h : Keeps r s) : Keeps r (s.flHelp args) := by
  unfold State.flHelp
  refine .arity h fun _ h1 => ?_
  split
  · exact h1.show
  · exact .ite h1.show h1.final

theorem Keeps.flVer {args : List Nat} (h : Keeps r s) : Keeps r (s.flVer args) := h.arity fun _ h1 => h1.show

theorem Keeps.flStatus {args : List Nat} (h : Keeps r s) : Keeps r (s.flStatus args) := h.arity fun _ h1 => h1.show

theorem Keeps.flBaud {args : List Nat} (h : Keeps r s) : Keeps r (s.flBaud args) :=
  h.arity fun _ h1 => h1.ranged fun _ h2 => h2.final.same

theorem Keeps.flTime {args : List Nat} (h : Keeps r s) : Keeps r (s.flTime args) := h.arity fun _ h1 => h1.show

theorem Keeps.flErr {args : List Nat} (h : Keeps r s) : Keeps r (s.flErr args) := h.arity fun _ h1 => h1.ranged fun _ h2 => h2.show

theorem Keeps.flLastgasp {args : List Nat} (h : Keeps r s) : Keeps r (s.flLastgasp args) :=
  h.arity fun _ h1 => h1.ranged fun _ h2 => h2.show

theorem Keeps.flRegr {args : List Nat} (h : Keeps r s) : Keeps r (s.flRegr args) :=
  h.arity fun _ h1 => h1.ranged fun _ h2 => .ite h2.final (.ite h2.final h2.pageWords.show)

theorem Keeps.flCount {args : List Nat} (h : Keeps r s) : Keeps r (s.flCount args) :=
  h.arity fun _ h1 => h1.ranged fun _ h2 => .ite h2.final h2.show

theorem Keeps.flRing {args : List Nat} (h : Keeps r s) : Keeps r (s.flRing args) :=
  h.arity fun _ h1 => h1.ranged fun _ h2 => .ite h2.final (.ite h2.final h2.show)

theorem Keeps.reeveStore {page off size v : Nat} (h : Keeps r s) : Keeps r (s.reeveStore page off size v).1 := h.tryStore

theorem Keeps.finalStore {page cause : Nat} (h : Keeps r s) : Keeps r (s.finalStore page cause) := .ite h.final h.final

theorem Keeps.flSnap {args : List Nat} (h : Keeps r s) : Keeps r (s.flSnap args) := by
  refine h.arity fun _ h1 => h1.ranged fun _ h2 => ?_
  split
  next heq =>
    have h3 := Keeps.of_fst heq h2.reeveStore
    refine .ite h3.finalStore ?_
    split
    next heq => exact (Keeps.of_fst heq h3.reeveStore).finalStore

theorem Keeps.flSnapshow {args : List Nat} (h : Keeps r s) : Keeps r (s.flSnapshow args) :=
  h.arity fun _ h1 => h1.ranged fun _ h2 => h2.show

theorem Keeps.flSnaprel {args : List Nat} (h : Keeps r s) : Keeps r (s.flSnaprel args) := by
  refine h.arity fun _ h1 => ?_
  split
  next heq => exact (Keeps.of_fst heq h1.reeveStore).finalStore

theorem Keeps.flLog {args : List Nat} (h : Keeps r s) : Keeps r (s.flLog args) := by
  refine h.arity fun _ h1 => h1.ranged fun _ h2 => .ite h2.final ?_
  extract_lets last first
  split
  exact h2.show

theorem Keeps.flRegw {args : List Nat} (h : Keeps r s) : Keeps r (s.flRegw args) :=
  h.control fun _ h1 => h1.arity fun _ h2 => h2.ranged fun _ h3 => .ite h3.final h3.reeveStore.finalStore

theorem Keeps.flInject {args : List Nat} (h : Keeps r s) : Keeps r (s.flInject args) :=
  h.control fun _ h1 => h1.arity fun _ h2 => h2.ranged fun _ h3 => .ite h3.final h3.reeveStore.finalStore

theorem Keeps.flReset {args : List Nat} (h : Keeps r s) : Keeps r (s.flReset args) :=
  h.control fun _ h1 => h1.arity fun _ h2 => h2.final.nodeReset

theorem Keeps.putStore {x : Store} (h : Keeps r s) : Keeps r (s.putStore x) := h.same.addF

theorem Keeps.flPortmap {args : List Nat} (h : Keeps r s) : Keeps r (s.flPortmap args) :=
  h.control fun _ h1 => h1.arity fun _ h2 => h2.ranged fun _ h3 => .ite h3.finalFree h3.putStore.final

theorem Keeps.flEthmode {args : List Nat} (h : Keeps r s) : Keeps r (s.flEthmode args) :=
  h.control fun _ h1 => h1.arity fun _ h2 => h2.ranged fun _ h3 => .ite h3.finalFree h3.putStore.final

theorem Keeps.flTrace {args : List Nat} (h : Keeps r s) : Keeps r (s.flTrace args) := by
  refine h.control fun _ h1 => h1.arity fun _ h2 => h2.ranged fun _ h3 => ?_
  split
  next heq => exact (Keeps.of_fst heq h3.reeveStore).finalStore

theorem Keeps.flTdump {args : List Nat} (h : Keeps r s) : Keeps r (s.flTdump args) :=
  h.control fun _ h1 => h1.arity fun _ h2 => h2.ranged fun _ h3 => .ite h3.final h3.show

theorem Keeps.flFwload {args : List Nat} (h : Keeps r s) : Keeps r (s.flFwload args) :=
  .ite h.final (h.arity fun _ h1 => .ite h1.finalFree h1.same)

theorem Keeps.flToken {args : List Nat} (h : Keeps r s) : Keeps r (s.flToken args) := h.protect fun _ h1 => h1.arity fun _ h2 => h2.same

theorem Keeps.flCommit {args : List Nat} (h : Keeps r s) : Keeps r (s.flCommit args) :=
  h.protect fun _ h1 => h1.arity fun _ h2 => h2.ranged fun _ h3 => h3.commitDigest.final

theorem Keeps.flAbort {args : List Nat} (h : Keeps r s) : Keeps r (s.flAbort args) :=
  h.protect fun _ h1 => h1.arity fun _ h2 => h2.ranged fun _ h3 => h3.abortDigest.final

theorem Keeps.bankWrite {bs : List Byte} (h : Keeps r s) : Keeps r (s.bankWrite bs) := h.same

theorem Keeps.dropContent (h : Keeps r s) : Keeps r s.dropContent := (Keeps.ite h.bankWrite h).same

theorem Keeps.endFwload {bs : List Byte} (h : Keeps r s) : Keeps r (s.endFwload bs) :=
  .ite h.bankWrite.finalFree h.bankWrite.putStore.final

theorem Keeps.endToken {bs : List Byte} (h : Keeps r s) : Keeps r (s.endToken bs) := .ite h.final h.same.trace.launchCopy

theorem Keeps.endContent (h : Keeps r s) : Keeps r s.endContent := .ite h.same.endFwload h.same.endToken

theorem Keeps.contentLine {line : List Byte} (h : Keeps r s) : Keeps r (s.contentLine line) := by
  unfold State.contentLine
  refine .ite h.dropContent.final (.ite h.endContent ?_)
  split
  · exact .ite h.emit.same h.dropContent.final
  · exact h.dropContent.final

theorem Keeps.runLine {k : Nat} {args : List Nat} (h : Keeps r s) : Keeps r (s.runLine k args) := by
  unfold State.runLine
  split
  · exact h.flHelp
  · exact h.flVer
  · exact h.flStatus
  · exact h.flBaud
  · exact h.flTime
  · exact h.flErr
  · exact h.flLastgasp
  · exact h.flRegr
  · exact h.flCount
  · exact h.flRing
  · exact h.flSnap
  · exact h.flSnapshow
  · exact h.flSnaprel
  · exact h.flRegw
  · exact h.flInject
  · exact h.flReset
  · exact h.flPortmap
  · exact h.flEthmode
  · exact h.flFwload
  · exact h.flTrace
  · exact h.flTdump
  · exact h.flLog
  · exact h.flToken
  · exact h.flCommit
  · exact h.flAbort
  · exact h.final

theorem Keeps.line {k : Nat} {args : List Nat} (h : Keeps r s) : Keeps r (s.line k args) :=
  .ite h (.ite h.same.dropContent.final (.ite h.same.same h.same.runLine))

theorem Keeps.runHeld {n : Nat} (h : Keeps r s) : Keeps r (s.runHeld n) := by
  induction n generalizing s with
  | zero => exact h
  | succ n ih =>
    rw [State.runHeld]
    split
    · exact h
    · exact .ite h (ih h.same.line)

theorem Keeps.execTokenCheck (h : Keeps r s) : KeepsNext r (execTokenCheck s) := by
  unfold Machine.execTokenCheck
  split
  · exact .next h
  · exact .next h.same.checkToken.runHeld.finish

theorem Keeps.execFlokanDataLine {line : List Byte} (h : Keeps r s) : KeepsNext r (execFlokanDataLine line s) :=
  .ite (.next h) (.ite (.next h.line) (.next h.same.contentLine.finish))

theorem Keeps.execFlokanAbortByte (h : Keeps r s) : KeepsNext r (execFlokanAbortByte s) := .next (.ite h.same h)

theorem Keeps.execBaudRevert (h : Keeps r s) : KeepsNext r (execBaudRevert s) := .next (.ite h.same h)

end Sys2Proof.Machine
end

section
/-! PROOFS. Memory in its canonical form (spec/10_polders_and_memory.md; log entry 3). -/
namespace Sys2Proof.Machine

variable {r s t : State}

/-! ### Every command -/

/-- What a command answers keeps what its state keeps: each row's own rule, or, where the row is one operation, that operation's.
The last case is the fabric's RECALL, whose constructor's name is a keyword of Mathlib. -/
theorem Keeps.exec (h : Keeps r s) (i : Instr) : KeepsNext r (exec i s) := by
  cases i with
  | registerWrite => exact .next h.storePage.finish
  | rcRead => exact h.execRcRead
  | commitGo => exact .next h.storePage.finish
  | ctrlQuiesce => exact .next h.storeBit.finish
  | ctrlEnable => exact .next h.storeBit.finish
  | blockReset => exact .next h.storeBit.finish
  | blockResetDone => exact .next h.resetDone.finish
  | csrWrite => exact .next h.issue'
  | instructionFetch => exact .next h.fetch
  | coreLoad => exact .next h.issue'
  | coreStore => exact h.execCoreStore
  | coreAmo => exact .next h.issue'
  | lr => exact .next h.issue'
  | sc => exact .next h.issue'
  | fence => exact .next h.issue'
  | ecall => exact .next h.issue'
  | hartInterrupt => exact .next h.interruptCore.finish
  | vectorInstruction => exact .next h.issue'
  | vectorGate => exact .next h.vecGate
  | vectorWakeDone => exact .next h.vecWoken.finish
  | coreRepairStart => exact .next h.coreRepairStart
  | coreRepairEnd => exact .next h.coreRepairEnd.finish
  | imemLoadGo => exact .next h.storePage.finish
  | imemLoadDone => exact .next h.imemDone.finish
  | imemLoadPoison => exact .next h.imemPoison.finish
  | tileStoreScrub => exact .next h
  | tileRemapStart => exact .next h.remapStart
  | tileRemapEnd => exact .next h.remapEnd.finish
  | flaskSleep => exact .next h.storePage.finish
  | sleepEntryDone => exact .next h.sleepDone
  | flaskWake => exact .next h.storePage.finish
  | demandWake => exact .next h.arrive
  | flaskWakeDone => exact .next h.wakeDone.finish
  | unitGate => exact .next h.gateUnit
  | unitWakeDone => exact .next h.unitWoken.finish
  | gateHoldWrite => exact .next h.storePage.finish
  | mxMma => exact .next h.issue'
  | mxWmma => exact .next h.issue'
  | mxLdacc => exact .next h.issue'
  | mxStacc => exact .next h.issue'
  | mxZero => exact .next h.issue'
  | mxRecomb => exact .next h.issue'
  | mxSlice => exact .next h.issue'
  | mxWait => exact .next h.issue'
  | mxEngineStart => exact .next h.startEngine
  | mxEngineDone => exact .next h.endEngine.finish
  | mxStatusRead => exact .next h.issue'
  | svAdd => exact .next h.issue'
  | svSub => exact .next h.issue'
  | svMul => exact .next h.issue'
  | svFma => exact .next h.issue'
  | svDiv => exact .next h.issue'
  | svSqrt => exact .next h.issue'
  | svMin => exact .next h.issue'
  | svMax => exact .next h.issue'
  | svAbs => exact .next h.issue'
  | svNeg => exact .next h.issue'
  | svMov => exact .next h.issue'
  | svAnd => exact .next h.issue'
  | svOr => exact .next h.issue'
  | svXor => exact .next h.issue'
  | svAndn => exact .next h.issue'
  | svNot => exact .next h.issue'
  | svSll => exact .next h.issue'
  | svSrl => exact .next h.issue'
  | svSra => exact .next h.issue'
  | svEq => exact .next h.issue'
  | svNe => exact .next h.issue'
  | svLt => exact .next h.issue'
  | svLe => exact .next h.issue'
  | svUnord => exact .next h.issue'
  | svSel => exact .next h.issue'
  | svExp => exact .next h.issue'
  | svLog => exact .next h.issue'
  | svRecip => exact .next h.issue'
  | svRsqrt => exact .next h.issue'
  | svRsum => exact .next h.issue'
  | svRmin => exact .next h.issue'
  | svRmax => exact .next h.issue'
  | svRexp => exact .next h.issue'
  | svSmx => exact .next h.issue'
  | svCausal => exact .next h.issue'
  | svWindow => exact .next h.issue'
  | svLimit => exact .next h.issue'
  | svPosid => exact .next h.issue'
  | svPerm => exact .next h.issue'
  | svShuf => exact .next h.issue'
  | svPack => exact .next h.issue'
  | svUnpke => exact .next h.issue'
  | svUnpko => exact .next h.issue'
  | svCvt => exact .next h.issue'
  | svFcvt => exact .next h.issue'
  | svMxpack => exact .next h.issue'
  | svMxunpack => exact .next h.issue'
  | svXprebase => exact .next h.issue'
  | svSetvl => exact .next h.issue'
  | svSetvlc => exact .next h.issue'
  | svAdv => exact .next h.issue'
  | svAdv1 => exact .next h.issue'
  | svFwait => exact .next h.issue'
  | fcuRequestDone => exact .next h.endFcu.finish
  | svStatusRead => exact .next h.issue'
  | syPost => exact .next h.issue'
  | syTake => exact .next h.issue'
  | syWait => exact .next h.issue'
  | syRead => exact .next h.issue'
  | syInit => exact .next h.issue'
  | syWaitRetry => exact .next h.retryWait.finish
  | syWaitTimeout => exact .next h.timeoutWait.finish
  | syArrive => exact .next h.issue'
  | syBwait => exact .next h.issue'
  | syPush => exact .next h.issue'
  | syPop => exact .next h.issue'
  | sySteal => exact .next h.issue'
  | syWarm => exact .next h.issue'
  | syWdis => exact .next h.issue'
  | hbmRead => exact .next h.submit.finish
  | hbmWrite => exact .next h.submit.finish
  | hbmAtomic => exact h.execHbmAtomic
  | mergerDrain => exact h.execMergerDrain
  | sluiceGrant => exact h.execSluiceGrant
  | sluiceWindow => exact .next h.same
  | hbmSelfRefresh => exact h.execHbmSelfRefresh
  | hbmPatrolScrub => exact h.execHbmPatrolScrub
  | hourlyCountRoll => exact h.execHourlyCountRoll
  | hbmTempReading => exact h.execHbmTempReading
  | thermalHardTimeout => exact h.execThermalHardTimeout
  | evacRequest => exact h.execEvacRequest
  | evacStart => exact h.execEvacStart
  | evacCopyDone => exact h.execEvacCopyDone
  | lsaPidxWrite => exact .next h.submit.finish
  | lsaProblemStart => exact .next h.lsaStart.finish
  | lsaIterationEnd => exact .next h.lsaIterate
  | lsaProblemEnd => exact .next h.lsaProblemEnd.finish
  | lsaBatchComplete => exact .next h.lsaComplete.finish
  | lsaHardDeadline => exact .next h.lsaHard.finish
  | lsaGate => exact .next h.lsaGate
  | lsaWakeDone => exact .next h.lsaWoken.finish
  | lsaEngineRemap => exact .next h.lsaRemap
  | stepRelease => exact .next h.stepRelease.finish
  | prewake => exact .next h.prewake.finish
  | tileNodeStart => exact .next h.tileNodeStart.finish
  | doneWordWrite => exact .next h.doneWordWrite.finish
  | nodeEnd => exact .next h.nodeEnd.finish
  | voteResult => exact .next h.voteResult.finish
  | stepHardDeadline => exact .next h.hardDeadline.finish
  | voteLost => exact .next h.voteLost.finish
  | flitReceive => exact h.execFlitReceive
  | flitSend => exact h.execFlitSend
  | retryEscalation => exact h.execRetryEscalation
  | retrainDone => exact h.execRetrainDone
  | swap => exact .next h.startSwap.finish
  | swapDone => exact .next h.endSwap.finish
  | laneErrorWindow => exact h.execLaneErrorWindow
  | swapGo => exact .next h.storePage.finish
  | combFail => exact .next h.combFail.finish
  | combSpareLock => exact h.execCombSpareLock
  | portLaserLock => exact h.execPortLaserLock
  | portTrained => exact h.execPortTrained
  | identityExchange => exact h.execIdentityExchange
  | portRetryTimer => exact h.execPortRetryTimer
  | delayMeasured => exact h.execDelayMeasured
  | read => exact .next h.recvRead.finish
  | write => exact .next h.recvWrite.finish
  | atomic => exact .next h.recvAtomic.finish
  | atomicF => exact .next h.recvAtomic.finish
  | msg => exact .next h.recvMsg.finish
  | rupdate => exact .next h.recvRupdate.finish
  | lowmark => exact .next h.recvLowmark.finish
  | respData => exact .next h.recvResponse.finish
  | respAck => exact .next h.recvResponse.finish
  | packetForward => exact .next h.forward.finish
  | lowmarkSend => exact .next h.sendLowmark.finish
  | busyResend => exact .next h.resendBusy.finish
  | completionTimeout => exact .next h.timeoutTag.finish
  | getS => exact .next h.recvCoh.finish
  | getM => exact .next h.recvCoh.finish
  | upgrade => exact .next h.recvCoh.finish
  | putM => exact .next h.recvCoh.finish
  | putC => exact .next h.recvCoh.finish
  | inv => exact .next h.recvCoh.finish
  | downgrade => exact .next h.recvCoh.finish
  | dataS => exact .next h.recvCoh.finish
  | dataE => exact .next h.recvCoh.finish
  | ackE => exact .next h.recvCoh.finish
  | ack => exact .next h.recvCoh.finish
  | invAck => exact .next h.recvCoh.finish
  | recallData => exact .next h.recvCoh.finish
  | retry => exact .next h.recvCoh.finish
  | cohRetryResend => exact .next h.cohResend.finish
  | cohTimeout => exact .next h.cohTimeout.finish
  | collectiveStart => exact .next h.collStart.finish
  | collUp => exact .next h.recvColl.finish
  | collDown => exact .next h.recvColl.finish
  | quickUp => exact .next h.recvColl.finish
  | quickDown => exact .next h.recvColl.finish
  | collTimeout => exact .next h.collTimeout.finish
  | timeSend => exact h.execTimeSend
  | timePacket => exact .next h.recvTime.finish
  | ppsEdge => exact h.execPpsEdge
  | relArm => exact .next h.storePage.finish
  | comparatorFire => exact h.execComparatorFire
  | ethLinkChange => exact h.execEthLinkChange
  | neighbourQuery => exact h.execNeighbourQuery
  | icmpEcho => exact h.execIcmpEcho
  | ptpEvent => exact h.execPtpEvent
  | pfcPause => exact h.execPfcPause
  | roceSend => exact h.execRoceSend
  | rdmaWrite => exact h.execRdmaWrite
  | rdmaRead => exact h.execRdmaRead
  | roceAck => exact h.execRoceAck
  | roceAckTimeout => exact h.execRoceAckTimeout
  | cnpReceive => exact h.execCnpReceive
  | ccPeriod => exact h.execCcPeriod
  | cmReq => exact h.execCmReq
  | cmDreq => exact h.execCmDreq
  | sessionOpen => exact h.execSessionOpen
  | sessionClose => exact h.execSessionClose
  | nop => exact h.execNop
  | ctxOpen => exact h.execCtxOpen
  | ctxClose => exact h.execCtxClose
  | allot => exact h.execAllot
  | queueBind => exact h.execQueueBind
  | statusQuery => exact h.execStatusQuery
  | graphLoad => exact h.execGraphLoad
  | stepStart => exact h.execStepStart
  | stepStop => exact h.execStepStop
  | ckptRequest => exact h.execCkptRequest
  | restore => exact h.execRestore
  | qpConnect => exact h.execQpConnect
  | qpClose => exact h.execQpClose
  | mrReg => exact h.execMrReg
  | mrDereg => exact h.execMrDereg
  | traceSet => exact h.execTraceSet
  | logRead => exact h.execLogRead
  | regRead => exact h.execRegRead
  | regWrite => exact h.execRegWrite
  | token => exact h.execToken
  | nodeReset => exact h.execNodeReset
  | tokenCheck => exact h.execTokenCheck
  | jobScrubDone => exact .next h.scrubDone.finish
  | shadowApply => exact h.execShadowApply
  | shadowTtlExpiry => exact h.execShadowTtlExpiry
  | nonceExpiry => exact .next h.same.setF
  | stagedBlobDiscard => exact .next h.same
  | getVersion => exact h.execGetVersion
  | getCapabilities => exact h.execGetCapabilities
  | negotiateAlgorithms => exact h.execNegotiateAlgorithms
  | getDigests => exact h.execGetDigests
  | getCertificate => exact h.execGetCertificate
  | challenge => exact h.execChallenge
  | getMeasurements => exact h.execGetMeasurements
  | keyExchange => exact h.execKeyExchange
  | finish => exact h.execFinish
  | heartbeat => exact h.execHeartbeat
  | keyUpdate => exact h.execKeyUpdate
  | endSession => exact h.execEndSession
  | keyLoad => exact h.execKeyLoad
  | keyClear => exact h.execKeyClear
  | ckptSweepRead => exact .next h.ckptSweep.finish
  | ckptPromotionDone => exact .next h.promoDone.finish
  | ckptStageOneEnd => exact .next h.stageOneEnd.finish
  | ckptDrainStart => exact .next h.drainStart.finish
  | ckptDrainEnd => exact .next h.drainEnd.finish
  | restoreCandidates => exact .next h.restoreChoose.finish
  | restoreDone => exact .next h.restoreDone.finish
  | errorDetect => exact .next h.errorDetect.finish
  | handlerStart => exact .next h.handlerStart
  | handlerEnd => exact .next h.handlerEnd.finish
  | errInjectGo => exact .next h.storePage.finish
  | firmwareWatchdog => exact .next h.detect.finish
  | repairStart => exact .next h.repairStart
  | rowRepair site ch lane left => exact h.execRowRepair (x2 := lane)
  | vinSample => exact h.execVinSample
  | vbankLow => exact h.execVbankLow
  | inputOvervoltage => exact h.execInputOvervoltage
  | brownoutExit => exact h.execBrownoutExit
  | lastGaspWritten => exact h.execLastGaspWritten
  | powerSample => exact .next h.powerSample
  | prebankRaise => exact h.execPrebankRaise
  | deep => exact .next h.storePage.finish
  | idleWake => exact .next h.storePage.finish
  | deepExitDone => exact h.execDeepExitDone
  | dieTempReading => exact .next h.setF.setF.setF.setF.same
  | refCompare => exact h.execRefCompare
  | refLost => exact .next h.setF.orderlyStop
  | powerUp => exact h.execPowerUp
  | coldReset => exact h.execColdReset
  | resetReqN => exact h.execResetReqN
  | bootVerifyDone => exact h.execBootVerifyDone
  | positionQueryTimer => exact h.execPositionQueryTimer
  | hbmTrainingDone => exact h.execHbmTrainingDone
  | selfTestDone => exact h.execSelfTestDone
  | nodeReady => exact h.execNodeReady
  | trialBootTimeout => exact h.execTrialBootTimeout
  | stage => exact h.execStage
  | launch => exact h.execLaunch
  | count => exact h.execCount
  | commit => exact h.execCommit
  | abort => exact h.execAbort
  | retired => exact h.execRetired
  | jobFatal => exact h.execJobFatal
  | launchAbortTimer => exact h.execLaunchAbortTimer
  | flokanHelp => exact .next h.line
  | flokanVer => exact .next h.line
  | flokanStatus => exact .next h.line
  | flokanBaud => exact .next h.line
  | baudRevert => exact h.execBaudRevert
  | flokanTime => exact .next h.line
  | flokanErr => exact .next h.line
  | flokanLastgasp => exact .next h.line
  | flokanRegr => exact .next h.line
  | flokanCount => exact .next h.line
  | flokanRing => exact .next h.line
  | flokanSnap => exact .next h.line
  | flokanSnapshow => exact .next h.line
  | flokanSnaprel => exact .next h.line
  | flokanRegw => exact .next h.line.finish
  | flokanInject => exact .next h.line.finish
  | flokanReset => exact .next h.line
  | portmap => exact .next h.line
  | ethmode => exact .next h.line
  | fwload => exact .next h.line
  | flokanTrace => exact .next h.line
  | flokanTdump => exact .next h.line
  | flokanLog => exact .next h.line
  | flokanToken => exact .next h.line
  | flokanCommit => exact .next h.line.finish
  | flokanAbort => exact .next h.line.finish
  | flokanDataLine => exact h.execFlokanDataLine
  | flokanAbortByte => exact h.execFlokanAbortByte
  | evrFreeze => exact .next h.storeBit.finish
  | snapArm => exact .next h.storePage.finish
  | snapLatch => exact .next h.takeSnapshot
  | snapRelease => exact .next h.storeBit.finish
  | traceSync => exact .next h.syncRecord
  | healthSummary => exact h.execHealthSummary
  | i3cPositionWrite => exact h.execI3cPositionWrite
  | i3cStageRead => exact .next h.emit
  | i3cSummaryRead => exact h.execI3cSummaryRead
  | selfRefreshExitDone => exact h.execSelfRefreshExitDone
  | deepEntryDone => exact h.execDeepEntryDone
  | resetReqNRelease => exact h.execResetReqNRelease
  | cmRtu => exact h.execCmRtu
  | rnrRetryTimer => exact h.execRnrRetryTimer
  | pfcPauseExpiry => exact .next h.resumePrio
  | _ => exact .next h.recvCoh.finish

/-! ### Every step -/

theorem KeepsNext.get {o : Out} (h : KeepsNext r o) (e : o = .next t) : Keeps r t := by
  subst e
  cases h with
  | next h => exact h

/-- A step takes its command off the queue and keeps everything else of `Keeps`; with an empty queue it is a tick of fabric time. -/
theorem step_keeps (h : step s = .next t) : Keeps { s with pending := s.pending.tail } t := by
  unfold step at h
  split at h
  next hempty =>
    cases h
    exact ⟨id, by rw [hempty]; exact hempty⟩
  next i rest hqueue =>
    rw [hqueue]
    exact (Keeps.exec (s := { s with pending := rest }) .refl i).get h

end Sys2Proof.Machine
end

section
/-! PROOFS. Memory stays canonical (spec/10_polders_and_memory.md; log entry 3). -/
namespace Sys2Proof.Machine

/-- Settles O4: every operation of the model keeps memory canonical and the queue as it is, and a step is one of them. -/
theorem stepKeepsMemoryCanonical : Obligations.StepKeepsMemoryCanonical := by
  unfold Obligations.StepKeepsMemoryCanonical
  intro s t hcanon hstep
  exact (step_keeps hstep).mem hcanon

end Sys2Proof.Machine
end

section
/-! PROOFS. Sluices and self-refresh (spec/10_polders_and_memory.md; log entry 36). -/
namespace Sys2Proof.Machine

/-! ### Grants (R267, R268) -/

/-- The state in which a granted request goes on: off its queue, its bytes counted in the window, its polder served last, and its bucket
charged unless it borrows. -/
def State.granted (s : State) (site p : Nat) (r : HbmReq) (borrows : Bool) : State :=
  let s := { s with hbm := { s.hbm with
    waiting := s.hbm.waiting.erase r
    lastServed := mapPut 0 s.hbm.lastServed site (p + 1) } }
  let s := s.chargeWindow r.off p r.charge.1 r.charge.2
  if borrows then s else s.chargeBucket site p r.charge.1 r.charge.2

theorem exec_sluiceGrant_of_turn {site : SiteId} {p : PolderId} {idle borrows : Bool} {s : State} {r : HbmReq}
    (hservable : s.servable site.val p.val idle = some (r, borrows)) (hturn : s.turnOf site.val p.val r idle = true) :
    exec (.sluiceGrant site p idle) s = .next ((s.granted site.val p.val r borrows).accept r).finish := by
  have hexec : exec (.sluiceGrant site p idle) s = execSluiceGrant site p idle s := rfl
  rw [hexec, execSluiceGrant, hservable]
  exact if_pos hturn

/-- A grant changes the memory system's state alone, and a bucket only where the request pays. -/
theorem State.granted_spec (s : State) (site p : Nat) (r : HbmReq) (borrows : Bool) :
    (s.granted site p r borrows).hbm.waiting = s.hbm.waiting.erase r ∧
      mapGet 0 (s.granted site p r borrows).hbm.lastServed site = p + 1 ∧
      (borrows = true → (s.granted site p r borrows).hbm.buckets = s.hbm.buckets) ∧
      { s.granted site p r borrows with hbm := s.hbm } = s := by
  have hserved : mapGet 0 (mapPut 0 s.hbm.lastServed site (p + 1)) site = p + 1 := mapGet_put_self _ _ _ _
  unfold State.granted State.chargeBucket State.chargeWindow
  cases borrows with
  | true => exact ⟨rfl, hserved, fun _ => rfl, rfl⟩
  | false => exact ⟨rfl, hserved, fun h => absurd h Bool.false_ne_true, rfl⟩

/-! ### Windows (R268) -/

/-- The state in which a controller's window starts again. -/
def State.windowRestarted (s : State) (site : Nat) : State :=
  { s with hbm := { s.hbm with served := s.hbm.served.filter fun (k, _) => !(s.siteOf (k / 32 * 256) = site) } }

theorem State.windowBytes_windowRestarted (s : State) (site p : Nat) (w : Bool) : (s.windowRestarted site).windowBytes site p w = 0 := by
  have hsite : ∀ off, (s.windowRestarted site).siteOf off = s.siteOf off := fun _ => rfl
  have hnone : ((s.windowRestarted site).hbm.served.filter fun (k, _) =>
      k % 32 = p * 2 + w.toNat && (s.windowRestarted site).siteOf (k / 32 * 256) = site) = [] := by
    rw [List.filter_eq_nil_iff]
    rintro ⟨k, n⟩ hk
    have hother : ¬ s.siteOf (k / 32 * 256) = site := by simpa using (List.mem_filter.mp hk).2
    simp [hsite, hother]
  rw [State.windowBytes, hnone]
  rfl

/-! ### Self-refresh (R256) -/

theorem exec_hbmSelfRefresh_of_idle {s : State} (h : s.idleForRefresh = true) :
    exec .hbmSelfRefresh s = .next { s with hbm := { s.hbm with selfRefresh := 1 } } :=
  if_pos h

theorem exec_hbmSelfRefresh_of_busy {s : State} (h : s.idleForRefresh = false) : exec .hbmSelfRefresh s = .next s :=
  if_neg (by simp [h])

/-- The state in which the requests held during an exit go on. -/
def State.refreshLeft (s : State) : State :=
  { s with hbm := { s.hbm with selfRefresh := 0, srHeld := [], lastRequest := s.now } }

theorem exec_selfRefreshExitDone_of_exit {s : State} (h : s.hbm.selfRefresh = 2) :
    exec .selfRefreshExitDone s = .next (s.refreshLeft.forEach s.hbm.srHeld fun r s => s.sluice r).finish :=
  if_pos h

/-- Settles O29: each row's own state differs from the state before in the memory system alone, where the rules above say how. -/
theorem sluicesAndRefresh : Obligations.SluicesAndRefresh := by
  unfold Obligations.SluicesAndRefresh
  refine ⟨fun site p idle borrows s r hservable hturn => ?_, fun site s => ?_, fun s => ⟨fun hidle => ?_, fun hbusy => ?_⟩,
    fun s hexit => ?_⟩
  · exact ⟨_, exec_sluiceGrant_of_turn hservable hturn, _, rfl, s.granted_spec _ _ r borrows⟩
  · exact ⟨s.windowRestarted site.val, rfl, rfl, s.windowBytes_windowRestarted site.val⟩
  · exact ⟨_, exec_hbmSelfRefresh_of_idle hidle, rfl, rfl⟩
  · exact exec_hbmSelfRefresh_of_busy hbusy
  · exact ⟨_, exec_selfRefreshExitDone_of_exit hexit, s.refreshLeft, rfl, rfl, rfl, rfl⟩

end Sys2Proof.Machine
end

section
/-! SUPPORT. Rules of the stacks' pages: which of their fields the records and the spare state leave alone (R281, R280, R455). -/
namespace Sys2Proof.Machine

/-! ### Fields of the HBMC and MEMMAP pages -/

section
variable (s : State) (site : SiteId) {d : FieldDesc} {i : Nat}

theorem State.getF_event_hbmc (page unit : Nat) (cls : Option Nat) (code subject value : Nat) (h : unrecorded d i = true) :
    (s.event page unit cls code subject value).getF d (pgHbmc site.val) i = s.getF d (pgHbmc site.val) i := by
  have hsite := site.isLt
  have hsched : pgHbmc site.val ≠ pgSched := by simp only [pgHbmc, pgSched]; omega
  have hobs : pgHbmc site.val ≠ pgObs := by simp only [pgHbmc, pgObs]; omega
  exact s.getF_event _ _ _ _ _ _ _ _ _ (offRecords_of_other_page page hsched hobs h)

theorem State.getF_event_memmap (page unit : Nat) (cls : Option Nat) (code subject value : Nat) (h : unrecorded d i = true) :
    (s.event page unit cls code subject value).getF d pgMemmap i = s.getF d pgMemmap i :=
  s.getF_event _ _ _ _ _ _ _ _ _ (offRecords_of_other_page page (by decide) (by decide) h)

theorem pgHbmc_ne_memmap : pgHbmc site.val ≠ pgMemmap := by
  have hsite := site.isLt
  simp only [pgHbmc, pgMemmap]
  omega

/-- The spare state is no field of another page. -/
theorem State.getF_raiseSpare_page (v : Nat) {p : Nat} (hp : pgErragg ≠ p) (h : unrecorded d i = true) :
    (s.raiseSpare v).getF d p i = s.getF d p i := by
  simp only [unrecorded, Bool.and_eq_true, decide_eq_true_eq] at h
  obtain ⟨⟨hoff, hlsb⟩, -⟩ := h
  unfold State.raiseSpare
  split
  · exact State.getF_setF_ne _ _ _ _ _ _ _ _ (descKey_page_ne hp (by decide) (by decide) hoff hlsb)
  · rfl

theorem pgErragg_ne_hbmc : pgErragg ≠ pgHbmc site.val := by
  have hsite := site.isLt
  simp only [pgHbmc, pgErragg]
  omega

@[simp] theorem State.hbm_raiseSpare (v : Nat) : (s.raiseSpare v).hbm = s.hbm := by
  unfold State.raiseSpare
  split <;> rfl

end

/-- A channel's evacuation mark stands inside its page, apart from the records. -/
theorem unrecorded_evacPending (ch : Fin 32) : unrecorded fdHbmcChEvacPending ch.val = true := by
  revert ch
  decide

end Sys2Proof.Machine
end

section
/-! PROOFS. Upkeep of the stacks (spec/10_polders_and_memory.md, spec/17_errors_recovery_spares.md; log entries 37, 38). -/
namespace Sys2Proof.Machine

/-! ### Scrub (R258, R259) -/

theorem exec_patrolScrub_of_clean {off : BitVec 40} {s : State} (site : SiteId) (h : mapGet false s.poisonLine (off.toNat / 128) = false) :
    exec (.hbmPatrolScrub site off .uncorrectable) s = .next (s.channelDe site.val (s.channelOf off.toNat) off.toNat) := by
  have hexec : exec (.hbmPatrolScrub site off .uncorrectable) s = if mapGet false s.poisonLine (off.toNat / 128) then .next s
      else .next (s.channelDe site.val (s.channelOf off.toNat) off.toNat) := rfl
  rw [hexec, h, if_neg Bool.false_ne_true]

/-! ### Hourly counts (R451) -/

/-- Every channel's hourly count set to 0. -/
def State.hoursCleared (s : State) : State :=
  s.forEach (List.range 12) fun i s => s.forEach (List.range 32) fun c s => s.setF fdHbmcChCeHour (pgHbmc i) c 0

theorem regsOnly_hoursCleared (s : State) : regsOnly s s.hoursCleared :=
  State.forEach_keeps (P := regsOnly s)
    (fun _ _ t ht => State.forEach_keeps (P := regsOnly s) (fun _ _ u hu => hu.trans (regsOnly_setF u _ _ _ _)) t ht) s rfl

/-- A count at 0 stays at 0 where any count is set to 0. -/
theorem State.ceHour_setF_zero {s : State} {p c : Nat} (q e : Nat) (h : s.getF fdHbmcChCeHour p c = 0) :
    (s.setF fdHbmcChCeHour q e 0).getF fdHbmcChCeHour p c = 0 := by
  have hreset : ∀ page j, regReset page fdHbmcChCeHour j = 0 := fun _ _ => rfl
  by_cases hkey : descKey fdHbmcChCeHour q e = descKey fdHbmcChCeHour p c
  · simp [State.getF, State.setF, hreset, hkey]
  · rw [State.getF_setF_ne _ _ _ _ _ _ _ _ hkey, h]

theorem State.ceHour_hoursCleared (s : State) {i c : Nat} (hi : i < 12) (hc : c < 32) :
    s.hoursCleared.getF fdHbmcChCeHour (pgHbmc i) c = 0 := by
  refine State.forEach_establishes (P := fun t => t.getF fdHbmcChCeHour (pgHbmc i) c = 0) (fun t => ?_) (fun j t ht => ?_) _
    (List.mem_range.mpr hi) s
  · exact State.forEach_establishes (P := fun t => t.getF fdHbmcChCeHour (pgHbmc i) c = 0) (fun u => u.getF_setF_self _ _ _ _)
      (fun e u hu => State.ceHour_setF_zero _ e hu) _ (List.mem_range.mpr hc) t
  · exact State.forEach_keeps (P := fun t => t.getF fdHbmcChCeHour (pgHbmc i) c = 0) (fun e _ u hu => State.ceHour_setF_zero _ e hu) t ht

theorem exec_hourlyCountRoll (s : State) : ∃ keep, exec .hourlyCountRoll s =
    .next { s.hoursCleared with err := { s.hoursCleared.err with ceHour := [], prefailed := keep } } :=
  ⟨_, rfl⟩

/-- What an hourly roll leaves: register fields and error state alone differ, with every hourly count at 0. -/
def hoursRolled (s t : State) : Prop := t.err.ceHour = [] ∧ { t with regs := s.regs, err := s.err } = s ∧
  ∀ i c, i < 12 → c < 32 → t.getF fdHbmcChCeHour (pgHbmc i) c = 0

theorem hoursRolled_of_cleared {s u : State} (hregs : regsOnly s u)
    (hzero : ∀ i c, i < 12 → c < 32 → u.getF fdHbmcChCeHour (pgHbmc i) c = 0) (keep : SMap Bool) :
    hoursRolled s { u with err := { u.err with ceHour := [], prefailed := keep } } :=
  ⟨rfl, (congrArg (fun v : State => { v with err := s.err }) hregs :), hzero⟩

theorem hourlyCountRoll_spec (s : State) : Gives .hourlyCountRoll s (hoursRolled s) := by
  obtain ⟨keep, hexec⟩ := exec_hourlyCountRoll s
  exact ⟨_, hexec, hoursRolled_of_cleared (regsOnly_hoursCleared s) (fun _ _ => s.ceHour_hoursCleared) keep⟩

/-! ### Temperature (R275, R276) -/

theorem stackState_lt (was t : Nat) : stackState was t < 2 ^ fdHbmcThermState.width := by
  unfold stackState
  split_ifs <;> decide

/-- Nothing but records, the memory system's state and the count of free values differs. -/
def upkeepOnly (s u : State) : Prop := recordsOnly { s with hbm := u.hbm, freeCount := u.freeCount } u

theorem State.shownCap_frame (s : State) (quarters : Nat) : ∃ n, (s.shownCap quarters).2 = { s with freeCount := n } := by
  unfold State.shownCap
  split
  · exact ⟨_, rfl⟩
  · exact ⟨_, rfl⟩

/-- The fields that a reading shows, before the cap. -/
def State.tempShown (s : State) (page t : Nat) : State :=
  ((s.setF fdHbmcTempNow page 0 t).setF fdHbmcTempMax page 0 (max t (s.getF fdHbmcTempMax page))).setF fdHbmcThermState page 0
    (stackState (s.getF fdHbmcThermState page) t)

/-- The state that holds a reading: its fields and the cap shown, and the time since when the stack is HARD. -/
def State.tempRead (s : State) (site t : Nat) : State :=
  let page := pgHbmc site
  let was := s.getF fdHbmcThermState page
  let shown := s.tempShown page t
  let p := shown.shownCap (shown.capQuarters site)
  let u := p.2.setF fdHbmcThermCap page 0 p.1
  let since := if stackState was t = 3 then if was = 3 then mapGet 0 u.hbm.hardSince site else u.now + 1 else 0
  { u with hbm := { u.hbm with hardSince := mapPut 0 u.hbm.hardSince site since } }

theorem exec_hbmTempReading {site : SiteId} (r : Byte) {s : State} (h : s.absentPage (pgHbmc site.val) = false) :
    exec (.hbmTempReading site r) s = .next (
      if stackState (s.getF fdHbmcThermState (pgHbmc site.val)) r.toNat = s.getF fdHbmcThermState (pgHbmc site.val) then
        s.tempRead site.val r.toNat
      else (s.tempRead site.val r.toNat).event (pgHbmc site.val) 0 (some 5) 0x0110
        (stackState (s.getF fdHbmcThermState (pgHbmc site.val)) r.toNat) r.toNat) :=
  if_neg (by simp [h])

/-- A field of the stack's page other than the cap reads as the reading sets it. -/
theorem State.getF_tempRead (s : State) (site t : Nat) {d : FieldDesc} (h : fieldPlace fdHbmcThermCap 0 ≠ fieldPlace d 0) :
    (s.tempRead site t).getF d (pgHbmc site) = (s.tempShown (pgHbmc site) t).getF d (pgHbmc site) := by
  obtain ⟨n, hframe⟩ := (s.tempShown (pgHbmc site) t).shownCap_frame ((s.tempShown (pgHbmc site) t).capQuarters site)
  have hcap : (s.tempRead site t).getF d (pgHbmc site) =
      ((s.tempShown (pgHbmc site) t).shownCap ((s.tempShown (pgHbmc site) t).capQuarters site)).2.getF d (pgHbmc site) :=
    State.getF_setF_place _ _ _ h
  rw [hcap, hframe]
  rfl

theorem upkeepOnly_tempRead (s : State) (site t : Nat) : upkeepOnly s (s.tempRead site t) := by
  obtain ⟨n, hframe⟩ := (s.tempShown (pgHbmc site) t).shownCap_frame ((s.tempShown (pgHbmc site) t).capQuarters site)
  unfold upkeepOnly State.tempRead
  dsimp only
  rw [hframe]
  rfl

theorem upkeepOnly_event {s u : State} (h : upkeepOnly s u) (page unit : Nat) (cls : Option Nat) (code subject value : Nat) :
    upkeepOnly s (u.event page unit cls code subject value) := by
  have hrecords := recordsOnly_event u page unit cls code subject value
  have hframe := h.trans hrecords
  have hfree : (u.event page unit cls code subject value).freeCount = u.freeCount :=
    (congrArg State.freeCount hrecords :)
  rw [upkeepOnly, State.event_hbm, hfree]
  exact hframe

section
variable (s : State) (page t : Nat)

theorem State.getF_tempNow_tempShown (h : t < 256) : (s.tempShown page t).getF fdHbmcTempNow page = t := by
  rw [State.tempShown, State.getF_setF_place _ _ _ (by decide), State.getF_setF_place _ _ _ (by decide), State.getF_setF_self]
  exact Nat.mod_eq_of_lt h

theorem State.getF_tempMax_tempShown :
    (s.tempShown page t).getF fdHbmcTempMax page = max t (s.getF fdHbmcTempMax page) % 2 ^ fdHbmcTempMax.width := by
  rw [State.tempShown, State.getF_setF_place _ _ _ (by decide), State.getF_setF_self]

theorem State.getF_thermState_tempShown :
    (s.tempShown page t).getF fdHbmcThermState page = stackState (s.getF fdHbmcThermState page) t := by
  rw [State.tempShown, State.getF_setF_self]
  exact Nat.mod_eq_of_lt (stackState_lt _ _)

end

/-- A field of the stack's page other than the cap, and what else a reading may change, whether or not it makes an event. -/
theorem tempReading_spec {site : SiteId} {r : Byte} {s : State} (h : s.absentPage (pgHbmc site.val) = false) :
    Gives (.hbmTempReading site r) s fun t => upkeepOnly s t ∧ ∀ d, unrecorded d 0 = true →
      fieldPlace fdHbmcThermCap 0 ≠ fieldPlace d 0 →
      t.getF d (pgHbmc site.val) = (s.tempShown (pgHbmc site.val) r.toNat).getF d (pgHbmc site.val) := by
  refine ⟨_, exec_hbmTempReading r h, ?_⟩
  split
  · exact ⟨upkeepOnly_tempRead s _ _, fun d _ hcap => s.getF_tempRead _ _ hcap⟩
  · exact ⟨upkeepOnly_event (upkeepOnly_tempRead s _ _) _ _ _ _ _ _,
      fun d hrec hcap => (State.getF_event_hbmc _ _ _ _ _ _ _ _ hrec).trans (s.getF_tempRead _ _ hcap)⟩

/-! ### HARD too long (R473) -/

theorem exec_dieHard {d : DieId} {s : State} (h : s.getF fdPowerDieState pgPower d.val = 2) :
    exec (.thermalHardTimeout (.die d)) s =
      .next ((s.detect pgPower 11 { code := 0x0050, service := BitVec.ofNat 16 d.val }).orderlyStop 3) :=
  if_neg (by simp [h])

theorem exec_dieCool {d : DieId} {s : State} (h : s.getF fdPowerDieState pgPower d.val ≠ 2) :
    exec (.thermalHardTimeout (.die d)) s = .next s :=
  if_pos (by simp [h])

theorem exec_stackHard {i : SiteId} {s : State} (h : s.getF fdHbmcThermState (pgHbmc i.val) = 3) :
    exec (.thermalHardTimeout (.stack i)) s =
      .next ((s.detect (pgHbmc i.val) 11 { code := 0x0050, service := BitVec.ofNat 16 (i.val * 32) }).orderlyStop 3) :=
  if_neg (by simp [h])

theorem exec_stackCool {i : SiteId} {s : State} (h : s.getF fdHbmcThermState (pgHbmc i.val) ≠ 3) :
    exec (.thermalHardTimeout (.stack i)) s = .next s :=
  if_pos (by simp [h])

/-! ### Requests of an evacuation (R277, R279) -/

/-- The state in which a channel's evacuation is queued and recorded. -/
def State.evacQueued (s : State) (site ch : Nat) : State :=
  let s := s.setF fdHbmcChEvacPending (pgHbmc site) ch 1
  let s := { s with hbm := { s.hbm with evacQueue := s.hbm.evacQueue ++ [site * 32 + ch] }, urgentDue := true }
  s.event (pgHbmc site) 0 (some 6) 0x0111 (site * 32 + ch) 1

theorem exec_evacRequest_of_present {site : SiteId} (ch : Fin 32) {s : State} (h : s.absentPage (pgHbmc site.val) = false) :
    exec (.evacRequest site ch) s = .next (s.requestEvac site.val ch.val) :=
  if_neg (by simp [h])

section
variable {s : State} {site ch : Nat} (hservice : bitAt (s.getF fdHbmcChInService (pgHbmc site)) ch = true)
  (hqueued : s.hbm.evacQueue.contains (site * 32 + ch) = false)
  (hcopied : ¬(s.getF fdMemmapEvacBusy pgMemmap = 1 ∧ s.getF fdMemmapEvacCh pgMemmap = site * 32 + ch))
include hservice hqueued hcopied

/-- A channel in service that is neither queued nor copied is queued, or, as a ninth, asks for tray replacement. -/
theorem State.requestEvac_of_idle : s.requestEvac site ch =
    if 8 ≤ s.getF fdMemmapMapouts pgMemmap + s.hbm.evacQueue.length + s.getF fdMemmapEvacBusy pgMemmap then s.raiseSpare 2
    else (s.evacQueued site ch).detect (pgHbmc site) 5 { code := 0x0013, service := BitVec.ofNat 16 (site * 32 + ch) } := by
  have hidle : ¬ (!bitAt (s.getF fdHbmcChInService (pgHbmc site)) ch || s.hbm.evacQueue.contains (site * 32 + ch) ||
      (s.getF fdMemmapEvacBusy pgMemmap = 1 && s.getF fdMemmapEvacCh pgMemmap = site * 32 + ch)) = true := by
    rw [hservice, hqueued]
    simpa using hcopied
  exact if_neg hidle

end

theorem State.evacQueue_evacQueued (s : State) (site ch : Nat) :
    (s.evacQueued site ch).hbm.evacQueue = s.hbm.evacQueue ++ [site * 32 + ch] := by
  rw [State.evacQueued, State.event_hbm]
  rfl

theorem State.getF_evacPending_evacQueued (s : State) (site : SiteId) (ch : Fin 32) :
    (s.evacQueued site.val ch.val).getF fdHbmcChEvacPending (pgHbmc site.val) ch.val = 1 := by
  rw [State.evacQueued, State.getF_event_hbmc _ _ _ _ _ _ _ _ (unrecorded_evacPending ch)]
  exact s.getF_setF_self fdHbmcChEvacPending (pgHbmc site.val) ch.val 1

/-! ### The start of an evacuation (R277 steps 1 to 3) -/

theorem channelSize_eq : channelSize = 0x80000000 := rfl

theorem recordsOnly_lowerTop (s : State) : recordsOnly s s.lowerTop :=
  (State.forEach_keeps (P := recordsOnly s) (fun _ _ u hu => hu.trans (recordsOnly_setF u _ _ _ _)) s rfl).trans
    (recordsOnly_setF _ _ _ _ _)

theorem State.getF_top_lowerTop (s : State) : s.lowerTop.getF fdMemmapTop pgMemmap =
    (s.getF fdMemmapTop pgMemmap - channelSize) % 2 ^ fdMemmapTop.width :=
  State.getF_setF_self _ _ _ _ _

/-- The state with a channel off the queue and its mark cleared. -/
def State.evacTaken (s : State) (site ch : Nat) : State :=
  ({ s with hbm := { s.hbm with evacQueue := s.hbm.evacQueue.erase (site * 32 + ch) } } : State).setF fdHbmcChEvacPending (pgHbmc site) ch 0

/-- The state in which a channel's copy runs, before its event. -/
def State.evacCopying (s : State) (site ch : Nat) : State :=
  (((s.evacTaken site ch).lowerTop.event (pgHbmc site) 0 (some 6) 0x0111 (site * 32 + ch) 2).setF fdMemmapEvacBusy pgMemmap 0 1).setF
    fdMemmapEvacCh pgMemmap 0 (site * 32 + ch)

theorem exec_evacStart_of_free {site : SiteId} {ch : Fin 32} {s : State} (hqueued : s.hbm.evacQueue.contains (site.val * 32 + ch.val) = true)
    (hidle : s.getF fdMemmapEvacBusy pgMemmap = 0) (hfree : s.rangeFree (s.getF fdMemmapTop pgMemmap - 0x80000000) = true) :
    exec (.evacStart site ch) s =
      .next ((s.evacCopying site.val ch.val).event (pgHbmc site.val) 0 (some 6) 0x0111 (site.val * 32 + ch.val) 3) := by
  have hstart : (s.hbm.evacQueue.contains (site.val * 32 + ch.val) && s.getF fdMemmapEvacBusy pgMemmap = 0 &&
      s.rangeFree (s.getF fdMemmapTop pgMemmap - channelSize)) = true := by
    rw [hqueued, hidle, channelSize_eq, hfree]
    rfl
  exact if_pos hstart

theorem recordsOnly_evacCopying (s : State) (site ch : Nat) : recordsOnly (s.evacTaken site ch) (s.evacCopying site ch) :=
  ((recordsOnly_lowerTop _).trans (recordsOnly_event _ _ _ _ _ _ _)).trans ((recordsOnly_setF _ _ _ _ _).trans (recordsOnly_setF _ _ _ _ _))

section
variable (s : State) (site : SiteId) (ch : Fin 32)

theorem State.getF_evacCh_evacCopying : (s.evacCopying site.val ch.val).getF fdMemmapEvacCh pgMemmap = site.val * 32 + ch.val := by
  have hsite := site.isLt
  have hch := ch.isLt
  rw [State.evacCopying, State.getF_setF_self]
  exact Nat.mod_eq_of_lt (by show _ < 2 ^ 9; omega)

theorem State.getF_evacBusy_evacCopying : (s.evacCopying site.val ch.val).getF fdMemmapEvacBusy pgMemmap = 1 := by
  rw [State.evacCopying, State.getF_setF_place _ _ _ (by decide), State.getF_setF_self]
  rfl

theorem State.getF_top_evacCopying : (s.evacCopying site.val ch.val).getF fdMemmapTop pgMemmap =
    (s.getF fdMemmapTop pgMemmap - channelSize) % 2 ^ fdMemmapTop.width := by
  have htaken : (s.evacTaken site.val ch.val).getF fdMemmapTop pgMemmap = s.getF fdMemmapTop pgMemmap := by
    have hch := ch.isLt
    have hplace : fdHbmcChEvacPending.off + fdHbmcChEvacPending.stride * ch.val < 4096 := by simp only [fdHbmcChEvacPending]; omega
    exact State.getF_setF_ne _ _ _ _ _ _ _ _ (descKey_page_ne (pgHbmc_ne_memmap site) hplace (by decide) (by decide) (by decide))
  rw [State.evacCopying, State.getF_setF_place _ _ _ (by decide), State.getF_setF_place _ _ _ (by decide),
    State.getF_event_memmap _ _ _ _ _ _ _ (by decide), State.getF_top_lowerTop, htaken]

end

/-- The start of an evacuation leaves the queue without its channel, its copy shown, and TOP lower by 2 GiB. -/
theorem evacStart_spec {site : SiteId} {ch : Fin 32} {s : State} (hqueued : s.hbm.evacQueue.contains (site.val * 32 + ch.val) = true)
    (hidle : s.getF fdMemmapEvacBusy pgMemmap = 0) (hfree : s.rangeFree (s.getF fdMemmapTop pgMemmap - 0x80000000) = true) :
    Gives (.evacStart site ch) s fun t => t.hbm.evacQueue = s.hbm.evacQueue.erase (site.val * 32 + ch.val) ∧
      t.getF fdMemmapEvacBusy pgMemmap = 1 ∧ t.getF fdMemmapEvacCh pgMemmap = site.val * 32 + ch.val ∧
      t.getF fdMemmapTop pgMemmap = (s.getF fdMemmapTop pgMemmap - 0x80000000) % 2 ^ fdMemmapTop.width ∧
      recordsOnly { s with hbm := t.hbm } t := by
  refine ⟨_, exec_evacStart_of_free hqueued hidle hfree, ?_⟩
  have hrecords := (recordsOnly_evacCopying s site.val ch.val).trans
    (recordsOnly_event _ (pgHbmc site.val) 0 (some 6) 0x0111 (site.val * 32 + ch.val) 3)
  have hhbm := congrArg State.hbm hrecords
  refine ⟨congrArg HbmState.evacQueue hhbm, ?_, ?_, ?_, ?_⟩
  · rw [State.getF_event_memmap _ _ _ _ _ _ _ (by decide), State.getF_evacBusy_evacCopying]
  · rw [State.getF_event_memmap _ _ _ _ _ _ _ (by decide), State.getF_evacCh_evacCopying]
  · rw [State.getF_event_memmap _ _ _ _ _ _ _ (by decide), State.getF_top_evacCopying, channelSize_eq]
  · have htaken : recordsOnly { s with hbm := (s.evacTaken site.val ch.val).hbm } (s.evacTaken site.val ch.val) := rfl
    have hall := htaken.trans hrecords
    rw [← hhbm] at hall
    exact hall

/-! ### The end of an evacuation (R277 step 4) -/

/-- The state in which a channel has left service. -/
def State.channelOut (s : State) (site ch : Nat) : State :=
  let page := pgHbmc site
  let s := s.setF fdHbmcChInService page 0 (putBits (s.getF fdHbmcChInService page) ch ch 0)
  let s := ((s.addF fdMemmapMapouts pgMemmap 0 1).setF fdMemmapEvacBusy pgMemmap 0 0).event page 0 (some 6) 0x0111 (site * 32 + ch) 4
  { s with hbm := { s.hbm with mappedOut := s.hbm.mappedOut ++ [site * 32 + ch] } }

theorem exec_evacCopyDone_of_busy {site : SiteId} {ch : Fin 32} {s : State} (hbusy : s.getF fdMemmapEvacBusy pgMemmap = 1)
    (hch : s.getF fdMemmapEvacCh pgMemmap = site.val * 32 + ch.val) : exec (.evacCopyDone site ch) s =
      .next (if 6 ≤ (s.channelOut site.val ch.val).getF fdMemmapMapouts pgMemmap then (s.channelOut site.val ch.val).raiseSpare 1
        else s.channelOut site.val ch.val) :=
  if_pos (by simp [hbusy, hch])

section
variable (s : State) (site : SiteId) (ch : Fin 32)

theorem State.inService_channelOut : bitAt ((s.channelOut site.val ch.val).getF fdHbmcChInService (pgHbmc site.val)) ch.val = false := by
  have hpage : pgMemmap ≠ pgHbmc site.val := (pgHbmc_ne_memmap site).symm
  have hfield : (s.channelOut site.val ch.val).getF fdHbmcChInService (pgHbmc site.val) =
      putBits (s.getF fdHbmcChInService (pgHbmc site.val)) ch.val ch.val 0 % 2 ^ fdHbmcChInService.width := by
    refine (State.getF_event_hbmc _ _ _ _ _ _ _ _ (by decide)).trans ?_
    rw [State.getF_setF_ne _ _ _ _ _ _ _ _ (descKey_page_ne hpage (by decide) (by decide) (by decide) (by decide)), State.addF,
      State.getF_setF_ne _ _ _ _ _ _ _ _ (descKey_page_ne hpage (by decide) (by decide) (by decide) (by decide)), State.getF_setF_self]
  rw [hfield]
  exact bitAt_putBits_mod _ false ch.isLt

theorem State.getF_evacBusy_channelOut : (s.channelOut site.val ch.val).getF fdMemmapEvacBusy pgMemmap = 0 :=
  (State.getF_event_memmap _ _ _ _ _ _ _ (by decide)).trans (State.getF_setF_self _ _ _ _ _)

theorem State.mappedOut_channelOut : (s.channelOut site.val ch.val).hbm.mappedOut = s.hbm.mappedOut ++ [site.val * 32 + ch.val] := by
  simp only [State.channelOut, State.event_hbm]
  rfl

end

/-- Settles O30: each row is one rule above, and its fields are apart from those in which records and the spare state count. -/
theorem stackUpkeep : Obligations.StackUpkeep := by
  unfold Obligations.StackUpkeep
  refine ⟨fun site off s => ?_, hourlyCountRoll_spec, fun site r s hpresent => ?_, fun d s => ?_, fun i s => ?_, ?_⟩
  · exact ⟨rfl, ⟨_, rfl, rfl⟩, fun hclean => ⟨_, exec_patrolScrub_of_clean site hclean, rfl⟩, fun hpoisoned => if_pos hpoisoned⟩
  · obtain ⟨t, hexec, hframe, hfield⟩ := tempReading_spec (r := r) hpresent
    refine ⟨t, hexec, ?_, ?_, ?_, hframe⟩
    · rw [hfield _ (by decide) (by decide), State.getF_tempNow_tempShown _ _ _ r.isLt]
    · rw [hfield _ (by decide) (by decide), State.getF_tempMax_tempShown]
    · rw [hfield _ (by decide) (by decide), State.getF_thermState_tempShown]
  · exact ⟨fun hhard => ⟨_, exec_dieHard hhard, rfl⟩, fun hcool => exec_dieCool hcool⟩
  · exact ⟨fun hhard => ⟨_, exec_stackHard hhard, rfl⟩, fun hcool => exec_stackCool hcool⟩
  · rintro site ch s key rfl hpresent
    refine ⟨fun hservice hqueued hcopied => ⟨fun hroom => ?_, fun hfull => ?_⟩, fun hqueued hidle hfree =>
      evacStart_spec hqueued hidle hfree, fun hbusy hch => ?_, fun lane => ⟨rfl, ?_⟩⟩
    · refine ⟨_, exec_evacRequest_of_present ch hpresent, s.evacQueued site.val ch.val, ?_, s.evacQueue_evacQueued _ _,
        s.getF_evacPending_evacQueued site ch⟩
      rw [State.requestEvac_of_idle hservice hqueued hcopied, if_neg (not_le.mpr hroom)]
    · refine ⟨_, exec_evacRequest_of_present ch hpresent, ?_⟩
      rw [State.requestEvac_of_idle hservice hqueued hcopied, if_pos hfull]
    · refine ⟨_, exec_evacCopyDone_of_busy hbusy hch, ?_⟩
      have hservice := s.inService_channelOut site ch
      have hdone := s.getF_evacBusy_channelOut site ch
      have hout := s.mappedOut_channelOut site ch
      split
      · beta_reduce
        rw [State.getF_raiseSpare_page _ _ (pgErragg_ne_hbmc site) (by decide), State.getF_raiseSpare_page _ _ (by decide) (by decide),
          State.hbm_raiseSpare]
        exact ⟨hservice, hdone, hout⟩
      · exact ⟨hservice, hdone, hout⟩
    · exact ⟨_, if_neg (by simp [hpresent]), rfl⟩

end Sys2Proof.Machine
end

section
/-! SUPPORT. Stores that carry a command's operands in its own word, and what the commands of the other pages do (R300, R362, R441, R471,
R534, R535). -/
namespace Sys2Proof.Machine

/-! ### A command and the operands in its word -/

/-- Writes of fields that hold the value stored and do nothing else. -/
def State.onlyHold (s : State) (page : Nat) (ws : List FieldWrite) : Prop :=
  ∀ w ∈ ws, valueField w.d = true ∧ ∀ t : State, t.act s page w = t

/-- The operands in a command's word take their values, and the command, a W1S field, then acts (R13). -/
theorem State.storePage_operands {s : State} {a : Agent} {page off size v : Nat} {pre : List FieldWrite} {w : FieldWrite}
    (h : s.storeTaken a page off size v (pre ++ [w])) (hpre : s.onlyHold page pre) (hw : w.d.acc = .w1s) :
    s.storePage a page off size v = (s.putAll page pre).act s page w := by
  simp only [State.storePage_taken h, State.forEach_append, State.forEach_cons, State.forEach_nil]
  rw [State.forEach_putField_of_value s page fun x hx => (hpre x hx).1, State.putField_of_w1s _ _ _ hw,
    State.forEach_congr fun x hx => (hpre x hx).2, State.forEach_id]

/-- Operands leave a field at another place alone. -/
theorem State.getF_putAll_place {e : FieldDesc} {j : Nat} (page : Nat) {ws : List FieldWrite}
    (h : ∀ w ∈ ws, fieldPlace w.d w.i ≠ fieldPlace e j) (s : State) : (s.putAll page ws).getF e page j = s.getF e page j :=
  State.forEach_keeps (P := fun t => t.getF e page j = s.getF e page j)
    (fun w hw t ht => (t.getF_setF_place page w.v (h w hw)).trans ht) s rfl

theorem blockInstance_pgPort (p : PortId) : blockInstance (pgPort p.val) = p.val := by
  revert p
  decide

/-! ### Freezing and thawing (R534) -/

/-- A write of FREEZE leaves the block as it says, and changes records only. -/
theorem State.freezeWrite_spec (s : State) (page : Nat) (on : Bool) :
    (if on then s.freezeRings page 0 else s.thawRings page).frozen page = on ∧
      recordsOnly s (if on then s.freezeRings page 0 else s.thawRings page) := by
  cases on with
  | true =>
    simp only [if_true, State.freezeRings]
    split
    · next hfrozen => exact ⟨hfrozen, rfl⟩
    · refine ⟨?_, (recordsOnly_event _ _ _ _ _ _ _).trans (recordsOnly_setF _ _ _ _ _)⟩
      rw [State.frozen, State.getF_setF_self]
      rfl
  | false =>
    simp only [Bool.false_eq_true, if_false, State.thawRings]
    split
    · refine ⟨?_, (recordsOnly_setF _ _ _ _ _).trans (recordsOnly_event _ _ _ _ _ _ _)⟩
      have hoff : offRecords page fdEvrEvrFreeze page 0 := by
        simp only [offRecords, descKey, fieldKey, fdEvrEvrLost, fdEvrEvrFreeze, fdSchedLogSeq, fdObsCtrHead, fdObsNtraceHead, pgSched, pgObs]
        refine ⟨?_, ?_, fun c hc => ?_, ?_⟩ <;> omega
      rw [State.frozen, State.getF_event _ _ _ _ _ _ _ _ _ _ hoff, State.getF_setF_self]
      rfl
    · next hthawed => exact ⟨Bool.not_eq_true _ ▸ hthawed, rfl⟩

/-! ### Snapshots (R535) -/

/-- A thaw leaves snapshots alone. -/
theorem recordsOnly_thawRings (s : State) (page : Nat) : recordsOnly s (s.thawRings page) := (s.freezeWrite_spec page false).2

/-- The release of a held snapshot discards its records and its pages. -/
theorem State.releaseSnapshot_of_held {s : State} (h : s.getF fdObsSnapHeld pgObs = 1) :
    s.releaseSnapshot.snaps = [] ∧ s.releaseSnapshot.snapPages = [] ∧ s.releaseSnapshot.getF fdObsSnapHeld pgObs = 0 := by
  have hthaw : recordsOnly { s with snaps := [], snapPages := [] }
      (State.forEach { s with snaps := [], snapPages := [] } s.snapPages fun p t => t.thawRings p) :=
    State.forEach_keeps (P := recordsOnly { s with snaps := [], snapPages := [] })
      (fun p _ t ht => ht.trans (recordsOnly_thawRings t p)) _ rfl
  rw [State.releaseSnapshot, if_neg (by simp [h])]
  refine ⟨congrArg State.snaps hthaw, congrArg State.snapPages hthaw, State.getF_setF_self _ _ _ _ _⟩

end Sys2Proof.Machine
end

section
/-! PROOFS. What commands through the other pages do (spec/22_register_pages.md). -/
namespace Sys2Proof.Machine

/-- A commanded swap (R300): its circuit is set, and the port swaps it. -/
theorem exec_swapGo_of_taken {a : Agent} {p : PortId} {v : BitVec 32} {s : State} {pre : List FieldWrite}
    (h : s.storeTaken a (pgPort p.val) 0x124 4 v.toNat (pre ++ [⟨fdPortSwapGo, 0, 1⟩])) (hpre : ∀ w ∈ pre, w.d = fdPortSwapCircuit) :
    exec (.swapGo a p v) s = .next ((s.putAll (pgPort p.val) pre).swapGo p.val).finish := by
  have hstore : s.storePage a (pgPort p.val) 0x124 4 v.toNat = (s.putAll (pgPort p.val) pre).swapGo p.val :=
    (State.storePage_operands h (fun w hw => by obtain ⟨d, i, x⟩ := w; cases hpre _ hw; exact ⟨rfl, fun t => rfl⟩) rfl).trans
      (congrArg (s.putAll (pgPort p.val) pre).swapGo (blockInstance_pgPort p))
  rw [← hstore]
  rfl

/-- A comparator's slot and action are set, and it is armed (R362). -/
theorem exec_relArm_of_taken {a : Agent} {k : Fin 32} {v : Word} {s : State} {pre : List FieldWrite}
    (h : s.storeTaken a pgFtime (0x408 + 64 * k.val) 8 v.toNat (pre ++ [⟨fdFtimeRelArm, k.val, 1⟩]))
    (hpre : ∀ w ∈ pre, (w.d = fdFtimeRelSlot ∨ w.d = fdFtimeRelAction) ∧ w.i = k.val) :
    exec (.relArm a k v) s = .next ((s.putAll pgFtime pre).armRel k.val).finish := by
  have hstore : s.storePage a pgFtime (0x408 + 64 * k.val) 8 v.toNat = (s.putAll pgFtime pre).armRel k.val :=
    State.storePage_operands h
      (fun w hw => by obtain ⟨d, i, x⟩ := w; obtain ⟨hd | hd, -⟩ := hpre _ hw <;> cases hd <;> exact ⟨rfl, fun t => rfl⟩) rfl
  rw [← hstore]
  rfl

/-- The comparator's operands move neither its time nor the present. -/
theorem State.armRel_operands {s : State} {k : Fin 32} {pre : List FieldWrite}
    (hpre : ∀ w ∈ pre, (w.d = fdFtimeRelSlot ∨ w.d = fdFtimeRelAction) ∧ w.i = k.val)
    (htime : s.now ≤ s.getF fdFtimeRelTime pgFtime k.val) :
    (s.putAll pgFtime pre).armRel k.val = (s.putAll pgFtime pre).setF fdFtimeRelArm pgFtime k.val 1 := by
  have hplace : ∀ w ∈ pre, fieldPlace w.d w.i ≠ fieldPlace fdFtimeRelTime k.val ∧ fieldPlace w.d w.i ≠ fieldPlace fdFtimeNow 0 := by
    intro w hw
    obtain ⟨hd | hd, hi⟩ := hpre w hw <;> rw [hd, hi] <;>
      simp only [fieldPlace, fdFtimeRelSlot, fdFtimeRelAction, fdFtimeRelTime, fdFtimeNow] <;> omega
  rw [State.armRel, State.now, State.getF_putAll_place _ fun w hw => (hplace w hw).1,
    State.getF_putAll_place _ fun w hw => (hplace w hw).2]
  exact if_neg (not_lt.mpr htime)

theorem exec_errInjectGo_of_taken {a : Agent} {page : BitVec 20} {v : BitVec 32} {s : State} {pre : List FieldWrite}
    (h : s.storeTaken a page.toNat 0x02C 4 v.toNat (pre ++ [⟨fdErrErrInjectGo, 0, 1⟩])) (hpre : ∀ w ∈ pre, w.d = fdErrErrInjectSource) :
    exec (.errInjectGo a page v) s =
      .next (((s.putAll page.toNat pre).setF fdErrErrInjectGo page.toNat 0 1).injectError page.toNat).finish := by
  have hstore : s.storePage a page.toNat 0x02C 4 v.toNat =
      ((s.putAll page.toNat pre).setF fdErrErrInjectGo page.toNat 0 1).injectError page.toNat :=
    State.storePage_operands h (fun w hw => by obtain ⟨d, i, x⟩ := w; cases hpre _ hw; exact ⟨rfl, fun t => rfl⟩) rfl
  rw [← hstore]
  rfl

/-- DEEP that nothing refuses starts the entry, where neither it nor an exit has begun (R471). -/
theorem exec_deep_of_taken {a : Agent} {s : State} (h : s.storeTaken a pgPower 0x13C 4 1 [⟨fdPowerIdleCmd, 0, 1⟩])
    (hidle : s.getF fdPowerIdleState pgPower < 2) : exec (.deep a) s = .next (s.setF fdPowerIdleState pgPower 0 2).finish := by
  obtain ⟨-, -, -, -, -, hjudge⟩ := id h
  have hallowed : s.deepCmd.isNone = false := State.refusesWrite_of_judge hjudge (List.mem_singleton.mpr rfl)
  have hcmd : s.deepCmd = some (s.setF fdPowerIdleState pgPower 0 2) := by
    unfold State.deepCmd at hallowed ⊢
    split at hallowed
    · cases hallowed
    · next hclosed => rw [if_neg hclosed, if_neg (not_le.mpr hidle)]
  have hstore : s.storePage a pgPower 0x13C 4 1 = s.setF fdPowerIdleState pgPower 0 2 := by
    rw [State.storePage_taken_one h, State.putField_of_command _ _ _ (by decide)]
    exact congrArg (·.getD s) hcmd
  rw [← hstore]
  rfl

theorem exec_idleWake_of_taken {a : Agent} {s : State} (h : s.storeTaken a pgPower 0x13C 4 2 [⟨fdPowerIdleCmd, 0, 2⟩]) :
    exec (.idleWake a) s = .next s.leaveDeep.finish := by
  have hstore : s.storePage a pgPower 0x13C 4 2 = s.leaveDeep := by
    rw [State.storePage_taken_one h, State.putField_of_command _ _ _ (by decide)]
    rfl
  rw [← hstore]
  rfl

theorem exec_evrFreeze_of_taken {a : Agent} {page : BitVec 20} {on : Bool} {s : State}
    (h : s.storeTaken a page.toNat 0x080 4 (s.bitWord page.toNat 0x080 16 on) [⟨fdEvrEvrFreeze, 0, on.toNat⟩]) :
    exec (.evrFreeze a page on) s = .next (if on then s.freezeRings page.toNat 0 else s.thawRings page.toNat).finish := by
  have hstore : s.storeBit a page.toNat 0x080 16 on = if on then s.freezeRings page.toNat 0 else s.thawRings page.toNat := by
    rw [State.storeBit_taken_one h, State.putField_of_command _ _ _ rfl]
    cases on <;> rfl
  rw [← hstore]
  rfl

theorem exec_snapArm_of_taken {a : Agent} {v : BitVec 32} {s : State} {pre : List FieldWrite}
    (h : s.storeTaken a pgObs 0x118 4 v.toNat (pre ++ [⟨fdObsSnapArm, 0, 1⟩])) (hpre : ∀ w ∈ pre, w.d = fdObsSnapDies) :
    exec (.snapArm a v) s = .next (s.putAll pgObs pre).snapArm.finish := by
  have hstore : s.storePage a pgObs 0x118 4 v.toNat = (s.putAll pgObs pre).snapArm :=
    State.storePage_operands h (fun w hw => by obtain ⟨d, i, x⟩ := w; cases hpre _ hw; exact ⟨rfl, fun t => rfl⟩) rfl
  rw [← hstore]
  rfl

/-- A snapshot whose time is to come is armed alone: what it is armed with moves neither its time nor the present. -/
theorem State.snapArm_operands {s : State} {pre : List FieldWrite} (hpre : ∀ w ∈ pre, w.d = fdObsSnapDies)
    (htime : s.now < s.getF fdObsSnapTime pgObs) :
    (s.putAll pgObs pre).snapArm = (s.putAll pgObs pre).setF fdObsSnapArm pgObs 0 1 := by
  have hplace : ∀ w ∈ pre, fieldPlace w.d w.i ≠ fieldPlace fdObsSnapTime 0 := by
    intro w hw
    rw [hpre w hw]
    simp only [fieldPlace, fdObsSnapDies, fdObsSnapTime]
    omega
  have hnow : (s.putAll pgObs pre).now = s.now :=
    State.forEach_keeps (P := fun t => t.now = s.now)
      (fun w hw t ht => (State.getF_setF_ne _ _ _ _ _ _ _ _ (by
        rw [hpre w hw]
        simp only [descKey, fieldKey, fdObsSnapDies, fdFtimeNow, pgObs, pgFtime]
        omega)).trans ht) s rfl
  have hlater : ¬ ((s.putAll pgObs pre).setF fdObsSnapArm pgObs 0 1).getF fdObsSnapTime pgObs ≤
      ((s.putAll pgObs pre).setF fdObsSnapArm pgObs 0 1).now := by
    rw [State.getF_setF_place _ _ _ (by decide), State.getF_putAll_place _ hplace, State.now,
      State.getF_setF_ne _ _ _ _ _ _ _ _ (by decide)]
    exact not_le.mpr (lt_of_eq_of_lt hnow htime)
  exact if_neg hlater

theorem exec_snapRelease_of_taken {a : Agent} {s : State}
    (h : s.storeTaken a pgObs 0x118 4 (s.bitWord pgObs 0x118 10 true) [⟨fdObsSnapRelease, 0, 1⟩]) :
    exec (.snapRelease a) s = .next s.releaseSnapshot.finish := by
  have hstore : s.storeBit a pgObs 0x118 10 true = s.releaseSnapshot := by
    rw [State.storeBit_taken_one h, State.putField_of_w1s _ _ _ rfl]
    rfl
  rw [← hstore]
  rfl

/-- Settles O13: each command's store is its operands' values and then the command's own act. -/
theorem commandStores : Obligations.CommandStores := by
  unfold Obligations.CommandStores
  refine ⟨?_, ?_, ?_, fun a s h hidle => ?_, fun a s h => ⟨fun hdeep => ?_, fun hentering => ?_⟩, fun a page on s h => ?_, ?_,
    fun a s h hheld => ?_⟩
  · rintro a p v s s' pre h hpre rfl hup
    rw [exec_swapGo_of_taken h hpre, State.swapGo, if_pos hup]
  · rintro a k v s s' pre h hpre rfl htime
    refine ⟨_, exec_relArm_of_taken h hpre, ?_⟩
    rw [State.armRel_operands hpre htime]
    exact ⟨fieldOnly_setF _ fdFtimeRelArm _ _ 1, (regsOnly_putAll _ _ s).trans (regsOnly_setF _ _ _ _ _)⟩
  · rintro a page v s s' pre h hpre rfl
    rw [exec_errInjectGo_of_taken h hpre, State.injectError, State.getF_setF_place _ _ _ (by decide)]
  · exact ⟨_, exec_deep_of_taken h hidle, fieldOnly_setF s fdPowerIdleState pgPower 0 2, regsOnly_setF _ _ _ _ _⟩
  · refine ⟨_, exec_idleWake_of_taken h, ?_⟩
    rw [State.leaveDeep, if_pos (by simpa [State.inDeep] using hdeep)]
    exact ⟨rfl, rfl⟩
  · refine ⟨_, exec_idleWake_of_taken h, ?_⟩
    rw [State.leaveDeep, if_neg (by simp [State.inDeep, hentering]), if_pos hentering]
    exact ⟨fieldOnly_setF s fdPowerIdleState pgPower 0 0, regsOnly_setF _ _ _ _ _⟩
  · exact ⟨_, exec_evrFreeze_of_taken h, s.freezeWrite_spec page.toNat on⟩
  · rintro a v s s' pre h hpre rfl htime
    refine ⟨_, exec_snapArm_of_taken h hpre, ?_⟩
    rw [State.snapArm_operands hpre htime]
    exact ⟨fieldOnly_setF _ fdObsSnapArm _ _ 1, (regsOnly_putAll _ _ s).trans (regsOnly_setF _ _ _ _ _)⟩
  · exact ⟨_, exec_snapRelease_of_taken h, State.releaseSnapshot_of_held hheld⟩

end Sys2Proof.Machine
end

section
/-! SUPPORT. Rules of the ports' pages: a change of `PORT.STATE` moves flows and lets fabric time look again, and keeps every field of a
port's page in which nothing is counted (R289, R294–R303, R354). -/
namespace Sys2Proof.Machine

/-! ### Fields of the PORT pages -/

/-- Fields at different places inside their pages are apart, on whichever pages they stand. -/
theorem descKey_places_ne {d e : FieldDesc} {p q i j : Nat} (hd : d.off + d.stride * i < 4096 ∧ d.lsb < 64)
    (he : e.off + e.stride * j < 4096 ∧ e.lsb < 64) (h : fieldPlace d i ≠ fieldPlace e j) : descKey d p i ≠ descKey e q j := by
  simp only [fieldPlace] at h
  simp only [descKey, fieldKey]
  omega

/-- A field of a port's page in which nothing is counted: neither lost events nor lost packets. -/
def portField (d : FieldDesc) (i : Nat) : Bool := unrecorded d i && fieldPlace fdPortLost 0 ≠ fieldPlace d i

/-- Ports' fields read as before. -/
def samePorts (r s : State) : Prop :=
  ∀ (p : PortId) (d : FieldDesc) (i : Nat), portField d i = true → s.getF d (pgPort p.val) i = r.getF d (pgPort p.val) i

variable {r s t : State}

theorem samePorts.refl : samePorts s s := fun _ _ _ _ => rfl

/-- An update of parts other than registers. -/
theorem samePorts.same (h : samePorts r s) (hregs : t.regs = s.regs) : samePorts r t := fun p d i hd =>
  (congrArg (fun m => mapGet (regReset (pgPort p.val) d i) m (descKey d (pgPort p.val) i)) hregs).trans (h p d i hd)

theorem samePorts.ite {c : Prop} {_ : Decidable c} (hs : samePorts r s) (ht : samePorts r t) : samePorts r (if c then s else t) := by
  split
  · exact hs
  · exact ht

theorem samePorts.forEach {α : Type} {l : List α} {g : α → State → State} (h : samePorts r s)
    (hg : ∀ x ∈ l, ∀ u, samePorts r u → samePorts r (g x u)) : samePorts r (s.forEach l g) :=
  State.forEach_keeps hg s h

theorem portField_inside {d : FieldDesc} {i : Nat} (h : portField d i = true) :
    (d.off + d.stride * i < 4096 ∧ d.lsb < 64) ∧ fieldPlace fdPortLost 0 ≠ fieldPlace d i := by
  simp only [portField, unrecorded, Bool.and_eq_true, decide_eq_true_eq] at h
  obtain ⟨⟨hinside, -⟩, hlost⟩ := h
  exact ⟨hinside, hlost⟩

/-- A field set on a page that is no port's. -/
theorem samePorts.setF_page {e : FieldDesc} {q j v : Nat} (h : samePorts r s) (hq : q < pgPort 0)
    (he : e.off + e.stride * j < 4096 ∧ e.lsb < 64) : samePorts r (s.setF e q j v) := fun p d i hd => by
  obtain ⟨⟨hoff, hlsb⟩, -⟩ := portField_inside hd
  have hpage : q ≠ pgPort p.val := by simp only [pgPort] at hq ⊢; omega
  exact (State.getF_setF_ne _ _ _ _ _ _ _ _ (descKey_page_ne hpage he.1 he.2 hoff hlsb)).trans (h p d i hd)

/-- Lost packets counted on the page of any port. -/
theorem samePorts.addLost {q n : Nat} (h : samePorts r s) : samePorts r (s.addF fdPortLost q 0 n) := fun p d i hd => by
  obtain ⟨hinside, hlost⟩ := portField_inside hd
  exact (State.getF_setF_ne _ _ _ _ _ _ _ _ (descKey_places_ne (by decide) hinside hlost)).trans (h p d i hd)

theorem offRecords_port {d : FieldDesc} {i : Nat} (page : Nat) (p : PortId) (h : portField d i = true) :
    offRecords page d (pgPort p.val) i := by
  have hp := p.isLt
  simp only [portField, Bool.and_eq_true] at h
  obtain ⟨hrec, -⟩ := h
  refine offRecords_of_other_page page ?_ ?_ hrec <;> simp only [pgPort, pgSched, pgObs] <;> omega

theorem samePorts.event {page unit : Nat} {cls : Option Nat} {code subject value : Nat} (h : samePorts r s) :
    samePorts r (s.event page unit cls code subject value) := fun p d i hd =>
  (s.getF_event _ _ _ _ _ _ _ _ _ (offRecords_port page p hd)).trans (h p d i hd)

theorem samePorts.traceOut {o : Option Nat} {x : TraceRec} (h : samePorts r s) (ho : ∀ c, o = some c → c < 16) :
    samePorts r (s.traceOut o x) := fun p d i hd => by
  obtain ⟨-, -, hctx, hnode⟩ := offRecords_port 0 p hd
  exact (s.getF_traceOut o x d _ i ho hctx hnode).trans (h p d i hd)

/-! ### Fabric time looks again (R354, R542) -/

theorem samePorts.syncRecord (h : samePorts r s) : samePorts r s.syncRecord :=
  samePorts.traceOut (o := none)
    (h.forEach fun c hc _ hu => hu.traceOut (o := some c) fun b hb => by cases hb; exact List.mem_range.mp hc) fun _ hc => nomatch hc

theorem samePorts.setFt {v : Nat} (h : samePorts r s) : samePorts r (s.setFt v) := by
  unfold State.setFt
  extract_lets old s1 held s2 s3 steady s4
  have h1 : samePorts r s1 := h.setF_page (by decide) (by decide)
  have h2 : samePorts r s2 := .ite (h1.same rfl) h1
  have h3 : samePorts r s3 := .ite (h2.setF_page (e := fdFtimeHoldoverMs) (q := pgFtime) (j := 0) (by decide) (by decide)) h2
  have h4 : samePorts r s4 := h3.same rfl
  exact .ite h h4.event.syncRecord

theorem samePorts.timePorts (h : samePorts r s) : samePorts r s.timePorts := .ite h.setFt h

/-! ### Flows move (R289, R290) -/

theorem samePorts.moveFlows {q : Nat} (h : samePorts r s) : samePorts r (s.moveFlows q) :=
  .ite (h.same rfl) (samePorts.addLost (h.same rfl))

theorem samePorts.moveBack {q : Nat} (h : samePorts r s) : samePorts r (s.moveBack q) := .ite (h.same rfl) h

/-! ### A change of a port's state (R294–R303) -/

/-- A port's state and the cause of it set. -/
def State.putPortState (s : State) (p st cause : Nat) : State :=
  (s.setF fdPortState (pgPort p) 0 st).setF fdPortDownCause (pgPort p) 0 cause

/-- A change of a port's state sets the state and its cause, and keeps every other field of the ports. -/
theorem samePorts_setPortState {p st cause : Nat} (h : ¬ ((s.portState p = st && s.getF fdPortDownCause (pgPort p) = cause) = true)) :
    samePorts (s.putPortState p st cause) (s.setPortState p st cause) := by
  unfold State.setPortState
  rw [if_neg h]
  extract_lets was s1 s2 s3 s4 s5
  have h2 : samePorts (s.putPortState p st cause) s2 := samePorts.event .refl
  have h3 : samePorts (s.putPortState p st cause) s3 := .ite h2.moveFlows h2
  have h4 : samePorts (s.putPortState p st cause) s4 := .ite (h3.same rfl) h3
  have h5 : samePorts (s.putPortState p st cause) s5 := .ite h4.moveBack h4
  exact h5.timePorts

theorem State.portState_setPortState (s : State) (p : PortId) {st : Nat} (cause : Nat) (hst : st < 16) :
    (s.setPortState p.val st cause).portState p.val = st := by
  by_cases h : (s.portState p.val = st && s.getF fdPortDownCause (pgPort p.val) = cause) = true
  · rw [State.setPortState, if_pos h]
    simp only [Bool.and_eq_true, decide_eq_true_eq] at h
    exact h.1
  · rw [State.portState, samePorts_setPortState h p fdPortState 0 (by decide), State.putPortState,
      State.getF_setF_place _ _ _ (by decide), State.getF_setF_self]
    exact Nat.mod_eq_of_lt hst

theorem State.getF_setPortState (s : State) (p : PortId) {d : FieldDesc} {i : Nat} (st cause : Nat) (hd : portField d i = true)
    (hstate : fieldPlace fdPortState 0 ≠ fieldPlace d i) (hcause : fieldPlace fdPortDownCause 0 ≠ fieldPlace d i) :
    (s.setPortState p.val st cause).getF d (pgPort p.val) i = s.getF d (pgPort p.val) i := by
  by_cases h : (s.portState p.val = st && s.getF fdPortDownCause (pgPort p.val) = cause) = true
  · rw [State.setPortState, if_pos h]
  · rw [samePorts_setPortState h p d i hd, State.putPortState, State.getF_setF_place _ _ _ hcause, State.getF_setF_place _ _ _ hstate]

end Sys2Proof.Machine
end

section
/-! PROOFS. The life of a port: swaps, escalation, training, comb sources, identity and delay (spec/11_optical_ports.md). -/
namespace Sys2Proof.Machine

variable {s : State} {p : PortId}

/-! ### Lane swaps (R300, R301) -/

section
variable {dir : Direction} {circuits : Nat} (hup : s.portUp p.val = true)
  (hnew : ((circuitsOf circuits).filter fun c => !bitAt (s.getF (fdFailed dir) (pgPort p.val)) c) ≠ [])
include hup hnew

theorem State.portState_startSwap
    (hspares : ((circuitsOf circuits).filter fun c => !bitAt (s.getF (fdFailed dir) (pgPort p.val)) c).length ≤
      s.getF (fdSpares dir) (pgPort p.val)) : (s.startSwap p.val dir circuits).portState p.val = psSwapping := by
  unfold State.startSwap
  dsimp only
  rw [if_neg (by simpa [hup] using hnew), if_neg (not_lt.mpr hspares)]
  exact State.portState_setPortState _ _ _ (by decide)

theorem State.startSwap_of_noSpare
    (hspares : s.getF (fdSpares dir) (pgPort p.val) <
      ((circuitsOf circuits).filter fun c => !bitAt (s.getF (fdFailed dir) (pgPort p.val)) c).length) :
    s.startSwap p.val dir circuits = s.portDown p.val 1 := by
  unfold State.startSwap
  dsimp only
  rw [if_neg (by simpa [hup] using hnew), if_pos hspares]

end

/-- The swap of a direction that is in progress. -/
def PortLink.swaps (l : PortLink) : Direction → Bool
  | .tx => l.swapTx
  | .rx => l.swapRx

/-- The port is UP again once the last swap has ended. -/
theorem State.portState_endSwap_last {dir : Direction} (hstate : s.portState p.val = psSwapping)
    (hon : (s.port p.val).swaps dir = true) (hoff : ∀ e, e ≠ dir → (s.port p.val).swaps e = false) :
    (s.endSwap p.val dir).portState p.val = psUp := by
  cases dir with
  | tx =>
    have hrx : (s.port p.val).swapRx = false := hoff .rx (by decide)
    have htx : (s.port p.val).swapTx = true := hon
    simp only [State.endSwap, hstate, htx, hrx]
    exact State.portState_setPortState _ p 0 (by decide)
  | rx =>
    have htx : (s.port p.val).swapTx = false := hoff .tx (by decide)
    have hrx : (s.port p.val).swapRx = true := hon
    simp only [State.endSwap, hstate, htx, hrx]
    exact State.portState_setPortState _ p 0 (by decide)

/-- A receive swap that ends while the transmit one goes on leaves the port SWAPPING. -/
theorem State.endSwap_rx_first (hstate : s.portState p.val = psSwapping) (hrx : (s.port p.val).swapRx = true)
    (htx : (s.port p.val).swapTx = true) :
    ((s.endSwap p.val .rx).port p.val).swapRx = false ∧ ((s.endSwap p.val .rx).port p.val).swapTx = true ∧
      (s.endSwap p.val .rx).portState p.val = psSwapping := by
  have hend : s.endSwap p.val .rx =
      ((s.setPort p.val { s.port p.val with fresh := false, cursor := 0, swapRx := false, maskRx := 0 }).count (pgPort p.val) 7 1).event
        (pgPort p.val) 0 (some 6) 0x0121 1 (s.port p.val).maskRx := by
    simp [State.endSwap, hstate, htx, hrx]
  rw [hend, State.port_event, State.count, State.port_addF, State.port_setPort_self]
  refine ⟨rfl, htx, ?_⟩
  rw [State.portState, State.getF_event _ _ _ _ _ _ _ _ _ _ (offRecords_port _ p (by decide)), State.getF_addF_place _ _ _ (by decide)]
  exact hstate

/-- A swap that asks for no circuit does nothing. -/
theorem State.askSwap_zero (s : State) (q : Nat) : s.askSwap q 0 = s := by simp [State.askSwap]

/-- With no circuit above the threshold a window only starts its counts anew (R293). -/
theorem exec_laneErrorWindow_of_quiet {corrected : List Nat} (hthresh : s.getF fdPortSwapThresh (pgPort p.val) ≠ 0)
    (hquiet : ∀ c, c < 18 →
      mapGet 0 (s.port p.val).corrected c + corrected.getD c 0 ≤ s.getF fdPortSwapThresh (pgPort p.val)) :
    exec (.laneErrorWindow p corrected) s = .next (s.setPort p.val { s.port p.val with corrected := [] }).finish := by
  have hnoisy : ((List.range 18).filter fun c =>
      s.getF fdPortSwapThresh (pgPort p.val) < mapGet 0 (s.port p.val).corrected c + corrected.getD c 0) = [] :=
    List.filter_eq_nil_iff.mpr fun c hc => by simpa using hquiet c (List.mem_range.mp hc)
  change execLaneErrorWindow p corrected s = _
  simp only [execLaneErrorWindow, if_neg hthresh, hnoisy, List.filter_nil, List.foldl_nil, State.askSwap_zero]

/-! ### Escalation and retraining (R299) -/

section
variable {dir : Direction} {circuits : BitVec 18}

/-- The state in which an escalation is counted and recorded. -/
def State.escalated (s : State) (q : Nat) : State :=
  (s.addF fdPortRetryEscalations (pgPort q) 0 1).detect (pgPort q) 6 { code := 0x0020 }

theorem exec_retryEscalation_of_up (hup : s.portUp p.val = true) :
    exec (.retryEscalation p dir circuits) s =
      .next (if 1 ≤ circuitCount circuits.toNat &&
          circuitCount circuits.toNat ≤ (s.escalated p.val).getF (fdSpares dir) (pgPort p.val) then
        ((s.escalated p.val).emit (.swap p.val dir circuits.toNat)).startSwap p.val dir circuits.toNat
      else (s.escalated p.val).retrain p.val).finish :=
  if_neg (by simp [hup])

end

theorem State.portState_retrain (s : State) (p : PortId) : (s.retrain p.val).portState p.val = psRetrain :=
  State.portState_setPortState _ p 0 (by decide)

theorem exec_retrainDone_of_retrain {ok : Bool} (h : s.portState p.val = psRetrain) :
    exec (.retrainDone p ok) s = .next (if ok then
      (s.setPort p.val { s.port p.val with fresh := false, cursor := 0 }).setPortState p.val psUp 0 else s.portDown p.val 4).finish := by
  change execRetrainDone p ok s = _
  cases ok <;> simp [execRetrainDone, h]

/-! ### Comb sources (R302) -/

/-- A source that fails while the spare is free takes the port down until the spare has locked. -/
theorem State.combFail_of_spare {source : Nat} (hstate : s.portState p.val ≠ psOff) (hspare : s.getF fdPortCombSpare (pgPort p.val) = 0)
    (hsource : source < 2) :
    s.combFail p.val source = ((((s.setPort p.val { s.port p.val with combFailed := source, trained := false, identified := false }).setF
      fdPortCombSpare (pgPort p.val) 0 1).portDown p.val 2).detect (pgOpteng p.val) 6 { code := 0x0022 }).raiseSpare 1 := by
  simp [State.combFail, hstate, hspare, Nat.ne_of_lt hsource]

theorem exec_combSpareLock_of_pending (h : s.getF fdPortCombSpare (pgPort p.val) = 1) :
    exec (.combSpareLock p) s = .next ((s.setF fdPortCombSpare (pgPort p.val) 0 (2 + (s.port p.val).combFailed)).setPortState
      p.val psTraining 0).finish :=
  if_neg (not_not.mpr h)

/-! ### Bring-up (R294–R297) -/

theorem exec_portTrained_of_training (h : s.portState p.val = psTraining) :
    exec (.portTrained p) s = .next ((s.setPort p.val { s.port p.val with trained := true }).sendIdentity p.val) :=
  if_neg (not_not.mpr h)

/-- The exchange is one output; beside it only the port's own state differs. -/
theorem State.sendIdentity_setPort_frame (s : State) (p : PortId) (l : PortLink) :
    ((s.setPort p.val l).sendIdentity p.val).out =
        s.out ++ [.identity p.val s.nodeId p.val (s.getF fdPortRole (pgPort p.val))] ∧
      { (s.setPort p.val l).sendIdentity p.val with ports := s.ports, out := s.out } = s := by
  refine ⟨rfl, ?_⟩
  simp only [State.sendIdentity, State.emit, State.setPort]

theorem exec_portRetryTimer_of_training (h : s.portState p.val = psTraining) :
    exec (.portRetryTimer p) s = .next (s.setPort p.val { s.port p.val with trained := false, identified := false }) := by
  change execPortRetryTimer p s = _
  rw [execPortRetryTimer, h]
  rfl

/-- The state in which a peer's place is shown. -/
def State.peerShown (s : State) (q node port : Nat) : State :=
  (s.setF fdPortPeerNode (pgPort q) 0 node).setF fdPortPeerPort (pgPort q) 0 port

theorem State.nodeId_peerShown (s : State) (p : PortId) (node port : Nat) : (s.peerShown p.val node port).nodeId = s.nodeId := by
  have hp := p.isLt
  have hpage : pgPort p.val ≠ pgEcrok := by simp only [pgPort, pgEcrok]; omega
  rw [State.nodeId, State.peerShown,
    State.getF_setF_ne _ _ _ _ _ _ _ _ (descKey_page_ne hpage (by decide) (by decide) (by decide) (by decide)),
    State.getF_setF_ne _ _ _ _ _ _ _ _ (descKey_page_ne hpage (by decide) (by decide) (by decide) (by decide))]
  rfl

theorem exec_identityExchange_of_trained {node : NodeField} {port : BitVec 5} {role : BitVec 4} (hstate : s.portState p.val = psTraining)
    (htrained : (s.port p.val).trained = true) :
    exec (.identityExchange p node port role) s = .next
      (if peerFits s.nodeId (s.getF fdPortRole (pgPort p.val)) node.toNat port.toNat role.toNat then
        ((s.peerShown p.val node.toNat port.toNat).setPort p.val { s.port p.val with identified := true }).setPortState p.val psTraining 0
      else ((s.peerShown p.val node.toNat port.toNat).setPort p.val { s.port p.val with identified := false }).setPortState
        p.val psMiscabled 0) := by
  have hrole : (s.peerShown p.val node.toNat port.toNat).getF fdPortRole (pgPort p.val) = s.getF fdPortRole (pgPort p.val) := by
    rw [State.peerShown, State.getF_setF_place _ _ _ (by decide), State.getF_setF_place _ _ _ (by decide)]
  rw [← State.nodeId_peerShown s p node.toNat port.toNat, ← hrole]
  change execIdentityExchange p node port role s = _
  unfold execIdentityExchange
  dsimp only
  rw [if_neg (by simp [hstate, htrained])]
  exact (apply_ite Host.Outcome.next _ _ _).symm

/-- The peer's place stands once the port trains on. -/
theorem State.getF_peer_trainsOn (s : State) (p : PortId) (node : NodeField) (port : BitVec 5) (l : PortLink) :
    (((s.peerShown p.val node.toNat port.toNat).setPort p.val l).setPortState p.val psTraining 0).getF fdPortPeerNode (pgPort p.val) =
        node.toNat ∧
      (((s.peerShown p.val node.toNat port.toNat).setPort p.val l).setPortState p.val psTraining 0).getF fdPortPeerPort (pgPort p.val) =
        port.toNat := by
  rw [State.getF_setPortState _ _ _ _ (by decide) (by decide) (by decide), State.getF_setPortState _ _ _ _ (by decide) (by decide) (by decide),
    State.getF_setPort, State.getF_setPort, State.peerShown, State.getF_setF_place _ _ _ (by decide), State.getF_setF_self,
    State.getF_setF_self]
  exact ⟨Nat.mod_eq_of_lt node.isLt, Nat.mod_eq_of_lt port.isLt⟩

theorem exec_delayMeasured_of_identified {ps : BitVec 24} (hstate : s.portState p.val = psTraining)
    (htrained : (s.port p.val).trained = true) (hidentified : (s.port p.val).identified = true) :
    exec (.delayMeasured p ps) s = .next (((s.setF fdPortDelay (pgPort p.val) 0 ps.toNat).setPort p.val
      { s.port p.val with published := true, fresh := true }).setPortState p.val psUp 0).finish := by
  change execDelayMeasured p ps s = _
  simp [execDelayMeasured, hstate, htrained, hidentified]

/-- Settles O34: each event of a port is a change of its state, which keeps the other fields of its page. -/
theorem portLife : Obligations.PortLife := by
  unfold Obligations.PortLife
  intro p s
  refine ⟨?_, fun hswapping => ⟨fun htx hrx => ?_, fun hrx htx => ?_, fun hrx htx => ?_⟩,
    fun corrected => ⟨fun hthresh => ?_, fun hthresh hquiet => ?_⟩, ?_, fun hretrain => ⟨?_, ?_⟩, ?_, fun hspare => ?_, fun hlaser => ?_,
    fun htraining => ?_, fun node port role => ?_, fun htraining => ?_, fun hmiscabled => ?_, fun ps htraining htrained hidentified => ?_⟩
  · rintro dir circuits new hup hnew rfl
    exact ⟨fun hspares => ⟨_, rfl, State.portState_startSwap hup hnew hspares⟩,
      fun hspares => ⟨_, rfl, State.startSwap_of_noSpare hup hnew hspares⟩⟩
  · exact ⟨_, rfl, State.portState_endSwap_last hswapping htx fun e he => by cases e <;> simp_all [PortLink.swaps]⟩
  · exact ⟨_, rfl, State.portState_endSwap_last hswapping hrx fun e he => by cases e <;> simp_all [PortLink.swaps]⟩
  · exact ⟨_, rfl, State.endSwap_rx_first hswapping hrx htx⟩
  · exact ⟨_, congrArg Host.Outcome.next (if_pos hthresh), rfl⟩
  · exact ⟨_, exec_laneErrorWindow_of_quiet hthresh hquiet, rfl⟩
  · rintro dir circuits z hup (hz : z = s.escalated p.val)
    subst hz
    refine ⟨fun hsome hspares => ⟨_, exec_retryEscalation_of_up hup, if_pos (by simp [hsome, hspares])⟩, fun hspares => ?_⟩
    refine ⟨_, exec_retryEscalation_of_up hup, ?_⟩
    rw [if_neg (by simp [hspares])]
    exact State.portState_retrain _ p
  · exact ⟨_, exec_retrainDone_of_retrain hretrain, State.portState_setPortState _ p 0 (by decide)⟩
  · exact ⟨_, exec_retrainDone_of_retrain hretrain, rfl⟩
  · rintro source hstate hspare hsource z rfl
    exact ⟨_, rfl, State.combFail_of_spare hstate hspare hsource⟩
  · refine ⟨_, exec_combSpareLock_of_pending hspare, State.portState_setPortState _ p 0 (by decide), ?_⟩
    rw [State.getF_setPortState _ _ _ _ (by decide) (by decide) (by decide), State.getF_setF_self]
  · exact ⟨_, congrArg Host.Outcome.next (if_pos hlaser), State.portState_setPortState _ p 0 (by decide)⟩
  · refine ⟨_, exec_portTrained_of_training htraining, ?_, s.sendIdentity_setPort_frame p _⟩
    rw [State.sendIdentity, State.port_emit, State.port_setPort_self]
  · rintro ⟨htraining, htrained⟩
    refine ⟨fun hfits => ⟨_, exec_identityExchange_of_trained htraining htrained, ?_⟩,
      fun hmisfit => ⟨_, exec_identityExchange_of_trained htraining htrained, ?_⟩⟩
    · rw [if_pos hfits]
      exact ⟨State.portState_setPortState _ p 0 (by decide), State.getF_peer_trainsOn s p node port _⟩
    · rw [if_neg (by simp [hmisfit])]
      exact State.portState_setPortState _ p 0 (by decide)
  · refine ⟨_, exec_portRetryTimer_of_training htraining, ?_⟩
    beta_reduce
    rw [State.port_setPort_self]
    exact ⟨rfl, rfl, rfl⟩
  · exact ⟨_, if_pos hmiscabled, rfl, rfl⟩
  · refine ⟨_, exec_delayMeasured_of_identified htraining htrained hidentified, State.portState_setPortState _ p 0 (by decide), ?_⟩
    rw [State.getF_setPortState _ _ _ _ (by decide) (by decide) (by decide), State.getF_setPort, State.getF_setF_self]
    exact Nat.mod_eq_of_lt ps.isLt

end Sys2Proof.Machine
end

section
/-! PROOFS. Responses, forwarding, LOWMARKs and the timers of requests (spec/12_ecrok_memory_semantics.md). -/
namespace Sys2Proof.Machine

/-! ### Responses (R310, R322, R324) -/

/-- RESP_DATA and RESP_ACK do the same. -/
theorem exec_response {mk : FabricDie → Packet → Instr} (h : mk ∈ [Instr.respData, Instr.respAck]) (d : FabricDie) (pk : Packet)
    (s : State) : exec (mk d pk) s = .next (s.recvResponse d.val pk).finish := by
  simp only [List.mem_cons, List.not_mem_nil, or_false] at h
  obtain rfl | rfl := h <;> rfl

variable {s : State} {pk : Packet}

theorem State.recvResponse_of_busy {die : Nat} (h : s.answers die pk) (hbusy : pk.mask.toNat % 256 = stBUSY) :
    s.recvResponse die pk = s.setTag (die * 65536 + pk.tagSlot.toNat) { s.tag (die * 65536 + pk.tagSlot.toNat) with
      busy := if (s.tag (die * 65536 + pk.tagSlot.toNat)).busy = 0 then 1
        else min 64 (2 * (s.tag (die * 65536 + pk.tagSlot.toNat)).busy) } := by
  obtain ⟨hvalid, hgood, hactive, hgen, hdst⟩ := h
  simp [State.recvResponse, hvalid, hgood, hactive, hgen, hdst, hbusy]

theorem State.recvResponse_of_done {die k : Nat} {t : TagSlot} (h : s.answers die pk) (hbusy : pk.mask.toNat % 256 ≠ stBUSY)
    (hk : k = die * 65536 + pk.tagSlot.toNat) (ht : t = s.tag k) :
    s.recvResponse die pk = ((s.setTag k { gen := t.gen }).complete t.ctx t.pk.dst.toNat t.origin pk.mask.toNat pk.payload).unstall
      t.pk.dst.toNat t.pk.ovc.toNat := by
  subst ht hk
  obtain ⟨hvalid, hgood, hactive, hgen, hdst⟩ := h
  simp [State.recvResponse, hvalid, hgood, hactive, hgen, hdst, hbusy]

theorem State.recvResponse_of_late {die : Nat} (hvalid : s.nodeIdValid = true) (hgood : packetBad pk = false)
    (hlate : (s.tag (die * 65536 + pk.tagSlot.toNat)).active = false) :
    s.recvResponse die pk = s.addF fdEcrokCntLate pgEcrok 0 1 := by
  simp [State.recvResponse, hvalid, hgood, hlate]

@[simp] theorem State.tag_setTag_self (s : State) (k : Nat) (t : TagSlot) : (s.setTag k t).tag k = t := by
  simp [State.tag, State.setTag]

/-! ### Forwarding (R313, R314) -/

/-- A packet of a job of this node, with a step that leads over a port in use, leaves on the channel it came on. -/
theorem State.forward_of_open {pair : Nat} (hvalid : s.nodeIdValid = true) (hgood : pk.malformed = false) (hjob : pk.job ≠ 0)
    (hcommitted : s.jobCommitted pk.job.toNat = true) (hhop : pk.hop.toNat < 24)
    (hstep : bits pk.route.toNat (4 * pk.hop.toNat + 3) (4 * pk.hop.toNat) ≠ 0xF)
    (hpair : pair = codePair (bits pk.route.toNat (4 * pk.hop.toNat + 3) (4 * pk.hop.toNat)))
    (hroute : routeLen pk.route.toNat 24 ≠ 24) (hrole : s.getF fdPortRole (pgPort (2 * pair)) ≠ 0xF)
    (hport : s.portState (2 * pair) ≠ 3) (hvc : pk.ovc.toNat ≠ vcTRANSIT) :
    s.forward pk = s.depart { pk with vc := BitVec.ofNat 3 pk.ovc.toNat } pk.hop.toNat := by
  subst hpair
  have hsound : ¬ ((24 ≤ pk.hop.toNat || bits pk.route.toNat (4 * pk.hop.toNat + 3) (4 * pk.hop.toNat) = 0xF ||
      routeLen pk.route.toNat 24 = 24 ||
      s.getF fdPortRole (pgPort (2 * codePair (bits pk.route.toNat (4 * pk.hop.toNat + 3) (4 * pk.hop.toNat)))) = 0xF ||
      s.portState (2 * codePair (bits pk.route.toNat (4 * pk.hop.toNat + 3) (4 * pk.hop.toNat))) = 3) = true) := by
    simp [not_le.mpr hhop, hstep, hroute, hrole, hport]
  unfold State.forward
  simp only [hvalid, hgood, hjob, hcommitted, decide_false, Bool.or_true, Bool.not_true, Bool.and_false, Bool.false_and,
    Bool.false_eq_true, if_false, if_neg hsound, hvc]

/-! ### LOWMARKs (R319) -/

theorem State.sendLowmark_of_same {dst vc : Nat} (h : mapGet 0 s.ecrok.outLow (flowKey dst vc) = s.flowLow dst vc) :
    s.sendLowmark dst vc = s :=
  if_pos h

/-- A LOW that changed leaves in a LOWMARK, and the flow notes it. -/
theorem State.sendLowmark_of_changed {dst vc : Nat} (h : mapGet 0 s.ecrok.outLow (flowKey dst vc) ≠ s.flowLow dst vc) :
    ∃ (z : State) (pk : Packet), s.sendLowmark dst vc = z.send pk ∧ mapGet 0 z.ecrok.outLow (flowKey dst vc) = s.flowLow dst vc ∧
      { z with ecrok := s.ecrok } = s ∧ pk.kind = BitVec.ofNat 5 kLOWMARK ∧ pk.dst = BitVec.ofNat 17 dst ∧
      pk.low = BitVec.ofNat 32 (s.flowLow dst vc) :=
  ⟨_, _, if_neg h, mapGet_put_self _ _ _ _, rfl, rfl, rfl, rfl⟩

/-! ### Timers (R322, R324) -/

theorem State.resendBusy_of_busy {k : Nat} (hactive : (s.tag k).active = true) (hbusy : (s.tag k).busy ≠ 0) :
    s.resendBusy k = s.send (s.tag k).pk := by
  simp [State.resendBusy, hactive, hbusy]

/-- The state in which a request's timeout is counted and reported. -/
def State.timeoutNoted (s : State) (t : TagSlot) : State :=
  ((s.addF fdEcrokCntTimeout pgEcrok 0 1).count pgEcrok 3 1).event pgEcrok 0 (some 2) 0x0130 t.ctx t.pk.dst.toNat

/-- A request as it is issued again: under its next generation. -/
def TagSlot.reissued (t : TagSlot) : TagSlot :=
  { t with gen := (t.gen + 1) % 4, pk := { t.pk with tagGen := BitVec.ofNat 2 ((t.gen + 1) % 4) }, busy := 0, tries := t.tries + 1 }

section
variable {k : Nat} {t : TagSlot} (ht : t = s.tag k) (hactive : t.active = true)
include ht hactive

theorem State.timeoutTag_exhausted (htries : (s.timeoutNoted t).getF fdEcrokTmoRetries pgEcrok t.ctx ≤ t.tries) :
    s.timeoutTag k = (((s.timeoutNoted t).setTag k { gen := (t.gen + 1) % 4 }).complete t.ctx t.pk.dst.toNat t.origin stDEAD []).unstall
      t.pk.dst.toNat t.pk.ovc.toNat := by
  subst ht
  exact (if_neg (by simp [hactive])).trans (if_neg (not_lt.mpr htries))

theorem State.timeoutTag_alone (htries : t.tries < (s.timeoutNoted t).getF fdEcrokTmoRetries pgEcrok t.ctx)
    (hlater : (s.timeoutNoted t).laterTags t = [(k, t)]) :
    s.timeoutTag k = ((s.timeoutNoted t).setTag k t.reissued).send t.reissued.pk := by
  subst ht
  refine (if_neg (by simp [hactive])).trans ((if_pos htries).trans ?_)
  change (s.timeoutNoted (s.tag k)).forEach ((s.timeoutNoted (s.tag k)).laterTags (s.tag k)) _ = _
  rw [hlater, State.forEach_cons, State.forEach_nil]
  simp only [if_true]
  rfl

end

/-- Settles O37: a response, a forwarded packet and a timer each meet one branch of their rule. -/
theorem fabricAnswers : Obligations.FabricAnswers := by
  unfold Obligations.FabricAnswers
  refine ⟨?_, fun mk hmk d pk s hvalid hgood hlate => ⟨_, exec_response hmk d pk s, State.recvResponse_of_late hvalid hgood hlate⟩,
    fun p pk s pair hvalid hgood hjob hcommitted hhop hstep hpair hroute hrole hport hvc =>
      ⟨_, rfl, State.forward_of_open hvalid hgood hjob hcommitted hhop hstep hpair hroute hrole hport hvc⟩, ?_, ?_⟩
  · intro mk hmk d pk s k t hk ht hanswers
    refine ⟨fun hdone => ⟨_, exec_response hmk d pk s, State.recvResponse_of_done hanswers hdone hk ht⟩, fun hbusy => ?_⟩
    subst ht hk
    refine ⟨_, exec_response hmk d pk s, ?_⟩
    rw [State.recvResponse_of_busy hanswers hbusy]
    exact ⟨State.tag_setTag_self _ _ _, rfl⟩
  · rintro d dst vc s k rfl
    exact ⟨fun hsame => ⟨_, rfl, State.sendLowmark_of_same hsame⟩, fun hchanged => ⟨_, rfl, State.sendLowmark_of_changed hchanged⟩⟩
  · rintro d slot s k t rfl ht hactive
    refine ⟨fun hbusy => ?_, fun z (hz : z = s.timeoutNoted t) => ?_⟩
    · subst ht
      exact ⟨_, rfl, State.resendBusy_of_busy hactive hbusy⟩
    · subst hz
      exact ⟨fun htries => ⟨_, rfl, State.timeoutTag_exhausted ht hactive htries⟩,
        fun htries hlater => ⟨_, rfl, t.reissued, State.timeoutTag_alone ht hactive htries hlater, rfl, rfl, rfl, rfl⟩⟩

end Sys2Proof.Machine
end

section
/-! SUPPORT. How a line of Flokan runs: what answers it before its command does, and what a command's checks leave where they pass (R525,
R526, R528). -/
namespace Sys2Proof.Machine

/-! ### A line that runs -/

/-- A line that runs at once is its command. -/
theorem State.line_of_runs {s z : State} (h : s.lineRuns z) (k : Nat) (args : List Nat) : s.line k args = z.runLine k args := by
  obtain ⟨hon, hcontent, hawaiting, rfl⟩ := h
  simp [State.line, hon, hcontent, hawaiting]

section
variable {z : State} {run : State → State}

theorem State.control_open (h : z.controlOpen = true) : z.control run = run z := if_pos h

theorem State.control_closed (h : z.controlOpen = false) : z.control run = z.final feTier := if_neg (by simp [h])

theorem State.protect_open (h : z.inRecovery = false) : z.protect run = run z := if_pos (by simp [State.protectOpen, h])

theorem State.protect_closed (h : z.inRecovery = true) : z.protect run = z.final feTier := if_neg (by simp [State.protectOpen, h])

theorem State.ranged_of {ok : Bool} (h : ok = true) : z.ranged ok run = run z := if_pos h

/-- A command with as many arguments as it takes. -/
theorem State.arity_of {args : List Nat} {lo hi : Nat} (h : (lo ≤ args.length && args.length ≤ hi) = true) :
    z.arity args lo hi run = run z :=
  if_pos h

end

/-! ### Final lines (R525) -/

theorem State.show_lines (z : State) (ls : List (List Nat)) : lines z ls (z.show ls) := rfl

/-- The final line of a store names what dropped it. -/
theorem State.finalStore_eq (y : State) (page cause : Nat) :
    y.finalStore page cause = y.emit (if cause = 0 then .final 0 0 else .final 10 (y.getF fdComFieldReject page)) := by
  unfold State.finalStore
  split <;> rfl

/-! ### Commands of the control tier (R530) -/

section
variable {z : State} (hopen : z.controlOpen = true)
include hopen

theorem State.flRegw_of_open {page off v size : Nat} (hpage : page < 2 ^ 20) (hoff : off < 4096) (haccess : pageAccessOk off size = true)
    (hv : v < 2 ^ (8 * size)) (hlit : z.pageDark page = false) :
    z.flRegw [page, off, v, size] = (z.tryStore 0 page off size v).1.finalStore page (z.tryStore 0 page off size v).2 := by
  have hrange : (page < 2 ^ 20 && off < 4096 && pageAccessOk off size && v < 2 ^ (8 * size)) = true := by
    simp only [Bool.and_eq_true, decide_eq_true_eq]
    exact ⟨⟨⟨hpage, hoff⟩, haccess⟩, hv⟩
  exact (State.control_open hopen).trans ((State.arity_of rfl).trans ((State.ranged_of hrange).trans (if_neg (by simp [hlit]))))

theorem State.flInject_of_open {page src : Nat} (hpage : page < 2 ^ 20) (hsrc : src < 16) (hlit : z.pageDark page = false) :
    z.flInject [page, src] = (z.tryStore 0 page 0x02C 4 (src + 2 ^ 8)).1.finalStore page (z.tryStore 0 page 0x02C 4 (src + 2 ^ 8)).2 := by
  have hrange : (page < 2 ^ 20 && src < 16) = true := by
    simp only [Bool.and_eq_true, decide_eq_true_eq]
    exact ⟨hpage, hsrc⟩
  exact (State.control_open hopen).trans ((State.arity_of rfl).trans ((State.ranged_of hrange).trans (if_neg (by simp [hlit]))))

theorem State.flReset_of_open : z.flReset [] = (z.emit (.final 0 0)).nodeReset 3 := by
  rw [State.flReset, State.control_open hopen, State.arity_of rfl]
  rfl

theorem State.flPortmap_of_unbound {pair role : Nat} (hpair : pair < 9) (hrole : role < 9 ∨ role = 15) (hfree : z.jobBound = false) :
    z.flPortmap [pair, role] =
      (z.putStore { z.store with roles := mapPut 0 z.store.roles pair (if role = pair then 0 else role + 1) }).final 0 := by
  rw [State.flPortmap, State.control_open hopen, State.arity_of rfl, State.ranged_of (by simpa [hpair] using hrole)]
  exact if_neg (by simp [hfree])

theorem State.flEthmode_of_unbound {e mode : Nat} (he : e < 2) (hmode : mode < 2) (hfree : z.jobBound = false) :
    z.flEthmode [e, mode] = (z.putStore { z.store with ethMode := putBits z.store.ethMode e e mode }).final 0 := by
  rw [State.flEthmode, State.control_open hopen, State.arity_of rfl, State.ranged_of (by simpa [he] using hmode)]
  exact if_neg (by simp [hfree])

theorem State.flTrace_of_open {on pct : Nat} (hon : on < 2) (hlow : 1 ≤ pct) (hhigh : pct ≤ 3) :
    z.flTrace [on, pct] =
      (z.tryStore 0 pgObs 0x100 4 (on + pct * 2 ^ 8)).1.finalStore pgObs (z.tryStore 0 pgObs 0x100 4 (on + pct * 2 ^ 8)).2 := by
  rw [State.flTrace, State.control_open hopen, State.arity_of rfl, State.ranged_of (by simpa [hon, hlow] using hhigh)]
  rfl

/-- The records of the node trace that TDUMP shows (R530): numbered from the first that the trace wrote, and still held. -/
theorem State.flTdump_of_open {first n : Nat} (hlow : 1 ≤ n) (hhigh : n ≤ 4096) (htrained : z.boot.trained = true) :
    z.flTdump [first, n] = z.show ((((upFrom first n).filter fun i =>
      i < z.getF fdObsNtraceHead pgObs && z.getF fdObsNtraceHead pgObs - i ≤ z.nodeTrace.length).filterMap fun i =>
        z.nodeTrace[z.getF fdObsNtraceHead pgObs - 1 - i]?).map fun r => byteValues (traceBytes r)) := by
  rw [State.flTdump, State.control_open hopen, State.arity_of rfl,
    State.ranged_of (by simpa [countArg, hlow] using hhigh), List.map_filterMap]
  exact if_neg (by simp [htrained])

end

/-- A change of the configuration store counts its generation in a register, and touches nothing else. -/
theorem State.putStore_final_spec (z : State) (x : Store) :
    ((z.putStore x).final 0).out = z.out ++ [.final 0 0] ∧ ((z.putStore x).final 0).store = x ∧
      { (z.putStore x).final 0 with store := z.store, regs := z.regs, out := z.out } = z :=
  ⟨rfl, rfl, rfl⟩

/-! ### Content and the protect tier (R483, R526) -/

theorem State.flFwload_of_allowed {z : State} (h : z.controlOpen = true ∨ z.inRecovery = true) (hbarred : z.fwBarred = false) :
    z.flFwload [] = { z with flokan := { z.flokan with content := 1, data := [] } } := by
  rw [State.flFwload, if_neg (by obtain h | h := h <;> simp [h]), State.arity_of rfl, hbarred]
  rfl

section
variable {z : State} (hopen : z.inRecovery = false)
include hopen

theorem State.flToken_of_open : z.flToken [] = { z with flokan := { z.flokan with content := 2, data := [] } } := by
  rw [State.flToken, State.protect_open hopen, State.arity_of rfl]

theorem State.flCommit_of_open {d at' : Nat} (hd : d < 2 ^ 256) (hat : at' < 2 ^ 64) :
    z.flCommit [d, at'] = (z.commitDigest d at').emit (.final 0 0) := by
  rw [State.flCommit, State.protect_open hopen, State.arity_of rfl,
    State.ranged_of (by simp only [Bool.and_eq_true, decide_eq_true_eq]; exact ⟨hd, hat⟩)]
  rfl

theorem State.flAbort_of_open {d : Nat} (hd : d < 2 ^ 256) : z.flAbort [d] = (z.abortDigest d).emit (.final 0 0) := by
  rw [State.flAbort, State.protect_open hopen, State.arity_of rfl, State.ranged_of (decide_eq_true (p := [d].headD 0 < 2 ^ 256) hd)]
  rfl

end

/-- A content line of whole bytes, at most 64 of them, is kept (R526). -/
theorem State.contentLine_of_bytes {z : State} {line bs : List Byte} (hgoes : z.flokan.aborted = false) (hline : line ≠ endLine)
    (hhex : hexBytes line = some bs) (hlength : bs.length ≤ 64) :
    z.contentLine line = { z.emit .plus with flokan := { z.flokan with data := z.flokan.data ++ bs } } := by
  simp [State.contentLine, hgoes, hline, hhex, hlength]

theorem State.contentLine_of_noHex {z : State} {line : List Byte} (hgoes : z.flokan.aborted = false) (hline : line ≠ endLine)
    (hhex : hexBytes line = none) : z.contentLine line = z.dropContent.emit (.final 1 0) := by
  simp only [State.contentLine, hgoes, hline, hhex]
  rfl

theorem State.content_dropContent (z : State) (o : Output) : (z.dropContent.emit o).flokan.content = 0 := rfl

end Sys2Proof.Machine
end

section
/-! PROOFS. Flokan's control and protect tiers (spec/21_flokan_monitor_and_observation.md). -/
namespace Sys2Proof.Machine

/-- A line while the island is off, and an empty one, is ignored. -/
theorem exec_flokanDataLine_ignored {line : List Byte} {s : State} (h : s.power.off = true ∨ line = []) :
    exec (.flokanDataLine line) s = .next s :=
  if_pos (by simpa using h)

section
variable {line : List Byte} {s : State} (hon : s.power.off = false) (hline : line ≠ [])
include hon hline

/-- A line outside content names no command. -/
theorem exec_flokanDataLine_idle (hcontent : s.flokan.content = 0) (hawaiting : s.flokan.awaiting = false) :
    exec (.flokanDataLine line) s = .next (State.emit { s with flokan := { s.flokan with fresh := false } } (.final 2 0)) := by
  refine (if_neg (by simp [hon, hline])).trans ((if_pos hcontent).trans ?_)
  rw [State.line_of_runs ⟨hon, hcontent, hawaiting, rfl⟩]
  rfl

theorem exec_flokanDataLine_content (hcontent : s.flokan.content ≠ 0) :
    exec (.flokanDataLine line) s =
      .next (State.contentLine { s with flokan := { s.flokan with fresh := false } } line).finish :=
  (if_neg (by simp [hon, hline])).trans (if_neg hcontent)

end

/-- A command's line, with what its command leaves. -/
theorem gives_of_line {i : Instr} {s z u : State} {k : Nat} {args : List Nat} {P : State → Prop} (hexec : exec i s = .next (s.line k args))
    (h : s.lineRuns z) (hrun : z.runLine k args = u) (hP : P u) : Gives i s P :=
  ⟨u, by rw [hexec, State.line_of_runs h, hrun], hP⟩

/-- The same of a command after which what waited goes on. -/
theorem effect_of_line {i : Instr} {s z u : State} {k : Nat} {args : List Nat} {P : State → Prop}
    (hexec : exec i s = .next (s.line k args).finish) (h : s.lineRuns z) (hrun : z.runLine k args = u) (hP : P u) : Effect i s P :=
  ⟨u, by rw [hexec, State.line_of_runs h, hrun], hP⟩

section
variable {i : Instr} {s z : State} {k : Nat} {args : List Nat} (cmd : State → State) {run : State → State} (h : s.lineRuns z)
  (hrun : z.runLine k args = cmd z)
include h hrun

theorem gives_controlClosed (hexec : exec i s = .next (s.line k args)) (hcmd : cmd z = z.control run) (hclosed : z.controlOpen = false) :
    Gives i s (errs z 4) :=
  gives_of_line hexec h (hrun.trans (hcmd.trans (State.control_closed hclosed))) rfl

theorem effect_controlClosed (hexec : exec i s = .next (s.line k args).finish) (hcmd : cmd z = z.control run)
    (hclosed : z.controlOpen = false) : Effect i s (errs z 4) :=
  effect_of_line hexec h (hrun.trans (hcmd.trans (State.control_closed hclosed))) rfl

theorem effect_protectClosed (hexec : exec i s = .next (s.line k args).finish) (hcmd : cmd z = z.protect run)
    (hclosed : z.inRecovery = true) : Effect i s (errs z 4) :=
  effect_of_line hexec h (hrun.trans (hcmd.trans (State.protect_closed hclosed))) rfl

end

section
variable {args : List Nat} {s z : State} (h : s.lineRuns z)
include h

/-- A line of the control tier answers TIER while the tier is closed (R528). -/
theorem flokan_controlClosed (hclosed : z.controlOpen = false) :
    (∀ i ∈ [Instr.flokanReset args, .portmap args, .ethmode args, .flokanTrace args, .flokanTdump args], Gives i s (errs z 4)) ∧
      (∀ i ∈ [Instr.flokanRegw args, .flokanInject args], Effect i s (errs z 4)) ∧
      (z.inRecovery = false → Gives (.fwload args) s (errs z 4)) := by
  simp only [List.forall_mem_cons, List.not_mem_nil, false_imp_iff, implies_true, and_true]
  refine ⟨⟨?_, ?_, ?_, ?_, ?_⟩, ⟨?_, ?_⟩, fun hnormal => gives_of_line rfl h (if_pos (by simp [hclosed, hnormal])) rfl⟩
  · exact gives_controlClosed (State.flReset args) h rfl rfl rfl hclosed
  · exact gives_controlClosed (State.flPortmap args) h rfl rfl rfl hclosed
  · exact gives_controlClosed (State.flEthmode args) h rfl rfl rfl hclosed
  · exact gives_controlClosed (State.flTrace args) h rfl rfl rfl hclosed
  · exact gives_controlClosed (State.flTdump args) h rfl rfl rfl hclosed
  · exact effect_controlClosed (State.flRegw args) h rfl rfl rfl hclosed
  · exact effect_controlClosed (State.flInject args) h rfl rfl rfl hclosed

/-- A line of the protect tier answers TIER in RECOVERY (R528). -/
theorem flokan_protectClosed (hclosed : z.inRecovery = true) :
    Gives (.flokanToken args) s (errs z 4) ∧ ∀ i ∈ [Instr.flokanCommit args, .flokanAbort args], Effect i s (errs z 4) := by
  simp only [List.forall_mem_cons, List.not_mem_nil, false_imp_iff, implies_true, and_true]
  refine ⟨?_, ?_, ?_⟩
  · exact gives_of_line rfl h (show z.flToken args = _ from State.protect_closed hclosed) rfl
  · exact effect_protectClosed (State.flCommit args) h rfl rfl rfl hclosed
  · exact effect_protectClosed (State.flAbort args) h rfl rfl rfl hclosed

end

/-- Settles O59: a line that runs is its command, whose checks pass or name what they refuse. -/
theorem flokanControl : Obligations.FlokanControl := by
  unfold Obligations.FlokanControl
  refine ⟨fun args s z h => ?_, fun line s z hz => ?_, fun s => ⟨fun hon hruns => ?_, fun hidle => ?_, fun hfresh => ?_, fun hfresh => ?_⟩⟩
  · refine ⟨flokan_controlClosed h, flokan_protectClosed h, fun hopen => ⟨?_, ?_, ?_, fun hfree => ⟨?_, ?_⟩, ?_, ?_⟩, fun hallowed hbarred => ?_,
      fun hnormal => ⟨?_, ?_, ?_⟩⟩
    · intro page off v size hpage hoff haccess hv hlit y a hstore
      refine effect_of_line rfl h (State.flRegw_of_open hopen hpage hoff haccess hv hlit) ?_
      rw [← hstore]
      exact y.finalStore_eq page a
    · intro page src hpage hsrc hlit y a hstore
      refine effect_of_line rfl h (State.flInject_of_open hopen hpage hsrc hlit) ?_
      rw [← hstore]
    · exact gives_of_line rfl h (State.flReset_of_open hopen) rfl
    · intro pair role hpair hrole
      exact gives_of_line rfl h (State.flPortmap_of_unbound hopen hpair hrole hfree) (z.putStore_final_spec _)
    · intro e mode he hmode
      exact gives_of_line rfl h (State.flEthmode_of_unbound hopen he hmode hfree) (z.putStore_final_spec _)
    · intro on pct hon hlow hhigh y a hstore
      refine gives_of_line rfl h (State.flTrace_of_open hopen hon hlow hhigh) ?_
      rw [← hstore]
    · rintro first n hlow hhigh htrained _ rfl
      exact gives_of_line rfl h (State.flTdump_of_open hopen hlow hhigh htrained) (z.show_lines _)
    · exact gives_of_line rfl h (State.flFwload_of_allowed hallowed hbarred) rfl
    · exact gives_of_line rfl h (State.flToken_of_open hnormal) rfl
    · intro d at' hd hat
      exact effect_of_line rfl h (State.flCommit_of_open hnormal hd hat) rfl
    · intro d hd
      exact effect_of_line rfl h (State.flAbort_of_open hnormal hd) rfl
  · refine ⟨fun hignored => ⟨_, exec_flokanDataLine_ignored hignored, rfl⟩,
      fun hon hline hcontent hawaiting => ⟨_, exec_flokanDataLine_idle hon hline hcontent hawaiting, by rw [hz]; rfl⟩,
      fun hon hline hcontent => ?_⟩
    have hexec := exec_flokanDataLine_content hon hline hcontent
    have hsame : z.flokan.aborted = s.flokan.aborted := by rw [hz]
    rw [← hz] at hexec
    rw [← hsame]
    refine ⟨fun haborted => ?_, fun hgoes hend => ?_, fun hgoes hmore => ⟨fun hhex => ?_, fun bs hhex hlength => ?_⟩⟩
    · refine ⟨_, hexec, ?_⟩
      rw [State.contentLine, if_pos haborted]
      exact ⟨rfl, State.content_dropContent _ _⟩
    · exact ⟨_, hexec, (if_neg (by simp [hgoes])).trans (if_pos hend)⟩
    · refine ⟨_, hexec, ?_⟩
      rw [State.contentLine_of_noHex hgoes hmore hhex]
      exact ⟨rfl, State.content_dropContent _ _⟩
    · refine ⟨_, hexec, ?_⟩
      rw [State.contentLine_of_bytes hgoes hmore hhex hlength, hz]
      exact ⟨rfl, rfl, rfl⟩
  · exact ⟨_, congrArg Host.Outcome.next (if_pos (by simpa [hon] using hruns)), rfl⟩
  · refine ⟨_, congrArg Host.Outcome.next (if_neg ?_), rfl⟩
    obtain hoff | ⟨hcontent, hawaiting⟩ := hidle
    · simp [hoff]
    · simp [hcontent, hawaiting]
  · exact ⟨_, congrArg Host.Outcome.next (if_pos hfresh), rfl⟩
  · exact ⟨_, congrArg Host.Outcome.next (if_neg (by simp [hfresh])), rfl⟩

end Sys2Proof.Machine
end

section
/-! PROOFS. One step: the queue, the tick, and a node in which nothing waits (spec/01_one_time_step.md; log entries 1 and 28). -/
namespace Sys2Proof.Machine

/-- Settles O5: a step takes its command off the queue, and no operation of the model touches the rest. -/
theorem stepKeepsQueueOrder : Obligations.StepKeepsQueueOrder := by
  unfold Obligations.StepKeepsQueueOrder
  exact fun _ _ hstep => (step_keeps hstep).queue

/-- Settles O1: it is the model's own step at a queue with a front. -/
theorem stepRunsFrontCommand : Obligations.StepRunsFrontCommand := by
  unfold Obligations.StepRunsFrontCommand
  exact fun _ _ _ => rfl

theorem step_of_empty {s : State} (h : s.pending = []) : step s = .next (s.setF fdFtimeNow pgFtime 0 (s.now + 1)) := by
  simp only [step, h]

/-- Settles O2: the tick sets one register field. -/
theorem idleStepIsOneTick : Obligations.IdleStepIsOneTick := by
  unfold Obligations.IdleStepIsOneTick
  intro s hempty
  exact ⟨_, step_of_empty hempty, State.getF_setF_self .., rfl, fun e q j hne => State.getF_setF_ne _ _ _ _ _ _ _ _ hne⟩

/-! ### Nothing goes on where nothing waits (log entry 28) -/

section
variable {s : State}

theorem State.settleLoop_of_empty (h : s.ecrok.loop = []) : s.settleLoop = s := by
  simp only [State.settleLoop, State.runLoop, h]

theorem State.stalledCores_of_none (h : ∀ x ∈ s.cores, x.2.stalled = []) : s.stalledCores = [] := by
  rw [State.stalledCores, List.map_eq_nil_iff, List.filter_eq_nil_iff]
  exact fun x hx => by simp [h x hx]

theorem State.goOn_of_none (hloop : s.ecrok.loop = []) (hstalled : ∀ x ∈ s.cores, x.2.stalled = []) (n : Nat) : s.goOn n = s := by
  cases n with
  | zero => rfl
  | succ n => simp [State.goOn, State.settleLoop_of_empty hloop, State.stalledCores_of_none hstalled, hloop]

theorem State.graphPoll_of_none (h : ∀ c, c < 16 → (s.ctx c).run.active = false) : s.graphPoll = s := by
  have hidle : (allCtxs.filter fun c => (s.ctx c).run.active) = [] :=
    List.filter_eq_nil_iff.mpr fun c hc => by simp [h c (List.mem_range.mp hc)]
  rw [State.graphPoll, hidle, State.forEach_nil]

theorem State.lsaPoll_of_none (h : s.lsa.poked = []) : s.lsaPoll = s := if_pos (by rw [h]; rfl)

theorem State.deliverInterrupts_of_none (h : ∀ x ∈ s.cores, x.2.heldInterrupts = []) : s.deliverInterrupts = s := by
  have hdue : (s.cores.filter fun x => !x.2.heldInterrupts.isEmpty && x.2.free && x.2.stalled.isEmpty) = [] :=
    List.filter_eq_nil_iff.mpr fun x hx => by simp [h x hx]
  rw [State.deliverInterrupts, hdue, State.forEach_nil]

theorem State.pfcPoll_of_disabled (h0 : s.getF fdEthPfcEnable (pgEth 0) = 0) (h1 : s.getF fdEthPfcEnable (pgEth 1) = 0) :
    s.pfcPoll = s := by
  refine State.forEach_keeps (P := (· = s)) (fun k hk z hz => ?_) _ rfl
  subst hz
  have hport : k / 16 = 0 ∨ k / 16 = 1 := by have := List.mem_range.mp hk; omega
  refine if_pos ?_
  obtain hport | hport := hport <;> simp [hport, h0, h1, bitAt]

end

/-- Settles O3: each of the five things that go on at a command's end finds nothing that waits. -/
theorem quietStateStays : Obligations.QuietStateStays := by
  unfold Obligations.QuietStateStays
  rintro s ⟨hloop, hcores, hruns, hpoked, hpfc0, hpfc1⟩
  rw [State.finish, State.goOn_of_none hloop fun x hx => (hcores x hx).1, State.graphPoll_of_none hruns, State.lsaPoll_of_none hpoked,
    State.deliverInterrupts_of_none fun x hx => (hcores x hx).2, State.pfcPoll_of_disabled hpfc0 hpfc1]

end Sys2Proof.Machine
end

section
/-! SUPPORT. Register fields apart from each other: what a counting field, an event and a log record leave of a field at another place;
and what a power loss keeps of the configuration store. -/
namespace Sys2Proof.Machine

theorem State.getF_addF_ne {d e : FieldDesc} {p i q j : Nat} (s : State) (n : Nat) (h : descKey d p i ≠ descKey e q j) :
    (s.addF d p i n).getF e q j = s.getF e q j :=
  State.getF_setF_ne _ _ _ _ _ _ _ _ h

section
variable {d : FieldDesc} {p i : Nat} (s : State) (hsched : p ≠ pgSched) (hobs : p ≠ pgObs) (h : unrecorded d i = true)
include hsched hobs h

theorem State.getF_event_apart (page unit : Nat) (cls : Option Nat) (code subject value : Nat) :
    (s.event page unit cls code subject value).getF d p i = s.getF d p i :=
  s.getF_event _ _ _ _ _ _ _ _ _ (offRecords_of_other_page page hsched hobs h)

theorem State.getF_trace_apart (n ctx arg0 arg1 : Nat) : (s.trace n ctx arg0 arg1).getF d p i = s.getF d p i :=
  s.getF_trace _ _ _ _ _ _ _ 0 (offRecords_of_other_page 0 hsched hobs h)

end

/-- What one element's operation establishes and no other element's undoes holds after the operation for every element. -/
theorem State.forEach_establishes_of_mem {α : Type} {P : State → Prop} {g : α → State → State} {x : α} (hset : ∀ s, P (g x s)) :
    ∀ l : List α, (∀ y ∈ l, ∀ s, P s → P (g y s)) → x ∈ l → ∀ s : State, P (s.forEach l g) := by
  intro l
  induction l with
  | nil => intro _ hx; cases hx
  | cons y l ih =>
    intro hkeep hx s
    obtain ⟨-, hl⟩ := List.forall_mem_cons.mp hkeep
    rw [State.forEach_cons]
    obtain rfl | hx := List.mem_cons.mp hx
    · exact State.forEach_keeps hl _ (hset s)
    · exact ih hl hx _

/-! ### What a loss of power keeps (R509) -/

theorem regsOnly_takeStore (s : State) : regsOnly s s.takeStore := by
  have hroles : ∀ (l : List (Nat × Nat)) (z : State), regsOnly s z → regsOnly s (z.forEach l fun (k, r) z =>
      (z.setF fdPortRole (pgPort (2 * k)) 0 (r - 1)).setF fdPortRole (pgPort (2 * k + 1)) 0 (r - 1)) := fun l =>
    State.forEach_keeps fun _ _ _ h => h
  exact hroles _ _ rfl

theorem regsOnly_copyFields (s : State) (l : List (FieldDesc × Nat)) (old : State) : regsOnly s (s.copyFields l old) := by
  refine State.forEach_keeps (P := regsOnly s) (fun x _ z hz => ?_) s rfl
  exact State.forEach_keeps (P := regsOnly s) (fun j _ w hw => hw.trans (regsOnly_setF w x.1 x.2 j _)) z hz

theorem regsOnly_copyVersions (s old : State) : regsOnly s (s.copyVersions old) := rfl

/-- The node with no register field set and nothing but what stands in the NOR. -/
def State.norOnly (s : State) : State :=
  { dike := { wardens := s.dike.wardens, enrolled := s.dike.enrolled, controlUnbound := s.dike.controlUnbound,
              tenantEnable := s.dike.tenantEnable }
    store := s.store
    boot := { held := s.boot.held, straps := s.boot.straps }
    power := { lastGasp := s.power.lastGasp }
    hbm := { mappedOut := s.hbm.mappedOut }
    out := s.out
    freeCount := s.freeCount
    pending := s.pending }

theorem State.cold_eq (s : State) : s.cold = ((s.norOnly.copyFields storeFields s).copyVersions s).takeStore := rfl

theorem regsOnly_cold (s : State) : regsOnly s.norOnly s.cold := by
  rw [State.cold_eq]
  exact ((regsOnly_copyFields _ _ _).trans (regsOnly_copyVersions _ _)).trans (regsOnly_takeStore _)

section
variable (s : State)

/-- After a loss of power the NOR contents, what is outside the node and the registers alone are not at their reset values. -/
theorem State.cold_frame : { s.cold with regs := s.norOnly.regs } = s.norOnly := regsOnly_cold s

theorem State.power_cold : s.cold.power = { lastGasp := s.power.lastGasp } := (congrArg State.power s.cold_frame :)

theorem State.store_cold : s.cold.store = s.store := (congrArg State.store s.cold_frame :)

theorem State.mem_cold : s.cold.mem = [] := (congrArg State.mem s.cold_frame :)

theorem State.pending_cold : s.cold.pending = s.pending := (congrArg State.pending s.cold_frame :)

end

/-- No field that `takeStore` sets stands at the same bit of its page. -/
def offStore (d : FieldDesc) (i : Nat) : Prop :=
  (d.off + d.stride * i < 4096 ∧ d.lsb < 64) ∧
    ∀ e ∈ [fdPortRole, fdEthMode, fdDikeStateTrial, fdNodectlPosStraps], fieldPlace e 0 ≠ fieldPlace d i

theorem State.getF_takeStore {d : FieldDesc} {i : Nat} (s : State) (p : Nat) (h : offStore d i) :
    s.takeStore.getF d p i = s.getF d p i := by
  obtain ⟨hd, hplaces⟩ := h
  simp only [List.forall_mem_cons, List.not_mem_nil, false_imp_iff, implies_true, and_true] at hplaces
  obtain ⟨hrole, hmode, htrial, hstraps⟩ := hplaces
  have hroles : (s.forEach s.store.roles fun (k, r) z =>
      (z.setF fdPortRole (pgPort (2 * k)) 0 (r - 1)).setF fdPortRole (pgPort (2 * k + 1)) 0 (r - 1)).getF d p i = s.getF d p i := by
    refine State.forEach_keeps (P := fun z => z.getF d p i = s.getF d p i) (fun x _ z hz => ?_) _ rfl
    change (State.setF _ _ _ _ _).getF d p i = _
    rw [State.getF_setF_ne _ _ _ _ _ _ _ _ (descKey_places_ne (by decide) hd hrole),
      State.getF_setF_ne _ _ _ _ _ _ _ _ (descKey_places_ne (by decide) hd hrole), hz]
  unfold State.takeStore
  dsimp only
  rw [State.getF_setF_ne _ _ _ _ _ _ _ _ (descKey_places_ne (by decide) hd hstraps),
    State.getF_setF_ne _ _ _ _ _ _ _ _ (descKey_places_ne (by decide) hd htrial), State.forEach_cons, State.forEach_cons,
    State.forEach_nil, State.getF_setF_ne _ _ _ _ _ _ _ _ (descKey_places_ne (by decide) hd hmode),
    State.getF_setF_ne _ _ _ _ _ _ _ _ (descKey_places_ne (by decide) hd hmode), hroles]

/-- A copied field reads as in the state it is copied from, where no other copied field stands at its place. -/
theorem State.getF_copyFields {l : List (FieldDesc × Nat)} {d : FieldDesc} {p i : Nat} (s old : State) (hmem : (d, p) ∈ l)
    (hi : i < d.count) (happart : ∀ x ∈ l, ∀ j, j < x.1.count → (x = (d, p) ∧ j = i) ∨ descKey x.1 x.2 j ≠ descKey d p i) :
    (s.copyFields l old).getF d p i = old.getF d p i % 2 ^ d.width := by
  have hcopy : ∀ x ∈ l, ∀ j ∈ List.range x.1.count, ∀ z : State, z.getF d p i = old.getF d p i % 2 ^ d.width →
      (z.setF x.1 x.2 j (old.getF x.1 x.2 j)).getF d p i = old.getF d p i % 2 ^ d.width := fun x hx j hj z hz => by
    obtain ⟨rfl, rfl⟩ | hne := happart x hx j (List.mem_range.mp hj)
    · exact State.getF_setF_self ..
    · rw [State.getF_setF_ne _ _ _ _ _ _ _ _ hne, hz]
  exact State.forEach_establishes_of_mem (P := fun z => z.getF d p i = old.getF d p i % 2 ^ d.width)
    (fun z => State.forEach_establishes_of_mem (x := i) (fun z => State.getF_setF_self ..) _ (hcopy _ hmem) (List.mem_range.mpr hi) z)
    l (fun x hx z hz => State.forEach_keeps (hcopy x hx) z hz) hmem s

theorem State.lastgaspCause_cold (s : State) :
    s.cold.getF fdPowerLastgaspCause pgPower = s.getF fdPowerLastgaspCause pgPower % 2 ^ fdPowerLastgaspCause.width := by
  rw [State.cold_eq, State.getF_takeStore _ _ ⟨by decide, by decide⟩]
  unfold State.copyVersions
  rw [State.forEach_cons, State.forEach_cons, State.forEach_cons, State.forEach_nil, State.getF_setF_ne _ _ _ _ _ _ _ _ (by decide),
    State.getF_setF_ne _ _ _ _ _ _ _ _ (by decide), State.getF_setF_ne _ _ _ _ _ _ _ _ (by decide)]
  exact State.getF_copyFields _ _ (by decide) (by decide) (by decide)

end Sys2Proof.Machine
end

section
/-! PROOFS. The 48 V supply and the bank (spec/18_power_thermal_clocks.md). -/
namespace Sys2Proof.Machine

section
variable {s : State} {cv : Nat}

/-! ### Supply states (R460, R461) -/

/-- The state in which a VIN sample has joined the history. -/
def State.vinSampled (s : State) (cv : Nat) : State :=
  let z : State := { s with power := { s.power with samples := (cv :: s.power.samples).take 128 } }
  let l := z.power.samples.take 100
  let z := z.setF fdPowerVin pgPower 0 (l.foldl (· + ·) 0 / l.length)
  let dip := (s.power.samples.takeWhile (· < 3800)).length
  if 3800 ≤ cv && 1 ≤ dip && dip ≤ 2 then z.addF fdPowerSupplyDips pgPower 0 1 else z

/-- The supply state that the sampled history leads to. -/
def State.vinJudged (z : State) (cv : Nat) : State :=
  if 32 ≤ z.runOf (· < 3400) then z.orderlyStop 1
  else if 102 ≤ z.runOf (6600 < ·) then z.orderlyStop 2
  else if 7 ≤ z.runOf (· < 3800) then z.enterBrownout
  else if 3 ≤ z.supply then z
  else z.setSupply (supplyOf cv z.supply)

theorem State.vinSample_eq (s : State) (cv : Nat) : s.vinSample cv = (s.vinSampled cv).vinJudged cv := rfl

theorem State.power_vinSampled (s : State) (cv : Nat) :
    (s.vinSampled cv).power = { s.power with samples := (cv :: s.power.samples).take 128 } := by
  unfold State.vinSampled
  dsimp only
  split <;> rfl

theorem State.vinSampled_frame (s : State) (cv : Nat) : { s.vinSampled cv with power := s.power, regs := s.regs } = s := by
  unfold State.vinSampled
  dsimp only
  split <;> rfl

theorem State.supply_vinSampled (s : State) (cv : Nat) : (s.vinSampled cv).supply = s.supply := by
  have hvin : descKey fdPowerVin pgPower 0 ≠ descKey fdPowerSupplyState pgPower 0 := by decide
  have hdips : descKey fdPowerSupplyDips pgPower 0 ≠ descKey fdPowerSupplyState pgPower 0 := by decide
  unfold State.vinSampled State.supply
  dsimp only
  split
  · rw [State.getF_addF_ne _ _ hdips, State.getF_setF_ne _ _ _ _ _ _ _ _ hvin]; rfl
  · rw [State.getF_setF_ne _ _ _ _ _ _ _ _ hvin]; rfl

theorem State.vin_vinSampled (s : State) (cv : Nat) {l : List Nat} (hl : l = (s.vinSampled cv).power.samples.take 100) :
    (s.vinSampled cv).getF fdPowerVin pgPower = l.foldl (· + ·) 0 / l.length % 2 ^ fdPowerVin.width := by
  have hdips : descKey fdPowerSupplyDips pgPower 0 ≠ descKey fdPowerVin pgPower 0 := by decide
  rw [State.power_vinSampled] at hl
  subst hl
  unfold State.vinSampled
  dsimp only
  split
  · rw [State.getF_addF_ne _ _ hdips, State.getF_setF_self]
  · rw [State.getF_setF_self]

theorem exec_vinSample_of_rated (s : State) (h : cv ≤ 10000) : exec (.vinSample cv) s = .next ((s.vinSampled cv).vinJudged cv) :=
  if_neg (Nat.not_lt.mpr h)

theorem supplyOf_lt (cv : Nat) : supplyOf cv 0 < 3 := by
  unfold supplyOf
  split_ifs <;> decide

/-- A supply state that changes is shown, and raises an urgent summary; nothing of the power unit's own state changes. -/
theorem State.setSupply_spec {v : Nat} (hne : s.supply ≠ v) (hv : v < 8) :
    (s.setSupply v).supply = v ∧ (s.setSupply v).urgentDue = true ∧ (s.setSupply v).power = s.power := by
  rw [State.setSupply, if_neg hne]
  refine ⟨?_, rfl, State.event_power ..⟩
  change (State.event _ _ _ _ _ _ _).getF fdPowerSupplyState pgPower = v
  rw [State.getF_event_apart _ (by decide) (by decide) (by decide), State.getF_setF_self]
  exact Nat.mod_eq_of_lt hv

/-! ### The last gasp (R464) -/

/-- The state in which the last-gasp record stands in the ring of eight. -/
def State.gasped (s : State) : State :=
  let z : State := { s with power := { s.power with lastGasp := (s.power.gasp :: s.power.lastGasp).take 8 } }
  (z.setF fdPowerLastgaspCause pgPower 0 s.power.stopping).setF fdPowerLastgaspTime pgPower 0 (leField s.power.gasp 8 8)

end

theorem exec_lastGaspWritten_of_stopping (hstopping : s.power.stopping ≠ 0) (hon : s.power.off = false) :
    exec .lastGaspWritten s = .next { s.gasped.cold with power := { s.gasped.cold.power with off := true } } := by
  exact if_neg (by simp [hstopping, hon])

theorem State.gasped_cold_spec (s : State) :
    s.gasped.cold.power = { lastGasp := (s.power.gasp :: s.power.lastGasp).take 8 } ∧ s.gasped.cold.store = s.store ∧
      s.gasped.cold.pending = s.pending ∧
      s.gasped.cold.getF fdPowerLastgaspCause pgPower = s.power.stopping % 2 ^ fdPowerLastgaspCause.width := by
  refine ⟨s.gasped.power_cold, s.gasped.store_cold, s.gasped.pending_cold, ?_⟩
  rw [State.lastgaspCause_cold, State.gasped]
  dsimp only
  rw [State.getF_setF_ne _ _ _ _ _ _ _ _ (by decide), State.getF_setF_self, Nat.mod_mod]

/-- Settles O53: a sample joins the history, which is then judged, and every other command is one of its branches. -/
theorem supply : Obligations.Supply := by
  unfold Obligations.Supply
  refine ⟨fun cv s hcv => ⟨if_pos hcv, if_pos hcv⟩, fun cv s hcv => ?_, fun cv s z hz => ?_, fun cv s hcv => ⟨fun h => ?_, fun h => ?_⟩,
    fun s => ⟨fun h => ?_, fun h => ?_⟩, fun s => ⟨fun h => ?_, fun hstopping hon => ?_⟩⟩
  · refine ⟨_, exec_vinSample_of_rated s hcv, s.vinSampled cv, s.power_vinSampled cv, s.vinSampled_frame cv, s.supply_vinSampled cv,
      fun l hl => s.vin_vinSampled cv hl, fun hlow => if_pos hlow, fun hlow hhigh => ?_, fun hlow hhigh => ⟨fun hdip => ?_,
      fun hdip hstate => ?_, fun hdip hstate => ?_⟩⟩
    · rw [State.vinJudged, if_neg (Nat.not_le.mpr hlow), if_pos hhigh]
    · rw [State.vinJudged, if_neg (Nat.not_le.mpr hlow), if_neg (Nat.not_le.mpr hhigh), if_pos hdip]
    · rw [State.vinJudged, if_neg (Nat.not_le.mpr hlow), if_neg (Nat.not_le.mpr hhigh), if_neg (Nat.not_le.mpr hdip), if_pos hstate]
    · rw [State.vinJudged, if_neg (Nat.not_le.mpr hlow), if_neg (Nat.not_le.mpr hhigh), if_neg (Nat.not_le.mpr hdip),
        if_neg (Nat.not_le.mpr hstate)]
  · subst hz
    exact ⟨fun hstop => ⟨_, rfl, if_pos hstop⟩,
      fun hstop hbrown => ⟨_, rfl, (if_neg (Nat.not_lt.mpr hstop)).trans (if_pos hbrown)⟩,
      fun hbrown => ⟨_, rfl, (if_neg (by omega)).trans (if_neg (by omega))⟩⟩
  · exact ⟨_, if_neg (Nat.not_lt.mpr hcv), if_pos h⟩
  · exact ⟨_, if_neg (Nat.not_lt.mpr hcv), if_neg (Nat.not_lt.mpr h)⟩
  · exact ⟨_, if_neg h, rfl⟩
  · have hnew := supplyOf_lt (s.power.samples.headD 4800)
    obtain ⟨hsupply, hurgent, hpower⟩ := s.setSupply_spec (v := supplyOf (s.power.samples.headD 4800) 0) (by omega) (by omega)
    exact ⟨_, if_pos h, by rw [hpower], hsupply, hurgent⟩
  · exact ⟨_, if_pos (by simpa using h), rfl⟩
  · obtain ⟨hpower, hstore, hpending, hcause⟩ := s.gasped_cold_spec
    exact ⟨_, exec_lastGaspWritten_of_stopping hstopping hon, by rw [hpower], hstore, hpending, hcause⟩

end Sys2Proof.Machine
end

section
/-! PROOFS. Draw, heat and deep idle (spec/18_power_thermal_clocks.md). -/
namespace Sys2Proof.Machine

/-! ### Draw (R465–R469) -/

theorem State.noteDraw_frame (s : State) (watts c : Nat) :
    ∃ p : PowerState, s.noteDraw watts c = { s with power := p } ∧ p.powers = s.power.powers := by
  unfold State.noteDraw
  dsimp only
  split
  · split
    · exact ⟨_, rfl, rfl⟩
    · exact ⟨_, rfl, rfl⟩
  · exact ⟨_, rfl, rfl⟩

/-- The state in which one more millisecond's draw is shown and counted. -/
def State.drawShown (s : State) (watts : Nat) : State :=
  let s := (s.setF fdPowerPin pgPower 0 watts).addF fdPowerEnergy pgPower 0 watts
  let vin := s.getF fdPowerVin pgPower
  let s := if vin = 0 then s else s.setF fdPowerIin pgPower 0 (watts * 10000 / vin)
  s.forEach allCtxs fun x s => s.noteDraw watts x

/-- What a millisecond shows of the ceiling and of the floor `f`, with `v` joules of filler. -/
def State.boundsShown (s : State) (capped : Bool) (f watts v : Nat) : State :=
  let s := (s.setF fdPowerRampCapped pgPower 0 capped.toNat).setF fdPowerBankEffectiveW pgPower 0 f
  let s := if capped then s.addF fdPowerRampCapMs pgPower 0 1 else s
  if !capped && watts ≤ f then s.addF fdPowerBankFillJ pgPower 0 v else s

theorem State.drawShown_spec (s : State) (watts : Nat) :
    (s.drawShown watts).getF fdPowerPin pgPower = watts % 2 ^ fdPowerPin.width ∧
      (s.drawShown watts).power.powers = s.power.powers := by
  unfold State.drawShown
  dsimp only
  refine State.forEach_keeps (P := fun z => z.getF fdPowerPin pgPower = watts % 2 ^ fdPowerPin.width ∧
    z.power.powers = s.power.powers) (fun x _ z hz => ?_) _ ?_
  · obtain ⟨p, hframe, hpowers⟩ := z.noteDraw_frame watts x
    rw [hframe]
    exact ⟨hz.1, hpowers.trans hz.2⟩
  · split
    · exact ⟨(State.getF_addF_ne _ _ (by decide)).trans (State.getF_setF_self ..), rfl⟩
    · refine ⟨?_, rfl⟩
      rw [State.getF_setF_ne _ _ _ _ _ _ _ _ (by decide), State.getF_addF_ne _ _ (by decide), State.getF_setF_self]

theorem State.boundsShown_spec (s : State) (capped : Bool) (f watts v : Nat) :
    (s.boundsShown capped f watts v).getF fdPowerRampCapped pgPower = capped.toNat ∧
      (s.boundsShown capped f watts v).getF fdPowerBankEffectiveW pgPower = f % 2 ^ fdPowerBankEffectiveW.width ∧
      (s.boundsShown capped f watts v).getF fdPowerPin pgPower = s.getF fdPowerPin pgPower ∧
      (s.boundsShown capped f watts v).power = s.power := by
  have hbit : capped.toNat % 2 ^ fdPowerRampCapped.width = capped.toNat := Nat.mod_eq_of_lt (Bool.toNat_lt capped)
  unfold State.boundsShown
  dsimp only
  split_ifs <;>
    simp (disch := decide) only [State.getF_setF_ne, State.getF_addF_ne, State.getF_setF_self, hbit, State.setF_power,
      State.addF_power, and_self]

/-- The joules that the floor fills in a millisecond, where it fills at all, are free. -/
def State.fillDrawn (s : State) (fills : Bool) : Nat × State := if fills then s.free else (0, s)

theorem State.getF_withFreeCount (s : State) (n : Nat) (d : FieldDesc) (p i : Nat) :
    State.getF { s with freeCount := n } d p i = s.getF d p i := rfl

theorem State.fillDrawn_frame (s : State) (fills : Bool) : ∃ n, (s.fillDrawn fills).2 = { s with freeCount := n } := by
  cases fills
  · exact ⟨_, rfl⟩
  · exact ⟨_, rfl⟩

/-- The end of a sample: the event of a changed RAMP.CAPPED, and the samples kept. -/
def State.sampleEnded (s : State) (was c watts v : Nat) : State :=
  let capped := decide (c ≤ watts)
  let s := if was ≠ capped.toNat then s.event pgPower 0 (some 5) 0x0151 capped.toNat c else s
  { s with power := { s.power with
      powers := (watts :: s.power.powers).take 10
      ceil := if capped then 8 + v % 73 else 80
      targets := s.power.targets.filter fun t => s.now ≤ t.2.2 } }

theorem State.sampleEnded_spec (s : State) (was c watts v : Nat) :
    (∀ (d : FieldDesc), unrecorded d 0 = true → (s.sampleEnded was c watts v).getF d pgPower = s.getF d pgPower) ∧
      (s.sampleEnded was c watts v).power.powers = (watts :: s.power.powers).take 10 := by
  unfold State.sampleEnded
  dsimp only
  split
  · refine ⟨fun d hd => s.getF_event_apart (by decide) (by decide) hd _ _ _ _ _ _, ?_⟩
    rw [State.event_power]
  · exact ⟨fun d hd => rfl, rfl⟩

theorem State.powerSample_eq (s : State) (watts : Nat) :
    s.powerSample watts =
      let x := (s.drawShown watts).fillDrawn (decide (s.ceiling ≤ watts) || decide (watts ≤ s.floorW s.ceiling))
      (x.2.boundsShown (decide (s.ceiling ≤ watts)) (s.floorW s.ceiling) watts x.1).sampleEnded
        ((s.drawShown watts).getF fdPowerRampCapped pgPower) s.ceiling watts x.1 := by
  unfold State.powerSample
  extract_lets c f z1 vin z2 z was capped x
  have hc : s.ceiling = c := rfl
  have hf : s.floorW c = f := rfl
  have hz : s.drawShown watts = z := rfl
  subst x
  rw [hc, hf, hz]
  clear_value c f z
  unfold State.fillDrawn
  rfl

theorem State.powerSample_spec (s : State) (watts : Nat) :
    (s.powerSample watts).getF fdPowerPin pgPower = watts % 2 ^ fdPowerPin.width ∧
      (s.powerSample watts).getF fdPowerRampCapped pgPower = (decide (s.ceiling ≤ watts)).toNat ∧
      (s.powerSample watts).getF fdPowerBankEffectiveW pgPower = s.floorW s.ceiling % 2 ^ fdPowerBankEffectiveW.width ∧
      (s.powerSample watts).power.powers = (watts :: s.power.powers).take 10 := by
  obtain ⟨hpin, hpowers⟩ := s.drawShown_spec watts
  rw [State.powerSample_eq]
  generalize s.floorW s.ceiling = f
  generalize s.ceiling = c
  have hframe := (s.drawShown watts).fillDrawn_frame (decide (c ≤ watts) || decide (watts ≤ f))
  generalize (s.drawShown watts).fillDrawn (decide (c ≤ watts) || decide (watts ≤ f)) = x at hframe ⊢
  obtain ⟨n, hn⟩ := hframe
  obtain ⟨hcapped, heffective, hsame, hpower⟩ := x.2.boundsShown_spec (decide (c ≤ watts)) f watts x.1
  obtain ⟨hfields, hkept⟩ := (x.2.boundsShown (decide (c ≤ watts)) f watts x.1).sampleEnded_spec
    ((s.drawShown watts).getF fdPowerRampCapped pgPower) c watts x.1
  dsimp only
  rw [hfields _ (by decide), hfields _ (by decide), hfields _ (by decide), hkept, hsame, hpower]
  refine ⟨?_, hcapped, heffective, ?_⟩
  · rw [hn, State.getF_withFreeCount, hpin]
  · rw [hn, hpowers]

/-! ### Deep idle (R471) -/

theorem State.pstate_putAsleep (s : State) (g : Nat) {f : Nat} (hf : f < 256) :
    ((s.setPstate g psAsleep).unitsOff g).pstate f = if g = f then psAsleep else s.pstate f := by
  have hevent : ∀ (z : State) (v : Nat), (z.event (pgFlask g) 0 (some 3) 0x0103 v 0).getF fdFlaskPstateState (pgFlask f) =
      z.getF fdFlaskPstateState (pgFlask f) := fun z v =>
    z.getF_event_apart (by simp only [pgFlask, pgSched]; omega) (by simp only [pgFlask, pgObs]; omega) (by decide) _ _ _ _ _ _
  have hoff : ((s.setPstate g psAsleep).unitsOff g).pstate f = (s.setPstate g psAsleep).pstate f := by
    rw [State.pstate, State.unitsOff, State.getF_setFlask]
    rw [State.getF_setF_ne _ _ _ _ _ _ _ _ (descKey_places_ne (by decide) (by decide) (by decide)),
      State.getF_setF_ne _ _ _ _ _ _ _ _ (descKey_places_ne (by decide) (by decide) (by decide))]
    rfl
  rw [hoff, State.setPstate, State.pstate, hevent]
  split
  next heq => rw [heq, State.getF_setF_self]; rfl
  next hne =>
    rw [State.getF_setF_ne _ _ _ _ _ _ _ _ (descKey_page_ne (p := pgFlask g) (q := pgFlask f) hne (by decide) (by decide) (by decide) (by decide))]
    rfl

/-- The node as every flask's mesh is off. -/
def State.flasksAsleep (s : State) : State :=
  s.forEach ((List.range 256).filter fun f => s.pstate f ≠ psAsleep) fun f s => (s.setPstate f psAsleep).unitsOff f

theorem State.pstate_flasksAsleep (s : State) {f : Nat} (hf : f < 256) : s.flasksAsleep.pstate f = psAsleep := by
  have hkeep : ∀ (g : Nat) (z : State), z.pstate f = psAsleep → ((z.setPstate g psAsleep).unitsOff g).pstate f = psAsleep :=
    fun g z hz => by rw [State.pstate_putAsleep z g hf, hz, ite_self]
  by_cases hasleep : s.pstate f = psAsleep
  · exact State.forEach_keeps (fun g _ => hkeep g) s hasleep
  · exact State.forEach_establishes (P := fun z => z.pstate f = psAsleep) (fun z => by rw [State.pstate_putAsleep z f hf, if_pos rfl])
      hkeep _ (by simp [hf, hasleep]) s

theorem State.flasksAsleep_frame (s : State) : s.flasksAsleep.hbm = s.hbm ∧ s.flasksAsleep.lsa = s.lsa := by
  refine State.forEach_keeps (P := fun z => z.hbm = s.hbm ∧ z.lsa = s.lsa) (fun g _ z hz => ?_) s ⟨rfl, rfl⟩
  exact ⟨(State.event_hbm ..).trans hz.1, (State.event_lsa ..).trans hz.2⟩

theorem exec_deepEntryDone_of_entering {s : State} (h : s.getF fdPowerIdleState pgPower = 2) :
    exec .deepEntryDone s = .next (State.setF { s.flasksAsleep with
      hbm := { s.flasksAsleep.hbm with selfRefresh := 1 }
      lsa := { s.flasksAsleep.lsa with gated := true, waking := false } } fdPowerIdleState pgPower 0 3) :=
  if_neg (not_not_intro h)

/-- The node out of DEEP, what it held not served yet. -/
def State.deepLeft (s : State) : State :=
  State.setF { s with power := { s.power with exiting := false, heldMgmt := [] } } fdPowerIdleState pgPower 0 0

theorem exec_deepExitDone_of_exiting {s : State} (hdeep : s.inDeep = true) (hexiting : s.power.exiting = true) :
    exec .deepExitDone s = .next (s.deepLeft.forEach s.power.heldMgmt fun m z => z.recvMgmt m.1 m.2).finish :=
  if_neg (by simp [hdeep, hexiting])

/-! ### Heat (R473) -/

/-- Fields of one register that begin at different bits stand at different places. -/
theorem fieldPlace_lsb_ne {d e : FieldDesc} (i : Nat) (hoff : d.off = e.off) (hstride : d.stride = e.stride) (hlsb : d.lsb ≠ e.lsb) :
    fieldPlace d i ≠ fieldPlace e i := by
  rw [fieldPlace, fieldPlace, hoff, hstride]
  omega

theorem dieStateOf_lt (was t : Nat) : dieStateOf was t < 2 ^ fdPowerDieState.width := by
  unfold dieStateOf
  split_ifs <;> decide

/-- The state in which a die's reading is shown. -/
def State.dieShown (s : State) (d t : Nat) : State :=
  let st := dieStateOf (s.getF fdPowerDieState pgPower d) t
  (((s.setF fdPowerDieTj pgPower d t).setF fdPowerDieTjmax pgPower d (max t (s.getF fdPowerDieTjmax pgPower d))).setF
    fdPowerDieState pgPower d st).setF fdPowerDieCap pgPower d (dieCapOf st t)

theorem State.dieShown_spec (s : State) (d : Nat) {t : Nat} (ht : t < 256) :
    (s.dieShown d t).getF fdPowerDieTj pgPower d = t ∧
      (s.dieShown d t).getF fdPowerDieState pgPower d = dieStateOf (s.getF fdPowerDieState pgPower d) t ∧
      (s.dieShown d t).getF fdPowerDieTjmax pgPower d = max t (s.getF fdPowerDieTjmax pgPower d) % 2 ^ fdPowerDieTjmax.width ∧
      (s.dieShown d t).getF fdPowerDieCap pgPower d =
        dieCapOf (dieStateOf (s.getF fdPowerDieState pgPower d) t) t % 2 ^ fdPowerDieCap.width := by
  have hcap : ∀ e ∈ [fdPowerDieTj, fdPowerDieTjmax, fdPowerDieState], fieldPlace fdPowerDieCap d ≠ fieldPlace e d := by
    simp only [List.forall_mem_cons, List.not_mem_nil, false_imp_iff, implies_true, and_true]
    exact ⟨fieldPlace_lsb_ne d rfl rfl (by decide), fieldPlace_lsb_ne d rfl rfl (by decide), fieldPlace_lsb_ne d rfl rfl (by decide)⟩
  have hstate : ∀ e ∈ [fdPowerDieTj, fdPowerDieTjmax], fieldPlace fdPowerDieState d ≠ fieldPlace e d := by
    simp only [List.forall_mem_cons, List.not_mem_nil, false_imp_iff, implies_true, and_true]
    exact ⟨fieldPlace_lsb_ne d rfl rfl (by decide), fieldPlace_lsb_ne d rfl rfl (by decide)⟩
  refine ⟨?_, ?_, ?_, State.getF_setF_self ..⟩
  · rw [State.dieShown, State.getF_setF_place _ _ _ (hcap _ (by simp)), State.getF_setF_place _ _ _ (hstate _ (by simp)),
      State.getF_setF_place _ _ _ (fieldPlace_lsb_ne (d := fdPowerDieTjmax) (e := fdPowerDieTj) d rfl rfl (by decide)), State.getF_setF_self]
    exact Nat.mod_eq_of_lt ht
  · rw [State.dieShown, State.getF_setF_place _ _ _ (hcap _ (by simp)), State.getF_setF_self]
    exact Nat.mod_eq_of_lt (dieStateOf_lt _ _)
  · rw [State.dieShown, State.getF_setF_place _ _ _ (hcap _ (by simp)), State.getF_setF_place _ _ _ (hstate _ (by simp)),
      State.getF_setF_self]

/-- Settles O54: a sample is shown and judged in turn, DEEP puts every flask asleep, and a reading sets its die's four fields. -/
theorem powerAndHeat : Obligations.PowerAndHeat := by
  unfold Obligations.PowerAndHeat
  refine ⟨fun watts s => ⟨_, rfl, s.powerSample_spec watts⟩, fun c s n hn => ⟨fun h => ?_, fun h near p hnear hp => ?_⟩,
    fun s => ⟨fun h => ?_, fun h => ?_⟩, fun s => ⟨fun h => ?_, fun hdeep hexiting => ?_⟩, fun d reading s st hst => ?_⟩
  · exact ⟨_, if_pos (hn.symm.trans h), rfl⟩
  · subst hnear hp hn
    exact ⟨_, if_neg h, recordsOnly_trace _ _ _ _ _⟩
  · exact ⟨_, if_pos h, rfl⟩
  · obtain ⟨hhbm, hlsa⟩ := s.flasksAsleep_frame
    refine ⟨_, exec_deepEntryDone_of_entering h, State.getF_setF_self .., by rw [← hhbm]; rfl, by rw [← hlsa]; rfl, fun f hf => ?_⟩
    exact (State.getF_setF_ne _ _ _ _ _ _ _ _ (descKey_places_ne (by decide) (by decide) (by decide))).trans
      (s.pstate_flasksAsleep hf)
  · exact ⟨_, if_pos (by simpa using h), rfl⟩
  · exact ⟨_, exec_deepExitDone_of_exiting hdeep hexiting, s.deepLeft, rfl, rfl, fieldOnly_setF _ _ _ _ 0, rfl⟩
  · obtain ⟨htj, hstate, htjmax, hcap⟩ := s.dieShown_spec d.val reading.isLt
    subst hst
    refine ⟨_, rfl, htj, hstate, htjmax, hcap, rfl, fun hcool => ?_⟩
    exact (mapGet_put_self ..).trans (if_neg hcool)

end Sys2Proof.Machine
end

section
/-! SUPPORT. What leaves the state of the boot alone: status capsules, JOB_FATAL, the life of a port, and a node reset (R435, R509, R510). -/
namespace Sys2Proof.Machine

/-! ### Statuses and reports -/

@[simp] theorem State.boot_ethSend (s : State) (i : Nat) (o : Output) : (s.ethSend i o).boot = s.boot := by
  unfold State.ethSend
  dsimp only
  split <;> rfl

@[simp] theorem State.boot_answer (s : State) (q : Nat) (x : StatusCap) : (s.answer q x).boot = s.boot := by
  unfold State.answer State.postStatus
  rw [State.trace_boot]
  dsimp only
  split
  · rfl
  · exact State.boot_ethSend ..

@[simp] theorem State.boot_sendStatus (s : State) (q : Nat) (x : StatusCap) : (s.sendStatus q x).boot = s.boot := by
  unfold State.sendStatus
  split
  · exact State.boot_answer ..
  · rfl

@[simp] theorem State.boot_report (s : State) (job gen : Nat) (payload : List Byte) : (s.report job gen payload).boot = s.boot := by
  refine State.forEach_keeps (P := fun z => z.boot = s.boot) (fun q _ z hz => (State.boot_sendStatus ..).trans hz) _ ?_
  split <;> rfl

@[simp] theorem State.boot_jobFatal (s : State) (c cause seq dead : Nat) : (s.jobFatal c cause seq dead).boot = s.boot := by
  rw [State.jobFatal, State.addF_boot, State.boot_report]

@[simp] theorem State.boot_jobFatalAll (s : State) (cause seq : Nat) : (s.jobFatalAll cause seq).boot = s.boot :=
  State.forEach_keeps (P := fun z => z.boot = s.boot) (fun _ _ _ hz => (State.boot_jobFatal ..).trans hz) s rfl

/-! ### The life of a port (R289, R290, R294–R303, R354) -/

theorem recordsOnly_traceOut (s : State) (o : Option Nat) (r : TraceRec) : recordsOnly s (s.traceOut o r) := by
  obtain ⟨_, _, _, _, _, h⟩ := s.traceOut_frame o r
  rw [h]
  rfl

theorem recordsOnly_syncRecord (s : State) : recordsOnly s s.syncRecord := by
  have hctxs : ∀ r : TraceRec, recordsOnly s (s.forEach allCtxs fun c z => z.traceToCtx c r) := fun r =>
    State.forEach_keeps (P := recordsOnly s) (fun c _ z hz => hz.trans (recordsOnly_traceOut z (some c) r)) s rfl
  exact (hctxs _).trans (recordsOnly_traceOut _ none _)

theorem recordsOnly.boot_eq {s u : State} (h : recordsOnly s u) : u.boot = s.boot := (congrArg State.boot h :)

/-- A branch of which both sides leave the state of the boot alone. -/
theorem State.boot_ite {c : Prop} [Decidable c] {s t : State} {b : BootState} (hs : s.boot = b) (ht : t.boot = b) :
    (if c then s else t).boot = b := by
  split
  · exact hs
  · exact ht

@[simp] theorem State.boot_setFt (s : State) (v : Nat) : (s.setFt v).boot = s.boot := by
  refine State.boot_ite rfl ((recordsOnly_syncRecord _).boot_eq.trans ((State.event_boot ..).trans ?_))
  exact State.boot_ite (State.boot_ite rfl rfl) (State.boot_ite rfl rfl)

@[simp] theorem State.boot_moveFlows (s : State) (p : Nat) : (s.moveFlows p).boot = s.boot := State.boot_ite rfl rfl

@[simp] theorem State.boot_setPortState (s : State) (p st cause : Nat) : (s.setPortState p st cause).boot = s.boot := by
  unfold State.setPortState
  extract_lets was s1 s2 s3 s4 s5
  have h2 : s2.boot = s.boot := State.event_boot ..
  have h3 : s3.boot = s.boot := State.boot_ite ((State.boot_moveFlows ..).trans h2) h2
  have h4 : s4.boot = s.boot := State.boot_ite h3 h3
  have h5 : s5.boot = s.boot := State.boot_ite (State.boot_ite h4 h4) h4
  exact State.boot_ite rfl (State.boot_ite ((State.boot_setFt ..).trans h5) h5)

/-! ### Node resets (R509, R510) -/

theorem State.boot_bare (s : State) : s.bare.boot = { held := s.boot.held, straps := s.boot.straps } := by
  obtain ⟨b, hb, hbare⟩ : ∃ b : State, b.boot = { held := s.boot.held, straps := s.boot.straps } ∧
      s.bare = ((b.copyFields keptFields s).copyVersions s).takeStore := ⟨_, rfl, rfl⟩
  have hregs : regsOnly b s.bare :=
    hbare ▸ ((regsOnly_copyFields _ _ _).trans (regsOnly_copyVersions _ _)).trans (regsOnly_takeStore _)
  exact (congrArg State.boot hregs :).trans hb

/-- RESET_REQ_N held low stays held through a node reset. -/
theorem State.held_nodeReset {s : State} (h : s.boot.held = true) (cause : Nat) : (s.nodeReset cause).boot.held = true := by
  unfold State.nodeReset
  split
  · exact h
  · have hbare : (s.jobFatalAll 0x0103 0).bare.boot.held = true := by rw [State.boot_bare, State.boot_jobFatalAll]; exact h
    have hevent : (State.event (State.setF (State.addF (s.jobFatalAll 0x0103 0).bare fdNodectlResetCount pgNodectl 0 1)
        fdNodectlResetCause pgNodectl 0 cause) pgNodectl 0 none 0x0009 1 0).boot.held = true := by
      rw [State.event_boot]
      exact hbare
    rw [State.romStart, if_pos hevent]
    exact hevent

end Sys2Proof.Machine
end

section
/-! PROOFS. Boot and resets (spec/20_power_up_and_reset.md). -/
namespace Sys2Proof.Machine

section
variable {s : State}

/-! ### Contacts and the ROM's start (R504, R509, R571) -/

theorem State.romStart_of_free (h : s.boot.held = false) :
    s.romStart = ((s.setF fdNodectlPosStraps pgNodectl 0 s.boot.straps).setF fdNodectlStatusStage pgNodectl 0 1).emit (.ibi 1) :=
  if_neg (by simp [h])

theorem State.romStart_of_held (h : s.boot.held = true) : s.romStart = s := if_pos h

theorem State.straps_takeStore (s : State) :
    s.takeStore.getF fdNodectlPosStraps pgNodectl = s.boot.straps % 2 ^ fdNodectlPosStraps.width := by
  have hboot : s.takeStore.boot = s.boot := (congrArg State.boot (regsOnly_takeStore s) :)
  rw [← hboot]
  exact State.getF_setF_self ..

/-- The node with 48 V in range, as the ROM starts. -/
def State.poweredUp (s : State) (straps : Nat) : State :=
  State.takeStore { s with
    boot := { s.boot with straps := straps }
    power := { s.power with off := false, isolated := false, good := true } }

theorem exec_powerUp_of_in_range {straps : BitVec 2} {vinOk : Bool} (hvin : vinOk = true) (hgood : s.power.good = false) :
    exec (.powerUp straps vinOk) s = .next (s.poweredUp straps.toNat).romStart :=
  if_neg (by simp [hvin, hgood])

theorem State.poweredUp_spec (s : State) (straps : BitVec 2) :
    (s.poweredUp straps.toNat).power = { s.power with off := false, isolated := false, good := true } ∧
      (s.poweredUp straps.toNat).boot = { s.boot with straps := straps.toNat } ∧ (s.poweredUp straps.toNat).out = s.out ∧
      (s.poweredUp straps.toNat).getF fdNodectlPosStraps pgNodectl = straps.toNat := by
  have hregs := regsOnly_takeStore { s with
    boot := { s.boot with straps := straps.toNat }
    power := { s.power with off := false, isolated := false, good := true } }
  refine ⟨(congrArg State.power hregs :), (congrArg State.boot hregs :), (congrArg State.out hregs :), ?_⟩
  exact (State.straps_takeStore _).trans (Nat.mod_eq_of_lt straps.isLt)

/-- As the ROM starts, the straps are shown; where RESET_REQ_N is not held it sets the stage to VERIFY and asks for a position. -/
theorem State.romStart_spec (s : State) (hstraps : s.getF fdNodectlPosStraps pgNodectl = s.boot.straps % 2 ^ fdNodectlPosStraps.width) :
    s.romStart.power = s.power ∧ s.romStart.boot = s.boot ∧
      s.romStart.getF fdNodectlPosStraps pgNodectl = s.boot.straps % 2 ^ fdNodectlPosStraps.width ∧
      (s.boot.held = false → s.romStart.getF fdNodectlStatusStage pgNodectl = 1 ∧ s.romStart.out = s.out ++ [.ibi 1]) := by
  cases hheld : s.boot.held with
  | false =>
    rw [State.romStart_of_free hheld]
    refine ⟨rfl, rfl, ?_, fun _ => ⟨?_, rfl⟩⟩
    · rw [State.getF_emit, State.getF_setF_ne _ _ _ _ _ _ _ _ (by decide), State.getF_setF_self]
    · rw [State.getF_emit, State.getF_setF_self]
      rfl
  | true =>
    rw [State.romStart_of_held hheld]
    exact ⟨rfl, rfl, hstraps, fun h => by simp at h⟩

/-! ### The boot ROM (R482, R486, R501) -/

theorem State.recovery_spec (s : State) :
    s.recovery.getF fdDikeStateRecovery pgDike = 1 ∧ s.recovery.getF fdNodectlStatusStage pgNodectl = 6 ∧ regsOnly s s.recovery :=
  ⟨(State.getF_setF_ne _ _ _ _ _ _ _ _ (by decide)).trans (State.getF_setF_self ..), State.getF_setF_self .., rfl⟩

theorem State.firmware_runBank (s : State) (b : Nat) : (s.runBank b).boot.firmware = true :=
  State.forEach_keeps (P := fun z => z.boot.firmware = true)
    (fun p _ z hz => (congrArg BootState.firmware (z.boot_setPortState p psLaser 0)).trans hz) _ rfl

section
variable (hstage : s.getF fdNodectlStatusStage pgNodectl = 1)
include hstage

theorem exec_bootVerifyDone_of_stranger (hidentity : Config.identityGood s.bootCount = false) :
    exec .bootVerifyDone s = .next (s.setF fdDikeStateIdentity pgDike 0 0).recovery :=
  (if_neg (not_not_intro hstage)).trans (if_pos (by simp [hidentity]))

variable (hidentity : Config.identityGood s.bootCount = true)
include hidentity

theorem exec_bootVerifyDone_of_badStore (hstore : Config.storeGood s.bootCount = false) :
    exec .bootVerifyDone s = .next s.recovery :=
  (if_neg (not_not_intro hstage)).trans ((if_neg (by simp [hidentity])).trans (if_pos (by simp [hstore])))

theorem exec_bootVerifyDone_of_good (hstore : Config.storeGood s.bootCount = true) :
    exec .bootVerifyDone s = .next (if s.bankGood s.store.preferred then s.runBank s.store.preferred
      else if s.bankGood (1 - s.store.preferred) then s.runBank (1 - s.store.preferred) else s.recovery) :=
  (if_neg (not_not_intro hstage)).trans ((if_neg (by simp [hidentity])).trans (if_neg (by simp [hstore])))

end

/-! ### Training and self-test (R504, R506) -/

theorem exec_hbmTrainingDone_of_due {failed : List (SiteId × Fin 32)} (hfirmware : s.boot.firmware = true)
    (htrained : s.boot.trained = false) {z : State} (hz : z = s.forEach failed fun x t => t.mapOut x.1.val x.2.val) :
    exec (.hbmTrainingDone failed) s = if z.boot.trainingFailed then .next z else
      .next (State.stageOn { z.zeroRange 0 (z.getF fdMemmapTop pgMemmap) with
        boot := { (z.zeroRange 0 (z.getF fdMemmapTop pgMemmap)).boot with trained := true } }) := by
  subst hz
  exact if_neg (by simp [hfirmware, htrained])

/-! ### READY (R507) -/

/-- The state in which READY is shown. -/
def State.readyShown (s : State) : State :=
  ((s.setF fdNodectlStatusReady pgNodectl 0 1).setF fdNodectlStatusStage pgNodectl 0 5).setF fdNodectlReadyTime pgNodectl 0 s.now

/-- The node back in service, in at least WATCH (R457). -/
def State.inService (s : State) : State :=
  if s.err.out then
    { (s.setF fdErraggSpareState pgErragg 0 (max 1 s.spareCondition)) with err := { s.err with out := false }, urgentDue := true }
  else s

theorem exec_nodeReady_of_ok (hok : s.readyOk = true) (hready : s.getF fdNodectlStatusReady pgNodectl ≠ 1) :
    exec .nodeReady s = .next { s.readyShown.endTrial.inService with dike := { s.readyShown.endTrial.inService.dike with
      readyAt := if s.readyShown.endTrial.inService.dike.readyAt = 0 then s.readyShown.endTrial.inService.now + 1
        else s.readyShown.endTrial.inService.dike.readyAt } } :=
  if_neg (by simp [hok, hready])

theorem State.getF_endTrial {d : FieldDesc} {p : Nat} (s : State) (htrial : descKey fdDikeStateTrial pgDike 0 ≠ descKey d p 0)
    (hgen : descKey fdDikeCfgGen pgDike 0 ≠ descKey d p 0) : s.endTrial.getF d p = s.getF d p := by
  unfold State.endTrial
  split
  · rw [State.getF_addF_ne _ _ hgen, State.getF_setF_ne _ _ _ _ _ _ _ _ htrial]
    rfl
  · rfl

theorem State.getF_inService {d : FieldDesc} {p : Nat} (s : State) (h : descKey fdErraggSpareState pgErragg 0 ≠ descKey d p 0) :
    s.inService.getF d p = s.getF d p := by
  unfold State.inService
  split
  · exact State.getF_setF_ne _ _ _ _ _ _ _ _ h
  · rfl

theorem State.out_inService (s : State) : s.inService.err.out = false := by
  unfold State.inService
  split
  next => rfl
  next h => simpa using h

theorem State.readyShown_spec (s : State) :
    s.readyShown.endTrial.inService.getF fdNodectlStatusReady pgNodectl = 1 ∧
      s.readyShown.endTrial.inService.getF fdNodectlStatusStage pgNodectl = 5 ∧
      s.readyShown.endTrial.inService.getF fdNodectlReadyTime pgNodectl = s.now % 2 ^ fdNodectlReadyTime.width := by
  refine ⟨?_, ?_, ?_⟩
  · rw [State.getF_inService _ (by decide), State.getF_endTrial _ (by decide) (by decide), State.readyShown,
      State.getF_setF_ne _ _ _ _ _ _ _ _ (by decide), State.getF_setF_ne _ _ _ _ _ _ _ _ (by decide), State.getF_setF_self]
    rfl
  · rw [State.getF_inService _ (by decide), State.getF_endTrial _ (by decide) (by decide), State.readyShown,
      State.getF_setF_ne _ _ _ _ _ _ _ _ (by decide), State.getF_setF_self]
    rfl
  · rw [State.getF_inService _ (by decide), State.getF_endTrial _ (by decide) (by decide), State.readyShown, State.getF_setF_self]

end

/-! ### Block resets (R549, R570) -/

/-- A field stands inside its page, and is CTRL.RESET itself or apart from it. -/
def clearsApart (d : FieldDesc) : Bool :=
  d.off + d.stride * (d.count - 1) < 4096 && d.lsb < 64 &&
    (d = fdComCtrlReset || 0x014 ≤ d.off || (d.stride = 0 && fieldPlace d 0 ≠ fieldPlace fdComCtrlReset 0))

theorem clearsApart_blockFields (code : Nat) : (blockFields code).all clearsApart = true := by
  unfold blockFields
  split <;> decide

theorem clearsApart_pageFields {code : Nat} {d : FieldDesc} (h : d ∈ pageFields code) : clearsApart d = true := by
  have hcommon : (fieldsCom ++ [fdComCounter] ++ fieldsErr ++ fieldsEvr).all clearsApart = true := by decide
  have hblock := clearsApart_blockFields code
  have hall : (pageFields code).all clearsApart = true := by
    unfold pageFields
    split
    · rfl
    · rw [List.all_append, hcommon, hblock]
      rfl
  exact List.all_eq_true.mp hall d h

theorem descKey_page {d : FieldDesc} {i : Nat} (page : Nat) (h : clearsApart d = true) (hi : i < d.count) :
    descKey d page i / 64 / 4096 = page := by
  simp only [clearsApart, Bool.and_eq_true, decide_eq_true_eq] at h
  obtain ⟨⟨hoff, hlsb⟩, -⟩ := h
  have hle : d.stride * i ≤ d.stride * (d.count - 1) := Nat.mul_le_mul_left _ (by omega)
  simp only [descKey, fieldKey]
  omega

theorem descKey_ctrlReset_ne {d : FieldDesc} {i page : Nat} (h : clearsApart d = true) (hne : d ≠ fdComCtrlReset) :
    descKey d page i ≠ descKey fdComCtrlReset page 0 := by
  simp only [clearsApart, Bool.and_eq_true, Bool.or_eq_true, decide_eq_true_eq, hne, false_or] at h
  obtain ⟨⟨-, hlsb⟩, hbelow | ⟨hstride, hplace⟩⟩ := h
  · refine descKey_place_ne _ ?_
    simp only [fieldPlace, fdComCtrlReset]
    have := Nat.zero_le (d.stride * i)
    omega
  · refine descKey_place_ne _ ?_
    rw [fieldPlace, hstride] at hplace ⊢
    simpa using hplace

/-- One element of a reset block's fields. -/
def State.clearElem (s : State) (page : Nat) (d : FieldDesc) (i : Nat) : State :=
  if fixedField page d i && d.code = 0x07 then s else s.clearF d page i

/-- The state in which a reset block's own fields have their reset values. -/
def State.fieldsCleared (s : State) (page : Nat) : State :=
  State.forEach { s with shadow := s.shadow.filter fun x => x.1 / 64 / 4096 ≠ page } ((pageFields (blockCode page)).filter resetByBlock)
    fun d s => s.forEach (List.range d.count) fun i s => s.clearElem page d i

theorem State.resetDone_of_requested {s : State} {page : Nat} (h : s.getF fdComCtrlReset page ≠ 0) :
    s.resetDone page = (s.fieldsCleared page).resetUnit page :=
  if_neg h

/-- What clearing an element of a page's fields keeps, clearing all of them keeps. -/
theorem State.fieldsCleared_keeps {P : State → Prop} {page : Nat}
    (hclear : ∀ (d : FieldDesc) (i : Nat), clearsApart d = true → i < d.count → ∀ z, P z → P (z.clearElem page d i)) {s : State}
    (h : P { s with shadow := s.shadow.filter fun x => x.1 / 64 / 4096 ≠ page }) : P (s.fieldsCleared page) :=
  State.forEach_keeps (fun d hd z hz => State.forEach_keeps
    (fun i hi => hclear d i (clearsApart_pageFields (List.mem_of_mem_filter hd)) (List.mem_range.mp hi)) z hz) _ h

theorem regsOnly_clearElem (s : State) (page : Nat) (d : FieldDesc) (i : Nat) : regsOnly s (s.clearElem page d i) := by
  unfold State.clearElem
  split <;> rfl

theorem State.getF_clearElem_ne {s : State} {page q : Nat} {d e : FieldDesc} {i j : Nat} (h : descKey d page i ≠ descKey e q j) :
    (s.clearElem page d i).getF e q j = s.getF e q j := by
  unfold State.clearElem
  split
  · rfl
  · exact State.getF_setF_ne _ _ _ _ _ _ _ _ h

theorem State.getF_fieldsCleared_other {s : State} {page q : Nat} {e : FieldDesc} {j : Nat} (h : descKey e q j / 64 / 4096 ≠ page) :
    (s.fieldsCleared page).getF e q j = s.getF e q j :=
  State.fieldsCleared_keeps (P := fun z => z.getF e q j = s.getF e q j) (fun _ _ hd hi _ hz =>
    (State.getF_clearElem_ne fun heq => h (heq ▸ descKey_page page hd hi)).trans hz) rfl

theorem State.fieldsCleared_frame (s : State) (page : Nat) :
    { s.fieldsCleared page with regs := s.regs, shadow := s.shadow } = s :=
  State.fieldsCleared_keeps (P := fun z : State => { z with regs := s.regs, shadow := s.shadow } = s) (fun _ _ _ _ _ hz => by
    unfold State.clearElem
    split <;> exact hz) rfl

theorem State.clearElem_ctrlReset (s : State) (page : Nat) : (s.clearElem page fdComCtrlReset 0).getF fdComCtrlReset page = 0 := by
  rw [State.clearElem, if_neg (by simp [fdComCtrlReset]), State.clearF, State.getF_setF_self,
    regReset_of_resetsToZero (by decide) page 0]
  rfl

theorem State.ctrlReset_fieldsCleared (s : State) {page : Nat} (h : blockCode page ≠ 0) :
    (s.fieldsCleared page).getF fdComCtrlReset page = 0 := by
  have hmem : fdComCtrlReset ∈ (pageFields (blockCode page)).filter resetByBlock := by
    rw [List.mem_filter, pageFields, if_neg h]
    refine ⟨List.mem_append_left _ ?_, by decide⟩
    decide
  have hkeep : ∀ d : FieldDesc, clearsApart d = true → ∀ z : State, z.getF fdComCtrlReset page = 0 →
      (z.forEach (List.range d.count) fun i z => z.clearElem page d i).getF fdComCtrlReset page = 0 := fun d hd =>
    State.forEach_keeps fun i hi z hz => by
      by_cases heq : d = fdComCtrlReset
      · subst heq
        obtain rfl : i = 0 := by simpa [fdComCtrlReset] using hi
        exact z.clearElem_ctrlReset page
      · rw [State.getF_clearElem_ne (descKey_ctrlReset_ne hd heq), hz]
  exact State.forEach_establishes_of_mem (P := fun z => z.getF fdComCtrlReset page = 0) (fun z => z.clearElem_ctrlReset page) _
    (fun d hd => hkeep d (clearsApart_pageFields (List.mem_of_mem_filter hd))) hmem _

/-- Settles O55: a boot event moves the stage or is ignored by the condition of its rule, and a reset block's fields take their reset values
one by one, so that no other page's field is touched. -/
theorem bootAndReset : Obligations.BootAndReset := by
  unfold Obligations.BootAndReset
  refine ⟨fun straps vinOk s => ⟨fun h => ?_, fun hvin hgood => ?_⟩, fun us s => ⟨fun h => ?_, fun h => ?_⟩,
    fun ns s => ⟨fun h => ?_, fun h => ?_⟩, fun s => ⟨fun h => ?_, fun hheld hstage => ?_, fun hheld hstage => ?_⟩,
    fun s p hp => ⟨fun h => ?_, fun hstage => ⟨fun hidentity => ?_, fun hidentity hstore => ?_, fun hidentity hstore =>
      ⟨fun hbank => ?_, fun hbank hother => ?_, fun hbank hother => ?_⟩⟩⟩,
    fun s => ⟨fun h => ?_, fun hposition hstage => ?_⟩, fun failed s z hz => ⟨fun h => ?_, fun hfirmware htrained hfailed => ?_,
      fun hfirmware htrained hfailed => ?_⟩, fun tiles cores engines s z hz => ⟨fun h => ?_, fun hfirmware htested => ?_⟩,
    fun s => ⟨fun h => ?_, fun hok hready => ?_⟩, fun s => ⟨fun htrial hready => ?_, fun h => ?_⟩,
    fun page s => ⟨fun h => ?_, fun h => ?_⟩⟩
  · exact ⟨_, if_pos (by simpa using h), rfl⟩
  · obtain ⟨hpower, hboot, hout, hstraps⟩ := s.poweredUp_spec straps
    have hshown : (s.poweredUp straps.toNat).boot.straps % 2 ^ fdNodectlPosStraps.width = straps.toNat := by
      rw [hboot]
      exact Nat.mod_eq_of_lt straps.isLt
    obtain ⟨hpower', hboot', hstraps', hstarts⟩ := (s.poweredUp straps.toNat).romStart_spec (hstraps.trans hshown.symm)
    refine ⟨_, exec_powerUp_of_in_range hvin hgood, hpower'.trans hpower, hboot'.trans hboot, hstraps'.trans hshown, fun hfree => ?_⟩
    rw [hboot, hout] at hstarts
    exact hstarts hfree
  · exact ⟨_, if_pos h, rfl⟩
  · exact ⟨_, if_neg (Nat.not_lt.mpr h), by rw [State.power_cold], s.store_cold, s.mem_cold, s.pending_cold⟩
  · exact ⟨_, if_pos h, rfl⟩
  · exact ⟨_, if_neg (Nat.not_lt.mpr h), rfl, State.held_nodeReset rfl 1⟩
  · exact ⟨_, if_pos (by simp [h]), rfl⟩
  · exact ⟨_, if_neg (by simp [hheld]), if_neg hstage⟩
  · refine ⟨_, (if_neg (by simp [hheld])).trans (congrArg _ ((if_pos hstage).trans (State.romStart_of_free rfl))), rfl, ?_, rfl⟩
    exact (State.getF_emit ..).trans (State.getF_setF_self ..)
  · exact ⟨_, if_pos h, rfl⟩
  · obtain ⟨hrecovery, hshown, hregs⟩ := (s.setF fdDikeStateIdentity pgDike 0 0).recovery_spec
    refine ⟨_, exec_bootVerifyDone_of_stranger hstage hidentity, ?_, hrecovery, hshown, (regsOnly_setF _ _ _ _ _).trans hregs⟩
    rw [State.recovery, State.getF_setF_ne _ _ _ _ _ _ _ _ (by decide), State.getF_setF_ne _ _ _ _ _ _ _ _ (by decide),
      State.getF_setF_self]
    rfl
  · exact ⟨_, exec_bootVerifyDone_of_badStore hstage hidentity hstore, rfl⟩
  · subst hp
    exact ⟨_, exec_bootVerifyDone_of_good hstage hidentity hstore, if_pos hbank, by rw [if_pos hbank, State.firmware_runBank]⟩
  · subst hp
    refine ⟨_, exec_bootVerifyDone_of_good hstage hidentity hstore, ?_, ?_⟩
    · rw [if_neg (by simp [hbank]), if_pos hother]
    · rw [if_neg (by simp [hbank]), if_pos hother, State.firmware_runBank]
  · subst hp
    refine ⟨_, exec_bootVerifyDone_of_good hstage hidentity hstore, ?_⟩
    rw [if_neg (by simp [hbank]), if_neg (by simp [hother])]
    exact s.recovery_spec
  · exact ⟨_, if_pos (by simpa using h), rfl⟩
  · exact ⟨_, if_neg (by simp [hposition, hstage]), rfl⟩
  · exact ⟨_, if_pos (by simpa using h), rfl⟩
  · exact ⟨_, (exec_hbmTrainingDone_of_due hfirmware htrained hz).trans (if_pos hfailed), rfl⟩
  · exact ⟨_, (exec_hbmTrainingDone_of_due hfirmware htrained hz).trans (if_neg (by simp [hfailed])), _, rfl, rfl⟩
  · exact ⟨_, if_pos (by simpa using h), rfl⟩
  · subst hz
    exact ⟨_, if_neg (by simp [hfirmware, htested]), rfl⟩
  · exact ⟨_, if_pos (by simpa using h), rfl⟩
  · obtain ⟨hshown, hstage, htime⟩ := s.readyShown_spec
    exact ⟨_, exec_nodeReady_of_ok hok hready, hshown, hstage, State.out_inService _, htime⟩
  · exact ⟨_, if_pos (by simp [htrial, hready]), _, rfl, rfl⟩
  · exact ⟨_, if_neg (by simp only [Bool.and_eq_true, decide_eq_true_eq, not_and_or]; exact h), rfl⟩
  · exact ⟨_, rfl, if_pos h⟩
  · exact ⟨_, rfl, s.fieldsCleared page.toNat, State.resetDone_of_requested h, s.ctrlReset_fieldsCleared,
      fun _ _ _ => State.getF_fieldsCleared_other, s.fieldsCleared_frame page.toNat⟩

end Sys2Proof.Machine
end

section
/-! PROOFS. Fabric time (spec/13_collectives_and_fabric_time.md). -/
namespace Sys2Proof.Machine

section
variable {s : State}

theorem wrapTo_mod (w : Nat) (z : Int) : wrapTo w z % 2 ^ w = wrapTo w z := by
  have hpos : (0 : Int) < ((2 ^ w : Nat) : Int) := by exact_mod_cast Nat.two_pow_pos w
  have hlt := Int.emod_lt_of_pos z hpos
  have hge := Int.emod_nonneg z hpos.ne'
  exact Nat.mod_eq_of_lt (by rw [wrapTo]; omega)

/-! ### TIME packets (R354, R355) -/

/-- A TIME packet of a port, with the sub-tick time that is free. -/
def State.sendTime (s : State) (p : Nat) : State :=
  { s with freeCount := s.freeCount + 1,
           out := s.out ++ [.time p s.now (Config.freeValue s.freeCount % 256) (s.getF fdFtimeDepth pgFtime)] }

/-- The packets of ports from the n-th on, where `c` free values came before the first. -/
def State.timeRun (s : State) (c n : Nat) (ps : List Nat) : List Output :=
  (ps.zipIdx n).map fun x => .time x.1 s.now (Config.freeValue (c + x.2) % 256) (s.getF fdFtimeDepth pgFtime)

theorem State.forEach_sendTime (c : Nat) : ∀ (ps : List Nat) (n : Nat) (s : State), s.freeCount = c + n →
    s.forEach ps (fun p z => z.sendTime p) = { s with freeCount := s.freeCount + ps.length, out := s.out ++ s.timeRun c n ps } := by
  intro ps
  induction ps with
  | nil => intro n s _; simp [State.timeRun]
  | cons p ps ih =>
    intro n s h
    have hnext : (s.sendTime p).freeCount = c + (n + 1) := by simp [State.sendTime, h]; omega
    have hrun : s.timeRun c n (p :: ps) =
        .time p s.now (Config.freeValue s.freeCount % 256) (s.getF fdFtimeDepth pgFtime) :: (s.sendTime p).timeRun c (n + 1) ps := by
      rw [State.timeRun, List.zipIdx_cons, List.map_cons, h]
      rfl
    rw [State.forEach_cons, ih (n + 1) _ hnext, hrun]
    simp [State.sendTime, Nat.add_assoc, Nat.add_comm 1]

theorem exec_timeSend_of_time (hoff : s.ftState ≠ ftOff) (hacquire : s.ftState ≠ ftAcquire) :
    exec .timeSend s = .next (s.forEach ((List.range 18).filter fun p => p / 2 ≠ s.getF fdFtimeParent pgFtime && s.portUp p)
      fun p z => z.sendTime p) :=
  if_neg (by simp [hoff, hacquire])

/-- The error, in ps / 256, of a TIME packet on a port. -/
def State.timeOff (s : State) (p ttx sub rxSub : Nat) : Int :=
  ((ttx * 256 + sub : Nat) - (s.now * 256 + rxSub : Nat) : Int) * 500 + s.getF fdPortDelay (pgPort p) * 256

/-- The error and the parent's depth shown, before the servo acts. -/
def State.timeShown (s : State) (e : Int) (depth : Nat) : State :=
  (s.setF fdFtimeErrorPs pgFtime 0 (wrapTo 32 (e / 256))).setF fdFtimeDepth pgFtime 0 (depth + 1)

theorem State.recvTime_of_parent {p ttx sub depth rxSub : Nat} (hnode : s.nodeIdValid = true) (hparent : s.getF fdFtimeParent pgFtime ≤ 8)
    (hport : p = s.timePort (s.getF fdFtimeParent pgFtime)) (hup : s.portState p = psUp) (hpublished : (s.port p).published = true)
    (hon : s.ftState ≠ ftOff) :
    s.recvTime p ttx sub depth rxSub = (s.timeShown (s.timeOff p ttx sub rxSub) depth).timeError (s.timeOff p ttx sub rxSub) := by
  unfold State.recvTime
  dsimp only
  rw [if_neg (by simp [hnode, ← hport, hup, hpublished]; omega), if_neg hon]
  rfl

theorem State.ftState_timeShown (s : State) (e : Int) (depth : Nat) : (s.timeShown e depth).ftState = s.ftState := by
  rw [State.ftState, State.timeShown, State.getF_setF_ne _ _ _ _ _ _ _ _ (by decide), State.getF_setF_ne _ _ _ _ _ _ _ _ (by decide)]
  rfl

/-- A locked child whose error stays within 50 ns steers within 20 ppm. -/
theorem State.timeError_of_locked {e : Int} (hlocked : s.ftState = ftLocked) (hlo : -(50 * ns1) ≤ e) (hhi : e ≤ 50 * ns1) :
    s.timeError e = s.freeRate 20000 := by
  unfold State.timeError
  dsimp only
  rw [if_neg (by rw [hlocked]; decide), if_pos hlocked, if_neg (by simp; omega)]

theorem State.getF_freeRate {d : FieldDesc} {p i : Nat} (s : State) (lim : Nat) (h : descKey fdFtimeRatePpb pgFtime 0 ≠ descKey d p i) :
    (s.freeRate lim).getF d p i = s.getF d p i := by
  rw [State.freeRate, State.getF_setF_ne _ _ _ _ _ _ _ _ h]
  exact s.getF_withFreeCount _ _ _ _

theorem State.freeRate_frame (s : State) (lim : Nat) : { s.freeRate lim with regs := s.regs, freeCount := s.freeCount } = s := rfl

/-! ### PPS edges (R356) -/

/-- A PPS edge latched. -/
def State.ppsLatched (s : State) : State :=
  { (s.setF fdFtimePpsTime pgFtime 0 s.now) with ftime := { s.ftime with lastPps := s.now + 1 } }

theorem exec_ppsEdge_of_edge {highNs : Nat} (hhigh : 100 ≤ highNs) (hlast : s.ftime.lastPps = 0 ∨ 1000000000 ≤ s.now + 1 - s.ftime.lastPps) :
    exec (.ppsEdge highNs) s = .next (if s.ppsLatched.ftState = ftRoot && s.ppsLatched.getF fdFtimePpsEn pgFtime = 1
      then s.ppsLatched.freeRate 20000 else s.ppsLatched) := by
  refine if_neg ?_
  simp only [Bool.or_eq_true, Bool.and_eq_true, decide_eq_true_eq]
  omega

theorem State.ppsLatched_spec (s : State) : s.ppsLatched.getF fdFtimePpsTime pgFtime = s.now % 2 ^ fdFtimePpsTime.width ∧
    s.ppsLatched.ftime.lastPps = s.now + 1 :=
  ⟨State.getF_setF_self .., rfl⟩

/-! ### Comparators (R358, R360, R362) -/

/-- A flask that cannot act for comparator k yet. -/
def State.relLater (s : State) (k f : Nat) : State := { s with relPending := s.relPending ++ [(k, f)] }

/-- A comparator's own fields after it fired in time, before a flask acts. -/
def State.relShown (s : State) (k : Nat) : State :=
  ((s.setF fdFtimeRelArm pgFtime k 0).setF fdFtimeRelFired pgFtime k s.now).event pgFtime 0 (some 0) 0x0161 k 0

theorem State.fireRel_inTime (s : State) (k : Nat) : s.fireRel k false = (s.relShown k).forEach ((List.range 256).filter (s.relNames k))
    fun f z => if z.relReady f then z.relAct k f else z.relLater k f := rfl

theorem exec_comparatorFire_of_armed {k : Fin 32} (harmed : s.getF fdFtimeRelArm pgFtime k.val = 1) :
    exec (.comparatorFire k) s = .next (if k.val % 2 = 1 then ((s.fireRel k.val false).timedFired (k.val / 2)).finish
      else (s.fireRel k.val false).finish) :=
  if_neg (by rw [harmed]; decide)

theorem State.getF_relShown {d : FieldDesc} {p i : Nat} (s : State) (k : Nat) (hsched : p ≠ pgSched) (hobs : p ≠ pgObs)
    (h : unrecorded d i = true) (harm : descKey fdFtimeRelArm pgFtime k ≠ descKey d p i)
    (hfired : descKey fdFtimeRelFired pgFtime k ≠ descKey d p i) : (s.relShown k).getF d p i = s.getF d p i := by
  rw [State.relShown, State.getF_event_apart _ hsched hobs h, State.getF_setF_ne _ _ _ _ _ _ _ _ hfired,
    State.getF_setF_ne _ _ _ _ _ _ _ _ harm]

theorem State.relReady_relShown (s : State) (k : Fin 32) {f : Nat} (hf : f < 256) : (s.relShown k.val).relReady f = s.relReady f := by
  have hk := k.isLt
  have hstate : (s.relShown k.val).pstate f = s.pstate f := by
    refine s.getF_relShown k.val ?_ ?_ (by decide) ?_ ?_ <;>
      simp only [pgFlask, pgSched, pgObs, pgFtime, descKey, fieldKey, fdFtimeRelArm, fdFtimeRelFired, fdFlaskPstateState] <;> omega
  have hflask : (s.relShown k.val).flask f = s.flask f := by
    rw [State.relShown, State.flask, State.event_flasks]
    rfl
  rw [State.relReady, State.relReady, State.serves, State.serves, hstate, hflask]

/-- Flasks that cannot act are remembered, in order. -/
theorem State.forEach_relLater (k : Nat) : ∀ (fs : List Nat) (z : State), (∀ f ∈ fs, z.relReady f = false) →
    z.forEach fs (fun f z => if z.relReady f then z.relAct k f else z.relLater k f) =
      { z with relPending := z.relPending ++ fs.map fun f => (k, f) } := by
  intro fs
  induction fs with
  | nil => intro z _; simp
  | cons f fs ih =>
    intro z h
    obtain ⟨hf, hfs⟩ := List.forall_mem_cons.mp h
    rw [State.forEach_cons, if_neg (by rw [hf]; decide), ih (z.relLater k f) hfs]
    simp [State.relLater]

theorem State.fireRel_of_none_ready {s : State} (k : Fin 32) (h : ∀ f, f < 256 → s.relNames k.val f = true → s.relReady f = false) :
    s.fireRel k.val false = { s.relShown k.val with
      relPending := s.relPending ++ ((List.range 256).filter (s.relNames k.val)).map fun f => (k.val, f) } := by
  have hpending : (s.relShown k.val).relPending = s.relPending := State.event_relPending ..
  rw [State.fireRel_inTime, State.forEach_relLater, hpending]
  intro f hf
  obtain ⟨hrange, hnames⟩ := List.mem_filter.mp hf
  have hlt := List.mem_range.mp hrange
  rw [s.relReady_relShown k hlt]
  exact h f hlt hnames

theorem State.relShown_spec (s : State) (k : Fin 32) : (s.relShown k.val).getF fdFtimeRelArm pgFtime k.val = 0 ∧
    (s.relShown k.val).getF fdFtimeRelFired pgFtime k.val = s.now % 2 ^ fdFtimeRelFired.width := by
  have hrec : ∀ d ∈ [fdFtimeRelArm, fdFtimeRelFired], unrecorded d k.val = true := by revert k; decide
  simp only [List.forall_mem_cons, List.not_mem_nil, false_imp_iff, implies_true, and_true] at hrec
  obtain ⟨harm, hfired⟩ := hrec
  have hne : descKey fdFtimeRelFired pgFtime k.val ≠ descKey fdFtimeRelArm pgFtime k.val :=
    descKey_place_ne _ (by simp only [fieldPlace, fdFtimeRelArm, fdFtimeRelFired]; omega)
  rw [State.relShown, State.getF_event_apart _ (by decide) (by decide) harm, State.getF_event_apart _ (by decide) (by decide) hfired,
    State.getF_setF_ne _ _ _ _ _ _ _ _ hne, State.getF_setF_self, State.getF_setF_self]
  exact ⟨rfl, rfl⟩

end

/-- Settles O35: TIME packets go to the ports away from the parent one by one, the servo steers by the error in LOCKED alone, and a
comparator that fires looks at each flask that it names. -/
theorem fabricTime : Obligations.FabricTime := by
  unfold Obligations.FabricTime
  refine ⟨fun s ps hoff hacquire hps => ?_, fun p ttx sub depth rxSub s e hnode hparent hport hup hpublished hlocked he hlo hhi => ?_,
    fun highNs s hhigh hlast => ?_, fun k s harmed => ⟨fun hodd => ?_, fun heven => ?_⟩, fun ppb s hlocked hlost => ?_,
    fun s => ⟨_, rfl, rfl⟩⟩
  · subst hps
    refine ⟨_, exec_timeSend_of_time hoff hacquire, ?_⟩
    rw [State.forEach_sendTime s.freeCount _ 0 s rfl]
    exact ⟨rfl, rfl⟩
  · subst he
    have hon : s.ftState ≠ ftOff := by rw [hlocked]; decide
    have hsteer := (State.recvTime_of_parent (ttx := ttx.toNat) (sub := sub.toNat) (depth := depth.toNat) (rxSub := rxSub.toNat)
      hnode hparent hport hup hpublished hon).trans (State.timeError_of_locked ((s.ftState_timeShown _ _).trans hlocked) hlo hhi)
    refine ⟨_, congrArg (fun z : State => Host.Outcome.next z.finish) hsteer, ?_, ?_, ?_, State.freeRate_frame _ 20000⟩
    · rw [State.getF_freeRate _ _ (by decide), State.timeShown, State.getF_setF_ne _ _ _ _ _ _ _ _ (by decide), State.getF_setF_self]
      exact wrapTo_mod 32 _
    · rw [State.getF_freeRate _ _ (by decide), State.timeShown, State.getF_setF_self]
    · rw [State.ftState, State.getF_freeRate _ _ (by decide)]
      exact (s.ftState_timeShown _ _).trans hlocked
  · obtain ⟨htime, hlatched⟩ := s.ppsLatched_spec
    refine ⟨_, exec_ppsEdge_of_edge hhigh hlast, ?_⟩
    split
    · exact ⟨(State.getF_freeRate _ _ (by decide)).trans htime, hlatched, rfl⟩
    · exact ⟨htime, hlatched, rfl⟩
  · exact ⟨_, (exec_comparatorFire_of_armed harmed).trans (congrArg _ (if_pos hodd)), rfl⟩
  · refine ⟨_, (exec_comparatorFire_of_armed harmed).trans (congrArg _ (if_neg (by omega))), rfl, fun hwait => ?_⟩
    obtain ⟨harm, hfired⟩ := s.relShown_spec k
    rw [State.fireRel_of_none_ready k hwait]
    exact ⟨rfl, harm, hfired⟩
  · refine ⟨_, if_neg (by simp [hlocked, hlost]), ?_⟩
    generalize decide (100000 < ppb.toInt.natAbs) = off
    refine ⟨?_, ?_, rfl⟩
    · rw [State.getF_setF_ne _ _ _ _ _ _ _ _ (by decide), State.getF_setF_self]
    · rw [State.getF_setF_self]
      cases off <;> rfl

end Sys2Proof.Machine
end

section
/-! PROOFS. The Ethernet ports (spec/14_ethernet_and_capsules.md). -/
namespace Sys2Proof.Machine

section
variable {s : State}

theorem State.pause_setPause_ne {k j : Nat} (s : State) (x : PauseState) (h : j ≠ k) : (s.setPause k x).pause j = s.pause j :=
  mapGet_put_ne _ _ _ _ h.symm

/-! ### Links and PTP (R366, R370) -/

/-- A link's state shown. -/
theorem State.linkShown_spec (s : State) (d : FieldDesc) (page : Nat) (up : Bool) (h : d.width = 2) :
    fieldOnly s (s.setF d page 0 (if up then 2 else 0)) d page 0 (if up then 2 else 0) ∧
      regsOnly s (s.setF d page 0 (if up then 2 else 0)) := by
  have hv : (if up then 2 else 0) % 2 ^ d.width = if up then 2 else 0 := by
    rw [h]
    cases up <;> rfl
  have hset := fieldOnly_setF s d page 0 (if up then 2 else 0)
  rw [hv] at hset
  exact ⟨hset, rfl⟩

/-- PTP's offset and rate, as firmware publishes them. -/
def State.ptpShown (s : State) (offset : Word) (rate : BitVec 32) : State :=
  (s.setF fdEthPtpOffset (pgEth 0) 0 offset.toNat).setF fdEthPtpRatePpb (pgEth 0) 0 rate.toNat

theorem State.ptpShown_spec (s : State) (offset : Word) (rate : BitVec 32) :
    (s.ptpShown offset rate).getF fdEthPtpOffset (pgEth 0) = offset.toNat ∧
      (s.ptpShown offset rate).getF fdEthPtpRatePpb (pgEth 0) = rate.toNat ∧ regsOnly s (s.ptpShown offset rate) := by
  refine ⟨?_, ?_, rfl⟩
  · rw [State.ptpShown, State.getF_setF_ne _ _ _ _ _ _ _ _ (by decide), State.getF_setF_self]
    exact Nat.mod_eq_of_lt offset.isLt
  · rw [State.ptpShown, State.getF_setF_self]
    exact Nat.mod_eq_of_lt rate.isLt

theorem State.getF_ptpShown (s : State) (offset : Word) (rate : BitVec 32) {d : FieldDesc} {q j : Nat}
    (hoffset : descKey fdEthPtpOffset (pgEth 0) 0 ≠ descKey d q j) (hrate : descKey fdEthPtpRatePpb (pgEth 0) 0 ≠ descKey d q j) :
    (s.ptpShown offset rate).getF d q j = s.getF d q j := by
  rw [State.ptpShown, State.getF_setF_ne _ _ _ _ _ _ _ _ hrate, State.getF_setF_ne _ _ _ _ _ _ _ _ hoffset]

/-- A root steers to PTP where it is told to and no PPS input is enabled. -/
theorem exec_ptpEvent_of_enabled {e : EthId} {offset : Word} {rate : BitVec 32} (he : e.val = 0)
    (hen : s.getF fdEthPtpEn (pgEth 0) ≠ 0) : exec (.ptpEvent e offset rate) s = .next
      (if s.ftState = ftRoot && s.getF fdEthPtpSteer (pgEth 0) = 1 && s.getF fdFtimePpsEn pgFtime = 0
        then (s.ptpShown offset rate).freeRate 20000 else s.ptpShown offset rate) := by
  have hroot : (s.ptpShown offset rate).ftState = s.ftState := s.getF_ptpShown offset rate (by decide) (by decide)
  have hsteer : (s.ptpShown offset rate).getF fdEthPtpSteer (pgEth 0) = s.getF fdEthPtpSteer (pgEth 0) :=
    s.getF_ptpShown offset rate (by decide) (by decide)
  have hpps : (s.ptpShown offset rate).getF fdFtimePpsEn pgFtime = s.getF fdFtimePpsEn pgFtime :=
    s.getF_ptpShown offset rate (by decide) (by decide)
  rw [← hroot, ← hsteer, ← hpps]
  exact if_neg (by simp [he, hen])

/-! ### Priority flow control (R369) -/

/-- A received PFC frame counted. -/
def State.pfcCounted (s : State) (e : Nat) : State := s.count (pgEth e) 4 1

theorem State.getF_pfcCounted {d : FieldDesc} (s : State) (e : Nat) {p : Nat} (hd : d.off + d.stride * 0 < 4096 ∧ d.lsb < 64)
    (h : fieldPlace fdComCounter 4 ≠ fieldPlace d 0) : (s.pfcCounted e).getF d p = s.getF d p :=
  State.getF_addF_ne _ _ (descKey_places_ne (by decide) hd h)

theorem exec_pfcPause_of_disabled {e : EthId} {lp : Fin 2} {prio : BitVec 3} {quanta : BitVec 16}
    (h : bitAt (s.getF fdEthPfcEnable (pgEth e.val)) prio.toNat = false) : exec (.pfcPause e lp prio quanta) s = .next (s.pfcCounted e.val) := by
  rw [← s.getF_pfcCounted e.val (by decide) (by decide)] at h
  exact if_pos (by rw [← State.pfcCounted, h]; rfl)

section
variable {e : EthId} {lp : Fin 2} {prio : BitVec 3} {quanta : BitVec 16}
  (h : bitAt (s.getF fdEthPfcEnable (pgEth e.val)) prio.toNat = true)
include h

theorem exec_pfcPause_of_enabled : exec (.pfcPause e lp prio quanta) s =
    if quanta = 0 then .next ((s.pfcCounted e.val).resumePrio (prioKey e.val lp.val prio.toNat))
    else .next ((s.pfcCounted e.val).setPause (prioKey e.val lp.val prio.toNat)
      { s.pause (prioKey e.val lp.val prio.toNat) with paused := s.now + quanta.toNat * 1024000 / s.lineRate e.val + 1 }) := by
  have hnow : (s.pfcCounted e.val).now = s.now := s.getF_pfcCounted e.val (by decide) (by decide)
  have hrate : (s.pfcCounted e.val).lineRate e.val = s.lineRate e.val := by
    rw [State.lineRate, s.getF_pfcCounted e.val (by decide) (by decide)]
    rfl
  rw [← s.getF_pfcCounted e.val (by decide) (by decide)] at h
  rw [← hnow, ← hrate]
  exact if_neg (by rw [← State.pfcCounted, h]; decide)

end

/-- A priority that resumes lets what waited leave in order. -/
theorem State.resumePrio_spec (s : State) (k : Nat) :
    (s.resumePrio k).pause k = { s.pause k with paused := 0, held := [] } ∧ (s.resumePrio k).out = s.out ++ (s.pause k).held ∧
      (∀ j, j ≠ k → (s.resumePrio k).pause j = s.pause j) ∧ { s.resumePrio k with pauses := s.pauses, out := s.out } = s :=
  ⟨State.pause_setPause_self .., rfl, fun _ hj => s.pause_setPause_ne _ hj, rfl⟩

end

/-- Settles O41: a link, a query and an echo are answered by the port that they name; PFC changes one priority, whose queue leaves in order. -/
theorem ethernetPorts : Obligations.EthernetPorts := by
  unfold Obligations.EthernetPorts
  refine ⟨fun e lp up s v hv => ⟨fun hlp => ?_, fun hlp hmode => ?_, fun hlp hmode => ?_⟩,
    fun e lp v6 addr data s => ⟨fun hown => ⟨?_, ?_⟩, fun hother => ?_, fun hother hother6 => ?_⟩,
    fun e offset rate s => ⟨fun h => ?_, fun he hen h => ?_, fun he hen hroot hsteer hpps => ?_⟩,
    fun e lp prio quanta s k hk => ⟨fun hoff => ?_, fun hon hquanta => ?_, fun hon hquanta => ?_, ?_⟩⟩
  · subst hv
    exact ⟨_, congrArg Host.Outcome.next (if_pos hlp), s.linkShown_spec _ _ up rfl⟩
  · subst hv
    exact ⟨_, congrArg Host.Outcome.next ((if_neg (by omega)).trans (if_pos hmode)), s.linkShown_spec _ _ up rfl⟩
  · exact ⟨_, congrArg Host.Outcome.next ((if_neg (by omega)).trans (if_neg hmode)), rfl⟩
  · exact ⟨_, congrArg Host.Outcome.next (if_pos hown), rfl⟩
  · refine ⟨_, congrArg Host.Outcome.next (if_pos ?_), rfl⟩
    cases v6 <;> simp [hown]
  · exact ⟨_, congrArg Host.Outcome.next (if_neg (by simp [hother])), rfl⟩
  · exact ⟨_, congrArg Host.Outcome.next (if_neg (by simp [hother, hother6])), rfl⟩
  · refine ⟨_, if_pos ?_, rfl⟩
    simpa using h
  · refine ⟨_, exec_ptpEvent_of_enabled he hen, ?_⟩
    rw [if_neg (by simp only [Bool.and_eq_true, decide_eq_true_eq]; omega)]
    obtain ⟨hoffset, hrate, hregs⟩ := s.ptpShown_spec offset rate
    exact ⟨hoffset, hrate, hregs, fun d q j => s.getF_ptpShown offset rate⟩
  · exact ⟨_, exec_ptpEvent_of_enabled he hen, _, if_pos (by simp [hroot, hsteer, hpps]), s.ptpShown_spec offset rate⟩
  · exact ⟨_, exec_pfcPause_of_disabled hoff, ⟨State.getF_addF_self .., fun d q j hne => State.getF_addF_ne _ _ hne⟩, rfl⟩
  · subst hk
    exact ⟨_, (exec_pfcPause_of_enabled hon).trans (if_neg hquanta), State.pause_setPause_self .., fun j hj => State.pause_setPause_ne _ _ hj, rfl⟩
  · subst hk
    obtain ⟨hself, hout, hothers, hframe⟩ := (s.pfcCounted e.val).resumePrio_spec (prioKey e.val lp.val prio.toNat)
    exact ⟨_, (exec_pfcPause_of_enabled hon).trans (if_pos hquanta), hself, hout, hothers, rfl⟩
  · subst hk
    exact ⟨_, rfl, s.resumePrio_spec _⟩

end Sys2Proof.Machine
end

section
/-! SUPPORT. Queue pairs: what sending, a lost session and an error leave of them (R369, R371, R374, R387). -/
namespace Sys2Proof.Machine

section
variable (s : State)

theorem State.qp_setQp_ne {i j : Nat} (x : QueuePair) (h : j ≠ i) : (s.setQp i x).qp j = s.qp j :=
  mapGet_put_ne _ _ _ _ h.symm

/-- Nothing but queue pair i, what leaves and what waits for a paused priority differs. -/
def qpOnly (i : Nat) (s u : State) : Prop :=
  (∀ j, j ≠ i → u.qp j = s.qp j) ∧ { u with qps := s.qps, pauses := s.pauses, out := s.out } = s

theorem qpOnly_setQp (i : Nat) (x : QueuePair) : qpOnly i s (s.setQp i x) := ⟨fun _ h => s.qp_setQp_ne x h, rfl⟩

/-- Nothing but what leaves and what waits for a paused priority differs. -/
def sendsOnly (s u : State) : Prop := { u with pauses := s.pauses, out := s.out } = s

theorem sendsOnly.trans {s t u : State} (h : sendsOnly s t) (g : sendsOnly t u) : sendsOnly s u := by
  rw [sendsOnly, ← h, ← g]

theorem sendsOnly.qps_eq {s u : State} (h : sendsOnly s u) : u.qps = s.qps := (congrArg State.qps h :)

theorem sendsOnly.qp_eq {s u : State} (h : sendsOnly s u) (i : Nat) : u.qp i = s.qp i := by rw [State.qp, h.qps_eq, State.qp]

theorem qpOnly.sends {i : Nat} {s t u : State} (h : qpOnly i s t) (g : sendsOnly t u) : qpOnly i s u := by
  obtain ⟨hothers, hframe⟩ := h
  refine ⟨fun j hj => (g.qp_eq j).trans (hothers j hj), ?_⟩
  rw [← hframe, ← g]

theorem sendsOnly_ethSend (i : Nat) (o : Output) : sendsOnly s (s.ethSend i o) := by
  unfold State.ethSend
  dsimp only
  split <;> rfl

theorem State.ethSend_of_open {i : Nat} (o : Output) (h : (s.pause (prioKey (s.qp i).eth (s.qp i).lp (s.qp i).pcp)).paused = 0) :
    s.ethSend i o = s.emit o :=
  if_pos h

/-- An unacknowledged request of a queue pair as it leaves. -/
def rdmaOut (i : Nat) (r : Nat × Nat × Nat × List Byte) : Output := .rdma i r.1 r.2.1 r.2.2.1 r.2.2.2

theorem sendsOnly_resendAll (i : Nat) : sendsOnly s (s.resendAll i) :=
  State.forEach_keeps (P := sendsOnly s) (fun _ _ z hz => hz.trans (sendsOnly_ethSend z i _)) s rfl

/-- On a priority that is not paused requests leave in order. -/
theorem State.out_resendAll {i : Nat} (h : (s.pause (prioKey (s.qp i).eth (s.qp i).lp (s.qp i).pcp)).paused = 0) :
    (s.resendAll i).out = s.out ++ (s.qp i).sends.map (rdmaOut i) := by
  have hall : ∀ (rs : List (Nat × Nat × Nat × List Byte)) (z : State), z.pauses = s.pauses → z.qps = s.qps →
      (z.forEach rs fun r z => z.ethSend i (rdmaOut i r)).out = z.out ++ rs.map (rdmaOut i) := by
    intro rs
    induction rs with
    | nil => intro z _ _; simp
    | cons r rs ih =>
      intro z hpauses hqps
      have hopen : z.ethSend i (rdmaOut i r) = z.emit (rdmaOut i r) := z.ethSend_of_open _ (by
        rw [State.pause, hpauses, State.qp, hqps]
        exact h)
      rw [State.forEach_cons, hopen, ih (z.emit (rdmaOut i r)) hpauses hqps]
      simp [State.emit]
  exact hall _ s rfl rfl

theorem State.qp_endSession (q i : Nat) : (s.endSession q).qp i = s.qp i := by
  unfold State.endSession
  dsimp only
  split
  · rfl
  · exact State.qp_trace ..

theorem State.qp_dropQueue (q i : Nat) : (s.dropQueue q).qp i = s.qp i := s.qp_endSession q i

/-- A queue whose pair left the connected state has no session and an empty ring. -/
theorem State.queue_dropQueue (q : Nat) : ((s.dropQueue q).queue q).session = none ∧ ((s.dropQueue q).queue q).ring = [] := by
  obtain ⟨hsession, -⟩ := s.endSession_spec q
  rw [State.dropQueue, State.queue_setQueue_self]
  exact ⟨hsession, rfl⟩

/-- A pair in use that meets an error is in the error state, and holds no request if it was not there before. -/
theorem State.qp_qpError {i : Nat} (hkind : (s.qp i).kind ≠ 0) : (s.qpError i).qp i =
    if (s.qp i).state = 3 then s.qp i else { s.qp i with state := 3, sends := [], rnrWait := false } := by
  unfold State.qpError
  by_cases hstate : (s.qp i).state = 3
  · rw [if_pos (by simp [hstate]), if_pos hstate]
  · rw [if_neg (by simp [hkind, hstate]), if_neg hstate]
    dsimp only
    split
    · rw [State.qp_dropQueue, State.qp_setQp_self]
    · exact State.qp_setQp_self ..

theorem State.state_qpError {i : Nat} (hkind : (s.qp i).kind ≠ 0) : ((s.qpError i).qp i).state = 3 := by
  rw [s.qp_qpError hkind]
  split
  · assumption
  · rfl

theorem State.state_nak {i : Nat} (kind : Nat) (hkind : (s.qp i).kind ≠ 0) : ((s.nak i kind).qp i).state = 3 := by
  refine State.state_qpError _ ?_
  rw [State.roceAnswer, (sendsOnly_ethSend s i _).qp_eq]
  exact hkind

end

end Sys2Proof.Machine
end

section
/-! PROOFS. Queue pairs as requester (spec/14_ethernet_and_capsules.md). -/
namespace Sys2Proof.Machine

section
variable {qp : QpIx} {s : State}

theorem exec_roceAck_of_closed (hstate : (s.qp qp.val).state ≠ 2) (k : AckKind) : exec (.roceAck qp k) s = .next s := if_pos hstate

section
variable (hstate : (s.qp qp.val).state = 2)
include hstate

theorem exec_roceAck_ack : exec (.roceAck qp .ack) s = .next (s.setQp qp.val { s.qp qp.val with
    sends := (s.qp qp.val).sends.drop 1, psnSend := ((s.qp qp.val).psnSend + 1) % 2 ^ 24, tries := 0, rnr := 0 }) :=
  if_neg (not_not_intro hstate)

/-- A sequence NAK and an ACK timeout try again. -/
theorem exec_retry : ∀ i ∈ [Instr.roceAck qp .nakSequence, .roceAckTimeout qp], exec i s = .next (s.retryQp qp.val) := by
  simp only [List.forall_mem_cons, List.not_mem_nil, false_imp_iff, implies_true, and_true]
  exact ⟨if_neg (not_not_intro hstate), if_neg (not_not_intro hstate)⟩

theorem exec_roceAck_nakFatal : exec (.roceAck qp .nakFatal) s = .next (s.qpError qp.val) := if_neg (not_not_intro hstate)

theorem exec_roceAck_rnr (hsends : (s.qp qp.val).sends ≠ []) :
    exec (.roceAck qp .rnr) s = .next (s.setQp qp.val { s.qp qp.val with rnrWait := true }) :=
  (if_neg (not_not_intro hstate)).trans (if_neg hsends)

theorem exec_rnrRetryTimer_of_waiting (hwait : (s.qp qp.val).rnrWait = true) : exec (.rnrRetryTimer qp) s =
    if 7 ≤ (s.qp qp.val).rnr then .next (s.qpError qp.val)
    else .next ((s.setQp qp.val { s.qp qp.val with rnrWait := false, rnr := (s.qp qp.val).rnr + 1 }).resendAll qp.val) :=
  if_neg (by simp [hstate, hwait])

end

theorem State.retryQp_of_none {i : Nat} (h : (s.qp i).sends = []) : s.retryQp i = s := if_pos h

theorem State.retryQp_of_left {i : Nat} (hsends : (s.qp i).sends ≠ []) (h : (s.qp i).tries < 7) :
    s.retryQp i = (s.setQp i { s.qp i with tries := (s.qp i).tries + 1 }).resendAll i :=
  (if_neg hsends).trans (if_neg (by omega))

theorem State.retryQp_of_spent {i : Nat} (hsends : (s.qp i).sends ≠ []) (h : 7 ≤ (s.qp i).tries) : s.retryQp i = s.qpError i :=
  (if_neg hsends).trans (if_pos h)

/-- A pair changed and every unacknowledged request sent again. -/
theorem qpOnly_resendAll (s : State) (i : Nat) (x : QueuePair) : qpOnly i s ((s.setQp i x).resendAll i) ∧
    ((s.setQp i x).resendAll i).qp i = x :=
  ⟨(qpOnly_setQp s i x).sends (sendsOnly_resendAll _ i), ((sendsOnly_resendAll _ i).qp_eq i).trans (State.qp_setQp_self ..)⟩

/-! ### Congestion (R376) -/

/-- A received CNP counted. -/
def State.cnpCounted (s : State) (page : Nat) : State := (s.addF fdEthCntCnpRecv page 0 1).count page 3 1

theorem State.getF_cnpCounted {d : FieldDesc} {p : Nat} (s : State) (e : Nat) (hd : d.off + d.stride * 0 < 4096 ∧ d.lsb < 64)
    (hcnt : fieldPlace fdEthCntCnpRecv 0 ≠ fieldPlace d 0) (hcounter : fieldPlace fdComCounter 3 ≠ fieldPlace d 0) :
    (s.cnpCounted (pgEth e)).getF d p = s.getF d p := by
  rw [State.cnpCounted, State.count, State.getF_addF_ne _ _ (descKey_places_ne (by decide) hd hcounter),
    State.getF_addF_ne _ _ (descKey_places_ne (by decide) hd hcnt)]

/-- A pair whose rate a CNP cuts. -/
def State.cnpCut (s : State) (x : QueuePair) : QueuePair :=
  { x with quiet := 0, target := x.rate, lastDec := s.now + 1,
           rate := max (s.lineRate x.eth / 1024) (x.rate - x.rate * s.getF fdEthCcDec (pgEth x.eth) / 256) }

theorem exec_cnpReceive_of_open (hstate : (s.qp qp.val).state = 2) : exec (.cnpReceive qp) s =
    .next ((s.cnpCounted (pgEth (s.qp qp.val).eth)).setQp qp.val (if (s.qp qp.val).lastDec = 0 ∨
      s.getF fdEthCcPeriodUs (pgEth (s.qp qp.val).eth) * 2000 ≤ s.now + 1 - (s.qp qp.val).lastDec
        then s.cnpCut (s.qp qp.val) else { s.qp qp.val with quiet := 0 })) := by
  have hnow : (s.cnpCounted (pgEth (s.qp qp.val).eth)).now = s.now := s.getF_cnpCounted _ (by decide) (by decide) (by decide)
  have hline : (s.cnpCounted (pgEth (s.qp qp.val).eth)).lineRate (s.qp qp.val).eth = s.lineRate (s.qp qp.val).eth := by
    rw [State.lineRate, s.getF_cnpCounted _ (by decide) (by decide) (by decide)]
    rfl
  have hdec : (s.cnpCounted (pgEth (s.qp qp.val).eth)).getF fdEthCcDec (pgEth (s.qp qp.val).eth) =
      s.getF fdEthCcDec (pgEth (s.qp qp.val).eth) := s.getF_cnpCounted _ (by decide) (by decide) (by decide)
  have hperiod : (s.cnpCounted (pgEth (s.qp qp.val).eth)).getF fdEthCcPeriodUs (pgEth (s.qp qp.val).eth) =
      s.getF fdEthCcPeriodUs (pgEth (s.qp qp.val).eth) := s.getF_cnpCounted _ (by decide) (by decide) (by decide)
  rw [State.cnpCut, ← hnow, ← hline, ← hdec, ← hperiod]
  refine (if_neg (not_not_intro hstate)).trans ?_
  dsimp only
  simp only [Bool.or_eq_true, decide_eq_true_eq]
  rw [← State.cnpCounted]
  split <;> rfl

/-- The target of a quiet pair rises by CC.AI_MBPS, to the line rate at most. -/
theorem exec_ccPeriod_of_open (hstate : (s.qp qp.val).state = 2) {t : Nat} (ht : t =
      if s.getF fdEthCcQuiet (pgEth (s.qp qp.val).eth) < (s.qp qp.val).quiet + 1
        then min (s.lineRate (s.qp qp.val).eth) ((s.qp qp.val).target + s.getF fdEthCcAiMbps (pgEth (s.qp qp.val).eth))
        else (s.qp qp.val).target) :
    exec (.ccPeriod qp) s = .next (s.setQp qp.val { s.qp qp.val with
      quiet := (s.qp qp.val).quiet + 1, target := t, rate := (s.qp qp.val).rate + (t - (s.qp qp.val).rate) / 4 }) := by
  subst ht
  exact if_neg (not_not_intro hstate)

end

/-- Settles O43: each answer or timer touches its own queue pair alone, and what is sent again leaves in order. -/
theorem queuePairRequester : Obligations.QueuePairRequester := by
  unfold Obligations.QueuePairRequester
  intro qp s x only hx hkind honly
  subst hx
  have hset : ∀ y, only s (s.setQp qp.val y) := fun y => (honly _ _).mpr (qpOnly_setQp s qp.val y)
  have hself : ∀ y, (s.setQp qp.val y).qp qp.val = y := fun y => State.qp_setQp_self ..
  have hfatal := s.state_qpError hkind
  refine ⟨fun hstate => ⟨fun k => ⟨_, if_pos hstate, rfl⟩, ⟨_, if_pos hstate, rfl⟩, ⟨_, if_pos (by simp [hstate]), rfl⟩,
    ⟨_, if_pos hstate, rfl⟩, ⟨_, if_pos hstate, rfl⟩⟩, fun hstate => ⟨?_, fun i hi => ⟨fun hsends => ?_, fun hsends htries => ?_,
      fun hsends htries => ?_⟩, ?_, fun hsends => ?_, fun hwait => ?_, fun hwait hrnr => ?_, fun hwait hrnr => ?_, fun pg hpg => ⟨?_, ?_⟩⟩⟩
  · exact ⟨_, exec_roceAck_ack hstate, hset _, rfl, hself _⟩
  · exact ⟨_, exec_retry hstate i hi, State.retryQp_of_none hsends⟩
  · obtain ⟨hothers, hnew⟩ := qpOnly_resendAll s qp.val { s.qp qp.val with tries := (s.qp qp.val).tries + 1 }
    refine ⟨_, (exec_retry hstate i hi).trans (congrArg _ (State.retryQp_of_left hsends htries)), (honly _ _).mpr hothers, hnew, fun hopen => ?_⟩
    have hleave := (s.setQp qp.val { s.qp qp.val with tries := (s.qp qp.val).tries + 1 }).out_resendAll (i := qp.val) (by
      rw [hself]
      exact hopen)
    rw [hself] at hleave
    exact hleave
  · exact ⟨_, exec_retry hstate i hi, State.retryQp_of_spent hsends htries, by rw [State.retryQp_of_spent hsends htries, hfatal]⟩
  · refine ⟨_, exec_roceAck_nakFatal hstate, rfl, hfatal, ?_⟩
    rw [s.qp_qpError hkind, if_neg (by omega)]
  · exact ⟨_, exec_roceAck_rnr hstate hsends, hset _, hself _⟩
  · exact ⟨_, if_pos (by simp [hwait]), rfl⟩
  · obtain ⟨hothers, hnew⟩ := qpOnly_resendAll s qp.val { s.qp qp.val with rnrWait := false, rnr := (s.qp qp.val).rnr + 1 }
    exact ⟨_, (exec_rnrRetryTimer_of_waiting hstate hwait).trans (if_neg (by omega)), (honly _ _).mpr hothers, hnew⟩
  · exact ⟨_, (exec_rnrRetryTimer_of_waiting hstate hwait).trans (if_pos hrnr), rfl, hfatal⟩
  · subst hpg
    refine ⟨_, exec_cnpReceive_of_open hstate, rfl, fun hdue => ?_, fun hnonzero hearly => ?_⟩
    · rw [State.qp_setQp_self, if_pos hdue]
      rfl
    · rw [State.qp_setQp_self, if_neg (by omega)]
  · subst hpg
    refine ⟨_, exec_ccPeriod_of_open hstate rfl, hset _, fun hquiet => ?_, fun hquiet g hg => ?_⟩
    · rw [hself, if_neg (by omega)]
    · rw [hself, if_pos hquiet, hg]

end Sys2Proof.Machine
end

section
/-! PROOFS. Queue pairs as responder (spec/14_ethernet_and_capsules.md). -/
namespace Sys2Proof.Machine

section
variable {qp : QpIx} {s : State}

/-! ### SENDs (R372, R378) -/

section
variable {data : List Byte} {ce : Bool} {P : State → Prop} {u : State} (hstate : (s.qp qp.val).state = 2)
include hstate

theorem gives_roceSend (hu : (s.noteCe qp.val ce).recvSend qp.val data = u) (hP : P u) : Gives (.roceSend qp data ce) s P := by
  subst hu
  exact ⟨_, if_neg (not_not_intro hstate), hP⟩

theorem effect_rdmaWrite {va : Word} {rkey : BitVec 32} {imm : Option (BitVec 32)}
    (hu : (s.noteCe qp.val ce).recvRdmaWrite qp va.toNat rkey.toNat data (imm.map (·.toNat)) = u) (hP : P u) :
    Effect (.rdmaWrite qp va rkey data imm ce) s P := by
  subst hu
  exact ⟨_, if_neg (not_not_intro hstate), hP⟩

theorem effect_rdmaRead {va : Word} {rkey : BitVec 32} {len : Nat}
    (hu : (s.noteCe qp.val ce).recvRdmaRead qp va.toNat rkey.toNat len = u) (hP : P u) : Effect (.rdmaRead qp va rkey len ce) s P := by
  subst hu
  exact ⟨_, if_neg (not_not_intro hstate), hP⟩

end

/-- The bytes of a received packet counted. -/
def State.ethReceived (s : State) (i n : Nat) : State := s.count (pgEth (s.qp i).eth) 1 n

theorem State.now_count_ethReceived (s : State) (i n : Nat) : (s.ethReceived i n).now = s.now :=
  State.getF_addF_ne _ _ (descKey_places_ne (by decide) (by decide) (by decide))

theorem State.recvSend_of_refused {i : Nat} {data : List Byte} (h : (s.qp i).kind = 2 ∨ data.length ≠ 256) :
    s.recvSend i data = (s.ethReceived i data.length).nak i 1 :=
  if_pos (by simpa using h)

section
variable {i : Nat} {data : List Byte} (hkind : (s.qp i).kind = 1) (hlength : data.length = 256)
include hkind hlength

theorem State.recvSend_of_full (hfull : 64 ≤ ((s.queue (s.qp i).owner).ring.filter fun r => !r.broken).length) :
    s.recvSend i data = ((s.ethReceived i data.length).rnrNak i).trace 7 0xFF (s.qp i).owner 3 :=
  (if_neg (by simp [hkind, hlength])).trans (if_pos hfull)

/-- A capsule joined to the ring of its queue, before the SEND is acknowledged. -/
def State.ringJoined (s : State) (i : Nat) (data : List Byte) : State :=
  (((s.ethReceived i data.length).setQueue (s.qp i).owner { s.queue (s.qp i).owner with
    ring := joinRing (s.queue (s.qp i).owner).ring data (s.ethReceived i data.length).now,
    received := (s.queue (s.qp i).owner).received + 1 }).count (pgEth (s.qp i).eth) 6 1).trace 72 0xFF (s.qp i).owner (capTag data)

theorem State.recvSend_of_room (hroom : ((s.queue (s.qp i).owner).ring.filter fun r => !r.broken).length < 64) :
    s.recvSend i data = ((s.ringJoined i data).ackRequest i).flushBroken (s.qp i).owner 64 :=
  (if_neg (by simp [hkind, hlength])).trans (if_neg (Nat.not_le.mpr hroom))

end

theorem recordsOnly_ringJoined (s : State) (i : Nat) (data : List Byte) :
    recordsOnly ((s.ethReceived i data.length).setQueue (s.qp i).owner { s.queue (s.qp i).owner with
      ring := joinRing (s.queue (s.qp i).owner).ring data s.now, received := (s.queue (s.qp i).owner).received + 1 })
      (s.ringJoined i data) := by
  rw [State.ringJoined, s.now_count_ethReceived]
  exact (recordsOnly_count _ _ _ _).trans (recordsOnly_trace _ _ _ _ _)

/-! ### RDMA requests (R369, R373) -/

theorem State.recvRdmaWrite_of_command {va rkey : Nat} {data : List Byte} {imm : Option Nat} (hkind : (s.qp qp.val).kind = 1) :
    s.recvRdmaWrite qp va rkey data imm = (s.ethReceived qp.val data.length).nak qp.val 1 :=
  if_pos (by rw [hkind]; decide)

section
variable {va rkey : Nat} {data : List Byte} {imm : Option Nat} (hkind : (s.qp qp.val).kind = 2)
include hkind

/-- The priority of a data pair has no room for more bytes: flow control is off and 4 MiB wait. -/
def State.ethNoRoom (s : State) (x : QueuePair) (n : Nat) : Prop :=
  bitAt (s.getF fdEthPfcEnable (pgEth x.eth)) x.pcp = false ∧ 4194304 < s.ethBuffered (prioKey x.eth x.lp x.pcp) + n

theorem State.recvRdmaWrite_of_dropped (hroom : (s.ethReceived qp.val data.length).ethNoRoom (s.qp qp.val) data.length) :
    s.recvRdmaWrite qp va rkey data imm = ((s.ethReceived qp.val data.length).addF fdEthCntDropped (pgEth (s.qp qp.val).eth) 0 1).count
      (pgEth (s.qp qp.val).eth) 2 1 := by
  obtain ⟨hoff, hmany⟩ := hroom
  refine (if_neg (not_not_intro hkind)).trans (if_pos ?_)
  rw [Bool.and_eq_true, Bool.not_eq_true', decide_eq_true_eq]
  exact ⟨hoff, hmany⟩

omit hkind in
theorem State.not_dropped (hroom : ¬ (s.ethReceived qp.val data.length).ethNoRoom (s.qp qp.val) data.length) :
    ¬ (!bitAt ((s.ethReceived qp.val data.length).getF fdEthPfcEnable (pgEth (s.qp qp.val).eth)) (s.qp qp.val).pcp &&
    decide (4194304 < (s.ethReceived qp.val data.length).ethBuffered (prioKey (s.qp qp.val).eth (s.qp qp.val).lp (s.qp qp.val).pcp) +
      data.length)) = true := by
  rw [Bool.and_eq_true, Bool.not_eq_true', decide_eq_true_eq]
  exact hroom

variable (hroom : ¬ (s.ethReceived qp.val data.length).ethNoRoom (s.qp qp.val) data.length)
include hroom

theorem State.recvRdmaWrite_of_stranger (hregion : (s.ethReceived qp.val data.length).regionAdmits qp.val va rkey data.length 1 = false) :
    s.recvRdmaWrite qp va rkey data imm = (s.ethReceived qp.val data.length).nak qp.val 2 :=
  (if_neg (not_not_intro hkind)).trans ((if_neg (State.not_dropped hroom)).trans
    (if_pos (by rw [← State.ethReceived, hregion]; rfl)))

variable (hregion : (s.ethReceived qp.val data.length).regionAdmits qp.val va rkey data.length 1 = true)
  (hrefusal : (s.ethReceived qp.val data.length).hbmRefusal
    { kind := 1, src := .qp qp, off := va, len := data.length, data := data, reply := .quiet } = none)
include hregion hrefusal

theorem State.recvRdmaWrite_of_admitted : s.recvRdmaWrite qp va rkey data imm = match imm with
    | none => ((s.ethReceived qp.val data.length).engineWrite (.qp qp) va data).ackRequest qp.val
    | some w => match (s.ethReceived qp.val data.length).immFull qp.val with
      | (true, s) => s.rnrNak qp.val
      | (false, s) => ((s.engineWrite (.qp qp) va data).pushImm qp.val w data.length (.qp qp)).ackRequest qp.val :=
  (if_neg (not_not_intro hkind)).trans ((if_neg (State.not_dropped hroom)).trans
    (if_neg (by rw [← State.ethReceived, hregion, hrefusal]; simp)))

end

theorem State.recvRdmaRead_of_command {va rkey len : Nat} (hkind : (s.qp qp.val).kind = 1) :
    s.recvRdmaRead qp va rkey len = s.nak qp.val 1 :=
  if_pos (by rw [hkind]; decide)

section
variable {va rkey len : Nat} (hkind : (s.qp qp.val).kind = 2)
include hkind

theorem State.recvRdmaRead_of_stranger (hregion : s.regionAdmits qp.val va rkey len 0 = false) :
    s.recvRdmaRead qp va rkey len = s.nak qp.val 2 :=
  (if_neg (not_not_intro hkind)).trans (if_pos (by rw [hregion]; rfl))

theorem State.recvRdmaRead_of_admitted (hregion : s.regionAdmits qp.val va rkey len 0 = true)
    (hrefusal : s.hbmRefusal { kind := 0, src := .qp qp, off := va, len := len } = none) :
    s.recvRdmaRead qp va rkey len = if (s.drainRange va len).linesPoisoned va len then (s.drainRange va len).nak qp.val 6
      else (s.submit { kind := 0, src := .qp qp, off := va, len := len }).ackRequest qp.val :=
  (if_neg (not_not_intro hkind)).trans (if_neg (by rw [hregion, hrefusal]; simp))

end

/-! ### Connections (R377) -/

section
variable {e : EthId} {lp : Fin 2} {gid : BitVec 128} {remote : BitVec 24} {priv : List Byte}

/-- The pair that a host's connection request takes. -/
def State.acceptedQp (s : State) (e : EthId) (lp : Fin 2) (gid : BitVec 128) (remote : BitVec 24) (q : Nat) : QueuePair :=
  { kind := 1, state := 1, owner := q, eth := e.val, lp := lp.val, remote := remote.toNat, gid := gid.toNat,
    psnSend := s.free.1 % 2 ^ 24, pcp := Config.commandPcp e.val lp.val % 8, rate := s.lineRate e.val, target := s.lineRate e.val }

/-- A host accepted on pair i, and told so. -/
def State.cmTaken (s : State) (x : QueuePair) (remote i : Nat) : State := 
  { s with qps := mapPut {} s.qps i x, out := s.out ++ [.cm 0 remote i], freeCount := s.freeCount + 1 }

theorem State.cmTaken_spec (s : State) (x : QueuePair) (remote i : Nat) : (s.cmTaken x remote i).qp i = x ∧
    (∀ j, j ≠ i → (s.cmTaken x remote i).qp j = s.qp j) ∧
    { s.cmTaken x remote i with qps := s.qps, out := s.out, freeCount := s.freeCount } = s :=
  ⟨mapGet_put_self _ _ i x, fun _ hj => mapGet_put_ne _ _ _ _ hj.symm, rfl⟩

theorem exec_cmReq_of_refused (h : priv.length < 2 ∨ s.cmAccepts (leField priv 0 2) gid.toNat = false ∨ s.freeQp = none) :
    exec (.cmReq e lp gid remote priv) s = .next (s.emit (.cm 1 remote.toNat 0)) := by
  have hnone : (if 2 ≤ priv.length && s.cmAccepts (leField priv 0 2) gid.toNat then s.freeQp else none) = none := by
    split
    next hyes =>
      simp only [Bool.and_eq_true, decide_eq_true_eq] at hyes
      obtain ⟨hlen, haccepts⟩ := hyes
      simpa [haccepts, Nat.not_lt.mpr hlen] using h
    next => rfl
  show execCmReq e lp gid remote priv s = _
  unfold execCmReq
  dsimp only
  rw [hnone]

theorem exec_cmReq_of_accepted {i : Nat} (hlen : 2 ≤ priv.length) (haccepts : s.cmAccepts (leField priv 0 2) gid.toNat = true)
    (hfree : s.freeQp = some i) : exec (.cmReq e lp gid remote priv) s =
      .next (s.cmTaken (s.acceptedQp e lp gid remote (leField priv 0 2)) remote.toNat i) := by
  have hsome : (if 2 ≤ priv.length && s.cmAccepts (leField priv 0 2) gid.toNat then s.freeQp else none) = some i := by
    rw [if_pos (by simp [hlen, haccepts]), hfree]
  show execCmReq e lp gid remote priv s = _
  unfold execCmReq
  dsimp only
  rw [hsome]
  rfl

end

/-- A pair that closes is free again; the queue of a command pair loses its session and its ring. -/
theorem State.qpClose_of_command {i : Nat} (hkind : (s.qp i).kind = 1) : (s.qpClose i).qp i = {} ∧
    ((s.qpClose i).queue (s.qp i).owner).session = none ∧ ((s.qpClose i).queue (s.qp i).owner).ring = [] := by
  unfold State.qpClose
  dsimp only
  rw [if_pos hkind, State.qp_dropQueue, State.qp_setQp_self]
  exact ⟨rfl, State.queue_dropQueue _ _⟩

end

/-- Settles O42: a request passes the pair's kind, its room and its region in that order, or the first that fails refuses it and puts the
pair in error. -/
theorem queuePairResponder : Obligations.QueuePairResponder := by
  unfold Obligations.QueuePairResponder
  refine ⟨fun qp data ce va rkey imm len s hstate => ⟨⟨_, if_pos hstate, rfl⟩, ⟨_, if_pos hstate, rfl⟩, ⟨_, if_pos hstate, rfl⟩⟩,
    fun qp data ce s b z x k hstate hb hx hk hz => ?_, fun qp va rkey data imm ce s b z x hstate hb hx hz => ?_,
    fun qp va rkey len ce s b x hstate hb hx => ?_, fun e lp gid remote priv s => ⟨fun h => ?_, fun i hlen haccepts hfree => ?_⟩,
    fun qp s x hx => ?_⟩
  · subst hb hx hk hz
    refine ⟨fun hkind hlength hroom => ?_, fun hkind hlength hfull => ?_, fun hused hrefused => ?_⟩
    · exact gives_roceSend hstate (State.recvSend_of_room hkind hlength hroom) ⟨_, rfl, recordsOnly_ringJoined _ _ _⟩
    · exact gives_roceSend hstate (State.recvSend_of_full hkind hlength hfull)
        ((recordsOnly_setF _ _ _ _ _).trans (recordsOnly_trace _ _ _ _ _))
    · refine gives_roceSend hstate (State.recvSend_of_refused hrefused) ⟨rfl, State.state_nak _ _ ?_⟩
      show ((s.noteCe qp.val ce).qp qp.val).kind ≠ 0
      omega
  · subst hb hx hz
    have hpfc : ((s.noteCe qp.val ce).ethReceived qp.val data.length).getF fdEthPfcEnable (pgEth ((s.noteCe qp.val ce).qp qp.val).eth) =
        (s.noteCe qp.val ce).getF fdEthPfcEnable (pgEth ((s.noteCe qp.val ce).qp qp.val).eth) :=
      State.getF_addF_ne _ _ (descKey_places_ne (by decide) (by decide) (by decide))
    rw [← hpfc]
    refine ⟨fun hkind => ?_, fun hkind hoff hmany => ?_, fun hkind hroom => ?_⟩
    · refine effect_rdmaWrite hstate (State.recvRdmaWrite_of_command hkind) ⟨rfl, State.state_nak _ _ ?_⟩
      show ((s.noteCe qp.val ce).qp qp.val).kind ≠ 0
      omega
    · exact effect_rdmaWrite hstate (State.recvRdmaWrite_of_dropped hkind ⟨hoff, hmany⟩) rfl
    · have hfits : ¬ ((s.noteCe qp.val ce).ethReceived qp.val data.length).ethNoRoom ((s.noteCe qp.val ce).qp qp.val) data.length := by
        rintro ⟨hoff, hmany⟩
        obtain hon | hfew := hroom
        · rw [hon] at hoff
          cases hoff
        · exact absurd hmany (Nat.not_lt.mpr hfew)
      refine ⟨fun hregion => ?_, fun hregion hrefusal => ⟨fun himm => ?_, fun w y himm => ⟨fun hfull => ?_, fun hfull => ?_⟩⟩⟩
      · refine effect_rdmaWrite hstate (State.recvRdmaWrite_of_stranger hkind hfits hregion) ⟨rfl, State.state_nak _ _ ?_⟩
        show ((s.noteCe qp.val ce).qp qp.val).kind ≠ 0
        omega
      · subst himm
        exact effect_rdmaWrite hstate (State.recvRdmaWrite_of_admitted hkind hfits hregion hrefusal) rfl
      all_goals
        subst himm
        have hadmit := State.recvRdmaWrite_of_admitted (imm := some w.toNat) hkind hfits hregion hrefusal
        rw [State.ethReceived, ← hfull] at hadmit
        exact effect_rdmaWrite hstate hadmit rfl
  · subst hb hx
    refine ⟨fun hkind => ?_, fun hkind hregion => ?_, fun hkind hregion hrefusal => ⟨fun hpoison => ?_, fun hclean => ?_⟩⟩
    · exact effect_rdmaRead hstate (State.recvRdmaRead_of_command hkind) ⟨rfl, State.state_nak _ _ (by omega)⟩
    · exact effect_rdmaRead hstate (State.recvRdmaRead_of_stranger hkind hregion) ⟨rfl, State.state_nak _ _ (by omega)⟩
    · exact effect_rdmaRead hstate ((State.recvRdmaRead_of_admitted hkind hregion hrefusal).trans (if_pos hpoison)) rfl
    · exact effect_rdmaRead hstate ((State.recvRdmaRead_of_admitted hkind hregion hrefusal).trans (if_neg (by simp [hclean]))) rfl
  · exact ⟨_, exec_cmReq_of_refused h, rfl⟩
  · obtain ⟨hself, hothers, hframe⟩ := s.cmTaken_spec (s.acceptedQp e lp gid remote (leField priv 0 2)) remote.toNat i
    refine ⟨_, exec_cmReq_of_accepted hlen haccepts hfree, ?_⟩
    beta_reduce
    rw [hself]
    exact ⟨rfl, rfl, rfl, rfl, rfl, rfl, rfl, rfl, hothers, hframe⟩
  · subst hx
    refine ⟨fun hkind hstate => ?_, fun hother => ?_, fun hkind => ?_, fun hkind => ?_⟩
    · exact ⟨_, if_pos (by simp [hkind, hstate]), State.qp_setQp_self .., State.getF_addF_self ..,
        fun j hj => State.qp_setQp_ne _ _ hj, rfl⟩
    · exact ⟨_, if_neg (by simp only [Bool.and_eq_true, decide_eq_true_eq]; omega), rfl⟩
    · exact ⟨_, if_pos hkind, rfl, State.qpClose_of_command hkind⟩
    · exact ⟨_, if_neg hkind, rfl⟩

end Sys2Proof.Machine
end

section
/-! PROOFS. Queue pair and region capsules (spec/14_ethernet_and_capsules.md). -/
namespace Sys2Proof.Machine

section
variable {q : QueueId} {cap : Capsule} {s z : State}

/-- A data queue pair that closes leaves the queues and every other pair as they are. -/
theorem State.qpClose_of_data {i : Nat} (hkind : (s.qp i).kind = 2) : (s.qpClose i).qp i = {} ∧
    (∀ j, j ≠ i → (s.qpClose i).qp j = s.qp j) ∧ { s.qpClose i with qps := s.qps, regs := s.regs } = s := by
  unfold State.qpClose
  dsimp only
  rw [if_neg (by omega)]
  refine ⟨State.qp_setQp_self .., fun j hj => (State.qp_setQp_ne _ _ hj).trans ?_, ?_⟩
  · split <;> rfl
  · split <;> rfl

/-- A data queue pair connected at index i of port e. -/
def State.pairTaken (s : State) (i e : Nat) (x : QueuePair) : State := (s.setQp i x).addF fdEthQpUsed (pgEth e) 0 1

theorem State.pairTaken_spec (s : State) (i e : Nat) (x : QueuePair) :
    { s.pairTaken i e x with qps := s.qps, regs := s.regs } = s ∧ (∀ j, j ≠ i → (s.pairTaken i e x).qp j = s.qp j) ∧
      (s.pairTaken i e x).getF fdEthQpUsed (pgEth e) = min (s.getF fdEthQpUsed (pgEth e) + 1) (2 ^ fdEthQpUsed.width - 1) ∧
      (s.pairTaken i e x).qp i = x :=
  ⟨rfl, fun _ hj => (State.qp_addF ..).trans (s.qp_setQp_ne x hj), State.getF_addF_self .., (State.qp_addF ..).trans (s.qp_setQp_self i x)⟩

/-- A region replaced. -/
def State.putRegion (s : State) (i : Nat) (r : Region) : State := { s with regions := mapPut {} s.regions i r }

theorem State.putRegion_spec (s : State) (i : Nat) (r : Region) : { s.putRegion i r with regions := s.regions } = s ∧
    mapGet {} (s.putRegion i r).regions i = r ∧ ∀ j, j ≠ i → mapGet {} (s.putRegion i r).regions j = mapGet {} s.regions j :=
  ⟨rfl, mapGet_put_self _ _ _ _, fun _ hj => mapGet_put_ne _ _ _ _ hj.symm⟩

end

/-- Settles O47: once its header passes, a capsule takes, closes or frees the one pair or region that it names. -/
theorem regionCapsules : Obligations.RegionCapsules := by
  unfold Obligations.RegionCapsules
  rintro q cap s z c rfl
  refine ⟨?_, ?_, ?_, ?_⟩
  · rintro o i e rfl htakes hbody hqpn hremote hmtu hpcp hlogLo hlogHi hport rfl
    have hexec : exec (.qpConnect q cap) s = execQpConnect q cap s := rfl
    unfold execQpConnect at hexec
    have hok : (bodyOk cap 48 [(0, 27), (28, 3), (32, 4), (40, 8)] && (qpIx (capF cap 0 4)).isSome && capF cap 4 4 < 2 ^ 24 &&
        capF cap 32 1 ≤ 4 && capF cap 33 1 < 8 && 4 ≤ capF cap 34 1 && capF cap 34 1 ≤ 12 && capF cap 35 1 < 4) = true := by
      simpa [hbody, hqpn, hmtu, hpcp, hlogLo, hlogHi, hport] using hremote
    rw [hqpn] at hexec hok
    refine ⟨fun hclosed => ?_, fun hopen hfull => ?_, fun hopen hroom hkind => ?_⟩
    · exact effect_capsule hexec htakes hok (if_pos (by simp [hclosed])) rfl
    · exact effect_capsule hexec htakes hok ((if_neg (by simp [hopen])).trans (if_pos (by simp [hfull]))) rfl
    · refine effect_capsule hexec htakes hok ((if_neg (by simp [hopen])).trans ((if_neg (by simpa using hroom)).trans
        (if_neg (not_not_intro hkind)))) ⟨z.pairTaken i (bits (capF cap 35 1) 1 1) _, rfl, z.pairTaken_spec _ _ _⟩
  · rintro o i rfl htakes hbody hqpn
    have hexec : exec (.qpClose q cap) s = execQpClose q cap s := rfl
    unfold execQpClose at hexec
    rw [hqpn] at hexec
    refine ⟨fun hkind howner => ?_, fun hother => ?_⟩
    · obtain ⟨hself, hothers, hframe⟩ := State.qpClose_of_data hkind
      exact effect_capsule hexec htakes (by simp [hbody]) (if_neg (by simp [hkind, howner])) ⟨_, rfl, hself, hothers, hframe⟩
    · exact effect_capsule hexec htakes (by simp [hbody]) (if_pos (by simpa using hother)) rfl
  · rintro o rfl htakes hbody hperm hopen
    have hexec : exec (.mrReg q cap) s = execMrReg q cap s := rfl
    unfold execMrReg at hexec
    refine ⟨fun hfull => ?_, ?_⟩
    · refine effect_capsule (y := z) (a := { code := scNoResource }) hexec htakes (by simp [hbody, hperm])
        ((if_neg (by simp [hopen])).trans ?_) rfl
      rw [hfull]
      rfl
    · rintro i g hfree rfl
      refine effect_capsule (y := z.putRegion i _) (a := { body := leBytes 4 (i + (mapGet {} z.regions i).gen * 4096) }) hexec htakes
        (by simp [hbody, hperm]) ((if_neg (by simp [hopen])).trans ?_) ⟨_, rfl, z.putRegion_spec i _⟩
      rw [hfree]
      rfl
  · rintro o i r rfl htakes hbody rfl rfl
    have hexec : exec (.mrDereg q cap) s = execMrDereg q cap s := rfl
    unfold execMrDereg at hexec
    refine ⟨fun hvalid hgen howner => ?_, fun hother => ?_⟩
    · exact effect_capsule hexec htakes hbody (if_pos (by simp [hvalid, hgen, howner]))
        ⟨z.putRegion _ _, rfl, z.putRegion_spec _ _⟩
    · refine effect_capsule hexec htakes hbody (if_neg ?_) rfl
      simp only [Bool.and_eq_true, decide_eq_true_eq]
      rintro ⟨⟨hvalid, hgen⟩, howner⟩
      obtain h | h | h := hother
      · rw [hvalid] at h
        cases h
      · exact h hgen
      · exact h howner

end Sys2Proof.Machine
end

section
/-! PROOFS. Attestation, secured sessions and key slots (spec/14_ethernet_and_capsules.md, spec/20_power_up_and_reset.md). -/
namespace Sys2Proof.Machine

/-! ### What an SPDM request answers (R389, R487) -/

/-- Beside the SPDM state of queue q, which is `x`, the state is `y`. -/
def holdsSpdm (q : Nat) (y : State) (x : SpdmState) (u : State) : Prop :=
  u.spdmOf q = x ∧ (∀ j, j ≠ q → u.spdmOf j = y.spdmOf j) ∧ { u with spdm := y.spdm } = y

theorem holdsSpdm_self (q : Nat) (y : State) : holdsSpdm q y (y.spdmOf q) y := ⟨rfl, fun _ _ => rfl, rfl⟩

theorem holdsSpdm_setSpdm (q : Nat) (y : State) (x : SpdmState) : holdsSpdm q y x (y.setSpdm q x) :=
  ⟨mapGet_put_self _ _ _ _, fun _ hj => mapGet_put_ne _ _ _ _ hj.symm, rfl⟩

/-- The request and its response join the transcript of what the request's own part leaves. -/
theorem holdsSpdm.transcript {q : Nat} {y u : State} {x : SpdmState} (h : holdsSpdm q y x u) (t : List Byte) :
    holdsSpdm q y { x with transcript := x.transcript ++ t } (u.setSpdm q { u.spdmOf q with transcript := (u.spdmOf q).transcript ++ t }) := by
  obtain ⟨hself, hothers, hframe⟩ := h
  rw [hself]
  obtain ⟨hset, hkeep, -⟩ := holdsSpdm_setSpdm q u { x with transcript := x.transcript ++ t }
  exact ⟨hset, fun j hj => (hkeep j hj).trans (hothers j hj), hframe⟩

/-- A request's response, and the state beside the transcript. -/
def State.spdmRun (z : State) (q code : Nat) (msg : List Byte) (run : State → SpdmState → State × List Byte) : State × List Byte :=
  if msg.length < 4 then (z, spdmError seInvalid)
  else if !spdmRequests.contains (leField msg 1 1) then (z, spdmError seUnsupported)
  else if leField msg 1 1 ≠ code then (z, spdmError seInvalid)
  else if code ≠ 0x84 && leField msg 0 1 ≠ 0x13 then (z, spdmError seVersion)
  else run z (z.spdmOf q)

/-- A request and its response joined to the transcript. -/
def State.spdmJoin (q : Nat) (msg : List Byte) (r : State × List Byte) : State × Answer :=
  (r.1.setSpdm q { r.1.spdmOf q with transcript := (r.1.spdmOf q).transcript ++ msg ++ r.2 }, { body := r.2 })

theorem State.spdm'_eq (s : State) (q : QueueId) (code : Nat) (msg : List Byte) (run : State → SpdmState → State × List Byte) :
    s.spdm' q code msg run = s.capsule q (s.spdmCap q msg) spdmOpcode true fun z => State.spdmJoin q.val msg (z.spdmRun q.val code msg run) :=
  rfl

section
variable {i : Instr} {q : QueueId} {msg : List Byte} {s z : State}

theorem State.spdmRun_of_takes {code : Nat} {run : State → SpdmState → State × List Byte} (htakes : s.spdmTakes q code msg z)
    (hcode : spdmRequests.contains code = true) : z.spdmRun q.val code msg run = run z (z.spdmOf q.val) := by
  obtain ⟨-, hlength, hgot, hversion⟩ := htakes
  rw [State.spdmRun, if_neg (by omega), hgot, if_neg (by rw [hcode]; decide), if_neg (not_not_intro rfl), if_neg (by simpa using hversion)]

theorem spdmAnswers_join {y u : State} {x : SpdmState} {out : List Byte} (h : holdsSpdm q.val y x u) :
    spdmAnswers s q msg y x out
      ((State.spdmJoin q.val msg (u, out)).1.endCapsule q.val spdmOpcode (s.spdmCap q msg) (State.spdmJoin q.val msg (u, out)).2) := by
  have hjoined := h.transcript (msg ++ out)
  rw [← List.append_assoc, ← List.append_assoc] at hjoined
  exact ⟨_, rfl, hjoined⟩

/-- A request that is taken answers what its own part answers. -/
theorem effect_spdm {e : Out} {code : Nat} {y u : State} {x : SpdmState} {out : List Byte} {run : State → SpdmState → State × List Byte}
    {ans : State → SpdmState → List Byte → State → Prop} (hans : ∀ y x' out u, ans y x' out u ↔ spdmAnswers s q msg y x' out u)
    (hexec : exec i s = e) (hpart : e = s.spdm' q code msg run) (htakes : s.spdmTakes q code msg z) (hcode : spdmRequests.contains code = true)
    (hrun : run z (z.spdmOf q.val) = (u, out)) (hholds : holdsSpdm q.val y x u) : Effect i s (ans y x out) := by
  have hanswer := (State.spdmRun_of_takes (run := run) htakes hcode).trans hrun
  obtain ⟨hcap, -⟩ := htakes
  exact effect_capsule ((hexec.trans hpart).trans (State.spdm'_eq ..)) hcap rfl (congrArg (State.spdmJoin q.val msg) hanswer)
    ((hans ..).mpr (spdmAnswers_join hholds))

end

/-! ### Settled statements -/

/-- Settles O49: a request before its stage is an ERROR, and one in its stage is answered from the slot's certificates and the measurements. -/
theorem attestation : Obligations.Attestation := by
  unfold Obligations.Attestation
  rintro q msg s z x slot ans rfl rfl hans
  refine ⟨fun htakes => ?_, fun htakes => ⟨fun hstage => ?_, fun hstage => ?_⟩, fun htakes => ⟨fun hstage => ?_, fun hstage => ?_⟩, ?_,
    fun htakes hstage => ?_, ?_, ?_, ?_⟩
  · exact effect_spdm (e := execGetVersion q msg s) hans rfl rfl htakes (by decide) rfl (holdsSpdm_setSpdm _ _ _)
  · exact effect_spdm (e := execGetCapabilities q msg s) hans rfl rfl htakes (by decide) (if_pos hstage) (holdsSpdm_self _ _)
  · exact effect_spdm (e := execGetCapabilities q msg s) hans rfl rfl htakes (by decide) (if_neg hstage) (holdsSpdm_setSpdm _ _ _)
  · exact effect_spdm (e := execNegotiateAlgorithms q msg s) hans rfl rfl htakes (by decide) (if_pos hstage) (holdsSpdm_self _ _)
  · exact effect_spdm (e := execNegotiateAlgorithms q msg s) hans rfl rfl htakes (by decide) (if_neg (Nat.not_lt.mpr hstage)) (holdsSpdm_setSpdm _ _ _)
  · simp only [List.forall_mem_cons, List.not_mem_nil, false_imp_iff, implies_true, and_true]
    refine ⟨?_, ?_, ?_, ?_, ?_⟩ <;> refine fun htakes hstage => ?_
    · exact effect_spdm (e := execGetDigests q msg s) hans rfl rfl htakes (by decide) (if_pos hstage) (holdsSpdm_self _ _)
    · exact effect_spdm (e := execGetCertificate q msg s) hans rfl rfl htakes (by decide) (if_pos hstage) (holdsSpdm_self _ _)
    · exact effect_spdm (e := execChallenge q msg s) hans rfl rfl htakes (by decide) (if_pos hstage) (holdsSpdm_self _ _)
    · exact effect_spdm (e := execGetMeasurements q msg s) hans rfl rfl htakes (by decide) (if_pos hstage) (holdsSpdm_self _ _)
    · exact effect_spdm (e := execKeyExchange q msg s) hans rfl rfl htakes (by decide) (if_pos hstage) (holdsSpdm_self _ _)
  · exact effect_spdm (e := execGetDigests q msg s) hans rfl rfl htakes (by decide) (if_neg (Nat.not_lt.mpr hstage)) (holdsSpdm_self _ _)
  · rintro htakes hstage off part rfl rfl hlength hslot hoff
    exact effect_spdm (e := execGetCertificate q msg s) hans rfl rfl htakes (by decide) ((if_neg (Nat.not_lt.mpr hstage)).trans (if_neg (by simp; omega))) (holdsSpdm_self _ _)
  · rintro htakes hstage hlength hslot v y body hfresh rfl
    refine effect_spdm (e := execChallenge q msg s) hans rfl rfl htakes (by decide) ((if_neg (Nat.not_lt.mpr hstage)).trans ((if_neg (by simp; omega)).trans ?_))
      (holdsSpdm_self _ _)
    rw [← hfresh]
  · rintro htakes hstage signed i is v y rec' body rfl rfl his
    refine ⟨fun hbad => ?_, ?_⟩
    · refine effect_spdm (e := execGetMeasurements q msg s) hans rfl rfl htakes (by decide) ((if_neg (Nat.not_lt.mpr hstage)).trans (if_pos ?_)) (holdsSpdm_self _ _)
      rw [← his]
      simpa using hbad
    · rintro hgood hlength hfresh rfl rfl
      refine effect_spdm (e := execGetMeasurements q msg s) hans rfl rfl htakes (by decide) ((if_neg (Nat.not_lt.mpr hstage)).trans ((if_neg ?_).trans ?_)) (holdsSpdm_self _ _)
      · have hlisted : ∀ k ∈ is, k ∈ measureList := by simpa using hgood
        have hlong : leField msg 2 1 % 2 = 1 → 37 ≤ msg.length := by simpa using hlength
        rw [← his]
        simpa using ⟨hlisted, hlong⟩
      · rw [← his, ← hfresh]
        simp

/-- The bytes of a key request's answer, with its status and salt. -/
def keyAnswer (p : List Byte) (st salt : Nat) : List Byte := leBytes 1 (leField p 0 1) ++ leBytes 1 st ++ [0, 0] ++ leBytes 16 salt

theorem keyAnswer_length (p : List Byte) (st salt : Nat) : (keyAnswer p st salt).length = 20 := by
  simp [keyAnswer, leBytes_length]

/-- A key slot after a request, where the status is 0; a fresh value is drawn. -/
def State.keyPut (s : State) (st slot : Nat) (key : KeySlot) : State :=
  { s with freeCount := s.freeCount + 1, keys := if st = 0 then mapPut {} s.keys slot key else s.keys }

/-- The salt of a slot filled from a fresh value v: it is never the one before. -/
def State.freshSalt (s : State) (slot v : Nat) : Nat :=
  if v % 2 ^ 128 = (mapGet {} s.keys slot).salt then (v + 1) % 2 ^ 128 else v % 2 ^ 128

/-- The contents of a slot after a key request of operation `op`. -/
def keyOf (op : Nat) (p : List Byte) (salt : Nat) : KeySlot :=
  if op = 1 then { full := true, job := leField p 4 4 % 2 ^ 20, key := leField p 8 16, salt := salt } else {}

/-- A key request whose header names the key slots of R489 answers its status, and changes its slot where the status is 0. -/
theorem effect_keyRequest {i : Instr} {q : QueueId} {msg : List Byte} {s z : State} {op st salt : Nat}
    {ans : State → SpdmState → List Byte → State → Prop} (hans : ∀ y x' out u, ans y x' out u ↔ spdmAnswers s q msg y x' out u)
    (hexec : exec i s = s.keyRequest q op msg) (htakes : s.spdmTakes q 0xFE msg z) (hstandard : leField msg 4 2 = 4)
    (hvendor : leField msg 6 1 = 4) (hpen : leField msg 7 4 = Config.vendorPen % 2 ^ 32)
    (hlength : leField msg 11 2 = (msg.drop 13).length) (hst : st = z.keyStatus (z.spdmOf q.val) op (msg.drop 13))
    (hsalt : salt = z.freshSalt (leField (msg.drop 13) 1 1) (Config.freeValue z.freeCount)) :
    Effect i s (ans (z.keyPut st (leField (msg.drop 13) 1 1) (keyOf op (msg.drop 13) salt)) (z.spdmOf q.val)
      (spdmReply 0x7E 0 0 ([4, 0, 4] ++ leBytes 4 (Config.vendorPen % 2 ^ 32) ++ leBytes 2 20 ++
        keyAnswer (msg.drop 13) st (if st = 0 && op = 1 then salt else 0)))) := by
  refine effect_spdm hans hexec rfl htakes (by decide) ((if_neg (by simp [hstandard, hvendor, hpen])).trans ?_)
    (holdsSpdm_self q.val (z.keyPut st (leField (msg.drop 13) 1 1) (keyOf op (msg.drop 13) salt)))
  have hanswer := keyAnswer_length (msg.drop 13) st (if st = 0 && op = 1 then salt else 0)
  refine Eq.trans (b := (_, spdmReply 0x7E 0 0 ([4, 0, 4] ++ leBytes 4 (Config.vendorPen % 2 ^ 32) ++
    leBytes 2 (keyAnswer (msg.drop 13) st (if st = 0 && op = 1 then salt else 0)).length ++
      keyAnswer (msg.drop 13) st (if st = 0 && op = 1 then salt else 0)))) ?_ (by rw [hanswer])
  rw [if_pos hlength, ← hst, hsalt]
  by_cases h : st = 0
  · simp only [State.keyPut, h, if_true]
    rfl
  · simp only [State.keyPut, h, if_false]
    rfl

/-- Settles O50: without a session a request is an ERROR, in one it does its part; a key request changes its own slot or none. -/
theorem securedSessions : Obligations.SecuredSessions := by
  unfold Obligations.SecuredSessions
  rintro q msg s z x ans rfl hans
  refine ⟨fun htakes hstage => ⟨fun hsession => ?_, fun hsession => ?_⟩, fun htakes => ⟨fun hsession => ?_, fun hsession hbad => ?_, ?_⟩, ?_,
    fun hsession => ⟨fun htakes => ?_, ?_, fun htakes => ?_⟩, ?_⟩
  · exact effect_spdm (e := execKeyExchange q msg s) hans rfl rfl htakes (by decide) ((if_neg (Nat.not_lt.mpr hstage)).trans (if_pos hsession)) (holdsSpdm_self _ _)
  · exact effect_spdm (e := execKeyExchange q msg s) hans rfl rfl htakes (by decide) ((if_neg (Nat.not_lt.mpr hstage)).trans (if_neg (not_not_intro hsession)))
      (holdsSpdm_setSpdm _ _ _)
  · exact effect_spdm (e := execFinish q msg s) hans rfl rfl htakes (by decide) (if_pos hsession) (holdsSpdm_self _ _)
  · exact effect_spdm (e := execFinish q msg s) hans rfl rfl htakes (by decide) ((if_neg (not_not_intro hsession)).trans (if_pos (by simp [hbad])))
      (holdsSpdm_setSpdm _ _ _)
  · rintro hsession hgood who rfl
    exact effect_spdm (e := execFinish q msg s) hans rfl rfl htakes (by decide) ((if_neg (not_not_intro hsession)).trans (if_neg (by simp [hgood])))
      (holdsSpdm_setSpdm _ _ _)
  · simp only [List.forall_mem_cons, List.not_mem_nil, false_imp_iff, implies_true, and_true]
    refine ⟨?_, ?_, ?_⟩ <;> refine fun htakes hsession => ?_
    · exact effect_spdm (e := execHeartbeat q msg s) hans rfl rfl htakes (by decide) (if_pos hsession) (holdsSpdm_self _ _)
    · exact effect_spdm (e := execKeyUpdate q msg s) hans rfl rfl htakes (by decide) (if_pos hsession) (holdsSpdm_self _ _)
    · exact effect_spdm (e := execEndSession q msg s) hans rfl rfl htakes (by decide) (if_pos hsession) (holdsSpdm_self _ _)
  · exact effect_spdm (e := execHeartbeat q msg s) hans rfl rfl htakes (by decide) (if_neg (not_not_intro hsession)) (holdsSpdm_self _ _)
  · rintro htakes op rfl
    refine ⟨fun hbad => ?_, fun hlo hhi => ?_⟩
    · exact effect_spdm (e := execKeyUpdate q msg s) hans rfl rfl htakes (by decide) ((if_neg (not_not_intro hsession)).trans (if_pos (by simpa using hbad)))
        (holdsSpdm_self _ _)
    · exact effect_spdm (e := execKeyUpdate q msg s) hans rfl rfl htakes (by decide) ((if_neg (not_not_intro hsession)).trans (if_neg (by simp; omega)))
        (holdsSpdm_setSpdm _ _ _)
  · exact effect_spdm (e := execEndSession q msg s) hans rfl rfl htakes (by decide) (if_neg (not_not_intro hsession)) (holdsSpdm_setSpdm _ _ _)
  · intro r hr p st pen slot v salt key htakes hp hpen hstandard hvendor hnumber hlength hst hslot hv hsalt hkey
    subst hp hpen hslot hv hkey
    have hexec : ∀ r ∈ [(Instr.keyLoad, 1), (.keyClear, 2)], exec (r.1 q msg) s = s.keyRequest q r.2 msg := by
      simp only [List.forall_mem_cons, List.not_mem_nil, false_imp_iff, implies_true, and_true]
      exact ⟨rfl, rfl⟩
    exact effect_keyRequest hans (hexec r hr) htakes hstandard hvendor hnumber hlength hst hsalt

end Sys2Proof.Machine
end

section
/-! PROOFS. Checkpoints and restores (spec/16_checkpoint_and_restore.md). -/
namespace Sys2Proof.Machine

section
variable {s : State} {c : Nat}

/-! ### The sweep and its promotions (R416–R418) -/

theorem State.ckptSweep_of_done (h : (s.ckpt c).active = false ∨ (s.ckpt c).unreached = []) : s.ckptSweep c = s := by
  unfold State.ckptSweep
  dsimp only
  split
  next g a n rest hnext =>
    obtain hoff | hempty := h
    · rw [if_neg (by rw [hoff]; decide)]
    · rw [hempty] at hnext
      cases hnext
  next => rfl

theorem State.ckptSweep_of_next {g a n : Nat} {rest : List (Nat × Nat × Nat)} (hactive : (s.ckpt c).active = true)
    (hnext : (s.ckpt c).unreached = (g, a, n) :: rest) : s.ckptSweep c = s.reachGranule c g a false := by
  unfold State.ckptSweep
  dsimp only
  rw [hnext]
  exact if_pos hactive

theorem State.promoDone_of_none {g : Nat} (h : (s.promos.take 16).contains (c, g) = false) : s.promoDone c g = s :=
  if_pos (by rw [h]; rfl)

/-- A promotion that completes, counted with the hold slot that it fills. -/
def State.promoCounted (s : State) (c : Nat) : State :=
  State.setCkpt ((s.addF fdCkptHoldUsed pgCkpt 0 1).addF fdCkptPromoCount pgCkpt 0 1) c
    { s.ckpt c with promotions := (s.ckpt c).promotions + 1 }

theorem State.promoDone_of_flight {g : Nat} {x : Nat × Nat × Nat} (hflight : (s.promos.take 16).contains (c, g) = true)
    (hfind : ((s.ckpt c).unreached.find? fun u => u.1 = g) = some x) : s.promoDone c g =
    if s.getF fdCkptHoldUsed pgCkpt = 16384 then s.ckptEnd c 2
    else ((s.promoCounted c).chargeSweep 0 true).reachGranule c g x.2.1 true := by
  unfold State.promoDone
  dsimp only
  rw [if_neg (by rw [hflight]; decide), hfind]
  rfl

theorem State.promoCounted_spec (s : State) (c : Nat) :
    (s.promoCounted c).ckpt c = { s.ckpt c with promotions := (s.ckpt c).promotions + 1 } ∧
      (s.promoCounted c).getF fdCkptHoldUsed pgCkpt = min (s.getF fdCkptHoldUsed pgCkpt + 1) (2 ^ fdCkptHoldUsed.width - 1) ∧
      (s.promoCounted c).getF fdCkptPromoCount pgCkpt = min (s.getF fdCkptPromoCount pgCkpt + 1) (2 ^ fdCkptPromoCount.width - 1) ∧
      { s.promoCounted c with regs := s.regs, ckpts := s.ckpts } = s := by
  refine ⟨mapGet_put_self _ _ _ _, ?_, ?_, rfl⟩
  · exact (State.getF_addF_ne _ _ (by decide)).trans (State.getF_addF_self ..)
  · refine (State.getF_addF_self ..).trans ?_
    rw [State.getF_addF_ne _ _ (by decide)]

/-! ### Stage one ends, and slots drain (R420, R424) -/

theorem State.stageOneEnd_of_active (hactive : (s.ckpt c).active = true) : s.stageOneEnd c =
    if (s.ckpt c).failed then s.ckptEnd c 3
    else if (s.ckpt c).handed && (s.ckpt c).outstanding = 0 then s.ckptEnd c 0 else s :=
  if_neg (by rw [hactive]; decide)

/-- A slot shown as draining. -/
def State.drainShown (s : State) (c sl : Nat) : State :=
  (s.setCkpt c { s.ckpt c with draining := (s.ckpt c).draining ++ [sl] }).ckptShow c

theorem State.drainStart_of_ready {sl : Nat} (hdrain : (s.ckpt c).desc.drain = true) (hfree : (s.ckpt c).draining.contains sl = false)
    (hcomplete : s.slotComplete (s.ckpt c).desc sl = true) : s.drainStart c sl =
    if (s.ckpt c).desc.sm4 && ((s.drainShown c sl).keyFor c (s.ckpt c).desc.keyslot).isNone then (s.drainShown c sl).drainRecord c sl 7
    else (s.drainShown c sl).forEach (List.range ((s.ckpt c).desc.k + (s.ckpt c).desc.m)) fun j z => z.drainShard c sl j :=
  if_neg (by rw [hdrain, hfree, hcomplete]; decide)

theorem State.drainEnd_of_none (h : (s.ckpt c).draining = []) (ok : Bool) : s.drainEnd c ok = s := by
  unfold State.drainEnd
  dsimp only
  rw [h]

section
variable {sl : Nat} {rest : List Nat} (h : (s.ckpt c).draining = sl :: rest)
include h

theorem State.drainEnd_ok : s.drainEnd c true = if (s.qp ((s.ckpt c).desc.qpn - 2)).sends.isEmpty then s.drainRecord c sl 0 else s := by
  unfold State.drainEnd
  dsimp only
  rw [h]
  rfl

theorem State.drainEnd_failed : s.drainEnd c false = if (s.qp ((s.ckpt c).desc.qpn - 2)).state = 3 then s.drainRecord c sl 7 else s := by
  unfold State.drainEnd
  dsimp only
  rw [h]
  rfl

end

/-! ### Restores (R428–R430) -/

theorem State.restoreChoose_of_none (h : (s.ckpt c).restore = none) (records : List (List Byte)) : s.restoreChoose c records = s := by
  unfold State.restoreChoose
  dsimp only
  rw [h]

theorem State.restoreDone_of_none (h : (s.ckpt c).restore = none) : s.restoreDone c = s := by
  unfold State.restoreDone
  dsimp only
  rw [h]

section
variable {x : Restore} (hrestore : (s.ckpt c).restore = some x)
include hrestore

section
variable {records : List (List Byte)} (hheat : x.heat = 0)
include hheat

theorem State.restoreChoose_of_missing
    (hfew : records.length < grpMembers ((s.groupOf c (s.ckpt c).desc.group).getD 0)) :
    s.restoreChoose c records = (s.restoreEnd c 0x45 0 []).jobFatal c 0x0102 0 0 := by
  unfold State.restoreChoose
  dsimp only
  rw [hrestore]
  exact (if_neg (not_not_intro hheat)).trans (if_pos hfew)

variable (hall : grpMembers ((s.groupOf c (s.ckpt c).desc.group).getD 0) ≤ records.length)
include hall

theorem State.restoreChoose_of_incomplete (hsome : candidateHeats x.storage records ≠ [])
    (hnone : ((candidateHeats x.storage records).find? fun h => (s.ckpt c).desc.complete x.storage records
      (grpMembers ((s.groupOf c (s.ckpt c).desc.group).getD 0)) h) = none) :
    s.restoreChoose c records = s.restoreEnd c 0x43 (min 28 (candidateHeats x.storage records).length)
      (((candidateHeats x.storage records).take 28).flatMap (leBytes 8)) := by
  unfold State.restoreChoose
  dsimp only
  rw [hrestore]
  refine (if_neg (not_not_intro hheat)).trans ((if_neg (Nat.not_lt.mpr hall)).trans ?_)
  rw [hnone]
  exact if_neg (by simp [hsome])

theorem State.restoreChoose_of_storage {h : Nat} (hstorage : x.storage = true)
    (hfind : ((candidateHeats true records).find? fun h => (s.ckpt c).desc.complete true records
      (grpMembers ((s.groupOf c (s.ckpt c).desc.group).getD 0)) h) = some h) :
    s.restoreChoose c records = s.setCkpt c { s.ckpt c with
      restore := some { x with heat := h + 1, pieces := List.range (s.ckpt c).desc.k } } := by
  have hpieces : ((List.range (s.ckpt c).desc.k).map fun j => (j, 0)).map (fun p : Nat × Nat => p.1) = List.range (s.ckpt c).desc.k := by
    simp [Function.comp_def]
  rw [← hstorage] at hfind
  unfold State.restoreChoose
  dsimp only
  rw [hrestore]
  refine (if_neg (not_not_intro hheat)).trans ((if_neg (Nat.not_lt.mpr hall)).trans ?_)
  rw [hfind]
  refine (if_pos hstorage).trans ?_
  rw [if_pos hstorage, hpieces]

end

theorem State.restoreDone_of_unchosen (hheat : x.heat = 0) : s.restoreDone c = s := by
  unfold State.restoreDone
  dsimp only
  rw [hrestore]
  exact if_pos hheat

variable (hheat : x.heat ≠ 0)
include hheat

theorem State.restoreDone_of_failed (hfailed : (s.ckpt c).failed = true) :
    s.restoreDone c = (s.restoreEnd c 0x45 0 []).jobFatal c 0x0102 0 0 := by
  unfold State.restoreDone
  dsimp only
  rw [hrestore]
  exact (if_neg hheat).trans (if_pos hfailed)

variable (hfailed : (s.ckpt c).failed = false)
include hfailed

theorem State.restoreDone_of_waiting (hout : (s.ckpt c).outstanding ≠ 0) : s.restoreDone c = s := by
  unfold State.restoreDone
  dsimp only
  rw [hrestore]
  exact (if_neg hheat).trans ((if_neg (by rw [hfailed]; decide)).trans (if_pos hout))

theorem State.restoreDone_of_storage (hout : (s.ckpt c).outstanding = 0) (hstorage : x.storage = true) {y : State} {image : List Byte}
    (hbytes : (y, image) = s.freeBytes ((s.ckpt c).desc.granules.length * 65536)) :
    s.restoreDone c = (((y.writeImage (s.ckpt c).desc image []).setF fdSchedCtxHeat pgSched c (x.heat - 1)).setF fdCkptCtxHeat pgCkpt c
      (x.heat - 1)).restoreEnd c 0 0 (leBytes 8 (x.heat - 1)) := by
  unfold State.restoreDone
  dsimp only
  rw [hrestore]
  refine (if_neg hheat).trans ((if_neg (by rw [hfailed]; decide)).trans ((if_neg (not_not_intro hout)).trans ?_))
  refine (if_neg (by rw [hstorage]; simp)).trans ?_
  rw [if_pos hstorage, if_pos hstorage, ← hbytes]

end

end

/-- Settles O51: the sweep, a promotion, a stage, a drain and a restore each go one step further, or end by what failed. -/
theorem checkpoints : Obligations.Checkpoints := by
  unfold Obligations.Checkpoints
  rintro c s r d rfl rfl
  refine ⟨fun h => ⟨_, rfl, State.ckptSweep_of_done h⟩, fun g a n rest hactive hnext => ⟨_, rfl, State.ckptSweep_of_next hactive hnext⟩,
    fun g h => ⟨_, rfl, State.promoDone_of_none h⟩, fun g x hflight hfind => ⟨fun hfull => ?_, fun hroom => ?_⟩, fun h => ?_,
    fun hactive hfailed => ?_, fun hactive hfailed hhanded hout => ?_, fun hactive hfailed hwait => ?_, fun slot h => ?_,
    fun slot z hdrain hfree hcomplete hz => ?_, fun h ok => ⟨_, rfl, State.drainEnd_of_none h ok⟩, fun sl rest x hslot hx => ?_,
    fun h => ⟨fun records => ⟨_, rfl, State.restoreChoose_of_none h records⟩, ⟨_, rfl, State.restoreDone_of_none h⟩⟩,
    fun x records n hrestore hn hheat => ?_, fun x hrestore => ⟨fun hheat => ?_, fun hheat hfailed => ?_, fun hheat hfailed hout => ?_,
      fun hheat hfailed hout y image hstorage hbytes => ?_⟩⟩
  · exact ⟨_, rfl, (State.promoDone_of_flight hflight hfind).trans (if_pos hfull)⟩
  · exact ⟨_, rfl, s.promoCounted c.val, (State.promoDone_of_flight hflight hfind).trans (if_neg hroom), s.promoCounted_spec c.val⟩
  · exact ⟨_, rfl, if_pos (by rw [h]; rfl)⟩
  · exact ⟨_, rfl, (State.stageOneEnd_of_active hactive).trans (if_pos hfailed)⟩
  · exact ⟨_, rfl, (State.stageOneEnd_of_active hactive).trans ((if_neg (by simp [hfailed])).trans (if_pos (by simp [hhanded, hout])))⟩
  · refine ⟨_, rfl, (State.stageOneEnd_of_active hactive).trans ((if_neg (by simp [hfailed])).trans (if_neg ?_))⟩
    obtain h | h := hwait <;> simp [h]
  · refine ⟨_, rfl, if_pos ?_⟩
    obtain h | h | h := h <;> rw [h] <;> simp
  · have hstart := State.drainStart_of_ready hdrain hfree hcomplete
    rw [State.drainShown, ← hz] at hstart
    refine ⟨fun hsm4 hkey => ⟨_, rfl, hstart.trans (if_pos ?_)⟩, fun hkey => ⟨_, rfl, hstart.trans (if_neg ?_)⟩⟩
    · rw [hsm4, hkey]
      rfl
    · obtain hplain | hsome := hkey
      · simp [hplain]
      · simp [hsome]
  · subst hx
    refine ⟨fun hsends => ?_, fun hsends => ?_, fun hstate => ?_, fun hstate => ?_⟩
    · exact ⟨_, rfl, (State.drainEnd_ok hslot).trans (if_pos (by rw [hsends]; rfl))⟩
    · exact ⟨_, rfl, (State.drainEnd_ok hslot).trans (if_neg (by simp [hsends]))⟩
    · exact ⟨_, rfl, (State.drainEnd_failed hslot).trans (if_pos hstate)⟩
    · exact ⟨_, rfl, (State.drainEnd_failed hslot).trans (if_neg hstate)⟩
  · subst hn
    refine ⟨fun hfew => ⟨_, rfl, State.restoreChoose_of_missing hrestore hheat hfew⟩, ?_, fun h hall hstorage hfind =>
      ⟨_, rfl, State.restoreChoose_of_storage hrestore hheat hall hstorage hfind⟩⟩
    rintro hall hsome hincomplete
    refine ⟨_, rfl, ?_⟩
    rintro hs rfl
    refine State.restoreChoose_of_incomplete hrestore hheat hall hsome (List.find?_eq_none.mpr fun h hh => ?_)
    simp [hincomplete h hh]
  · exact ⟨_, rfl, State.restoreDone_of_unchosen hrestore hheat⟩
  · exact ⟨_, rfl, State.restoreDone_of_failed hrestore hheat hfailed⟩
  · exact ⟨_, rfl, State.restoreDone_of_waiting hrestore hheat hfailed hout⟩
  · exact ⟨_, rfl, State.restoreDone_of_storage hrestore hheat hfailed hout hstorage hbytes⟩

end Sys2Proof.Machine
end

section
/-! PROOFS. Errors (spec/17_errors_and_repair.md). -/
namespace Sys2Proof.Machine

section
variable {s : State}

/-! ### Detection (R433–R446, R451) -/

section
variable {page src : Nat} {info : ErrorInfo}

theorem State.errorDetect_of_unlisted (h : (blockSources page).contains src = false) : s.errorDetect page src info = s :=
  if_pos (by rw [h]; rfl)

variable (h : (blockSources page).contains src = true)
include h

theorem State.errorDetect_of_listed : s.errorDetect page src info =
    if src = 3 then s.channelCe (blockInstance page) (s.channelOf info.addr.toNat) info.addr.toNat info
    else if src = 4 then s.channelDe (blockInstance page) (s.channelOf info.addr.toNat) info.addr.toNat info
    else if src = 13 then s.prefail page (info.service.toNat % (if blockCode page = 0x04 then 32 else 128)) (info.detail.toNat % 65536)
    else (s.detect page src info).errorEffect page info :=
  if_neg (by rw [h]; decide)

theorem State.errorDetect_of_other (hce : src ≠ 3) (hde : src ≠ 4) (hwarn : src ≠ 13) :
    s.errorDetect page src info = (s.detect page src info).errorEffect page info := by
  rw [State.errorDetect_of_listed h, if_neg hce, if_neg hde, if_neg hwarn]

end

/-! ### Handlers (R445–R448, R560) -/

theorem State.showHandler_spec (s : State) : s.showHandler.err = s.err ∧ { s.showHandler with err := s.err, regs := s.regs } = s ∧
    s.showHandler.getF fdErraggHandlerActive pgErragg = s.err.running.isSome.toNat % 2 ^ fdErraggHandlerActive.width ∧
    s.showHandler.getF fdErraggHandlerClass pgErragg = s.err.running.elim 0 (·.cls) % 2 ^ fdErraggHandlerClass.width ∧
    s.showHandler.getF fdErraggHandlerPage pgErragg = s.err.running.elim 0 (·.page) % 2 ^ fdErraggHandlerPage.width := by
  refine ⟨rfl, rfl, ?_, ?_, ?_⟩
  · rw [State.showHandler, State.getF_setF_ne _ _ _ _ _ _ _ _ (by decide), State.getF_setF_ne _ _ _ _ _ _ _ _ (by decide),
      State.getF_setF_self]
  · rw [State.showHandler, State.getF_setF_self]
  · rw [State.showHandler, State.getF_setF_ne _ _ _ _ _ _ _ _ (by decide), State.getF_setF_self]

/-- A queued error's handler runs. -/
def State.handlerRun (s : State) (r : ErrRecord) : State :=
  State.showHandler { s with err := { s.err with running := some r, queued := s.err.queued.filter (·.seq ≠ r.seq) } }

theorem State.handlerRun_spec (s : State) (r : ErrRecord) :
    (s.handlerRun r).err = { s.err with running := some r, queued := s.err.queued.filter (·.seq ≠ r.seq) } ∧
      { s.handlerRun r with err := s.err, regs := s.regs } = s ∧ (s.handlerRun r).getF fdErraggHandlerActive pgErragg = 1 ∧
      (s.handlerRun r).getF fdErraggHandlerClass pgErragg = r.cls % 2 ^ fdErraggHandlerClass.width ∧
      (s.handlerRun r).getF fdErraggHandlerPage pgErragg = r.page % 2 ^ fdErraggHandlerPage.width := by
  obtain ⟨-, -, hactive, hcls, hpage⟩ :=
    State.showHandler_spec { s with err := { s.err with running := some r, queued := s.err.queued.filter (·.seq ≠ r.seq) } }
  exact ⟨rfl, rfl, hactive, hcls, hpage⟩

/-- The running handler of a lower class marked as preempted. -/
def State.preempted (s : State) (o : ErrRecord) : State := s.amendRecord o.seq fun x => { x with preempted := true }

/-- A preempted handler waits for the one that preempts it. -/
def State.stopHandler (s : State) (o : ErrRecord) : State := { s with err := { s.err with stopped := o :: s.err.stopped } }

/-- A preempting NF abandons every stopped and every other queued handler. -/
def State.abandoned (s : State) (o r : ErrRecord) : State :=
  let s := s.forEach (o :: s.err.stopped ++ s.err.queued.filter (·.seq ≠ r.seq)) fun g s => s.setOutcome g 8
  { s with err := { s.err with stopped := [], queued := [r] } }

theorem State.handlerStart_of_empty (h : s.err.queued = []) : s.handlerStart = s := by
  unfold State.handlerStart State.nextQueued
  rw [h]
  rfl

section
variable {r : ErrRecord} (hnext : s.nextQueued = some r)
include hnext

theorem State.handlerStart_of_idle (hidle : s.err.running = none) : s.handlerStart = s.handlerRun r := by
  unfold State.handlerStart
  rw [hnext]
  dsimp only
  rw [hidle]
  rfl

theorem State.handlerStart_of_running {o : ErrRecord} (hrunning : s.err.running = some o) : s.handlerStart =
    if r.cls ≤ o.cls then s else if r.cls = 3 then ((s.preempted o).abandoned o r).handlerRun r
    else ((s.preempted o).stopHandler o).handlerRun r := by
  unfold State.handlerStart
  rw [hnext]
  dsimp only
  rw [hrunning]
  rfl

end

theorem State.abandoned_spec (s : State) (o r : ErrRecord) : (s.abandoned o r).err.stopped = [] ∧ (s.abandoned o r).err.queued = [r] :=
  ⟨rfl, rfl⟩

/-- A handler's outcome by its record's class, where none was injected. -/
theorem State.outcomeOf_fst (s : State) (r : ErrRecord) : (r.injected = true → 2 ≤ r.cls → (s.outcomeOf r).1 = 9) ∧
    (r.injected = false → (r.cls = 3 → (s.outcomeOf r).1 = 7) ∧ (r.cls = 2 → (s.outcomeOf r).1 = 3) ∧
      (r.cls = 1 → (s.outcomeOf r).1 = 2)) := by
  refine ⟨fun hinjected hcls => ?_, fun hreal => ⟨fun hcls => ?_, fun hcls => ?_, fun hcls => ?_⟩⟩
  · rw [State.outcomeOf, if_pos (by simp [hinjected, hcls])]
  all_goals
    rw [State.outcomeOf, if_neg (by simp [hreal]), hcls]
    rfl

/-- A handler's record with its outcome, and the handler stopped last runs again. -/
def State.handlerEnded (s : State) (r : ErrRecord) : State :=
  State.showHandler { (s.outcomeOf r).2.setOutcome r (s.outcomeOf r).1 with
    err := { ((s.outcomeOf r).2.setOutcome r (s.outcomeOf r).1).err with
      running := ((s.outcomeOf r).2.setOutcome r (s.outcomeOf r).1).err.stopped.head?
      stopped := ((s.outcomeOf r).2.setOutcome r (s.outcomeOf r).1).err.stopped.tail } }

theorem State.handlerEnd_of_running {r : ErrRecord} (hrunning : s.err.running = some r) : s.handlerEnd false =
    if r.cls = 3 && !r.injected then (s.handlerEnded r).afterNf r else s.handlerEnded r := by
  unfold State.handlerEnd
  rw [hrunning]
  rfl

theorem State.handlerEnd_inHandler {r : ErrRecord} (hrunning : s.err.running = some r) :
    s.handlerEnd true = s.detect pgReeve 12 { code := 0x0060 } (escalate := true) := by
  unfold State.handlerEnd
  rw [hrunning]
  rfl

/-! ### Repairs (R453, R454) -/

theorem State.repairStart_of_waiting {forced : Bool} {page unit : Nat} {rest : List (Nat × Nat)} (h : s.err.repairs = (page, unit) :: rest) :
    s.repairStart forced = if s.err.repairing || !(forced || s.repairGap page unit) then s
      else if blockCode page = 0x01 then
        (if unit < 16 then State.remapStart { s with err := { s.err with repairs := rest } } page unit
          else { s with err := { s.err with repairs := rest } })
      else State.coreRepairStart { s with err := { s.err with repairs := rest } } (unit % 64) := by
  unfold State.repairStart
  rw [h]

end

/-- Settles O52: a detected error is recorded and queued; the highest class runs, and an end resumes the handler stopped last. -/
theorem errorHandling : Obligations.ErrorHandling := by
  unfold Obligations.ErrorHandling
  refine ⟨fun page src info s n hn => ?_, fun s => ⟨_, rfl, rfl⟩, fun s => ⟨fun h => ⟨_, rfl, State.handlerStart_of_empty h⟩,
    fun r hnext => ⟨fun hidle => ?_, fun o hrunning => ⟨fun hle => ?_, fun hlt y hy => ⟨fun hcls later hlater => ?_, fun hcls => ?_⟩⟩⟩⟩,
    fun inHandler s => ⟨fun h => ?_, fun r hrunning => ⟨⟨_, rfl, State.handlerEnd_inHandler hrunning⟩, fun v y w hv hw => ?_⟩⟩,
    fun forced s => ⟨fun h => ?_, fun page unit rest hrepairs => ⟨fun h => ?_, fun hidle hgap z hz => ⟨fun htile hunit => ?_, fun hcore => ?_⟩⟩⟩⟩
  · subst hn
    refine ⟨fun h => ⟨_, rfl, State.errorDetect_of_unlisted h⟩, fun h hce hde hwarn => ⟨_, rfl, State.errorDetect_of_other h hce hde hwarn⟩,
      fun h hsrc => ?_, fun h hsrc => ?_, fun h hsrc hblock => ?_⟩
    · exact ⟨_, rfl, (State.errorDetect_of_listed h).trans (if_pos hsrc)⟩
    · exact ⟨_, rfl, (State.errorDetect_of_listed h).trans ((if_neg (by omega)).trans (if_pos hsrc))⟩
    · refine ⟨_, rfl, (State.errorDetect_of_listed h).trans ((if_neg (by omega)).trans ((if_neg (by omega)).trans ?_))⟩
      rw [if_pos hsrc, if_neg hblock]
  · obtain ⟨herr, hframe, hactive, hclass, hpage⟩ := s.handlerRun_spec r
    refine ⟨_, congrArg Host.Outcome.next (State.handlerStart_of_idle hnext hidle), herr, hactive, hclass, hpage, hframe⟩
  · exact ⟨_, rfl, (State.handlerStart_of_running hnext hrunning).trans (if_pos hle)⟩
  · subst hy hlater
    obtain ⟨herr, -, hactive, -, -⟩ := ((s.preempted o).stopHandler o).handlerRun_spec r
    refine ⟨_, congrArg Host.Outcome.next ((State.handlerStart_of_running hnext hrunning).trans ((if_neg (by omega)).trans (if_neg hcls))), hactive, herr⟩
  · obtain ⟨herr, -, hactive, -, -⟩ := ((s.preempted o).abandoned o r).handlerRun_spec r
    obtain ⟨hstopped, hqueued⟩ := (s.preempted o).abandoned_spec o r
    refine ⟨_, congrArg Host.Outcome.next ((State.handlerStart_of_running hnext hrunning).trans ((if_neg (by omega)).trans (if_pos hcls))), hactive, ?_⟩
    rw [herr, hstopped, hqueued]
    simp
  · refine ⟨_, rfl, ?_⟩
    rw [State.handlerEnd, h]
  · obtain ⟨rfl, rfl⟩ := Prod.mk.inj hv
    subst hw
    obtain ⟨hinjected, hreal⟩ := s.outcomeOf_fst r
    refine ⟨hinjected, hreal, fun hplain => ?_, fun hcls hown => ?_⟩
    · have hend := (State.handlerEnd_of_running hrunning).trans (if_neg (by
        simp only [Bool.and_eq_true, decide_eq_true_eq, Bool.not_eq_true']
        rintro ⟨hcls, hown⟩
        obtain h | h := hplain
        · exact h hcls
        · rw [h] at hown
          cases hown))
      exact ⟨_, congrArg (fun z : State => Host.Outcome.next z.finish) hend, rfl, rfl⟩
    · exact ⟨_, rfl, s.handlerEnded r, (State.handlerEnd_of_running hrunning).trans (if_pos (by simp [hcls, hown])), rfl⟩
  · refine ⟨_, rfl, ?_⟩
    rw [State.repairStart, h]
  · refine ⟨_, rfl, (State.repairStart_of_waiting hrepairs).trans (if_pos ?_)⟩
    obtain h | ⟨hforced, hgap⟩ := h
    · simp [h]
    · simp [hforced, hgap]
  · subst hz
    refine ⟨_, rfl, (State.repairStart_of_waiting hrepairs).trans ((if_neg ?_).trans ((if_pos htile).trans (if_pos hunit)))⟩
    obtain h | h := hgap <;> simp [hidle, h]
  · subst hz
    refine ⟨_, rfl, (State.repairStart_of_waiting hrepairs).trans ((if_neg ?_).trans (if_neg hcore))⟩
    obtain h | h := hgap <;> simp [hidle, h]

end Sys2Proof.Machine
end

section
/-! PROOFS. The reeve (spec/19_tokens_and_jobs.md). -/
namespace Sys2Proof.Machine

section
variable {s : State}

/-! ### Statuses keep the fields that no record shares (R379, R516) -/

section
variable {d : FieldDesc} {p i : Nat} (s : State) (hsched : p ≠ pgSched) (hobs : p ≠ pgObs) (h : unrecorded d i = true)

theorem State.regs_ethSend (k : Nat) (o : Output) : (s.ethSend k o).regs = s.regs := (congrArg State.regs (sendsOnly_ethSend s k o) :)

theorem State.getF_postStatus (q : Nat) (x : StatusCap) : (s.postStatus q x).getF d p i = s.getF d p i := by
  have hregs : (s.postStatus q x).regs = s.regs := by
    unfold State.postStatus
    dsimp only
    split
    · rfl
    · exact State.regs_ethSend ..
  rw [State.getF, hregs, State.getF]

include hsched hobs h

theorem State.getF_sendStatus (q : Nat) (x : StatusCap) : (s.sendStatus q x).getF d p i = s.getF d p i := by
  unfold State.sendStatus
  split
  · rw [State.answer, State.getF_trace_apart _ hsched hobs h, State.getF_postStatus]
  · rfl

theorem State.getF_report (job gen : Nat) (payload : List Byte) : (s.report job gen payload).getF d p i = s.getF d p i := by
  refine State.forEach_keeps (P := fun z => z.getF d p i = s.getF d p i)
    (fun q _ z hz => (z.getF_sendStatus hsched hobs h q _).trans hz) _ ?_
  split <;> rfl

end

/-! ### A pair that retires (R512–R516) -/

theorem State.retired_spec (s : State) (i : Nat) : mapGet {} (s.retired i).pairs i =
    { mapGet {} s.pairs i with state := 4, flasks := [], retiredAt := s.now } ∧ (s.retired i).urgentDue = true := by
  refine ⟨(mapGet_put_self _ _ _ _).trans ?_, rfl⟩
  rw [State.now, State.getF_report _ (by decide) (by decide) (by decide)]
  rfl

/-- The tile stores of a pair's flasks hold zeros. -/
def State.flasksZeroed (s : State) (fs : List Nat) : State :=
  s.forEach fs fun f z => z.forEach (tilesOf f) fun k z => z.zeroRange (storeAt k) (storeAt k + storeSize)

/-- Nothing but bytes and poison differs. -/
def bytesOnly (s u : State) : Prop := { u with mem := s.mem, poisonLine := s.poisonLine, poisonWord := s.poisonWord } = s

theorem bytesOnly.trans {s t u : State} (h : bytesOnly s t) (g : bytesOnly t u) : bytesOnly s u := by
  rw [bytesOnly, ← h, ← g]

theorem bytesOnly_zeroRange (s : State) (lo hi : Nat) : bytesOnly s (s.zeroRange lo hi) := rfl

theorem bytesOnly_flasksZeroed (s : State) (fs : List Nat) : bytesOnly s (s.flasksZeroed fs) :=
  State.forEach_keeps (P := bytesOnly s) (fun _ _ z hz => State.forEach_keeps (P := bytesOnly s)
    (fun _ _ w hw => hw.trans (bytesOnly_zeroRange w _ _)) z hz) s rfl

theorem State.flasksZeroed_spec (s : State) (fs : List Nat) :
    (s.flasksZeroed fs).regs = s.regs ∧ (s.flasksZeroed fs).pairs = s.pairs :=
  ⟨(congrArg State.regs (bytesOnly_flasksZeroed s fs) :), (congrArg State.pairs (bytesOnly_flasksZeroed s fs) :)⟩

theorem State.jobPolders_of_regs {s u : State} (h : u.regs = s.regs) (job : Nat) : u.jobPolders job = s.jobPolders job := by
  have hget : ∀ d p i, u.getF d p i = s.getF d p i := fun d p i => by rw [State.getF, h, State.getF]
  refine List.filter_congr fun p _ => ?_
  rw [hget, hget]

theorem State.scrubDone_of_none {job : Nat}
    (h : ∀ i, i < 16 → (mapGet {} s.pairs i).job ≠ job ∨ (mapGet {} s.pairs i).state ≠ 3) : s.scrubDone job = s := by
  have hnone : ((List.range 16).find? fun i => (mapGet {} s.pairs i).job = job && (mapGet {} s.pairs i).state = 3) = none :=
    List.find?_eq_none.mpr fun i hi => by
      have hpair := h i (List.mem_range.mp hi)
      simp only [Bool.and_eq_true, decide_eq_true_eq]
      tauto
  unfold State.scrubDone
  rw [hnone]

/-- Where the job has no polder and no pair of its own awaits a later scrub, its pair alone retires. -/
theorem State.scrubDone_of_pair {job i : Nat}
    (hfind : ((List.range 16).find? fun i => (mapGet {} s.pairs i).job = job && (mapGet {} s.pairs i).state = 3) = some i)
    (hothers : ∀ j, j < 16 → (mapGet {} s.pairs j).job ≠ job ∨ (mapGet {} s.pairs j).state ≠ 5) (hpolders : s.jobPolders job = []) :
    s.scrubDone job = (s.flasksZeroed (mapGet {} s.pairs i).flasks).retired i := by
  obtain ⟨hregs, hpairs⟩ := s.flasksZeroed_spec (mapGet {} s.pairs i).flasks
  have hkept := (State.jobPolders_of_regs hregs job).trans hpolders
  have hwaiting : ((List.range 16).filter fun j => j ≠ i && (mapGet {} (s.flasksZeroed (mapGet {} s.pairs i).flasks).pairs j).job = job &&
      (mapGet {} (s.flasksZeroed (mapGet {} s.pairs i).flasks).pairs j).state = 5) = [] := by
    rw [hpairs]
    refine List.filter_eq_nil_iff.mpr fun j hj => ?_
    have hpair := hothers j (List.mem_range.mp hj)
    simp only [Bool.and_eq_true, decide_eq_true_eq]
    tauto
  unfold State.scrubDone
  rw [hfind]
  dsimp only
  rw [hpolders]
  simp only [List.filter_nil, List.isEmpty_nil, if_true, State.forEach_nil]
  refine (if_neg (not_not_intro ?_)).trans (congrArg
    (fun l => (s.flasksZeroed (mapGet {} s.pairs i).flasks).forEach (l ++ [i]) fun j z => z.retired j) hwaiting)
  exact congrArg (List.foldl _ 0) hkept

/-! ### Tokens (R497) -/

theorem exec_tokenCheck_of_token {from' : TokenFrom} {bs : List Byte} {rest : List (TokenFrom × List Byte)} {u : State}
    (h : s.dike.tokens = (from', bs) :: rest) (hu : State.checkToken { s with dike := { s.dike with tokens := rest } } from' bs = u) :
    exec .tokenCheck s = .next (u.runHeld u.flokan.lines.length).finish := by
  subst hu
  show execTokenCheck s = _
  unfold execTokenCheck
  rw [h]

theorem State.checkToken_of_malformed {bs : List Byte} (from' : TokenFrom) (h : takeToken bs = none) :
    s.checkToken from' bs = (s.refuseToken none 0x60).tokenDone from' (tokenDigest bs) none 0x60 := by
  unfold State.checkToken
  rw [h]

section
variable {bs : List Byte} {v : TokenView} (hform : takeToken bs = some v)
include hform

theorem State.checkToken_of_refused {from' : TokenFrom} {c : Nat} (h : s.tokenChecks from' v = some c) :
    s.checkToken from' bs = (s.refuseToken (some v) c).tokenDone from' v.digest (some v) c := by
  unfold State.checkToken
  rw [hform]
  dsimp only
  rw [h]

theorem State.checkToken_of_passed {from' : TokenFrom} (h : s.tokenChecks from' v = none) :
    s.checkToken from' bs = (s.installToken from' v).tokenDone from' v.digest (some v) 0 := by
  unfold State.checkToken
  rw [hform]
  dsimp only
  rw [h]

end

theorem State.refuseToken_spec (s : State) (v : Option TokenView) (code : Nat) :
    (s.refuseToken v code).getF fdDikeLastRefusal pgDike = code % 2 ^ fdDikeLastRefusal.width ∧
      (s.refuseToken v code).getF fdDikeCntRefused pgDike = min (s.getF fdDikeCntRefused pgDike + 1) (2 ^ fdDikeCntRefused.width - 1) ∧
      { s.refuseToken v code with regs := s.regs, urgentDue := s.urgentDue } = s :=
  ⟨State.getF_setF_self .., (State.getF_setF_ne _ _ _ _ _ _ _ _ (by decide)).trans (State.getF_addF_self ..), rfl⟩

end

/-- Settles O56: what a token leaves is that of the first check that refuses it, or its installation; a shadow, a nonce and a blob go alone. -/
theorem reeve : Obligations.Reeve := by
  unfold Obligations.Reeve
  refine ⟨fun s h => ?_, fun s z w from' bs rest htokens hz ends hends => ⟨fun hform => ?_, fun v hform =>
      ⟨fun c hcheck => ?_, fun hpass hw => ?_⟩⟩, fun slot s x hx => ⟨fun hused happly => ⟨?_, ?_⟩, fun hused happly => ⟨?_, ?_⟩,
      fun hfree => ⟨?_, ?_⟩⟩, fun nonce root s => ⟨⟨_, rfl, rfl, State.getF_setF_self .., rfl⟩, ⟨_, rfl, rfl⟩⟩,
    fun job s => ⟨fun h => ⟨_, rfl, State.scrubDone_of_none h⟩, fun i p hp hfind hothers hpolders => ?_⟩⟩
  · refine ⟨s, ?_, rfl⟩
    show execTokenCheck s = _
    rw [execTokenCheck, h]
  · subst hz
    obtain ⟨hlast, hcount, hframe⟩ := State.refuseToken_spec { s with dike := { s.dike with tokens := rest } } none 0x60
    exact ⟨_, exec_tokenCheck_of_token htokens (State.checkToken_of_malformed from' hform), _, (hends _ _).mpr rfl, hlast, hcount, hframe⟩
  · subst hz
    obtain ⟨hlast, hcount, hframe⟩ := State.refuseToken_spec { s with dike := { s.dike with tokens := rest } } (some v) c
    exact ⟨_, exec_tokenCheck_of_token htokens (State.checkToken_of_refused hform hcheck), _, (hends _ _).mpr rfl, hlast, hcount, hframe⟩
  · subst hz hw
    exact ⟨_, exec_tokenCheck_of_token htokens (State.checkToken_of_passed hform hpass), (hends _ _).mpr rfl⟩
  · subst hx
    exact ⟨_, if_pos (by simp [hused, happly]), rfl⟩
  · subst hx
    exact ⟨_, if_neg (by simp [happly]), rfl⟩
  · subst hx
    exact ⟨_, if_neg (by simp [happly]), rfl⟩
  · subst hx
    exact ⟨_, if_pos (by simp [hused, happly]), rfl⟩
  · subst hx
    exact ⟨_, if_neg (by simp [hfree]), rfl⟩
  · subst hx
    exact ⟨_, if_neg (by simp [hfree]), rfl⟩
  · subst hp
    obtain ⟨hregs, hpairs⟩ := s.flasksZeroed_spec (mapGet {} s.pairs i).flasks
    obtain ⟨hpair, hurgent⟩ := (s.flasksZeroed (mapGet {} s.pairs i).flasks).retired_spec i
    have hretired := State.scrubDone_of_pair hfind hothers hpolders
    refine ⟨_, congrArg (fun z : State => Host.Outcome.next z.finish) hretired, _, rfl, rfl, ?_, hurgent⟩
    rw [hpair, hpairs, State.now, State.getF, hregs]
    rfl

end Sys2Proof.Machine
end

section
/-! PROOFS. The two-phase launch (spec/19_tokens_and_jobs.md). -/
namespace Sys2Proof.Machine

section
variable {s : State} {src : Nat} {p : List Byte}

/-! ### MGMT messages and DEEP (R471) -/

theorem State.leaveDeep_of_deep (hdeep : s.inDeep = true) : s.leaveDeep = { s with power := { s.power with exiting := true } } := if_pos hdeep

theorem State.leaveDeep_of_out (hdeep : s.inDeep = false) (hentry : s.getF fdPowerIdleState pgPower ≠ 2) : s.leaveDeep = s :=
  (if_neg (by rw [hdeep]; decide)).trans (if_neg hentry)

theorem State.mgmtRow_held (hsub : leField p 0 1 ≠ 2) (hdeep : s.inDeep = true) (run : State → State) :
    s.mgmtRow src p run = .next { s with power := { s.power with heldMgmt := s.power.heldMgmt ++ [(src, p)] } } := by
  unfold State.mgmtRow
  dsimp only
  rw [if_neg hsub, if_pos hdeep]

theorem State.mgmtRow_wakes (hsub : leField p 0 1 = 2) (hdeep : s.inDeep = true) (run : State → State) :
    s.mgmtRow src p run = .next { s with power := { s.power with exiting := true, heldMgmt := s.power.heldMgmt ++ [(src, p)] } } := by
  have hstill : State.inDeep { s with power := { s.power with exiting := true } } = true := hdeep
  unfold State.mgmtRow
  dsimp only
  rw [if_pos hsub, State.leaveDeep_of_deep hdeep, if_pos hstill]

theorem State.mgmtRow_runs (hdeep : s.inDeep = false) (h : leField p 0 1 ≠ 2 ∨ s.getF fdPowerIdleState pgPower ≠ 2)
    (run : State → State) : s.mgmtRow src p run = .next (run s).finish := by
  have hawake : (if leField p 0 1 = 2 then s.leaveDeep else s) = s := by
    split
    next hsub => exact State.leaveDeep_of_out hdeep (h.resolve_left (not_not_intro hsub))
    next => rfl
  unfold State.mgmtRow
  dsimp only
  rw [hawake, if_neg (by rw [hdeep]; decide)]

/-! ### Messages (R515–R519) -/

theorem State.digest_launchOf (s : State) (d : Nat) : (s.launchOf d).digest = d := by
  unfold State.launchOf
  cases h : s.dike.launches.find? fun l => l.digest = d with
  | none => rfl
  | some l => simpa using List.find?_some h

theorem State.launchOf_setLaunch {l : Launch} {d : Nat} (s : State) (h : l.digest = d) : (s.setLaunch l).launchOf d = l := by
  unfold State.launchOf State.setLaunch
  dsimp only
  rw [List.find?_cons_of_pos (by simp [h])]
  rfl

/-- A COUNT, as its launch keeps it: tree, child, refusal, status and number. -/
def countOf (src : Nat) (p : List Byte) : Nat × Nat × Bool × Nat × Nat :=
  (leField p 40 1, src, decide (leField p 41 1 = 1), leField p 42 2, leField p 44 4)

/-- A launch that a COUNT joins: the child's earlier one in the tree goes. -/
def State.countJoined (s : State) (d src : Nat) (p : List Byte) : Launch :=
  { s.launchOf d with job := (mgmtPair p).1, gen := (mgmtPair p).2,
                      counts := countOf src p :: (s.launchOf d).counts.filter fun o => !(o.1 = leField p 40 1 && o.2.1 = src) }

theorem State.recvCount_of_form (hform : mgmtSingle p 3 48 [(8, 40)] = true) (htree : leField p 40 1 < 2) (hrefusal : leField p 41 1 < 2) :
    s.recvCount src p = ((s.setLaunch (s.countJoined (digestNat ((p.drop 8).take 32)) src p)).countUp
      (digestNat ((p.drop 8).take 32))).launchDecide (digestNat ((p.drop 8).take 32)) :=
  if_neg (by simp [hform, htree, hrefusal])

theorem State.counts_countJoined (s : State) (d src : Nat) (p : List Byte) :
    countOf src p ∈ ((s.setLaunch (s.countJoined d src p)).launchOf d).counts := by
  have hdigest : (s.countJoined d src p).digest = d := s.digest_launchOf d
  rw [s.launchOf_setLaunch hdigest]
  exact List.mem_cons_self

theorem State.recvStage_of_form (hform : mgmtForm p 1 = true) (hlength : 33 ≤ p.length) (hshort : p.length ≤ 256)
    (hnode : leField p 8 4 < 2 ^ 17) (hzero : leField p 20 12 = 0) (hfits : leField p 16 4 + (p.length - 32) ≤ leField p 12 4) :
    s.recvStage src p = if leField p 8 4 ≠ s.nodeId then s
      else s.stagePart (256 + src) (leField p 12 4) (leField p 16 4) (p.drop 32) := by
  have hpart : p.length - 32 ≤ 224 := by omega
  refine if_neg ?_
  rw [hform, hzero]
  simp only [hlength, hpart, hnode, hfits, decide_true, Bool.and_true, Bool.not_true]
  decide

/-- What a MGMT message does that is not held. -/
theorem effect_mgmt {i : Instr} {e : Out} {P : State → Prop} {run : State → State} {u : State} (hexec : exec i s = e)
    (hrow : e = s.mgmtRow src p run) (hdeep : s.inDeep = false) (h : leField p 0 1 ≠ 2 ∨ s.getF fdPowerIdleState pgPower ≠ 2) (hu : run s = u) (hP : P u) :
    Effect i s P := by
  subst hu
  exact ⟨_, (hexec.trans hrow).trans (State.mgmtRow_runs hdeep h run), hP⟩

end

/-- The rows of MGMT messages, with what each does. -/
noncomputable def mgmtRows : List ((NodeField → List Byte → Instr) × (State → Nat → List Byte → State)) :=
  [(.stage, .recvStage), (.launch, .recvLaunch), (.count, .recvCount), (.commit, .recvCommit), (.abort, .recvAbort),
    (.retired, fun s _ p => s.recvRetired p), (.jobFatal, fun s _ p => s.recvJobFatal p)]

theorem exec_mgmtRows (src : NodeField) (p : List Byte) (s : State) :
    ∀ r ∈ mgmtRows, exec (r.1 src p) s = s.mgmtRow src.toNat p fun s => r.2 s src.toNat p := by
  simp only [mgmtRows, List.forall_mem_cons, List.not_mem_nil, false_imp_iff, implies_true, and_true]
  exact ⟨rfl, rfl, rfl, rfl, rfl, rfl, rfl⟩

/-- Settles O57: a message is held in DEEP or handled, and what it says, once it is well formed, joins the launch that it names. -/
theorem launchMessages_settled : Obligations.LaunchMessages := by
  unfold Obligations.LaunchMessages
  refine ⟨fun r hr src p s => ⟨fun hsub hdeep => ?_, fun hsub hdeep => ?_, fun hdeep h => ?_⟩, ?_, fun s => ⟨fun h => ?_, fun l h => ?_⟩⟩
  · exact ⟨_, (exec_mgmtRows src p s r hr).trans (State.mgmtRow_held hsub hdeep _), rfl⟩
  · exact ⟨_, (exec_mgmtRows src p s r hr).trans (State.mgmtRow_wakes hsub hdeep _), rfl⟩
  · exact effect_mgmt (exec_mgmtRows src p s r hr) rfl hdeep h rfl rfl
  · rintro src p s d hdeep hentry rfl
    have hruns : leField p 0 1 ≠ 2 ∨ s.getF fdPowerIdleState pgPower ≠ 2 := Or.inr hentry
    refine ⟨fun hform hlength hshort hnode hzero hfits => ⟨fun hself => ?_, fun hother => ?_⟩, fun hform => ?_, fun hform htree hrefusal => ?_,
      fun hform => ?_, fun hform hcause => ?_, fun hform hnode => ?_, fun hform hnode hdead => ?_, fun hform => ?_⟩
    · exact effect_mgmt (e := execStage src p s) rfl rfl hdeep hruns ((State.recvStage_of_form hform hlength hshort hnode hzero hfits).trans
        (if_neg (not_not_intro hself))) rfl
    · exact effect_mgmt (e := execStage src p s) rfl rfl hdeep hruns ((State.recvStage_of_form hform hlength hshort hnode hzero hfits).trans (if_pos hother)) rfl
    · exact effect_mgmt (e := execLaunch src p s) rfl rfl hdeep hruns (if_pos (by rw [hform]; rfl)) rfl
    · exact effect_mgmt (e := execCount src p s) rfl rfl hdeep hruns (State.recvCount_of_form hform htree hrefusal) ⟨_, rfl, s.counts_countJoined _ _ _, rfl⟩
    · exact effect_mgmt (e := execCommit src p s) rfl rfl hdeep hruns (if_neg (by rw [hform]; decide)) rfl
    · exact effect_mgmt (e := execAbort src p s) rfl rfl hdeep hruns (if_neg (by simp [hform, hcause])) rfl
    · exact effect_mgmt (e := execRetired src p s) rfl rfl hdeep hruns (if_neg (by rw [hform]; simp only [hnode]; decide)) rfl
    · exact effect_mgmt (e := execJobFatal src p s) rfl rfl hdeep hruns (if_neg (by rw [hform]; simp only [hnode, hdead]; decide)) rfl
    · exact effect_mgmt (e := execCommit src p s) rfl rfl hdeep hruns (if_pos (by rw [hform]; rfl)) rfl
  · refine ⟨s, ?_, rfl⟩
    show execLaunchAbortTimer s = _
    rw [execLaunchAbortTimer, h]
  · refine ⟨_, ?_, rfl⟩
    show execLaunchAbortTimer s = _
    rw [execLaunchAbortTimer, h]

end Sys2Proof.Machine
end

section
/-! PROOFS. Observation and the sideband (spec/21_flokan_and_observation.md). -/
namespace Sys2Proof.Machine

section
variable {s : State}

/-! ### Snapshots (R535) -/

/-- The dies of an armed snapshot latched. -/
def State.diesLatched (s : State) : State :=
  (State.setF { s with snaps := [] } fdObsSnapTrunc pgObs 0 0).forEach ((List.range 7).filter (bitAt (s.getF fdObsSnapDies pgObs)))
    fun d z => z.latchDie d

/-- The pages whose rings a snapshot freezes. -/
def State.snapPagesOf (s z : State) : List Nat := allPages.filter fun p =>
  ((List.range 7).filter (bitAt (s.getF fdObsSnapDies pgObs))).contains (dieOfPage p) && !z.frozen p && !z.absentPage p

theorem State.getF_diesLatched {d : FieldDesc} (s : State) (p : Nat) (hd : d.off + d.stride * 0 < 4096 ∧ d.lsb < 64)
    (h : fieldPlace fdObsSnapTrunc 0 ≠ fieldPlace d 0) : s.diesLatched.getF d p = s.getF d p := by
  have htrunc : ∀ (z : State) (v : Nat), (z.setF fdObsSnapTrunc pgObs 0 v).getF d p = z.getF d p := fun z v =>
    State.getF_setF_ne _ _ _ _ _ _ _ _ (descKey_places_ne (by decide) hd h)
  refine State.forEach_keeps (P := fun z => z.getF d p = s.getF d p) (fun x _ z hz => ?_) _ (htrunc _ 0)
  unfold State.latchDie
  dsimp only
  split
  · exact (htrunc _ 1).trans hz
  · exact hz

theorem State.snapPagesOf_diesLatched (s : State) : s.snapPagesOf s.diesLatched = s.snapPagesOf s := by
  refine List.filter_congr fun p _ => ?_
  rw [State.frozen, State.frozen, State.absentPage, State.absentPage, State.small, State.small,
    s.getF_diesLatched p (by decide) (by decide), s.getF_diesLatched pgNodectl (by decide) (by decide)]

/-- An armed snapshot taken. -/
theorem State.takeSnapshot_of_armed (h : s.getF fdObsSnapArm pgObs ≠ 0) : ∃ z : State, s.takeSnapshot =
    { (((z.setF fdObsSnapArm pgObs 0 0).setF fdObsSnapHeld pgObs 0 1).setF fdObsSnapTaken pgObs 0 z.now) with
      snapPages := s.snapPagesOf s.diesLatched } := by
  refine ⟨s.diesLatched.forEach (s.snapPagesOf s.diesLatched) fun p z => z.freezeRings p 1, (if_neg h).trans rfl⟩

/-! ### Health summaries (R583, R584) -/

theorem exec_healthSummary_of_first {urgent : Bool} (hfirst : s.side.summary = []) (hdue : urgent = true → s.urgentDue = true) :
    exec (.healthSummary urgent) s = .next (s.writeSummary urgent) := by
  show execHealthSummary urgent s = _
  unfold execHealthSummary
  dsimp only
  have hlast : bitAt (([] : List Byte).getD 23 0).toNat 0 = false := by decide
  rw [hfirst, hlast]
  cases urgent with
  | true => simp [hdue]
  | false => simp

theorem State.summaryBytes_ne_nil (s : State) (urgent : Bool) : s.summaryBytes urgent ≠ [] := by
  unfold State.summaryBytes
  dsimp only
  simp [leBytes]

/-- The count and the time of a summary. -/
def State.summaryCounted (s : State) : State := (s.addF fdNodectlHealthSeq pgNodectl 0 1).setF fdNodectlHealthLast pgNodectl 0 s.now

theorem State.getF_writeSummary (s : State) (urgent : Bool) (d : FieldDesc) (p : Nat) :
    (s.writeSummary urgent).getF d p = s.summaryCounted.getF d p := by
  have hnow : (s.addF fdNodectlHealthSeq pgNodectl 0 1).now = s.now := State.getF_addF_ne _ _ (by decide)
  have hregs : (s.writeSummary urgent).regs = ((s.addF fdNodectlHealthSeq pgNodectl 0 1).setF fdNodectlHealthLast pgNodectl 0
    (s.addF fdNodectlHealthSeq pgNodectl 0 1).now).regs := rfl
  rw [State.getF, hregs, hnow, State.summaryCounted, State.getF]

theorem State.writeSummary_spec (s : State) (urgent : Bool) :
    (s.writeSummary urgent).getF fdNodectlHealthSeq pgNodectl = min (s.getF fdNodectlHealthSeq pgNodectl + 1) (2 ^ fdNodectlHealthSeq.width - 1) ∧
      (s.writeSummary urgent).getF fdNodectlHealthLast pgNodectl = s.now % 2 ^ fdNodectlHealthLast.width ∧
      (s.writeSummary urgent).out = s.out ++ [.ibi 2] ∧ (s.writeSummary urgent).urgentDue = (s.urgentDue && !urgent) ∧
      (s.writeSummary urgent).side.summary ≠ [] := by
  refine ⟨?_, ?_, rfl, rfl, State.summaryBytes_ne_nil _ urgent⟩
  · rw [s.getF_writeSummary, State.summaryCounted, State.getF_setF_ne _ _ _ _ _ _ _ _ (by decide), State.getF_addF_self]
  · rw [s.getF_writeSummary, State.summaryCounted, State.getF_setF_self]

/-! ### Positions (R582) -/

theorem exec_position_of_bad {x y z check : Byte} (h : check ≠ x ^^^ y ^^^ z ^^^ 0xA5 ∨ 32 ≤ x.toNat ∨ 32 ≤ y.toNat ∨ 32 ≤ z.toNat) :
    exec (.i3cPositionWrite x y z check) s = .next s :=
  if_pos (by simp only [Bool.or_eq_true, decide_eq_true_eq, or_assoc]; exact h)

/-- The node's place. -/
def State.positioned (s : State) (node : Nat) : State :=
  (((s.setF fdNodectlPosI3cOk pgNodectl 0 1).setF fdNodectlPosNode pgNodectl 0 node).setF fdEcrokNodeId pgEcrok 0 node).setF
    fdEcrokNodeIdValid pgEcrok 0 1

theorem exec_position_of_good {x y z check : Byte} (hcheck : check = x ^^^ y ^^^ z ^^^ 0xA5) (hx : x.toNat < 32) (hy : y.toNat < 32)
    (hz : z.toNat < 32) {node : Nat} (hnode : node = s.getF fdNodectlPosStraps pgNodectl + x.toNat * 4 + y.toNat * 128 + z.toNat * 4096) :
    exec (.i3cPositionWrite x y z check) s = if s.getF fdNodectlPosI3cOk pgNodectl = 1 then
      .next (if node = s.getF fdNodectlPosNode pgNodectl then s else { s with side := { s.side with misplaced := true } })
      else .next (s.positioned node) := by
  subst hnode
  refine if_neg ?_
  simp [hcheck, hx, hy, hz]

theorem State.positioned_spec (s : State) (node : Nat) : (s.positioned node).getF fdNodectlPosI3cOk pgNodectl = 1 ∧
    (s.positioned node).getF fdNodectlPosNode pgNodectl = node % 2 ^ fdNodectlPosNode.width ∧
    (s.positioned node).getF fdEcrokNodeId pgEcrok = node % 2 ^ fdEcrokNodeId.width ∧
    (s.positioned node).getF fdEcrokNodeIdValid pgEcrok = 1 ∧ regsOnly s (s.positioned node) := by
  have hne : ∀ (z : State) {d e : FieldDesc} {p q v : Nat}, descKey d p 0 ≠ descKey e q 0 → (z.setF d p 0 v).getF e q = z.getF e q :=
    fun z _ _ _ _ _ h => State.getF_setF_ne _ _ _ _ _ _ _ _ h
  refine ⟨?_, ?_, ?_, State.getF_setF_self .., rfl⟩
  · rw [State.positioned, hne _ (by decide), hne _ (by decide), hne _ (by decide), State.getF_setF_self]
    rfl
  · rw [State.positioned, hne _ (by decide), hne _ (by decide), State.getF_setF_self]
  · rw [State.positioned, hne _ (by decide), State.getF_setF_self]

/-! ### What the sideband reads (R581) -/

/-- Free bytes. -/
def State.freeRun (s : State) (n : Nat) : List Byte := (List.range n).map fun i => BitVec.ofNat 8 (Config.freeValue (s.freeCount + i))

theorem State.freeRun_length (s : State) (n : Nat) : (s.freeRun n).length = n := by simp [State.freeRun]

end

/-- Settles O60: a snapshot latches its dies before its flags change; a summary is due or not; a position is the first, the same or another. -/
theorem observation : Obligations.Observation := by
  unfold Obligations.Observation
  refine ⟨fun s => ⟨fun h => ⟨_, congrArg Host.Outcome.next (if_pos h), rfl⟩, fun h => ?_⟩, fun s => ⟨_, rfl, rfl⟩,
    fun s => ⟨fun h => ?_, fun urgent hdue hfirst => ⟨_, exec_healthSummary_of_first hfirst hdue, s.writeSummary_spec urgent⟩⟩,
    fun x y z check s node hnode => ⟨fun h => ⟨_, exec_position_of_bad h, rfl⟩, fun hcheck hx hy hz =>
      ⟨fun hfirst => ?_, fun hknown hsame => ?_, fun hknown hother => ?_⟩⟩, fun s => ⟨_, rfl, rfl⟩, fun s => ⟨fun h => ?_, fun h => ?_⟩⟩
  · obtain ⟨z, htaken⟩ := State.takeSnapshot_of_armed h
    refine ⟨_, congrArg Host.Outcome.next htaken, ?_, ?_, s.snapPagesOf_diesLatched⟩
    · exact (State.getF_setF_ne _ _ _ _ _ _ _ _ (by decide)).trans ((State.getF_setF_ne _ _ _ _ _ _ _ _ (by decide)).trans (State.getF_setF_self ..))
    · exact (State.getF_setF_ne _ _ _ _ _ _ _ _ (by decide)).trans (State.getF_setF_self ..)
  · refine ⟨s, ?_, rfl⟩
    show execHealthSummary true s = _
    unfold execHealthSummary
    dsimp only
    rw [if_pos rfl, if_pos (by rw [h]; rfl)]
  · exact ⟨_, (exec_position_of_good hcheck hx hy hz hnode).trans (if_neg hfirst), s.positioned_spec node⟩
  · refine ⟨_, (exec_position_of_good hcheck hx hy hz hnode).trans ((if_pos hknown).trans ?_), rfl⟩
    rw [if_pos hsame]
  · refine ⟨_, (exec_position_of_good hcheck hx hy hz hnode).trans ((if_pos hknown).trans ?_), rfl⟩
    rw [if_neg hother]
  · exact ⟨_, if_neg h, rfl⟩
  · exact ⟨_, if_pos h, s.freeRun 192, s.freeRun_length 192, rfl, rfl⟩

end Sys2Proof.Machine
end

section
/-! PROOFS. Flokan's inspect tier (spec/21_flokan_monitor_and_observation.md). -/
namespace Sys2Proof.Machine

/-! ### Lines that do not run (R525, R526) -/

/-- The lines of Flokan after which nothing goes on, with their numbers. -/
noncomputable def inspectLines : List ((List Nat → Instr) × Nat) :=
  [(.flokanHelp, 0), (.flokanVer, 1), (.flokanStatus, 2), (.flokanBaud, 3), (.flokanTime, 4), (.flokanErr, 5), (.flokanLastgasp, 6),
    (.flokanRegr, 7), (.flokanCount, 8), (.flokanRing, 9), (.flokanSnap, 10), (.flokanSnapshow, 11), (.flokanSnaprel, 12),
    (.flokanReset, 15), (.portmap, 16), (.ethmode, 17), (.fwload, 18), (.flokanTrace, 19), (.flokanTdump, 20), (.flokanLog, 22),
    (.flokanToken, 23)]

/-- Each is its command's line. -/
theorem exec_inspectLines : ∀ r ∈ inspectLines, ∀ (args : List Nat) (s : State), exec (r.1 args) s = .next (s.line r.2 args) := by
  simp only [inspectLines, List.forall_mem_cons, List.not_mem_nil, false_imp_iff, implies_true, and_true]
  and_intros <;> exact fun _ _ => rfl

section
variable {s : State} (k : Nat) (args : List Nat)

theorem State.line_of_off (hoff : s.power.off = true) : s.line k args = s := if_pos hoff

theorem State.line_of_awaiting (hon : s.power.off = false) (hcontent : s.flokan.content = 0) (hwait : s.flokan.awaiting = true) :
    s.line k args = { s with flokan := { s.flokan with fresh := false, lines := s.flokan.lines ++ [(k, args)] } } := by
  simp [State.line, hon, hcontent, hwait]

/-- What a content command leaves once it is dropped. -/
theorem State.dropContent_spec (z : State) :
    z.dropContent.flokan.content = 0 ∧ z.dropContent.flokan.data = [] ∧ z.dropContent.out = z.out := by
  refine ⟨rfl, rfl, ?_⟩
  unfold State.dropContent
  dsimp only
  split <;> rfl

theorem State.line_of_content (hon : s.power.off = false) (hcontent : s.flokan.content ≠ 0) :
    (s.line k args).flokan.content = 0 ∧ (s.line k args).flokan.data = [] ∧
      (s.line k args).out = s.out ++ [.final (if s.flokan.aborted then 9 else 1) 0] := by
  have hline : s.line k args = (State.dropContent { s with flokan := { s.flokan with fresh := false } }).emit
      (.final (if s.flokan.aborted then 9 else 1) 0) :=
    (if_neg (by simp [hon])).trans (if_pos hcontent)
  obtain ⟨hzero, hdata, hout⟩ := State.dropContent_spec { s with flokan := { s.flokan with fresh := false } }
  rw [hline]
  exact ⟨hzero, hdata, congrArg (· ++ [_]) hout⟩

end

/-! ### Commands of the inspect tier (R530) -/

section
variable {z : State} {run : State → State}

/-- A command that takes no arguments refuses any. -/
theorem State.arity_of_none {args : List Nat} (h : args ≠ []) : z.arity args 0 0 run = z.final feSyntax := by
  refine if_neg ?_
  simpa using h

theorem State.ranged_out {ok : Bool} (h : ok = false) : z.ranged ok run = z.final feRange := if_neg (by simp [h])

theorem State.flHelp_named {k : Nat} (h : k < 26) : z.flHelp [k] = z.show [[k]] := (State.arity_of rfl).trans (if_pos h)

theorem State.flHelp_unknown {k : Nat} (h : 26 ≤ k) : z.flHelp [k] = z.final feUnknown :=
  (State.arity_of rfl).trans (if_neg (Nat.not_lt.mpr h))

theorem State.flBaud_of_rate {n : Nat} (h : baudRates.contains n = true) :
    z.flBaud [n] = { z.final 0 with flokan := { z.flokan with baud := n, fresh := true } } :=
  (State.arity_of rfl).trans (State.ranged_of h)

theorem State.flBaud_of_noRate {n : Nat} (h : baudRates.contains n = false) : z.flBaud [n] = z.final feRange :=
  (State.arity_of rfl).trans (State.ranged_out h)

theorem State.flErr_of_range {seq n : Nat} (hlow : 1 ≤ n) (hhigh : n ≤ 64) :
    z.flErr [seq, n] = z.show (((upFrom seq n).filterMap z.errRecord).map fun r => byteValues r.bytes) :=
  (State.arity_of rfl).trans (State.ranged_of (by simpa [countArg, hlow] using hhigh))

theorem State.flLastgasp_of_slot {n : Nat} (h : n < 8) :
    z.flLastgasp [n] = z.show ((z.power.lastGasp[n]?).toList.map byteValues) :=
  (State.arity_of rfl).trans (State.ranged_of (by simpa using h))

theorem State.flLastgasp_beyond {n : Nat} (h : 8 ≤ n) : z.flLastgasp [n] = z.final feRange :=
  (State.arity_of rfl).trans (State.ranged_out (by simpa using h))

theorem State.flSnapshow_of_die {die k : Nat} (h : die < 7) :
    z.flSnapshow [die, k] = z.show (((mapGet [] z.snaps die).filter fun r => r.kind = k).map fun r =>
      [r.page, r.unit, r.kind, r.which, r.occupancy, r.capacity, r.a, r.b, r.subject, r.age]) :=
  (State.arity_of rfl).trans (State.ranged_of (by simpa using h))

/-! Of a page that DEEP does not power down (R527) -/

section
variable {page : Nat} (hpage : page < 2 ^ 20) (hlit : z.pageDark page = false)
include hpage hlit

theorem State.flCount_of_lit : z.flCount [page] = z.show [(List.range 8).map fun i => z.pageValue page (0x040 + 8 * i) 8] :=
  (State.arity_of rfl).trans ((State.ranged_of (decide_eq_true (p := [page].headD 0 < 2 ^ 20) hpage)).trans (if_neg (by simp [hlit])))

section
variable {off n : Nat} (hoff : off % 4 = 0) (hlow : 1 ≤ n) (hhigh : n ≤ 64) (hend : off + 4 * n ≤ 4096)
include hoff hlow hhigh hend

/-- The words of a page that REGR shows, where the inspect tier reaches them (R529). -/
theorem State.flRegr_of_lit : z.flRegr [page, off, n] =
    if !z.inspects page off (off + 4 * n) then z.final feTier
    else (z.pageWords page n off).1.show [(List.range n).map fun i => leField (z.pageWords page n off).2 (4 * i) 4] := by
  have hrange : (page < 2 ^ 20 && off % 4 = 0 && 1 ≤ n && n ≤ 64 && off + 4 * n ≤ 4096) = true := by
    simp only [Bool.and_eq_true, decide_eq_true_eq]
    exact ⟨⟨⟨⟨hpage, hoff⟩, hlow⟩, hhigh⟩, hend⟩
  exact (State.arity_of rfl).trans ((State.ranged_of hrange).trans (if_neg (by simp [hlit])))

end

theorem State.flRing_of_lit {unit n : Nat} (hunit : unit ≤ highestUnit (blockCode page)) (hlow : 1 ≤ n) (hhigh : n ≤ 256)
    (hopen : z.inspects page 0x080 0x100 = true) :
    z.flRing [page, unit, n] = z.show ((List.range (min n (min (z.ring page unit).written 256))).map fun i =>
      [(mapGet {} (z.ring page unit).entries (((z.ring page unit).written - 1 - i) % 256)).time,
       (mapGet {} (z.ring page unit).entries (((z.ring page unit).written - 1 - i) % 256)).code,
       (mapGet {} (z.ring page unit).entries (((z.ring page unit).written - 1 - i) % 256)).subject,
       (mapGet {} (z.ring page unit).entries (((z.ring page unit).written - 1 - i) % 256)).value]) := by
  have hrange : (page < 2 ^ 20 && unit ≤ highestUnit (blockCode page) && 1 ≤ n && n ≤ 256) = true := by
    simp only [Bool.and_eq_true, decide_eq_true_eq]
    exact ⟨⟨⟨hpage, hunit⟩, hlow⟩, hhigh⟩
  exact (State.arity_of rfl).trans ((State.ranged_of hrange).trans ((if_neg (by simp [hlit])).trans (if_neg (by simp [hopen]))))

end

/-- SNAP stores the time, and then the dies with the arming bit unless the first store is dropped. -/
theorem State.flSnap_of_range {dies time : Nat} (hdies : dies < 128) (htime : time < 2 ^ 64) : z.flSnap [dies, time] =
    if (z.tryStore 0 pgObs 0x110 8 time).2 ≠ 0 then
      (z.tryStore 0 pgObs 0x110 8 time).1.finalStore pgObs (z.tryStore 0 pgObs 0x110 8 time).2
    else ((z.tryStore 0 pgObs 0x110 8 time).1.tryStore 0 pgObs 0x118 4 (dies + 2 ^ 8)).1.finalStore pgObs
      ((z.tryStore 0 pgObs 0x110 8 time).1.tryStore 0 pgObs 0x118 4 (dies + 2 ^ 8)).2 := by
  have hrange : (dies < 128 && time < 2 ^ 64) = true := by
    simp only [Bool.and_eq_true, decide_eq_true_eq]
    exact ⟨hdies, htime⟩
  exact (State.arity_of rfl).trans (State.ranged_of hrange)

section
variable {first n : Nat} (hlow : 1 ≤ n) (hhigh : n ≤ 256)
include hlow hhigh

/-- LOG's records, which the control tier widens to those of every context. -/
theorem State.flLog_of_range : z.flLog [first, n] =
    if !z.boot.firmware then z.final feState
    else z.show ((z.logFrom (if z.controlOpen then none else some 0xFF) first n).2.map fun r => byteValues r.bytes) := by
  rw [State.flLog, State.arity_of rfl, State.ranged_of (by simpa [countArg, hlow] using hhigh)]
  refine if_congr Iff.rfl rfl ?_
  extract_lets last start
  split
  next y rs hlog =>
    have hlog : z.logFrom (if z.controlOpen then none else some 0xFF) first n = (y, rs) := hlog
    rw [hlog]

end
end

/-- A command that takes no arguments answers SYNTAX to any. -/
theorem inspect_noArguments {args : List Nat} {s z : State} (h : s.lineRuns z) (hargs : args ≠ []) :
    ∀ i ∈ [Instr.flokanVer args, .flokanStatus args, .flokanTime args, .flokanSnaprel args], Gives i s (errs z 1) := by
  simp only [List.forall_mem_cons, List.not_mem_nil, false_imp_iff, implies_true, and_true]
  refine ⟨?_, ?_, ?_, ?_⟩
  · exact gives_of_line rfl h (show z.flVer args = _ from State.arity_of_none hargs) rfl
  · exact gives_of_line rfl h (show z.flStatus args = _ from State.arity_of_none hargs) rfl
  · exact gives_of_line rfl h (show z.flTime args = _ from State.arity_of_none hargs) rfl
  · exact gives_of_line rfl h (show z.flSnaprel args = _ from State.arity_of_none hargs) rfl

/-- Settles O58: a line that does not run is ignored, held or drops its content; one that runs is its command. -/
theorem flokanInspect : Obligations.FlokanInspect := by
  unfold Obligations.FlokanInspect
  refine ⟨fun r hr args s => ?_, fun args s z h => ?_⟩
  · have hexec := exec_inspectLines r hr args s
    exact ⟨fun hoff => ⟨_, hexec, State.line_of_off r.2 args hoff⟩,
      fun hon hcontent hwait => ⟨_, hexec, State.line_of_awaiting r.2 args hon hcontent hwait⟩,
      fun hon hcontent => ⟨_, hexec, State.line_of_content r.2 args hon hcontent⟩⟩
  · refine ⟨fun i hi hargs => inspect_noArguments h hargs i hi, gives_of_line rfl h (show z.flHelp [] = _ from State.arity_of rfl) rfl,
      fun k hk => gives_of_line rfl h (State.flHelp_named hk) rfl, fun k hk => gives_of_line rfl h (State.flHelp_unknown hk) rfl,
      gives_of_line rfl h (show z.flVer [] = _ from State.arity_of rfl) rfl,
      gives_of_line rfl h (show z.flStatus [] = _ from State.arity_of rfl) rfl,
      gives_of_line rfl h (show z.flTime [] = _ from State.arity_of rfl) rfl,
      fun n hn => gives_of_line rfl h (State.flBaud_of_rate hn) ⟨rfl, rfl, rfl⟩,
      fun n hn => gives_of_line rfl h (State.flBaud_of_noRate hn) rfl,
      fun seq n hlow hhigh => gives_of_line rfl h (State.flErr_of_range hlow hhigh) (z.show_lines _),
      fun n hn => gives_of_line rfl h (State.flLastgasp_of_slot hn) (z.show_lines _),
      fun n hn => gives_of_line rfl h (State.flLastgasp_beyond hn) rfl,
      fun page off n hpage hoff hlow hhigh hend hlit => ⟨fun hclosed => ?_, fun hopen y bs hwords => ?_⟩,
      fun page hpage hlit => gives_of_line rfl h (State.flCount_of_lit hpage hlit) (z.show_lines _),
      ?_, fun dies time hdies htime y w a b hfirst hsecond => ⟨fun ha => ?_, fun ha => ?_⟩,
      fun die k hdie => gives_of_line rfl h (State.flSnapshow_of_die hdie) (z.show_lines _),
      fun y a hstore => ?_, fun first n hlow hhigh hfirmware => ?_, fun hfirmware first n hlow hhigh => ?_⟩
    · exact gives_of_line rfl h ((State.flRegr_of_lit hpage hlit hoff hlow hhigh hend).trans (if_pos (by simp [hclosed]))) rfl
    · refine gives_of_line rfl h ((State.flRegr_of_lit hpage hlit hoff hlow hhigh hend).trans (if_neg (by simp [hopen]))) ?_
      rw [← hwords]
      exact y.show_lines _
    · rintro page unit n _ hpage hunit hlow hhigh hlit hopen rfl
      exact gives_of_line rfl h (State.flRing_of_lit hpage hlit hunit hlow hhigh hopen) (z.show_lines _)
    · have hsnap := State.flSnap_of_range (z := z) hdies htime
      rw [← hfirst, if_neg (not_not_intro ha)] at hsnap
      refine gives_of_line rfl h hsnap ?_
      rw [← hsecond]
    · have hsnap := State.flSnap_of_range (z := z) hdies htime
      rw [← hfirst, if_pos ha] at hsnap
      exact gives_of_line rfl h hsnap rfl
    · have hrel : z.flSnaprel [] = y.finalStore pgObs a := by
        rw [State.flSnaprel, State.arity_of rfl, State.reeveStore, ← hstore]
      exact gives_of_line rfl h hrel rfl
    · exact gives_of_line rfl h ((State.flLog_of_range hlow hhigh).trans (if_neg (by simp [hfirmware]))) (z.show_lines _)
    · exact gives_of_line rfl h ((State.flLog_of_range hlow hhigh).trans (if_pos (by simp [hfirmware]))) rfl

end Sys2Proof.Machine
end

section
/-! SUPPORT. The directory, the cached lines and the transactions of coherence: what an operation leaves of each (R329, R331, R332). -/
namespace Sys2Proof.Machine

/-! ### What keeps the state of coherence -/

theorem State.coh_depart (s : State) (pk : Packet) (hop : Nat) : (s.depart pk hop).coh = s.coh := by
  unfold State.depart
  dsimp only
  split <;> rfl

theorem State.coh_send (s : State) (pk : Packet) : (s.send pk).coh = s.coh := by
  unfold State.send
  split
  · rfl
  · exact s.coh_depart pk 0

theorem State.coh_breakReservations (s : State) (a len : Nat) : (s.breakReservations a len).coh = s.coh :=
  congrArg (·.coh) (coresOnly_breakReservations s a len)

/-- A message answered changes no line of the directory or of the caches. -/
theorem State.dirLine_cohReply (s : State) (pk : Packet) (op : Nat) (data : List Byte) (p : Bool) (l : Nat) :
    (s.cohReply pk op data p).dirLine l = s.dirLine l := by
  rw [State.dirLine, State.cohReply, State.coh_send]
  rfl

theorem State.cached_cohReply (s : State) (pk : Packet) (op : Nat) (data : List Byte) (p : Bool) (w l : Nat) :
    (s.cohReply pk op data p).cached w l = s.cached w l := by
  rw [State.cached, State.cohReply, State.coh_send]
  rfl

/-! ### Lines -/

theorem State.dirLine_setDir_self (s : State) (l : Nat) (d : DirLine) : (s.setDir l d).dirLine l = d := mapGet_put_self _ _ _ _

theorem State.dirLine_breakReservations (s : State) (a len l : Nat) : (s.breakReservations a len).dirLine l = s.dirLine l := by
  rw [State.dirLine, State.coh_breakReservations]
  rfl

theorem State.cached_setCached_self (s : State) (w l : Nat) (x : CacheLine) : (s.setCached w l x).cached w l = x :=
  mapGet_put_self _ _ _ _

theorem State.cached_dropCached_self (s : State) (w l : Nat) : (s.dropCached w l).cached w l = {} := by
  rw [State.cached, State.dropCached, State.coh_breakReservations]
  exact s.cached_setCached_self w l {}

/-- An owner that leaves a line leaves it without one. -/
theorem State.owner_dirDrop {s : State} {l w : Nat} (h : (s.dirLine l).owner = some w) : ((s.dirDrop l w).dirLine l).owner = none := by
  rw [State.dirDrop, State.dirLine_setDir_self]
  simp [h]

/-! ### Holders as bits -/

/-- With one bit cleared nothing is left: no other bit was set. -/
theorem bitAt_of_putBits_eq_zero {n w v : Nat} (h : putBits n w w 0 = 0) (hne : v ≠ w) : bitAt n v = false := by
  have hbit : bits n w w = n / 2 ^ w % 2 := by simp [bits]
  have hle : n ≤ n / 2 ^ w % 2 * 2 ^ w := by
    rw [putBits, hbit] at h
    omega
  obtain hzero | hone := Nat.mod_two_eq_zero_or_one (n / 2 ^ w)
  · rw [hzero] at hle
    obtain rfl : n = 0 := by omega
    simp [bitAt]
  · rw [hone, Nat.one_mul] at hle
    have hge : 2 ^ w ≤ n := by
      by_contra hsmall
      rw [Nat.div_eq_of_lt (not_le.mp hsmall)] at hone
      omega
    rw [Nat.le_antisymm hle hge, bitAt_eq_testBit]
    exact Nat.testBit_two_pow_of_ne hne.symm

/-! ### Requests at the home agent (R331, R332) -/

/-- The home agent's next tag taken. -/
def State.cohTagTaken (s : State) : State := { s with coh := { s.coh with nextTag := (s.coh.nextTag + 1) % 2 ^ 18 } }

/-- A request's transaction for a line with no owner, and with no sharer that it has to invalidate, asks no one. -/
theorem State.cohAsk_of_alone {s : State} {l k : Nat} {pk : Packet} (howner : (s.dirLine l).owner = none)
    (hshared : k = 0 ∨ putBits (s.dirLine l).sharers (nodeW pk.src.toNat) (nodeW pk.src.toNat) 0 = 0) :
    s.cohAsk { line := l, kind := k, pk := some pk } =
      (s.cohTagTaken, { line := l, kind := k, pk := some pk, waiting := 0, tag := s.coh.nextTag }) := by
  have hnone : (if (k = 1 || k = 2 || k = 3 : Bool) then
      (List.range 4).filter fun w => bitAt (s.dirLine l).sharers w && w ≠ nodeW pk.src.toNat else []) = [] := by
    obtain rfl | hsole := hshared
    · rfl
    · split
      · refine List.filter_eq_nil_iff.mpr fun v _ => ?_
        by_cases hv : v = nodeW pk.src.toNat
        · simp [hv]
        · simp [bitAt_of_putBits_eq_zero hsole hv]
      · rfl
  unfold State.cohAsk
  dsimp only
  rw [hnone, howner]
  rfl

section
variable {s : State} {l g : Nat} {pk : Packet} (hmerge : s.hbm.merge = []) (howner : (s.dirLine l).owner = none)
include hmerge howner

/-- A granted request that finds no other holder owns the line. -/
theorem State.dirLine_cohGrant_owned {k : Nat}
    (hsole : putBits (s.dirLine l).sharers (nodeW pk.src.toNat) (nodeW pk.src.toNat) 0 = 0) :
    (s.cohGrant { line := l, kind := k, pk := some pk, tag := g }).dirLine l =
      { owner := some (nodeW pk.src.toNat), sharers := 0, job := pk.job.toNat, gen := pk.gen.toNat } := by
  have hdata : s.cohData l = (s, s.bytes (l * 128) 128, s.linesPoisoned (l * 128) 128) := by
    rw [State.cohData, State.engineRead, State.drainRange_of_empty hmerge]
  unfold State.cohGrant
  dsimp only
  split
  · rw [State.dirLine_cohReply, State.dirLine_breakReservations, State.dirLine_setDir_self]
  · rw [hdata, howner, hsole]
    dsimp only
    rw [if_neg (by simp), State.dirLine_cohReply, State.dirLine_breakReservations, State.dirLine_setDir_self]

/-- A shared request that finds other sharers joins them. -/
theorem State.dirLine_cohGrant_shared
    (hothers : putBits (s.dirLine l).sharers (nodeW pk.src.toNat) (nodeW pk.src.toNat) 0 ≠ 0) :
    (s.cohGrant { line := l, kind := 0, pk := some pk, tag := g }).dirLine l =
      { owner := none, sharers := putBits (s.dirLine l).sharers (nodeW pk.src.toNat) (nodeW pk.src.toNat) 1, job := pk.job.toNat,
        gen := pk.gen.toNat } := by
  have hdata : s.cohData l = (s, s.bytes (l * 128) 128, s.linesPoisoned (l * 128) 128) := by
    rw [State.cohData, State.engineRead, State.drainRange_of_empty hmerge]
  unfold State.cohGrant
  dsimp only
  rw [hdata, if_neg (by simp)]
  dsimp only
  rw [if_pos (by simp [hothers]), State.dirLine_cohReply, State.dirLine_setDir_self, howner]

end

section
variable {s : State} {pk : Packet} (hin : cohLine pk * 128 < s.getF fdMemmapTop pgMemmap)
  (hreach : s.mayReach (.fabric pk.job) (cohLine pk * 128) = true)
include hin hreach

theorem State.cohRequest_of_busy (hbusy : (s.coh.active.any fun t => t.line = cohLine pk) = true) (hroom : s.cohQueueFull (cohLine pk) = false) :
    s.cohRequest pk = { s with coh := { s.coh with
      queue := s.coh.queue ++ [{ line := cohLine pk, kind := pk.op.toNat, pk := some pk }] } } :=
  (if_neg (by simp [hin, fabricSource, hreach])).trans ((if_pos hbusy).trans (if_neg (by simp [hroom])))

/-- A request that has to ask no one is granted at once. -/
theorem State.cohRequest_of_alone (hidle : (s.coh.active.any fun t => t.line = cohLine pk) = false)
    (howner : (s.dirLine (cohLine pk)).owner = none)
    (hshared : pk.op.toNat = 0 ∨
      putBits (s.dirLine (cohLine pk)).sharers (nodeW pk.src.toNat) (nodeW pk.src.toNat) 0 = 0) :
    s.cohRequest pk = s.cohTagTaken.cohGrant { line := cohLine pk, kind := pk.op.toNat, pk := some pk, tag := s.coh.nextTag } := by
  refine (if_neg (by simp [hin, fabricSource, hreach])).trans ((if_neg (by simp [hidle])).trans ?_)
  rw [State.cohBegin, State.cohAsk_of_alone howner hshared]
  rfl

end

/-! ### Messages taken (R318, R332) -/

section
variable {op : Nat} {pk : Packet} {s : State} (h : s.cohTakes op pk)
include h

theorem State.recvCoh_of_request (hop : op ≤ 2) : s.recvCoh op pk = (s.cohNote pk none).cohRequest pk := by
  obtain ⟨hvalid, hgood, hkind, htray, hother, hnew, htag⟩ := h
  have hseven : op ≤ 7 := by omega
  simp [State.recvCoh, hvalid, hgood, hkind, htray, hother, hnew, hseven, htag hseven, hop]

theorem State.recvCoh_of_put (hlow : 3 ≤ op) (hhigh : op ≤ 4) : s.recvCoh op pk = (s.cohNote pk none).cohPut pk := by
  obtain ⟨hvalid, hgood, hkind, htray, hother, hnew, htag⟩ := h
  have hseven : op ≤ 7 := by omega
  simp [State.recvCoh, hvalid, hgood, hkind, htray, hother, hnew, hseven, htag hseven, Nat.not_le.mpr hlow, hhigh]

theorem State.recvCoh_of_snoop (hlow : 5 ≤ op) (hhigh : op ≤ 7) : s.recvCoh op pk = (s.cohNote pk none).cohSnoop pk := by
  obtain ⟨hvalid, hgood, hkind, htray, hother, hnew, htag⟩ := h
  have hrequest : ¬ op ≤ 2 := by omega
  simp [State.recvCoh, hvalid, hgood, hkind, htray, hother, hnew, hhigh, htag hhigh, hrequest, Nat.not_le.mpr hlow]

/-- What answers an invalidation goes to the transaction that awaits it. -/
theorem State.recvCoh_of_homeAck (hop : op = opINVACK ∨ op = opRECALLDATA) :
    s.recvCoh op pk = (s.cohNote pk none).cohHomeAck pk := by
  obtain ⟨hvalid, hgood, hkind, htray, hother, hnew, -⟩ := h
  obtain rfl | rfl := hop
  all_goals simp [State.recvCoh, hvalid, hgood, hkind, htray, hother, hnew, opINVACK, opRECALLDATA, opRETRY]

section
variable {slot : Nat} {r : CohReq} (hmine : s.cohMine pk = some (slot, r))
include hmine

/-- An answer to a request of this node is its result. -/
theorem State.recvCoh_of_result (hlow : 8 ≤ op) (hhigh : op ≤ 11) : s.recvCoh op pk = (s.cohNote pk none).cohResult pk := by
  obtain ⟨hvalid, hgood, hkind, htray, hother, hnew, -⟩ := h
  have hmine : (s.cohNote pk none).cohMine pk = some (slot, r) := hmine
  have hseven : ¬ op ≤ 7 ∧ op ≠ 14 ∧ op ≠ 12 ∧ op ≠ 13 := by omega
  simp [State.recvCoh, hvalid, hgood, hkind, htray, hother, hnew, hseven, hmine, opINVACK, opRECALLDATA, opRETRY]

end

/-- A RETRY is not noted, since its request comes again. -/
theorem State.recvCoh_of_retry (hop : op = opRETRY) : s.recvCoh op pk = s.cohResult pk := by
  subst hop
  obtain ⟨hvalid, hgood, hkind, htray, hother, hnew, -⟩ := h
  simp [State.recvCoh, hvalid, hgood, hkind, htray, hother, hnew, opINVACK, opRECALLDATA, opRETRY, opACK]

end

end Sys2Proof.Machine
end

section
/-! PROOFS. Coherence within the tray (spec/12_ecrok_memory_semantics.md). -/
namespace Sys2Proof.Machine

/-- A coherence message, with what its receipt leaves. -/
theorem effect_coh {i : Instr} {s u w : State} {P : State → Prop} (hexec : exec i s = .next w.finish) (hrecv : w = u) (hP : P u) :
    Effect i s P :=
  ⟨u, by rw [hexec, hrecv], hP⟩

/-! ### At the home agent (R329–R332) -/

/-- GET_S, GET_M and UPGRADE are requests at the home agent. -/
theorem effect_cohRequest {r : (Packet → Instr) × Nat} (hr : r ∈ [(Instr.getS, 0), (Instr.getM, 1), (Instr.upgrade, 2)]) {pk : Packet}
    {s u : State} {P : State → Prop} (h : s.cohTakes r.2 pk) (hrequest : (s.cohNote pk none).cohRequest pk = u) (hP : P u) :
    Effect (r.1 pk) s P := by
  simp only [List.mem_cons, List.not_mem_nil, or_false] at hr
  obtain rfl | rfl | rfl := hr
  all_goals exact effect_coh rfl ((State.recvCoh_of_request h (by decide)).trans hrequest) hP

section
variable {s : State} {pk : Packet}

theorem State.cohPut_of_owner (hkind : pk.op.toNat = 3) (howner : (s.dirLine (cohLine pk)).owner = some (nodeW pk.src.toNat)) :
    s.cohPut pk = ((s.cohWriteBack (cohLine pk) pk.payload (bitAt pk.mask.toNat 0)).dirDrop (cohLine pk) (nodeW pk.src.toNat)).cohReply
      pk opACK [] false := by
  simp [State.cohPut, hkind, howner]

theorem State.cohPut_of_clean (hkind : pk.op.toNat = 4) :
    s.cohPut pk = (s.dirDrop (cohLine pk) (nodeW pk.src.toNat)).cohReply pk opACK [] false := by
  simp [State.cohPut, hkind]

theorem State.cohSnoop_inv (hkind : pk.op.toNat = 5) :
    s.cohSnoop pk = (s.dropCached (nodeW pk.src.toNat) (cohLine pk)).cohReply pk opINVACK [] false := by
  simp only [State.cohSnoop, hkind]

theorem State.cohSnoop_recall (hkind : pk.op.toNat = 6) : s.cohSnoop pk =
    if (s.cached (nodeW pk.src.toNat) (cohLine pk)).state = 3 then
      (s.dropCached (nodeW pk.src.toNat) (cohLine pk)).cohReply pk opRECALLDATA (s.cached (nodeW pk.src.toNat) (cohLine pk)).data
        (s.cached (nodeW pk.src.toNat) (cohLine pk)).poisoned
    else (s.dropCached (nodeW pk.src.toNat) (cohLine pk)).cohReply pk opINVACK [] false := by
  simp only [State.cohSnoop, hkind]

/-- The line of a DOWNGRADE, shared. -/
def State.sharedCached (s : State) (pk : Packet) : State :=
  s.setCached (nodeW pk.src.toNat) (cohLine pk) { s.cached (nodeW pk.src.toNat) (cohLine pk) with state := 1 }

theorem State.cohSnoop_downgrade (hkind : pk.op.toNat = 7) : s.cohSnoop pk =
    if (s.cached (nodeW pk.src.toNat) (cohLine pk)).state = 3 then
      (s.sharedCached pk).cohReply pk opRECALLDATA (s.cached (nodeW pk.src.toNat) (cohLine pk)).data
        (s.cached (nodeW pk.src.toNat) (cohLine pk)).poisoned
    else if (s.cached (nodeW pk.src.toNat) (cohLine pk)).state = 0 then s.cohReply pk opINVACK [] false
    else (s.sharedCached pk).cohReply pk opACK [] false := by
  simp only [State.cohSnoop, hkind]
  rfl

end

/-- Settles O38: a message that is taken is a request, a put or a snoop of the line it names. -/
theorem coherenceRequests : Obligations.CoherenceRequests := by
  unfold Obligations.CoherenceRequests
  rintro pk s _ l w rfl rfl rfl
  refine ⟨fun r hr h hin hreach hbusy hroom => ?_, fun r hr h hin hreach hidle hmerge howner => ?_, fun h howner => ?_, fun h => ?_,
    fun h => ?_, fun h => ?_, fun h => ?_⟩
  · have hkind : pk.op.toNat = r.2 := h.2.2.1
    refine effect_cohRequest hr h (State.cohRequest_of_busy hin hreach hbusy hroom) ?_
    rw [hkind]
    exact ⟨rfl, rfl⟩
  · have hkind : pk.op.toNat = r.2 := h.2.2.1
    refine ⟨fun hsole => ?_, fun hget hothers => ?_⟩
    · exact effect_cohRequest hr h (State.cohRequest_of_alone hin hreach hidle howner (.inr hsole))
        (State.dirLine_cohGrant_owned (s := (s.cohNote pk none).cohTagTaken) hmerge howner hsole)
    · refine effect_cohRequest hr h (State.cohRequest_of_alone hin hreach hidle howner (.inl (hkind.trans hget))) ?_
      rw [hkind, hget]
      exact State.dirLine_cohGrant_shared (s := (s.cohNote pk none).cohTagTaken) hmerge howner hothers
  · exact effect_coh rfl ((State.recvCoh_of_put h (by decide) (by decide)).trans (State.cohPut_of_owner h.2.2.1 howner)) rfl
  · refine effect_coh rfl ((State.recvCoh_of_put h (by decide) (by decide)).trans (State.cohPut_of_clean h.2.2.1)) ⟨rfl, fun howner => ?_⟩
    rw [State.dirLine_cohReply]
    exact State.owner_dirDrop howner
  · refine effect_coh rfl ((State.recvCoh_of_snoop h (by decide) (by decide)).trans (State.cohSnoop_inv h.2.2.1)) ⟨rfl, ?_⟩
    rw [State.cached_cohReply, State.cached_dropCached_self]
  · have hrecv := (State.recvCoh_of_snoop h (by decide) (by decide)).trans (State.cohSnoop_recall h.2.2.1)
    refine ⟨fun hdirty => effect_coh rfl (hrecv.trans (if_pos hdirty)) ⟨rfl, ?_⟩,
      fun hclean => effect_coh rfl (hrecv.trans (if_neg hclean)) ⟨rfl, ?_⟩⟩
    · rw [State.cached_cohReply, State.cached_dropCached_self]
    · rw [State.cached_cohReply, State.cached_dropCached_self]
  · have hrecv := (State.recvCoh_of_snoop h (by decide) (by decide)).trans (State.cohSnoop_downgrade h.2.2.1)
    have hshared : ∀ (op : Nat) (data : List Byte) (p : Bool), (((s.cohNote pk none).sharedCached pk).cohReply pk op data p).cached
        (nodeW pk.src.toNat) (cohLine pk) = { s.cached (nodeW pk.src.toNat) (cohLine pk) with state := 1 } := fun op data p =>
      (State.cached_cohReply _ _ _ _ _ _ _).trans (State.cached_setCached_self _ _ _ _)
    refine ⟨fun hdirty => ?_, fun habsent => ?_, fun hclean => ?_⟩
    · exact effect_coh rfl (hrecv.trans (if_pos hdirty)) ⟨hshared _ _ _, rfl⟩
    · have hnotDirty : (s.cached (nodeW pk.src.toNat) (cohLine pk)).state ≠ 3 := by omega
      exact effect_coh rfl (hrecv.trans ((if_neg hnotDirty).trans (if_pos habsent))) rfl
    · have hheld : (s.cached (nodeW pk.src.toNat) (cohLine pk)).state ≠ 3 ∧ (s.cached (nodeW pk.src.toNat) (cohLine pk)).state ≠ 0 := by
        omega
      exact effect_coh rfl (hrecv.trans ((if_neg hheld.1).trans (if_neg hheld.2))) ⟨hshared _ _ _, rfl⟩

/-! ### Answers (R324, R330–R332) -/

/-- Nothing but the state of coherence differs. -/
def cohOnly (s u : State) : Prop := { u with coh := s.coh } = s

theorem cohOnly.trans {s t u : State} (hst : cohOnly s t) (htu : cohOnly t u) : cohOnly s u := by
  unfold cohOnly at *
  rw [← hst, ← htu]

theorem cohOnly_cohNote (s : State) (pk : Packet) (ans : Option Packet) : cohOnly s (s.cohNote pk ans) := rfl

theorem cohOnly_setCached (s : State) (w l : Nat) (x : CacheLine) : cohOnly s (s.setCached w l x) := rfl

/-- A request of this node that has ended. -/
def State.reqEnded (s : State) (slot : Nat) : State := { s with coh := { s.coh with reqs := mapPut {} s.coh.reqs slot {} } }

theorem State.reqs_reqEnded (s : State) (slot : Nat) : mapGet {} (s.reqEnded slot).coh.reqs slot = {} := by
  rw [State.reqEnded, mapGet_put_self]

theorem cohOnly_reqEnded (s : State) (slot : Nat) : cohOnly s (s.reqEnded slot) := rfl

theorem State.reqs_setCached (s : State) (w l : Nat) (x : CacheLine) : (s.setCached w l x).coh.reqs = s.coh.reqs := rfl

section
variable {s : State} {pk : Packet}

section
variable {slot : Nat} {r : CohReq} (hmine : s.cohMine pk = some (slot, r))
include hmine

theorem State.cohResult_dataS (hkind : pk.op.toNat = 8) : s.cohResult pk = (s.reqEnded slot).setCached (nodeW pk.src.toNat) (cohLine pk)
    { state := 1, data := pk.payload, poisoned := bitAt pk.mask.toNat 0, ctx := r.ctx } := by
  rw [State.cohResult, hmine]
  exact if_pos hkind

theorem State.cohResult_dataE (hkind : pk.op.toNat = 9) : s.cohResult pk = (s.reqEnded slot).setCached (nodeW pk.src.toNat) (cohLine pk)
    { state := 2, data := pk.payload, poisoned := bitAt pk.mask.toNat 0, ctx := r.ctx } := by
  rw [State.cohResult, hmine]
  exact (if_neg (by rw [hkind]; decide)).trans (if_pos hkind)

theorem State.cohResult_ackE (hkind : pk.op.toNat = 10) (hheld : (s.cached (nodeW pk.src.toNat) (cohLine pk)).state ≠ 0) :
    s.cohResult pk = (s.reqEnded slot).setCached (nodeW pk.src.toNat) (cohLine pk)
      { s.cached (nodeW pk.src.toNat) (cohLine pk) with state := 2 } := by
  rw [State.cohResult, hmine]
  exact (if_neg (by rw [hkind]; decide)).trans ((if_neg (by rw [hkind]; decide)).trans ((if_pos hkind).trans (if_neg hheld)))

theorem State.cohResult_ack (hkind : pk.op.toNat = 11) : s.cohResult pk = s.reqEnded slot := by
  rw [State.cohResult, hmine]
  exact (if_neg (by rw [hkind]; decide)).trans ((if_neg (by rw [hkind]; decide)).trans
    ((if_neg (by rw [hkind]; decide)).trans (if_neg (by rw [hkind]; decide))))

theorem State.cohResult_retry (hkind : pk.op.toNat = 14) : s.cohResult pk = { s with coh := { s.coh with
    reqs := mapPut {} s.coh.reqs slot { r with wait := if r.wait = 0 then 1 else min 64 (2 * r.wait) } } } := by
  rw [State.cohResult, hmine]
  exact (if_neg (by rw [hkind]; decide)).trans ((if_neg (by rw [hkind]; decide)).trans
    ((if_neg (by rw [hkind]; decide)).trans (if_pos hkind)))

end

section
variable {tx : CohTx} (hawaited : (s.coh.active.find? fun t => t.line = cohLine pk && t.tag = cohTag pk && bitAt t.waiting (nodeW pk.src.toNat)) = some tx)
include hawaited

theorem State.cohHomeAck_inv (hkind : pk.op.toNat = opINVACK) :
    s.cohHomeAck pk = (s.dirDrop (cohLine pk) (nodeW pk.src.toNat)).cohArrived tx (nodeW pk.src.toNat) := by
  rw [State.cohHomeAck, hawaited]
  simp [hkind, opINVACK, opRECALLDATA]

/-- Recalled data comes back to memory; where the transaction leaves the holder a copy it stays a sharer. -/
theorem State.cohHomeAck_data (hkind : pk.op.toNat = opRECALLDATA) : s.cohHomeAck pk =
    (if tx.kind = 0 ∨ tx.kind = 4 then
      (s.cohWriteBack (cohLine pk) pk.payload (bitAt pk.mask.toNat 0)).dirShare (cohLine pk) (nodeW pk.src.toNat)
    else (s.cohWriteBack (cohLine pk) pk.payload (bitAt pk.mask.toNat 0)).dirDrop (cohLine pk) (nodeW pk.src.toNat)).cohArrived tx
      (nodeW pk.src.toNat) := by
  rw [State.cohHomeAck, hawaited]
  simp [hkind, opINVACK, opRECALLDATA]

end

theorem State.cohArrived_of_more {tx : CohTx} {w : Nat} (h : putBits tx.waiting w w 0 ≠ 0) : s.cohArrived tx w = { s with coh := { s.coh with
    active := s.coh.active.map fun t => if t = tx then { tx with waiting := putBits tx.waiting w w 0 } else t } } :=
  if_neg h

/-! Timers -/

section
variable {slot : Nat} (hactive : (mapGet {} s.coh.reqs slot).active = true)
include hactive

theorem State.cohResend_of_wait (hwait : (mapGet {} s.coh.reqs slot).wait ≠ 0) :
    s.cohResend slot = s.send (mapGet {} s.coh.reqs slot).pk :=
  if_pos (by rw [Bool.and_eq_true, decide_eq_true_eq]; exact ⟨hactive, hwait⟩)

end
end

/-- A grant ends its request and gives this node the line. -/
theorem State.reqEnded_setCached_spec (s : State) (pk : Packet) (slot w l : Nat) (x : CacheLine) :
    mapGet {} (((s.cohNote pk none).reqEnded slot).setCached w l x).coh.reqs slot = {} ∧
      { ((s.cohNote pk none).reqEnded slot).setCached w l x with coh := s.coh } = s ∧
      (((s.cohNote pk none).reqEnded slot).setCached w l x).cached w l = x := by
  refine ⟨?_, (cohOnly_cohNote s pk none).trans ((cohOnly_reqEnded _ slot).trans (cohOnly_setCached _ w l x)),
    State.cached_setCached_self _ _ _ _⟩
  rw [State.reqs_setCached, State.reqs_reqEnded]

/-- Settles O39: an answer ends a request of this node or an await of the home agent; a timer sends again or gives up. -/
theorem coherenceAnswers : Obligations.CoherenceAnswers := by
  unfold Obligations.CoherenceAnswers
  rintro pk s l w rfl rfl
  refine ⟨fun slot r hmine => ?_, ?_, fun slot r hr hactive => ⟨fun hwait => ?_, fun z v hv hz => ?_⟩⟩
  · have hresult : ∀ op, 8 ≤ op → op ≤ 11 → s.cohTakes op pk → s.recvCoh op pk = (s.cohNote pk none).cohResult pk :=
      fun op hlow hhigh h => State.recvCoh_of_result h hmine hlow hhigh
    refine ⟨fun h => ?_, fun h => ?_, fun h hheld => ?_, fun h => ?_, fun h => ?_⟩
    · exact effect_coh rfl ((hresult 8 (by decide) (by decide) h).trans (State.cohResult_dataS hmine h.2.2.1))
        (State.reqEnded_setCached_spec _ _ _ _ _ _)
    · exact effect_coh rfl ((hresult 9 (by decide) (by decide) h).trans (State.cohResult_dataE hmine h.2.2.1))
        (State.reqEnded_setCached_spec _ _ _ _ _ _)
    · exact effect_coh rfl ((hresult 10 (by decide) (by decide) h).trans (State.cohResult_ackE hmine h.2.2.1 hheld))
        (State.reqEnded_setCached_spec _ _ _ _ _ _)
    · exact effect_coh rfl ((hresult 11 (by decide) (by decide) h).trans (State.cohResult_ack hmine h.2.2.1))
        ⟨State.reqs_reqEnded _ slot, rfl⟩
    · exact effect_coh rfl ((State.recvCoh_of_retry h rfl).trans (State.cohResult_retry hmine h.2.2.1)) ⟨rfl, mapGet_put_self _ _ _ _⟩
  · rintro tx _ rfl hawaited
    refine ⟨fun h => ?_, fun h hread hwrite => ?_, fun h hkeeps => ?_⟩
    · refine effect_coh rfl ((State.recvCoh_of_homeAck h (.inl rfl)).trans (State.cohHomeAck_inv hawaited h.2.2.1)) ⟨rfl, fun hmore => ?_⟩
      rw [State.cohArrived_of_more hmore]
      rfl
    · refine effect_coh rfl ((State.recvCoh_of_homeAck h (.inr rfl)).trans (State.cohHomeAck_data hawaited h.2.2.1)) ?_
      rw [if_neg (by simp [hread, hwrite])]
    · refine effect_coh rfl ((State.recvCoh_of_homeAck h (.inr rfl)).trans (State.cohHomeAck_data hawaited h.2.2.1)) ?_
      rw [if_pos hkeeps]
  · subst hr
    exact effect_coh rfl (State.cohResend_of_wait hactive hwait) rfl
  · subst hr hv
    have hlost : s.cohTimeout slot.toNat = _ := if_pos hactive
    refine effect_coh rfl hlost ⟨_, rfl, ?_⟩
    rw [hz]

end Sys2Proof.Machine
end

section
/-! PROOFS. Requests that the node admits (spec/12_ecrok_memory_semantics.md). -/
namespace Sys2Proof.Machine

/-! ### Admission (R307, R318–R321) -/

section
variable {s : State} {pk : Packet}

theorem State.expected_admitted (s : State) (pk : Packet) : (s.admitted pk).expected pk = (s.expected pk + 1) % 2 ^ 32 :=
  mapGet_put_self _ _ _ _

section
variable (hvalid : s.nodeIdValid = true) (hgood : packetBad pk = false) (hout : s.err.out = false) (f : State → Option State)
include hvalid hgood hout

/-- A well-formed request in service is counted, and its tag decides. -/
theorem State.letIn_of_good : s.letIn pk f = match s.tagCheck pk with
    | .stale => (s.count pgEcrok 1 1).dropStale
    | .foreign => (s.count pgEcrok 1 1).dropForeign
    | .served =>
      if pk.seq.toNat = s.expected pk then
        match f (s.admitted pk) with
        | some s' => s'
        | none => ((s.count pgEcrok 1 1).noteLow pk).respond pk
            (if pk.kind.toNat = kREAD || pk.kind.toNat = kATOMICF then kRESPDATA else kRESPACK) stBUSY []
      else if seqBehind (s.expected pk) pk.seq.toNat ≤ 4096 then ((s.count pgEcrok 1 1).noteLow pk).answerDup pk
      else if seqBehind pk.seq.toNat (s.expected pk) < 4096 then ((s.count pgEcrok 1 1).noteLow pk).addF fdEcrokCntGap pgEcrok 0 1
      else ((s.count pgEcrok 1 1).noteLow pk).dropMalformed :=
  (if_neg (by simp [hvalid])).trans ((if_neg (by simp [hgood])).trans (if_neg (by
    rw [Bool.not_eq_true]
    exact hout)))

end

section
variable (h : s.admits pk) {f : State → Option State}
include h

/-- An admitted request is applied. -/
theorem State.letIn_of_admits {u : State} (hf : f (s.admitted pk) = some u) : s.letIn pk f = u := by
  obtain ⟨hvalid, hgood, hout, htag, hseq⟩ := h
  rw [State.letIn_of_good hvalid hgood hout f, htag]
  dsimp only
  rw [if_pos hseq, hf]

/-- One that cannot be applied yet is answered BUSY, and its flow still expects it. -/
theorem State.letIn_of_busy (hf : f (s.admitted pk) = none) : s.letIn pk f = ((s.count pgEcrok 1 1).noteLow pk).respond pk
    (if pk.kind.toNat = kREAD || pk.kind.toNat = kATOMICF then kRESPDATA else kRESPACK) stBUSY [] := by
  obtain ⟨hvalid, hgood, hout, htag, hseq⟩ := h
  rw [State.letIn_of_good hvalid hgood hout f, htag]
  dsimp only
  rw [if_pos hseq, hf]

end

/-! ### Requests applied (R308, R309) -/

/-- A tile store that serves the fabric. -/
theorem State.fabricStore_of_open {z : State} {d : FabricDie} {t off len : Nat} {f : State → State} (hserves : z.serves (flaskOf t) = true)
    (hstill : z.moving t = false) (hfree : z.dequeOwns t off len = false) : z.fabricStore d pk t off len f = f z := by
  simp [State.fabricStore, State.arrive_of_serves hserves, hserves, hstill, hfree]

section
variable {z : State} {d : FabricDie} {t o : Nat} (hplace : z.fabricPlace pk = .store t o) (hserves : z.serves (flaskOf t) = true)
  (hstill : z.moving t = false)
include hplace hserves hstill

theorem State.applyRead_of_store (hfree : z.dequeOwns t o pk.len.toNat = false) : z.applyRead d pk = z.respondKept d.val pk
    (if z.wordsPoisoned (storeAt t + o) pk.len.toNat then stPOISON else stOK) (z.bytes (storeAt t + o) pk.len.toNat) := by
  rw [State.applyRead, hplace]
  exact State.fabricStore_of_open hserves hstill hfree

theorem State.applyWrite_of_store (hfree : z.dequeOwns t o pk.payload.length = false) : z.applyWrite d pk =
    ((z.storeBytes (storeAt t + o) pk.payload (bitAt pk.mask.toNat 0)).watchWrite (storeAt t + o) pk.payload.length).respond
      pk kRESPACK stOK [] := by
  rw [State.applyWrite, hplace]
  exact State.fabricStore_of_open hserves hstill hfree

end

section
variable {z : State} {o : Nat} (d : FabricDie) (hplace : z.fabricPlace pk = .hbm o)
include hplace

theorem State.applyRead_of_hbm : z.applyRead d pk =
    z.submit { kind := 0, src := .fabric pk.job, off := o, len := pk.len.toNat, reply := .fabric d pk } := by
  rw [State.applyRead, hplace]
  rfl

theorem State.applyWrite_of_hbm : z.applyWrite d pk =
    z.submit { kind := 1, src := .fabric pk.job, off := o, len := pk.payload.length, data := pk.payload,
               poisoned := bitAt pk.mask.toNat 0, reply := .fabric d pk } := by
  rw [State.applyWrite, hplace]
  rfl

theorem State.applyAtomicPk_of_hbm (fetch : Bool) : z.applyAtomicPk d pk fetch =
    z.submit { kind := 2, src := .fabric pk.job, off := o / 64 * 64, len := 64, data := pk.payload, op := pk.op.toNat,
               ty := pk.ty.toNat, mask := pk.mask.toNat, fetch := fetch, reply := .fabric d pk } := by
  rw [State.applyAtomicPk, hplace]
  rfl

end

section
variable (d : FabricDie) (h : s.admits pk)
include h

theorem State.recvRead_of_room (hroom : (s.admitted pk).repliesFull d.val = false) :
    s.recvRead d pk = (s.admitted pk).applyRead d pk :=
  State.letIn_of_admits h (if_neg (by simp [hroom]))

theorem State.recvWrite_of_admits : s.recvWrite d pk = (s.admitted pk).applyWrite d pk := State.letIn_of_admits h rfl

theorem State.recvAtomic_of_listed {fetch : Bool} (hlisted : atomicOk pk.op.toNat pk.ty.toNat pk.mask.toNat = true)
    (hroom : fetch = true → (s.admitted pk).repliesFull d.val = false) :
    s.recvAtomic d pk fetch = (s.admitted pk).applyAtomicPk d pk fetch := by
  refine (if_neg (by simp [hlisted])).trans (State.letIn_of_admits h (if_neg ?_))
  simpa using hroom

end

/-! ### Messages (R333) -/

/-- A context takes the messages of a packet's job: it is open and of the job, and its ring is enabled. -/
def State.msgTaken (z : State) (pk : Packet) (c : Nat) : Prop :=
  (z.ctx c).isOpen = true ∧ (z.ctx c).job = pk.job.toNat ∧ z.getF fdEcrokMringEn pgEcrok c = 1

/-- The messages that wait in a context's ring, by the consumer index that `y` holds. -/
def State.msgsWaiting (z y : State) (c : Nat) : Nat :=
  (z.getF fdEcrokMringTail pgEcrok c + 2 ^ 32 - y.loadNat (z.getF fdEcrokMringCons pgEcrok c) 8 % 2 ^ 32) % 2 ^ 32

/-- The slot of a message: its payload, cut or filled to 254 bytes, and its length. -/
def msgSlot (p : List Byte) : List Byte :=
  if 254 < p.length then p.take 254 ++ leBytes 2 p.length else (p ++ zeros (254 - p.length)).take 254 ++ leBytes 2 p.length

/-- A message in place in the ring of context c, and acknowledged. -/
def State.msgStored (y : State) (pk : Packet) (c tail a : Nat) : State :=
  (((((y.drainRange a 256).hbmBytes a (msgSlot pk.payload) (bitAt pk.mask.toNat 0)).setF fdEcrokMringTail pgEcrok c (tail + 1)).watchWrite
    a 256).respond pk kRESPACK stOK [])

section
variable {y : State} {c n : Nat} (d : FabricDie) (h : s.admits pk) (hc : c = pk.offset.toNat % 16) (htaken : (s.admitted pk).msgTaken pk c)
  (hn : n = 2 ^ (s.admitted pk).getF fdEcrokMringLog2 pgEcrok c)
  (hy : y = (s.admitted pk).drainRange ((s.admitted pk).getF fdEcrokMringCons pgEcrok c) 8)
include h hc htaken hn hy

theorem State.recvMsg_of_room (hroom : (s.admitted pk).msgsWaiting y c < n) :
    s.recvMsg d pk = y.msgStored pk c ((s.admitted pk).getF fdEcrokMringTail pgEcrok c)
      ((s.admitted pk).getF fdEcrokMringBase pgEcrok c + (s.admitted pk).getF fdEcrokMringTail pgEcrok c % n * 256) := by
  subst hc hn hy
  obtain ⟨hopen, hjob, hen⟩ := htaken
  exact State.letIn_of_admits h ((if_neg (by simp [hopen, hjob, hen])).trans ((if_neg (not_le.mpr hroom)).trans rfl))

theorem State.recvMsg_of_full (hkind : pk.kind.toNat = kMSG) (hfull : n ≤ (s.admitted pk).msgsWaiting y c) :
    s.recvMsg d pk = ((s.count pgEcrok 1 1).noteLow pk).respond pk kRESPACK stBUSY [] := by
  subst hc hn hy
  obtain ⟨hopen, hjob, hen⟩ := htaken
  refine (State.letIn_of_busy h ((if_neg (by simp [hopen, hjob, hen])).trans (if_pos hfull))).trans ?_
  rw [hkind]
  rfl

end

/-! ### Updates (R335) -/

section
variable {y : State} {base : Nat} (d : FabricDie) (h : s.admits pk) (hbase : base = (s.admitted pk).replicaBase pk.job.toNat pk.offset.toNat)
  (hy : y = (s.admitted pk).drainRange base 8)
include h hbase hy

theorem State.recvRupdate_of_older (hold : leField pk.payload 0 8 < y.loadNat base 8) :
    s.recvRupdate d pk = y.respond pk kRESPACK stDUP [] := by
  subst hbase hy
  exact State.letIn_of_admits h (if_pos hold)

theorem State.recvRupdate_of_newer {rq : HbmReq} (hnew : y.loadNat base 8 ≤ leField pk.payload 0 8)
    (hrq : rq = { kind := 1, src := .fabric pk.job, off := pk.offset.toNat, len := (pk.payload.drop 8).length, data := pk.payload.drop 8,
                  poisoned := bitAt pk.mask.toNat 0, reply := .fabric d pk })
    (hallowed : y.hbmRefusal rq = none) :
    s.recvRupdate d pk = (y.hbmBytes base (leBytes 8 (leField pk.payload 0 8))).submit rq := by
  subst hbase hy hrq
  refine State.letIn_of_admits h ((if_neg (not_lt.mpr hnew)).trans ?_)
  dsimp only [fabricSource]
  rw [hallowed]

end

/-! ### Low marks, duplicates and other tags (R318–R321) -/

theorem State.recvLowmark_of_served (hvalid : s.nodeIdValid = true) (hgood : packetBad pk = false) (htag : s.tagCheck pk = .served) :
    s.recvLowmark pk = s.noteLow pk := by
  simp [State.recvLowmark, hvalid, hgood, htag]

section
variable (d : FabricDie) (hvalid : s.nodeIdValid = true) (hgood : packetBad pk = false) (hout : s.err.out = false)
include hvalid hgood hout

theorem State.recvWrite_of_duplicate (htag : s.tagCheck pk = .served) (hseq : pk.seq.toNat ≠ s.expected pk)
    (hbehind : seqBehind (s.expected pk) pk.seq.toNat ≤ 4096) : s.recvWrite d pk = ((s.count pgEcrok 1 1).noteLow pk).answerDup pk := by
  rw [State.recvWrite, State.letIn_of_good hvalid hgood hout, htag]
  dsimp only
  rw [if_neg hseq, if_pos hbehind]

theorem State.recvWrite_of_stale (htag : s.tagCheck pk = .stale) : s.recvWrite d pk = (s.count pgEcrok 1 1).dropStale := by
  rw [State.recvWrite, State.letIn_of_good hvalid hgood hout, htag]

theorem State.recvWrite_of_foreign (htag : s.tagCheck pk = .foreign) : s.recvWrite d pk = (s.count pgEcrok 1 1).dropForeign := by
  rw [State.recvWrite, State.letIn_of_good hvalid hgood hout, htag]

end
end

/-- Settles O36: a request that is admitted is applied to its place, or answered by the branch of its rule that it meets. -/
theorem fabricRequests : Obligations.FabricRequests := by
  unfold Obligations.FabricRequests
  rintro d pk s _ rfl
  refine ⟨s.expected_admitted pk, fun h hroom t o hplace hserves hstill hfree => ?_, fun h hroom o hplace => ?_,
    fun h t o hplace hserves hstill hfree => ?_, fun h o hplace => ?_, fun h hlisted o hplace => ⟨?_, fun hroom => ?_⟩, ?_,
    fun h base y hbase hy => ⟨fun hold => ?_, fun hnew rq hrq hallowed => ?_⟩, fun hvalid hgood htag => ?_,
    fun hvalid hgood hout => ⟨fun htag hseq hbehind => ?_, fun htag => ?_, fun htag => ?_⟩⟩
  · exact ⟨_, rfl, (State.recvRead_of_room d h hroom).trans (State.applyRead_of_store hplace hserves hstill hfree)⟩
  · exact ⟨_, rfl, (State.recvRead_of_room d h hroom).trans (State.applyRead_of_hbm d hplace)⟩
  · exact ⟨_, rfl, (State.recvWrite_of_admits d h).trans (State.applyWrite_of_store hplace hserves hstill hfree)⟩
  · exact ⟨_, rfl, (State.recvWrite_of_admits d h).trans (State.applyWrite_of_hbm d hplace)⟩
  · exact ⟨_, rfl, (State.recvAtomic_of_listed d h hlisted (by simp)).trans (State.applyAtomicPk_of_hbm d hplace false)⟩
  · exact ⟨_, rfl, (State.recvAtomic_of_listed d h hlisted fun _ => hroom).trans (State.applyAtomicPk_of_hbm d hplace true)⟩
  · rintro h c n _ y hc hopen hjob hen hn rfl hy
    refine ⟨fun hroom hlength => ?_, fun hfull hkind => ?_⟩
    · rintro _ rfl
      refine ⟨_, rfl, _, rfl, ?_⟩
      rw [State.recvMsg_of_room d h hc ⟨hopen, hjob, hen⟩ hn hy hroom, State.msgStored, msgSlot, if_neg (not_lt.mpr hlength)]
    · exact ⟨_, rfl, State.recvMsg_of_full d h hc ⟨hopen, hjob, hen⟩ hn hy hkind hfull⟩
  · exact ⟨_, rfl, State.recvRupdate_of_older d h hbase hy hold⟩
  · exact ⟨_, rfl, State.recvRupdate_of_newer d h hbase hy hnew hrq hallowed⟩
  · refine ⟨_, rfl, ?_⟩
    rw [State.recvLowmark_of_served hvalid hgood htag]
    exact ⟨mapGet_put_self _ _ _ _, rfl⟩
  · exact ⟨_, rfl, State.recvWrite_of_duplicate d hvalid hgood hout htag hseq hbehind⟩
  · exact ⟨_, rfl, State.recvWrite_of_stale d hvalid hgood hout htag⟩
  · exact ⟨_, rfl, State.recvWrite_of_foreign d hvalid hgood hout htag⟩

end Sys2Proof.Machine
end
